-- ==== Sys2Proof/Word.lean ====
section
/-!
DEFINITION. The words of the machine and their plainest arithmetic: bytes, 32-bit registers and 64-bit counts.
Everything that computes with them stands in the files of Sys2Proof/Machine/.
-/
namespace Sys2Proof

/-- A byte of any memory, packet or image. -/
abbrev Byte := BitVec 8

/-- A register of the register address map (R11). -/
abbrev W32 := BitVec 32

/-- A 64-bit value of the wire, an image or the timebase. -/
abbrev W64 := BitVec 64

end Sys2Proof
end

