-- ==== Sys2Proof/Syntax.lean ====
section
/-!
DEFINITION. The commands the block takes, one constructor for each row of spec/opcode_table.json, and the data they
carry. A row that stands for an event carries what the outside world, or the physics, decides about it.
-/
namespace Sys2Proof

/-- One of the five streams of a logical core of a context (R138): `strm` 0 MXE0, 1 MXE1, 2 VXE, 3 TXE, 4 SEQ. -/
structure StreamRef where
  ctx : Fin 64
  lc : Fin 64
  lk : Fin 8
  strm : Fin 5
  deriving DecidableEq, Repr

/-- A logical core of a context. -/
structure CoreRef where
  ctx : Fin 64
  lc : Fin 64
  lk : Fin 8
  deriving DecidableEq, Repr

/-- What the check bits find while a command reads memory (R100, R121): pieces that have become uncorrectable,
pieces read with a corrected error, and pieces of HBM that the stack corrected on its own die (R119), as addresses of the
machine's memory. -/
structure Seen where
  ue : List Nat
  ce : List Nat
  ode : List Nat := []
  deriving DecidableEq, Repr

/-- Nothing found: every piece reads clean. -/
def Seen.clean : Seen := ⟨[], [], []⟩

/-- A host address as a YCP reply uses it (R329): IP address, UDP port, and the Ethernet port of the packet. -/
structure Peer where
  ip : Nat
  udp : Nat
  port : Fin 8
  deriving DecidableEq, Repr

/-- The header of a received YCP packet that passes checks 1, 2, 3, 5 and 6 of R324, and where it came from. The
parameter words P0–P5 and the payload stand in the command itself where it uses them. -/
structure Hdr where
  peer : Peer
  session : BitVec 32
  seq : BitVec 64
  tag : BitVec 16
  ctx : BitVec 16
  dual : Bool
  retry : Bool
  deriving DecidableEq, Repr

/-- What a received packet's trailer says (R265). -/
inductive Trail where
  | good | bad | stomped
  deriving DecidableEq, Repr

/-- A fabric packet (R264, R265). -/
structure Packet where
  dst : Nat
  src : Nat
  tc : Nat
  vc : Nat
  ptype : Nat
  hops : Nat
  lseq : Nat
  xtag : Nat
  tspec : Nat
  payload : List Byte
  hcrcOk : Bool := true
  marked : Bool := false
  trail : Trail := .good
  deriving DecidableEq, Repr

/-- What the hardware of an MXE does wrong during a DRAIN (R72–R77): errors added to accumulators before the first check
and during the retry (data accumulator 64 × row + column, checksum-row accumulator j at 8192 + j, checksum-column
accumulator i at 8256 + i), parity errors found, and whether the retry has not ended when this command ends. -/
structure AbftIn where
  flips : List (Nat × Int) := []
  parity : Bool := false
  flips2 : List (Nat × Int) := []
  parity2 : Bool := false
  unfinished : Bool := false
  deriving DecidableEq, Repr

/-- What drains (R374, R383): a context, or a reset domain by its kind and unit (R372). -/
inductive DrainRef where
  | ctx (c : Fin 64)
  | dom (kind : Fin 3) (unit : BitVec 12)
  deriving DecidableEq, Repr

/-- What the hardware shows at the end of a bring-up stage (R364): the dies whose DMP answers (S2); units, as physical unit IDs,
that fuses mark defective (S2) or that fail the scan (S4), the march (S5) or the known-answer run (S9); whether the
patterns read from flash verify (S4); the stacks (S3) and bridges (S7) that trained; and the good reduction-memory slots of
each hub (S5). -/
structure StageIn where
  dies : List (Fin 8) := []
  units : List (BitVec 32) := []
  flashOk : Bool := true
  hbmSet : List (Fin 16) := []
  bridges : List (Fin 14) := []
  slots : List Nat := []
  deriving DecidableEq, Repr

/-- What the DMP of a die samples (R409), in 0.1 °C, none where a sensor does not answer: diode `i` of cluster `c` at
2 c + i, the 8 die sensors, and the estimated power of each cluster in W (R411). -/
structure SensorIn where
  diodes : List (Option Int) := []
  dies : List (Option Int) := []
  power : List Nat := []
  deriving DecidableEq, Repr

/-- The results of the privileged memory tests of one hub (R112). -/
structure MemTests where
  ssram : Bool := true
  cpx : Bool := true
  psram : Bool := true
  repairs : BitVec 8 := 0
  deriving DecidableEq, Repr

/-- Where an MCTP request comes from: the endpoint ID of its sender, and its instance ID (R480). -/
structure MsgRef where
  src : BitVec 8
  iid : BitVec 5
  deriving DecidableEq, Repr

/-- The commands of spec/opcode_table.json, one constructor for each row, in the table's order. -/
inductive Instr where
  /-- NOP (R140): Control instruction that takes up to two tokens and posts up to two, doing no other work. -/
  | nop (r : StreamRef)
  /-- LOOP (R141): Opens a static or bounded loop; a bounded loop reads its length register once when it starts. -/
  | loop (r : StreamRef)
  /-- ENDLOOP (R141): Closes the innermost open loop and either repeats the body or continues after it. -/
  | endloop (r : StreamRef)
  /-- BAR (R158): A stream arrives at an epoch barrier once every earlier instruction of the stream has retired. -/
  | bar (r : StreamRef) (sn : Seen)
  /-- MIGRATION_PAGE_DONE (R218): A page copy completes; the unit invalidates cached entries, writes both map copies and frees the old frame. -/
  | migrationPageDone (ctx : Fin 64) (sn : Seen)
  /-- BARRIER_RELEASE (R158): Once migration and bank wakes are done, the next instruction of each stream may start. -/
  | barrierRelease (ctx : Fin 64)
  /-- HALT (R159): A stream arrives at the context's final barrier. -/
  | halt (r : StreamRef)
  /-- CTRRD (R430): Reads a counter, the FP flags or the timebase at its start and writes 64 bits. -/
  | ctrrd (r : StreamRef) (sn : Seen)
  /-- SETFMT (R70): Sets the A, B and output formats, RND, OVF and TOL for the following MXE instructions. -/
  | setfmt (r : StreamRef)
  /-- LOADB (R69): Retires after 1 step and starts staging the operand heads of the next MMA or MMAZ. -/
  | loadb (r : StreamRef)
  /-- LOADB_STAGING_DONE (R69): Staging completes 64 steps after the LOADB issued, and a waiting MMA may begin multiplying. -/
  | loadbStagingDone (r : StreamRef)
  /-- MMA (R66): Multiplies A by B, adds every product into the EWA accumulators in reference order and appends itself to the replay list. -/
  | mma (r : StreamRef) (sn : Seen)
  /-- MMAZ (R45): Clears the accumulator state, abandons any open accumulation and then acts as MMA. -/
  | mmaz (r : StreamRef) (sn : Seen)
  /-- DRAIN (R68): Checks the checksums, converts the results, commits all 8,192 of them or none and ends the accumulation. -/
  | drain (r : StreamRef) (sn : Seen) (ab : AbftIn)
  /-- CHKRD (R78): Writes the tile status record of the last retired DRAIN to the scratchpad. -/
  | chkrd (r : StreamRef) (sn : Seen)
  /-- VADD (R79): Elementwise addition on the VXE. -/
  | vadd (r : StreamRef) (sn : Seen)
  /-- VSUB (R79): Elementwise subtraction on the VXE. -/
  | vsub (r : StreamRef) (sn : Seen)
  /-- VMUL (R79): Elementwise multiplication on the VXE. -/
  | vmul (r : StreamRef) (sn : Seen)
  /-- VFMA (R79): Elementwise fused multiply-add S1 × S2 + S3 with a single rounding. -/
  | vfma (r : StreamRef) (sn : Seen)
  /-- VMAX (R487): Elementwise IEEE maximum, or signed maximum for INT32. -/
  | vmax (r : StreamRef) (sn : Seen)
  /-- VMIN (R487): Elementwise IEEE minimum, or signed minimum for INT32. -/
  | vmin (r : StreamRef) (sn : Seen)
  /-- VABS (R59): Clears the sign bit of each element and sets no flag. -/
  | vabs (r : StreamRef) (sn : Seen)
  /-- VNEG (R59): Inverts the sign bit of each element and sets no flag. -/
  | vneg (r : StreamRef) (sn : Seen)
  /-- VMOV (R59): Copies elements bit for bit. -/
  | vmov (r : StreamRef) (sn : Seen)
  /-- VSCL (R79): Multiplies a vector by the scalar at element 0 of S2. -/
  | vscl (r : StreamRef) (sn : Seen)
  /-- VCMP (R487): Compares elements quietly and writes a packed mask. -/
  | vcmp (r : StreamRef) (sn : Seen)
  /-- VSEL (R79): Selects S1 or S2 for each element according to a mask. -/
  | vsel (r : StreamRef) (sn : Seen)
  /-- VRED (R80): Reduces each row by SUM, SUMSQ, MAX or MIN in the fixed lane order. -/
  | vred (r : StreamRef) (sn : Seen)
  /-- VEXP (R85): Computes e^x on the function unit. -/
  | vexp (r : StreamRef) (sn : Seen)
  /-- VRCP (R85): Computes 1/x, correctly rounded. -/
  | vrcp (r : StreamRef) (sn : Seen)
  /-- VRSQ (R85): Computes 1/√x. -/
  | vrsq (r : StreamRef) (sn : Seen)
  /-- VCVT (R486): Converts between formats under RND and OVF and sets the VCVT flags. -/
  | vcvt (r : StreamRef) (sn : Seen)
  /-- VSMX (R82): Performs an online-softmax step over R rows, writing p, m_new, l_new and alpha. -/
  | vsmx (r : StreamRef) (sn : Seen)
  /-- VROPE (R83): Rotates element pairs by table or computed angles. -/
  | vrope (r : StreamRef) (sn : Seen)
  /-- VGATHER (R84): Copies rows through a slot table, zero-filling empty slots and faulting on an index out of range. -/
  | vgather (r : StreamRef) (sn : Seen)
  /-- MOVE (R87): Copies a two-dimensional block, possibly slotted, between memories. -/
  | move (r : StreamRef) (sn : Seen)
  /-- FILL (R88): Writes a repeated 32-bit pattern over its destination. -/
  | fill (r : StreamRef) (sn : Seen)
  /-- MOVEPG (R89): Checks each page-map entry and copies the KV pages it names, in ascending order. -/
  | movepg (r : StreamRef) (sn : Seen)
  /-- TPOST (R90): Posts a token to a channel of another logical core once earlier writes of the stream are visible. -/
  | tpost (r : StreamRef)
  /-- TOKEN_ARRIVAL (R146): A remote token reaches the consumer core; the payload byte count is checked before the token is added. -/
  | tokenArrival (r : StreamRef)
  /-- COLL (R91): Hands one collective contribution to the CVE after the start checks of R295. -/
  | coll (r : StreamRef) (sn : Seen)
  /-- INSTRUCTION_START (R139): An instruction starts once its predecessor rule, hazard hold and token waits are satisfied, taking its tokens. -/
  | instructionStart (r : StreamRef)
  /-- INSTRUCTION_RETIRE (R139): An instruction's results become visible and its tokens are posted. -/
  | instructionRetire (r : StreamRef)
  /-- STREAM_WATCHDOG_EXPIRY (R165): A stream makes no progress for the stall limit, and the context faults with BAR_STALL or STREAM_STALL. -/
  | streamWatchdogExpiry (r : StreamRef)
  /-- TRANSLATION_WALK (R135): A translation miss completes its walk of descriptor and entry and installs the entry, or faults. -/
  | translationWalk (ctx : Fin 64) (region : Fin 256) (lpn : BitVec 24) (walker : Fin 66) (sn : Seen)
  /-- CONTEXT_FAULT (R382): A detected fault stops the context's streams, captures state, resets the context, sends a Squall and reports the fault. -/
  | contextFault (ctx : Fin 64) (fw : Option (BitVec 32))
  /-- SQUALL_PASS (R386): A further Squall pass starts at least 100 µs after the previous one, up to three passes. -/
  | squallPass
  /-- SQUALL_RECEIVE (R387): A received Squall is deduplicated and logged, and faults the local contexts of the job. -/
  | squallReceive
  /-- DOMAIN_DRAIN_DONE (R374): All transfers issued out of a domain or context have completed. -/
  | domainDrainDone (w : DrainRef)
  /-- DRAIN_TIMEOUT (R374): The 100 µs drain bound expires; the E9 abandons incomplete transfers and counts them. -/
  | drainTimeout (w : DrainRef) (n : BitVec 16)
  /-- UNIT_CHECK (R390): The check of a suspect unit completes, and the unit becomes GOOD or PERMANENT. -/
  | unitCheck (punit : BitVec 32) (pass : Bool)
  /-- REGION_TEST_START (R107): The cluster controller locks the next 4 KiB region and begins its save, march and restore. -/
  | regionTestStart (c : Fin 64) (sn : Seen)
  /-- REGION_TEST_PROMOTE (R108): A region still locked 10 µs after its lock takes the transfer-class slot ahead of other requesters. -/
  | regionTestPromote (c : Fin 64)
  /-- REGION_TEST_UNLOCK (R108): The region test completes its write-back and unlocks the region. -/
  | regionTestUnlock (c : Fin 64) (fails : Bool)
  /-- HBM_TEMP_POLL (R125): The 1 ms stack temperature poll sets the refresh rate, throttle or HOLD state. -/
  | hbmTempPoll (st : Fin 16) (t : Option Int)
  /-- PATROL_SCRUB (R123): The scrub reads a sector in an idle command slot and writes corrected data back. -/
  | patrolScrub (st : Fin 16) (found : Option Bool)
  /-- ECS_READ (R119): Every 60 s the controller reads the stack's ECS error count into HBM_ECS. -/
  | ecsRead (st : Fin 16) (n : BitVec 32)
  /-- TAMPER_EVENT (R113): A glitch, light or lid event wipes the secure SRAM and sends a wipe request to the other SEP. -/
  | tamperEvent (hub : Fin 2) (cause : Fin 4)
  /-- WIPE_REQUEST (R113): A SEP message from the other hub starts a wipe. -/
  | wipeRequest (hub : Fin 2)
  /-- LOS_ASSERT (R249): A lane's optical power stays low, and the link's receive direction goes DOWN. -/
  | losAssert (n : Fin 24) (l : Fin 8) (pwr : Byte)
  /-- LOS_CLEAR (R249): A lane's optical power rises above −10 dBm. -/
  | losClear (n : Fin 24) (l : Fin 8) (pwr : Byte)
  /-- LOL_ASSERT (R249): A lane's clock recovery loses the data phase, and the link goes DOWN. -/
  | lolAssert (n : Fin 24) (l : Fin 8)
  /-- LOL_CLEAR (R256): A lane's clock recovery locks. -/
  | lolClear (n : Fin 24) (l : Fin 8)
  /-- CODEWORD_RECEIVE (R245): A lane decodes one RS(544,514) codeword and delivers its blocks and LLC, or an error mark. -/
  | codewordReceive (n : Fin 24) (lane : Fin 8) (wrong ctl : Nat) (blocks badHeads : List Nat)
  /-- IDENT_RECEIVE (R258): A received IDENT is compared with the installation map, leading to UP or MISWIRED. -/
  | identReceive (n : Fin 24)
  /-- IDENT_SEND (R256): An identifying link sends IDENT every 1 µs. -/
  | identSend (n : Fin 24)
  /-- TRAINING_STEP_DONE (R256): A link training step such as adaptation or deskew completes, and the next step begins. -/
  | trainingStepDone (n : Fin 24) (res : List (Nat × List Int × Nat))
  /-- TRAINING_TIMEOUT (R256): A training step misses its bound and the attempt fails; a fast attempt falls back to full. -/
  | trainingTimeout (n : Fin 24)
  /-- FEC_WINDOW (R253): Every 1 s the corrected-symbol ratio sets or clears DEGRADED. -/
  | fecWindow (n : Fin 24)
  /-- EYE_SCAN_START (R254): A write of FL_SCAN_CTRL.START starts, restarts or aborts a live eye scan. -/
  | eyeScanStart (n : Fin 24) (l : Fin 8) (v : W32)
  /-- EYE_SCAN_DONE (R254): The scan's dwell ends, and DONE and ERRORS are set. -/
  | eyeScanDone (n : Fin 24) (l : Fin 8) (errors : Nat)
  /-- RETRAIN (R261): A write of FL_CTRL.RETRAIN starts a new training and clears MISWIRED, DEAD and RETRIES. -/
  | retrain (n : Fin 24)
  /-- LINK_ENABLE (R261): A write of FL_CTRL.EN enables a link, or turns its lasers off and sets DISABLED. -/
  | linkEnable (n : Fin 24) (en : Bool)
  /-- PACKET_RECEIVE (R268): The receiver accepts, discards or NAKs a packet by LSEQ and checks, and routes an accepted one. -/
  | packetReceive (n : Fin 24)
  /-- PACKET_TRANSMIT (R277): An output port starts sending a packet once it holds credits and bucket bytes for the whole packet. -/
  | packetTransmit (n : Fin 24)
  /-- REPLAY_TIMEOUT (R269): The oldest kept packet has gone 20 µs unacknowledged, so the sender restores credits and replays. -/
  | replayTimeout (n : Fin 24)
  /-- NAK_REPEAT (R268): While a NAK condition lasts, the receiver repeats the NAK every 2 µs. -/
  | nakRepeat (n : Fin 24)
  /-- XTAG_TIMEOUT (R266): A request tag's timeout expires, and the tag is freed. -/
  | xtagTimeout (t : Fin 16384)
  /-- TIME_SEND (R280): Every 1 ms a hub sends a TIME packet on each UP link. -/
  | timeSend (hub : Fin 2)
  /-- TIME_RECEIVE (R281): A TIME packet on UP_LINK corrects the timebase and sets the stratum. -/
  | timeReceive
  /-- CONGESTION_WINDOW (R283): A 100 µs congestion window closes, and its bins are kept. -/
  | congestionWindow
  /-- FABRIC_DRAINED (R284): Neither router holds a TC1–TC3 packet, so DRAINED sets and outstanding STARTs complete. -/
  | fabricDrained
  /-- COLL_ADMIT (R300): The admission procedure gives waiting collectives channels and slots, and admitted collectives send ANNOUNCEs. -/
  | collAdmit (v : Fin 2) (sn : Seen)
  /-- ANNOUNCE_RECEIVE (R297): A neighbour's ANNOUNCE grants credit, waits in the early-arrival pool or raises PEER_MISMATCH. -/
  | announceReceive
  /-- REFUSE_RECEIVE (R298): A REFUSE answer makes the sender repeat its ANNOUNCE. -/
  | refuseReceive
  /-- ANNOUNCE_REPEAT (R298): A refused ANNOUNCE is resent every 1 ms. -/
  | announceRepeat (g : Fin 1024) (seq : BitVec 16)
  /-- EARLY_TIMEOUT (R298): The full pool's oldest slot waits beyond EARLY_TO_MS; the bound context faults, or the event is logged and a Squall sent. -/
  | earlyTimeout (g : Fin 1024)
  /-- COLL_ADMIT_TIMEOUT (R301): A collective unadmitted after 100 ms enters staged mode or faults. -/
  | collAdmitTimeout (g : Fin 1024) (seq : BitVec 16)
  /-- SEGMENT_TRANSMIT (R302): The CVE sends a segment of a ready chunk under weighted sharing. -/
  | segmentTransmit (v : Fin 2) (sn : Seen)
  /-- REDUCE_SEGMENT (R299): The reduction unit combines one 4,096-byte segment in its round robin. -/
  | reduceSegment (v : Fin 2) (sn : Seen)
  /-- COLL_DATA_RECEIVE (R304): A COLL_DATA or STAGED_DATA segment lands in a buffer; duplicates are discarded. -/
  | collDataReceive (sn : Seen)
  /-- CRC_SEGMENT_RECEIVE (R305): A chunk's CRC-64 segment arrives, and the complete chunk is checked. -/
  | crcSegmentReceive (sn : Seen)
  /-- DIGEST_RECEIVE (R306): A piece's digest arrives and is compared; on pass the piece is used and the COLL may retire. -/
  | digestReceive (sn : Seen)
  /-- COLL_CREDIT_RECEIVE (R304): A COLL_CTRL CREDIT returns one chunk of credit. -/
  | collCreditReceive
  /-- GUST_RECEIVE (R311): A GUST packet is combined, checked, delivered or forwarded by the router's gust ALU. -/
  | gustReceive (sn : Seen)
  /-- HELLO (R325): Starts a session key exchange and returns a half-open session. -/
  | hello (hd : Hdr) (version : Byte) (payload : List Byte)
  /-- SESSION_OPEN (R325): Verifies the host signature and key and opens the session. -/
  | sessionOpen (hd : Hdr) (p0 : BitVec 32) (payload : List Byte)
  /-- SESSION_CLOSE (R333): Replies OK, then closes the session. -/
  | sessionClose (hd : Hdr) (len : Nat)
  /-- ECHO (R333): Returns its words and payload unchanged. -/
  | echo (hd : Hdr) (p : List (BitVec 32)) (payload : List Byte)
  /-- REKEY (R327): Exchanges new X448 keys and derives new session keys. -/
  | rekey (hd : Hdr) (payload : List Byte)
  /-- REG_READ (R333): Reads one register, with address checks. -/
  | regRead (hd : Hdr) (len : Nat) (p0 : BitVec 32)
  /-- REG_WRITE (R333): Writes one register, with address checks. -/
  | regWrite (hd : Hdr) (len : Nat) (p0 p1 : BitVec 32)
  /-- REG_RMW (R333): Atomically modifies masked register bits and returns the old value. -/
  | regRmw (hd : Hdr) (len : Nat) (p0 p1 p2 : BitVec 32)
  /-- REG_READ_BLOCK (R333): Reads up to 2,048 registers in ascending order after checking the whole range. -/
  | regReadBlock (hd : Hdr) (len : Nat) (p0 p1 : BitVec 32)
  /-- REGISTER_WRITE (R10): A write to a register without behaviour of its own stores, clears or sets bits by access type. -/
  | registerWrite (a : BitVec 32) (v : W32)
  /-- READ_CAPTURE (R34): A read of a _LO register of a 64-bit pair captures all bits for the matching _HI read in the session. -/
  | readCapture (session a : BitVec 32)
  /-- BRINGUP_STEP (R356): Starts bring-up stage n when the order rules allow, and completes when the stage ends. -/
  | bringupStep (hd : Hdr) (len : Nat) (p0 p1 : BitVec 32)
  /-- BRINGUP_GO (R357): A write to HUB_BRINGUP_GO starts a stage under the same checks, without a completion. -/
  | bringupGo (v : BitVec 32)
  /-- BRINGUP_STATUS (R357): Returns the stage and the stage status. -/
  | bringupStatus (hd : Hdr) (len : Nat)
  /-- STAGE_END (R354): A bring-up stage ends with PASS, PASS_DEGRADED or FAIL, and its completion is sent. -/
  | stageEnd (r : StageIn)
  /-- STAGE_TIMEOUT (R354): A stage misses its bound; it ends with FAIL TIMEOUT, or S8 ends PASS or PASS_DEGRADED. -/
  | stageTimeout (full : Bool)
  /-- RESET_DOMAIN_CORE (R372): Resets one physical core with no resident context, ending with a KAR. -/
  | resetDomainCore (hd : Hdr) (len : Nat) (p1 : BitVec 32)
  /-- RESET_DOMAIN_CLUSTER (R372): Resets one cluster with no context, ending with a KAR. -/
  | resetDomainCluster (hd : Hdr) (len : Nat) (p1 : BitVec 32)
  /-- RESET_DOMAIN_PARTITION (R372): Aborts the partition's contexts and resets each member cluster. -/
  | resetDomainPartition (hd : Hdr) (len : Nat) (p1 : BitVec 32)
  /-- RESET_DOMAIN_PACKAGE (R377): Completes on both planes, aborts every context, ends sessions and resets all but the always-on domains. -/
  | resetDomainPackage (hd : Hdr) (len : Nat) (p1 : BitVec 32)
  /-- RESET_END (R373): A domain reset finishes its KAR and leaves reset, and its completion is sent. -/
  | resetEnd (kind : Fin 3) (unit : BitVec 12) (bad : List (BitVec 32))
  /-- RENEWAL_RESUME_TIMEOUT (R377): The rebooted holder has not resumed renewals within 2 s of a package reset, so AUTH is freed. -/
  | renewalResumeTimeout
  /-- TRAINING_SAVE (R369): Saves the training settings of the selected classes to the NV store. -/
  | trainingSave (hd : Hdr) (len : Nat) (p0 : BitVec 32) (flashOk : Bool)
  /-- CTX_CREATE (R333): Creates a context with a job ID, partition, stall limit and seed, and returns a handle. -/
  | ctxCreate (hd : Hdr) (len : Nat) (p0 p1 p2 p3 : BitVec 32)
  /-- IMAGE_LOAD (R334): Receives image parts and on the FINAL part checks the image in the order of R197. -/
  | imageLoad (hd : Hdr) (p0 p1 p2 : BitVec 32) (payload : List Byte)
  /-- PLACEMENT_BIND (R206): The Placement Unit binds a checked image's clusters, core maps and pages, or fails it, and completes IMAGE_LOAD. -/
  | placementBind
  /-- CTX_START (R335): Starts a loaded context or resumes a stopped one. -/
  | ctxStart (hd : Hdr) (len : Nat) (sn : Seen)
  /-- CTX_STOP (R333): Stops every stream of the context before its next instruction. -/
  | ctxStop (hd : Hdr) (len : Nat)
  /-- CTX_ABORT (R333): Resets the context, optionally sends a Squall, and releases its resources and handle. -/
  | ctxAbort (hd : Hdr) (len : Nat) (p0 : BitVec 32)
  /-- CTX_QUERY (R333): Returns the context record with its latest slip records. -/
  | ctxQuery (hd : Hdr) (len : Nat) (p0 : BitVec 32)
  /-- PLACEMENT_QUERY (R225): Returns a placement summary or the PFNs of a region's pages. -/
  | placementQuery (hd : Hdr) (len : Nat) (p0 p1 p2 : BitVec 32)
  /-- PIN_RECORD (R222): Stores a context's current placement in a pin slot. -/
  | pinRecord (hd : Hdr) (len : Nat) (p1 : BitVec 32)
  /-- PIN_BIND (R222): Marks a created context to be placed from a pin slot. -/
  | pinBind (hd : Hdr) (len : Nat) (p1 : BitVec 32)
  /-- PIN_CLEAR (R222): Empties a pin slot. -/
  | pinClear (hd : Hdr) (len : Nat) (p1 : BitVec 32)
  /-- MEM_WRITE (R335): Writes host data into a context's HBM region. -/
  | memWrite (hd : Hdr) (p0 p1 p2 : BitVec 32) (payload : List Byte) (sn : Seen)
  /-- MEM_READ (R335): Reads up to 8,192 bytes from a context's HBM region. -/
  | memRead (hd : Hdr) (len : Nat) (p0 p1 p2 p3 : BitVec 32) (sn : Seen)
  /-- MEM_FILL (R335): Fills a range of a context's HBM region with a pattern. -/
  | memFill (hd : Hdr) (len : Nat) (p0 p1 p2 p3 p4 p5 : BitVec 32) (sn : Seen)
  /-- QP_OPEN (R319): Opens a RoCEv2 queue pair bound to one port. -/
  | qpOpen (hd : Hdr) (p1 p2 p3 : BitVec 32) (payload : List Byte)
  /-- MR_BIND (R319): Binds a range of an HBM region to an rkey. -/
  | mrBind (hd : Hdr) (len : Nat) (p1 p2 p3 p4 : BitVec 32)
  /-- RING_BIND (R319): Binds a receive ring for SENDs to a QP. -/
  | ringBind (hd : Hdr) (len : Nat) (p1 p2 p3 p4 : BitVec 32)
  /-- QP_CLOSE (R319): Closes a queue pair. -/
  | qpClose (hd : Hdr) (len : Nat) (p1 : BitVec 32)
  /-- MR_UNBIND (R319): Removes a memory binding. -/
  | mrUnbind (hd : Hdr) (len : Nat) (p1 : BitVec 32)
  /-- RDMA_SEND (R319): An inbound SEND lands in the next ring slot, or is NAKed. -/
  | rdmaSend (port : Fin 8) (qpn psn : BitVec 24) (body : List Byte) (sn : Seen)
  /-- RDMA_WRITE (R319): An inbound RDMA WRITE is translated and written, or NAKed. -/
  | rdmaWrite (port : Fin 8) (qpn psn : BitVec 24) (rkey : BitVec 32) (off : BitVec 64) (body : List Byte) (sn : Seen)
  /-- RDMA_READ (R319): An inbound RDMA READ is translated and answered, or NAKed. -/
  | rdmaRead (port : Fin 8) (qpn psn : BitVec 24) (rkey : BitVec 32) (off : BitVec 64) (len : BitVec 32) (sn : Seen)
  /-- RDMA_INVALID_REQUEST (R319): An unsupported RoCEv2 opcode is NAKed and moves the QP to the error state. -/
  | rdmaInvalidRequest (port : Fin 8) (qpn psn : BitVec 24)
  /-- CE_MARKED_PACKET (R320): A CE-marked RoCEv2 packet triggers a CNP, at most one per QP per 50 µs. -/
  | ceMarkedPacket (port : Fin 8) (qpn : BitVec 24)
  /-- GROUP_SET (R289): Writes part of a group-table entry and validates it once complete. -/
  | groupSet (hd : Hdr) (p0 : BitVec 32) (payload : List Byte)
  /-- GROUP_CLEAR (R289): Empties an unbound group entry and frees its member places. -/
  | groupClear (hd : Hdr) (len : Nat) (p0 : BitVec 32)
  /-- FABRIC_QUIESCE_START (R284): Sets QUIESCED and stops local TC1–TC3 injection; completes when DRAINED sets. -/
  | fabricQuiesceStart (hd : Hdr) (len : Nat)
  /-- FABRIC_QUIESCE_RESUME (R285): Clears QUIESCED and DRAINED and restarts injection. -/
  | fabricQuiesceResume (hd : Hdr) (len : Nat)
  /-- ROUTE_WRITE (R284): Writes up to 2,048 route entries while quiesced, or fails with FABRIC_ACTIVE. -/
  | routeWrite (hd : Hdr) (p0 : BitVec 32) (payload : List Byte)
  /-- ROUTE_ENTRY_WRITE (R284): A register write to FR_ROUTE takes effect only while QUIESCED, else sets TBL_REJECT. -/
  | routeEntryWrite (fid : BitVec 16) (v : W32)
  /-- CONGESTION_READ (R283): Returns one of the last 16 congestion records. -/
  | congestionRead (hd : Hdr) (len : Nat) (p0 : BitVec 32)
  /-- LINK_STATE_READ (R333): Returns FL_STATE of one link or all links. -/
  | linkStateRead (hd : Hdr) (len : Nat) (p0 : BitVec 32)
  /-- LINK_STATE_ENABLE (R333): Enables a link. -/
  | linkStateEnable (hd : Hdr) (len : Nat) (p0 : BitVec 32)
  /-- LINK_STATE_DISABLE (R333): Disables a link. -/
  | linkStateDisable (hd : Hdr) (len : Nat) (p0 : BitVec 32)
  /-- LINK_STATE_RETRAIN (R333): Retrains a link. -/
  | linkStateRetrain (hd : Hdr) (len : Nat) (p0 : BitVec 32)
  /-- LINK_STATE_SET_DEAD (R286): Sets a link DEAD. -/
  | linkStateSetDead (hd : Hdr) (len : Nat) (p0 : BitVec 32)
  /-- POWER_CAP_SET (R403): Sets or releases the host cap and returns the effective cap. -/
  | powerCapSet (hd : Hdr) (len : Nat) (p0 : BitVec 32)
  /-- PACE_SET (R400): Sets the programmed pace of the dies in the mask. -/
  | paceSet (hd : Hdr) (len : Nat) (p0 p1 : BitVec 32)
  /-- PACE_MODE_FREE (R399): Sets FREE pace mode for the masked dies. -/
  | paceModeFree (hd : Hdr) (len : Nat) (p1 : BitVec 32)
  /-- PACE_MODE_FIXED (R399): Sets FIXED pace mode for the masked dies. -/
  | paceModeFixed (hd : Hdr) (len : Nat) (p1 : BitVec 32)
  /-- PACE_AGREEMENT_START (R401): Starts a pace agreement for a group entry. -/
  | paceAgreementStart (hd : Hdr) (len : Nat) (p1 : BitVec 32)
  /-- PACE_AGREEMENT_STOP (R401): Stops a pace agreement. -/
  | paceAgreementStop (hd : Hdr) (len : Nat) (p1 : BitVec 32)
  /-- FOEHN_SET (R416): Enables or disables Foehn mode and sets its floor. -/
  | foehnSet (hd : Hdr) (len : Nat) (p0 p1 : BitVec 32)
  /-- THERMAL_QUERY (R418): Returns the 480-byte sensor record. -/
  | thermalQuery (hd : Hdr) (len : Nat)
  /-- MAIN_POWER_OFF (R406): The host holds main power OFF; enables drop and contexts fault with POWER_OFF. -/
  | mainPowerOff (hd : Hdr) (len : Nat)
  /-- MAIN_POWER_RELEASE (R406): Releases the host's OFF hold. -/
  | mainPowerRelease (hd : Hdr) (len : Nat)
  /-- SET_WINDOW (R429): COUNTER_CONFIG action 0 sets WINDOW_US at the next window's end. -/
  | setWindow (hd : Hdr) (len : Nat) (p1 : BitVec 32)
  /-- APPLY_COUNTER_CONFIG (R429): COUNTER_CONFIG action 1 applies up to 682 counter configurations together. -/
  | applyCounterConfig (hd : Hdr) (payload : List Byte)
  /-- CLEAR_BANKS (R429): COUNTER_CONFIG action 2 clears every bank. -/
  | clearBanks (hd : Hdr) (len : Nat)
  /-- COUNTER_CFG_WRITE (R423): A CTR_CFG write stores its event, or EVENT 0x00 with CFG_REJECT for a reserved code. -/
  | counterCfgWrite (a : BitVec 32) (v : W32)
  /-- COUNTER_SNAPSHOT (R429): Returns bytes of a snapshot record from a ring. -/
  | counterSnapshot (hd : Hdr) (len : Nat) (p0 p1 p2 p3 : BitVec 32)
  /-- SAMPLE_CONFIG (R432): Arms, stops or clears precise sampling. -/
  | sampleConfig (hd : Hdr) (len : Nat) (p0 p1 p2 : BitVec 32)
  /-- LOG_READ (R436): Returns event log, black box or sample entries. -/
  | logRead (hd : Hdr) (len : Nat) (p0 p1 p2 p3 : BitVec 32)
  /-- ATTEST_REPORT (R451): Returns the signed attestation report. -/
  | attestReport (hd : Hdr) (nonce : List Byte)
  /-- LIFECYCLE_SET (R442): Checks an authorisation record and runs the life-cycle move. -/
  | lifecycleSet (hd : Hdr) (p0 : BitVec 32) (payload : List Byte)
  /-- FW_DELTA_BEGIN (R459): Discards earlier staging and begins receiving a delta. -/
  | fwDeltaBegin (hd : Hdr) (len : Nat) (p0 p1 : BitVec 32)
  /-- FW_DELTA_DATA (R459): Writes a CRC-checked part of the delta into staging. -/
  | fwDeltaData (hd : Hdr) (p0 p1 : BitVec 32) (payload : List Byte) (flashOk : Bool)
  /-- SET_RELAY_CHAIN (R461): FW_RELAY_CONFIG action 0 sets and saves PREV_FID and NEXT_FID. -/
  | setRelayChain (hd : Hdr) (len : Nat) (p1 p2 : BitVec 32)
  /-- START_FORWARDING (R461): FW_RELAY_CONFIG action 1 starts forwarding the staged delta. -/
  | startForwarding (hd : Hdr) (len : Nat)
  /-- STOP_FORWARDING (R461): FW_RELAY_CONFIG action 2 stops forwarding. -/
  | stopForwarding (hd : Hdr) (len : Nat)
  /-- FW_ACTIVATE (R462): Reconstructs and verifies the bundle and hands over to the trial firmware. -/
  | fwActivate (hd : Hdr) (len : Nat) (p0 : BitVec 32)
  /-- FW_STATUS (R459): Returns firmware, relay and trial status. -/
  | fwStatus (hd : Hdr) (len : Nat)
  /-- CPX_STATUS (R352): Returns the holder and the complex status registers. -/
  | cpxStatus (hd : Hdr) (len : Nat)
  /-- CPX_HANDOVER (R348): Starts a planned handover, or fails when no standby is available. -/
  | cpxHandover (hd : Hdr) (len : Nat)
  /-- CPX_PREFER (R351): Names the preferred complex and saves it. -/
  | cpxPrefer (hd : Hdr) (len : Nat) (p0 : BitVec 32)
  /-- YCP_DROP (R324): A received YCP packet fails a header, session, MAC or sequence check and is dropped. -/
  | ycpDrop (peer : Peer) (bytes : List Byte)
  /-- SESSION_OPEN_TIMEOUT (R325): No SESSION_OPEN within 10 s of the HELLO reply, so the half-open session is discarded. -/
  | sessionOpenTimeout (id : BitVec 32)
  /-- REKEY_LIMIT (R327): A session reaches 2^40 packets or 24 h, and commands are answered REKEY_REQUIRED. -/
  | rekeyLimit (id : BitVec 32)
  /-- REKEY_CLOSE_TIMEOUT (R327): 60 s after the limit without REKEY, the session closes. -/
  | rekeyCloseTimeout (id : BitVec 32)
  /-- OLD_KEY_EXPIRY (R327): 5 s after a REKEY reply, old-key packets are no longer accepted. -/
  | oldKeyExpiry (id : BitVec 32)
  /-- PTP_SYNC (R321): A Sync message is timestamped for discipline. -/
  | ptpSync (port : Fin 8) (domain : Byte) (ident : BitVec 64) (t1 : Option (BitVec 64))
  /-- PTP_FOLLOW_UP (R321): A Follow_Up supplies a two-step Sync time. -/
  | ptpFollowUp (port : Fin 8) (domain : Byte) (ident t1 : BitVec 64)
  /-- PTP_DELAY_RESP (R321): A Delay_Resp completes a delay measurement, and the timebase is corrected. -/
  | ptpDelayResp (port : Fin 8) (domain : Byte) (ident t4 : BitVec 64)
  /-- PTP_ANNOUNCE (R321): An Announce feeds the best time-transmitter algorithm. -/
  | ptpAnnounce (port : Fin 8) (domain : Byte) (ident : BitVec 64) (rank : BitVec 128)
  /-- PTP_SOURCE_LOSS (R321): No usable Sync on the plane for 3 s; holdover and SRC_LOST. -/
  | ptpSourceLoss
  /-- ARP (R316): An ARP request for the port's IPv4 address is answered. -/
  | arp (port : Fin 8) (src : Peer) (target : BitVec 32)
  /-- ICMP_ECHO (R316): An ICMP or ICMPv6 echo request is answered. -/
  | icmpEcho (port : Fin 8) (src : Peer) (v6 : Bool) (dst : BitVec 128) (body : List Byte)
  /-- NEIGHBOUR_DISCOVERY (R316): An IPv6 neighbour-discovery message is handled. -/
  | neighbourDiscovery (port : Fin 8) (src : Peer) (solicit : Bool) (target : BitVec 128)
  /-- PFC_PAUSE (R316): A PFC frame on an enabled priority pauses transmission. -/
  | pfcPause (port : Fin 8) (mask : Byte) (quanta : BitVec 16)
  /-- FRAME_DROP (R316): A frame outside the Ethernet subset is dropped and counted. -/
  | frameDrop (port : Fin 8)
  /-- TIME_SOURCE_SELECT (R32): A write of PKG_TIME_CTRL.SRC drops LOCKED and follows the new discipline source. -/
  | timeSourceSelect (src : Fin 4)
  /-- PARTITION_WRITE (R202): A PLU_PART write changes membership, or is ignored with PART_REJECT. -/
  | partitionWrite (p : Fin 16) (hi : Bool) (v : W32)
  /-- INSTALLATION_MAP_WRITE (R263): A write to FR_FID or FR_PORT_CFG is saved, or ignored with CFG_REJECT while links are enabled. -/
  | installationMapWrite (a : BitVec 32) (v : W32)
  /-- CLEAR_UNIT (R391): PKG_FH_CTRL.CLEAR_UNIT returns a unit to GOOD from a SERVICE session. -/
  | clearUnit (session : BitVec 32)
  /-- KEY_COMMIT (R452): SEP_KEY_CTRL.COMMIT stores an operator-list entry. -/
  | keyCommit (slot : Fin 16)
  /-- KEY_REMOVE (R452): SEP_KEY_CTRL.REMOVE empties an entry and ends its sessions. -/
  | keyRemove (slot : Fin 16)
  /-- SERVICE_EN_WRITE (R452): Sets or clears SERVICE_EN; clearing ends vendor root sessions. -/
  | serviceEnWrite (on : Bool)
  /-- TRIP_CLEAR (R410): Writing 1 to THM_STATUS.TRIP releases THERMTRIP_N. -/
  | tripClear
  /-- AUTH_RENEW (R340): Every 1 ms the holder renews AUTH if cores 1–3 have checked in. -/
  | authRenew (checked : Bool)
  /-- AUTH_TIMEOUT (R340): 20 ms without renewal frees AUTH and wakes the other complex. -/
  | authTimeout
  /-- AUTH_CLAIM (R339): A complex claims free AUTH and takes the timebase master role and the buses. -/
  | authClaim (hub : Fin 2) (both readable : Bool)
  /-- DEGRADATION_TRIGGER (R346): A health trigger sets DEGRADED and starts a planned handover when possible. -/
  | degradationTrigger (words : Option (BitVec 16))
  /-- SELF_CHECK (R346): The 60 s instruction and memory self-check of each core runs. -/
  | selfCheck (pass : Bool)
  /-- STANDBY_BOOT_DONE (R347): The standby finishes booting and replaying and enters SHADOW. -/
  | standbyBootDone
  /-- HANDOVER_CUT (R347): At the end of the overlap window the holder journals the CUT record and releases AUTH. -/
  | handoverCut
  /-- HANDOVER_ABANDON (R348): The standby misses a bound or fails, so the holder keeps AUTH and marks it LULL_FAILED. -/
  | handoverAbandon (why : Fin 3)
  /-- MIRROR_WRITE_FAIL (R345): A journal mirror write fails and MIRROR_OK clears. -/
  | mirrorWriteFail
  /-- MIRROR_RECOVERY (R345): The inter-hub link recovers; the active bank is copied and MIRROR_OK set. -/
  | mirrorRecovery
  /-- REVERT_REQUEST (R351): The preferred complex in LULL asks the holder for a handover with cause REVERT. -/
  | revertRequest
  /-- AUX_PWROK_RISE (R473): VAUX is applied; SLOT_ID is sampled and S0 starts. -/
  | auxPwrokRise (slot : BitVec 6) (ta tb : MemTests)
  /-- AUX_PWROK_FALL (R473): Treated as a removal of VAUX; the enables drop and the always-on domains reset. -/
  | auxPwrokFall
  /-- MAIN_PWROK_RISE (R363): MAIN_PWROK arrives and S1 passes, or is ignored with PWROK_GLITCH while MAIN_EN is low. -/
  | mainPwrokRise
  /-- HBM_PWROK_RISE (R363): HBM_PWROK arrives, and stack training proceeds. -/
  | hbmPwrokRise
  /-- PWROK_FALL (R361): MAIN_PWROK or HBM_PWROK falls after passing; contexts fault with POWER and bring-up returns to S0. -/
  | pwrokFall (sig : Fin 2)
  /-- PKG_RESET_N (R476): The board asserts PKG_RESET_N for at least 10 µs, acting as a package reset. -/
  | pkgResetN
  /-- POWER_SAMPLE (R397): Package power is sampled every 10 µs and averaged. -/
  | powerSample (w : BitVec 16)
  /-- COORDINATOR_TICK (R404): Every 1 ms the coordinator reduces or restores class limits against the effective cap. -/
  | coordinatorTick (mv hbm : BitVec 16)
  /-- SENSOR_SAMPLE (R409): Every 1 ms the DMP samples its die sensors and applies the thermal response. -/
  | sensorSample (d : Fin 8) (r : SensorIn)
  /-- PACE_GATE_TIMEOUT (R415): A gate closed for 30 s faults every context with PACE_GATE. -/
  | paceGateTimeout
  /-- GATE_SAFE_PACE_END (R415): 10 s after reopening, the other pace limits resume. -/
  | gateSafePaceEnd
  /-- FLOW_ESTIMATE (R413): Once per second the coordinator estimates flow and raises or clears flow warnings. -/
  | flowEstimate (inA inB outA outB : Option Int)
  /-- INLET_WARNING (R412): An inlet out of range for 60 s raises INLET_HIGH or INLET_LOW. -/
  | inletWarning
  /-- FOEHN_CONTROL (R416): Every 100 ms the coordinator sets the Foehn heat load's pace. -/
  | foehnControl
  /-- CANARY_READ (R27): Every 1 µs the pace limiter re-reads the speed canary. -/
  | canaryRead (c : Fin 64) (v : BitVec 16)
  /-- PACE_ROUND_START (R402): Ring index 0 starts an agreement round by sending a PACE packet. -/
  | paceRoundStart (n : Fin 8)
  /-- PACE_RECEIVE (R402): A PACE packet updates and forwards the offer, or applies the agreed pace. -/
  | paceReceive
  /-- AGREE_LOST (R402): No lap 1 for 20 ms sets AGREE_LOST. -/
  | agreeLost (n : Fin 8)
  /-- THERMAL_CYCLE_SAMPLE (R417): Every 1 s each DMP samples die temperature and counts rainflow cycles. -/
  | thermalCycleSample (d : Fin 8)
  /-- CCL_WINDOW_END (R426): At each window end the CCLs latch, extend and write snapshot records. -/
  | cclWindowEnd (a b : Bool) (ep br : List Nat)
  /-- HISTORY_TIME_SAVE (R488): History time is saved to the NV store at least once per hour. -/
  | historyTimeSave
  /-- RELAY_RECEIVE (R461): A RELAY chunk is checked, written, answered and possibly forwarded. -/
  | relayReceive
  /-- RELAY_ACK_RECEIVE (R461): A RELAY_ACK advances or resends a chunk. -/
  | relayAckReceive
  /-- RELAY_RESEND (R461): A chunk without OK for 1 ms is resent; after 8 resends FAILED is set. -/
  | relayResend
  /-- BUNDLE_RECONSTRUCTED (R462): The standby's SEP finishes reconstructing and verifying the bundle; the slot becomes TRIAL or REJECTED. -/
  | bundleReconstructed (flashOk scanFits : Bool)
  /-- CONFIRMATION (R464): Confirmation checks pass; the slots are marked and FW_ACTIVATE completes OK. -/
  | confirmation
  /-- TRIAL_FALL_BACK (R465): The trial times out or fails, and the old complex resumes with the old bundle. -/
  | trialFallBack (why : Fin 3)
  /-- MICROCODE_BROADCAST (R466): The DMP broadcasts new microcode blocks and resends missing ones. -/
  | microcodeBroadcast (die : Fin 8) (miss : List (Fin 72 × List Nat))
  /-- MICROCODE_BANK_SWITCH (R466): A complete core switches microcode banks when no context is resident. -/
  | microcodeBankSwitch (core : Fin 576)
  /-- MICROCODE (R466): A core's active bank fails its CRC; its context faults and the bank reloads. -/
  | microcode (core : Fin 576) (code : BitVec 32)
  /-- TRIG_IO_EDGE (R477): A rising edge applies waiting pace changes or captures the timebase. -/
  | trigIoEdge
  /-- REFCLK_LOSS (R478): A missing reference clock is detected, CLK_LOST set and the loss handled. -/
  | refclkLoss (clk : Fin 6)
  /-- LEAK_LOOP_MEASURE (R483): Every 100 ms the leak-loop resistance is measured and its state changed after 3 readings. -/
  | leakLoopMeasure (ohms : Option Nat)
  /-- PLATFORM_EVENT_REPEAT (R481): An unacknowledged PlatformEventMessage is repeated every 1 s. -/
  | platformEventRepeat
  /-- ENTDAA (R479): I3C dynamic address assignment. -/
  | entdaa (a : BitVec 7)
  /-- SETNEWDA (R479): Sets a new I3C dynamic address. -/
  | setnewda (a : BitVec 7)
  /-- RSTDAA (R479): Resets the I3C dynamic address. -/
  | rstdaa
  /-- GETPID (R479): Returns the provisional ID. -/
  | getpid
  /-- GETBCR (R479): Returns the bus characteristics register. -/
  | getbcr
  /-- GETDCR (R479): Returns the device characteristics register. -/
  | getdcr
  /-- GETSTATUS (R479): Returns the I3C target status. -/
  | getstatus
  /-- ENEC (R479): Enables I3C events. -/
  | enec (mask : Byte)
  /-- DISEC (R479): Disables I3C events. -/
  | disec (mask : Byte)
  /-- SETMWL (R479): Sets the maximum write length. -/
  | setmwl (n : BitVec 16)
  /-- SETMRL (R479): Sets the maximum read length. -/
  | setmrl (n : BitVec 16)
  /-- GETMWL (R479): Returns the maximum write length. -/
  | getmwl
  /-- GETMRL (R479): Returns the maximum read length. -/
  | getmrl
  /-- I3C_UNSUPPORTED (R479): An HDR mode or other command is NACKed. -/
  | i3cUnsupported
  /-- SET_ENDPOINT_ID (R480): MCTP control: sets the endpoint ID. -/
  | setEndpointId (r : MsgRef) (op : BitVec 2) (eid : Byte)
  /-- GET_ENDPOINT_ID (R480): MCTP control: returns the endpoint ID. -/
  | getEndpointId (r : MsgRef)
  /-- GET_MCTP_VERSION_SUPPORT (R480): MCTP control: returns supported versions. -/
  | getMctpVersionSupport (r : MsgRef) (t : Byte)
  /-- GET_MESSAGE_TYPE_SUPPORT (R480): MCTP control: returns supported message types. -/
  | getMessageTypeSupport (r : MsgRef)
  /-- GET_ENDPOINT_UUID (R480): MCTP control: returns the endpoint UUID. -/
  | getEndpointUuid (r : MsgRef)
  /-- MCTP_DROP (R480): An MCTP message of another type is dropped. -/
  | mctpDrop (type : Byte)
  /-- GET_TID (R480): PLDM base: returns the terminus ID. -/
  | getTid (r : MsgRef)
  /-- SET_TID (R480): PLDM base: sets the terminus ID. -/
  | setTid (r : MsgRef) (tid : Byte)
  /-- GET_PLDM_VERSION (R480): PLDM base: returns the version. -/
  | getPldmVersion (r : MsgRef) (type : Byte)
  /-- GET_PLDM_TYPES (R480): PLDM base: returns the supported types. -/
  | getPldmTypes (r : MsgRef)
  /-- GET_PLDM_COMMANDS (R480): PLDM base: returns the supported commands. -/
  | getPldmCommands (r : MsgRef) (type : Byte)
  /-- SET_EVENT_RECEIVER (R481): Sets the receiver of PlatformEventMessages. -/
  | setEventReceiver (r : MsgRef) (mode eid : Byte)
  /-- GET_SENSOR_READING (R480): Returns a numeric sensor of the repository. -/
  | getSensorReading (r : MsgRef) (id : BitVec 16)
  /-- GET_STATE_SENSOR_READINGS (R480): Returns a state sensor of the repository. -/
  | getStateSensorReadings (r : MsgRef) (id : BitVec 16)
  /-- SET_NUMERIC_EFFECTER_VALUE (R481): Sets or releases the board cap, or rejects an out-of-range value. -/
  | setNumericEffecterValue (r : MsgRef) (id : BitVec 16) (v : BitVec 32)
  /-- GET_NUMERIC_EFFECTER_VALUE (R480): Returns the board cap effecter. -/
  | getNumericEffecterValue (r : MsgRef) (id : BitVec 16)
  /-- SET_STATE_EFFECTER_STATES (R481): Sets the main power hold or the locate LED. -/
  | setStateEffecterStates (r : MsgRef) (id : BitVec 16) (v : Byte)
  /-- GET_STATE_EFFECTER_STATES (R480): Returns a state effecter. -/
  | getStateEffecterStates (r : MsgRef) (id : BitVec 16)
  /-- GET_PDR_REPOSITORY_INFO (R480): Returns PDR repository information. -/
  | getPdrRepositoryInfo (r : MsgRef)
  /-- GET_PDR (R480): Returns a PDR. -/
  | getPdr (r : MsgRef) (handle off : BitVec 32) (count : BitVec 16)
  /-- ERROR_UNSUPPORTED_PLDM_CMD (R480): Any other PLDM type or command is answered with an error. -/
  | errorUnsupportedPldmCmd (r : MsgRef) (type : BitVec 6) (cmd : Byte)
  /-- CODEWORD_TRANSMIT (R243): A lane sends its next codeword, carrying LANE, CWSEQ, LSTATE and an LLC (ACK, CREDIT or NAK) with data or FILLER blocks. -/
  | codewordTransmit (n : Fin 24)
  /-- EP_LINK_DOWN (R316): An Ethernet port's PHY link goes down and EP_STATUS.LINK_UP clears. -/
  | epLinkDown (port : Fin 8)
  /-- EP_LINK_UP (R316): An Ethernet port's PHY link comes up at 100 Gbit/s after negotiation and training, and EP_STATUS.LINK_UP sets. -/
  | epLinkUp (port : Fin 8)
  /-- PKG_RESET_N_RELEASE (R377): The board deasserts PKG_RESET_N, ending the held reset so the package reboots into S0. -/
  | pkgResetNRelease
  /-- COMPLEX_SELF_TEST_END (R341): A complex in SELF_TEST finishes its self-test and enters LULL or LULL_FAILED. -/
  | complexSelfTestEnd (hub : Fin 2) (pass : Bool)
  /-- BOOT_CLAIM_TIMEOUT (R341): If the first complex has not claimed AUTH within 2 s of VAUX being applied, the other complex boots to claim it. -/
  | bootClaimTimeout
  /-- DROOP_DETECT (R26): A droop detector sees supply droop and stretches its clocked island's clock within 1 ns, counting the stretch in PWR_DROOP. -/
  | droopDetect (isl : BitVec 8)
  /-- DROOP_RECOVERY (R26): The supply recovers, and the island's clock stretch ends. -/
  | droopRecovery (isl : BitVec 8)
  /-- REFCLK_RETURN (R478): A missing reference clock returns, and its islands and links resume on it. -/
  | refclkReturn (clk : Fin 6)
  /-- PLATFORM_EVENT_ACK (R481): The event receiver acknowledges a PlatformEventMessage, which stops its 1 s repetition and may release ALERT_N. -/
  | platformEventAck (iid : BitVec 5)
  /-- HISTORY_EVENT_EXPIRY (R391): A fault-history event passes 30 days of history time, stops counting and has its entry removed unless it made its unit PERMANENT. -/
  | historyEventExpiry
  deriving DecidableEq, Repr

end Sys2Proof
end

