-- ==== Sys2Proof/Config.lean ====
section
/-!
DEFINITION. What an implementation fixes and the values the spec leaves open, as constants without a body: a claim about
them holds whatever they are.
-/
namespace Sys2Proof.Config

/-- A value the spec leaves open, the `n`-th that a run meets (assumption 3). -/
opaque freeValue : Nat → Nat

/-- The `k` bytes of a constant whose bytes nothing fixes. -/
def octets {w : Nat} (k : Nat) (v : BitVec w) : List Byte := (List.range k).map (fun i => v.extractLsb' (8 * i) 8)

/-- SHAKE256 with an output of 64 bytes (R199, R325): the digest of bytes, as a number (assumption 4). -/
opaque shakeOf : List Byte → BitVec 512
def shake512 (bs : List Byte) : Nat := (shakeOf bs).toNat

/-- KMAC256 with a key, a customisation string and an output length in bytes (R323, R325) (assumption 4). -/
opaque kmacOf : (key : Nat) → (custom : String) → (outBytes : Nat) → List Byte → Nat
def kmac (key : Nat) (custom : String) (outBytes : Nat) (msg : List Byte) : Nat := kmacOf key custom outBytes msg % 256 ^ outBytes

/-- Whether an Ed448 signature verifies: public key, message, signature (R190, R325) (assumption 4). -/
opaque ed448Verify : List Byte → List Byte → List Byte → Bool

/-- The Ed448 signature of a message by the package's identity key (R325, R451) (assumption 4). -/
opaque ed448SignOf : List Byte → BitVec 912
def ed448Sign (msg : List Byte) : List Byte := octets 114 (ed448SignOf msg)

/-- The public X448 key of the `n`-th key pair that the package draws (R325) (assumption 4). -/
opaque x448PublicOf : Nat → BitVec 448
def x448Public (n : Nat) : List Byte := octets 56 (x448PublicOf n)

/-- The X448 shared secret of the package's `n`-th private key and a host public key (R325) (assumption 4). -/
opaque x448SharedOf : Nat → List Byte → BitVec 448
def x448Shared (n : Nat) (key : List Byte) : Nat := (x448SharedOf n key).toNat

/-- The fused SHAKE256-512 digest of the vendor root public key (R445). -/
opaque vendorDigestOf : BitVec 512
def vendorDigest : Nat := vendorDigestOf.toNat

/-- The vendor root public key, as the NV store and every bundle carry it (R445). -/
opaque vendorKeyOf : BitVec 456
def vendorKey : List Byte := octets 57 vendorKeyOf

/-- The header of a firmware bundle (R453), which the spec lists without offsets: whether it is well formed, TARGET, GENERATION,
the component table (KIND, VERSION, OFFSET, LENGTH, DIGEST), the version of its microcode, the bytes the signature covers,
the signer's key digest and the signature. -/
structure BundleHead where
  ok : Bool
  target : Nat
  generation : Nat
  table : List (Nat × Nat × Nat × Nat × Nat)
  ucode : Nat
  signed : Nat
  keyDigest : Nat
  sig : List Byte
  deriving DecidableEq, Repr, Inhabited

/-- The header of a bundle's bytes (assumption 9). -/
opaque bundleHead : List Byte → BundleHead

/-- The header of a delta (R458), which the spec lists without widths: the digest of its base, TARGET_BYTES, and where its
operations begin (assumption 9). -/
opaque deltaHead : List Byte → Nat × Nat × Nat

/-- The firmware bundle that the package was made with, in flash slot A (R455). -/
opaque factoryBundle : List Byte

/-- The Ed448 identity public key of the package, which follows from its device secret (R444). -/
opaque identityKeyOf : BitVec 456
def identityKey : List Byte := octets 57 identityKeyOf

/-- The Ed448 attestation public key for a measurement of the running SEP firmware (R444). -/
opaque attestationKeyOf : Nat → BitVec 456
def attestationKey (meas : Nat) : List Byte := octets 57 (attestationKeyOf meas)

/-- The signature by the attestation key for a measurement (R444, R451). -/
opaque attestSignOf : Nat → List Byte → BitVec 912
def attestSign (meas : Nat) (msg : List Byte) : List Byte := octets 114 (attestSignOf meas msg)

/-- The serial number of the package and the base MAC address of its ports (R446). -/
opaque serialOf : BitVec 64
opaque macBaseOf : BitVec 48
def serial : Nat := serialOf.toNat
def macBase : Nat := macBaseOf.toNat

/-- The severity 0–5 of a log entry for which the spec states none, by its kind and what it reports (R434)
(assumption 5). -/
opaque severity : (kind what : Nat) → Fin 6

/-- The DATA of a log entry of kind STATE or ORDER, which the spec does not lay out, by its kind, what it reports and two numbers of
that report (R434) (assumption 5). -/
opaque noteData : (kind what a b : Nat) → List Byte

/-- An FP32 code for each FP32 operand of VEXP: the result where it lies within 1 ulp of e^x (R85) (assumption 6). -/
opaque vexpRaw : Nat → BitVec 32

/-- The 23-bit subnormal or zero result of VEXP for an FP32 operand whose e^x lies below the normal range (R85)
(assumption 6). -/
opaque vexpSub : Nat → BitVec 23

/-- An FP32 code for each FP32 operand of VRSQ: the result where it lies within 1 ulp of 1/√x (R85) (assumption 6). -/
opaque vrsqRaw : Nat → BitVec 32

/-- FP32 codes for a position and an FP32 frequency: the sine and the cosine of their product where they lie within 2^−23 of it
(R83, R85) (assumption 6). -/
opaque sinRaw : (pos freq : Nat) → BitVec 32
opaque cosRaw : (pos freq : Nat) → BitVec 32

/-- Which of the two copies of a translation entry is the nearer one for a cluster (0–63) or a hub (64, 65) (R132). -/
opaque nearCopy : (ctx region lpn walker : Nat) → Fin 2

/-- The PMA of a copy of a translation entry, which fault records show (R132). -/
opaque mapPma : (ctx region lpn copy : Nat) → Nat

/-- The 48-bit provisional ID of the management port but for the part and SLOT_ID, which R479 fixes, and its BCR and DCR
(assumption 22). -/
opaque i3cPid : BitVec 48
opaque i3cBcr : Byte
opaque i3cDcr : Byte

/-- The MCTP version of a message type, the PLDM version of a type with its checksum, and the UUID of the endpoint (R480)
(assumption 22). -/
opaque mctpVersion : Nat → BitVec 32
opaque pldmVersion : Nat → BitVec 64
opaque endpointUuid : BitVec 128

/-- The 40 bytes that follow the completion code in the answer to GetPDRRepositoryInfo, and the platform descriptor records by
their handles, one for each item of *PLDM repository* (R480) (assumption 22). -/
opaque pdrInfo : BitVec 320
opaque pdr : (handle : Nat) → List Byte

end Sys2Proof.Config
end

