-- ==== Sys2Proof/Machine/Bits.lean ====
section
/-!
DEFINITION. Bit fields, byte order and packing, written once. Memory, images, flash records and registers are
little-endian and the wire is big-endian (R8); packed elements of 6 and 4 bits fill groups from the least significant
bit (R37).
-/
namespace Sys2Proof.Machine

/-- Bits [lo + w − 1 : lo] of a number. -/
def bitsAt (n lo w : Nat) : Nat := n >>> lo % 2 ^ w

/-- One bit of a number. -/
def bitAt (n i : Nat) : Bool := n.testBit i

/-- `n` with bits [lo + w − 1 : lo] replaced by the low `w` bits of `v`. -/
def setBitsAt (n lo w v : Nat) : Nat :=
  n - (bitsAt n lo w) * 2 ^ lo + (v % 2 ^ w) * 2 ^ lo

/-- A `w`-bit field read as two's complement. -/
def signedOf (w n : Nat) : Int := if n % 2 ^ w < 2 ^ (w - 1) then (n % 2 ^ w : Nat) else ((n % 2 ^ w : Nat) : Int) - 2 ^ w

/-- An integer as a `w`-bit two's complement field. -/
def toSigned (w : Nat) (i : Int) : Nat := (i % (2 ^ w : Nat)).toNat

/-- The little-endian number of a list of bytes (R8). -/
def leNat : List Byte → Nat
  | [] => 0
  | b :: bs => b.toNat + 256 * leNat bs

/-- `k` bytes of a number, little-endian (R8). -/
def leBytes : Nat → Nat → List Byte
  | 0, _ => []
  | k + 1, n => BitVec.ofNat 8 n :: leBytes k (n / 256)

/-- The big-endian number of a list of bytes: the wire's order (R8). -/
def beNat (bs : List Byte) : Nat := bs.foldl (fun a b => a * 256 + b.toNat) 0

/-- `k` bytes of a number, big-endian (R8). -/
def beBytes (k n : Nat) : List Byte := (leBytes k n).reverse

/-- The elements `0 … n − 1` of `f`, as a list. -/
def tabulate (n : Nat) (f : Nat → α) : List α := (List.range n).map f

/-- `l` with element `i` replaced; unchanged where there is none. -/
def setAt (l : List α) (i : Nat) (v : α) : List α := l.set i v

/-- `l` with element `i` changed by `f`. -/
def modAt (l : List α) (i : Nat) (f : α → α) : List α := l.modify i f

/-- A value held at a ceiling: the saturating counters of the register tables. -/
def satAdd (a b top : Nat) : Nat := min (a + b) top

/-- A value taken to the nearer end of a range: "values outside are stored at the nearer end". -/
def clampTo (lo hi v : Nat) : Nat := if v < lo then lo else if hi < v then hi else v

/-- Whether the ranges [a, a + m) and [b, b + n) share a byte. -/
def overlaps (a m b n : Nat) : Bool := decide (a < b + n) && decide (b < a + m) && decide (0 < m) && decide (0 < n)

/-- The smallest multiple of `k` that is at least `n`. -/
def roundUp (n k : Nat) : Nat := (n + k - 1) / k * k

/-- Elements of `w` bits packed from the least significant bit of the first byte (R37); the total is whole bytes in
every group the spec packs. -/
def packElems (w : Nat) (l : List Nat) : List Byte :=
  let n := l.foldr (fun e a => e % 2 ^ w + 2 ^ w * a) 0
  leBytes ((l.length * w + 7) / 8) n

/-- Element `i` of a packed run of `w`-bit elements, read through `rd`, which answers the byte at an offset (R37). -/
def elemOf (rd : Nat → Nat) (w i : Nat) : Nat :=
  let b := i * w
  let k := (b % 8 + w + 7) / 8
  let raw := (List.range k).foldr (fun j a => rd (b / 8 + j) + 256 * a) 0
  bitsAt raw (b % 8) w

end Sys2Proof.Machine
end

