-- ==== Sys2Proof/Machine/Sparse.lean ====
section
/-!
DEFINITION. Sparse tables by number, in one canonical form: keys strictly rising. A table with a default also lists no
entry equal to the default, so that equal contents are equal data.
-/
namespace Sys2Proof.Machine

/-- A table from numbers to values. -/
abbrev Tab (α : Type) := List (Nat × α)

/-- The entry at a key. -/
def Tab.find? : Tab α → Nat → Option α
  | [], _ => none
  | (j, v) :: t, k => if k = j then some v else Tab.find? t k

/-- Insert or replace an entry, keeping the keys strictly rising. -/
def Tab.put : Tab α → Nat → α → Tab α
  | [], k, v => [(k, v)]
  | (j, w) :: t, k, v => if k < j then (k, v) :: (j, w) :: t else if k = j then (k, v) :: t else (j, w) :: Tab.put t k v

/-- Remove the entry at a key. -/
def Tab.drop (t : Tab α) (k : Nat) : Tab α := t.filter (fun q => q.1 != k)

/-- The entry at a key, or a default. -/
def Tab.getD (t : Tab α) (k : Nat) (d : α) : α := (t.find? k).getD d

/-- Change the entry at a key by `f`, starting from a default where there is none. -/
def Tab.upd (t : Tab α) (k : Nat) (d : α) (f : α → α) : Tab α := t.put k (f (t.getD k d))

/-- Change the entry at a key where there is one. -/
def Tab.mod (t : Tab α) (k : Nat) (f : α → α) : Tab α :=
  match t.find? k with
  | some v => t.put k (f v)
  | none => t

/-- The keys of a table rise strictly. -/
def Tab.sorted : Tab α → Bool
  | [] => true
  | [_] => true
  | (j, _) :: (k, v) :: t => decide (j < k) && Tab.sorted ((k, v) :: t)

/-- Write an entry of a table with a default: writing the default removes the entry. -/
def Tab.set [DecidableEq α] (t : Tab α) (k : Nat) (d v : α) : Tab α := if v = d then t.drop k else t.put k v

/-- A list rises strictly. -/
def rising : List Nat → Bool
  | [] => true
  | [_] => true
  | j :: k :: t => decide (j < k) && rising (k :: t)

/-- Insert a number into a rising list without repeats. -/
def insNat : List Nat → Nat → List Nat
  | [], k => [k]
  | j :: t, k => if k < j then k :: j :: t else if k = j then j :: t else j :: insNat t k

end Sys2Proof.Machine
end

