-- ==== Sys2Proof/Machine/Mem.lean ====
section
/-!
DEFINITION. The memories of the package as one list of cells. Each memory has its own range of addresses:
the scratchpad of physical core k at 2^22 k, the cluster memory of physical cluster c at 2^32 + 2^25 c, its trace SRAM at
2^33 + 2^18 c, HBM at 2^44 + PMA, and the two copies of the translation maps (R132), whose places belong to firmware, at
2^46. An unlisted byte reads as zero: banks that leave OFF and mapped pages are filled with zeros (R102, R199); for HBM
that no context has mapped this is a DESIGN CHOICE (assumption 2).
-/
namespace Sys2Proof.Machine

/-- The memories: their bytes, and the 32-byte pieces and sectors whose check bits no longer verify (R100, R120). -/
structure Mem where
  cells : List Host.Cell
  ue : List Nat
  deriving DecidableEq, Repr

/-- Memory with nothing listed. -/
def Mem.empty : Mem := ⟨[], []⟩

/-- The scratchpad of physical core `k` (R93). -/
def spadBase (k : Nat) : Nat := k * 2 ^ 22
/-- The cluster memory of physical cluster `c` (R98). -/
def cmemBase (c : Nat) : Nat := 2 ^ 32 + c * 2 ^ 25
/-- The trace SRAM of physical cluster `c` (R13). -/
def traceBase (c : Nat) : Nat := 2 ^ 33 + c * 2 ^ 18
/-- HBM at a package memory address (R128). -/
def hbmAddr (pma : Nat) : Nat := 2 ^ 44 + pma
/-- Copy `c` of the translation entry of (context, region, LPN) (R131, R132). -/
def mapAddr (ctx region lpn c : Nat) : Nat := 2 ^ 46 + (((ctx * 256 + region) * 2 ^ 24 + lpn) * 2 + c) * 32

/-- Read one byte; an unlisted byte reads as zero. -/
def Mem.read (m : Mem) (a : Nat) : Byte := Tab.getD m.cells a 0

/-- Read `n` bytes. -/
def Mem.reads (m : Mem) (a n : Nat) : List Byte := (List.range n).map (fun i => m.read (a + i))

/-- Read `n` bytes as a little-endian number (R8). -/
def Mem.readLe (m : Mem) (a n : Nat) : Nat := leNat (m.reads a n)

/-- One change to the memories. -/
inductive Edit where
  | put (a : Nat) (b : Byte)      -- write a byte
  | clear (lo len : Nat)          -- a range loses its contents: it reads as zero, with valid check bits (R101, R102)
  | poison (a : Nat)              -- the piece at `a` becomes uncorrectable (R100, R120)
  | heal (a : Nat)                -- the piece at `a` gets valid check bits (R100, R122)
  deriving DecidableEq, Repr

/-- The piece or sector of an address (R93, R120): its first byte. -/
def pieceOf (a : Nat) : Nat := a / 32 * 32

/-- Apply one change, keeping the canonical form. -/
def Mem.edit1 (m : Mem) : Edit → Mem
  | .put a b => { m with cells := Tab.set m.cells a 0 b }
  | .clear lo len => { cells := m.cells.filter (fun c => !(decide (lo ≤ c.1) && decide (c.1 < lo + len))),
                       ue := m.ue.filter (fun p => !(decide (lo ≤ p) && decide (p < lo + len))) }
  | .poison a => { m with ue := insNat m.ue (pieceOf a) }
  | .heal a => { m with ue := m.ue.filter (fun p => decide (p ≠ pieceOf a)) }

/-- Apply changes in order. -/
def Mem.edit (m : Mem) (es : List Edit) : Mem := es.foldl Mem.edit1 m

/-- The canonical form: addresses strictly rising, no zero byte listed; the uncorrectable pieces strictly rising, each by the address
of its first byte. -/
def Mem.wf (m : Mem) : Bool :=
  Tab.sorted m.cells && m.cells.all (fun c => decide (c.2 ≠ 0)) && rising m.ue && m.ue.all (fun p => p % 32 == 0)

/-- The changes that store bytes at an address; a piece that is replaced whole gets valid check bits (R100, R122). -/
def storeEdits (a : Nat) (bs : List Byte) : List Edit :=
  bs.zipIdx.map (fun (b, i) => .put (a + i) b) ++
    ((List.range (bs.length / 32 + 1)).filterMap (fun i =>
      let p := roundUp a 32 + 32 * i
      if p + 32 ≤ a + bs.length then some (.heal p) else none))

/-- Whether storing `len` bytes at `a` merges into a piece that is uncorrectable (R100, R122). -/
def Mem.mergeUe (m : Mem) (a len : Nat) : Option Nat :=
  if len = 0 then none
  else
    let first := pieceOf a
    let last := pieceOf (a + len - 1)
    if m.ue.contains first && !(decide (a = first) && decide (first + 32 ≤ a + len)) then some first
    else if m.ue.contains last && !(decide (a ≤ last) && decide (last + 32 ≤ a + len)) then some last
    else none

/-- The first uncorrectable piece among the bytes [a, a + len). -/
def Mem.ueIn (m : Mem) (a len : Nat) : Option Nat :=
  m.ue.find? (fun p => decide (p < a + len) && decide (a < p + 32) && decide (0 < len))

end Sys2Proof.Machine
end

