-- ==== Sys2Proof/Machine/RegMap.lean ====
section
/-!
DEFINITION. The register map: every register table of the chapters, as rows that hold its place, its reset value and
the access type of each of its bits (R10, R11, R494, and the register section of each chapter).
-/
namespace Sys2Proof.Machine

/-- The ranges of *Register address map* (R11), with the unit each register range belongs to. -/
inductive Blk where
  | hubA | hubB | die | clus | core | rtr | hbm
  deriving DecidableEq, Repr

/-- One register family: `n1 × n2` registers at `off + i × s1 + j × s2` from the base of each unit of `blk`;
`reset` is its value at reset and the masks give the bits of each access type of R10. -/
structure RegRow where
  name : String
  blk : Blk
  off : Nat
  n1 : Nat
  s1 : Nat
  n2 : Nat
  s2 : Nat
  reset : Nat
  rw : Nat
  w1c : Nat
  w1s : Nat
  wo : Nat
  rc : Nat
  deriving DecidableEq, Repr

/-- Registers of the block `hubA` (part 0), as the register tables of the chapters give them. -/
def regRows_hubA0 : List RegRow := [
  ⟨"PKG_ID", .hubA, 0x0, 1, 0x0, 1, 0x0, 0xe091000, 0x0, 0x0, 0x0, 0x0, 0x0⟩,
  ⟨"PKG_RESOURCES", .hubA, 0x4, 1, 0x0, 1, 0x0, 0x0, 0x0, 0x0, 0x0, 0x0, 0x0⟩,
  ⟨"PKG_TIMEBASE_LO", .hubA, 0x10, 1, 0x0, 1, 0x0, 0x0, 0x0, 0x0, 0x0, 0x0, 0x0⟩,
  ⟨"PKG_TIMEBASE_HI", .hubA, 0x14, 1, 0x0, 1, 0x0, 0x0, 0x0, 0x0, 0x0, 0x0, 0x0⟩,
  ⟨"PKG_TIME_CTRL", .hubA, 0x18, 1, 0x0, 1, 0x0, 0x0, 0x3, 0x0, 0x0, 0x0, 0x0⟩,
  ⟨"PKG_TIME_STATUS", .hubA, 0x1c, 1, 0x0, 1, 0x0, 0x0, 0x0, 0x6, 0x0, 0x0, 0x0⟩,
  ⟨"HUB_PRIVMEM_STATUS", .hubA, 0x800, 1, 0x0, 1, 0x0, 0x0, 0x0, 0x0, 0x0, 0x0, 0x0⟩,
  ⟨"SEP_SSRAM_STATUS", .hubA, 0x4000, 1, 0x0, 1, 0x0, 0x0, 0x0, 0x0, 0x0, 0x0, 0x0⟩,
  ⟨"PLU_STATUS", .hubA, 0x2000, 1, 0x0, 1, 0x0, 0x0, 0x0, 0x20000000, 0x0, 0x0, 0x0⟩,
  ⟨"PLU_CTRL", .hubA, 0x2004, 1, 0x0, 1, 0x0, 0x5803, 0x7f03, 0x0, 0x0, 0x0, 0x0⟩,
  ⟨"PLU_MIGR_CNT", .hubA, 0x2008, 1, 0x0, 1, 0x0, 0x0, 0x0, 0x0, 0x0, 0x0, 0x0⟩,
  ⟨"PLU_PIN_STATUS", .hubA, 0x200c, 1, 0x0, 1, 0x0, 0x0, 0x0, 0x0, 0x0, 0x0, 0x0⟩]

/-- Registers of the block `hubA` (part 1), as the register tables of the chapters give them. -/
def regRows_hubA1 : List RegRow := [
  ⟨"PLU_PART_LO", .hubA, 0x2100, 1, 0x0, 1, 0x0, 0xffffffff, 0xffffffff, 0x0, 0x0, 0x0, 0x0⟩,
  ⟨"PLU_PART_LO", .hubA, 0x2108, 15, 0x8, 1, 0x0, 0x0, 0xffffffff, 0x0, 0x0, 0x0, 0x0⟩,
  ⟨"PLU_PART_HI", .hubA, 0x2104, 1, 0x0, 1, 0x0, 0xffffffff, 0xffffffff, 0x0, 0x0, 0x0, 0x0⟩,
  ⟨"PLU_PART_HI", .hubA, 0x210c, 15, 0x8, 1, 0x0, 0x0, 0xffffffff, 0x0, 0x0, 0x0, 0x0⟩,
  ⟨"PLU_PART_QUOTA", .hubA, 0x2180, 16, 0x4, 1, 0x0, 0x0, 0xfffff, 0x0, 0x0, 0x0, 0x0⟩,
  ⟨"PLU_PART_USED", .hubA, 0x21c0, 16, 0x4, 1, 0x0, 0x0, 0x0, 0x0, 0x0, 0x0, 0x0⟩,
  ⟨"CVE_GRP_W0", .hubA, 0x9000, 1024, 0x10, 1, 0x0, 0x0, 0x0, 0x0, 0x0, 0x0, 0x0⟩,
  ⟨"CVE_GRP_W1", .hubA, 0x9004, 1024, 0x10, 1, 0x0, 0x0, 0x0, 0x0, 0x0, 0x0, 0x0⟩,
  ⟨"CVE_GRP_W2", .hubA, 0x9008, 1024, 0x10, 1, 0x0, 0x0, 0x0, 0x0, 0x0, 0x0, 0x0⟩,
  ⟨"CVE_GRP_W3", .hubA, 0x900c, 1024, 0x10, 1, 0x0, 0x0, 0x0, 0x0, 0x0, 0x0, 0x0⟩,
  ⟨"CVE_CTRL", .hubA, 0x8000, 1, 0x0, 1, 0x0, 0x7d0, 0xffff, 0x0, 0x0, 0x0, 0x0⟩,
  ⟨"CVE_STATUS", .hubA, 0x8004, 1, 0x0, 1, 0x0, 0x0, 0x0, 0x0, 0x0, 0x0, 0x0⟩]

/-- Registers of the block `hubA` (part 2), as the register tables of the chapters give them. -/
def regRows_hubA2 : List RegRow := [
  ⟨"CVE_ERR", .hubA, 0x8008, 1, 0x0, 1, 0x0, 0x0, 0x0, 0xff, 0x0, 0x0, 0x0⟩,
  ⟨"CVE_CHECK_CNT", .hubA, 0x800c, 1, 0x0, 1, 0x0, 0x0, 0x0, 0x0, 0x0, 0x0, 0xffffffff⟩,
  ⟨"CVE_DROP_CNT", .hubA, 0x8010, 1, 0x0, 1, 0x0, 0x0, 0x0, 0x0, 0x0, 0x0, 0xffffffff⟩,
  ⟨"CVE_MEMBERS", .hubA, 0x400000, 262144, 0x4, 1, 0x0, 0x0, 0x0, 0x0, 0x0, 0x0, 0x0⟩,
  ⟨"EP_STATUS", .hubA, 0x10000, 4, 0x100, 1, 0x4, 0x0, 0x0, 0x0, 0x0, 0x0, 0xffff⟩,
  ⟨"EP_CFG", .hubA, 0x10004, 4, 0x100, 1, 0x4, 0x86300, 0xffff7700, 0x0, 0x0, 0x0, 0x0⟩,
  ⟨"EP_VLAN", .hubA, 0x10008, 4, 0x100, 1, 0x4, 0x0, 0xfff, 0x0, 0x0, 0x0, 0x0⟩,
  ⟨"EP_IPV4", .hubA, 0x1000c, 4, 0x100, 1, 0x4, 0x0, 0xffffffff, 0x0, 0x0, 0x0, 0x0⟩,
  ⟨"EP_IPV6_", .hubA, 0x10010, 4, 0x100, 4, 0x4, 0x0, 0xffffffff, 0x0, 0x0, 0x0, 0x0⟩,
  ⟨"EP_DROP_CNT", .hubA, 0x10020, 4, 0x100, 1, 0x4, 0x0, 0x0, 0x0, 0x0, 0x0, 0xffffffff⟩,
  ⟨"CPX_AUTH", .hubA, 0x3000, 1, 0x0, 1, 0x0, 0x0, 0x0, 0x0, 0x0, 0x0, 0x0⟩,
  ⟨"CPX_HEALTH", .hubA, 0x3004, 1, 0x0, 1, 0x0, 0x0, 0x0, 0x0, 0x0, 0x0, 0x0⟩]

/-- Registers of the block `hubA` (part 3), as the register tables of the chapters give them. -/
def regRows_hubA3 : List RegRow := [
  ⟨"CPX_JOURNAL", .hubA, 0x3008, 1, 0x0, 1, 0x0, 0x0, 0x0, 0x0, 0x0, 0x0, 0x0⟩,
  ⟨"HUB_BRINGUP_GO", .hubA, 0x400, 1, 0x0, 1, 0x0, 0x0, 0x0, 0x0, 0x0, 0x10f, 0x0⟩,
  ⟨"HUB_BRINGUP_STATUS", .hubA, 0x404, 1, 0x0, 1, 0x0, 0x0, 0x0, 0x1800, 0x0, 0x0, 0x0⟩,
  ⟨"HUB_BRINGUP_CFG", .hubA, 0x408, 1, 0x0, 1, 0x0, 0x1388, 0xffff, 0x0, 0x0, 0x0, 0x0⟩,
  ⟨"HUB_STAGE_TIME", .hubA, 0x40c, 1, 0x0, 1, 0x0, 0x0, 0x0, 0x0, 0x0, 0x0, 0x0⟩,
  ⟨"HUB_RESET_STATUS", .hubA, 0x410, 1, 0x0, 1, 0x0, 0x0, 0x0, 0x0, 0x0, 0x0, 0xffff⟩,
  ⟨"PKG_FH_STATUS", .hubA, 0x5000, 1, 0x0, 1, 0x0, 0x0, 0x0, 0x80000000, 0x0, 0x0, 0x0⟩,
  ⟨"PKG_FH_INDEX", .hubA, 0x5008, 1, 0x0, 1, 0x0, 0x0, 0xffff, 0x0, 0x0, 0x0, 0x0⟩,
  ⟨"PKG_FH_DATA", .hubA, 0x5010, 8, 0x4, 1, 0x0, 0x0, 0x0, 0x0, 0x0, 0x0, 0x0⟩,
  ⟨"PKG_FH_UNIT_SEL", .hubA, 0x5030, 1, 0x0, 1, 0x0, 0x0, 0xffffffff, 0x0, 0x0, 0x0, 0x0⟩,
  ⟨"PKG_FH_UNIT", .hubA, 0x5034, 1, 0x0, 1, 0x0, 0x0, 0x0, 0x0, 0x0, 0x0, 0x0⟩,
  ⟨"PKG_FH_CTRL", .hubA, 0x5038, 1, 0x0, 1, 0x0, 0x0, 0x0, 0x0, 0x0, 0x1, 0x0⟩]

/-- Registers of the block `hubA` (part 4), as the register tables of the chapters give them. -/
def regRows_hubA4 : List RegRow := [
  ⟨"PKG_SQUALL_STATUS", .hubA, 0x5040, 1, 0x0, 1, 0x0, 0x0, 0x0, 0x0, 0x0, 0x0, 0xffffffff⟩,
  ⟨"PWR_CAP", .hubA, 0x6000, 1, 0x0, 1, 0x0, 0x12c012c0, 0x0, 0x0, 0x0, 0x0, 0x0⟩,
  ⟨"PWR_BOARD", .hubA, 0x6004, 1, 0x0, 1, 0x0, 0x12c012c0, 0x0, 0x0, 0x0, 0x0, 0x0⟩,
  ⟨"PWR_PRIO", .hubA, 0x6008, 1, 0x0, 1, 0x0, 0x640024, 0x7ff003f, 0x0, 0x0, 0x0, 0x0⟩,
  ⟨"PWR_STATUS", .hubA, 0x600c, 1, 0x0, 1, 0x0, 0x0, 0x0, 0x18000000, 0x0, 0x0, 0x0⟩,
  ⟨"PWR_ENERGY_LO", .hubA, 0x6010, 1, 0x0, 1, 0x0, 0x0, 0x0, 0x0, 0x0, 0x0, 0x0⟩,
  ⟨"PWR_ENERGY_HI", .hubA, 0x6014, 1, 0x0, 1, 0x0, 0x0, 0x0, 0x0, 0x0, 0x0, 0x0⟩,
  ⟨"PWR_DROOP", .hubA, 0x6018, 1, 0x0, 1, 0x0, 0x0, 0x0, 0x0, 0x0, 0x0, 0xffffffff⟩,
  ⟨"PWR_IDLE", .hubA, 0x601c, 1, 0x0, 1, 0x0, 0x0, 0x0, 0x0, 0x0, 0x0, 0x0⟩,
  ⟨"PWR_AGREE", .hubA, 0x6100, 8, 0x4, 1, 0x0, 0x0, 0x0, 0x0, 0x0, 0x0, 0x0⟩,
  ⟨"THM_STATUS", .hubA, 0x6200, 1, 0x0, 1, 0x0, 0x0, 0x0, 0x80000000, 0x0, 0x0, 0x0⟩,
  ⟨"THM_COOLANT", .hubA, 0x6204, 1, 0x0, 1, 0x0, 0x0, 0x0, 0x0, 0x0, 0x0, 0x0⟩]

/-- Registers of the block `hubA` (part 5), as the register tables of the chapters give them. -/
def regRows_hubA5 : List RegRow := [
  ⟨"THM_FLOW", .hubA, 0x6208, 1, 0x0, 1, 0x0, 0x190, 0xffff, 0x0, 0x0, 0x0, 0x0⟩,
  ⟨"THM_CTRL", .hubA, 0x620c, 1, 0x0, 1, 0x0, 0x12c0460, 0x7ff07ff, 0x0, 0x0, 0x0, 0x0⟩,
  ⟨"THM_FOEHN", .hubA, 0x6210, 1, 0x0, 1, 0x0, 0x2d, 0x800000ff, 0x0, 0x0, 0x0, 0x0⟩,
  ⟨"THM_CYCLE_SEL", .hubA, 0x6214, 1, 0x0, 1, 0x0, 0x0, 0x1f, 0x0, 0x0, 0x0, 0x0⟩,
  ⟨"THM_CYCLES", .hubA, 0x6218, 1, 0x0, 1, 0x0, 0x0, 0x0, 0x0, 0x0, 0x0, 0x0⟩,
  ⟨"CTR_CFG", .hubA, 0x8400, 32, 0x10, 1, 0x0, 0x0, 0xc00000ff, 0x0, 0x0, 0x0, 0x0⟩,
  ⟨"CTR_VAL_LO", .hubA, 0x8404, 32, 0x10, 1, 0x0, 0x0, 0x0, 0x0, 0x0, 0x0, 0x0⟩,
  ⟨"CTR_VAL_HI", .hubA, 0x8408, 32, 0x10, 1, 0x0, 0x0, 0x0, 0x0, 0x0, 0x0, 0x0⟩,
  ⟨"CTR_AUX", .hubA, 0x840c, 32, 0x10, 1, 0x0, 0x0, 0xffffffff, 0x0, 0x0, 0x0, 0x0⟩,
  ⟨"CTR_CCL_CTRL", .hubA, 0x7000, 1, 0x0, 1, 0x0, 0x80002710, 0x80ffffff, 0x0, 0x0, 0x0, 0x0⟩,
  ⟨"CTR_CCL_STATUS", .hubA, 0x7004, 1, 0x0, 1, 0x0, 0x0, 0x0, 0x80000000, 0x0, 0x0, 0xffff⟩,
  ⟨"CTR_LOG_STATUS", .hubA, 0x7010, 1, 0x0, 1, 0x0, 0x0, 0x0, 0x0, 0x0, 0x0, 0x0⟩]

/-- Registers of the block `hubA` (part 6), as the register tables of the chapters give them. -/
def regRows_hubA6 : List RegRow := [
  ⟨"CTR_LOG_CTRL", .hubA, 0x7014, 1, 0x0, 1, 0x0, 0x4, 0x7, 0x0, 0x0, 0x0, 0x0⟩,
  ⟨"SEP_LC_STATUS", .hubA, 0x4100, 1, 0x0, 1, 0x0, 0x0, 0x0, 0x0, 0x0, 0x0, 0x0⟩,
  ⟨"SEP_KEY_CTRL", .hubA, 0x4104, 1, 0x0, 1, 0x0, 0x0, 0x300f0000, 0x0, 0x0, 0xc0000000, 0x0⟩,
  ⟨"SEP_KEY_DATA", .hubA, 0x4110, 16, 0x4, 1, 0x0, 0x0, 0xffffffff, 0x0, 0x0, 0x0, 0x0⟩,
  ⟨"HUB_FW_STATUS", .hubA, 0x500, 1, 0x0, 1, 0x0, 0x0, 0x0, 0x0, 0x0, 0x0, 0x0⟩,
  ⟨"HUB_RELAY_CFG", .hubA, 0x504, 1, 0x0, 1, 0x0, 0xffffffff, 0x0, 0x0, 0x0, 0x0, 0x0⟩,
  ⟨"HUB_RELAY_STATUS", .hubA, 0x508, 1, 0x0, 1, 0x0, 0x0, 0x0, 0x40000000, 0x0, 0x0, 0x0⟩,
  ⟨"PKG_BOARD_STATUS", .hubA, 0x900, 1, 0x0, 1, 0x0, 0x0, 0x0, 0x1fc0000, 0x0, 0x0, 0x0⟩,
  ⟨"PKG_LEAK", .hubA, 0x904, 1, 0x0, 1, 0x0, 0x0, 0x0, 0x0, 0x0, 0x0, 0x0⟩,
  ⟨"PKG_LED_CTRL", .hubA, 0x908, 1, 0x0, 1, 0x0, 0x0, 0x1, 0x0, 0x0, 0x0, 0x0⟩,
  ⟨"PKG_TRIG_CTRL", .hubA, 0x90c, 1, 0x0, 1, 0x0, 0x0, 0x3, 0x80000004, 0x0, 0x0, 0x0⟩,
  ⟨"PKG_TRIG_TB_LO", .hubA, 0x910, 1, 0x0, 1, 0x0, 0x0, 0x0, 0x0, 0x0, 0x0, 0x0⟩]

/-- Registers of the block `hubA` (part 7), as the register tables of the chapters give them. -/
def regRows_hubA7 : List RegRow := [
  ⟨"PKG_TRIG_TB_HI", .hubA, 0x914, 1, 0x0, 1, 0x0, 0x0, 0x0, 0x0, 0x0, 0x0, 0x0⟩]

/-- Registers of the block `hubB` (part 0), as the register tables of the chapters give them. -/
def regRows_hubB0 : List RegRow := [
  ⟨"HUB_PRIVMEM_STATUS", .hubB, 0x800, 1, 0x0, 1, 0x0, 0x0, 0x0, 0x0, 0x0, 0x0, 0x0⟩,
  ⟨"SEP_SSRAM_STATUS", .hubB, 0x4000, 1, 0x0, 1, 0x0, 0x0, 0x0, 0x0, 0x0, 0x0, 0x0⟩,
  ⟨"CVE_GRP_W0", .hubB, 0x9000, 1024, 0x10, 1, 0x0, 0x0, 0x0, 0x0, 0x0, 0x0, 0x0⟩,
  ⟨"CVE_GRP_W1", .hubB, 0x9004, 1024, 0x10, 1, 0x0, 0x0, 0x0, 0x0, 0x0, 0x0, 0x0⟩,
  ⟨"CVE_GRP_W2", .hubB, 0x9008, 1024, 0x10, 1, 0x0, 0x0, 0x0, 0x0, 0x0, 0x0, 0x0⟩,
  ⟨"CVE_GRP_W3", .hubB, 0x900c, 1024, 0x10, 1, 0x0, 0x0, 0x0, 0x0, 0x0, 0x0, 0x0⟩,
  ⟨"CVE_CTRL", .hubB, 0x8000, 1, 0x0, 1, 0x0, 0x7d0, 0xffff, 0x0, 0x0, 0x0, 0x0⟩,
  ⟨"CVE_STATUS", .hubB, 0x8004, 1, 0x0, 1, 0x0, 0x0, 0x0, 0x0, 0x0, 0x0, 0x0⟩,
  ⟨"CVE_ERR", .hubB, 0x8008, 1, 0x0, 1, 0x0, 0x0, 0x0, 0xff, 0x0, 0x0, 0x0⟩,
  ⟨"CVE_CHECK_CNT", .hubB, 0x800c, 1, 0x0, 1, 0x0, 0x0, 0x0, 0x0, 0x0, 0x0, 0xffffffff⟩,
  ⟨"CVE_DROP_CNT", .hubB, 0x8010, 1, 0x0, 1, 0x0, 0x0, 0x0, 0x0, 0x0, 0x0, 0xffffffff⟩,
  ⟨"CVE_MEMBERS", .hubB, 0x400000, 262144, 0x4, 1, 0x0, 0x0, 0x0, 0x0, 0x0, 0x0, 0x0⟩]

/-- Registers of the block `hubB` (part 1), as the register tables of the chapters give them. -/
def regRows_hubB1 : List RegRow := [
  ⟨"EP_STATUS", .hubB, 0x10000, 4, 0x100, 1, 0x4, 0x0, 0x0, 0x0, 0x0, 0x0, 0xffff⟩,
  ⟨"EP_CFG", .hubB, 0x10004, 4, 0x100, 1, 0x4, 0x86300, 0xffff7700, 0x0, 0x0, 0x0, 0x0⟩,
  ⟨"EP_VLAN", .hubB, 0x10008, 4, 0x100, 1, 0x4, 0x0, 0xfff, 0x0, 0x0, 0x0, 0x0⟩,
  ⟨"EP_IPV4", .hubB, 0x1000c, 4, 0x100, 1, 0x4, 0x0, 0xffffffff, 0x0, 0x0, 0x0, 0x0⟩,
  ⟨"EP_IPV6_", .hubB, 0x10010, 4, 0x100, 4, 0x4, 0x0, 0xffffffff, 0x0, 0x0, 0x0, 0x0⟩,
  ⟨"EP_DROP_CNT", .hubB, 0x10020, 4, 0x100, 1, 0x4, 0x0, 0x0, 0x0, 0x0, 0x0, 0xffffffff⟩,
  ⟨"CPX_HEALTH", .hubB, 0x3004, 1, 0x0, 1, 0x0, 0x0, 0x0, 0x0, 0x0, 0x0, 0x0⟩,
  ⟨"CTR_CFG", .hubB, 0x8400, 32, 0x10, 1, 0x0, 0x0, 0xc00000ff, 0x0, 0x0, 0x0, 0x0⟩,
  ⟨"CTR_VAL_LO", .hubB, 0x8404, 32, 0x10, 1, 0x0, 0x0, 0x0, 0x0, 0x0, 0x0, 0x0⟩,
  ⟨"CTR_VAL_HI", .hubB, 0x8408, 32, 0x10, 1, 0x0, 0x0, 0x0, 0x0, 0x0, 0x0, 0x0⟩,
  ⟨"CTR_AUX", .hubB, 0x840c, 32, 0x10, 1, 0x0, 0x0, 0xffffffff, 0x0, 0x0, 0x0, 0x0⟩]

/-- Registers of the block `die` (part 0), as the register tables of the chapters give them. -/
def regRows_die0 : List RegRow := [
  ⟨"CD_MEMTEST_CTRL", .die, 0x800200, 1, 0x0, 1, 0x0, 0x800005a0, 0x8000ffff, 0x0, 0x0, 0x0, 0x0⟩,
  ⟨"CD_MEMTEST_STATUS", .die, 0x800204, 1, 0x0, 1, 0x0, 0x0, 0x0, 0x0, 0x0, 0x0, 0x0⟩,
  ⟨"PWR_DIE_STATUS", .die, 0x800300, 1, 0x0, 1, 0x0, 0x2bc05dc, 0x0, 0x0, 0x0, 0x0, 0x0⟩,
  ⟨"PWR_DIE_PACE", .die, 0x800304, 1, 0x0, 1, 0x0, 0x5dc, 0x7ff, 0x0, 0x0, 0x0, 0x0⟩,
  ⟨"THM_SENSOR_STATE", .die, 0x800310, 1, 0x0, 1, 0x0, 0x0, 0x0, 0x0, 0x0, 0x0, 0x0⟩,
  ⟨"THM_SENSOR_FAIL", .die, 0x800314, 1, 0x0, 1, 0x0, 0x0, 0x0, 0x0, 0x0, 0x0, 0x0⟩,
  ⟨"CTR_CFG", .die, 0x801000, 4, 0x1000, 64, 0x10, 0x0, 0xc00000ff, 0x0, 0x0, 0x0, 0x0⟩,
  ⟨"CTR_VAL_LO", .die, 0x801004, 4, 0x1000, 64, 0x10, 0x0, 0x0, 0x0, 0x0, 0x0, 0x0⟩,
  ⟨"CTR_VAL_HI", .die, 0x801008, 4, 0x1000, 64, 0x10, 0x0, 0x0, 0x0, 0x0, 0x0, 0x0⟩,
  ⟨"CTR_AUX", .die, 0x80100c, 4, 0x1000, 64, 0x10, 0x0, 0xffffffff, 0x0, 0x0, 0x0, 0x0⟩]

/-- Registers of the block `clus` (part 0), as the register tables of the chapters give them. -/
def regRows_clus0 : List RegRow := [
  ⟨"CL_CMEM_PWR_LO", .clus, 0x100, 2, 0x4, 1, 0x0, 0xaaaaaaaa, 0x0, 0x0, 0x0, 0x0, 0x0⟩,
  ⟨"CL_CMEM_ECC", .clus, 0x108, 1, 0x0, 1, 0x0, 0x0, 0x0, 0x0, 0x0, 0x0, 0xffffffff⟩,
  ⟨"CL_CMEM_UE_ADDR", .clus, 0x10c, 1, 0x0, 1, 0x0, 0x0, 0x0, 0x80000000, 0x0, 0x0, 0x0⟩,
  ⟨"CL_BGT_STATUS", .clus, 0x110, 1, 0x0, 1, 0x0, 0x0, 0x0, 0x0, 0x0, 0x0, 0x0⟩,
  ⟨"CL_XLAT_STATUS", .clus, 0x200, 1, 0x0, 1, 0x0, 0x0, 0x0, 0x0, 0x0, 0x0, 0x0⟩,
  ⟨"TRC_CAPTURE_CTRL", .clus, 0x300, 1, 0x0, 1, 0x0, 0x0, 0x0, 0x80000000, 0x0, 0x0, 0xffff⟩,
  ⟨"TRC_CAPTURE", .clus, 0x4000, 1024, 0x4, 1, 0x0, 0x0, 0x0, 0x0, 0x0, 0x0, 0x0⟩,
  ⟨"PWR_CL_PACE", .clus, 0x400, 1, 0x0, 1, 0x0, 0x0, 0x0, 0x0, 0x0, 0x0, 0x0⟩,
  ⟨"CTR_CFG", .clus, 0x2000, 32, 0x10, 1, 0x0, 0xf00700, 0xc0fcf7ff, 0x0, 0x0, 0x0, 0x0⟩,
  ⟨"CTR_VAL_LO", .clus, 0x2004, 32, 0x10, 1, 0x0, 0x0, 0x0, 0x0, 0x0, 0x0, 0x0⟩,
  ⟨"CTR_VAL_HI", .clus, 0x2008, 32, 0x10, 1, 0x0, 0x0, 0x0, 0x0, 0x0, 0x0, 0x0⟩,
  ⟨"CTR_AUX", .clus, 0x200c, 32, 0x10, 1, 0x0, 0x0, 0x0, 0x0, 0x0, 0x0, 0x0⟩]

/-- Registers of the block `clus` (part 1), as the register tables of the chapters give them. -/
def regRows_clus1 : List RegRow := [
  ⟨"CTR_RANGE0_LO", .clus, 0x2800, 1, 0x0, 1, 0x0, 0x0, 0xc7ffffff, 0x0, 0x0, 0x0, 0x0⟩,
  ⟨"CTR_RANGE0_HI", .clus, 0x2804, 1, 0x0, 1, 0x0, 0x0, 0x7ffffff, 0x0, 0x0, 0x0, 0x0⟩,
  ⟨"CTR_RANGE1_LO", .clus, 0x2808, 1, 0x0, 1, 0x0, 0x0, 0xc7ffffff, 0x0, 0x0, 0x0, 0x0⟩,
  ⟨"CTR_RANGE1_HI", .clus, 0x280c, 1, 0x0, 1, 0x0, 0x0, 0x7ffffff, 0x0, 0x0, 0x0, 0x0⟩,
  ⟨"TRC_SAMPLE_STATUS", .clus, 0x304, 1, 0x0, 1, 0x0, 0x0, 0x0, 0x30000000, 0x0, 0x0, 0x0⟩]

/-- Registers of the block `core` (part 0), as the register tables of the chapters give them. -/
def regRows_core0 : List RegRow := [
  ⟨"MXE_STATUS", .core, 0x1000, 2, 0x100, 1, 0x0, 0x1, 0x0, 0x0, 0x0, 0x0, 0x0⟩,
  ⟨"MXE_TILE", .core, 0x1004, 2, 0x100, 1, 0x0, 0x0, 0x0, 0x0, 0x0, 0x0, 0x0⟩,
  ⟨"MXE_ERR", .core, 0x1008, 2, 0x100, 1, 0x0, 0x0, 0x0, 0x7f, 0x0, 0x0, 0x0⟩,
  ⟨"MXE_RETRY_CNT", .core, 0x100c, 2, 0x100, 1, 0x0, 0x0, 0x0, 0x0, 0x0, 0x0, 0x0⟩,
  ⟨"VXE_STATUS", .core, 0x1200, 1, 0x0, 1, 0x0, 0x0, 0x0, 0x0, 0x0, 0x0, 0x0⟩,
  ⟨"VXE_FPFLAGS", .core, 0x1204, 1, 0x0, 1, 0x0, 0x0, 0x0, 0xf, 0x0, 0x0, 0x0⟩,
  ⟨"VXE_ERR", .core, 0x1208, 1, 0x0, 1, 0x0, 0x0, 0x0, 0xf, 0x0, 0x0, 0x0⟩,
  ⟨"TXE_STATUS", .core, 0x1300, 1, 0x0, 1, 0x0, 0x0, 0x0, 0x0, 0x0, 0x0, 0x0⟩,
  ⟨"TXE_ERR", .core, 0x1304, 1, 0x0, 1, 0x0, 0x0, 0x0, 0x7f, 0x0, 0x0, 0x0⟩,
  ⟨"CO_SPAD_PWR_LO", .core, 0x100, 2, 0x4, 1, 0x0, 0xaaaaaaaa, 0x0, 0x0, 0x0, 0x0, 0x0⟩,
  ⟨"CO_SPAD_ECC", .core, 0x108, 1, 0x0, 1, 0x0, 0x0, 0x0, 0x0, 0x0, 0x0, 0xffffffff⟩,
  ⟨"CO_SPAD_UE_ADDR", .core, 0x10c, 1, 0x0, 1, 0x0, 0x0, 0x0, 0x80000000, 0x0, 0x0, 0x0⟩]

/-- Registers of the block `core` (part 1), as the register tables of the chapters give them. -/
def regRows_core1 : List RegRow := [
  ⟨"CO_SEQ_STATE", .core, 0x400, 1, 0x0, 1, 0x0, 0x0, 0x0, 0x0, 0x0, 0x0, 0x0⟩,
  ⟨"CO_STREAM_IDX", .core, 0x404, 5, 0x4, 1, 0x0, 0x0, 0x0, 0x0, 0x0, 0x0, 0x0⟩,
  ⟨"CO_TOKEN_CNT", .core, 0x420, 16, 0x4, 1, 0x0, 0x0, 0x0, 0x0, 0x0, 0x0, 0x0⟩,
  ⟨"CO_EPOCH", .core, 0x460, 1, 0x0, 1, 0x0, 0x0, 0x0, 0x0, 0x0, 0x0, 0x0⟩,
  ⟨"CO_CONTRACT_ERR", .core, 0x464, 1, 0x0, 1, 0x0, 0x0, 0x0, 0x7ff, 0x0, 0x0, 0x0⟩,
  ⟨"CTR_CFG", .core, 0x2000, 16, 0x10, 1, 0x0, 0xf00700, 0xc0fcf7ff, 0x0, 0x0, 0x0, 0x0⟩,
  ⟨"CTR_VAL_LO", .core, 0x2004, 16, 0x10, 1, 0x0, 0x0, 0x0, 0x0, 0x0, 0x0, 0x0⟩,
  ⟨"CTR_VAL_HI", .core, 0x2008, 16, 0x10, 1, 0x0, 0x0, 0x0, 0x0, 0x0, 0x0, 0x0⟩,
  ⟨"CTR_AUX", .core, 0x200c, 16, 0x10, 1, 0x0, 0x0, 0x0, 0x0, 0x0, 0x0, 0x0⟩,
  ⟨"CTR_RANGE0_LO", .core, 0x2800, 1, 0x0, 1, 0x0, 0x0, 0xc7ffffff, 0x0, 0x0, 0x0, 0x0⟩,
  ⟨"CTR_RANGE0_HI", .core, 0x2804, 1, 0x0, 1, 0x0, 0x0, 0x7ffffff, 0x0, 0x0, 0x0, 0x0⟩,
  ⟨"CTR_RANGE1_LO", .core, 0x2808, 1, 0x0, 1, 0x0, 0x0, 0xc7ffffff, 0x0, 0x0, 0x0, 0x0⟩]

/-- Registers of the block `core` (part 2), as the register tables of the chapters give them. -/
def regRows_core2 : List RegRow := [
  ⟨"CTR_RANGE1_HI", .core, 0x280c, 1, 0x0, 1, 0x0, 0x0, 0x7ffffff, 0x0, 0x0, 0x0, 0x0⟩]

/-- Registers of the block `rtr` (part 0), as the register tables of the chapters give them. -/
def regRows_rtr0 : List RegRow := [
  ⟨"FL_STATE", .rtr, 0x1000000, 12, 0x10000, 1, 0x0, 0x0, 0x0, 0x0, 0x0, 0x0, 0x0⟩,
  ⟨"FL_CTRL", .rtr, 0x1000004, 12, 0x10000, 1, 0x0, 0x6, 0x7, 0x0, 0x0, 0x8, 0x0⟩,
  ⟨"FL_PEER", .rtr, 0x1000008, 12, 0x10000, 1, 0x0, 0x0, 0x0, 0x0, 0x0, 0x0, 0x0⟩,
  ⟨"FL_FEC_CW", .rtr, 0x1000010, 12, 0x10000, 1, 0x0, 0x0, 0x0, 0x0, 0x0, 0x0, 0xffffffff⟩,
  ⟨"FL_FEC_SYM", .rtr, 0x1000014, 12, 0x10000, 1, 0x0, 0x0, 0x0, 0x0, 0x0, 0x0, 0xffffffff⟩,
  ⟨"FL_FEC_UCW", .rtr, 0x1000018, 12, 0x10000, 1, 0x0, 0x0, 0x0, 0x0, 0x0, 0x0, 0xffffffff⟩,
  ⟨"FL_LANE_STATUS", .rtr, 0x1000100, 12, 0x10000, 8, 0x20, 0x0, 0x0, 0x0, 0x0, 0x0, 0x0⟩,
  ⟨"FL_SCAN_CTRL", .rtr, 0x1000110, 12, 0x10000, 8, 0x20, 0x0, 0x3f00ffff, 0x0, 0x80000000, 0x0, 0x0⟩,
  ⟨"FL_SCAN_RESULT", .rtr, 0x1000114, 12, 0x10000, 8, 0x20, 0x0, 0x0, 0x0, 0x0, 0x0, 0x0⟩,
  ⟨"FR_FID", .rtr, 0x0, 1, 0x0, 1, 0x0, 0xffff, 0xffff, 0x0, 0x0, 0x0, 0x0⟩,
  ⟨"FR_CTRL", .rtr, 0x4, 1, 0x0, 1, 0x0, 0x324000, 0xffff00, 0x0, 0x0, 0x0, 0x0⟩,
  ⟨"FR_STATUS", .rtr, 0x8, 1, 0x0, 1, 0x0, 0x0, 0x0, 0x30000000, 0x0, 0x0, 0x0⟩]

/-- Registers of the block `rtr` (part 1), as the register tables of the chapters give them. -/
def regRows_rtr1 : List RegRow := [
  ⟨"FR_TIME_CTRL", .rtr, 0xc, 1, 0x0, 1, 0x0, 0xff9f, 0x9f, 0x0, 0x0, 0x0, 0x0⟩,
  ⟨"FR_TC_WEIGHT", .rtr, 0x10, 1, 0x0, 1, 0x0, 0x31c, 0xfff, 0x0, 0x0, 0x0, 0x0⟩,
  ⟨"FR_DROP_CNT", .rtr, 0x14, 1, 0x0, 1, 0x0, 0x0, 0x0, 0x0, 0x0, 0x0, 0xffffffff⟩,
  ⟨"FR_PORT_CFG", .rtr, 0x1000, 12, 0x4, 1, 0x0, 0x8, 0xfffff80f, 0x0, 0x0, 0x0, 0x0⟩,
  ⟨"FR_PORT_ERR", .rtr, 0x1100, 12, 0x4, 1, 0x0, 0x0, 0x0, 0x0, 0x0, 0x0, 0xffffffff⟩,
  ⟨"FR_ROUTE", .rtr, 0x400000, 65536, 0x4, 1, 0x0, 0x0, 0x80ffffff, 0x0, 0x0, 0x0, 0x0⟩,
  ⟨"CTR_CFG", .rtr, 0x3000, 12, 0x100, 8, 0x10, 0x0, 0xc00000ff, 0x0, 0x0, 0x0, 0x0⟩,
  ⟨"CTR_VAL_LO", .rtr, 0x3004, 12, 0x100, 8, 0x10, 0x0, 0x0, 0x0, 0x0, 0x0, 0x0⟩,
  ⟨"CTR_VAL_HI", .rtr, 0x3008, 12, 0x100, 8, 0x10, 0x0, 0x0, 0x0, 0x0, 0x0, 0x0⟩,
  ⟨"CTR_AUX", .rtr, 0x300c, 12, 0x100, 8, 0x10, 0x0, 0xffffffff, 0x0, 0x0, 0x0, 0x0⟩]

/-- Registers of the block `hbm` (part 0), as the register tables of the chapters give them. -/
def regRows_hbm0 : List RegRow := [
  ⟨"HBM_STATUS", .hbm, 0x0, 1, 0x0, 1, 0x0, 0x0, 0x0, 0x8000000, 0x0, 0x0, 0x0⟩,
  ⟨"HBM_ECC", .hbm, 0x4, 1, 0x0, 1, 0x0, 0x0, 0x0, 0x0, 0x0, 0x0, 0xffffffff⟩,
  ⟨"HBM_UE_ADDR_LO", .hbm, 0x8, 1, 0x0, 1, 0x0, 0x0, 0x0, 0x0, 0x0, 0x0, 0x0⟩,
  ⟨"HBM_UE_ADDR_HI", .hbm, 0xc, 1, 0x0, 1, 0x0, 0x0, 0x0, 0x80000000, 0x0, 0x0, 0x0⟩,
  ⟨"HBM_SCRUB_CTRL", .hbm, 0x10, 1, 0x0, 1, 0x0, 0x80000018, 0x800000ff, 0x0, 0x0, 0x0, 0x0⟩,
  ⟨"HBM_ECS", .hbm, 0x14, 1, 0x0, 1, 0x0, 0x0, 0x0, 0x0, 0x0, 0x0, 0x0⟩,
  ⟨"CTR_CFG", .hbm, 0x1000, 64, 0x10, 1, 0x0, 0x0, 0xc00000ff, 0x0, 0x0, 0x0, 0x0⟩,
  ⟨"CTR_VAL_LO", .hbm, 0x1004, 64, 0x10, 1, 0x0, 0x0, 0x0, 0x0, 0x0, 0x0, 0x0⟩,
  ⟨"CTR_VAL_HI", .hbm, 0x1008, 64, 0x10, 1, 0x0, 0x0, 0x0, 0x0, 0x0, 0x0, 0x0⟩,
  ⟨"CTR_AUX", .hbm, 0x100c, 64, 0x10, 1, 0x0, 0x0, 0xffffffff, 0x0, 0x0, 0x0, 0x0⟩]

/-- Every register of the block `hubA`. -/
def regRows_hubA : List RegRow := regRows_hubA0 ++ regRows_hubA1 ++ regRows_hubA2 ++ regRows_hubA3 ++ regRows_hubA4 ++ regRows_hubA5 ++ regRows_hubA6 ++ regRows_hubA7

/-- Every register of the block `hubB`. -/
def regRows_hubB : List RegRow := regRows_hubB0 ++ regRows_hubB1

/-- Every register of the block `die`. -/
def regRows_die : List RegRow := regRows_die0

/-- Every register of the block `clus`. -/
def regRows_clus : List RegRow := regRows_clus0 ++ regRows_clus1

/-- Every register of the block `core`. -/
def regRows_core : List RegRow := regRows_core0 ++ regRows_core1 ++ regRows_core2

/-- Every register of the block `rtr`. -/
def regRows_rtr : List RegRow := regRows_rtr0 ++ regRows_rtr1

/-- Every register of the block `hbm`. -/
def regRows_hbm : List RegRow := regRows_hbm0

/-- The rows of one block. -/
def regRows : Blk → List RegRow
  | .hubA => regRows_hubA
  | .hubB => regRows_hubB
  | .die => regRows_die
  | .clus => regRows_clus
  | .core => regRows_core
  | .rtr => regRows_rtr
  | .hbm => regRows_hbm

/-- Where an address of *Register address map* lies: the block, the unit (die 0–7, cluster 0–63, physical core
0–575, router 0–1, stack 0–15) and the offset from the unit's base; none outside the map (R11). -/
def regPlace (a : Nat) : Option (Blk × Nat × Nat) :=
  if a < 0x01000000 then some (.hubA, 0, a)
  else if a < 0x02000000 then some (.hubB, 1, a - 0x01000000)
  else if a < 0x10000000 then none
  else if a < 0x18000000 then
    let d := (a - 0x10000000) / 0x01000000
    let o := (a - 0x10000000) % 0x01000000
    if o < 0x00800000 then
      let c := o / 0x00100000
      let p := o % 0x00100000
      if p < 0x10000 then some (.clus, 8 * d + c, p)
      else if p < 0xA0000 then some (.core, (8 * d + c) * 9 + (p / 0x10000 - 1), p % 0x10000)
      else none
    else some (.die, d, o)
  else if a < 0x20000000 then none
  else if a < 0x28000000 then some (.rtr, 0, a - 0x20000000)
  else if a < 0x30000000 then some (.rtr, 1, a - 0x28000000)
  else if a < 0x31000000 then some (.hbm, (a - 0x30000000) / 0x00100000, a % 0x00100000)
  else none

/-- The two indexes of an offset within a row, when the row covers it. -/
def RegRow.index (r : RegRow) (o : Nat) : Option (Nat × Nat) :=
  if o < r.off then none
  else
    let x := o - r.off
    let i := if r.s1 = 0 then 0 else min (x / r.s1) (r.n1 - 1)
    let y := x - i * r.s1
    let j := if r.s2 = 0 then 0 else min (y / r.s2) (r.n2 - 1)
    if y = j * r.s2 then some (i, j) else none

/-- *Bridge banks by die* (R490): how many of b = 1, 2, 3 name a bridge on die d; b = 0 is the DMP's bank. -/
def bridgeBanks : List Nat := [3, 2, 2, 2, 2, 1, 1, 1]

/-- The first row of a list that covers an offset of a unit, with its indexes; a bridge bank that names no bridge is
a gap (R490). -/
def findRow (unit o : Nat) : List RegRow → Option (RegRow × Nat × Nat)
  | [] => none
  | r :: rs =>
    match r.index o with
    | some (i, j) =>
      if r.blk == .die && r.n1 == 4 && r.s1 == 0x1000 && decide (bridgeBanks.getD unit 0 < i) then none
      else some (r, i, j)
    | none => findRow unit o rs

/-- A register that the map defines. -/
structure RegLoc where
  row : RegRow
  unit : Nat
  off : Nat
  i : Nat
  j : Nat
  deriving DecidableEq, Repr

/-- The register at an address (R11, R494): none where the address is misaligned, outside the map or in a gap. -/
def regFind (a : Nat) : Option RegLoc :=
  if a % 4 ≠ 0 then none
  else
    match regPlace a with
    | none => none
    | some (b, u, o) =>
      match findRow u o (regRows b) with
      | none => none
      | some (r, i, j) => some ⟨r, u, o, i, j⟩

/-- The reset value of the register at an address. -/
def regReset (a : Nat) : BitVec 32 :=
  match regFind a with
  | some l => BitVec.ofNat 32 l.row.reset
  | none => 0

end Sys2Proof.Machine
end

