-- ==== Sys2Proof/Machine/RegFields.lean ====
section
/-!
DEFINITION. The address of each register and the place of each of its fields, under the names of the register tables
(the register section of each chapter).
-/
namespace Sys2Proof.Machine

/-- A field of a register: the address, the lowest bit and the width. -/
structure Fld where
  addr : Nat
  lo : Nat
  w : Nat
  deriving DecidableEq, Repr

/-- Base of the registers of hub `h` (0 HUB-A, 1 HUB-B) (R11). -/
def hubBase (h : Nat) : Nat := h * 0x01000000
/-- Base of die `d` (R11). -/
def dieBase (d : Nat) : Nat := 0x10000000 + d * 0x01000000
/-- Base of physical cluster `c` (0–63) (R11). -/
def clusBase (c : Nat) : Nat := dieBase (c / 8) + c % 8 * 0x00100000
/-- Base of physical core `k` (0–575, nine to a cluster) (R11). -/
def coreBase (k : Nat) : Nat := clusBase (k / 9) + (k % 9 + 1) * 0x00010000
/-- Base of the fabric router of hub `h` (R11). -/
def rtrBase (h : Nat) : Nat := 0x20000000 + h * 0x08000000
/-- Base of the HBM controller of stack `s` (R11). -/
def hbmBase (s : Nat) : Nat := 0x30000000 + s * 0x00100000
/-- Base of the registers of link `n` (R261). -/
def linkBase (n : Nat) : Nat := rtrBase (n / 12) + 0x01000000 + n % 12 * 0x00010000
/-- Base of the registers of lane `l` of link `n` (R261). -/
def laneBase (n l : Nat) : Nat := linkBase n + 0x0100 + 0x20 * l
/-- Base of the registers of Ethernet port `n` (R338). -/
def portBase (n : Nat) : Nat := hubBase (n / 4) + 0x00010000 + 0x100 * (n % 4)
/-- Base of the registers of the CVE of hub `h` (R314). -/
def cveBase (h : Nat) : Nat := hubBase h + 0x8000

/-- *PKG_ID*, 0x0000_0000 (01_package.md). -/
def Reg.PKG_ID : Nat := 0x0
def Fd.PKG_ID.PART : Fld := ⟨Reg.PKG_ID, 16, 16⟩
def Fd.PKG_ID.STEP_MAJOR : Fld := ⟨Reg.PKG_ID, 12, 4⟩
def Fd.PKG_ID.STEP_MINOR : Fld := ⟨Reg.PKG_ID, 8, 4⟩

/-- *PKG_RESOURCES*, 0x0000_0004 (01_package.md). -/
def Reg.PKG_RESOURCES : Nat := 0x4
def Fd.PKG_RESOURCES.GOOD_DIES : Fld := ⟨Reg.PKG_RESOURCES, 24, 4⟩
def Fd.PKG_RESOURCES.GOOD_HBM : Fld := ⟨Reg.PKG_RESOURCES, 16, 5⟩
def Fd.PKG_RESOURCES.DEGRADED : Fld := ⟨Reg.PKG_RESOURCES, 15, 1⟩
def Fd.PKG_RESOURCES.SPARES_FREE : Fld := ⟨Reg.PKG_RESOURCES, 8, 7⟩
def Fd.PKG_RESOURCES.PLACEABLE_CL : Fld := ⟨Reg.PKG_RESOURCES, 0, 7⟩

/-- *PKG_TIMEBASE_LO*, 0x0000_0010 (01_package.md). -/
def Reg.PKG_TIMEBASE_LO : Nat := 0x10
def Fd.PKG_TIMEBASE_LO.TB_LO : Fld := ⟨Reg.PKG_TIMEBASE_LO, 0, 32⟩

/-- *PKG_TIMEBASE_HI*, 0x0000_0014 (01_package.md). -/
def Reg.PKG_TIMEBASE_HI : Nat := 0x14
def Fd.PKG_TIMEBASE_HI.TB_HI : Fld := ⟨Reg.PKG_TIMEBASE_HI, 0, 32⟩

/-- *PKG_TIME_CTRL*, 0x0000_0018 (01_package.md). -/
def Reg.PKG_TIME_CTRL : Nat := 0x18
def Fd.PKG_TIME_CTRL.SRC : Fld := ⟨Reg.PKG_TIME_CTRL, 0, 2⟩

/-- *PKG_TIME_STATUS*, 0x0000_001C (01_package.md). -/
def Reg.PKG_TIME_STATUS : Nat := 0x1c
def Fd.PKG_TIME_STATUS.OFFSET_NS : Fld := ⟨Reg.PKG_TIME_STATUS, 16, 16⟩
def Fd.PKG_TIME_STATUS.STEPPED : Fld := ⟨Reg.PKG_TIME_STATUS, 2, 1⟩
def Fd.PKG_TIME_STATUS.SRC_LOST : Fld := ⟨Reg.PKG_TIME_STATUS, 1, 1⟩
def Fd.PKG_TIME_STATUS.LOCKED : Fld := ⟨Reg.PKG_TIME_STATUS, 0, 1⟩

/-- *MXE_STATUS*, core + 0x1000 (MXE0), core + 0x1100 (MXE1) (03_engines.md). -/
def Reg.MXE_STATUS (k m : Nat) : Nat := coreBase k + 0x1000 + 0x100 * m
def Fd.MXE_STATUS.REPLAY_OVF (k m : Nat) : Fld := ⟨Reg.MXE_STATUS k m, 23, 1⟩
def Fd.MXE_STATUS.REPLAY_LEN (k m : Nat) : Fld := ⟨Reg.MXE_STATUS k m, 16, 7⟩
def Fd.MXE_STATUS.STATE (k m : Nat) : Fld := ⟨Reg.MXE_STATUS k m, 4, 4⟩
def Fd.MXE_STATUS.STAGED (k m : Nat) : Fld := ⟨Reg.MXE_STATUS k m, 3, 1⟩
def Fd.MXE_STATUS.BUSY (k m : Nat) : Fld := ⟨Reg.MXE_STATUS k m, 1, 1⟩
def Fd.MXE_STATUS.EMPTY (k m : Nat) : Fld := ⟨Reg.MXE_STATUS k m, 0, 1⟩

/-- *MXE_TILE*, core + 0x1004 (MXE0), core + 0x1104 (MXE1) (03_engines.md). -/
def Reg.MXE_TILE (k m : Nat) : Nat := coreBase k + 0x1004 + 0x100 * m
def Fd.MXE_TILE.CHECK (k m : Nat) : Fld := ⟨Reg.MXE_TILE k m, 30, 2⟩
def Fd.MXE_TILE.RETRIED (k m : Nat) : Fld := ⟨Reg.MXE_TILE k m, 29, 1⟩
def Fd.MXE_TILE.SUM_LOST (k m : Nat) : Fld := ⟨Reg.MXE_TILE k m, 28, 1⟩
def Fd.MXE_TILE.SKIPPED (k m : Nat) : Fld := ⟨Reg.MXE_TILE k m, 14, 8⟩
def Fd.MXE_TILE.WL_COUNT (k m : Nat) : Fld := ⟨Reg.MXE_TILE k m, 0, 14⟩

/-- *MXE_ERR*, core + 0x1008 (MXE0), core + 0x1108 (MXE1) (03_engines.md). -/
def Reg.MXE_ERR (k m : Nat) : Nat := coreBase k + 0x1008 + 0x100 * m
def Fd.MXE_ERR.REGION_BOUND (k m : Nat) : Fld := ⟨Reg.MXE_ERR k m, 6, 1⟩
def Fd.MXE_ERR.ALIGN (k m : Nat) : Fld := ⟨Reg.MXE_ERR k m, 5, 1⟩
def Fd.MXE_ERR.OPERAND_UE (k m : Nat) : Fld := ⟨Reg.MXE_ERR k m, 4, 1⟩
def Fd.MXE_ERR.ACC_PARITY (k m : Nat) : Fld := ⟨Reg.MXE_ERR k m, 3, 1⟩
def Fd.MXE_ERR.NO_REPLAY (k m : Nat) : Fld := ⟨Reg.MXE_ERR k m, 2, 1⟩
def Fd.MXE_ERR.ABFT_FAULT (k m : Nat) : Fld := ⟨Reg.MXE_ERR k m, 1, 1⟩
def Fd.MXE_ERR.ABFT_TRANSIENT (k m : Nat) : Fld := ⟨Reg.MXE_ERR k m, 0, 1⟩

/-- *MXE_RETRY_CNT*, core + 0x100C (MXE0), core + 0x110C (MXE1) (03_engines.md). -/
def Reg.MXE_RETRY_CNT (k m : Nat) : Nat := coreBase k + 0x100c + 0x100 * m
def Fd.MXE_RETRY_CNT.FAIL_CNT (k m : Nat) : Fld := ⟨Reg.MXE_RETRY_CNT k m, 16, 16⟩
def Fd.MXE_RETRY_CNT.PASS_CNT (k m : Nat) : Fld := ⟨Reg.MXE_RETRY_CNT k m, 0, 16⟩

/-- *VXE_STATUS*, core + 0x1200 (03_engines.md). -/
def Reg.VXE_STATUS (k : Nat) : Nat := coreBase k + 0x1200
def Fd.VXE_STATUS.FU_BUSY (k : Nat) : Fld := ⟨Reg.VXE_STATUS k, 1, 1⟩
def Fd.VXE_STATUS.BUSY (k : Nat) : Fld := ⟨Reg.VXE_STATUS k, 0, 1⟩

/-- *VXE_FPFLAGS*, core + 0x1204 (03_engines.md). -/
def Reg.VXE_FPFLAGS (k : Nat) : Nat := coreBase k + 0x1204
def Fd.VXE_FPFLAGS.INV (k : Nat) : Fld := ⟨Reg.VXE_FPFLAGS k, 3, 1⟩
def Fd.VXE_FPFLAGS.OVF (k : Nat) : Fld := ⟨Reg.VXE_FPFLAGS k, 2, 1⟩
def Fd.VXE_FPFLAGS.UNF (k : Nat) : Fld := ⟨Reg.VXE_FPFLAGS k, 1, 1⟩
def Fd.VXE_FPFLAGS.INX (k : Nat) : Fld := ⟨Reg.VXE_FPFLAGS k, 0, 1⟩

/-- *VXE_ERR*, core + 0x1208 (03_engines.md). -/
def Reg.VXE_ERR (k : Nat) : Nat := coreBase k + 0x1208
def Fd.VXE_ERR.SLOT_RANGE (k : Nat) : Fld := ⟨Reg.VXE_ERR k, 3, 1⟩
def Fd.VXE_ERR.REGION_BOUND (k : Nat) : Fld := ⟨Reg.VXE_ERR k, 2, 1⟩
def Fd.VXE_ERR.ALIGN (k : Nat) : Fld := ⟨Reg.VXE_ERR k, 1, 1⟩
def Fd.VXE_ERR.OPERAND_UE (k : Nat) : Fld := ⟨Reg.VXE_ERR k, 0, 1⟩

/-- *TXE_STATUS*, core + 0x1300 (03_engines.md). -/
def Reg.TXE_STATUS (k : Nat) : Nat := coreBase k + 0x1300
def Fd.TXE_STATUS.COLL_WAIT (k : Nat) : Fld := ⟨Reg.TXE_STATUS k, 5, 1⟩
def Fd.TXE_STATUS.HAZARD_HOLD (k : Nat) : Fld := ⟨Reg.TXE_STATUS k, 4, 1⟩
def Fd.TXE_STATUS.INFLIGHT (k : Nat) : Fld := ⟨Reg.TXE_STATUS k, 0, 4⟩

/-- *TXE_ERR*, core + 0x1304 (03_engines.md). -/
def Reg.TXE_ERR (k : Nat) : Nat := coreBase k + 0x1304
def Fd.TXE_ERR.OPERAND_UE (k : Nat) : Fld := ⟨Reg.TXE_ERR k, 6, 1⟩
def Fd.TXE_ERR.TARGET_RESET (k : Nat) : Fld := ⟨Reg.TXE_ERR k, 5, 1⟩
def Fd.TXE_ERR.PAGE_INVALID (k : Nat) : Fld := ⟨Reg.TXE_ERR k, 4, 1⟩
def Fd.TXE_ERR.SLOT_RANGE (k : Nat) : Fld := ⟨Reg.TXE_ERR k, 3, 1⟩
def Fd.TXE_ERR.HBM_UE (k : Nat) : Fld := ⟨Reg.TXE_ERR k, 2, 1⟩
def Fd.TXE_ERR.REGION_BOUND (k : Nat) : Fld := ⟨Reg.TXE_ERR k, 1, 1⟩
def Fd.TXE_ERR.ALIGN (k : Nat) : Fld := ⟨Reg.TXE_ERR k, 0, 1⟩

/-- *CO_SPAD_PWR_LO, CO_SPAD_PWR_HI*, core + 0x0100, core + 0x0104 (04_onchip_memory.md). -/
def Reg.CO_SPAD_PWR (k w : Nat) : Nat := coreBase k + 0x100 + 4 * w
def Fd.CO_SPAD_PWR.BANK (k w : Nat) (i : Nat) : Fld := ⟨Reg.CO_SPAD_PWR k w, 2 * i, 2⟩

/-- *CO_SPAD_ECC*, core + 0x0108 (04_onchip_memory.md). -/
def Reg.CO_SPAD_ECC (k : Nat) : Nat := coreBase k + 0x108
def Fd.CO_SPAD_ECC.UE_CNT (k : Nat) : Fld := ⟨Reg.CO_SPAD_ECC k, 16, 16⟩
def Fd.CO_SPAD_ECC.CE_CNT (k : Nat) : Fld := ⟨Reg.CO_SPAD_ECC k, 0, 16⟩

/-- *CO_SPAD_UE_ADDR*, core + 0x010C (04_onchip_memory.md). -/
def Reg.CO_SPAD_UE_ADDR (k : Nat) : Nat := coreBase k + 0x10c
def Fd.CO_SPAD_UE_ADDR.VALID (k : Nat) : Fld := ⟨Reg.CO_SPAD_UE_ADDR k, 31, 1⟩
def Fd.CO_SPAD_UE_ADDR.ADDR (k : Nat) : Fld := ⟨Reg.CO_SPAD_UE_ADDR k, 0, 22⟩

/-- *CL_CMEM_PWR_LO, CL_CMEM_PWR_HI*, cluster + 0x0100, cluster + 0x0104 (04_onchip_memory.md). -/
def Reg.CL_CMEM_PWR (c w : Nat) : Nat := clusBase c + 0x100 + 4 * w
def Fd.CL_CMEM_PWR.BANK (c w : Nat) (i : Nat) : Fld := ⟨Reg.CL_CMEM_PWR c w, 2 * i, 2⟩

/-- *CL_CMEM_ECC*, cluster + 0x0108 (04_onchip_memory.md). -/
def Reg.CL_CMEM_ECC (c : Nat) : Nat := clusBase c + 0x108
def Fd.CL_CMEM_ECC.UE_CNT (c : Nat) : Fld := ⟨Reg.CL_CMEM_ECC c, 16, 16⟩
def Fd.CL_CMEM_ECC.CE_CNT (c : Nat) : Fld := ⟨Reg.CL_CMEM_ECC c, 0, 16⟩

/-- *CL_CMEM_UE_ADDR*, cluster + 0x010C (04_onchip_memory.md). -/
def Reg.CL_CMEM_UE_ADDR (c : Nat) : Nat := clusBase c + 0x10c
def Fd.CL_CMEM_UE_ADDR.VALID (c : Nat) : Fld := ⟨Reg.CL_CMEM_UE_ADDR c, 31, 1⟩
def Fd.CL_CMEM_UE_ADDR.ADDR (c : Nat) : Fld := ⟨Reg.CL_CMEM_UE_ADDR c, 0, 25⟩

/-- *CL_BGT_STATUS*, cluster + 0x0110 (04_onchip_memory.md). -/
def Reg.CL_BGT_STATUS (c : Nat) : Nat := clusBase c + 0x110
def Fd.CL_BGT_STATUS.ACTIVE (c : Nat) : Fld := ⟨Reg.CL_BGT_STATUS c, 31, 1⟩
def Fd.CL_BGT_STATUS.PROMOTED (c : Nat) : Fld := ⟨Reg.CL_BGT_STATUS c, 30, 1⟩
def Fd.CL_BGT_STATUS.REGION (c : Nat) : Fld := ⟨Reg.CL_BGT_STATUS c, 0, 15⟩

/-- *CD_MEMTEST_CTRL*, die + 0x0080_0200 (04_onchip_memory.md). -/
def Reg.CD_MEMTEST_CTRL (d : Nat) : Nat := dieBase d + 0x800200
def Fd.CD_MEMTEST_CTRL.EN (d : Nat) : Fld := ⟨Reg.CD_MEMTEST_CTRL d, 31, 1⟩
def Fd.CD_MEMTEST_CTRL.PERIOD_MIN (d : Nat) : Fld := ⟨Reg.CD_MEMTEST_CTRL d, 0, 16⟩

/-- *CD_MEMTEST_STATUS*, die + 0x0080_0204 (04_onchip_memory.md). -/
def Reg.CD_MEMTEST_STATUS (d : Nat) : Nat := dieBase d + 0x800204
def Fd.CD_MEMTEST_STATUS.SWEEPS (d : Nat) : Fld := ⟨Reg.CD_MEMTEST_STATUS d, 16, 16⟩
def Fd.CD_MEMTEST_STATUS.FAIL_CNT (d : Nat) : Fld := ⟨Reg.CD_MEMTEST_STATUS d, 0, 16⟩

/-- *HUB_PRIVMEM_STATUS*, 0x0000_0800 (HUB-A), 0x0100_0800 (HUB-B) (04_onchip_memory.md). -/
def Reg.HUB_PRIVMEM_STATUS (h : Nat) : Nat := hubBase h + 0x800
def Fd.HUB_PRIVMEM_STATUS.CVE_SLOTS_GOOD (h : Nat) : Fld := ⟨Reg.HUB_PRIVMEM_STATUS h, 16, 7⟩
def Fd.HUB_PRIVMEM_STATUS.REPAIRS_USED (h : Nat) : Fld := ⟨Reg.HUB_PRIVMEM_STATUS h, 8, 8⟩
def Fd.HUB_PRIVMEM_STATUS.PSRAM_OK (h : Nat) : Fld := ⟨Reg.HUB_PRIVMEM_STATUS h, 3, 1⟩
def Fd.HUB_PRIVMEM_STATUS.CVE_TESTED (h : Nat) : Fld := ⟨Reg.HUB_PRIVMEM_STATUS h, 2, 1⟩
def Fd.HUB_PRIVMEM_STATUS.CPX_MEM_OK (h : Nat) : Fld := ⟨Reg.HUB_PRIVMEM_STATUS h, 1, 1⟩
def Fd.HUB_PRIVMEM_STATUS.SSRAM_OK (h : Nat) : Fld := ⟨Reg.HUB_PRIVMEM_STATUS h, 0, 1⟩

/-- *SEP_SSRAM_STATUS*, 0x0000_4000 (HUB-A), 0x0100_4000 (HUB-B) (04_onchip_memory.md). -/
def Reg.SEP_SSRAM_STATUS (h : Nat) : Nat := hubBase h + 0x4000
def Fd.SEP_SSRAM_STATUS.WIPE_CNT (h : Nat) : Fld := ⟨Reg.SEP_SSRAM_STATUS h, 16, 16⟩
def Fd.SEP_SSRAM_STATUS.LAST_CAUSE (h : Nat) : Fld := ⟨Reg.SEP_SSRAM_STATUS h, 12, 4⟩
def Fd.SEP_SSRAM_STATUS.WIPING (h : Nat) : Fld := ⟨Reg.SEP_SSRAM_STATUS h, 0, 1⟩

/-- *HBM_STATUS*, controller + 0x0000 (05_hbm.md). -/
def Reg.HBM_STATUS (s : Nat) : Nat := hbmBase s + 0x0
def Fd.HBM_STATUS.IN_SERVICE (s : Nat) : Fld := ⟨Reg.HBM_STATUS s, 31, 1⟩
def Fd.HBM_STATUS.HOLD (s : Nat) : Fld := ⟨Reg.HBM_STATUS s, 30, 1⟩
def Fd.HBM_STATUS.THROTTLE (s : Nat) : Fld := ⟨Reg.HBM_STATUS s, 29, 1⟩
def Fd.HBM_STATUS.REFRESH_X2 (s : Nat) : Fld := ⟨Reg.HBM_STATUS s, 28, 1⟩
def Fd.HBM_STATUS.TEMP_FAIL (s : Nat) : Fld := ⟨Reg.HBM_STATUS s, 27, 1⟩
def Fd.HBM_STATUS.PAGES_RETIRED (s : Nat) : Fld := ⟨Reg.HBM_STATUS s, 8, 16⟩
def Fd.HBM_STATUS.TEMP (s : Nat) : Fld := ⟨Reg.HBM_STATUS s, 0, 8⟩

/-- *HBM_ECC*, controller + 0x0004 (05_hbm.md). -/
def Reg.HBM_ECC (s : Nat) : Nat := hbmBase s + 0x4
def Fd.HBM_ECC.UE_CNT (s : Nat) : Fld := ⟨Reg.HBM_ECC s, 24, 8⟩
def Fd.HBM_ECC.ODE_CNT (s : Nat) : Fld := ⟨Reg.HBM_ECC s, 12, 12⟩
def Fd.HBM_ECC.CE_CNT (s : Nat) : Fld := ⟨Reg.HBM_ECC s, 0, 12⟩

/-- *HBM_UE_ADDR_LO*, controller + 0x0008 (05_hbm.md). -/
def Reg.HBM_UE_ADDR_LO (s : Nat) : Nat := hbmBase s + 0x8
def Fd.HBM_UE_ADDR_LO.PMA_LO (s : Nat) : Fld := ⟨Reg.HBM_UE_ADDR_LO s, 5, 27⟩

/-- *HBM_UE_ADDR_HI*, controller + 0x000C (05_hbm.md). -/
def Reg.HBM_UE_ADDR_HI (s : Nat) : Nat := hbmBase s + 0xc
def Fd.HBM_UE_ADDR_HI.VALID (s : Nat) : Fld := ⟨Reg.HBM_UE_ADDR_HI s, 31, 1⟩
def Fd.HBM_UE_ADDR_HI.PMA_HI (s : Nat) : Fld := ⟨Reg.HBM_UE_ADDR_HI s, 0, 12⟩

/-- *HBM_SCRUB_CTRL*, controller + 0x0010 (05_hbm.md). -/
def Reg.HBM_SCRUB_CTRL (s : Nat) : Nat := hbmBase s + 0x10
def Fd.HBM_SCRUB_CTRL.EN (s : Nat) : Fld := ⟨Reg.HBM_SCRUB_CTRL s, 31, 1⟩
def Fd.HBM_SCRUB_CTRL.PASSES (s : Nat) : Fld := ⟨Reg.HBM_SCRUB_CTRL s, 8, 16⟩
def Fd.HBM_SCRUB_CTRL.PERIOD_H (s : Nat) : Fld := ⟨Reg.HBM_SCRUB_CTRL s, 0, 8⟩

/-- *HBM_ECS*, controller + 0x0014 (05_hbm.md). -/
def Reg.HBM_ECS (s : Nat) : Nat := hbmBase s + 0x14
def Fd.HBM_ECS.ECS_CNT (s : Nat) : Fld := ⟨Reg.HBM_ECS s, 0, 32⟩

/-- *CL_XLAT_STATUS*, cluster + 0x0200 (05_hbm.md). -/
def Reg.CL_XLAT_STATUS (c : Nat) : Nat := clusBase c + 0x200
def Fd.CL_XLAT_STATUS.MISS_INFLIGHT (c : Nat) : Fld := ⟨Reg.CL_XLAT_STATUS c, 22, 5⟩
def Fd.CL_XLAT_STATUS.VALID_ENTRIES (c : Nat) : Fld := ⟨Reg.CL_XLAT_STATUS c, 0, 12⟩

/-- *CO_SEQ_STATE*, core + 0x0400 (06_schedule_contract.md). -/
def Reg.CO_SEQ_STATE (k : Nat) : Nat := coreBase k + 0x400
def Fd.CO_SEQ_STATE.SEQ (k : Nat) : Fld := ⟨Reg.CO_SEQ_STATE k, 16, 4⟩
def Fd.CO_SEQ_STATE.TXE (k : Nat) : Fld := ⟨Reg.CO_SEQ_STATE k, 12, 4⟩
def Fd.CO_SEQ_STATE.VXE (k : Nat) : Fld := ⟨Reg.CO_SEQ_STATE k, 8, 4⟩
def Fd.CO_SEQ_STATE.MXE1 (k : Nat) : Fld := ⟨Reg.CO_SEQ_STATE k, 4, 4⟩
def Fd.CO_SEQ_STATE.MXE0 (k : Nat) : Fld := ⟨Reg.CO_SEQ_STATE k, 0, 4⟩

/-- *CO_STREAM_IDX0–CO_STREAM_IDX4*, core + 0x0404 + 4n, n = stream number 0–4 (06_schedule_contract.md). -/
def Reg.CO_STREAM_IDX (k n : Nat) : Nat := coreBase k + 0x404 + 4 * n
def Fd.CO_STREAM_IDX.VALID (k n : Nat) : Fld := ⟨Reg.CO_STREAM_IDX k n, 31, 1⟩
def Fd.CO_STREAM_IDX.INDEX (k n : Nat) : Fld := ⟨Reg.CO_STREAM_IDX k n, 0, 24⟩

/-- *CO_TOKEN_CNT0–CO_TOKEN_CNT15*, core + 0x0420 + 4n, n = 0–15 (06_schedule_contract.md). -/
def Reg.CO_TOKEN_CNT (k n : Nat) : Nat := coreBase k + 0x420 + 4 * n
def Fd.CO_TOKEN_CNT.COUNT (k n : Nat) (i : Nat) : Fld := ⟨Reg.CO_TOKEN_CNT k n, 8 * i, 5⟩

/-- *CO_EPOCH*, core + 0x0460 (06_schedule_contract.md). -/
def Reg.CO_EPOCH (k : Nat) : Nat := coreBase k + 0x460
def Fd.CO_EPOCH.EPOCH_SEQ (k : Nat) : Fld := ⟨Reg.CO_EPOCH k, 0, 32⟩

/-- *CO_CONTRACT_ERR*, core + 0x0464 (06_schedule_contract.md). -/
def Reg.CO_CONTRACT_ERR (k : Nat) : Nat := coreBase k + 0x464
def Fd.CO_CONTRACT_ERR.BAR_STALL (k : Nat) : Fld := ⟨Reg.CO_CONTRACT_ERR k, 10, 1⟩
def Fd.CO_CONTRACT_ERR.STREAM_STALL (k : Nat) : Fld := ⟨Reg.CO_CONTRACT_ERR k, 9, 1⟩
def Fd.CO_CONTRACT_ERR.TRIP_BOUND (k : Nat) : Fld := ⟨Reg.CO_CONTRACT_ERR k, 8, 1⟩
def Fd.CO_CONTRACT_ERR.STREAM_END (k : Nat) : Fld := ⟨Reg.CO_CONTRACT_ERR k, 7, 1⟩
def Fd.CO_CONTRACT_ERR.BAR_MISMATCH (k : Nat) : Fld := ⟨Reg.CO_CONTRACT_ERR k, 6, 1⟩
def Fd.CO_CONTRACT_ERR.SIZE_MISMATCH (k : Nat) : Fld := ⟨Reg.CO_CONTRACT_ERR k, 5, 1⟩
def Fd.CO_CONTRACT_ERR.HANDOFF (k : Nat) : Fld := ⟨Reg.CO_CONTRACT_ERR k, 4, 1⟩
def Fd.CO_CONTRACT_ERR.REGION_GUARD (k : Nat) : Fld := ⟨Reg.CO_CONTRACT_ERR k, 3, 1⟩
def Fd.CO_CONTRACT_ERR.TOKEN_LEFTOVER (k : Nat) : Fld := ⟨Reg.CO_CONTRACT_ERR k, 2, 1⟩
def Fd.CO_CONTRACT_ERR.TOKEN_UNDERFLOW (k : Nat) : Fld := ⟨Reg.CO_CONTRACT_ERR k, 1, 1⟩
def Fd.CO_CONTRACT_ERR.TOKEN_OVERFLOW (k : Nat) : Fld := ⟨Reg.CO_CONTRACT_ERR k, 0, 1⟩

/-- *PLU_STATUS*, 0x0000_2000 (08_placement.md). -/
def Reg.PLU_STATUS : Nat := 0x2000
def Fd.PLU_STATUS.BUSY : Fld := ⟨Reg.PLU_STATUS, 31, 1⟩
def Fd.PLU_STATUS.MIGRATING : Fld := ⟨Reg.PLU_STATUS, 30, 1⟩
def Fd.PLU_STATUS.PART_REJECT : Fld := ⟨Reg.PLU_STATUS, 29, 1⟩
def Fd.PLU_STATUS.LOADS_WAITING : Fld := ⟨Reg.PLU_STATUS, 16, 7⟩
def Fd.PLU_STATUS.LAST_RESULT : Fld := ⟨Reg.PLU_STATUS, 0, 16⟩

/-- *PLU_CTRL*, 0x0000_2004 (08_placement.md). -/
def Reg.PLU_CTRL : Nat := 0x2004
def Fd.PLU_CTRL.EXCL_C : Fld := ⟨Reg.PLU_CTRL, 8, 7⟩
def Fd.PLU_CTRL.THERMAL_MIGR : Fld := ⟨Reg.PLU_CTRL, 1, 1⟩
def Fd.PLU_CTRL.MIGRATE_EN : Fld := ⟨Reg.PLU_CTRL, 0, 1⟩

/-- *PLU_MIGR_CNT*, 0x0000_2008 (08_placement.md). -/
def Reg.PLU_MIGR_CNT : Nat := 0x2008
def Fd.PLU_MIGR_CNT.PAGES : Fld := ⟨Reg.PLU_MIGR_CNT, 0, 32⟩

/-- *PLU_PIN_STATUS*, 0x0000_200C (08_placement.md). -/
def Reg.PLU_PIN_STATUS : Nat := 0x200c
def Fd.PLU_PIN_STATUS.SLOT_VALID : Fld := ⟨Reg.PLU_PIN_STATUS, 0, 8⟩

/-- *PLU_PART_LO0–PLU_PART_LO15*, 0x0000_2100 + 8p, p = 0–15 (08_placement.md). -/
def Reg.PLU_PART_LO (p : Nat) : Nat := 0x2100 + 8 * p
def Fd.PLU_PART_LO.MEMBER (p : Nat) : Fld := ⟨Reg.PLU_PART_LO p, 0, 32⟩

/-- *PLU_PART_HI0–PLU_PART_HI15*, 0x0000_2104 + 8p, p = 0–15 (08_placement.md). -/
def Reg.PLU_PART_HI (p : Nat) : Nat := 0x2104 + 8 * p
def Fd.PLU_PART_HI.MEMBER (p : Nat) : Fld := ⟨Reg.PLU_PART_HI p, 0, 32⟩

/-- *PLU_PART_QUOTA0–PLU_PART_QUOTA15*, 0x0000_2180 + 4p, p = 0–15 (08_placement.md). -/
def Reg.PLU_PART_QUOTA (p : Nat) : Nat := 0x2180 + 4 * p
def Fd.PLU_PART_QUOTA.MAX_PAGES (p : Nat) : Fld := ⟨Reg.PLU_PART_QUOTA p, 0, 20⟩

/-- *PLU_PART_USED0–PLU_PART_USED15*, 0x0000_21C0 + 4p, p = 0–15 (08_placement.md). -/
def Reg.PLU_PART_USED (p : Nat) : Nat := 0x21C0 + 4 * p
def Fd.PLU_PART_USED.PAGES (p : Nat) : Fld := ⟨Reg.PLU_PART_USED p, 0, 20⟩

/-- *FL_STATE*, link + 0x0000 (10_fabric_links.md). -/
def Reg.FL_STATE (n : Nat) : Nat := linkBase n + 0x0
def Fd.FL_STATE.STATE (n : Nat) : Fld := ⟨Reg.FL_STATE n, 24, 4⟩
def Fd.FL_STATE.LANES_LOCKED (n : Nat) : Fld := ⟨Reg.FL_STATE n, 16, 8⟩
def Fd.FL_STATE.DEGRADED (n : Nat) : Fld := ⟨Reg.FL_STATE n, 15, 1⟩
def Fd.FL_STATE.REMOTE_FAULT (n : Nat) : Fld := ⟨Reg.FL_STATE n, 14, 1⟩
def Fd.FL_STATE.FAST (n : Nat) : Fld := ⟨Reg.FL_STATE n, 13, 1⟩
def Fd.FL_STATE.FAIL_REASON (n : Nat) : Fld := ⟨Reg.FL_STATE n, 4, 4⟩
def Fd.FL_STATE.RETRIES (n : Nat) : Fld := ⟨Reg.FL_STATE n, 0, 4⟩

/-- *FL_CTRL*, link + 0x0004 (10_fabric_links.md). -/
def Reg.FL_CTRL (n : Nat) : Nat := linkBase n + 0x4
def Fd.FL_CTRL.RETRAIN (n : Nat) : Fld := ⟨Reg.FL_CTRL n, 3, 1⟩
def Fd.FL_CTRL.FAST_EN (n : Nat) : Fld := ⟨Reg.FL_CTRL n, 2, 1⟩
def Fd.FL_CTRL.AUTO_RETRAIN (n : Nat) : Fld := ⟨Reg.FL_CTRL n, 1, 1⟩
def Fd.FL_CTRL.EN (n : Nat) : Fld := ⟨Reg.FL_CTRL n, 0, 1⟩

/-- *FL_PEER*, link + 0x0008 (10_fabric_links.md). -/
def Reg.FL_PEER (n : Nat) : Nat := linkBase n + 0x8
def Fd.FL_PEER.FID (n : Nat) : Fld := ⟨Reg.FL_PEER n, 16, 16⟩
def Fd.FL_PEER.VALID (n : Nat) : Fld := ⟨Reg.FL_PEER n, 15, 1⟩
def Fd.FL_PEER.LINK (n : Nat) : Fld := ⟨Reg.FL_PEER n, 0, 5⟩

/-- *FL_FEC_CW*, link + 0x0010 (10_fabric_links.md). -/
def Reg.FL_FEC_CW (n : Nat) : Nat := linkBase n + 0x10
def Fd.FL_FEC_CW.CORR_CW (n : Nat) : Fld := ⟨Reg.FL_FEC_CW n, 0, 32⟩

/-- *FL_FEC_SYM*, link + 0x0014 (10_fabric_links.md). -/
def Reg.FL_FEC_SYM (n : Nat) : Nat := linkBase n + 0x14
def Fd.FL_FEC_SYM.CORR_SYM (n : Nat) : Fld := ⟨Reg.FL_FEC_SYM n, 0, 32⟩

/-- *FL_FEC_UCW*, link + 0x0018 (10_fabric_links.md). -/
def Reg.FL_FEC_UCW (n : Nat) : Nat := linkBase n + 0x18
def Fd.FL_FEC_UCW.BAD_CTRL (n : Nat) : Fld := ⟨Reg.FL_FEC_UCW n, 16, 16⟩
def Fd.FL_FEC_UCW.UCW (n : Nat) : Fld := ⟨Reg.FL_FEC_UCW n, 0, 16⟩

/-- *FL_LANE_STATUS*, lane + 0x00 (10_fabric_links.md). -/
def Reg.FL_LANE_STATUS (n l : Nat) : Nat := laneBase n l + 0x0
def Fd.FL_LANE_STATUS.LOS (n l : Nat) : Fld := ⟨Reg.FL_LANE_STATUS n l, 31, 1⟩
def Fd.FL_LANE_STATUS.LOL (n l : Nat) : Fld := ⟨Reg.FL_LANE_STATUS n l, 30, 1⟩
def Fd.FL_LANE_STATUS.BLOCK_LOCK (n l : Nat) : Fld := ⟨Reg.FL_LANE_STATUS n l, 29, 1⟩
def Fd.FL_LANE_STATUS.SKEW_NS (n l : Nat) : Fld := ⟨Reg.FL_LANE_STATUS n l, 16, 8⟩
def Fd.FL_LANE_STATUS.CTLE (n l : Nat) : Fld := ⟨Reg.FL_LANE_STATUS n l, 8, 4⟩
def Fd.FL_LANE_STATUS.OPT_PWR (n l : Nat) : Fld := ⟨Reg.FL_LANE_STATUS n l, 0, 8⟩

/-- *FL_SCAN_CTRL*, lane + 0x10 (10_fabric_links.md). -/
def Reg.FL_SCAN_CTRL (n l : Nat) : Nat := laneBase n l + 0x10
def Fd.FL_SCAN_CTRL.START (n l : Nat) : Fld := ⟨Reg.FL_SCAN_CTRL n l, 31, 1⟩
def Fd.FL_SCAN_CTRL.EYE (n l : Nat) : Fld := ⟨Reg.FL_SCAN_CTRL n l, 28, 2⟩
def Fd.FL_SCAN_CTRL.DWELL (n l : Nat) : Fld := ⟨Reg.FL_SCAN_CTRL n l, 24, 4⟩
def Fd.FL_SCAN_CTRL.VOFF (n l : Nat) : Fld := ⟨Reg.FL_SCAN_CTRL n l, 8, 8⟩
def Fd.FL_SCAN_CTRL.HOFF (n l : Nat) : Fld := ⟨Reg.FL_SCAN_CTRL n l, 0, 8⟩

/-- *FL_SCAN_RESULT*, lane + 0x14 (10_fabric_links.md). -/
def Reg.FL_SCAN_RESULT (n l : Nat) : Nat := laneBase n l + 0x14
def Fd.FL_SCAN_RESULT.DONE (n l : Nat) : Fld := ⟨Reg.FL_SCAN_RESULT n l, 31, 1⟩
def Fd.FL_SCAN_RESULT.ABORTED (n l : Nat) : Fld := ⟨Reg.FL_SCAN_RESULT n l, 30, 1⟩
def Fd.FL_SCAN_RESULT.ERRORS (n l : Nat) : Fld := ⟨Reg.FL_SCAN_RESULT n l, 0, 24⟩

/-- *FR_FID*, router + 0x0000 (11_fabric_routing.md). -/
def Reg.FR_FID : Nat := 0x20000000
def Fd.FR_FID.FID : Fld := ⟨Reg.FR_FID, 0, 16⟩

/-- *FR_CTRL*, router + 0x0004 (11_fabric_routing.md). -/
def Reg.FR_CTRL : Nat := 0x20000004
def Fd.FR_CTRL.THROTTLE_PCT : Fld := ⟨Reg.FR_CTRL, 16, 8⟩
def Fd.FR_CTRL.HOP_LIMIT : Fld := ⟨Reg.FR_CTRL, 8, 8⟩

/-- *FR_STATUS*, router + 0x0008 (11_fabric_routing.md). -/
def Reg.FR_STATUS : Nat := 0x20000008
def Fd.FR_STATUS.QUIESCED : Fld := ⟨Reg.FR_STATUS, 31, 1⟩
def Fd.FR_STATUS.DRAINED : Fld := ⟨Reg.FR_STATUS, 30, 1⟩
def Fd.FR_STATUS.CFG_REJECT : Fld := ⟨Reg.FR_STATUS, 29, 1⟩
def Fd.FR_STATUS.TBL_REJECT : Fld := ⟨Reg.FR_STATUS, 28, 1⟩
def Fd.FR_STATUS.XTAG_INUSE : Fld := ⟨Reg.FR_STATUS, 0, 15⟩

/-- *FR_TIME_CTRL*, router + 0x000C (11_fabric_routing.md). -/
def Reg.FR_TIME_CTRL : Nat := 0x2000000c
def Fd.FR_TIME_CTRL.STRATUM : Fld := ⟨Reg.FR_TIME_CTRL, 8, 8⟩
def Fd.FR_TIME_CTRL.EN : Fld := ⟨Reg.FR_TIME_CTRL, 7, 1⟩
def Fd.FR_TIME_CTRL.UP_LINK : Fld := ⟨Reg.FR_TIME_CTRL, 0, 5⟩

/-- *FR_TC_WEIGHT*, router + 0x0010 (11_fabric_routing.md). -/
def Reg.FR_TC_WEIGHT : Nat := 0x20000010
def Fd.FR_TC_WEIGHT.W3 : Fld := ⟨Reg.FR_TC_WEIGHT, 8, 4⟩
def Fd.FR_TC_WEIGHT.W2 : Fld := ⟨Reg.FR_TC_WEIGHT, 4, 4⟩
def Fd.FR_TC_WEIGHT.W1 : Fld := ⟨Reg.FR_TC_WEIGHT, 0, 4⟩

/-- *FR_DROP_CNT*, router + 0x0014 (11_fabric_routing.md). -/
def Reg.FR_DROP_CNT (h : Nat) : Nat := rtrBase h + 0x14
def Fd.FR_DROP_CNT.BAD_TYPE (h : Nat) : Fld := ⟨Reg.FR_DROP_CNT h, 24, 8⟩
def Fd.FR_DROP_CNT.HOPS (h : Nat) : Fld := ⟨Reg.FR_DROP_CNT h, 16, 8⟩
def Fd.FR_DROP_CNT.NOROUTE (h : Nat) : Fld := ⟨Reg.FR_DROP_CNT h, 0, 16⟩

/-- *FR_PORT_CFG*, router + 0x1000 + 4 × (n mod 12) (11_fabric_routing.md). -/
def Reg.FR_PORT_CFG (n : Nat) : Nat := rtrBase (n / 12) + 0x1000 + 4 * (n % 12)
def Fd.FR_PORT_CFG.PEER_FID (n : Nat) : Fld := ⟨Reg.FR_PORT_CFG n, 16, 16⟩
def Fd.FR_PORT_CFG.PEER_LINK (n : Nat) : Fld := ⟨Reg.FR_PORT_CFG n, 11, 5⟩
def Fd.FR_PORT_CFG.UNUSED (n : Nat) : Fld := ⟨Reg.FR_PORT_CFG n, 3, 1⟩
def Fd.FR_PORT_CFG.DATELINE (n : Nat) : Fld := ⟨Reg.FR_PORT_CFG n, 2, 1⟩
def Fd.FR_PORT_CFG.RING (n : Nat) : Fld := ⟨Reg.FR_PORT_CFG n, 0, 2⟩

/-- *FR_PORT_ERR*, router + 0x1100 + 4 × (n mod 12) (11_fabric_routing.md). -/
def Reg.FR_PORT_ERR (n : Nat) : Nat := rtrBase (n / 12) + 0x1100 + 4 * (n % 12)
def Fd.FR_PORT_ERR.REPLAYS (n : Nat) : Fld := ⟨Reg.FR_PORT_ERR n, 16, 16⟩
def Fd.FR_PORT_ERR.HCRC_ERR (n : Nat) : Fld := ⟨Reg.FR_PORT_ERR n, 8, 8⟩
def Fd.FR_PORT_ERR.STOMP_RX (n : Nat) : Fld := ⟨Reg.FR_PORT_ERR n, 0, 8⟩

/-- *FR_ROUTE*, router + 0x0040_0000 + 4 × FID, FID = 0x0000–0xFFFF (11_fabric_routing.md). -/
def Reg.FR_ROUTE (fid : Nat) : Nat := 0x20400000 + 4 * fid
def Fd.FR_ROUTE.LOCAL (fid : Nat) : Fld := ⟨Reg.FR_ROUTE fid, 31, 1⟩
def Fd.FR_ROUTE.PORTS (fid : Nat) : Fld := ⟨Reg.FR_ROUTE fid, 0, 24⟩

/-- *CVE_GRP_W0*, CVE + 0x1000 + 16n, n = 0–1,023 (12_collectives.md). -/
def Reg.CVE_GRP_W0 (n : Nat) : Nat := 0x8000 + 0x1000 + 16 * n
def Fd.CVE_GRP_W0.GID (n : Nat) : Fld := ⟨Reg.CVE_GRP_W0 n, 16, 16⟩
def Fd.CVE_GRP_W0.JOB (n : Nat) : Fld := ⟨Reg.CVE_GRP_W0 n, 0, 16⟩

/-- *CVE_GRP_W1*, CVE + 0x1004 + 16n (12_collectives.md). -/
def Reg.CVE_GRP_W1 (n : Nat) : Nat := 0x8000 + 0x1004 + 16 * n
def Fd.CVE_GRP_W1.VALID (n : Nat) : Fld := ⟨Reg.CVE_GRP_W1 n, 31, 1⟩
def Fd.CVE_GRP_W1.FENCED (n : Nat) : Fld := ⟨Reg.CVE_GRP_W1 n, 30, 1⟩
def Fd.CVE_GRP_W1.BOUND (n : Nat) : Fld := ⟨Reg.CVE_GRP_W1 n, 29, 1⟩
def Fd.CVE_GRP_W1.GUST_EN (n : Nat) : Fld := ⟨Reg.CVE_GRP_W1 n, 28, 1⟩
def Fd.CVE_GRP_W1.MODE (n : Nat) : Fld := ⟨Reg.CVE_GRP_W1 n, 27, 1⟩
def Fd.CVE_GRP_W1.CVE (n : Nat) : Fld := ⟨Reg.CVE_GRP_W1 n, 25, 2⟩
def Fd.CVE_GRP_W1.PRIO (n : Nat) : Fld := ⟨Reg.CVE_GRP_W1 n, 23, 2⟩
def Fd.CVE_GRP_W1.CHUNK (n : Nat) : Fld := ⟨Reg.CVE_GRP_W1 n, 20, 3⟩
def Fd.CVE_GRP_W1.LSET (n : Nat) : Fld := ⟨Reg.CVE_GRP_W1 n, 16, 4⟩
def Fd.CVE_GRP_W1.WEIGHT (n : Nat) : Fld := ⟨Reg.CVE_GRP_W1 n, 12, 4⟩
def Fd.CVE_GRP_W1.GEN (n : Nat) : Fld := ⟨Reg.CVE_GRP_W1 n, 0, 8⟩

/-- *CVE_GRP_W2*, CVE + 0x1008 + 16n (12_collectives.md). -/
def Reg.CVE_GRP_W2 (n : Nat) : Nat := 0x8000 + 0x1008 + 16 * n
def Fd.CVE_GRP_W2.M (n : Nat) : Fld := ⟨Reg.CVE_GRP_W2 n, 16, 16⟩
def Fd.CVE_GRP_W2.MY_INDEX (n : Nat) : Fld := ⟨Reg.CVE_GRP_W2 n, 0, 16⟩

/-- *CVE_GRP_W3*, CVE + 0x100C + 16n (12_collectives.md). -/
def Reg.CVE_GRP_W3 (n : Nat) : Nat := 0x8000 + 0x100c + 16 * n
def Fd.CVE_GRP_W3.CTX (n : Nat) : Fld := ⟨Reg.CVE_GRP_W3 n, 26, 6⟩
def Fd.CVE_GRP_W3.MOFF (n : Nat) : Fld := ⟨Reg.CVE_GRP_W3 n, 0, 19⟩

/-- *CVE_CTRL*, CVE + 0x0000 (12_collectives.md). -/
def Reg.CVE_CTRL : Nat := 0x8000
def Fd.CVE_CTRL.EARLY_TO_MS : Fld := ⟨Reg.CVE_CTRL, 0, 16⟩

/-- *CVE_STATUS*, CVE + 0x0004 (12_collectives.md). -/
def Reg.CVE_STATUS (h : Nat) : Nat := cveBase h + 0x4
def Fd.CVE_STATUS.SLOTS_FREE (h : Nat) : Fld := ⟨Reg.CVE_STATUS h, 24, 7⟩
def Fd.CVE_STATUS.CHANNELS (h : Nat) : Fld := ⟨Reg.CVE_STATUS h, 16, 6⟩
def Fd.CVE_STATUS.QUEUED (h : Nat) : Fld := ⟨Reg.CVE_STATUS h, 8, 7⟩
def Fd.CVE_STATUS.STAGED (h : Nat) : Fld := ⟨Reg.CVE_STATUS h, 0, 6⟩

/-- *CVE_ERR*, CVE + 0x0008 (12_collectives.md). -/
def Reg.CVE_ERR (h : Nat) : Nat := cveBase h + 0x8
def Fd.CVE_ERR.GROUP_INVALID (h : Nat) : Fld := ⟨Reg.CVE_ERR h, 7, 1⟩
def Fd.CVE_ERR.STALE (h : Nat) : Fld := ⟨Reg.CVE_ERR h, 6, 1⟩
def Fd.CVE_ERR.REFUSED (h : Nat) : Fld := ⟨Reg.CVE_ERR h, 5, 1⟩
def Fd.CVE_ERR.PEER_MISMATCH (h : Nat) : Fld := ⟨Reg.CVE_ERR h, 4, 1⟩
def Fd.CVE_ERR.EARLY_TIMEOUT (h : Nat) : Fld := ⟨Reg.CVE_ERR h, 3, 1⟩
def Fd.CVE_ERR.ADMIT_TIMEOUT (h : Nat) : Fld := ⟨Reg.CVE_ERR h, 2, 1⟩
def Fd.CVE_ERR.DIGEST (h : Nat) : Fld := ⟨Reg.CVE_ERR h, 1, 1⟩
def Fd.CVE_ERR.CHUNK_CRC (h : Nat) : Fld := ⟨Reg.CVE_ERR h, 0, 1⟩

/-- *CVE_CHECK_CNT*, CVE + 0x000C (12_collectives.md). -/
def Reg.CVE_CHECK_CNT (h : Nat) : Nat := cveBase h + 0xc
def Fd.CVE_CHECK_CNT.BOUND_PASS (h : Nat) : Fld := ⟨Reg.CVE_CHECK_CNT h, 16, 16⟩
def Fd.CVE_CHECK_CNT.EXACT_PASS (h : Nat) : Fld := ⟨Reg.CVE_CHECK_CNT h, 0, 16⟩

/-- *CVE_DROP_CNT*, CVE + 0x0010 (12_collectives.md). -/
def Reg.CVE_DROP_CNT (h : Nat) : Nat := cveBase h + 0x10
def Fd.CVE_DROP_CNT.STALE_DROP (h : Nat) : Fld := ⟨Reg.CVE_DROP_CNT h, 16, 16⟩
def Fd.CVE_DROP_CNT.SKIPPED (h : Nat) : Fld := ⟨Reg.CVE_DROP_CNT h, 0, 16⟩

/-- *CVE_MEMBERS*, 0x0040_0000 + 4w (HUB-A), 0x0140_0000 + 4w (HUB-B), w = 0–262,143 (12_collectives.md). -/
def Reg.CVE_MEMBERS (w : Nat) : Nat := 0x400000 + 4 * w
def Fd.CVE_MEMBERS.FID_ODD (w : Nat) : Fld := ⟨Reg.CVE_MEMBERS w, 16, 16⟩
def Fd.CVE_MEMBERS.FID_EVEN (w : Nat) : Fld := ⟨Reg.CVE_MEMBERS w, 0, 16⟩

/-- *EP_STATUS*, port + 0x00 (13_host_protocol.md). -/
def Reg.EP_STATUS (n : Nat) : Nat := portBase n + 0x0
def Fd.EP_STATUS.LINK_UP (n : Nat) : Fld := ⟨Reg.EP_STATUS n, 31, 1⟩
def Fd.EP_STATUS.PTP_SEL (n : Nat) : Fld := ⟨Reg.EP_STATUS n, 30, 1⟩
def Fd.EP_STATUS.PFC_TX (n : Nat) : Fld := ⟨Reg.EP_STATUS n, 29, 1⟩
def Fd.EP_STATUS.FEC_UCW (n : Nat) : Fld := ⟨Reg.EP_STATUS n, 0, 16⟩

/-- *EP_CFG*, port + 0x04 (13_host_protocol.md). -/
def Reg.EP_CFG (n : Nat) : Nat := portBase n + 0x4
def Fd.EP_CFG.PTP_DOMAIN (n : Nat) : Fld := ⟨Reg.EP_CFG n, 24, 8⟩
def Fd.EP_CFG.PFC_MASK (n : Nat) : Fld := ⟨Reg.EP_CFG n, 16, 8⟩
def Fd.EP_CFG.CTL_PRIO (n : Nat) : Fld := ⟨Reg.EP_CFG n, 12, 3⟩
def Fd.EP_CFG.DATA_PRIO (n : Nat) : Fld := ⟨Reg.EP_CFG n, 8, 3⟩

/-- *EP_VLAN*, port + 0x08 (13_host_protocol.md). -/
def Reg.EP_VLAN (n : Nat) : Nat := portBase n + 0x8
def Fd.EP_VLAN.VID (n : Nat) : Fld := ⟨Reg.EP_VLAN n, 0, 12⟩

/-- *EP_IPV4*, port + 0x0C (13_host_protocol.md). -/
def Reg.EP_IPV4 (n : Nat) : Nat := portBase n + 0xc
def Fd.EP_IPV4.ADDR (n : Nat) : Fld := ⟨Reg.EP_IPV4 n, 0, 32⟩

/-- *EP_IPV6_0–EP_IPV6_3*, port + 0x10 + 4k, k = 0–3 (13_host_protocol.md). -/
def Reg.EP_IPV6_ (n k : Nat) : Nat := portBase n + 0x10 + 4 * k
def Fd.EP_IPV6_.ADDR (n k : Nat) : Fld := ⟨Reg.EP_IPV6_ n k, 0, 32⟩

/-- *EP_DROP_CNT*, port + 0x20 (13_host_protocol.md). -/
def Reg.EP_DROP_CNT (n : Nat) : Nat := portBase n + 0x20
def Fd.EP_DROP_CNT.YCP (n : Nat) : Fld := ⟨Reg.EP_DROP_CNT n, 16, 16⟩
def Fd.EP_DROP_CNT.FRAME (n : Nat) : Fld := ⟨Reg.EP_DROP_CNT n, 0, 16⟩

/-- *CPX_AUTH*, 0x0000_3000 (14_control_complexes.md). -/
def Reg.CPX_AUTH : Nat := 0x3000
def Fd.CPX_AUTH.HOLDER : Fld := ⟨Reg.CPX_AUTH, 31, 1⟩
def Fd.CPX_AUTH.HELD : Fld := ⟨Reg.CPX_AUTH, 30, 1⟩
def Fd.CPX_AUTH.PREFER : Fld := ⟨Reg.CPX_AUTH, 28, 2⟩
def Fd.CPX_AUTH.STATE_A : Fld := ⟨Reg.CPX_AUTH, 24, 4⟩
def Fd.CPX_AUTH.STATE_B : Fld := ⟨Reg.CPX_AUTH, 20, 4⟩
def Fd.CPX_AUTH.LAST_CAUSE : Fld := ⟨Reg.CPX_AUTH, 16, 4⟩
def Fd.CPX_AUTH.HANDOVERS : Fld := ⟨Reg.CPX_AUTH, 0, 16⟩

/-- *CPX_HEALTH*, 0x0000_3004 (CPX-A), 0x0100_3004 (CPX-B) (14_control_complexes.md). -/
def Reg.CPX_HEALTH (h : Nat) : Nat := hubBase h + 0x3004
def Fd.CPX_HEALTH.DEGRADED (h : Nat) : Fld := ⟨Reg.CPX_HEALTH h, 31, 1⟩
def Fd.CPX_HEALTH.SELFCHECK_FAIL (h : Nat) : Fld := ⟨Reg.CPX_HEALTH h, 30, 1⟩
def Fd.CPX_HEALTH.WD_NEAR (h : Nat) : Fld := ⟨Reg.CPX_HEALTH h, 16, 8⟩
def Fd.CPX_HEALTH.CE_1H (h : Nat) : Fld := ⟨Reg.CPX_HEALTH h, 0, 16⟩

/-- *CPX_JOURNAL*, 0x0000_3008 (14_control_complexes.md). -/
def Reg.CPX_JOURNAL : Nat := 0x3008
def Fd.CPX_JOURNAL.MIRROR_OK : Fld := ⟨Reg.CPX_JOURNAL, 31, 1⟩
def Fd.CPX_JOURNAL.BANK : Fld := ⟨Reg.CPX_JOURNAL, 30, 1⟩
def Fd.CPX_JOURNAL.USED_KIB : Fld := ⟨Reg.CPX_JOURNAL, 0, 11⟩

/-- *HUB_BRINGUP_GO*, 0x0000_0400 (15_bringup.md). -/
def Reg.HUB_BRINGUP_GO : Nat := 0x400
def Fd.HUB_BRINGUP_GO.FORCE_FULL : Fld := ⟨Reg.HUB_BRINGUP_GO, 8, 1⟩
def Fd.HUB_BRINGUP_GO.STAGE : Fld := ⟨Reg.HUB_BRINGUP_GO, 0, 4⟩

/-- *HUB_BRINGUP_STATUS*, 0x0000_0404 (15_bringup.md). -/
def Reg.HUB_BRINGUP_STATUS : Nat := 0x404
def Fd.HUB_BRINGUP_STATUS.STAGE : Fld := ⟨Reg.HUB_BRINGUP_STATUS, 28, 4⟩
def Fd.HUB_BRINGUP_STATUS.STATE : Fld := ⟨Reg.HUB_BRINGUP_STATUS, 24, 4⟩
def Fd.HUB_BRINGUP_STATUS.REASON : Fld := ⟨Reg.HUB_BRINGUP_STATUS, 16, 8⟩
def Fd.HUB_BRINGUP_STATUS.COLD_DONE : Fld := ⟨Reg.HUB_BRINGUP_STATUS, 15, 1⟩
def Fd.HUB_BRINGUP_STATUS.READY : Fld := ⟨Reg.HUB_BRINGUP_STATUS, 14, 1⟩
def Fd.HUB_BRINGUP_STATUS.COMPUTE : Fld := ⟨Reg.HUB_BRINGUP_STATUS, 13, 1⟩
def Fd.HUB_BRINGUP_STATUS.LOST_MAIN : Fld := ⟨Reg.HUB_BRINGUP_STATUS, 12, 1⟩
def Fd.HUB_BRINGUP_STATUS.GO_REJECT : Fld := ⟨Reg.HUB_BRINGUP_STATUS, 11, 1⟩

/-- *HUB_BRINGUP_CFG*, 0x0000_0408 (15_bringup.md). -/
def Reg.HUB_BRINGUP_CFG : Nat := 0x408
def Fd.HUB_BRINGUP_CFG.PWR_TO_MS : Fld := ⟨Reg.HUB_BRINGUP_CFG, 0, 16⟩

/-- *HUB_STAGE_TIME*, 0x0000_040C (15_bringup.md). -/
def Reg.HUB_STAGE_TIME : Nat := 0x40c
def Fd.HUB_STAGE_TIME.ELAPSED_MS : Fld := ⟨Reg.HUB_STAGE_TIME, 0, 32⟩

/-- *HUB_RESET_STATUS*, 0x0000_0410 (15_bringup.md). -/
def Reg.HUB_RESET_STATUS : Nat := 0x410
def Fd.HUB_RESET_STATUS.BUSY : Fld := ⟨Reg.HUB_RESET_STATUS, 31, 1⟩
def Fd.HUB_RESET_STATUS.KIND : Fld := ⟨Reg.HUB_RESET_STATUS, 28, 2⟩
def Fd.HUB_RESET_STATUS.UNIT : Fld := ⟨Reg.HUB_RESET_STATUS, 16, 12⟩
def Fd.HUB_RESET_STATUS.ABANDONED : Fld := ⟨Reg.HUB_RESET_STATUS, 0, 16⟩

/-- *PKG_FH_STATUS*, 0x0000_5000 (16_faults.md). -/
def Reg.PKG_FH_STATUS : Nat := 0x5000
def Fd.PKG_FH_STATUS.OVERFLOW : Fld := ⟨Reg.PKG_FH_STATUS, 31, 1⟩
def Fd.PKG_FH_STATUS.ENTRIES : Fld := ⟨Reg.PKG_FH_STATUS, 0, 17⟩

/-- *PKG_FH_INDEX*, 0x0000_5008 (16_faults.md). -/
def Reg.PKG_FH_INDEX : Nat := 0x5008
def Fd.PKG_FH_INDEX.INDEX : Fld := ⟨Reg.PKG_FH_INDEX, 0, 16⟩

/-- *PKG_FH_DATA0–PKG_FH_DATA7*, 0x0000_5010 + 4n, n = 0–7 (16_faults.md). -/
def Reg.PKG_FH_DATA (n : Nat) : Nat := 0x5010 + 4 * n
def Fd.PKG_FH_DATA.DATA (n : Nat) : Fld := ⟨Reg.PKG_FH_DATA n, 0, 32⟩

/-- *PKG_FH_UNIT_SEL*, 0x0000_5030 (16_faults.md). -/
def Reg.PKG_FH_UNIT_SEL : Nat := 0x5030
def Fd.PKG_FH_UNIT_SEL.PUNIT : Fld := ⟨Reg.PKG_FH_UNIT_SEL, 0, 32⟩

/-- *PKG_FH_UNIT*, 0x0000_5034 (16_faults.md). -/
def Reg.PKG_FH_UNIT : Nat := 0x5034
def Fd.PKG_FH_UNIT.STATE : Fld := ⟨Reg.PKG_FH_UNIT, 30, 2⟩
def Fd.PKG_FH_UNIT.EVENTS_30D : Fld := ⟨Reg.PKG_FH_UNIT, 16, 8⟩
def Fd.PKG_FH_UNIT.EVENTS_TOTAL : Fld := ⟨Reg.PKG_FH_UNIT, 0, 16⟩

/-- *PKG_FH_CTRL*, 0x0000_5038 (16_faults.md). -/
def Reg.PKG_FH_CTRL : Nat := 0x5038
def Fd.PKG_FH_CTRL.CLEAR_UNIT : Fld := ⟨Reg.PKG_FH_CTRL, 0, 1⟩

/-- *PKG_SQUALL_STATUS*, 0x0000_5040 (16_faults.md). -/
def Reg.PKG_SQUALL_STATUS : Nat := 0x5040
def Fd.PKG_SQUALL_STATUS.RECEIVED : Fld := ⟨Reg.PKG_SQUALL_STATUS, 16, 16⟩
def Fd.PKG_SQUALL_STATUS.STALE : Fld := ⟨Reg.PKG_SQUALL_STATUS, 8, 8⟩
def Fd.PKG_SQUALL_STATUS.SENT : Fld := ⟨Reg.PKG_SQUALL_STATUS, 0, 8⟩

/-- *TRC_CAPTURE_CTRL*, cluster + 0x0300 (16_faults.md). -/
def Reg.TRC_CAPTURE_CTRL (c : Nat) : Nat := clusBase c + 0x300
def Fd.TRC_CAPTURE_CTRL.VALID (c : Nat) : Fld := ⟨Reg.TRC_CAPTURE_CTRL c, 31, 1⟩
def Fd.TRC_CAPTURE_CTRL.OVERWRITTEN (c : Nat) : Fld := ⟨Reg.TRC_CAPTURE_CTRL c, 0, 16⟩

/-- *TRC_CAPTURE*, cluster + 0x4000 + 4w, w = 0–1,023 (16_faults.md). -/
def Reg.TRC_CAPTURE (c w : Nat) : Nat := clusBase c + 0x4000 + 4 * w
def Fd.TRC_CAPTURE.DATA (c w : Nat) : Fld := ⟨Reg.TRC_CAPTURE c w, 0, 32⟩

/-- *PWR_CAP*, 0x0000_6000 (17_power_thermal.md). -/
def Reg.PWR_CAP : Nat := 0x6000
def Fd.PWR_CAP.HOST_CAP_W : Fld := ⟨Reg.PWR_CAP, 16, 16⟩
def Fd.PWR_CAP.EFF_CAP_W : Fld := ⟨Reg.PWR_CAP, 0, 16⟩

/-- *PWR_BOARD*, 0x0000_6004 (17_power_thermal.md). -/
def Reg.PWR_BOARD : Nat := 0x6004
def Fd.PWR_BOARD.BOARD_CAP_W : Fld := ⟨Reg.PWR_BOARD, 16, 16⟩
def Fd.PWR_BOARD.INTERNAL_W : Fld := ⟨Reg.PWR_BOARD, 0, 16⟩

/-- *PWR_PRIO*, 0x0000_6008 (17_power_thermal.md). -/
def Reg.PWR_PRIO : Nat := 0x6008
def Fd.PWR_PRIO.COMPUTE_FLOOR : Fld := ⟨Reg.PWR_PRIO, 16, 11⟩
def Fd.PWR_PRIO.THIRD : Fld := ⟨Reg.PWR_PRIO, 4, 2⟩
def Fd.PWR_PRIO.SECOND : Fld := ⟨Reg.PWR_PRIO, 2, 2⟩
def Fd.PWR_PRIO.FIRST : Fld := ⟨Reg.PWR_PRIO, 0, 2⟩

/-- *PWR_STATUS*, 0x0000_600C (17_power_thermal.md). -/
def Reg.PWR_STATUS : Nat := 0x600c
def Fd.PWR_STATUS.CAP_UNMET : Fld := ⟨Reg.PWR_STATUS, 31, 1⟩
def Fd.PWR_STATUS.OFF_HOST : Fld := ⟨Reg.PWR_STATUS, 30, 1⟩
def Fd.PWR_STATUS.OFF_BOARD : Fld := ⟨Reg.PWR_STATUS, 29, 1⟩
def Fd.PWR_STATUS.FAST_LIMIT : Fld := ⟨Reg.PWR_STATUS, 28, 1⟩
def Fd.PWR_STATUS.PRIO_REJECT : Fld := ⟨Reg.PWR_STATUS, 27, 1⟩
def Fd.PWR_STATUS.COMPUTE_CUT : Fld := ⟨Reg.PWR_STATUS, 26, 1⟩
def Fd.PWR_STATUS.MEMORY_CUT : Fld := ⟨Reg.PWR_STATUS, 25, 1⟩
def Fd.PWR_STATUS.LINKS_CUT : Fld := ⟨Reg.PWR_STATUS, 24, 1⟩
def Fd.PWR_STATUS.POWER_W : Fld := ⟨Reg.PWR_STATUS, 0, 16⟩

/-- *PWR_ENERGY_LO*, 0x0000_6010 (17_power_thermal.md). -/
def Reg.PWR_ENERGY_LO : Nat := 0x6010
def Fd.PWR_ENERGY_LO.UJ_LO : Fld := ⟨Reg.PWR_ENERGY_LO, 0, 32⟩

/-- *PWR_ENERGY_HI*, 0x0000_6014 (17_power_thermal.md). -/
def Reg.PWR_ENERGY_HI : Nat := 0x6014
def Fd.PWR_ENERGY_HI.UJ_HI : Fld := ⟨Reg.PWR_ENERGY_HI, 0, 32⟩

/-- *PWR_DROOP*, 0x0000_6018 (17_power_thermal.md). -/
def Reg.PWR_DROOP : Nat := 0x6018
def Fd.PWR_DROOP.STRETCH_CNT : Fld := ⟨Reg.PWR_DROOP, 0, 32⟩

/-- *PWR_IDLE*, 0x0000_601C (17_power_thermal.md). -/
def Reg.PWR_IDLE : Nat := 0x601c
def Fd.PWR_IDLE.IDLE_W : Fld := ⟨Reg.PWR_IDLE, 0, 16⟩

/-- *PWR_AGREE0–PWR_AGREE7*, 0x0000_6100 + 4n, n = 0–7 (17_power_thermal.md). -/
def Reg.PWR_AGREE (n : Nat) : Nat := 0x6100 + 4 * n
def Fd.PWR_AGREE.VALID (n : Nat) : Fld := ⟨Reg.PWR_AGREE n, 31, 1⟩
def Fd.PWR_AGREE.AGREE_LOST (n : Nat) : Fld := ⟨Reg.PWR_AGREE n, 30, 1⟩
def Fd.PWR_AGREE.PACE_MSTEPS (n : Nat) : Fld := ⟨Reg.PWR_AGREE n, 16, 11⟩
def Fd.PWR_AGREE.GROUP (n : Nat) : Fld := ⟨Reg.PWR_AGREE n, 0, 10⟩

/-- *PWR_DIE_STATUS*, die + 0x0080_0300 (17_power_thermal.md). -/
def Reg.PWR_DIE_STATUS (d : Nat) : Nat := dieBase d + 0x800300
def Fd.PWR_DIE_STATUS.LIMIT (d : Nat) : Fld := ⟨Reg.PWR_DIE_STATUS d, 28, 4⟩
def Fd.PWR_DIE_STATUS.MODE (d : Nat) : Fld := ⟨Reg.PWR_DIE_STATUS d, 26, 2⟩
def Fd.PWR_DIE_STATUS.VDD_MV (d : Nat) : Fld := ⟨Reg.PWR_DIE_STATUS d, 16, 10⟩
def Fd.PWR_DIE_STATUS.PACE_MSTEPS (d : Nat) : Fld := ⟨Reg.PWR_DIE_STATUS d, 0, 11⟩

/-- *PWR_DIE_PACE*, die + 0x0080_0304 (17_power_thermal.md). -/
def Reg.PWR_DIE_PACE (d : Nat) : Nat := dieBase d + 0x800304
def Fd.PWR_DIE_PACE.PROG_MSTEPS (d : Nat) : Fld := ⟨Reg.PWR_DIE_PACE d, 0, 11⟩

/-- *THM_SENSOR_STATE*, die + 0x0080_0310 (17_power_thermal.md). -/
def Reg.THM_SENSOR_STATE (d : Nat) : Nat := dieBase d + 0x800310
def Fd.THM_SENSOR_STATE.PAIR_SUSPECT (d : Nat) : Fld := ⟨Reg.THM_SENSOR_STATE d, 8, 8⟩
def Fd.THM_SENSOR_STATE.SAFE (d : Nat) : Fld := ⟨Reg.THM_SENSOR_STATE d, 0, 8⟩

/-- *THM_SENSOR_FAIL*, die + 0x0080_0314 (17_power_thermal.md). -/
def Reg.THM_SENSOR_FAIL (d : Nat) : Nat := dieBase d + 0x800314
def Fd.THM_SENSOR_FAIL.DIE_FAILED (d : Nat) : Fld := ⟨Reg.THM_SENSOR_FAIL d, 16, 8⟩
def Fd.THM_SENSOR_FAIL.DIODE_FAILED (d : Nat) : Fld := ⟨Reg.THM_SENSOR_FAIL d, 0, 16⟩

/-- *PWR_CL_PACE*, cluster + 0x0400 (17_power_thermal.md). -/
def Reg.PWR_CL_PACE (c : Nat) : Nat := clusBase c + 0x400
def Fd.PWR_CL_PACE.NAT_LIMITED (c : Nat) : Fld := ⟨Reg.PWR_CL_PACE c, 31, 1⟩
def Fd.PWR_CL_PACE.ISSUED_MSTEPS (c : Nat) : Fld := ⟨Reg.PWR_CL_PACE c, 16, 11⟩
def Fd.PWR_CL_PACE.NATURAL_MSTEPS (c : Nat) : Fld := ⟨Reg.PWR_CL_PACE c, 0, 11⟩

/-- *THM_STATUS*, 0x0000_6200 (17_power_thermal.md). -/
def Reg.THM_STATUS : Nat := 0x6200
def Fd.THM_STATUS.TRIP : Fld := ⟨Reg.THM_STATUS, 31, 1⟩
def Fd.THM_STATUS.GATE : Fld := ⟨Reg.THM_STATUS, 30, 1⟩
def Fd.THM_STATUS.PROT_DEGRADED : Fld := ⟨Reg.THM_STATUS, 29, 1⟩
def Fd.THM_STATUS.COOL_WARN : Fld := ⟨Reg.THM_STATUS, 28, 1⟩
def Fd.THM_STATUS.COOL_CRIT : Fld := ⟨Reg.THM_STATUS, 27, 1⟩
def Fd.THM_STATUS.FOEHN_ACTIVE : Fld := ⟨Reg.THM_STATUS, 26, 1⟩
def Fd.THM_STATUS.FLOW_VALID : Fld := ⟨Reg.THM_STATUS, 25, 1⟩
def Fd.THM_STATUS.LOOP : Fld := ⟨Reg.THM_STATUS, 24, 1⟩
def Fd.THM_STATUS.HOT_DIE : Fld := ⟨Reg.THM_STATUS, 16, 3⟩
def Fd.THM_STATUS.HOT_C : Fld := ⟨Reg.THM_STATUS, 0, 16⟩

/-- *THM_COOLANT*, 0x0000_6204 (17_power_thermal.md). -/
def Reg.THM_COOLANT : Nat := 0x6204
def Fd.THM_COOLANT.INLET_C : Fld := ⟨Reg.THM_COOLANT, 16, 16⟩
def Fd.THM_COOLANT.OUTLET_C : Fld := ⟨Reg.THM_COOLANT, 0, 16⟩

/-- *THM_FLOW*, 0x0000_6208 (17_power_thermal.md). -/
def Reg.THM_FLOW : Nat := 0x6208
def Fd.THM_FLOW.FLOW : Fld := ⟨Reg.THM_FLOW, 16, 16⟩
def Fd.THM_FLOW.NOM_FLOW : Fld := ⟨Reg.THM_FLOW, 0, 16⟩

/-- *THM_CTRL*, 0x0000_620C (17_power_thermal.md). -/
def Reg.THM_CTRL : Nat := 0x620c
def Fd.THM_CTRL.SAFE_PACE : Fld := ⟨Reg.THM_CTRL, 16, 11⟩
def Fd.THM_CTRL.DEGR_PACE : Fld := ⟨Reg.THM_CTRL, 0, 11⟩

/-- *THM_FOEHN*, 0x0000_6210 (17_power_thermal.md). -/
def Reg.THM_FOEHN : Nat := 0x6210
def Fd.THM_FOEHN.EN : Fld := ⟨Reg.THM_FOEHN, 31, 1⟩
def Fd.THM_FOEHN.FLOOR_C : Fld := ⟨Reg.THM_FOEHN, 0, 8⟩

/-- *THM_CYCLE_SEL*, 0x0000_6214 (17_power_thermal.md). -/
def Reg.THM_CYCLE_SEL : Nat := 0x6214
def Fd.THM_CYCLE_SEL.DIE : Fld := ⟨Reg.THM_CYCLE_SEL, 2, 3⟩
def Fd.THM_CYCLE_SEL.BIN : Fld := ⟨Reg.THM_CYCLE_SEL, 0, 2⟩

/-- *THM_CYCLES*, 0x0000_6218 (17_power_thermal.md). -/
def Reg.THM_CYCLES : Nat := 0x6218
def Fd.THM_CYCLES.HALF_CYCLES : Fld := ⟨Reg.THM_CYCLES, 0, 32⟩

/-- *CTR_CFG*, bank + 0x10n (18_counters.md). -/
def Reg.CTR_CFG (bank n : Nat) : Nat := bank + 0x10 * n + 0
def Fd.CTR_CFG.EN (bank n : Nat) : Fld := ⟨Reg.CTR_CFG bank n, 31, 1⟩
def Fd.CTR_CFG.CHAIN (bank n : Nat) : Fld := ⟨Reg.CTR_CFG bank n, 30, 1⟩
def Fd.CTR_CFG.TC_MASK (bank n : Nat) : Fld := ⟨Reg.CTR_CFG bank n, 20, 4⟩
def Fd.CTR_CFG.RANGE (bank n : Nat) : Fld := ⟨Reg.CTR_CFG bank n, 18, 2⟩
def Fd.CTR_CFG.MASTER (bank n : Nat) : Fld := ⟨Reg.CTR_CFG bank n, 12, 4⟩
def Fd.CTR_CFG.PRIV (bank n : Nat) : Fld := ⟨Reg.CTR_CFG bank n, 8, 3⟩
def Fd.CTR_CFG.EVENT (bank n : Nat) : Fld := ⟨Reg.CTR_CFG bank n, 0, 8⟩

/-- *CTR_VAL_LO*, bank + 0x10n + 0x4 (18_counters.md). -/
def Reg.CTR_VAL_LO (bank n : Nat) : Nat := bank + 0x10 * n + 4
def Fd.CTR_VAL_LO.VAL_LO (bank n : Nat) : Fld := ⟨Reg.CTR_VAL_LO bank n, 0, 32⟩

/-- *CTR_VAL_HI*, bank + 0x10n + 0x8 (18_counters.md). -/
def Reg.CTR_VAL_HI (bank n : Nat) : Nat := bank + 0x10 * n + 8
def Fd.CTR_VAL_HI.VAL_HI (bank n : Nat) : Fld := ⟨Reg.CTR_VAL_HI bank n, 0, 16⟩

/-- *CTR_AUX*, bank + 0x10n + 0xC (18_counters.md). -/
def Reg.CTR_AUX (bank n : Nat) : Nat := bank + 0x10 * n + 12
def Fd.CTR_AUX.N (bank n : Nat) : Fld := ⟨Reg.CTR_AUX bank n, 0, 32⟩

/-- *CTR_CCL_CTRL*, 0x0000_7000 (18_counters.md). -/
def Reg.CTR_CCL_CTRL : Nat := 0x7000
def Fd.CTR_CCL_CTRL.EN : Fld := ⟨Reg.CTR_CCL_CTRL, 31, 1⟩
def Fd.CTR_CCL_CTRL.WINDOW_US : Fld := ⟨Reg.CTR_CCL_CTRL, 0, 24⟩

/-- *CTR_CCL_STATUS*, 0x0000_7004 (18_counters.md). -/
def Reg.CTR_CCL_STATUS : Nat := 0x7004
def Fd.CTR_CCL_STATUS.CFG_REJECT : Fld := ⟨Reg.CTR_CCL_STATUS, 31, 1⟩
def Fd.CTR_CCL_STATUS.MISSED : Fld := ⟨Reg.CTR_CCL_STATUS, 0, 16⟩

/-- *CTR_LOG_STATUS*, 0x0000_7010 (18_counters.md). -/
def Reg.CTR_LOG_STATUS : Nat := 0x7010
def Fd.CTR_LOG_STATUS.OVERWRITTEN : Fld := ⟨Reg.CTR_LOG_STATUS, 0, 32⟩

/-- *CTR_LOG_CTRL*, 0x0000_7014 (18_counters.md). -/
def Reg.CTR_LOG_CTRL : Nat := 0x7014
def Fd.CTR_LOG_CTRL.THRESH : Fld := ⟨Reg.CTR_LOG_CTRL, 0, 3⟩

/-- *TRC_SAMPLE_STATUS*, cluster + 0x0304 (18_counters.md). -/
def Reg.TRC_SAMPLE_STATUS (c : Nat) : Nat := clusBase c + 0x304
def Fd.TRC_SAMPLE_STATUS.ARMED (c : Nat) : Fld := ⟨Reg.TRC_SAMPLE_STATUS c, 31, 1⟩
def Fd.TRC_SAMPLE_STATUS.WRAP (c : Nat) : Fld := ⟨Reg.TRC_SAMPLE_STATUS c, 30, 1⟩
def Fd.TRC_SAMPLE_STATUS.SAMPLE_FULL (c : Nat) : Fld := ⟨Reg.TRC_SAMPLE_STATUS c, 29, 1⟩
def Fd.TRC_SAMPLE_STATUS.SAMPLE_LOST (c : Nat) : Fld := ⟨Reg.TRC_SAMPLE_STATUS c, 28, 1⟩
def Fd.TRC_SAMPLE_STATUS.LOG2N (c : Nat) : Fld := ⟨Reg.TRC_SAMPLE_STATUS c, 13, 5⟩
def Fd.TRC_SAMPLE_STATUS.NEXT (c : Nat) : Fld := ⟨Reg.TRC_SAMPLE_STATUS c, 0, 13⟩

/-- *SEP_LC_STATUS*, 0x0000_4100 (19_security.md). -/
def Reg.SEP_LC_STATUS : Nat := 0x4100
def Fd.SEP_LC_STATUS.STATE : Fld := ⟨Reg.SEP_LC_STATUS, 28, 4⟩
def Fd.SEP_LC_STATUS.LC_COUNT : Fld := ⟨Reg.SEP_LC_STATUS, 24, 4⟩
def Fd.SEP_LC_STATUS.OWNER_SLOT : Fld := ⟨Reg.SEP_LC_STATUS, 20, 4⟩
def Fd.SEP_LC_STATUS.REVOKED : Fld := ⟨Reg.SEP_LC_STATUS, 16, 4⟩
def Fd.SEP_LC_STATUS.IMG_SIG_REQ : Fld := ⟨Reg.SEP_LC_STATUS, 15, 1⟩
def Fd.SEP_LC_STATUS.SERVICE_EN : Fld := ⟨Reg.SEP_LC_STATUS, 14, 1⟩
def Fd.SEP_LC_STATUS.KEY_FAULT : Fld := ⟨Reg.SEP_LC_STATUS, 13, 1⟩
def Fd.SEP_LC_STATUS.TAMPER_CNT : Fld := ⟨Reg.SEP_LC_STATUS, 0, 8⟩

/-- *SEP_KEY_CTRL*, 0x0000_4104 (19_security.md). -/
def Reg.SEP_KEY_CTRL : Nat := 0x4104
def Fd.SEP_KEY_CTRL.COMMIT : Fld := ⟨Reg.SEP_KEY_CTRL, 31, 1⟩
def Fd.SEP_KEY_CTRL.REMOVE : Fld := ⟨Reg.SEP_KEY_CTRL, 30, 1⟩
def Fd.SEP_KEY_CTRL.IMG_SIG_REQ : Fld := ⟨Reg.SEP_KEY_CTRL, 29, 1⟩
def Fd.SEP_KEY_CTRL.SERVICE_EN : Fld := ⟨Reg.SEP_KEY_CTRL, 28, 1⟩
def Fd.SEP_KEY_CTRL.SLOT : Fld := ⟨Reg.SEP_KEY_CTRL, 16, 4⟩
def Fd.SEP_KEY_CTRL.VALID : Fld := ⟨Reg.SEP_KEY_CTRL, 0, 16⟩

/-- *SEP_KEY_DATA0–SEP_KEY_DATA15*, 0x0000_4110 + 4n, n = 0–15 (19_security.md). -/
def Reg.SEP_KEY_DATA (n : Nat) : Nat := 0x4110 + 4 * n
def Fd.SEP_KEY_DATA.DATA (n : Nat) : Fld := ⟨Reg.SEP_KEY_DATA n, 0, 32⟩

/-- *HUB_FW_STATUS*, 0x0000_0500 (20_firmware_update.md). -/
def Reg.HUB_FW_STATUS : Nat := 0x500
def Fd.HUB_FW_STATUS.SLOT_A : Fld := ⟨Reg.HUB_FW_STATUS, 29, 3⟩
def Fd.HUB_FW_STATUS.SLOT_B : Fld := ⟨Reg.HUB_FW_STATUS, 26, 3⟩
def Fd.HUB_FW_STATUS.RUNNING : Fld := ⟨Reg.HUB_FW_STATUS, 25, 1⟩
def Fd.HUB_FW_STATUS.TRIAL : Fld := ⟨Reg.HUB_FW_STATUS, 24, 1⟩
def Fd.HUB_FW_STATUS.STAGING : Fld := ⟨Reg.HUB_FW_STATUS, 21, 3⟩
def Fd.HUB_FW_STATUS.REASON : Fld := ⟨Reg.HUB_FW_STATUS, 16, 5⟩
def Fd.HUB_FW_STATUS.UCODE_STALE : Fld := ⟨Reg.HUB_FW_STATUS, 0, 10⟩

/-- *HUB_RELAY_CFG*, 0x0000_0504 (20_firmware_update.md). -/
def Reg.HUB_RELAY_CFG : Nat := 0x504
def Fd.HUB_RELAY_CFG.PREV_FID : Fld := ⟨Reg.HUB_RELAY_CFG, 16, 16⟩
def Fd.HUB_RELAY_CFG.NEXT_FID : Fld := ⟨Reg.HUB_RELAY_CFG, 0, 16⟩

/-- *HUB_RELAY_STATUS*, 0x0000_0508 (20_firmware_update.md). -/
def Reg.HUB_RELAY_STATUS : Nat := 0x508
def Fd.HUB_RELAY_STATUS.FORWARDING : Fld := ⟨Reg.HUB_RELAY_STATUS, 31, 1⟩
def Fd.HUB_RELAY_STATUS.FAILED : Fld := ⟨Reg.HUB_RELAY_STATUS, 30, 1⟩
def Fd.HUB_RELAY_STATUS.ACKED : Fld := ⟨Reg.HUB_RELAY_STATUS, 0, 27⟩

/-- *PKG_BOARD_STATUS*, 0x0000_0900 (21_board_interface.md). -/
def Reg.PKG_BOARD_STATUS : Nat := 0x900
def Fd.PKG_BOARD_STATUS.AUX_PWROK : Fld := ⟨Reg.PKG_BOARD_STATUS, 31, 1⟩
def Fd.PKG_BOARD_STATUS.MAIN_EN : Fld := ⟨Reg.PKG_BOARD_STATUS, 30, 1⟩
def Fd.PKG_BOARD_STATUS.MAIN_PWROK : Fld := ⟨Reg.PKG_BOARD_STATUS, 29, 1⟩
def Fd.PKG_BOARD_STATUS.HBM_EN : Fld := ⟨Reg.PKG_BOARD_STATUS, 28, 1⟩
def Fd.PKG_BOARD_STATUS.HBM_PWROK : Fld := ⟨Reg.PKG_BOARD_STATUS, 27, 1⟩
def Fd.PKG_BOARD_STATUS.THERMTRIP : Fld := ⟨Reg.PKG_BOARD_STATUS, 26, 1⟩
def Fd.PKG_BOARD_STATUS.ALERT : Fld := ⟨Reg.PKG_BOARD_STATUS, 25, 1⟩
def Fd.PKG_BOARD_STATUS.PWROK_GLITCH : Fld := ⟨Reg.PKG_BOARD_STATUS, 24, 1⟩
def Fd.PKG_BOARD_STATUS.CLK_LOST : Fld := ⟨Reg.PKG_BOARD_STATUS, 18, 6⟩
def Fd.PKG_BOARD_STATUS.SLOT_ID : Fld := ⟨Reg.PKG_BOARD_STATUS, 0, 6⟩

/-- *PKG_LEAK*, 0x0000_0904 (21_board_interface.md). -/
def Reg.PKG_LEAK : Nat := 0x904
def Fd.PKG_LEAK.STATE : Fld := ⟨Reg.PKG_LEAK, 29, 3⟩
def Fd.PKG_LEAK.OHMS : Fld := ⟨Reg.PKG_LEAK, 0, 20⟩

/-- *PKG_LED_CTRL*, 0x0000_0908 (21_board_interface.md). -/
def Reg.PKG_LED_CTRL : Nat := 0x908
def Fd.PKG_LED_CTRL.LOCATE : Fld := ⟨Reg.PKG_LED_CTRL, 0, 1⟩

/-- *PKG_TRIG_CTRL*, 0x0000_090C (21_board_interface.md). -/
def Reg.PKG_TRIG_CTRL : Nat := 0x90c
def Fd.PKG_TRIG_CTRL.CFG_ERR : Fld := ⟨Reg.PKG_TRIG_CTRL, 31, 1⟩
def Fd.PKG_TRIG_CTRL.CAPTURED : Fld := ⟨Reg.PKG_TRIG_CTRL, 2, 1⟩
def Fd.PKG_TRIG_CTRL.CAPTURE : Fld := ⟨Reg.PKG_TRIG_CTRL, 1, 1⟩
def Fd.PKG_TRIG_CTRL.PACE_EPOCH : Fld := ⟨Reg.PKG_TRIG_CTRL, 0, 1⟩

/-- *PKG_TRIG_TB_LO*, 0x0000_0910 (21_board_interface.md). -/
def Reg.PKG_TRIG_TB_LO : Nat := 0x910
def Fd.PKG_TRIG_TB_LO.TB_LO : Fld := ⟨Reg.PKG_TRIG_TB_LO, 0, 32⟩

/-- *PKG_TRIG_TB_HI*, 0x0000_0914 (21_board_interface.md). -/
def Reg.PKG_TRIG_TB_HI : Nat := 0x914
def Fd.PKG_TRIG_TB_HI.TB_HI : Fld := ⟨Reg.PKG_TRIG_TB_HI, 0, 32⟩

/-- The bases of a bank's counters (*Counter banks*, R420): core `k`. -/
def bankCore (k : Nat) : Nat := coreBase k + 0x2000
/-- Cluster `c`'s bank (R420). -/
def bankClus (c : Nat) : Nat := clusBase c + 0x2000
/-- The DMP's bank of die `d` (b = 0) and its bridge banks (R420, R490). -/
def bankDie (d b : Nat) : Nat := dieBase d + 0x00801000 + 0x1000 * b
/-- The HBM controller's bank (R420). -/
def bankHbm (s : Nat) : Nat := hbmBase s + 0x1000
/-- The router port's bank (R420). -/
def bankPort (n : Nat) : Nat := rtrBase (n / 12) + 0x3000 + 0x100 * (n % 12)
/-- The CVE's bank (R420). -/
def bankCve (h : Nat) : Nat := cveBase h + 0x0400
/-- Register k of the two ranges of a core or cluster bank (R437). -/
def Reg.CTR_RANGE (bank k : Nat) : Nat := bank + 0x800 + 4 * k

end Sys2Proof.Machine
end

