-- ==== Sys2Proof/Machine/TypesBoard.lean ====
section
/-!
DEFINITION. The plain data of the control complexes (14_control_complexes.md), of bring-up (15_bringup.md) and of the board
interface (21_board_interface.md). Nothing here computes.
-/
namespace Sys2Proof.Machine

/-! ## Control complexes (R339–R352) -/

/-- A planned handover in progress (*Planned handover sequence*): its cause, when the standby was woken, when it entered SHADOW, and
whether the CUT has been made. -/
structure Hand where
  cause : Nat
  startTb : Nat
  shadowTb : Option Nat := none
  cut : Bool := false
  deriving DecidableEq, Repr

/-- The complexes and the AUTH interlock: when VAUX was applied and AUTH was last renewed; the handover in progress; the cause
that the next grant has; for each hub the times of watchdog near-misses and of corrected words (newest first) and when it last
lost authority; the times of returns to the preferred complex; when a package reset suspended the renewals; and the packets that wait
for the claim of a planned handover, with the time each arrived (R347). -/
structure CpxSt where
  auxTb : Nat := 0
  renewTb : Nat := 0
  hand : Option Hand := none
  cause : Nat := 0
  wdTb : Tab (List Nat) := []
  ceTb : Tab (List Nat) := []
  lostTb : Tab Nat := []
  reverts : List Nat := []
  suspended : Option Nat := none
  rx : List (Instr × Nat) := []
  deriving DecidableEq, Repr

/-! ## Bring-up (R354–R371) -/

/-- Bring-up: when the running stage started (after a restart, R360), whether it trains fully (FORCE_FULL), when its PWROK arrived;
the units of each class (0 HBM, 1 bridges, 3 Ethernet) that trained in their last
training and those with saved settings, as class × 64 + unit (R369). -/
structure BringSt where
  startTb : Nat := 0
  full : Bool := false
  okTb : Option Nat := none
  fast : Bool := false
  trained : List Nat := []
  saved : List Nat := []
  deriving DecidableEq, Repr

/-! ## Board interface (R469–R485) -/

/-- A PlatformEventMessage that has not been acknowledged (R481): the state sensor, its new and previous state, and when it was
last sent. -/
structure PlatEvt where
  id : Nat
  sensor : Nat
  now : Nat
  prev : Nat
  sentTb : Nat
  deriving DecidableEq, Repr

/-- What LED_STATUS shows (*LED_STATUS*). -/
inductive Led where
  | off | amberFast | amber | amberSlow | alternating | greenSlow | green
  deriving DecidableEq, Repr

/-- The board interface: the I3C dynamic address, the events the controller has enabled (bits as the I3C event byte), the
maximum write and read lengths; the MCTP endpoint ID, the PLDM terminus ID, the event receiver's endpoint, unacknowledged events
with the next event ID; the last state of sensors 10–12 and the one before it; when the leak loop was last measured, the leak band last measured and the readings in a row of it; the
reference clocks that are missing now; since when PKG_RESET_N is low; and the islands whose clock a droop stretches (R26). -/
structure BoardSt where
  addr : Option Nat := none
  events : Nat := 1
  mwl : Nat := 64
  mrl : Nat := 64
  eid : Nat := 0
  tid : Nat := 0
  recv : Option Nat := none
  evts : List PlatEvt := []
  evtId : Nat := 0
  sensors : Tab Nat := []
  prevs : Tab Nat := []
  leakTb : Nat := 0
  leakBand : Nat := 0
  leakRun : Nat := 0
  clkOut : List Nat := []
  resetPin : Option Nat := none
  droop : List Nat := []
  deriving DecidableEq, Repr

end Sys2Proof.Machine
end

