-- ==== Sys2Proof/Machine/Num.lean ====
section
/-!
DEFINITION. Number formats and exact accumulation (02_number_formats.md): the encodings of R35–R42, exact products
(R44), the exact-in-window accumulator of R45–R49 and the one rounding of R54–R58. Values are exact: a sign, a natural
magnitude and a power of two.
-/
namespace Sys2Proof.Machine

/-- The formats of *Format codes* (R36), in code order; 0xE and 0xF are reserved and name none. -/
inductive Fmt where
  | fp32 | bf16 | e4m3 | e5m2 | e3m2 | e2m3 | e2m1 | int8 | int32 | mxe4m3 | mxe5m2 | mxe3m2 | mxe2m3 | mxe2m1
  deriving DecidableEq, Repr

/-- *Format codes* (R36). -/
def Fmt.ofCode : Nat → Option Fmt
  | 0 => some .fp32 | 1 => some .bf16 | 2 => some .e4m3 | 3 => some .e5m2 | 4 => some .e3m2 | 5 => some .e2m3
  | 6 => some .e2m1 | 7 => some .int8 | 8 => some .int32 | 9 => some .mxe4m3 | 10 => some .mxe5m2
  | 11 => some .mxe3m2 | 12 => some .mxe2m3 | 13 => some .mxe2m1 | _ => none

/-- The format of a code that image checks have admitted (R36). -/
def Fmt.get (c : Nat) : Fmt := (Fmt.ofCode c).getD .fp32

/-- Whether elements share a block scale (R35, R40). -/
def Fmt.isMx : Fmt → Bool
  | .mxe4m3 | .mxe5m2 | .mxe3m2 | .mxe2m3 | .mxe2m1 => true
  | _ => false

/-- The element format of an MX format, and the format itself otherwise (R35). -/
def Fmt.elem : Fmt → Fmt
  | .mxe4m3 => .e4m3 | .mxe5m2 => .e5m2 | .mxe3m2 => .e3m2 | .mxe2m3 => .e2m3 | .mxe2m1 => .e2m1
  | f => f

/-- Bits per element (*Formats and roles*, R35). -/
def Fmt.bits (f : Fmt) : Nat :=
  match f.elem with
  | .fp32 | .int32 => 32
  | .bf16 => 16
  | .e4m3 | .e5m2 | .int8 => 8
  | .e3m2 | .e2m3 => 6
  | _ => 4

/-- How a floating format uses its largest exponent (R38, R39). -/
inductive FKind where
  | ieee      -- infinities and NaNs at the largest exponent
  | e4m3      -- only the all-ones code is NaN
  | finite    -- no infinity and no NaN
  deriving DecidableEq, Repr

/-- Exponent bits, mantissa bits, bias and special codes of a floating format (*Narrow format parameters*, R38, R41). -/
structure FPar where
  eb : Nat
  mb : Nat
  bias : Nat
  kind : FKind
  deriving DecidableEq, Repr

/-- The parameters of a floating element format (R38, R41); the integer formats use none of them. -/
def Fmt.par (f : Fmt) : FPar :=
  match f.elem with
  | .bf16 => ⟨8, 7, 127, .ieee⟩
  | .e4m3 => ⟨4, 3, 7, .e4m3⟩
  | .e5m2 => ⟨5, 2, 15, .ieee⟩
  | .e3m2 => ⟨3, 2, 3, .finite⟩
  | .e2m3 => ⟨2, 3, 1, .finite⟩
  | .e2m1 => ⟨2, 1, 1, .finite⟩
  | _ => ⟨8, 23, 127, .ieee⟩

/-- An exact value: NaN (signalling or quiet), a signed infinity, or (−1)^neg × mag × 2^exp. -/
inductive Val where
  | nan (signalling : Bool)
  | inf (neg : Bool)
  | fin (neg : Bool) (mag : Nat) (exp : Int)
  deriving DecidableEq, Repr

def Val.isNan : Val → Bool
  | .nan _ => true
  | _ => false

def Val.isInf : Val → Bool
  | .inf _ => true
  | _ => false

def Val.isZero : Val → Bool
  | .fin _ 0 _ => true
  | _ => false

def Val.isNeg : Val → Bool
  | .inf n => n
  | .fin n _ _ => n
  | .nan _ => false

/-- The value with its sign inverted. -/
def Val.negate : Val → Val
  | .nan s => .nan s
  | .inf n => .inf (!n)
  | .fin n m e => .fin (!n) m e

/-- The exponent of the most significant set bit of mag × 2^exp (R44); 0 for a zero. -/
def topExp (mag : Nat) (exp : Int) : Int := exp + (Nat.log2 mag : Nat)

/-- The value of a floating-point code (R38, R39, R41). -/
def FPar.decode (p : FPar) (c : Nat) : Val :=
  let neg := bitAt c (p.eb + p.mb)
  let e := bitsAt c p.mb p.eb
  let m := bitsAt c 0 p.mb
  let special := e + 1 == 2 ^ p.eb
  if special && p.kind == .ieee then
    if m = 0 then .inf neg else .nan (!bitAt m (p.mb - 1))
  else if special && p.kind == .e4m3 && m + 1 == 2 ^ p.mb then .nan false
  else if e = 0 then .fin neg m (1 - p.bias - p.mb)
  else .fin neg (2 ^ p.mb + m) ((e : Int) - p.bias - p.mb)

/-- Two's complement integers as exact values (R42). -/
def intVal (i : Int) : Val := .fin (decide (i < 0)) i.natAbs 0

/-- The value of an element code, before any block scale (R36–R42). Both zero codes of a narrow format behave as +0
(R39). -/
def Fmt.decode (f : Fmt) (c : Nat) : Val :=
  match f.elem with
  | .int8 => intVal (signedOf 8 c)
  | .int32 => intVal (signedOf 32 c)
  | .fp32 => FPar.decode (Fmt.par .fp32) c
  | .bf16 => FPar.decode (Fmt.par .bf16) c
  | g =>
    match FPar.decode g.par c with
    | .fin _ 0 e => .fin false 0 e
    | v => v

/-- An MX element: its element value times the block's scale; scale 0xFF makes it NaN (R40). -/
def scaleVal (scale : Nat) (v : Val) : Val :=
  if scale = 255 then .nan false
  else
    match v with
    | .fin n m e => .fin n m (e + ((scale : Int) - 127))
    | w => w

/-! ## Rounding (R54, R55, R57) -/

/-- RND of R54, with the 16-bit random value R of R57 for stochastic rounding. -/
inductive Rnd where
  | rne
  | sr (r : Nat)
  deriving DecidableEq, Repr

/-- mag / 2^k rounded to an integer (R54, R57), and whether bits were dropped. -/
def roundShift (mode : Rnd) (mag k : Nat) : Nat × Bool :=
  let q := mag / 2 ^ k
  let r := mag % 2 ^ k
  if r = 0 then (q, false)
  else
    match mode with
    | .rne => (if 2 ^ k < 2 * r ∨ (2 * r = 2 ^ k ∧ q % 2 = 1) then q + 1 else q, true)
    | .sr x => (if 2 ^ 16 ≤ r * 2 ^ 16 / 2 ^ k + x then q + 1 else q, true)

/-- mag × 2^exp in units of 2^u, rounded (R55, R57). -/
def roundUnits (mode : Rnd) (mag : Nat) (exp u : Int) : Nat × Bool :=
  if u ≤ exp then (mag * 2 ^ (exp - u).toNat, false) else roundShift mode mag (u - exp).toNat

/-- The largest finite code of a format, without sign (R38). -/
def FPar.maxCode (p : FPar) : Nat :=
  match p.kind with
  | .ieee => (2 ^ p.eb - 1) * 2 ^ p.mb - 1
  | .e4m3 => 2 ^ (p.eb + p.mb) - 2
  | .finite => 2 ^ (p.eb + p.mb) - 1

/-- A rounded magnitude: its code when it does not overflow, whether it overflows the format with an unbounded
exponent (R55), whether it is inexact, and whether it is tiny after rounding (R59). -/
structure Rounded where
  code : Nat
  overflow : Bool
  inexact : Bool
  tiny : Bool
  deriving DecidableEq, Repr

/-- Round a nonzero magnitude mag × 2^exp to a format (R55, R57, R59). -/
def FPar.round (p : FPar) (mode : Rnd) (mag : Nat) (exp : Int) : Rounded :=
  let emin : Int := 1 - p.bias
  let t := topExp mag exp
  let u := max t emin - p.mb
  let (n, inex) := roundUnits mode mag exp u
  let big := (max t emin + p.bias - 1).toNat
  let code := big * 2 ^ p.mb + n
  let code := if t < emin then n else code
  let (nu, _) := roundUnits mode mag exp (t - p.mb)
  let tiny := decide (t - p.mb + (Nat.log2 nu : Nat) < emin)
  ⟨code, decide (p.maxCode < code), inex, tiny⟩

/-- The NaN an arithmetic result or conversion writes (R39, R55, R59). -/
def FPar.nanCode (p : FPar) : Nat :=
  match p.kind with
  | .ieee => (2 ^ p.eb - 1) * 2 ^ p.mb + 2 ^ (p.mb - 1)
  | .e4m3 => 2 ^ (p.eb + p.mb) - 1
  | .finite => 0

/-- The infinity code, without sign, of a format that has one (R38). -/
def FPar.infCode (p : FPar) : Nat := (2 ^ p.eb - 1) * 2 ^ p.mb

/-- A sign in front of a magnitude code. -/
def FPar.signed (p : FPar) (neg : Bool) (code : Nat) : Nat := (if neg then 2 ^ (p.eb + p.mb) else 0) + code

/-- The code an overflow or an infinite result writes (*Overflow and special-value results*, R55): FP32 and BF16 give an
infinity whatever OVF is, E4M3 and E5M2 saturate under SAT and give NaN or infinity under NONSAT. -/
def FPar.overCode (p : FPar) (nonsat : Bool) (neg : Bool) : Nat :=
  if p.eb = 8 then p.signed neg p.infCode
  else if nonsat then
    match p.kind with
    | .ieee => p.signed neg p.infCode
    | .e4m3 => p.nanCode
    | .finite => p.signed neg p.maxCode
  else p.signed neg p.maxCode

/-- The four sticky conditions of R59 and R86. -/
structure FpFlags where
  inv : Bool := false
  ovf : Bool := false
  unf : Bool := false
  inx : Bool := false
  deriving DecidableEq, Repr

/-- Every condition that either holds. -/
def FpFlags.or (a b : FpFlags) : FpFlags := ⟨a.inv || b.inv, a.ovf || b.ovf, a.unf || b.unf, a.inx || b.inx⟩

/-- No condition. -/
def FpFlags.none : FpFlags := {}

/-- Convert an exact value to an unscaled floating format (R55), with the flags of an IEEE result (R59). NaN gives the
format's NaN and no flag here: invalid is the operation's to raise. -/
def FPar.convert (p : FPar) (mode : Rnd) (nonsat : Bool) (v : Val) : Nat × FpFlags :=
  match v with
  | .nan _ => (p.nanCode, .none)
  | .inf n => (p.overCode nonsat n, .none)
  | .fin n 0 _ => (p.signed n 0, .none)
  | .fin n m e =>
    let r := p.round mode m e
    if r.overflow then (p.overCode nonsat n, { ovf := true, inx := true })
    else (p.signed n r.code, { unf := r.tiny && r.inexact, inx := r.inexact })

/-- Convert an exact value to INT8 or INT32 (*VCVT conversions*, R55, R58): rounded to an integer and saturated, NaN
gives 0. -/
def intConvert (w : Nat) (mode : Rnd) (v : Val) : Nat × FpFlags :=
  let hi : Int := 2 ^ (w - 1) - 1
  let lo : Int := -(2 ^ (w - 1))
  match v with
  | .nan _ => (0, { inv := true })
  | .inf n => (toSigned w (if n then lo else hi), { inv := true })
  | .fin n m e =>
    let (q, inex) := roundUnits mode m e 0
    let i : Int := if n then -(q : Int) else q
    if hi < i then (toSigned w hi, { inv := true })
    else if i < lo then (toSigned w lo, { inv := true })
    else (toSigned w i, { inx := inex })

/-! ## Stochastic rounding (R57, R58) -/

/-- The 16-bit random value R of R57. -/
def srRandom (seed index : Nat) : Nat :=
  let m := 2 ^ 64
  let x := (seed ^^^ (index * 0x9E3779B97F4A7C15 % m)) % m
  let x := (x ^^^ (x >>> 30)) * 0xBF58476D1CE4E5B9 % m
  let x := (x ^^^ (x >>> 27)) * 0x94D049BB133111EB % m
  let x := x ^^^ (x >>> 31)
  x >>> 48

/-- The rounding mode of one element: RND = 0 is RNE, RND = 1 is stochastic with index B × 2^13 + position (R54, R58). -/
def rndMode (rnd : Bool) (seed base pos : Nat) : Rnd :=
  if rnd then .sr (srRandom seed ((base * 2 ^ 13 + pos) % 2 ^ 64)) else .rne

/-! ## MX blocks (R56) -/

/-- Magnitude 2^127 times the largest finite value of the element format, which replaces an infinity (R56 step 2). -/
def mxInf (p : FPar) (neg : Bool) : Val :=
  match p.decode p.maxCode with
  | .fin _ m e => .fin neg m (e + 127)
  | v => v

/-- The parameter h of *Narrow format parameters* (R38). -/
def FPar.h (p : FPar) : Int :=
  match p.decode p.maxCode with
  | .fin _ m e => topExp m e
  | _ => 0

/-- One MX block of 32 values (R56): the scale byte, the element codes and the flags of *VCVT flags* (R486). `modes`
holds each element's rounding. -/
def mxBlock (f : Fmt) (nonsat : Bool) (vs : List Val) (modes : List Rnd) : Nat × List Nat × FpFlags :=
  let p := f.par
  if vs.any Val.isNan || (nonsat && vs.any Val.isInf) then
    (255, vs.map (fun _ => 0), { inv := true, inx := vs.any (fun v => !v.isNan) })
  else
    let hadInf := vs.any Val.isInf
    let vs := vs.map (fun v => match v with | .inf n => mxInf p n | w => w)
    let top : Option Int := vs.foldl (fun a v => match v with
      | .fin _ m e => if m = 0 then a else some (match a with | none => topExp m e | some t => max t (topExp m e))
      | _ => a) none
    match top with
    | none => (0, vs.map (fun _ => 0), .none)
    | some t =>
      let x := max (-127) (min 127 (t - p.h))
      let one := fun (v : Val) (mode : Rnd) => match v with
        | .fin n m e =>
          if m = 0 then (p.signed n 0, FpFlags.none)
          else
            let r := p.round mode m (e - x)
            if r.overflow then (p.signed n p.maxCode, { ovf := true, inx := true })
            else (p.signed n r.code, { unf := r.tiny && r.inexact, inx := r.inexact })
        | _ => (0, FpFlags.none)
      let es := List.zipWith one vs modes
      ((x + 127).toNat, es.map Prod.fst,
        es.foldl (fun a e => a.or e.2) { ovf := hadInf, inx := hadInf })

/-! ## Exact products and the EWA accumulator (R44–R49) -/

/-- The exact product (R44). -/
def Val.mul : Val → Val → Val
  | .nan s, .nan t => .nan (s || t)
  | .nan s, _ => .nan s
  | _, .nan s => .nan s
  | .inf a, .inf b => .inf (a != b)
  | .inf a, .fin b m _ => if m = 0 then .nan false else .inf (a != b)
  | .fin a m _, .inf b => if m = 0 then .nan false else .inf (a != b)
  | .fin a m e, .fin b n f => .fin (a != b) (m * n) (e + f)

/-- An EWA accumulator (R45): the accumulated value is `a × 2^l`. -/
structure Ewa where
  a : Int
  l : Int
  empty : Bool
  nan : Bool
  pinf : Bool
  ninf : Bool
  lost : Bool
  deriving DecidableEq, Repr

/-- The cleared accumulator (R45). -/
def Ewa.clear : Ewa := ⟨0, 0, true, false, false, false, false⟩

/-- m / 2^n rounded to an integer, nearest even (R46). -/
def rneShift (m : Int) (n : Nat) : Int :=
  let q := m / (2 ^ n : Nat)
  let r := m % (2 ^ n : Nat)
  if (2 ^ n : Nat) < 2 * r ∨ (2 * r = (2 ^ n : Nat) ∧ q % 2 = 1) then q + 1 else q

/-- `shift_right(n)` of *Reference accumulation* (R46). -/
def Ewa.shiftRight (x : Ewa) (n : Nat) : Ewa :=
  let a' := rneShift x.a n
  { x with a := a', l := x.l + n, lost := x.lost || decide (a' * (2 ^ n : Nat) ≠ x.a) }

/-- p / 2^L rounded to an integer, and whether the rounding was inexact (R46). -/
def Ewa.quot (l : Int) (m e : Int) : Int × Bool :=
  if l ≤ e then (m * (2 ^ (e - l).toNat : Nat), false)
  else
    let n := (l - e).toNat
    let q := rneShift m n
    (q, decide (q * (2 ^ n : Nat) ≠ m))

/-- The `while` of *Reference accumulation* (R46) with the sum after it. Halving the window twice always ends it; the
fuel is more than that. -/
def Ewa.fit : Nat → Ewa → Int → Int → Int → Ewa
  | 0, x, q, _, _ => { x with a := x.a + q }
  | k + 1, x, q, m, e =>
    if x.a + q < -(2 ^ 159) ∨ 2 ^ 159 - 1 < x.a + q then
      let y := x.shiftRight 1
      let (q', inex) := Ewa.quot y.l m e
      Ewa.fit k { y with lost := y.lost || inex } q' m e
    else { x with a := x.a + q }

/-- `add(p)` of *Reference accumulation* (R46). -/
def Ewa.add (x : Ewa) (p : Val) : Ewa :=
  match p with
  | .nan _ => { x with nan := true }
  | .inf false => { x with pinf := true }
  | .inf true => { x with ninf := true }
  | .fin neg mag e =>
    if mag = 0 then x
    else
      let m : Int := if neg then -(mag : Int) else mag
      let t := topExp mag e
      let y :=
        if x.empty then { x with l := t - 134, a := 0, empty := false }
        else if x.l + 134 < t then x.shiftRight (t - 134 - x.l).toNat
        else x
      let (q, inex) := Ewa.quot y.l m e
      Ewa.fit 4 { y with lost := y.lost || inex } q m e

/-- What a DRAIN resolves an accumulator to, before conversion (R49). -/
def Ewa.value (x : Ewa) : Val :=
  if x.nan || (x.pinf && x.ninf) then .nan false
  else if x.pinf then .inf false
  else if x.ninf then .inf true
  else if x.empty || x.a == 0 then .fin false 0 0
  else .fin (decide (x.a < 0)) x.a.natAbs x.l

/-! ## VXE arithmetic (R59, R487) -/

/-- The exact sum of two finite values as a signed integer and an exponent. -/
def exactSum (n1 : Bool) (m1 : Nat) (e1 : Int) (n2 : Bool) (m2 : Nat) (e2 : Int) : Int × Int :=
  let e := min e1 e2
  let i1 : Int := (m1 * 2 ^ (e1 - e).toNat : Nat)
  let i2 : Int := (m2 * 2 ^ (e2 - e).toNat : Nat)
  ((if n1 then -i1 else i1) + (if n2 then -i2 else i2), e)

/-- The IEEE 754 sum, exact, with its invalid condition (R59): an exact zero sum of unlike signs is +0 under RNE. -/
def Val.add (x y : Val) : Val × Bool :=
  match x, y with
  | .nan s, .nan t => (.nan false, s || t)
  | .nan s, _ => (.nan false, s)
  | _, .nan s => (.nan false, s)
  | .inf a, .inf b => if a = b then (.inf a, false) else (.nan false, true)
  | .inf a, _ => (.inf a, false)
  | _, .inf b => (.inf b, false)
  | .fin n1 m1 e1, .fin n2 m2 e2 =>
    let (i, e) := exactSum n1 m1 e1 n2 m2 e2
    if i = 0 then (.fin (n1 && n2) 0 e, false) else (.fin (decide (i < 0)) i.natAbs e, false)

/-- The IEEE 754 product, exact, with its invalid condition (R59). -/
def Val.times (x y : Val) : Val × Bool :=
  match x, y with
  | .nan s, .nan t => (.nan false, s || t)
  | .nan s, _ => (.nan false, s)
  | _, .nan s => (.nan false, s)
  | .inf _, .fin _ 0 _ => (.nan false, true)
  | .fin _ 0 _, .inf _ => (.nan false, true)
  | x, y => (x.mul y, false)

/-- The fused multiply-add x × y + z before its single rounding (R59). -/
def Val.fma (x y z : Val) : Val × Bool :=
  let (p, i1) := x.times y
  let sig := match z with | .nan s => s | _ => false
  if p.isNan then (.nan false, i1 || sig) else
    let (r, i2) := p.add z
    (r, i1 || i2)

/-- Order of two values that are not NaN: −1, 0 or 1, with −0 equal to +0. -/
def Val.cmp (x y : Val) : Int :=
  match x, y with
  | .inf a, .inf b => if a = b then 0 else if a then -1 else 1
  | .inf a, _ => if a then -1 else 1
  | _, .inf b => if b then 1 else -1
  | .fin n1 m1 e1, .fin n2 m2 e2 =>
    let (i, _) := exactSum n1 m1 e1 (!n2) m2 e2
    if i < 0 then -1 else if i = 0 then 0 else 1
  | _, _ => 0

end Sys2Proof.Machine
end

