-- ==== Sys2Proof/Machine/TypesExec.lean ====
section
/-!
DEFINITION. The plain data of a context's program: the checked image (07_program_image.md), its streams, channels and
regions (06_schedule_contract.md), and the engines' state (03_engines.md). Nothing here computes.
-/
namespace Sys2Proof.Machine

/-! ## The checked image (R173–R192) -/

/-- A descriptor (R178). -/
structure Desc where
  kind : Nat
  hreg : Nat
  rlc : Nat
  rlk : Nat
  base : Int
  stride : Nat
  inc : List Int
  deriving DecidableEq, Repr

/-- A token-channel record (R180). `plc = 255` means a local producer; `payLocal = 255` means no payload. -/
structure ChanDecl where
  lc : Nat
  lk : Nat
  ch : Nat
  depth : Nat
  init : Nat
  consumer : Nat
  producer : Nat
  plc : Nat
  plk : Nat
  payLocal : Nat
  paySize : Nat
  deriving DecidableEq, Repr

/-- A scratchpad or cluster-memory region record (R181); `handoff` lists the valid entries as (LC, LK, CHANNEL). -/
structure RegionDecl where
  mem : Nat
  lc : Nat
  lk : Nat
  loc : Nat
  owner : Nat
  olc : Nat
  olk : Nat
  base : Nat
  size : Nat
  handoff : List (Nat × Nat × Nat)
  deriving DecidableEq, Repr

/-- An HBM region record (R183). -/
structure HbmDecl where
  region : Nat
  near : Bool
  readOnly : Bool
  pinned : Bool
  pages : Nat
  deriving DecidableEq, Repr

/-- An epoch descriptor (R185). -/
structure EpochDecl where
  budget : Nat
  avgW : Nat
  bankset : Nat
  peakUs : Nat
  deriving DecidableEq, Repr

/-- A collective declaration (R187). -/
structure CollDecl where
  id : Nat
  group : Nat
  op : Nat
  dtype : Nat
  redop : Nat
  stageOk : Bool
  bytes : Nat
  est : Nat
  deriving DecidableEq, Repr

/-- A slot-table declaration (R188). -/
structure SlotDecl where
  id : Nat
  mem : Nat
  lc : Nat
  lk : Nat
  loc : Nat
  capacity : Nat
  srcRows : Nat
  offset : Nat
  deriving DecidableEq, Repr

/-- The context declarations (R189): the regions named for lengths, slip records and staging. -/
structure CtxDecl where
  len : Option Nat
  slip : Option Nat
  staging : Option Nat
  deriving DecidableEq, Repr

/-- The tables of a checked image. A stream is keyed by (LC × 8 + LK) × 5 + stream number and a descriptor table by
LC × 8 + LK; instruction words are the 128-bit words of R191. -/
structure Image where
  masks : List Nat
  streams : Tab (List Nat)
  descs : Tab (List Desc)
  chans : List ChanDecl
  regions : List RegionDecl
  hbm : List HbmDecl
  affinity : List (Nat × Nat × Nat)
  epochs : List EpochDecl
  banksets : List (List Nat)
  colls : List CollDecl
  slots : List SlotDecl
  decl : CtxDecl
  deriving DecidableEq, Repr

/-- The image that declares nothing. -/
def Image.empty : Image := ⟨[], [], [], [], [], [], [], [], [], [], [], ⟨none, none, none⟩⟩

/-! ## Streams, channels and regions (R138–R159) -/

/-- An open loop (R141, R179): the index of its LOOP, its count and the 0-based iteration. -/
structure LoopFr where
  idx : Nat
  count : Nat
  iter : Nat
  deriving DecidableEq, Repr

/-- A range of bytes of one memory: (space, first byte, length). Space is a plain address space of the machine, or an
HBM region (footprints, R63). -/
structure Rng where
  space : Nat
  lo : Nat
  len : Nat
  deriving DecidableEq, Repr

/-- An instruction in progress (R139): started, not retired. `done` says that its own effect has happened;
`mStart` and `mRetire` are its model times (R167); `landed` that the token of a TPOST has been added (R90); `val` is what a
CTRRD read at its start (R430). -/
structure Infl where
  idx : Nat
  iters : List Nat
  startTb : Nat
  startSteps : Nat
  waitNs : Nat
  mStart : Nat
  mRetire : Nat
  src : List Rng
  dst : List Rng
  done : Bool
  cost : Nat := 0
  coll : Option Nat
  landed : Bool := true
  val : Nat := 0
  deriving DecidableEq, Repr

/-- Where a stream stands at a barrier (R158, R159). -/
inductive Arrival where
  | none
  | bar (edesc : Nat)
  | halt
  deriving DecidableEq, Repr

/-- One entry of the time model's window of earlier instructions (R167). -/
structure MEntry where
  retire : Nat
  src : List Rng
  dst : List Rng
  deriving DecidableEq, Repr

/-- One stream of a context (R138–R141, R158, R165, R167). -/
structure Stream where
  pc : Nat := 0
  loops : List LoopFr := []
  inflight : List Infl := []
  arrival : Arrival := .none
  arriveTb : Nat := 0
  arriveSteps : Nat := 0
  arriveModel : Nat := 0
  lastTb : Nat := 0
  waiting : Bool := false
  mStart : Nat := 0
  mOcc : Nat := 0
  mRetire : Nat := 0
  mWindow : List MEntry := []
  mStage : Option (Nat × Nat) := none
  deriving DecidableEq, Repr

/-- A token channel (R142–R146): the model times of the tokens it holds, oldest first, and for a payload channel the
bytes counted toward each coming TPOST, first TPOST first, with the number of TPOSTs that have arrived. -/
structure Chan where
  tokens : List Nat
  pay : List (Nat × Nat) := []
  arrived : Nat := 0
  posted : Nat := 0
  deriving DecidableEq, Repr

/-- Who owns a scratchpad or cluster-memory region now (R150, R151). -/
inductive Owner where
  | strm (lc lk s : Nat)
  | transit
  deriving DecidableEq, Repr

/-! ## Engine state (R45, R64, R69–R78) -/

/-- The staging of a LOADB (R69): the operands it named, the steps at issue, and whether it has completed. -/
structure Staged where
  a : Int
  b : Int
  sa : Int
  sb : Int
  strideA : Nat
  strideB : Nat
  fa : Nat
  fb : Nat
  kb : Nat
  issueSteps : Nat
  complete : Bool
  deriving DecidableEq, Repr

/-- One entry of the replay list (R75): what an MMA read, and in which formats. -/
structure Replay where
  a : Nat
  b : Nat
  sa : Nat
  sb : Nat
  strideA : Nat
  strideB : Nat
  strideSa : Nat
  strideSb : Nat
  fa : Nat
  fb : Nat
  k : Nat
  deriving DecidableEq, Repr

/-- The record of the last retired DRAIN (*Tile status record*, R78). -/
structure TileRec where
  wl : Nat
  check : Nat
  retried : Bool
  sumLost : Bool
  chkLost : Bool
  skipped : Nat
  nanOut : Nat
  infOut : Nat
  satOut : Nat
  anchorMax : Option Int
  anchorMin : Option Int
  drainIdx : Nat
  deriving DecidableEq, Repr

/-- One MXE (R45, R64, R66–R78). An accumulator that its list does not reach is cleared, so the empty lists are the
cleared accumulators. Accumulator of row i, column j stands at 64 × i + j. -/
structure Mxe where
  aFmt : Nat := 0
  bFmt : Nat := 0
  oFmt : Nat := 0
  rnd : Bool := false
  nonsat : Bool := false
  tol : Nat := 0
  acc : List Ewa := []
  chkRow : List Ewa := []
  chkCol : List Ewa := []
  sumLost : Bool := false
  replay : List Replay := []
  replayOvf : Bool := false
  staged : Option Staged := none
  tile : Option TileRec := none
  retrying : Bool := false
  deriving DecidableEq, Repr

/-- A physical core's engines and its microcode banks (R62, R466). -/
structure Core where
  mxe0 : Mxe := {}
  mxe1 : Mxe := {}
  deriving DecidableEq, Repr

/-! ## Contexts -/

/-- The states of the *Context record* (R335). -/
inductive CtxState where
  | created | loaded | running | stopped | ended | faulted | aborting
  deriving DecidableEq, Repr

/-- The fault record (R380). -/
structure FaultRec where
  tb : Nat
  job : Nat
  ctx : Nat
  cls : Nat
  detail : Nat
  flags : Nat
  more : Nat
  punit : Nat
  lunit : Nat
  index : Nat
  originFid : Nat
  args : List Byte
  deriving DecidableEq, Repr

/-- The slip record of one logical core (R170). -/
structure SlipRec where
  epochSeq : Nat
  epochDesc : Nat
  lc : Nat
  lk : Nat
  modelSteps : Nat
  pace : Nat
  measuredNs : Nat
  slipNs : Int
  streamSlip : List Int
  flags : Nat
  endTb : Nat
  deriving DecidableEq, Repr

/-- Where placement put a context (R200, R206–R213, R225): the physical cluster of each logical cluster, the physical
core of LK0–LK7 of each logical cluster (keyed LC × 8 + LK, R211), and the frame of each page (keyed region × 2^24 + LPN;
the stream and descriptor pages of a logical core under the region 256 + LC × 8 + LK); the displaced pages (R215), and
how many pages have moved. -/
structure Placement where
  clusters : Tab Nat
  cores : Tab Nat
  pages : Tab Nat
  displaced : List Nat
  migrated : Nat
  pinned : Bool
  placedTb : Nat
  deriving DecidableEq, Repr

/-- How far a barrier has come (R158): steps 1 and 2 done, step 3 waiting on page copies, then released. -/
inductive BarStep where
  | none
  | migrating
  | waking
  deriving DecidableEq, Repr

/-- How far the fault sequence of R382 has come. -/
inductive FaultStep where
  | none
  | detected
  | captured
  | draining
  | done
  deriving DecidableEq, Repr

/-- A page copy of a barrier migration (R217, R218). -/
structure PageMove where
  region : Nat
  lpn : Nat
  src : Nat
  dst : Nat
  deriving DecidableEq, Repr

/-- The part of a context that the host sets up and reads (R332–R335, R173, R199, R222). -/
structure CtxHost where
  gen : Nat
  job : Nat
  part : Nat
  countersUser : Bool
  stallMs : Nat
  seed : Nat
  st : CtxState
  stopping : Bool := false
  parts : List (Nat × List Byte) := []
  total : Option Nat := none
  image : Option Image := none
  digest : Nat := 0
  place : Option Placement := none
  pinSlot : Option Nat := none
  startTb : Nat := 0
  stopTb : Nat := 0
  loadCmd : Option Nat := none
  checking : Bool := false
  deriving DecidableEq, Repr

/-- The part of a context that its program runs in (R138–R171). `barTb`, `barSteps` and `barPace` hold the time, the steps and
the programmed pace of each logical cluster at the last arrival at a barrier, where the next epoch begins (R169). -/
structure CtxRun where
  streams : Tab Stream := []
  chans : Tab Chan := []
  owners : Tab Owner := []
  holds : Tab (List Rng) := []
  lens : List W32 := []
  epochSeq : Nat := 0
  epochDesc : Nat := 0
  nextDesc : Nat := 0
  epochTb : Nat := 0
  epochSteps : Tab Nat := []
  epochPace : Tab Nat := []
  natLimited : List Nat := []
  paceChanged : List Nat := []
  bar : BarStep := .none
  barTb : Nat := 0
  barSteps : Tab Nat := []
  barPace : Tab Nat := []
  moves : List PageMove := []
  moved : Nat := 0
  slips : Tab SlipRec := []
  slipPos : Nat := 0
  modelLen : Nat := 0
  measuredNs : Nat := 0
  diffNs : Int := 0
  fault : Option FaultRec := none
  faultStep : FaultStep := .none
  faultTb : Nat := 0
  drainTb : Nat := 0
  squallTo : Option (List Nat) := none
  deriving DecidableEq, Repr

/-- One of the 64 local contexts (R332). -/
structure Ctx where
  host : CtxHost
  run : CtxRun := {}
  deriving DecidableEq, Repr

end Sys2Proof.Machine
end

