-- ==== Sys2Proof/Machine/TypesFab.lean ====
section
/-!
DEFINITION. The plain data of the fabric links (10_fabric_links.md), the package router (11_fabric_routing.md) and the
collective engines (12_collectives.md). Nothing here computes.
-/
namespace Sys2Proof.Machine

/-! ## Links (R240–R261) -/

/-- One lane of a link: valid headers in a row while it hunts (R246), the validity of its newest headers, newest first
(R247), the descrambler and scrambler states (R242), its training settings other than the CTLE code (R255: three
thresholds, clock-recovery phase, laser bias), and the end of a running eye scan (R254). -/
structure Lane where
  hunt : Nat := 0
  heads : List Bool := []
  rxScr : Nat := 0
  txScr : Nat := 0
  losSince : Option Nat := none
  settings : List Int := []
  scanEnd : Option Nat := none
  deriving DecidableEq, Repr

/-- A packet that waits for an output port (R274, R277): its outgoing VC, and the link and VCQ whose landing buffer
holds it, or none for a packet of this package. -/
structure QEnt where
  p : Packet
  vc : Nat
  src : Option (Nat × Nat)
  deriving DecidableEq, Repr

/-- A packet kept in the replay buffer (R269): its LSEQ, the units it costs and when it was last sent. -/
structure Kept where
  lseq : Nat
  p : Packet
  units : Nat
  sentTb : Nat
  deriving DecidableEq, Repr

/-- One fabric link: training (R256–R259), the receive side (R245–R251, R268), the transmit side (R243, R252, R269,
R270, R278), time messages (R280, R281) and congestion (R283). -/
structure Link where
  lanes : Tab Lane := []
  -- training
  step : Nat := 0
  stepTb : Nat := 0
  fast : Bool := false
  lstate : Nat := 0
  rfUntil : Nat := 0
  downTb : Nat := 0
  fails : List Nat := []
  identIn : Option (Nat × Nat) := none
  identTb : Nat := 0
  -- receive side
  rxNext : Option Nat := none
  rxBuf : Tab (Option (Nat × List Nat)) := []
  rfRun : Nat := 0
  upRun : Nat := 0
  ucws : List Nat := []
  asm : List Byte := []
  asmSync : Bool := true
  asmBad : Bool := false
  rxq : List Packet := []
  rxExp : Nat := 0
  rxAny : Bool := false
  skipping : Bool := false
  nakTb : Option Nat := none
  nakDue : Bool := false
  unacked : Bool := false
  sinceAck : Nat := 0
  credRet : Tab Nat := []
  -- transmit side
  txCw : Nat := 0
  txLseq : Nat := 0
  queue : List QEnt := []
  kept : List Kept := []
  again : List Nat := []
  replayFrom : Option (Nat × Nat) := none
  replayTb : Option Nat := none
  used : Tab Nat := []
  blocks : List (Bool × Nat) := []
  sinceFill : Nat := 0
  bucket : Nat := 8192
  bucketTb : Nat := 0
  served : Tab Nat := []
  lastVc : Tab Nat := []
  -- time and congestion
  timeEcho : Option (Nat × Nat) := none
  badTime : Nat := 0
  usedTb : Nat := 0
  upTb : Nat := 0
  bins : List Nat := []
  degGood : Nat := 0
  symWin : Nat := 0
  symTb : Nat := 0
  deriving DecidableEq, Repr

/-- An entry of the training cache of the NV store (R257): the link, the peer and each lane's CTLE code and settings. -/
structure TrainRec where
  link : Nat
  peerFid : Nat
  peerLink : Nat
  lanes : List (Nat × List Int)
  deriving DecidableEq, Repr

/-- A packet delivered to this package: the link it came on, none when the package sent it to itself, and its arrival. -/
structure Deliv where
  p : Packet
  link : Option Nat
  tb : Nat
  deriving DecidableEq, Repr

/-- The package router (R262–R287): packets of this package that wait for injection, delivered packets, the commands
that wait for DRAINED, transaction tags in use with their timeouts, and the last congestion windows, newest first. -/
structure Router where
  inj : List Packet := []
  deliv : List Deliv := []
  xtags : List (Nat × Nat) := []
  windows : List (Nat × Nat × List (List Nat)) := []
  winTb : Nat := 0
  winNum : Nat := 0
  timeTb : Tab Nat := []
  deriving DecidableEq, Repr

/-! ## Collectives (R288–R314) -/

/-- An arrival that waits in the early-arrival pool (R298): its SEQ, when it came, the ANNOUNCEs and the gust packet. -/
structure Early where
  seq : Nat
  tb : Nat
  ann : List Packet := []
  gust : Option Packet := none
  deriving DecidableEq, Repr

/-- What the table of registers does not hold of a group entry: words 0–2 of the parts being written, without the ignored fields, and
the FIDs written so far by ring index (R289), its places in the member store (first and how many), the last finished SEQ of the
binding (R296), and the pool (R298). -/
structure Grp where
  words : Option (Nat × Nat × Nat) := none
  fids : Tab Nat := []
  place : Option (Nat × Nat) := none
  last : Option Nat := none
  pool : List Early := []
  deriving DecidableEq, Repr

/-- A digest (R306). -/
structure Digest where
  s : Int
  w : Int
  a : Int
  inexact : Bool := false
  special : Bool := false
  deriving DecidableEq, Repr

/-- A chunk being received (R304, R305): its data segments, its CRC segment, how far the reduction unit has come, and
whether its CRC has been checked. -/
structure RxChunk where
  segs : Tab (List Byte) := []
  crc : Option Nat := none
  checked : Bool := false
  reduced : Nat := 0
  released : Bool := false
  deriving DecidableEq, Repr

/-- One direction of a ring collective (R294, R297, R302–R306): the neighbour's admitted chunk size and our credit, the
place in the transfer order and the next segment to send, the chunks received by (step, chunk), the piece of each step
as (offset, bytes), and the digests that came and that go with each step. -/
structure CDir where
  nbChunk : Option Nat := none
  fromChunk : Option Nat := none
  credit : Nat := 0
  pos : Nat := 0
  seg : Nat := 0
  open_ : Bool := false
  rx : Tab RxChunk := []
  out : Tab (List (Nat × List Byte)) := []
  digIn : Tab Digest := []
  digOut : Tab Digest := []
  digSent : List Nat := []
  passed : List Nat := []
  deriving DecidableEq, Repr

/-- How far a collective has come (R300, R301). -/
inductive CollPhase where
  | waiting | running | staged
  deriving DecidableEq, Repr

/-- A collective that has started locally and not finished (R295–R313). -/
structure Coll where
  ctx : Nat
  lc : Nat
  lk : Nat
  idx : Nat
  grp : Nat
  gid : Nat
  seq : Nat
  gen : Nat
  op : Nat
  dtype : Nat
  redop : Nat
  collId : Nat
  stageOk : Bool
  bytes : Nat
  m : Nat
  me : Nat
  gust : Bool
  src : Nat × Nat × Nat
  srcV : Int
  dst : Nat × Nat × Nat
  dstV : Int
  startTb : Nat
  phase : CollPhase := .waiting
  timedOut : Bool := false
  cve : Nat := 0
  chunk : Nat := 0
  slots : Nat := 0
  part : Option Nat := none
  admitTb : Nat := 0
  fair : Nat := 0
  wind : CDir := {}
  lee : CDir := {}
  gustIn : Option Packet := none
  refusedTb : List (Nat × Nat) := []
  finished : Bool := false
  deriving DecidableEq, Repr

/-- The collective engines: the group table's other half, the member store, the collectives in progress, the admission
queue as it stands in them, and each CVE's turn of the reduction unit. -/
structure CveSt where
  grps : Tab Grp := []
  members : Tab Nat := []
  colls : List Coll := []
  turn : Tab Nat := []
  lsets : Tab Nat := []
  deriving DecidableEq, Repr

end Sys2Proof.Machine
end

