-- ==== Sys2Proof/Machine/TypesHost.lean ====
section
/-!
DEFINITION. The plain data of the host protocol (13_host_protocol.md), of the logs (18_counters.md) and of the fault
history (16_faults.md). Nothing here computes.
-/
namespace Sys2Proof.Machine

/-- The role of a session's key (R446, R447): an operator or service key of the operator list, or the vendor root. -/
inductive Role where
  | none | oper | service | vendor
  deriving DecidableEq, Repr

/-- A YCP session (R325–R329). -/
structure Session where
  id : Nat
  opened : Bool := false
  hostKey : List Byte := []
  role : Role := .none
  keySlot : Option Nat := none
  transcript : Nat := 0
  keyIn : Nat := 0
  keyOut : Nat := 0
  oldKeyIn : Option Nat := none
  oldUntil : Nat := 0
  rxHigh : Nat := 0
  rxSeen : List Nat := []
  txSeq : Nat := 0
  peerA : Option Peer := none
  peerB : Option Peer := none
  mask : Nat := 0
  keyTb : Nat := 0
  rxCount : Nat := 0
  txCount : Nat := 0
  limitTb : Option Nat := none
  helloTb : Nat := 0
  captured : List (Nat × Nat) := []
  deriving DecidableEq, Repr

/-- What the SEPs hold beside the fuses (R445, R446, R448): the operator list by entry (key and role byte), the owner keys of the
NV store by slot, the device certificate, the timebase at S0, the slot, version and measurement of the SEP firmware that S0 booted (R444), and the
hubs that a wipe request has reached (R113). -/
structure SepSt where
  ops : List (Nat × (List Byte × Nat)) := []
  owners : List (Nat × List Byte) := []
  cert : Option (List Byte) := none
  s0Tb : Nat := 0
  slot : Nat := 0
  version : Nat := 0
  meas : Nat := 0
  wipeReq : List Nat := []
  deriving DecidableEq, Repr

/-- A command that was answered ACCEPTED and has not completed (R330). `key` names what completes it. -/
structure Cmd where
  session : Nat
  tag : Nat
  opcode : Nat
  ctx : Nat
  what : Nat := 0
  aux : Nat := 0
  deriving DecidableEq, Repr

/-- The record of a completed command (R331): its reply header. -/
structure CmdRec where
  session : Nat
  tag : Nat
  opcode : Nat
  ctx : Nat
  unsol : Bool
  p : List Nat
  deriving DecidableEq, Repr

/-- A YCP packet the E9 sends (R322, R329): one SEQ, a copy on each plane that has an address. -/
structure YcpOut where
  session : Nat
  seq : Nat
  unsol : Bool
  tag : Nat
  opcode : Nat
  ctx : Nat
  p : List Nat
  payload : List Byte
  toA : Option Peer
  toB : Option Peer
  key : Nat
  deriving DecidableEq, Repr

/-- What the E9 has sent, in order: the model's own trace of its outputs. -/
inductive Out where
  | ycp (x : YcpOut)                                           -- a YCP packet (R322)
  | fabric (link : Nat) (p : Packet)                           -- a fabric packet leaves on a link (R277)
  | codeword (link lane ctl : Nat) (blocks : List Nat)         -- a codeword leaves on a lane: control field, blocks (R243)
  | frame (port kind : Nat) (dst : Peer) (body : List Byte)    -- an Ethernet, ARP, ICMP, ND or PTP frame (R316, R321)
  | rdma (port qpn code psn : Nat) (body : List Byte)          -- a RoCEv2 acknowledgement, NAK, response or CNP (R319)
  | i3c (body : List Byte)                                     -- an I3C answer or in-band interrupt (R479)
  | i3cNack                                                    -- an I3C NACK (R479)
  | mctp (body : List Byte)                                    -- an MCTP message (R480, R481)
  | sepMsg (fromHub kind : Nat)                                -- a SEP message over the inter-hub link (R19)
  deriving DecidableEq, Repr

/-- An entry of the event log (R434), with its data in the order of the wire. -/
structure LogEnt where
  tb : Nat
  seq : Nat
  severity : Nat
  source : Nat
  kind : Nat
  data : List Byte
  deriving DecidableEq, Repr

/-- An entry of the fault history (R392). -/
structure HistEnt where
  tb : Nat
  punit : Nat
  event : Nat
  state : Nat
  detail : Nat
  job : Nat
  events30 : Nat
  htime : Nat
  arg : Nat
  counting : Bool
  madePerm : Bool
  deriving DecidableEq, Repr

/-- What the history keeps of a unit apart from its entries (R389, R392): the state, the events ever recorded, and
whether a check is due. -/
structure UnitRec where
  state : Nat := 0
  total : Nat := 0
  checking : Bool := false
  deriving DecidableEq, Repr

end Sys2Proof.Machine
end

