-- ==== Sys2Proof/Machine/TypesMem.lean ====
section
/-!
DEFINITION. The plain data of the clusters and memories: pace metering (R27, R28), the background test (R107–R111),
sampling (R432), the HBM controllers (R119–R127), the translation caches (R134) and the secure SRAM (R113).
-/
namespace Sys2Proof.Machine

/-- The background test of one cluster (R107–R109). `next` is the region the walk comes to next, `sweeps` the
sweeps completed, `plain` a test without saving and `save` the save buffer; `pend` holds the states that banks under test
take after the unlock (R111). -/
structure Bgt where
  locked : Bool := false
  region : Nat := 0
  next : Nat := 0
  sweeps : Nat := 0
  lockTb : Nat := 0
  started : Bool := false
  promoted : Bool := false
  plain : Bool := false
  save : List Byte := []
  pend : Tab Nat := []
  deriving DecidableEq, Repr

/-- Precise sampling of one cluster (R432, R433): armed, wrapping, log2 N, the next slot, the slots it may use, and the
retirements counted on each physical core. -/
structure Sampling where
  armed : Bool := false
  wrap : Bool := false
  log2n : Nat := 0
  next : Nat := 0
  limit : Nat := 8192
  counts : List Nat := []
  deriving DecidableEq, Repr

/-- One physical cluster: the steps its pace limiter has issued, in thousandths, up to `stepTb` (R27, R28), the
background test and sampling. -/
structure Clus where
  stepMilli : Nat := 0
  stepTb : Nat := 0
  canaryTb : Nat := 0
  bgt : Bgt := {}
  samp : Sampling := {}
  deriving DecidableEq, Repr

/-- What a stack controller does about temperature (*Refresh and temperature*, R125–R127). -/
inductive HbmMode where
  | base | x2 | throttle | hold
  deriving DecidableEq, Repr

/-- One HBM controller (R123–R127): the mode, consecutive readings that count, the retired pages, the corrected sectors
of each page with their times, and the patrol scrub's place. -/
structure HbmSt where
  mode : HbmMode := .base
  hotCount : Nat := 0
  coolCount : Nat := 0
  badCount : Nat := 0
  retired : List Nat := []
  corrected : List (Nat × Nat) := []
  scrubPos : Nat := 0
  ecsTb : Nat := 0
  pollTb : Nat := 0
  deriving DecidableEq, Repr

/-- One cached translation (R134): the way's tag and what it maps, with the time of its last use for replacement. -/
structure XEnt where
  way : Nat
  ctx : Nat
  region : Nat
  lpn : Nat
  pfn : Nat
  writable : Bool
  used : Nat
  deriving DecidableEq, Repr

/-- A translation cache (R134, R135): its valid entries by set and the walks in flight, as (context, region, LPN). -/
structure XCache where
  sets : Tab (List XEnt) := []
  walks : List (Nat × Nat × Nat) := []
  clock : Nat := 0
  deriving DecidableEq, Repr

end Sys2Proof.Machine
end

