-- ==== Sys2Proof/Machine/TypesOps.lean ====
section
/-!
DEFINITION. The plain data of firmware (20_firmware_update.md) of the counter collectors (18_counters.md)
and of the Ethernet ports (13_host_protocol.md). Nothing here computes.
-/
namespace Sys2Proof.Machine

/-- The microcode of one core (R466): the active bank, the version each bank holds, the blocks of the new version that the
inactive bank still misses, the rounds of resending done, whether a version that is being written there has come whole, so
that the core may switch, and whether it stayed incomplete. -/
structure UCode where
  active : Nat := 0
  ver0 : Nat := 0
  ver1 : Nat := 0
  missing : List Nat := []
  rounds : Nat := 0
  writing : Bool := false
  ready : Bool := false
  stale : Bool := false
  deriving DecidableEq, Repr

/-- A trial (R462–R465): when its timer started, the hub of the former holder, the dies whose DMP has restarted, whether the new
holder has executed a command of the host, and whether it has lost AUTH. -/
structure Trial where
  start : Nat
  former : Nat
  dmps : List Nat := []
  served : Bool := false
  lost : Bool := false
  deriving DecidableEq, Repr

/-- A RELAY that waits for its RELAY_ACK (R461): its offset, its tag, when it was last sent, and how often it was resent. -/
structure Chunk where
  off : Nat
  tag : Nat
  sentTb : Nat
  resends : Nat := 0
  deriving DecidableEq, Repr

/-- Firmware (R453–R467): the bytes of the flash slots where they are no longer the factory's, the staged delta (its ID, size and
bytes received by offset, newest first, and whether it came by relay), the trial, the chunks outstanding, the
offsets acknowledged, and the cores' microcode. -/
structure FwSt where
  slots : Tab (List (BitVec 8)) := []
  deltaId : Nat := 0
  deltaLen : Nat := 0
  parts : List (Nat × List (BitVec 8)) := []
  inbound : Bool := false
  trial : Option Trial := none
  chunks : List Chunk := []
  acked : List Nat := []
  ucode : Tab UCode := []
  deriving DecidableEq, Repr

/-! ## Counter collectors (R426–R429) -/

/-- The collectors: where the present window began and its number, whether WINDOW_US changed or a bank was cleared in it, what
takes effect at its end, the extended counts and the raw counts last folded into them (by the address of the counter's CTR_CFG),
the records of each ring slot (ring × 42 + slot: the window number and the bytes), the records written to each ring, and the bytes
that links and stacks have moved in the window. -/
structure CclSt where
  startTb : Nat := 0
  win : Nat := 0
  changed : Bool := false
  cleared : Bool := false
  pendWin : Option Nat := none
  pendCfg : List (Nat × Nat × Nat) := []
  ext : Tab Nat := []
  prev : Tab Nat := []
  rings : Tab (Nat × List (BitVec 8)) := []
  count : Tab Nat := []
  bytes : Tab Nat := []
  deriving DecidableEq, Repr

/-! ## Ethernet (R316, R321) -/

/-- PTP and PFC: the time transmitters heard, as (port, identity, rank); the Sync of the chosen one that is being measured, as its
sending time where it is known and the time it was received; when the Delay_Req was sent; when each plane last had a usable Sync;
and until when each priority of a port is paused (port × 8 + priority). -/
structure EthSt where
  heard : List (Nat × Nat × Nat) := []
  chosen : Option (Nat × Nat) := none
  sync : Option (Option Nat × Nat) := none
  reqTb : Option Nat := none
  syncTb : Tab Nat := []
  pause : Tab Nat := []
  deriving DecidableEq, Repr

end Sys2Proof.Machine
end

