-- ==== Sys2Proof/Machine/TypesPwr.lean ====
section
/-!
DEFINITION. The plain data of power, pace and cooling (17_power_thermal.md). Temperatures are in 0.1 °C. Nothing here
computes.
-/
namespace Sys2Proof.Machine

/-- A temperature sensor (R409, R411): its last valid reading, the invalid answers in a row, how it failed (0 not, 1
FAILED, 2 FAILED_LOW, 3 FAILED_STUCK), and where and when its present still stretch began, with the power then. -/
structure Sensor where
  last : Option Int := none
  bad : Nat := 0
  failed : Nat := 0
  still : Int := 0
  stillTb : Nat := 0
  stillPow : Nat := 0
  deriving DecidableEq, Repr

/-- A pair of sensors (R409, R411): its diodes, whether it is SUSPECT, and since when it differs by more than 6 K or
agrees within 2 K. -/
structure Pair where
  a : Sensor := {}
  b : Sensor := {}
  suspect : Bool := false
  diffTb : Option Nat := none
  agreeTb : Option Nat := none
  deriving DecidableEq, Repr

/-- A pace agreement (R401, R402): the group entry, index 0's round number, the time of the current round's start and
whether it has returned, the agreed pace, and the last lap 1. -/
structure Agree where
  grp : Nat
  round : Nat := 0
  roundTb : Nat := 0
  back : Bool := true
  agreed : Option Nat := none
  lapTb : Nat := 0
  deriving DecidableEq, Repr

/-- Power (R397–R408): the samples of the last second, newest first, in W; the programmed pace of each cluster where it
is not 1,500; the dies that PACE_MODE set to FIXED; the limits 0x2, 0x3 and 0x7 of clusters and 0x4 of dies (the thermal loop's and
a stack's), with the end of the fast limiter's; the class steps taken by the coordinator, newest first (0 compute, 1 memory, 2 links,
3 the Foehn load), when it last acted, last undid one and last set the internal limit; PACE_SET values of dies and agreed paces that
wait for a trigger edge; the agreements; and when power was last sampled. -/
structure PwrSt where
  samples : List Nat := []
  prog : Tab Nat := []
  fixed : List Nat := []
  capLim : Tab Nat := []
  preset : Tab Nat := []
  loopLim : Tab Nat := []
  hbmLim : Tab Nat := []
  hw95 : Tab Nat := []
  fast : Tab (Nat × Nat) := []
  steps : List Nat := []
  coordTb : Nat := 0
  undoTb : Nat := 0
  intTb : Nat := 0
  sampleTb : Nat := 0
  loopTb : Tab Nat := []
  hbmTb : Tab Nat := []
  waitPace : Tab Nat := []
  waitAgree : Tab Nat := []
  agrees : Tab Agree := []
  deriving DecidableEq, Repr

/-- The readings of a log entry of kind PROTECTIVE (R434): temperature, power, pace, voltage and flow. -/
structure Readings where
  temp : Int
  watts : Nat
  pace : Nat
  mv : Nat
  flow : Nat
  deriving DecidableEq, Repr

/-- A protective action whose entry waits for the first sample after it (R434). -/
structure Protect where
  action : Nat
  unit : Nat
  before : Readings
  tb : Nat
  deriving DecidableEq, Repr

/-- Heat (R409–R417): the sensors, the temperature of each die, its newest readings with their times, since when each die
rises faster than 15 K/s and since when it is cool and slow, when the gate closed and reopened, flow and inlet timers and when flow
was last estimated, Foehn's heat load and when its pace was last set, the rainflow counter of each die (turning points, newest first,
and half cycles by bin, with the copy in the NV store and when it was last written), when each die was last sampled for its loop and
for its cycles, and the protective actions to be logged. -/
structure ThmSt where
  pairs : Tab Pair := []
  dieS : Tab Sensor := []
  cool : Tab Sensor := []
  dieTemp : Tab Int := []
  newest : Tab (List (Nat × Int)) := []
  risingTb : Tab Nat := []
  calmTb : Tab Nat := []
  gateTb : Nat := 0
  reopenTb : Option Nat := none
  gateFaulted : Bool := false
  coolFault : Bool := false
  lowTb : Option Nat := none
  okTb : Option Nat := none
  critOkTb : Option Nat := none
  flowTb : Nat := 0
  inletTb : Option (Bool × Nat) := none
  inletSent : Bool := false
  foehnPace : Tab Nat := []
  foehnTb : Nat := 0
  turns : Tab (List Int) := []
  halves : Tab (List Nat) := []
  savedHalves : Tab (List Nat) := []
  cycleTb : Tab Nat := []
  saveTb : Nat := 0
  sampleTb : Tab Nat := []
  prot : List Protect := []
  deriving DecidableEq, Repr

end Sys2Proof.Machine
end

