-- ==== Sys2Proof/Machine/TypesSys.lean ====
section
/-!
DEFINITION. The plain data of Squalls (16_faults.md), of the Placement Unit (08_placement.md), of the reset domains
(15_bringup.md) and of RoCEv2 (13_host_protocol.md). Nothing here computes.
-/
namespace Sys2Proof.Machine

/-- A Squall whose passes have not all been made (R386): recipients, payload, passes left and when the next may start. -/
structure SquallTx where
  peers : List Nat
  payload : List Byte
  left : Nat
  due : Nat
  deriving DecidableEq, Repr

/-- Squalls (R386, R387): the sender's counter, those in progress, and the (ORIGIN_FID, SQUALL_SEQ) pairs seen with
their times, newest first. -/
structure SquallSt where
  seq : Nat := 0
  active : List SquallTx := []
  seen : List (Nat × Nat × Nat) := []
  deriving DecidableEq, Repr

/-! ## Placement (R201–R228) -/

/-- A pin slot (R221): the shape, as the LK_MASK of each logical cluster and the (REGION, PAGES) of each HBM region; the
physical cluster of each logical cluster, the NI maps, and the stack of each page. -/
structure Pin where
  masks : List Nat
  regions : List (Nat × Nat)
  clusters : Tab Nat
  cores : Tab Nat
  hbmSet : Tab Nat
  deriving DecidableEq, Repr

/-- What placement reads: the compute dies that are powered and answer, the physical units that are not good (the defect
map, R365; other than by the fault history), the bridges mapped out (indexes of *Die bridges*), whether S6 has written
PKG_RESOURCES, the contexts whose loads await binding, in the
order in which their checks completed (R199), and the pin slots (R221). `scan` keeps the S4 and S5 results of the last
cold bring-up. -/
structure PluSt where
  diesUp : List Nat := []
  defects : List Nat := []
  scan : List Nat := []
  fuseBad : List Nat := []
  bridgesOut : List Nat := []
  known : Bool := false
  waiting : List Nat := []
  pins : Tab Pin := []
  deriving DecidableEq, Repr

/-- How far the reset of a domain has come (R372–R376): it waits for aborts and region tests, drains, or runs its KAR. -/
inductive DomPhase where
  | waits | drains | kar
  deriving DecidableEq, Repr

/-- A reset domain in reset (R372): kind 0 core, 1 cluster, 2 partition; the unit as P1 gives it; when its drain began. -/
structure Dom where
  kind : Nat
  unit : Nat
  phase : DomPhase
  drainTb : Nat := 0
  deriving DecidableEq, Repr

/-! ## RoCEv2 (R319, R320) -/

/-- A receive ring (R319): the context, region, offset and length it lies in, and the slots filled. -/
structure Ring where
  ctx : Nat
  region : Nat
  off : Nat
  len : Nat
  used : Nat := 0
  deriving DecidableEq, Repr

/-- A queue pair (R319): the local number, the port, the remote QPN and address, the next expected PSN, whether it is in
the error state, its ring, and when it last sent a CNP (R320). -/
structure Qp where
  num : Nat
  port : Nat
  remote : Nat
  addr : Nat
  psn : Nat
  err : Bool := false
  ring : Option Ring := none
  cnpTb : Option Nat := none
  deriving DecidableEq, Repr

/-- A memory binding (R319). -/
structure Mr where
  rkey : Nat
  ctx : Nat
  region : Nat
  write : Bool
  read : Bool
  off : Nat
  len : Nat
  deriving DecidableEq, Repr

/-- The queue pairs and bindings, with the numbers given out. -/
structure RdmaSt where
  qps : List Qp := []
  mrs : List Mr := []
  nextQp : Nat := 1
  nextKey : Nat := 1
  deriving DecidableEq, Repr

end Sys2Proof.Machine
end

