-- ==== Sys2Proof/Machine/State.lean ====
section
/-!
DEFINITION. The state of the block: every register, buffer, counter, mode and pin of the package, as plain data, with
the queue of commands that wait; the reasons a step can stop; and the machine at reset.
-/
namespace Sys2Proof.Machine

/-- Why a command stops the machine. No command does: every condition of the spec is an effect on the state. -/
inductive Fault where
  deriving DecidableEq, Repr

/-- Why a command has no meaning here. -/
inductive Refusal where
  /-- A command whose row is not modelled yet, by its mnemonic. Safe: nothing is claimed about it. -/
  | notModelled (mnemonic : String)
  deriving DecidableEq, Repr

/-- Sessions and commands (13_host_protocol.md). -/
structure HostSt where
  sessions : List Session := []
  nextSession : Nat := 1
  keyPairs : Nat := 0
  cmds : List Cmd := []
  recs : List CmdRec := []
  deriving DecidableEq, Repr

/-- The event log and the black box, newest first (R434, R435). -/
structure LogSt where
  ents : List LogEnt := []
  seq : Nat := 0
  box : List (Nat × LogEnt) := []
  boxSeq : Nat := 0
  deriving DecidableEq, Repr

/-- The fault history, newest first, the units it keeps, and history time (R389–R392, R488). -/
structure HistSt where
  ents : List HistEnt := []
  units : Tab UnitRec := []
  htime : Nat := 0
  htimeTb : Nat := 0
  savedHtime : Nat := 0
  deriving DecidableEq, Repr

/-- Everything but the memories, the fuses and the queue. `slew` is the correction of the timebase that is still to be made and
`slewNs` the nanoseconds since its last nanosecond was made (R31); `nv` holds the register values that the NV store keeps. -/
structure Hw where
  regs : Tab W32 := []
  tb : Nat := 0
  slew : Int := 0
  slewNs : Nat := 0
  free : Nat := 0
  ctxs : Tab Ctx := []
  gens : Tab Nat := []
  cores : Tab Core := []
  clus : Tab Clus := []
  hbm : Tab HbmSt := []
  xcl : Tab XCache := []
  links : Tab Link := []
  trainCache : List TrainRec := []
  rtr : Router := {}
  cve : CveSt := {}
  squall : SquallSt := {}
  plu : PluSt := {}
  doms : List Dom := []
  rdma : RdmaSt := {}
  pwr : PwrSt := {}
  thm : ThmSt := {}
  host : HostSt := {}
  sep : SepSt := {}
  fw : FwSt := {}
  ccl : CclSt := {}
  eth : EthSt := {}
  cpx : CpxSt := {}
  bring : BringSt := {}
  board : BoardSt := {}
  nv : Tab W32 := []
  logs : LogSt := {}
  hist : HistSt := {}
  out : List Out := []
  deriving DecidableEq, Repr

/-- The fuses that burn once and never clear (R438–R443, R455): see the security chapter's operations. -/
structure Fuses where
  bits : List Nat := []
  deriving DecidableEq, Repr

/-- The whole machine: the commands that wait, first in first out; the memories; the fuses; the rest. -/
structure State where
  pending : List Instr := []
  mem : Mem := Mem.empty
  fuses : Fuses := {}
  hw : Hw := {}
  deriving DecidableEq, Repr

/-- The machine before VAUX is applied: every register at the reset value of its table, nothing in any memory. -/
def State.reset : State := {}

end Sys2Proof.Machine
end

