-- ==== Sys2Proof/Machine/Ops.lean ====
section
/-!
DEFINITION. The operations every meaning uses: what a command may do to the state, registers and their fields, free
values, the log, events and packets to the host, and the fault history.
-/
namespace Sys2Proof.Machine

/-! ## What a command does -/

/-- The outcome of a command. -/
abbrev Res := Host.Outcome State Fault Refusal

/-- Fuse bits after burning: a fuse that is set stays set (R439). -/
def Fuses.burn (f : Fuses) (l : List Nat) : Fuses := { bits := l.foldl insNat f.bits }

/-- What a command does: the new hardware, the changes to the memories in order, and the fuses it burns. -/
structure Eff where
  hw : Hw
  edits : List Edit := []
  burn : List Nat := []

/-- The state after an effect. The queue is untouched. -/
def State.commit (s : State) (e : Eff) : State :=
  { s with hw := e.hw, mem := s.mem.edit e.edits, fuses := s.fuses.burn e.burn }

/-- A command that runs to its end. -/
def done (s : State) (e : Eff) : Res := .next (s.commit e)

/-- A command that touches neither the memories nor the fuses. -/
def keep (s : State) (h : Hw) : Res := .next { s with hw := h }

/-! ## Registers (R10, R11) -/

/-- The value a register holds; an unlisted register holds its reset value. -/
def Hw.reg (h : Hw) (a : Nat) : W32 := Tab.getD h.regs a (regReset a)

/-- Set a register, keeping the canonical form: a register at its reset value is not listed. -/
def Hw.setReg (h : Hw) (a : Nat) (v : W32) : Hw := { h with regs := Tab.set h.regs a (regReset a) v }

/-- A field of a register. -/
def Hw.fld (h : Hw) (f : Fld) : Nat := bitsAt (h.reg f.addr).toNat f.lo f.w

/-- A one-bit field. -/
def Hw.flag (h : Hw) (f : Fld) : Bool := h.fld f == 1

/-- Set a field of a register; a value too wide keeps its low bits. -/
def Hw.setFld (h : Hw) (f : Fld) (v : Nat) : Hw :=
  h.setReg f.addr (BitVec.ofNat 32 (setBitsAt (h.reg f.addr).toNat f.lo f.w v))

/-- Set a one-bit field. -/
def Hw.setFlag (h : Hw) (f : Fld) (b : Bool) : Hw := h.setFld f b.toNat

/-- Add to a counter field that saturates at its largest value. -/
def Hw.satFld (h : Hw) (f : Fld) (n : Nat) : Hw := h.setFld f (satAdd (h.fld f) n (2 ^ f.w - 1))

/-! ## Free values -/

/-- Take the next value the spec leaves open (assumption 3). -/
def Hw.takeFree (h : Hw) : Nat × Hw := (Config.freeValue h.free, { h with free := h.free + 1 })

/-! ## Packets to the host (R322, R329, R336) -/

/-- The session of an ID. -/
def Hw.session? (h : Hw) (id : Nat) : Option Session := h.host.sessions.find? (fun x => x.id == id)

/-- Change the session of an ID. -/
def Hw.modSession (h : Hw) (id : Nat) (f : Session → Session) : Hw :=
  { h with host := { h.host with sessions := h.host.sessions.map (fun x => if x.id == id then f x else x) } }

/-- The next packet of a session (R328, R329): its SEQ, and a copy for each plane the session has been heard on. -/
def Session.packet (x : Session) (unsol : Bool) (tag opcode ctx : Nat) (p : List Nat) (payload : List Byte) : YcpOut :=
  { session := x.id, seq := x.txSeq + 1, unsol := unsol, tag := tag, opcode := opcode, ctx := ctx, p := p,
    payload := payload, toA := x.peerA, toB := x.peerB, key := x.keyOut }

/-- Copies of each packet: in the overlap window of a planned handover the standby sends one of its own (R329, R347). -/
def Hw.copies (h : Hw) : Nat := if h.fld Fd.CPX_AUTH.STATE_A = 5 ∨ h.fld Fd.CPX_AUTH.STATE_B = 5 then 2 else 1

/-- Send a packet of a session (R329); nothing where the session is gone (R330). -/
def Hw.send (h : Hw) (id : Nat) (unsol : Bool) (tag opcode ctx : Nat) (p : List Nat) (payload : List Byte) : Hw :=
  match h.session? id with
  | none => h
  | some x =>
    { h.modSession id (fun y => { y with txSeq := y.txSeq + 1, txCount := y.txCount + 1 }) with
      out := h.out ++ List.replicate h.copies (.ycp (x.packet unsol tag opcode ctx p payload)) }

/-- Whether a session subscribes to an event opcode 0x7F01–0x7F06 (R333, R336). -/
def Session.subscribed (x : Session) (opcode : Nat) : Bool := x.opened && bitAt x.mask (opcode - 0x7F00)

/-- Send an event to every subscribed session (R336). -/
def Hw.sendEvent (h : Hw) (opcode ctx : Nat) (p : List Nat) (payload : List Byte) : Hw :=
  { h with
    out := h.out ++ (h.host.sessions.filter (fun x => x.subscribed opcode)).flatMap
      (fun x => List.replicate h.copies (.ycp (x.packet true 0 opcode ctx (0 :: p) payload))),
    host := { h.host with sessions := h.host.sessions.map (fun x =>
      if x.subscribed opcode then { x with txSeq := x.txSeq + 1, txCount := x.txCount + 1 } else x) } }

/-! ## The event log and the black box (R434–R436) -/

/-- Kinds of log entries (R434). -/
def logFault : Nat := 1
def logProtective : Nat := 2
def logEvent : Nat := 3
def logState : Nat := 4
def logOrder : Nat := 5
def logHistory : Nat := 6

/-- A log entry as the wire carries it (R8, R434). -/
def LogEnt.wire (e : LogEnt) : List Byte :=
  beBytes 8 e.tb ++ beBytes 4 e.seq ++ beBytes 1 e.severity ++ beBytes 1 e.source ++ beBytes 2 e.kind ++
    (e.data ++ List.replicate 112 0).take 112

/-- Write an entry of a given severity (R434): the log keeps the newest 4,096, a severe entry also goes to the black
box (R435), and one at or above THRESH goes out as EVT_LOG (R436). -/
def Hw.logSev (h : Hw) (severity source kind : Nat) (data : List Byte) : Hw :=
  let e : LogEnt := ⟨h.tb, h.logs.seq % 2 ^ 32, severity, source, kind, data⟩
  let full := decide (4096 ≤ h.logs.ents.length)
  let h1 := if full then h.satFld Fd.CTR_LOG_STATUS.OVERWRITTEN 1 else h
  let h2 : Hw := { h1 with logs :=
    { ents := (e :: h.logs.ents).take 4096, seq := h.logs.seq + 1,
      box := if 4 ≤ severity then ((h.logs.boxSeq, e) :: h.logs.box).take 256 else h.logs.box,
      boxSeq := if 4 ≤ severity then h.logs.boxSeq + 1 else h.logs.boxSeq } }
  { h2 with
    out := if h.fld Fd.CTR_LOG_CTRL.THRESH ≤ severity then (h2.sendEvent 0x7F06 0xFFFF [] (e.wire)).out else h2.out,
    host := if h.fld Fd.CTR_LOG_CTRL.THRESH ≤ severity then (h2.sendEvent 0x7F06 0xFFFF [] (e.wire)).host
      else h2.host }

/-- Write an entry whose severity the spec does not state (assumption 5). -/
def Hw.log (h : Hw) (source kind what : Nat) (data : List Byte) : Hw :=
  h.logSev (Config.severity kind what).val source kind data

/-- A state change of a link, stage or complex, or an order, as a log entry (R434): what changed and two numbers. Its DATA is open
(assumption 5). -/
def Hw.logNote (h : Hw) (kind what a b : Nat) : Hw := h.log 0 kind what (Config.noteData kind what a b)

/-- Send an event and log it (R336): the log entry holds the event's payload (R434). -/
def Hw.event (h : Hw) (opcode ctx : Nat) (p : List Nat) (payload : List Byte) : Hw :=
  (h.sendEvent opcode ctx p payload).log 0 logEvent opcode payload

/-! ## Physical unit IDs (R380) -/

/-- An engine (0 MXE0, 1 MXE1, 2 VXE, 3 TXE) of physical core `k`. -/
def punitEngine (k e : Nat) : Nat :=
  0x10000000 + (k / 9 / 8) * 2 ^ 25 + (k / 9 % 8) * 2 ^ 22 + (k % 9) * 2 ^ 18 + e * 2 ^ 16
/-- Physical core `k`. -/
def punitCore (k : Nat) : Nat := 0x20000000 + (k / 9 / 8) * 2 ^ 25 + (k / 9 % 8) * 2 ^ 22 + (k % 9) * 2 ^ 18
/-- Physical cluster `c`. -/
def punitClus (c : Nat) : Nat := 0x30000000 + (c / 8) * 2 ^ 25 + (c % 8) * 2 ^ 22
/-- The HBM pseudo-channel of a PMA (R117). -/
def punitHbm (pma : Nat) : Nat :=
  let x := bitsAt pma 8 6 ^^^ bitsAt pma 14 6
  0x40000000 + bitsAt pma 37 4 * 2 ^ 24 + x * 2 ^ 18
/-- A hub block (0 CPX, 1 SEP, 2 router, 3 CVE, 4 CCL). -/
def punitHub (hub blk : Nat) : Nat := 0x50000000 + hub * 2 ^ 27 + blk * 2 ^ 24

/-! ## The fault history (R389–R392) -/

/-- The history's clock (R488): seconds saved, plus the seconds of the timebase since. -/
def Hw.histNow (h : Hw) : Nat := (h.hist.htime + (h.tb - h.hist.htimeTb) / 1000000000) % 2 ^ 32

/-- Thirty days of history time. -/
def thirtyDays : Nat := 2592000

/-- A history entry as the wire carries it, and in memory order (R8, R392). -/
def HistEnt.wire (e : HistEnt) : List Byte :=
  beBytes 8 e.tb ++ beBytes 4 e.punit ++ beBytes 1 e.event ++ beBytes 1 e.state ++ beBytes 2 e.detail ++
    beBytes 2 e.job ++ beBytes 1 e.events30 ++ beBytes 1 0 ++ beBytes 4 e.htime ++ beBytes 8 e.arg
def HistEnt.bytes (e : HistEnt) : List Byte :=
  leBytes 8 e.tb ++ leBytes 4 e.punit ++ leBytes 1 e.event ++ leBytes 1 e.state ++ leBytes 2 e.detail ++
    leBytes 2 e.job ++ leBytes 1 e.events30 ++ leBytes 1 0 ++ leBytes 4 e.htime ++ leBytes 8 e.arg

/-- Counting events of a unit within 30 days (R390, R391). -/
def HistSt.counting (x : HistSt) (now punit : Nat) : Nat :=
  (x.ents.filter (fun e => e.punit == punit && e.counting && decide (now - e.htime < thirtyDays))).length

/-- What a full history discards (R392): the oldest entry that made no unit PERMANENT, or the oldest of all. -/
def HistSt.discard (l : List HistEnt) : List HistEnt :=
  match l.reverse.findIdx? (fun e => !e.madePerm) with
  | some i => (l.reverse.eraseIdx i).reverse
  | none => l.dropLast

/-- Record an event against a unit (R389–R392): the entry, the unit's totals and its new state, and the log entry. -/
def Hw.history (h : Hw) (punit event state detail job arg : Nat) (counting madePerm : Bool) : Hw :=
  let now := h.histNow
  let u : UnitRec := h.hist.units.getD punit {}
  let e : HistEnt := ⟨h.tb, punit, event, state, detail, job, min 255 (h.hist.counting now punit + counting.toNat), now,
    arg, counting, madePerm⟩
  let full := decide (65536 ≤ h.hist.ents.length)
  let ents := e :: (if full then HistSt.discard h.hist.ents else h.hist.ents)
  let h1 : Hw := { h with hist := { h.hist with
    ents := ents,
    units := h.hist.units.put punit { u with state := state, total := satAdd u.total 1 65535 },
    savedHtime := now } }
  let h2 := (if full then h1.setFlag Fd.PKG_FH_STATUS.OVERFLOW true else h1).setFld Fd.PKG_FH_STATUS.ENTRIES ents.length
  h2.log 0 logHistory event e.wire

/-- The state of a unit: 0 GOOD, 1 SUSPECT, 2 PERMANENT (R389). -/
def Hw.unitState (h : Hw) (punit : Nat) : Nat := (h.hist.units.getD punit {}).state

/-- A counting event (R389, R390): a GOOD unit becomes SUSPECT and its check is due. -/
def Hw.suspect (h : Hw) (punit event detail job arg : Nat) : Hw :=
  let st := if h.unitState punit = 2 then 2 else 1
  let h1 := h.history punit event st detail job arg true false
  { h1 with hist := { h1.hist with units := h1.hist.units.mod punit (fun u => { u with checking := st == 1 }) } }

/-! ## The pace limiter's steps (R27, R28) -/

/-- The cluster's state. -/
def Hw.clusOf (h : Hw) (c : Nat) : Clus := h.clus.getD c {}

/-- Change a cluster's state. -/
def Hw.modClus (h : Hw) (c : Nat) (f : Clus → Clus) : Hw := { h with clus := h.clus.upd c {} f }

/-- Steps issued by cluster `c` until now, in thousandths: ISSUED_MSTEPS is in millions of steps per second. -/
def Hw.stepMilli (h : Hw) (c : Nat) : Nat :=
  let x := h.clusOf c
  x.stepMilli + (h.tb - x.stepTb) * h.fld (Fd.PWR_CL_PACE.ISSUED_MSTEPS c)

/-- Whole steps issued by cluster `c` until now. -/
def Hw.steps (h : Hw) (c : Nat) : Nat := h.stepMilli c / 1000

/-- Change the rate at which a cluster's pace limiter issues steps. -/
def Hw.setIssued (h : Hw) (c m : Nat) : Hw :=
  (h.modClus c (fun x => { x with stepMilli := h.stepMilli c, stepTb := h.tb })).setFld (Fd.PWR_CL_PACE.ISSUED_MSTEPS c) m

/-! ## Event counters (R420–R425) -/

/-- The raw count of the counter at a bank (R420). -/
def Hw.ctrVal (h : Hw) (bank n : Nat) : Nat :=
  h.fld (Fd.CTR_VAL_LO.VAL_LO bank n) + 2 ^ 32 * h.fld (Fd.CTR_VAL_HI.VAL_HI bank n)

/-- Set the raw count of a counter. -/
def Hw.setCtr (h : Hw) (bank n v : Nat) : Hw :=
  (h.setFld (Fd.CTR_VAL_LO.VAL_LO bank n) v).setFld (Fd.CTR_VAL_HI.VAL_HI bank n) (v / 2 ^ 32)

/-- Whether counter `n` is the odd member of a chained pair, which ignores its own event (R422). -/
def Hw.ctrChained (h : Hw) (bank n : Nat) : Bool :=
  n % 2 == 1 && h.flag (Fd.CTR_CFG.CHAIN bank (n - 1))

/-- Count `k` occurrences in one counter, carrying into the odd member of a chained pair (R420, R422). -/
def Hw.bump (h : Hw) (bank n k : Nat) : Hw :=
  let v := h.ctrVal bank n + k
  let h1 := h.setCtr bank n (v % 2 ^ 48)
  if n % 2 = 0 ∧ h.flag (Fd.CTR_CFG.CHAIN bank n) = true then
    h1.setCtr bank (n + 1) ((h1.ctrVal bank (n + 1) + v / 2 ^ 48) % 2 ^ 48)
  else h1

/-- Who caused an event, as the PRIV filter names it (R421). -/
inductive Priv where
  | user | firmware | host
  deriving DecidableEq, Repr

/-- The bit of the PRIV field (R421). -/
def Priv.bit : Priv → Nat
  | .user => 0
  | .firmware => 1
  | .host => 2

/-- An event as the filters of R421 see it: the masters it counts for (0 counts for any), the address it touches
(1 scratchpad, 2 cluster memory) and the traffic class it carries. -/
structure Ev where
  code : Nat
  priv : Priv := .user
  masters : List Nat := []
  addr : Option (Nat × Nat) := none
  tc : Option Nat := none

/-- Whether an address lies in range register pair `r` of a bank (R421, R437). -/
def Hw.inRange (h : Hw) (bank r mem a : Nat) : Bool :=
  let lo := (h.reg (Reg.CTR_RANGE bank (2 * r))).toNat
  let hi := (h.reg (Reg.CTR_RANGE bank (2 * r + 1))).toNat
  bitsAt lo 30 2 == mem && decide (bitsAt lo 0 27 ≤ a) && decide (a ≤ bitsAt hi 0 27)

/-- Whether a filtered counter counts an event (R421). -/
def Hw.passes (h : Hw) (bank n : Nat) (e : Ev) : Bool :=
  let m := h.fld (Fd.CTR_CFG.MASTER bank n)
  let r := h.fld (Fd.CTR_CFG.RANGE bank n)
  bitAt (h.fld (Fd.CTR_CFG.PRIV bank n)) e.priv.bit &&
    (m == 0 || e.masters.isEmpty || e.masters.contains m) &&
    (match r, e.addr with
      | 0, _ => true
      | _, none => false
      | 1, some (mem, a) => h.inRange bank 0 mem a
      | 2, some (mem, a) => h.inRange bank 1 mem a
      | _, some (mem, a) => !(h.inRange bank 0 mem a || h.inRange bank 1 mem a)) &&
    (match e.tc with
      | none => true
      | some t => bitAt (h.fld (Fd.CTR_CFG.TC_MASK bank n)) t)

/-- Count `k` occurrences of an event in a bank of `size` counters; `filtered` banks apply the filters (R421). -/
def Hw.count (h : Hw) (bank size : Nat) (filtered : Bool) (e : Ev) (k : Nat) : Hw :=
  (List.range size).foldl (fun h n =>
    if h.flag (Fd.CTR_CFG.EN bank n) && h.fld (Fd.CTR_CFG.EVENT bank n) == e.code && !h.ctrChained bank n &&
        (!filtered || h.passes bank n e) then h.bump bank n k else h) h

/-- Count in the bank of a core, a cluster, a stack, a router port or a CVE (R420). -/
def Hw.countCore (h : Hw) (k : Nat) (e : Ev) (n : Nat) : Hw := h.count (bankCore k) 16 true e n
def Hw.countClus (h : Hw) (c : Nat) (e : Ev) (n : Nat) : Hw := h.count (bankClus c) 32 true e n
def Hw.countHbm (h : Hw) (s code n : Nat) : Hw := h.count (bankHbm s) 64 false { code := code } n
def Hw.countPort (h : Hw) (l code n : Nat) : Hw := h.count (bankPort l) 8 false { code := code } n
/-- Bytes that a unit has moved in the present window (R428), by the unit's place among the 124 counts. -/
def Hw.moved (h : Hw) (i n : Nat) : Hw := { h with ccl := { h.ccl with bytes := h.ccl.bytes.upd i 0 (· + n) } }
/-- Sectors that a stack has read or written: its counters and its byte counts (R423, R428). -/
def Hw.sectors (h : Hw) (s : Nat) (write : Bool) (n : Nat) : Hw :=
  (h.countHbm s (if write then 0x51 else 0x50) n).moved (64 + 2 * s + write.toNat) (32 * n)
def Hw.countCve (h : Hw) (v code n : Nat) : Hw := h.count (bankCve v) 32 false { code := code } n

end Sys2Proof.Machine
end

