-- ==== Sys2Proof/Machine/Exec.lean ====
section
/-!
DEFINITION. What every stream command uses: the context and its streams, the fields of an instruction word (R191), the
effective value of a descriptor (R179), detection of a fault (R380–R382), and the token channels (R143–R151).
-/
namespace Sys2Proof.Machine

/-! ## Contexts and placement -/

/-- The context of a local ID (R332). -/
def Hw.ctx? (h : Hw) (c : Nat) : Option Ctx := h.ctxs.find? c

/-- Whether the pace gate is open (R415): while it is closed every engine halts at a step boundary. -/
def Hw.gateOpen (h : Hw) : Bool := !h.flag Fd.THM_STATUS.GATE

/-- Replace a context. -/
def Hw.setCtx (h : Hw) (c : Nat) (x : Ctx) : Hw := { h with ctxs := h.ctxs.put c x }

/-- Change a context where there is one. -/
def Hw.modCtx (h : Hw) (c : Nat) (f : Ctx → Ctx) : Hw := { h with ctxs := h.ctxs.mod c f }

/-- Change the run-time part of a context. -/
def Hw.modRun (h : Hw) (c : Nat) (f : CtxRun → CtxRun) : Hw := h.modCtx c (fun x => { x with run := f x.run })

/-- The image of a context, or one that declares nothing. -/
def Ctx.img (x : Ctx) : Image := x.host.image.getD Image.empty

/-- The physical core of a logical core (R14, R211). -/
def Ctx.core? (x : Ctx) (lc lk : Nat) : Option Nat := x.host.place.bind (fun p => p.cores.find? (lc * 8 + lk))

/-- The physical cluster of a logical cluster (R206). -/
def Ctx.clus? (x : Ctx) (lc : Nat) : Option Nat := x.host.place.bind (fun p => p.clusters.find? lc)

/-- Whether a context is resident: it holds cores (R104, R200). -/
def Ctx.resident (x : Ctx) : Bool := x.host.place.isSome

/-- The key of a stream and of a logical core. -/
def coreKey (lc lk : Nat) : Nat := lc * 8 + lk
def strmKey (lc lk s : Nat) : Nat := (lc * 8 + lk) * 5 + s

/-- The declared logical cores of an image, ascending LC and then LK (R176). -/
def Image.cores (i : Image) : List (Nat × Nat) :=
  i.masks.zipIdx.flatMap (fun (m, lc) => (List.range 8).filterMap (fun lk => if bitAt m lk then some (lc, lk) else none))

/-- Whether a logical core is declared (R176). -/
def Image.hasCore (i : Image) (lc lk : Nat) : Bool := decide (lk < 8) && bitAt (i.masks.getD lc 0) lk

/-- The state of a stream; a stream that has done nothing yet is at its start. -/
def CtxRun.strm (r : CtxRun) (k : Nat) : Stream := r.streams.getD k {}

/-- Change a stream. -/
def CtxRun.modStrm (r : CtxRun) (k : Nat) (f : Stream → Stream) : CtxRun :=
  { r with streams := r.streams.put k (f (r.strm k)) }

/-- The descriptor table of a logical core (R178). -/
def Image.descTab (i : Image) (lc lk : Nat) : List Desc := Tab.getD i.descs (coreKey lc lk) []

/-- The instruction words of a stream (R177). -/
def Image.words (i : Image) (k : Nat) : List Nat := Tab.getD i.streams k []

/-! ## Instruction words (R191, R192) -/

def opcOf (w : Nat) : Nat := bitsAt w 120 8
def nwaitOf (w : Nat) : Nat := bitsAt w 118 2
def npostOf (w : Nat) : Nat := bitsAt w 116 2

/-- The channels an instruction waits on (R143, R191). -/
def waitsOf (w : Nat) : List Nat :=
  [bitsAt w 110 6, bitsAt w 104 6].take (nwaitOf w)

/-- The channels an instruction posts to (R143, R191). -/
def postsOf (w : Nat) : List Nat :=
  [bitsAt w 98 6, bitsAt w 92 6].take (npostOf w)

/-- The iteration numbers of the open loops, outermost first (R179). -/
def Stream.iters (s : Stream) : List Nat := (s.loops.map (fun l => l.iter)).reverse

/-- The effective value of a descriptor (R179). -/
def Desc.value (d : Desc) (iters : List Nat) : Int :=
  d.base + ((d.inc.zip iters).map (fun (a, i) => a * (i : Int))).foldl (· + ·) 0

/-- Descriptor `n` of a logical core, when the operand names one (R178). -/
def Image.desc? (i : Image) (lc lk n : Nat) : Option Desc :=
  if n = 0xFFF then none else (i.descTab lc lk)[n]?

/-- A value operand modulo its width; 0xFFF gives 0 (R179, R193). -/
def Image.valueOf (i : Image) (lc lk n : Nat) (iters : List Nat) (width : Nat) : Nat :=
  match i.desc? lc lk n with
  | none => 0
  | some d => (d.value iters % (2 ^ width : Nat)).toNat

/-! ## Detection of a fault (R379–R382) -/

/-- The details of *Fault details* (R379) that the package raises itself. -/
def dTokenOverflow : Nat := 0x0101
def dTokenUnderflow : Nat := 0x0102
def dTokenLeftover : Nat := 0x0103
def dRegionGuard : Nat := 0x0104
def dHandoff : Nat := 0x0105
def dSizeMismatch : Nat := 0x0106
def dBarMismatch : Nat := 0x0107
def dStreamEnd : Nat := 0x0108
def dTripBound : Nat := 0x0109
def dAlign : Nat := 0x010A
def dRegionBound : Nat := 0x010B
def dSlotRange : Nat := 0x010C
def dPageInvalid : Nat := 0x010D
def dBankOff : Nat := 0x010E
def dRegionRo : Nat := 0x010F
def dAbftMismatch : Nat := 0x0201
def dNoReplay : Nat := 0x0202
def dAccParity : Nat := 0x0203
def dOperandUe : Nat := 0x0301
def dHbmUe : Nat := 0x0302
def dMapUe : Nat := 0x0303
def dStreamStall : Nat := 0x0401
def dBarStall : Nat := 0x0402
def dTargetReset : Nat := 0x0501
def dGroupInvalid : Nat := 0x0601
def dGroupBusy : Nat := 0x0602
def dSize : Nat := 0x0603
def dSeq : Nat := 0x0604
def dPeerMismatch : Nat := 0x0605
def dCollAdmitTimeout : Nat := 0x0606
def dEarlyTimeout : Nat := 0x0607
def dChunkCrc : Nat := 0x0608
def dDigestMismatch : Nat := 0x0609
def dThermtrip : Nat := 0x0701
def dPaceGate : Nat := 0x0702
def dPwrokLost : Nat := 0x0801
def dPowerOff : Nat := 0x0802
def dPmaInvalid : Nat := 0x0901
def dMapCorrupt : Nat := 0x0902
def dMicrocode : Nat := 0x0904

/-- LUNIT of a stream, or of none (R380). -/
def lunitOf (lc lk s : Nat) : Nat := lc * 2 ^ 26 + lk * 2 ^ 23 + s * 2 ^ 20 + 2 ^ 19

/-- INDEX with its valid bit (R380). -/
def indexOf (i : Nat) : Nat := 2 ^ 31 + i

/-! ## The members of groups (R288, R385) -/

/-- The members of an entry in ring order (R288). -/
def Hw.groupMember (h : Hw) (g k : Nat) : Nat := h.cve.members.getD ((h.fld (Fd.CVE_GRP_W3.MOFF g) + k) % 524288) 0

/-- The members of an entry. -/
def Hw.groupMembers (h : Hw) (g : Nat) : List Nat :=
  (List.range (h.fld (Fd.CVE_GRP_W2.M g))).map (h.groupMember g)

/-- The recipients of a Squall for a job (R385): the members of every valid or fenced entry of the job with M ≥ 2, less
this package, in ascending FID; none where there is no such entry. -/
def Hw.squallPeers (h : Hw) (job : Nat) : Option (List Nat) :=
  let gs := (List.range 1024).filter (fun g => h.flag (Fd.CVE_GRP_W1.VALID g) && h.fld (Fd.CVE_GRP_W0.JOB g) == job &&
    decide (2 ≤ h.fld (Fd.CVE_GRP_W2.M g)))
  if gs.isEmpty then none
  else some ((gs.flatMap h.groupMembers).foldl insNat [] |>.filter (fun f => f != h.fld Fd.FR_FID.FID))

/-- A condition met by a context, before it becomes a record: its detail and arguments. -/
structure Cond where
  detail : Nat
  args : List Byte
  deriving DecidableEq, Repr

/-- Pad the arguments of a fault to the 32 bytes 32–63 of the record (R380). -/
def padArgs (l : List Byte) : List Byte := (l ++ List.replicate 32 0).take 32

/-- Whether a context can fault: it exists and has not ended, faulted or begun to abort (R381, R382, R387). -/
def Ctx.canFault (x : Ctx) : Bool :=
  match x.host.st with
  | .created | .loaded | .running | .stopped => true
  | _ => false

/-- Steps 1 and 2 of *Fault sequence* (R381, R382): the first detection forms the record with the timebase of detection
and makes the context faulted; a later one is counted in MORE. The recipients of a Squall are those of this moment (R385). -/
def Hw.raise (h : Hw) (c : Nat) (cond : Cond) (punit lunit index : Nat) : Hw :=
  h.modCtx c (fun x =>
    match x.run.fault with
    | some r => { x with run := { x.run with fault := some { r with more := satAdd r.more 1 255 } } }
    | none =>
      if x.canFault then
        { host := { x.host with st := .faulted },
          run := { x.run with
            fault := some ⟨h.tb, x.host.job, c, cond.detail / 256, cond.detail, 0, 0, punit, lunit, index,
              h.fld Fd.FR_FID.FID, padArgs cond.args⟩,
            faultStep := .detected, faultTb := h.tb,
            squallTo := if x.host.job = 0 then none else h.squallPeers x.host.job } }
      else x)

/-- The error bit of an engine for a detail (*Engine conditions*, R92; R103, R131): engine 0, 1 MXE, 2 VXE, 3 TXE. -/
def engineErr (k e detail : Nat) : Option Fld :=
  if e < 2 then
    if detail = dAbftMismatch then some (Fd.MXE_ERR.ABFT_FAULT k e)
    else if detail = dNoReplay then some (Fd.MXE_ERR.NO_REPLAY k e)
    else if detail = dAccParity then some (Fd.MXE_ERR.ACC_PARITY k e)
    else if detail = dOperandUe then some (Fd.MXE_ERR.OPERAND_UE k e)
    else if detail = dAlign then some (Fd.MXE_ERR.ALIGN k e)
    else if detail = dRegionBound ∨ detail = dBankOff ∨ detail = dRegionRo then some (Fd.MXE_ERR.REGION_BOUND k e)
    else none
  else if e = 2 then
    if detail = dOperandUe then some (Fd.VXE_ERR.OPERAND_UE k)
    else if detail = dAlign then some (Fd.VXE_ERR.ALIGN k)
    else if detail = dSlotRange then some (Fd.VXE_ERR.SLOT_RANGE k)
    else if detail = dRegionBound ∨ detail = dBankOff ∨ detail = dRegionRo then some (Fd.VXE_ERR.REGION_BOUND k)
    else none
  else if e = 3 then
    if detail = dOperandUe then some (Fd.TXE_ERR.OPERAND_UE k)
    else if detail = dTargetReset then some (Fd.TXE_ERR.TARGET_RESET k)
    else if detail = dPageInvalid then some (Fd.TXE_ERR.PAGE_INVALID k)
    else if detail = dSlotRange then some (Fd.TXE_ERR.SLOT_RANGE k)
    else if detail = dHbmUe then some (Fd.TXE_ERR.HBM_UE k)
    else if detail = dAlign then some (Fd.TXE_ERR.ALIGN k)
    else if detail = dRegionBound ∨ detail = dBankOff ∨ detail = dRegionRo then some (Fd.TXE_ERR.REGION_BOUND k)
    else none
  else none

/-- The bit of CO_CONTRACT_ERR for a detail (R172). -/
def contractErr (k detail : Nat) : Option Fld :=
  if detail = dTokenOverflow then some (Fd.CO_CONTRACT_ERR.TOKEN_OVERFLOW k)
  else if detail = dTokenUnderflow then some (Fd.CO_CONTRACT_ERR.TOKEN_UNDERFLOW k)
  else if detail = dTokenLeftover then some (Fd.CO_CONTRACT_ERR.TOKEN_LEFTOVER k)
  else if detail = dRegionGuard then some (Fd.CO_CONTRACT_ERR.REGION_GUARD k)
  else if detail = dHandoff then some (Fd.CO_CONTRACT_ERR.HANDOFF k)
  else if detail = dSizeMismatch then some (Fd.CO_CONTRACT_ERR.SIZE_MISMATCH k)
  else if detail = dBarMismatch then some (Fd.CO_CONTRACT_ERR.BAR_MISMATCH k)
  else if detail = dStreamEnd then some (Fd.CO_CONTRACT_ERR.STREAM_END k)
  else if detail = dTripBound then some (Fd.CO_CONTRACT_ERR.TRIP_BOUND k)
  else if detail = dStreamStall then some (Fd.CO_CONTRACT_ERR.STREAM_STALL k)
  else if detail = dBarStall then some (Fd.CO_CONTRACT_ERR.BAR_STALL k)
  else none

/-- Set the bit of an error register, where the detail has one. -/
def Hw.setErr (h : Hw) (f : Option Fld) : Hw :=
  match f with
  | some x => h.setFlag x true
  | none => h

/-- The physical unit that a stream's fault names: the engine, or the core for the sequencer (R380). -/
def strmUnit (k s : Nat) : Nat := if s < 4 then punitEngine k s else punitCore k

/-- A condition met by a stream of a context: the engine's error bit, the contract bit of core `eco`, and the
detection (R92, R163, R172). -/
def Hw.strmFault (h : Hw) (c lc lk s idx : Nat) (cond : Cond) (eco : Nat) : Hw :=
  match (h.ctx? c).bind (fun x => x.core? lc lk) with
  | none => h
  | some k =>
    let h1 := h.setErr (engineErr k s cond.detail)
    let h2 := h1.setErr (contractErr eco cond.detail)
    h2.raise c cond (strmUnit k s) (lunitOf lc lk s) (indexOf idx)

/-! ## Token channels (R142–R151) -/

/-- The key of a channel. -/
def chanKey (lc lk ch : Nat) : Nat := (lc * 8 + lk) * 64 + ch

/-- The declaration of a channel (R180). -/
def Image.chan? (i : Image) (lc lk ch : Nat) : Option ChanDecl :=
  i.chans.find? (fun d => d.lc == lc && d.lk == lk && d.ch == ch)

/-- A channel at the start of an epoch: its initial count, as tokens of model time 0 (R143, R167). -/
def ChanDecl.fresh (d : ChanDecl) : Chan := { tokens := List.replicate d.init 0 }

/-- The channel now. -/
def Ctx.chan (x : Ctx) (d : ChanDecl) : Chan := Tab.getD x.run.chans (chanKey d.lc d.lk d.ch) d.fresh

/-- The key of a region: its memory, logical cluster, logical core and local number (R181). -/
def regionKey (d : RegionDecl) : Nat := ((d.mem * 64 + d.lc) * 8 + d.lk) * 256 + d.loc

/-- The current owner of a region (R150). -/
def Ctx.owner (x : Ctx) (d : RegionDecl) : Owner :=
  Tab.getD x.run.owners (regionKey d) (.strm d.olc d.olk d.owner)

/-- The regions a channel hands off (R151, R182). -/
def Image.handoffs (i : Image) (lc lk ch : Nat) : List RegionDecl :=
  i.regions.filter (fun d => d.handoff.contains (lc, lk, ch))

/-- The logical core and stream that produce on a channel (R142, R180). -/
def ChanDecl.producerOf (d : ChanDecl) : Nat × Nat × Nat :=
  if d.plc = 255 then (d.lc, d.lk, d.producer) else (d.plc, d.plk, 3)

/-- Arguments of the token details (R380). -/
def chanArgs (d : ChanDecl) (n : Nat) : List Byte :=
  leBytes 1 d.ch ++ leBytes 1 d.lc ++ leBytes 1 d.lk ++ [0] ++ leBytes 2 n

/-- Put a channel back. -/
def CtxRun.putChan (r : CtxRun) (d : ChanDecl) (c : Chan) : CtxRun :=
  { r with chans := Tab.put r.chans (chanKey d.lc d.lk d.ch) c }

/-- The core whose CO_CONTRACT_ERR a channel's condition sets: the consumer's core (R172). -/
def Ctx.chanCore (x : Ctx) (d : ChanDecl) : Nat := (x.core? d.lc d.lk).getD 0

/-- Post one token of a model time to a channel by a stream at an instruction (R143, R144, R151): a full channel
discards it and faults, and a handoff channel puts its regions in transit, or faults when the poster does not own
them. -/
def Hw.post (h : Hw) (c lc lk s idx : Nat) (d : ChanDecl) (mt : Nat) : Hw :=
  match h.ctx? c with
  | none => h
  | some x =>
    let ch := x.chan d
    let hand := x.img.handoffs d.lc d.lk d.ch
    if d.depth ≤ ch.tokens.length then
      h.strmFault c lc lk s idx ⟨dTokenOverflow, chanArgs d ch.tokens.length⟩ (x.chanCore d)
    else if hand.any (fun r => x.owner r != .strm lc lk s) then
      h.strmFault c lc lk s idx ⟨dHandoff, chanArgs d ch.tokens.length⟩ ((x.core? lc lk).getD 0)
    else
      h.modRun c (fun r =>
        { r.putChan d { ch with tokens := ch.tokens ++ [mt] } with
          owners := hand.foldl (fun o g => Tab.put o (regionKey g) .transit) r.owners })

/-- Take one token of a channel by its consumer (R143, R151): the regions it hands off become the consumer's. The
answer carries the model time of the matched post (R167). -/
def CtxRun.take (r : CtxRun) (i : Image) (d : ChanDecl) : CtxRun × Nat :=
  let ch := Tab.getD r.chans (chanKey d.lc d.lk d.ch) d.fresh
  match ch.tokens with
  | [] => (r, 0)
  | t :: ts =>
    ({ r.putChan d { ch with tokens := ts } with
       owners := (i.handoffs d.lc d.lk d.ch).foldl
         (fun o g => Tab.put o (regionKey g) (.strm d.lc d.lk d.consumer)) r.owners }, t)

/-- Whether every token that a list of waits takes is there (R143): a channel named twice needs two. -/
def Ctx.tokensReady (x : Ctx) (lc lk : Nat) (ws : List Nat) : Bool :=
  ws.all (fun w =>
    match x.img.chan? lc lk w with
    | none => false
    | some d => decide (ws.count w ≤ (x.chan d).tokens.length))

end Sys2Proof.Machine
end

