-- ==== Sys2Proof/Machine/Units.lean ====
section
/-!
DEFINITION. Which physical units serve (R15, R205, R365, R370, R371, R389), die distances (R209) and HBM frames (R212):
what placement, migration, bring-up and the fault history all use.
-/
namespace Sys2Proof.Machine

/-! ## Good units (R205, R389) -/

/-- Whether a unit is good: in neither the defect map, nor SUSPECT, nor PERMANENT. -/
def Hw.unitGood (h : Hw) (punit : Nat) : Bool := !h.plu.defects.contains punit && h.unitState punit == 0

/-- Whether physical core `k` is good: its four engines, sequencer and scratchpad are (R205). -/
def Hw.coreGood (h : Hw) (k : Nat) : Bool :=
  h.unitGood (punitCore k) && (List.range 4).all (fun e => h.unitGood (punitEngine k e))

/-- The good cores of physical cluster `c`, as core numbers 0–8. -/
def Hw.goodCores (h : Hw) (c : Nat) : List Nat := (List.range 9).filter (fun j => h.coreGood (9 * c + j))

/-- The microcode version of a core's active bank (R466, R467). -/
def UCode.version (u : UCode) : Nat := if u.active = 0 then u.ver0 else u.ver1
def Hw.coreVer (h : Hw) (k : Nat) : Nat := (h.fw.ucode.getD k {}).version

/-- The good cores of a physical cluster whose active microcode bank holds a version (R467). -/
def Hw.verCores (h : Hw) (v c : Nat) : List Nat := (h.goodCores c).filter (fun j => h.coreVer (9 * c + j) == v)

/-- The bridges of *Die bridges* (R17), in order: each joins two nodes, dies 0–7, HUB-A 8 and HUB-B 9. -/
def bridgeEnds : List (Nat × Nat) :=
  [(0, 1), (1, 2), (2, 3), (4, 5), (5, 6), (6, 7), (0, 4), (1, 5), (2, 6), (3, 7), (0, 8), (3, 8), (4, 9), (7, 9)]

/-- Whether a bridge that serves joins two nodes. -/
def Hw.joined (h : Hw) (a b : Nat) : Bool :=
  bridgeEnds.zipIdx.any (fun (e, i) => !h.plu.bridgesOut.contains i && (e == (a, b) || e == (b, a)))

/-- The dies at most `n` bridge hops from die `a` (R18: traffic between dies never passes a hub). -/
def Hw.dieBall (h : Hw) (a : Nat) : Nat → List Nat
  | 0 => [a]
  | n + 1 =>
    let b := h.dieBall a n
    (List.range 8).filter (fun d => b.contains d || b.any (fun e => h.joined e d))

/-- The die distance (R209): bridge hops on the shortest route, or 255 where none is left. -/
def Hw.dieDist (h : Hw) (a b : Nat) : Nat :=
  ((List.range 8).find? (fun n => (h.dieBall a n).contains b)).getD 255

/-- Whether a die has a path over bridges to a hub (R205). -/
def Hw.hubPath (h : Hw) (d hub : Nat) : Bool := (h.dieBall d 7).any (fun e => h.joined e (8 + hub))

/-- Whether physical cluster `c` is placeable (R205). -/
def Hw.placeable (h : Hw) (c : Nat) : Bool :=
  h.plu.diesUp.contains (c / 8) && h.unitGood (punitClus c) && decide (8 ≤ (h.goodCores c).length) &&
    h.hubPath (c / 8) 0 && h.hubPath (c / 8) 1

/-- The placeable clusters. -/
def Hw.placeables (h : Hw) : List Nat := (List.range 64).filter h.placeable

/-- The stacks in service (R119), in ascending number. -/
def Hw.stacksUp (h : Hw) : List Nat := (List.range 16).filter (fun s => h.flag (Fd.HBM_STATUS.IN_SERVICE s))

/-- Whether compute service exists, apart from the conditions of management service (R370). -/
def Hw.computeOk (h : Hw) : Bool :=
  h.placeables.any (fun c => h.flag (Fd.HBM_STATUS.IN_SERVICE (c / 8 * 2)) ||
    h.flag (Fd.HBM_STATUS.IN_SERVICE (c / 8 * 2 + 1)))

/-- Rewrite PKG_RESOURCES once S6 has written it (R15, R390), and clear COMPUTE where compute service no longer exists
(R371). -/
def Hw.resources (h : Hw) : Hw :=
  if h.plu.known then
    let ps := h.placeables
    let dies := ((List.range 8).filter (fun d => ps.any (fun c => c / 8 == d))).length
    let n := h.stacksUp.length
    let h1 := h.setFld Fd.PKG_RESOURCES.GOOD_DIES dies
    let h2 := (h1.setFld Fd.PKG_RESOURCES.GOOD_HBM n).setFld Fd.PKG_RESOURCES.PLACEABLE_CL ps.length
    let h3 := h2.setFlag Fd.PKG_RESOURCES.DEGRADED (decide (ps.length < 64 ∨ n < 16))
    let h4 := h3.setFld Fd.PKG_RESOURCES.SPARES_FREE (ps.filter (fun c => (h.goodCores c).length == 9)).length
    if h.computeOk then h4 else h4.setFlag Fd.HUB_BRINGUP_STATUS.COMPUTE false
  else h

/-- Record an event that makes a unit SUSPECT and rewrite PKG_RESOURCES (R220, R390). -/
def Hw.unitEvent (h : Hw) (punit event detail job arg : Nat) : Hw := (h.suspect punit event detail job arg).resources

/-- Whether a unit belongs to a cluster (R380). -/
def punitOfClus (c p : Nat) : Bool :=
  let k := p / 2 ^ 28
  (k == 1 || k == 2 || k == 3) && bitsAt p 25 3 == c / 8 && bitsAt p 22 3 == c % 8

/-- Whether a unit belongs to a physical core. -/
def punitOfCore (k p : Nat) : Bool :=
  (p / 2 ^ 28 == 1 || p / 2 ^ 28 == 2) && punitOfClus (k / 9) p && bitsAt p 18 4 == k % 9

/-- Counting events within 30 days of the units that satisfy a test (R208, R211, R390). -/
def Hw.events30 (h : Hw) (f : Nat → Bool) : Nat :=
  (h.hist.ents.filter (fun e => f e.punit && e.counting && decide (h.histNow - e.htime < thirtyDays))).length

/-! ## Reset domains (R372, R375, R489) -/

/-- The physical clusters of a partition (R201). -/
def Hw.partClusters (h : Hw) (p : Nat) : List Nat :=
  (List.range 64).filter (fun c =>
    bitAt (h.fld (if c < 32 then Fd.PLU_PART_LO.MEMBER p else Fd.PLU_PART_HI.MEMBER p)) (c % 32))

/-- The core of a RESET_DOMAIN unit, and its cluster (R372). -/
def unitClus (u : Nat) : Nat := bitsAt u 8 3 * 8 + bitsAt u 4 3
def unitCore (u : Nat) : Nat := unitClus u * 9 + bitsAt u 0 4

/-- The clusters of a domain. -/
def Hw.domClusters (h : Hw) (d : Dom) : List Nat :=
  if d.kind = 1 then [unitClus d.unit] else if d.kind = 2 then h.partClusters d.unit else []

/-- The cores of a domain. -/
def Hw.domCores (h : Hw) (d : Dom) : List Nat :=
  if d.kind = 0 then [unitCore d.unit] else (h.domClusters d).flatMap (fun c => (List.range 9).map (fun j => 9 * c + j))

/-- Whether a cluster is in reset (R489): from the start of the drain of a domain that contains it, and while its die is
not powered. -/
def Hw.clusInReset (h : Hw) (c : Nat) : Bool :=
  !h.plu.diesUp.contains (c / 8) || h.doms.any (fun d => d.phase != .waits && (h.domClusters d).contains c)

/-- Whether a core is in reset. -/
def Hw.coreInReset (h : Hw) (k : Nat) : Bool :=
  h.clusInReset (k / 9) || h.doms.any (fun d => d.phase != .waits && (h.domCores d).contains k)

/-! ## HBM frames (R128, R129, R212) -/

/-- Every frame that is held by a context or retired, rising. -/
def Hw.takenFrames (h : Hw) : List Nat :=
  let held := h.ctxs.flatMap (fun (_, x) => ((x.host.place.map (fun p => p.pages.map Prod.snd)).getD []))
  (held ++ h.hbm.flatMap (fun (_, b) => b.retired)).foldl insNat []

/-- The lowest-numbered free frame of a stack (R213), where `taken` rises: pages 0–3 are the firmware area (R129). -/
def freeFrame (s : Nat) (taken : List Nat) : Option Nat :=
  let c := taken.foldl (fun c u => if u = c then c + 1 else c) (s * 65536 + 4)
  if c % 65536 < 40960 then some c else none

/-- Free frames of a stack in service. -/
def freeCount (s : Nat) (taken : List Nat) : Nat :=
  40956 - (taken.filter (fun u => u / 65536 == s && decide (4 ≤ u % 65536))).length

/-- The key of a page of a region (R225). -/
def pageKey (region lpn : Nat) : Nat := region * 2 ^ 24 + lpn

/-- Pages that a partition's contexts hold (R204): what PLU_PART_USED reads. -/
def Hw.partUsed (h : Hw) (p : Nat) : Nat :=
  (h.ctxs.map (fun (_, x) => if x.host.part = p then ((x.host.place.map (fun q => q.pages.length)).getD 0) else 0)).foldl
    (· + ·) 0

/-- The context that holds a physical cluster (R203). -/
def Hw.holder (h : Hw) (c : Nat) : Option (Nat × Ctx) :=
  List.find? (fun (q : Nat × Ctx) =>
    (q.2.host.place.map (fun p => p.clusters.any (fun (e : Nat × Nat) => e.2 == c))).getD false) h.ctxs

/-- The handle of a context (R332). -/
def Hw.handle (h : Hw) (c : Nat) : Nat :=
  c + 64 * ((h.ctx? c).map (fun x => x.host.gen)).getD 0

end Sys2Proof.Machine
end

