-- ==== Sys2Proof/Machine/Operands.lean ====
section
/-!
DEFINITION. Operand forms: where an operand lies (R149, R179), the checks of an access (R92, R103, R130, R150–R153,
R489), translation of HBM operands (R130–R136), reads that meet uncorrectable pieces (R100, R121), and stores.
-/
namespace Sys2Proof.Machine

/-- Where one row of an operand lies: the memory (1 scratchpad, 2 cluster memory, 3 HBM), the logical unit that holds it
(for HBM `lc` is the region), its plain offset and length, the window of cluster memory (0 plain, 1 bit-set,
2 bit-clear, R98), and its bytes as ranges of the machine's memory. -/
structure Place where
  mem : Nat
  lc : Nat
  lk : Nat
  off : Nat
  len : Nat
  win : Nat
  segs : List (Nat × Nat)
  reg : Option RegionDecl
  deriving DecidableEq, Repr

/-- Arguments of the address details (R380). -/
def memArgs (mem lc lk loc : Nat) (addr : Int) : List Byte :=
  leBytes 1 mem ++ leBytes 1 lc ++ leBytes 1 lk ++ leBytes 1 loc ++ leBytes 4 0 ++ leBytes 8 (toSigned 64 addr)

/-- The region of a scratchpad or cluster memory that holds all of [a, a + len) (R149). -/
def Image.regionAt (i : Image) (mem lc lk a len : Nat) : Option RegionDecl :=
  i.regions.find? (fun d => d.mem == mem && d.lc == lc && (mem == 2 || d.lk == lk) && decide (d.base ≤ a) &&
    decide (a + len ≤ d.base + d.size))

/-- The declaration of an HBM region (R183). -/
def Image.hbm? (i : Image) (r : Nat) : Option HbmDecl := i.hbm.find? (fun d => d.region == r)

/-- 2 MiB. -/
def pageBytes : Nat := 2 ^ 21

/-- The unit that a descriptor's kind names (*Descriptor kinds*, R179): memory, logical cluster or region, logical core. -/
def Desc.unit (d : Desc) (lc lk : Nat) : Nat × Nat × Nat :=
  match d.kind with
  | 1 => (1, lc, lk)
  | 2 => (2, lc, 0)
  | 3 => (3, d.hreg, 0)
  | 4 => (1, d.rlc, d.rlk)
  | 5 => (2, d.rlc, 0)
  | _ => (0, 0, 0)

/-- Resolve one row at an effective address (R98, R130 step 1, R149, R179): none of its bytes may be negative, outside
its memory, across windows, or outside a declared region. HBM rows get their bytes from translation. -/
def Ctx.resolve (x : Ctx) (unit : Nat × Nat × Nat) (v : Int) (len : Nat) : Except Cond Place :=
  let (mem, lc, lk) := unit
  let bad (loc : Nat) : Cond := ⟨dRegionBound, memArgs mem lc lk loc v⟩
  if v < 0 then .error (bad 255)
  else
    let a := v.toNat
    if mem = 1 then
      match x.core? lc lk, x.img.regionAt 1 lc lk a len with
      | some k, some r =>
        if a + len ≤ 2 ^ 22 then .ok ⟨1, lc, lk, a, len, 0, [(spadBase k + a, len)], some r⟩ else .error (bad 255)
      | _, _ => .error (bad 255)
    else if mem = 2 then
      let win := a / 2 ^ 25
      let p := a % 2 ^ 25
      match x.clus? lc, x.img.regionAt 2 lc 0 p len with
      | some c, some r =>
        if win < 3 ∧ p + len ≤ 2 ^ 25 then .ok ⟨2, lc, 0, p, len, win, [(cmemBase c + p, len)], some r⟩
        else .error (bad 255)
      | _, _ => .error (bad 255)
    else if mem = 3 then
      match x.img.hbm? lc with
      | some d => if a + len ≤ d.pages * pageBytes then .ok ⟨3, lc, 0, a, len, 0, [], none⟩ else .error (bad 255)
      | none => .error (bad 255)
    else .error (bad 255)

/-! ## Banks and resets (R101–R103, R489) -/

/-- The state of scratchpad bank `b` of physical core `k` (R101, R115). -/
def Hw.spadBank (h : Hw) (k b : Nat) : Nat := h.fld (Fd.CO_SPAD_PWR.BANK k (b / 16) (b % 16))

/-- The state of cluster-memory bank `b` of physical cluster `c` (R101, R115). -/
def Hw.cmemBank (h : Hw) (c b : Nat) : Nat := h.fld (Fd.CL_CMEM_PWR.BANK c (b / 16) (b % 16))

/-- Whether every bank that a row touches is ON (R103). -/
def Hw.banksOn (h : Hw) (x : Ctx) (p : Place) : Bool :=
  if p.len = 0 then true
  else
    let size := if p.mem = 1 then 2 ^ 17 else 2 ^ 20
    let first := p.off / size
    let n := (p.off + p.len - 1) / size - first + 1
    match p.mem with
    | 1 => (match x.core? p.lc p.lk with
        | some k => (List.range n).all (fun i => h.spadBank k (first + i) == 0)
        | none => false)
    | 2 => (match x.clus? p.lc with
        | some c => (List.range n).all (fun i => h.cmemBank c (first + i) == 0)
        | none => false)
    | _ => true

/-- BANK_OFF where a row touches a bank that is not ON (R103). -/
def Hw.bankCheck (h : Hw) (x : Ctx) (p : Place) : Except Cond Unit :=
  if h.banksOn x p then .ok () else .error ⟨dBankOff, memArgs p.mem p.lc p.lk ((p.reg.map (·.loc)).getD 255) p.off⟩

/-- Whether the core or cluster that holds a row is in reset (R489). -/
def Hw.rowInReset (h : Hw) (x : Ctx) (p : Place) : Bool :=
  match p.mem with
  | 1 => ((x.core? p.lc p.lk).map h.coreInReset).getD true
  | 2 => ((x.clus? p.lc).map h.clusInReset).getD true
  | _ => false

/-! ## Ownership (R150–R153) -/

/-- Whether an earlier instruction in progress of the same stream releases a region (R151): its post comes before a
write by the instruction at place `n` of the stream's instructions in progress. -/
def Ctx.released (x : Ctx) (lc lk s n : Nat) (r : RegionDecl) : Bool :=
  let st := x.run.strm (strmKey lc lk s)
  let ws := x.img.words (strmKey lc lk s)
  (st.inflight.take n).any (fun f =>
    (postsOf (ws.getD f.idx 0)).any (fun ch => (x.img.handoffs lc lk ch).contains r))

/-- Whether another stream read-holds a byte of a row (R152). -/
def Ctx.heldByOther (x : Ctx) (me : Nat) (p : Place) : Bool :=
  x.run.holds.any (fun (k, rs) => k != me &&
    rs.any (fun r => p.segs.any (fun (a, n) => overlaps r.lo r.len a n)))

/-- REGION_GUARD where a write breaks R150, R151 or R152: the stream is not the current owner of the region, has
released it earlier in its order, or the bytes are read-held by another stream. -/
def Ctx.guard (x : Ctx) (lc lk s n : Nat) (p : Place) : Except Cond Unit :=
  match p.reg with
  | none => .ok ()
  | some r =>
    if x.owner r = .strm lc lk s ∧ x.released lc lk s n r = false ∧
        x.heldByOther (strmKey lc lk s) p = false then .ok ()
    else .error ⟨dRegionGuard, memArgs p.mem p.lc p.lk r.loc p.off⟩

/-- The core whose CO_CONTRACT_ERR a guard fault sets (R172): the core that holds a scratchpad, or the physical core of
the lowest-numbered declared logical core of the cluster memory's logical cluster. -/
def Ctx.guardCore (x : Ctx) (p : Place) : Nat :=
  if p.mem = 1 then (x.core? p.lc p.lk).getD 0
  else
    match (List.range 8).find? (fun lk => x.img.hasCore p.lc lk) with
    | some lk => (x.core? p.lc lk).getD 0
    | none => 0

/-! ## Translation (R130–R136) -/

/-- Set count and set of a cache: cluster caches 0–63, hub caches 64 and 65 (R134). -/
def cacheSet (walker ctx region lpn : Nat) : Nat :=
  if walker < 64 then (lpn % 256) ^^^ region else (lpn % 64) ^^^ (region % 64) ^^^ ctx

/-- A cache. -/
def Hw.cache (h : Hw) (w : Nat) : XCache := h.xcl.getD w {}

/-- The cached translation of a page, if there is one (R134). -/
def XCache.look (x : XCache) (w ctx region lpn : Nat) : Option XEnt :=
  (x.sets.getD (cacheSet w ctx region lpn) []).find? (fun e => e.ctx == ctx && e.region == region && e.lpn == lpn)

/-- A hit makes its way the most recently used (R134). -/
def XCache.touch (x : XCache) (w ctx region lpn : Nat) : XCache :=
  let s := cacheSet w ctx region lpn
  { x with
    sets := x.sets.put s ((x.sets.getD s []).map (fun e =>
      if e.ctx == ctx && e.region == region && e.lpn == lpn then { e with used := x.clock } else e)),
    clock := x.clock + 1 }

/-- Install a translation (R134): the lowest-numbered invalid way, or else the least recently used one. -/
def XCache.fill (x : XCache) (w ctx region lpn pfn : Nat) (writable : Bool) : XCache :=
  let s := cacheSet w ctx region lpn
  let es := x.sets.getD s []
  let way := match (List.range 8).find? (fun i => !(es.any (fun e => e.way == i))) with
    | some i => i
    | none => ((es.foldl (fun (a : Option XEnt) e => match a with
        | none => some e
        | some b => if e.used < b.used then some e else some b) none).map (·.way)).getD 0
  { sets := x.sets.put s (⟨way, ctx, region, lpn, pfn, writable, x.clock⟩ :: es.filter (fun e => e.way != way)),
    walks := x.walks.filter (fun k => k != (ctx, region, lpn)), clock := x.clock + 1 }

/-- The state of a stack controller. -/
def Hw.hbmOf (h : Hw) (s : Nat) : HbmSt := h.hbm.getD s {}

/-- An uncorrectable read of a sector (R121, R124): counted, its PMA kept if the register is empty, recorded in the
history against the stack and pseudo-channel, and its page retired. -/
def Hw.hbmUe (h : Hw) (pma detail job : Nat) : Hw :=
  let s := bitsAt pma 37 4
  let h := h.satFld (Fd.HBM_ECC.UE_CNT s) 1
  let h := if h.flag (Fd.HBM_UE_ADDR_HI.VALID s) then h
    else ((h.setFld (Fd.HBM_UE_ADDR_LO.PMA_LO s) (pma / 32)).setFld (Fd.HBM_UE_ADDR_HI.PMA_HI s) (pma / 2 ^ 32)).setFlag
      (Fd.HBM_UE_ADDR_HI.VALID s) true
  let h := h.history (punitHbm pma) 9 0 detail job pma true false
  let pfn := pma / pageBytes
  if (h.hbmOf s).retired.contains pfn then h
  else
    let h := { h with hbm := h.hbm.upd s {} (fun x => { x with retired := insNat x.retired pfn }) }
    let h := h.setFld (Fd.HBM_STATUS.PAGES_RETIRED s) (h.hbmOf s).retired.length
    h.history (punitHbm pma) 10 0 0 0 pma false false

/-- Arguments of the HBM details (R380). -/
def hbmArgs (region lpn pma : Nat) : List Byte :=
  leBytes 1 region ++ leBytes 3 0 ++ leBytes 4 lpn ++ leBytes 8 pma

/-- A walk (R131, R132, R135): the nearer copy, or the other where it is uncorrectable; an entry must be valid and name
the page it is read for. The answer is the frame and whether it may be written. -/
def Hw.walk (h : Hw) (m : Mem) (job ctx region lpn w : Nat) : Hw × Except Cond (Nat × Bool) :=
  let near := (Config.nearCopy ctx region lpn w).val
  let a0 := mapAddr ctx region lpn near
  let a1 := mapAddr ctx region lpn (1 - near)
  let u0 := (m.ueIn a0 8).isSome
  let u1 := (m.ueIn a1 8).isSome
  let p0 := Config.mapPma ctx region lpn near
  let p1 := Config.mapPma ctx region lpn (1 - near)
  let h := if u0 then h.hbmUe p0 dMapUe job else h
  let h := if u0 && u1 then h.hbmUe p1 dMapUe job else h
  if u0 && u1 then (h, .error ⟨dMapUe, hbmArgs region lpn p0⟩)
  else
    let e := m.readLe (if u0 then a1 else a0) 8
    if !bitAt e 63 then (h, .error ⟨dRegionBound, memArgs 3 region 0 255 (lpn * pageBytes : Nat)⟩)
    else if bitsAt e 48 8 ≠ region ∨ bitsAt e 24 24 ≠ lpn then (h, .error ⟨dMapCorrupt, []⟩)
    else if 40960 ≤ bitsAt e 0 16 then (h, .error ⟨dPmaInvalid, []⟩)
    else (h, .ok (bitsAt e 0 20, bitAt e 62))

/-- Translate one page (R130 steps 2–4, R134, R135): a hit, or a walk that installs its entry. A cluster's cache counts its
hits and misses (R423); `master` is the requester, 0 where it is the host. -/
def Hw.translate (h : Hw) (m : Mem) (job ctx region lpn w : Nat) (master : Nat := 0) : Hw × Except Cond (Nat × Bool) :=
  let ev := fun (h : Hw) (code : Nat) =>
    if w < 64 then h.countClus w { code := code, masters := if master = 0 then [] else [master] } 1 else h
  match (h.cache w).look w ctx region lpn with
  | some e => (ev { h with xcl := h.xcl.put w ((h.cache w).touch w ctx region lpn) } 0x23, .ok (e.pfn, e.writable))
  | none =>
    let h := ev h 0x24
    match h.walk m job ctx region lpn w with
    | (h, .error e) => (h, .error e)
    | (h, .ok (pfn, wr)) =>
      ({ h with xcl := h.xcl.put w ((h.cache w).fill w ctx region lpn pfn wr) }, .ok (pfn, wr))

/-- The pieces [off, off + len) of a region, split at page boundaries (R130), as (LPN, offset in page, length). -/
def pageSplit : Nat → Nat → Nat → List (Nat × Nat × Nat)
  | 0, _, _ => []
  | fuel + 1, off, len =>
    if len = 0 then []
    else
      let o := off % pageBytes
      let n := min len (pageBytes - o)
      (off / pageBytes, o, n) :: pageSplit fuel (off + n) (len - n)

/-- Translate a row of an HBM region (R130): its bytes as ranges of memory. A write needs WRITABLE pages (R131). -/
def Hw.xlatRow (h : Hw) (m : Mem) (job ctx w : Nat) (write : Bool) (p : Place) (master : Nat := 0) :
    Hw × Except Cond Place :=
  if p.mem ≠ 3 then (h, .ok p)
  else
    let r := (pageSplit (p.len / pageBytes + 2) p.off p.len).foldl
      (fun (acc : Hw × Except Cond (List (Nat × Nat))) (lpn, o, n) =>
        match acc with
        | (h, .error e) => (h, .error e)
        | (h, .ok l) =>
          match h.translate m job ctx p.lc lpn w master with
          | (h, .error e) => (h, .error e)
          | (h, .ok (pfn, wr)) =>
            if write && !wr then (h, .error ⟨dRegionRo, memArgs 3 p.lc 0 255 p.off⟩)
            else (h, .ok (l ++ [(hbmAddr (pfn * pageBytes + o), n)])))
      (h, .ok [])
    match r with
    | (h, .error e) => (h, .error e)
    | (h, .ok l) => (h, .ok { p with segs := l })

/-! ## Reading (R100, R121) -/

/-- The bytes of a row. -/
def Mem.row (m : Mem) (p : Place) : List Byte := p.segs.flatMap (fun (a, n) => m.reads a n)

/-- The first uncorrectable piece of a row. -/
def Mem.rowUe (m : Mem) (p : Place) : Option Nat := p.segs.findSome? (fun (a, n) => m.ueIn a n)

/-- The PMA of an address of HBM. -/
def pmaOf (a : Nat) : Nat := a - 2 ^ 44

/-- An uncorrectable piece met by a read (R100, R121): the counters and address registers of the memory that holds it,
and the condition that the consumer faults with. -/
def Hw.pieceUe (h : Hw) (x : Ctx) (p : Place) (a : Nat) : Hw × Cond :=
  match p.mem with
  | 1 =>
    let k := (x.core? p.lc p.lk).getD 0
    let h := h.satFld (Fd.CO_SPAD_ECC.UE_CNT k) 1
    let h := if h.flag (Fd.CO_SPAD_UE_ADDR.VALID k) then h
      else (h.setFld (Fd.CO_SPAD_UE_ADDR.ADDR k) (a - spadBase k)).setFlag (Fd.CO_SPAD_UE_ADDR.VALID k) true
    (h, ⟨dOperandUe, memArgs 1 p.lc p.lk ((p.reg.map (·.loc)).getD 255) (a - spadBase k : Nat)⟩)
  | 2 =>
    let c := (x.clus? p.lc).getD 0
    let h := h.satFld (Fd.CL_CMEM_ECC.UE_CNT c) 1
    let h := if h.flag (Fd.CL_CMEM_UE_ADDR.VALID c) then h
      else (h.setFld (Fd.CL_CMEM_UE_ADDR.ADDR c) (a - cmemBase c)).setFlag (Fd.CL_CMEM_UE_ADDR.VALID c) true
    (h, ⟨dOperandUe, memArgs 2 p.lc 0 ((p.reg.map (·.loc)).getD 255) (a - cmemBase c : Nat)⟩)
  | _ =>
    (h.hbmUe (pmaOf a) dHbmUe x.host.job, ⟨dHbmUe, hbmArgs p.lc (p.off / pageBytes) (pmaOf a)⟩)

/-- Count the pieces that a command's reads found correctable (R100, R119, R124): the piece's own memory counts it; an
HBM page with 16 corrected sectors within 24 h is retired. -/
def Hw.corrected (h : Hw) (a : Nat) : Hw :=
  if a < 2 ^ 32 then
    let k := a / 2 ^ 22
    (h.satFld (Fd.CO_SPAD_ECC.CE_CNT k) 1).countCore k { code := 0x0A, addr := some (1, a % 2 ^ 22) } 1
  else if a < 2 ^ 33 then h.satFld (Fd.CL_CMEM_ECC.CE_CNT ((a - 2 ^ 32) / 2 ^ 25)) 1
  else if a < 2 ^ 44 then h
  else
    let pma := pmaOf a
    let s := bitsAt pma 37 4
    let pfn := pma / pageBytes
    let day := 86400000000000
    let h := h.satFld (Fd.HBM_ECC.CE_CNT s) 1
    let x := h.hbmOf s
    let cs := (pfn, h.tb) :: x.corrected.filter (fun (_, t) => decide (h.tb - t < day))
    let h := { h with hbm := h.hbm.put s { x with corrected := cs } }
    if 16 ≤ (cs.filter (fun (p, _) => p == pfn)).length ∧ x.retired.contains pfn = false then
      let h := { h with hbm := h.hbm.upd s {} (fun x => { x with retired := insNat x.retired pfn }) }
      let h := h.setFld (Fd.HBM_STATUS.PAGES_RETIRED s) (h.hbmOf s).retired.length
      h.history (punitHbm pma) 10 0 0 0 pma false false
    else h

/-- What a command's reads find (R100, R119, R120): the corrected pieces and the corrections on the die are counted; the
uncorrectable ones stay so. -/
def Hw.seen (h : Hw) (sn : Seen) : Hw :=
  sn.ode.foldl (fun h a => if a < 2 ^ 44 then h else h.satFld (Fd.HBM_ECC.ODE_CNT (bitsAt (pmaOf a) 37 4)) 1)
    (sn.ce.foldl Hw.corrected h)

/-- The memory as a command's reads see it: pieces found uncorrectable are so. -/
def Mem.seen (m : Mem) (sn : Seen) : Mem := { m with ue := sn.ue.foldl (fun u a => insNat u (pieceOf a)) m.ue }

/-- The pieces found uncorrectable, as changes to the memory. -/
def seenEdits (sn : Seen) : List Edit := sn.ue.map Edit.poison

/-! ## Whole operands -/

/-- The rows of an operand: `n` rows of `len` bytes from `v` at a stride. -/
def rowAddrs (v : Int) (n stride len : Nat) : List (Int × Nat) :=
  (List.range n).map (fun i => (v + (i * stride : Nat), len))

/-- Fold a check over rows, threading the hardware and stopping at the first condition. -/
def checkRows (f : Hw → Int × Nat → Hw × Except Cond Place) :
    Hw → List (Int × Nat) → Hw × Except Cond (List Place)
  | h, [] => (h, .ok [])
  | h, r :: rs =>
    match f h r with
    | (h, .error e) => (h, .error e)
    | (h, .ok p) =>
      match checkRows f h rs with
      | (h, .error e) => (h, .error e)
      | (h, .ok ps) => (h, .ok (p :: ps))

/-- The walker that a stream's accesses use: its cluster's cache (R134). -/
def Ctx.walker (x : Ctx) (lc : Nat) : Nat := (x.clus? lc).getD 0

/-- Who makes an access: the context, the stream and its place among the instructions in progress, and the hub whose CVE
makes it for a collective. -/
structure Who where
  c : Nat
  lc : Nat
  lk : Nat
  s : Nat
  n : Nat := 0
  hub : Option Nat := none
  deriving DecidableEq, Repr

/-- The walker of an access: the issuing cluster's cache, or a hub's for a collective (R134). -/
def Who.walker (w : Who) (x : Ctx) : Nat :=
  match w.hub with
  | some g => 64 + g
  | none => x.walker w.lc

/-- The physical core that issues an access, as the MASTER of cluster events names it (R423). -/
def Who.master (w : Who) (x : Ctx) : Nat :=
  match w.hub with
  | some _ => 10
  | none => ((x.core? w.lc w.lk).getD 0) % 9 + 1

/-- 32-byte pieces that a row touches. -/
def Place.pieces (p : Place) : Nat :=
  (p.segs.map (fun (a, n) => if n = 0 then 0 else (a + n - 1) / 32 - a / 32 + 1)).foldl (· + ·) 0

/-- Count the pieces or sectors that an access reads or writes, and the bytes that pass the NIs (R421, R423). -/
def Hw.countAccess (h : Hw) (x : Ctx) (w : Who) (p : Place) (write : Bool) : Hw :=
  let n := p.pieces
  let k := (x.core? w.lc w.lk).getD 0
  let c := k / 9
  let ni := fun (h : Hw) (t : Nat) =>
    let h := if w.hub.isSome then h
      else h.countClus c { code := if write then 0x25 else 0x26, masters := [w.master x] } n
    if t < 64 then h.countClus t { code := if write then 0x26 else 0x25, masters := [10] } n else h
  match p.mem with
  | 1 =>
    let t := (x.core? p.lc p.lk).getD 0
    let own := decide (t = k) && w.hub.isNone
    let h := h.countCore t { code := if write then 0x07 else 0x06, masters := [if own then w.s + 1 else 6],
                             addr := some (1, p.off) } n
    if w.hub.isNone && decide (t / 9 = c) then h else ni h (t / 9)
  | 2 =>
    let t := (x.clus? p.lc).getD 0
    let ms := [if decide (t = c) && w.hub.isNone then w.master x else 10]
    let h := h.countClus t { code := if write then 0x21 else 0x20, masters := ms, addr := some (2, p.off) } n
    let h := if write && decide (p.win ≠ 0) then h.countClus t { code := 0x22, masters := ms, addr := some (2, p.off) } 1
      else h
    if w.hub.isNone && decide (t = c) then h else ni h t
  | _ => ni (p.segs.foldl (fun h (a, len) =>
      h.sectors (bitsAt (pmaOf a) 37 4) write ((a + len - 1) / 32 - a / 32 + 1)) h) 64

/-- Resolve, check and read one source row (R92, R100, R103, R121, R130). -/
def Hw.srcRow (m : Mem) (x : Ctx) (w : Who) (unit : Nat × Nat × Nat) (h : Hw) (r : Int × Nat) :
    Hw × Except Cond Place :=
  match x.resolve unit r.1 r.2 with
  | .error e => (h, .error e)
  | .ok p =>
    if h.rowInReset x p then (h, .error ⟨dTargetReset, [0] ++ leBytes 1 p.lc ++ leBytes 1 p.lk⟩)
    else
      match h.bankCheck x p with
      | .error e => (h, .error e)
      | .ok _ =>
        match h.xlatRow m x.host.job w.c (w.walker x) false p (w.master x) with
        | (h, .error e) => (h, .error e)
        | (h, .ok p) =>
          match m.rowUe p with
          | some a => let (h, e) := h.pieceUe x p a; (h, .error e)
          | none => (h.countAccess x w p false, .ok p)

/-- Resolve and check one destination row (R92, R100, R103, R105, R122, R130, R131, R150–R153). -/
def Hw.dstRow (m : Mem) (x : Ctx) (w : Who) (unit : Nat × Nat × Nat) (h : Hw) (r : Int × Nat) :
    Hw × Except Cond Place :=
  match x.resolve unit r.1 r.2 with
  | .error e => (h, .error e)
  | .ok p =>
    if h.rowInReset x p then (h, .error ⟨dTargetReset, [0] ++ leBytes 1 p.lc ++ leBytes 1 p.lk⟩)
    else if p.win ≠ 0 ∧ (p.off % 4 ≠ 0 ∨ p.len % 4 ≠ 0) then
      (h, .error ⟨dAlign, memArgs p.mem p.lc p.lk ((p.reg.map (·.loc)).getD 255) r.1⟩)
    else
      match h.bankCheck x p with
      | .error e => (h, .error e)
      | .ok _ =>
        match x.guard w.lc w.lk w.s w.n p with
        | .error e => (h, .error e)
        | .ok _ =>
          match h.xlatRow m x.host.job w.c (w.walker x) true p (w.master x) with
          | (h, .error e) => (h, .error e)
          | (h, .ok p) =>
            match p.segs.findSome? (fun (a, n) => m.mergeUe a n) with
            | some a => let (h, e) := h.pieceUe x p a; (h, .error e)
            | none => (h.countAccess x w p true, .ok p)

/-- Every source row of an operand. -/
def Hw.srcRows (h : Hw) (m : Mem) (x : Ctx) (w : Who) (unit : Nat × Nat × Nat) (rs : List (Int × Nat)) :
    Hw × Except Cond (List Place) := checkRows (Hw.srcRow m x w unit) h rs

/-- Every destination row of an operand. -/
def Hw.dstRows (h : Hw) (m : Mem) (x : Ctx) (w : Who) (unit : Nat × Nat × Nat) (rs : List (Int × Nat)) :
    Hw × Except Cond (List Place) := checkRows (Hw.dstRow m x w unit) h rs

/-- The effect of an alias window on the bytes of a row (R105): bit-set ORs, bit-clear ANDs with the complement. -/
def aliasBytes (win : Nat) (old new : List Byte) : List Byte :=
  match win with
  | 1 => List.zipWith (fun o n => o ||| n) old new
  | 2 => List.zipWith (fun o n => o &&& ~~~n) old new
  | _ => new

/-- Store bytes over ranges of memory, in order. -/
def segEdits : List (Nat × Nat) → List Byte → List Edit
  | [], _ => []
  | (a, n) :: ss, bs => storeEdits a (bs.take n) ++ segEdits ss (bs.drop n)

/-- Store a row (R98, R105). -/
def rowEdits (m : Mem) (p : Place) (bs : List Byte) : List Edit := segEdits p.segs (aliasBytes p.win (m.row p) bs)

/-- Store rows in order; a later row sees the bytes that an earlier one stored. -/
def storeRows : Mem → List (Place × List Byte) → List Edit
  | _, [] => []
  | m, (p, bs) :: rs =>
    let es := rowEdits m p bs
    es ++ storeRows (if rs.all (fun q => q.1.win == 0) then m else m.edit es) rs

end Sys2Proof.Machine
end

