-- ==== Sys2Proof/Machine/Place.lean ====
section
/-!
DEFINITION. What the Placement Unit chooses (08_placement.md): clusters (R206–R210), core maps (R211), pages (R212–R215, R223)
and the pages a barrier moves (R217, R219).
-/
namespace Sys2Proof.Machine

/-- Placement statuses (*Placement statuses*). -/
def stClusters : Nat := 0x0410
def stPages : Nat := 0x0411
def stQuota : Nat := 0x0412
def stPinUnit : Nat := 0x0413
def stPinShape : Nat := 0x0118

/-! ## Clusters (R206–R210) -/

/-- The affinity total of a logical cluster (R206). -/
def Image.affTotal (i : Image) (lc : Nat) : Nat :=
  ((i.affinity.filter (fun e => e.1 == lc || e.2.1 == lc)).map (fun e => e.2.2)).foldl (· + ·) 0

/-- Insert a logical cluster into the binding order: descending affinity total, ties to the lower number. -/
def Image.insOrder (i : Image) (lc : Nat) : List Nat → List Nat
  | [] => [lc]
  | a :: t => if i.affTotal a < i.affTotal lc then lc :: a :: t else a :: i.insOrder lc t

/-- The order in which logical clusters are bound (R206). -/
def Image.bindOrder (i : Image) : List Nat := (List.range i.masks.length).foldl (fun l lc => i.insOrder lc l) []

/-- Candidates of a partition before the thermal exclusion (R207), of those with 8 good cores whose microcode is of one version
(R467): `taken` are bound by the same load. -/
def Hw.clusCands (h : Hw) (v part : Nat) (taken : List Nat) : List Nat :=
  (h.partClusters part).filter (fun c =>
    h.placeable c && decide (8 ≤ (h.verCores v c).length) && (h.holder c).isNone && !taken.contains c)

/-- The die temperature as last reported (R207), in 0.1 °C. -/
def Hw.dieTempOf (h : Hw) (d : Nat) : Int := h.thm.dieTemp.getD d 600

/-- EXCL_C, in 0.1 °C. -/
def Hw.exclT (h : Hw) : Int := (10 * h.fld Fd.PLU_CTRL.EXCL_C : Nat)

/-- Candidates after the thermal exclusion: a hot die is excluded unless no candidate remains on any other die. -/
def Hw.coolCandidates (h : Hw) (v part : Nat) (taken : List Nat) : List Nat :=
  let cs := h.clusCands v part taken
  let cool := cs.filter (fun c => decide (h.dieTempOf (c / 8) < h.exclT))
  if cool.isEmpty then cs else cool

/-- The thermal band of a die (*Cluster choice*). -/
def Hw.band (h : Hw) (d : Nat) : Nat :=
  let t := h.dieTempOf d
  if h.exclT ≤ t then 3 else if 800 ≤ t then 2 else if 700 ≤ t then 1 else 0

/-- The criteria of *Cluster choice* for a candidate, in order, each to be made least: `bound` maps the logical clusters bound
so far. -/
def Hw.criteria (h : Hw) (i : Image) (lc : Nat) (bound : Tab Nat) (c : Nat) : List Nat :=
  let cost := (i.affinity.map (fun (a, b, w) =>
    if a = lc ∧ b < 64 then (match bound.find? b with | some p => w * h.dieDist (c / 8) (p / 8) | none => 0)
    else if b = lc ∧ a < 64 then (match bound.find? a with | some p => w * h.dieDist (c / 8) (p / 8) | none => 0)
    else 0)).foldl (· + ·) 0
  let busy := ((List.range 8).filter (fun j => (h.holder (8 * (c / 8) + j)).isSome ||
    bound.any (fun (q : Nat × Nat) => q.2 == 8 * (c / 8) + j))).length
  [cost, h.band (c / 8), busy, if (h.goodCores c).length = 9 then 0 else 1, h.events30 (punitOfClus c), c]

/-- Whether one list of criteria comes before another. -/
def critLess : List Nat → List Nat → Bool
  | a :: as, b :: bs => decide (a < b) || (a == b && critLess as bs)
  | _, _ => false

/-- The best candidate (R208). -/
def Hw.bestCluster (h : Hw) (i : Image) (lc : Nat) (bound : Tab Nat) (cs : List Nat) : Option Nat :=
  cs.foldl (fun (b : Option Nat) c =>
    match b with
    | none => some c
    | some a => if critLess (h.criteria i lc bound c) (h.criteria i lc bound a) then some c else some a) none

/-- Bind the logical clusters of an image to cores of one microcode version (R206–R210, R467). -/
def Hw.bindVersion (h : Hw) (i : Image) (part v : Nat) : Except Nat (Tab Nat) :=
  if (h.clusCands v part []).length < i.masks.length then .error stClusters
  else i.bindOrder.foldl (fun (acc : Except Nat (Tab Nat)) lc =>
    match acc with
    | .error e => .error e
    | .ok t =>
      match h.bestCluster i lc t (h.coolCandidates v part (t.map Prod.snd)) with
      | some c => .ok (t.put lc c)
      | none => .error stClusters) (.ok [])

/-- The microcode version of the running bundle, which a load prefers (R467). -/
def Hw.runVersion (h : Hw) : Nat := (Config.bundleHead ((h.fw.slots.find? (h.fld Fd.HUB_FW_STATUS.RUNNING)).getD Config.factoryBundle)).ucode

/-- The versions that cores of a partition run, that of the running bundle first. -/
def Hw.versions (h : Hw) (part : Nat) : List Nat :=
  h.runVersion :: (((h.partClusters part).flatMap (fun c => (h.goodCores c).map (fun j => h.coreVer (9 * c + j)))).foldl insNat []).filter
    (fun v => v != h.runVersion)

/-- Bind the logical clusters of an image: the first version, and what it binds, that has candidates enough. -/
def Hw.bindClusters (h : Hw) (i : Image) (part : Nat) : Except Nat (Nat × Tab Nat) :=
  (h.versions part).foldl (fun (acc : Except Nat (Nat × Tab Nat)) v =>
    match acc with
    | .ok t => .ok t
    | .error e => (match h.bindVersion i part v with | .ok t => .ok (v, t) | .error _ => .error e)) (.error stClusters)

/-! ## Core maps (R211) -/

/-- The core held as the spare of a cluster with 9 good cores: the most events in 30 days, ties to the highest number. -/
def Hw.spareOf (h : Hw) (c : Nat) : Nat :=
  (List.range 9).foldl (fun b j => if h.events30 (punitOfCore (9 * c + b)) ≤ h.events30 (punitOfCore (9 * c + j)) then j else b) 0

/-- The physical cores of LK0–LK7 in a cluster, among those of a microcode version. -/
def Hw.niMap (h : Hw) (v c : Nat) : List Nat :=
  let good := h.verCores v c
  ((if good.length = 9 then good.filter (fun j => j != h.spareOf c) else good).take 8).map (fun j => 9 * c + j)

/-- The core maps of bound clusters. -/
def Hw.coreMaps (h : Hw) (v : Nat) (clusters : Tab Nat) : Tab Nat :=
  clusters.foldl (fun (t : Tab Nat) (lc, c) => (h.niMap v c).zipIdx.foldl (fun (t : Tab Nat) (k, lk) => t.put (coreKey lc lk) k) t) []

/-! ## Pages (R212–R215) -/

/-- Stacks in service by die distance from a die, ties to the lower number. -/
def Hw.stacksNear (h : Hw) (d : Nat) : List Nat :=
  (List.range 9).flatMap (fun n => h.stacksUp.filter (fun s => (h.dieDist d (s / 2) == n) || (n == 8 && decide (8 ≤ h.dieDist d (s / 2)))))

/-- The first stack of a list that has a free frame, and that frame. -/
def firstFree (taken : List Nat) (ss : List Nat) : Option (Nat × Nat) :=
  ss.findSome? (fun s => (freeFrame s taken).map (fun f => (s, f)))

/-- The pages of a logical core's streams and descriptors (R199, R213): its instructions and descriptors, packed. -/
def Image.corePages (i : Image) (lc lk : Nat) : Nat :=
  let bytes := ((List.range 5).map (fun s => 16 * (i.words (strmKey lc lk s)).length)).foldl (· + ·) 0 +
    32 * (i.descTab lc lk).length
  (bytes + pageBytes - 1) / pageBytes

/-- The page demand of an image (R212). -/
def Image.pageDemand (i : Image) : Nat :=
  (i.cores.map (fun (lc, lk) => i.corePages lc lk)).foldl (· + ·) 0 + (i.hbm.map (·.pages)).foldl (· + ·) 0

/-- The stacks where R214 puts page `n` of region `r`, in order of preference. -/
def Hw.stripe (h : Hw) (r n : Nat) : List Nat :=
  let ss := h.stacksUp
  let k := (r + n) % ss.length
  ss.drop k ++ ss.take k

/-- The home stacks of a NEAR region (R215) under a binding. -/
def Hw.homeStacks (h : Hw) (i : Image) (clusters : Tab Nat) (r : Nat) : List Nat :=
  let dies := i.affinity.filterMap (fun (a, b, _) =>
    if a = 0x100 + r ∧ b < 64 then (clusters.find? b).map (· / 8)
    else if b = 0x100 + r ∧ a < 64 then (clusters.find? a).map (· / 8) else none)
  h.stacksUp.filter (fun s => dies.contains (s / 2))

/-- The stacks for page `n` of a region, in order of preference, and the home stack where R215 assigns one. -/
def Hw.pageStacks (h : Hw) (i : Image) (clusters : Tab Nat) (d : HbmDecl) (n : Nat) : List Nat × Option Nat :=
  let hs := if d.near then h.homeStacks i clusters d.region else []
  if hs.isEmpty then (h.stripe d.region n, none)
  else
    let s := hs.getD (n % hs.length) 0
    (s :: (h.stacksNear (s / 2)).filter (fun t => t != s), some s)

/-- Pages being placed: the frames taken, where each page lies, and the displaced pages. -/
structure Paging where
  taken : List Nat
  pages : Tab Nat
  displaced : List Nat

/-- Place one page; none where no stack has a free frame. -/
def Paging.place (p : Paging) (key : Nat) (ss : List Nat) (home : Option Nat) : Option Paging :=
  match firstFree p.taken ss with
  | none => none
  | some (s, f) =>
    some { taken := insNat p.taken f, pages := p.pages.put key f,
           displaced := if home.isSome ∧ home ≠ some s then insNat p.displaced key else p.displaced }

/-- The stacks for the stream and descriptor pages of a core on die `d` (R213). -/
def Hw.coreStacks (h : Hw) (d : Nat) : List Nat :=
  let own := h.stacksUp.filter (fun s => s / 2 == d)
  own ++ (h.stacksNear d).filter (fun s => s / 2 != d)

/-- The pages of an image in the order of R213: each page's key, its stacks in order of preference, its home stack. -/
def Hw.pageOrder (h : Hw) (i : Image) (clusters : Tab Nat) : List (Nat × List Nat × Option Nat) :=
  let cores := i.cores.flatMap (fun (lc, lk) =>
    let ss := h.coreStacks ((clusters.getD lc 0) / 8)
    (List.range (i.corePages lc lk)).map (fun n => (pageKey (256 + coreKey lc lk) n, ss, none)))
  let byRegion := fun (near : Bool) => (List.range 256).flatMap (fun r =>
    match i.hbm? r with
    | some d => if d.near = near then (List.range d.pages).map (fun n =>
        let (ss, home) := h.pageStacks i clusters d n
        (pageKey r n, ss, home)) else []
    | none => [])
  cores ++ byRegion true ++ byRegion false

/-- Place every page of an image (R212–R215). -/
def Hw.bindPages (h : Hw) (i : Image) (part : Nat) (clusters : Tab Nat) : Except Nat Paging :=
  let taken := h.takenFrames
  let free := (h.stacksUp.map (fun s => freeCount s taken)).foldl (· + ·) 0
  let quota := h.fld (Fd.PLU_PART_QUOTA.MAX_PAGES part)
  if free < i.pageDemand then .error stPages
  else if quota ≠ 0 ∧ quota < h.partUsed part + i.pageDemand then .error stQuota
  else (h.pageOrder i clusters).foldl (fun (acc : Except Nat Paging) (key, ss, home) =>
    match acc with
    | .error e => .error e
    | .ok p =>
      match p.place key ss home with
      | some p => .ok p
      | none => .error stPages) (.ok ⟨taken, [], []⟩)

/-! ## Pins (R221–R223) -/

/-- The shape of an image, as a pin slot keeps it (R221). -/
def Image.shape (i : Image) : List Nat × List (Nat × Nat) := (i.masks, i.hbm.map (fun d => (d.region, d.pages)))

/-- Whether every unit and stack a pin names serves a load into a partition (R223). -/
def Hw.pinUnits (h : Hw) (p : Pin) (part : Nat) : Bool :=
  p.clusters.all (fun (q : Nat × Nat) => (h.holder q.2).isNone && (h.partClusters part).contains q.2) &&
    p.cores.all (fun (q : Nat × Nat) => h.coreGood q.2 && p.cores.all (fun (r : Nat × Nat) => h.coreVer q.2 == h.coreVer r.2)) &&
    p.hbmSet.all (fun (q : Nat × Nat) => h.stacksUp.contains q.2)

/-- Place an image as a pin recorded it (R223); the quota of the partition still holds (R204). -/
def Hw.bindPin (h : Hw) (i : Image) (part : Nat) (p : Pin) : Except Nat (Tab Nat × Tab Nat × Paging) :=
  let quota := h.fld (Fd.PLU_PART_QUOTA.MAX_PAGES part)
  if i.shape ≠ (p.masks, p.regions) then .error stPinShape
  else if h.pinUnits p part = false then .error stPinUnit
  else if quota ≠ 0 ∧ quota < h.partUsed part + p.hbmSet.length then .error stQuota
  else
    let pages := p.hbmSet.foldl (fun (acc : Except Nat Paging) (key, s) =>
      match acc with
      | .error e => .error e
      | .ok q =>
        match q.place key [s] none with
        | some q => .ok q
        | none => .error stPages) (.ok ⟨h.takenFrames, [], []⟩)
    match pages with
    | .error e => .error e
    | .ok q => .ok (p.clusters, p.cores, q)

/-! ## Map entries (R131, R132) -/

/-- The 8 bytes of a translation entry. -/
def mapEntry (region lpn pfn : Nat) (writable : Bool) : List Byte :=
  leBytes 8 (2 ^ 63 + writable.toNat * 2 ^ 62 + region * 2 ^ 48 + lpn * 2 ^ 24 + pfn)

/-- Write both copies of a page's entry (R132). -/
def mapEdits (c : Nat) (i : Image) (key pfn : Nat) : List Edit :=
  let region := key / 2 ^ 24
  let lpn := key % 2 ^ 24
  match i.hbm? region with
  | none => []
  | some d =>
    let bs := mapEntry region lpn pfn (!d.readOnly) ++ List.replicate 24 0
    storeEdits (mapAddr c region lpn 0) bs ++ storeEdits (mapAddr c region lpn 1) bs

/-- Fill a frame with zeros (R199). -/
def zeroFrame (pfn : Nat) : Edit := .clear (hbmAddr (pfn * pageBytes)) pageBytes

/-! ## Migration (R217, R219) -/

/-- The pages of a region that the Placement Unit may move, with their frames. -/
def Placement.movable (p : Placement) (i : Image) : List (Nat × HbmDecl × Nat) :=
  p.pages.filterMap (fun (key, f) =>
    match i.hbm? (key / 2 ^ 24) with
    | some d => if d.pinned then none else some (key, d, f)
    | none => none)

/-- Where a page of priority 3 goes: for NEAR another home stack without THROTTLE, for STRIPED the stack without THROTTLE that
holds the fewest pages of the region. -/
def Hw.coolStacks (h : Hw) (i : Image) (p : Placement) (d : HbmDecl) (from' : Nat) : List Nat :=
  let ok := fun s => !h.flag (Fd.HBM_STATUS.THROTTLE s)
  let hs := if d.near then h.homeStacks i p.clusters d.region else []
  if hs.isEmpty then
    let held := fun s => (p.pages.filter (fun (k, f) => k / 2 ^ 24 == d.region && f / 65536 == s)).length
    match (h.stacksUp.filter ok).foldl (fun (b : Option Nat) s =>
        match b with
        | none => some s
        | some t => if held s < held t then some s else some t) none with
    | some s => [s]
    | none => []
  else hs.filter (fun s => ok s && s != from')

/-- Candidates of a barrier in order of priority: each page's key, its frame, and the stacks it may go to (R217). -/
def Hw.moveCands (h : Hw) (i : Image) (p : Placement) : List (Nat × Nat × List Nat) :=
  let ps := p.movable i
  let one := ps.filterMap (fun (key, d, f) =>
    if (h.hbmOf (f / 65536)).retired.contains f then some (key, f, (h.pageStacks i p.clusters d (key % 2 ^ 24)).1) else none)
  let two := ps.filterMap (fun (key, d, f) =>
    if p.displaced.contains key then
      (h.pageStacks i p.clusters d (key % 2 ^ 24)).2.map (fun s => (key, f, [s])) else none)
  let three := if h.flag Fd.PLU_CTRL.THERMAL_MIGR then ps.filterMap (fun (key, d, f) =>
      if h.flag (Fd.HBM_STATUS.THROTTLE (f / 65536)) then some (key, f, h.coolStacks i p d (f / 65536)) else none) else []
  one ++ two ++ three

/-- The pages a barrier moves, at most `n` (R217): a page without a destination is skipped. -/
def chooseMoves : List (Nat × Nat × List Nat) → Nat → List Nat → List PageMove → List PageMove
  | [], _, _, acc => acc
  | (key, f, ss) :: cs, n, taken, acc =>
    if n = 0 then acc
    else if acc.any (fun m => pageKey m.region m.lpn == key) then chooseMoves cs n taken acc
    else
      match firstFree taken ss with
      | none => chooseMoves cs n taken acc
      | some (_, g) => chooseMoves cs (n - 1) (insNat taken g) (acc ++ [⟨key / 2 ^ 24, key % 2 ^ 24, f, g⟩])

/-- The migration plan of a barrier (R217, R219). -/
def Hw.movePlan (h : Hw) (x : Ctx) : List PageMove :=
  match x.host.place with
  | none => []
  | some p =>
    let budget := ((x.img.epochs[x.run.epochDesc]?).map (·.budget)).getD 0
    if p.pinned ∨ h.flag Fd.PLU_CTRL.MIGRATE_EN = false then []
    else chooseMoves (h.moveCands x.img p) (budget / pageBytes) h.takenFrames []

end Sys2Proof.Machine
end

