-- ==== Sys2Proof/Machine/Cmds.lean ====
section
/-!
DEFINITION. Host commands that were answered ACCEPTED: how they complete (R330, R331, R336), and corrections of the
timebase (R31), which several families share.
-/
namespace Sys2Proof.Machine

/-- Statuses (*Status codes*, R337). -/
def stOk : Nat := 0x0000
def stAccepted : Nat := 0x0001

/-- Complete an outstanding command (R330, R331): the completion goes to its session, and the record is kept. -/
def Hw.finish (h : Hw) (c : Cmd) (status : Nat) (p : List Nat) (payload : List Byte) : Hw :=
  let h1 := h.send c.session true c.tag c.opcode c.ctx (status :: p) payload
  { h1 with host := { h1.host with
      cmds := h1.host.cmds.erase c,
      recs := (⟨c.session, c.tag, c.opcode, c.ctx, true, status :: p⟩ :: h1.host.recs).take 8192 } }

/-- Complete every outstanding command that satisfies a test, oldest first. -/
def Hw.finishAll (h : Hw) (f : Cmd → Bool) (status : Nat) (p : List Nat) (payload : List Byte) : Hw :=
  (h.host.cmds.filter f).foldl (fun h c => h.finish c status p payload) h

/-! ## Corrections of the timebase (R31, R32) -/

/-- Correct the master timebase by a number of ns (R31), whose opposite is its measured offset from the source: up to 1 ms either
way, and any backward correction, by slewing; a larger forward correction in one step, which sets STEPPED. -/
def Hw.correctTime (h : Hw) (off : Int) : Hw :=
  let o := max (-32767) (min 32767 (-off))
  let h := h.setFld Fd.PKG_TIME_STATUS.OFFSET_NS (toSigned 16 o)
  let h := h.setFlag Fd.PKG_TIME_STATUS.LOCKED (decide (off.natAbs ≤ 1000))
  if 1000000 < off then
    { h.setFlag Fd.PKG_TIME_STATUS.STEPPED true with tb := h.tb + off.toNat, slew := 0 }
  else { h with slew := off }

/-- The selected source stopped delivering valid time (R32): holdover at the last rate. -/
def Hw.holdover (h : Hw) : Hw :=
  { (h.setFlag Fd.PKG_TIME_STATUS.SRC_LOST true).setFlag Fd.PKG_TIME_STATUS.LOCKED false with slew := 0 }

end Sys2Proof.Machine
end

