-- ==== Sys2Proof/Machine/Engine.lean ====
section
/-!
DEFINITION. What the row of an engine instruction does around its own effect: it acts on the oldest instruction in
progress of its stream whose effect has not happened, when that instruction has the row's opcode (R62, R63, R139).
-/
namespace Sys2Proof.Machine

/-- An instruction in progress whose effect is due: its context, physical core, position among the instructions in
progress, and its word. -/
structure Work where
  x : Ctx
  k : Nat
  w : Who
  fl : Infl
  word : Nat

/-- Whether the instructions in progress of a context still run: it is running, or stopped with instructions in
progress (CTX_STOP, R333), or its transfers drain (R374, R383). -/
def Ctx.executes (x : Ctx) (s : Nat) : Bool :=
  match x.host.st with
  | .running | .stopped => true
  | .faulted | .aborting => x.run.faultStep == .draining && s == 3
  | _ => false

/-- Whether accesses to a stack wait on their handshakes: it is in HOLD (R127), or REFCLK_HBM is missing (R478). -/
def Hw.stackWaits (h : Hw) (s : Nat) : Bool := h.flag (Fd.HBM_STATUS.HOLD s) || h.board.clkOut.contains 4

/-- Whether a footprint touches a page of such a stack. -/
def Hw.rangesWait (h : Hw) (x : Ctx) (rs : List Rng) : Bool :=
  rs.any (fun r => decide (0 < r.space) && decide (0 < r.len) &&
    (List.range ((r.lo + r.len - 1) / 2 ^ 21 + 1 - r.lo / 2 ^ 21)).any (fun i =>
      match x.host.place.bind (fun p => p.pages.find? (pageKey (r.space - 1) (r.lo / 2 ^ 21 + i))) with
      | some u => h.stackWaits (u / 65536)
      | none => false))

/-- The instruction that a row of opcode `opc` acts on; none where the row is not due. -/
def Hw.work (h : Hw) (r : StreamRef) (opc : Nat) : Option Work :=
  match h.ctx? r.ctx.val with
  | none => none
  | some x =>
    match x.core? r.lc.val r.lk.val with
    | none => none
    | some k =>
      let key := strmKey r.lc.val r.lk.val r.strm.val
      let st := x.run.strm key
      match st.inflight.findIdx? (fun f => !f.done) with
      | none => none
      | some n =>
        match st.inflight[n]? with
        | none => none
        | some fl =>
          let word := (x.img.words key).getD fl.idx 0
          if opcOf word = opc ∧ x.executes r.strm.val = true ∧ h.gateOpen = true ∧
              h.rangesWait x (fl.src ++ fl.dst) = false then
            some ⟨x, k, ⟨r.ctx.val, r.lc.val, r.lk.val, r.strm.val, n, none⟩, fl, word⟩
          else none

/-- Note that the effect of the instruction has happened. -/
def Hw.markDone (h : Hw) (w : Who) (f : Infl → Infl) : Hw :=
  h.modRun w.c (fun r => r.modStrm (strmKey w.lc w.lk w.s) (fun st =>
    { st with inflight := modAt st.inflight w.n (fun x => f { x with done := true }) }))

/-- The core whose CO_CONTRACT_ERR a condition of an engine sets (R172). -/
def Work.condCore (w : Work) (e : Cond) : Nat :=
  if e.detail = dRegionGuard then
    let mem := (e.args.getD 0 0).toNat
    let lc := (e.args.getD 1 0).toNat
    let lk := (e.args.getD 2 0).toNat
    w.x.guardCore ⟨mem, lc, lk, 0, 0, 0, [], none⟩
  else w.k

/-- Fault the context of an instruction (R92). -/
def Hw.workFault (h : Hw) (w : Work) (e : Cond) : Hw :=
  h.strmFault w.w.c w.w.lc w.w.lk w.w.s w.fl.idx e (w.condCore e)

/-- The effect of an instruction's row: its own effect on the hardware and memory, or the condition it meets. Nothing
happens where the row is not due. -/
def engineEff (r : StreamRef) (opc : Nat) (sn : Seen) (s : State)
    (f : Work → Mem → Hw → Hw × Except Cond (List Edit)) : Eff :=
  match s.hw.work r opc with
  | none => { hw := s.hw }
  | some w =>
    match f w (s.mem.seen sn) (s.hw.seen sn) with
    | (h, .error e) => { hw := h.workFault w e, edits := seenEdits sn }
    | (h, .ok es) => { hw := h.markDone w.w id, edits := seenEdits sn ++ es }

/-- The effect of a control instruction's row, which reads and writes no memory. -/
def controlEff (r : StreamRef) (opc : Nat) (s : State) (f : Work → Hw → Hw × Except Cond Unit) : Hw :=
  match s.hw.work r opc with
  | none => s.hw
  | some w =>
    match f w s.hw with
    | (h, .error e) => h.workFault w e
    | (h, .ok _) => h.markDone w.w id

/-- The engines of a physical core. -/
def Hw.coreOf (h : Hw) (k : Nat) : Core := h.cores.getD k {}

/-- Change the engines of a physical core. -/
def Hw.modCore (h : Hw) (k : Nat) (f : Core → Core) : Hw := { h with cores := h.cores.upd k {} f }

/-- ALIGN for an operand (R92, R380). -/
def alignCond (d : Desc) (lc lk : Nat) (v : Int) : Cond :=
  let (mem, a, b) := d.unit lc lk
  ⟨dAlign, memArgs mem a b 255 v⟩

end Sys2Proof.Machine
end

