-- ==== Sys2Proof/Machine/Fabric.lean ====
section
/-!
DEFINITION. What every fabric command uses: the two CRCs, the bytes and blocks of a packet (R242, R264, R265), the
scrambler, and the package router's choice of an output (R271–R275, R282, R284).
-/
namespace Sys2Proof.Machine

/-! ## CRCs -/

/-- CRC-32C of bytes (R264, R265): reflected, polynomial 0x1EDC6F41, initial value and final XOR all ones. -/
def crc32c (bs : List Byte) : Nat :=
  (bs.foldl (fun c b =>
    (List.range 8).foldl (fun c _ => if c % 2 = 1 then (c / 2) ^^^ 0x82F63B78 else c / 2) (c ^^^ b.toNat))
    0xFFFFFFFF) ^^^ 0xFFFFFFFF

/-- CRC-64 of ECMA-182 (R305): initial value 0, no reflection, no final XOR. -/
def crc64 (bs : List Byte) : Nat :=
  bs.foldl (fun c b =>
    (List.range 8).foldl (fun c _ =>
      if 2 ^ 63 ≤ c then (c * 2 % 2 ^ 64) ^^^ 0x42F0E1EBA9EA3693 else c * 2) (c ^^^ (b.toNat * 2 ^ 56))) 0

end Sys2Proof.Machine

namespace Sys2Proof

open Sys2Proof.Machine

/-! ## Packets (R264, R265) -/

/-- Bytes 0–27 of the header. -/
def Packet.head (p : Packet) : List Byte :=
  beBytes 2 p.dst ++ beBytes 2 p.src ++ beBytes 1 (p.tc % 4 * 64 + p.vc % 2 * 32) ++ beBytes 1 p.ptype ++
    beBytes 1 p.hops ++ beBytes 1 0 ++ beBytes 3 p.lseq ++ beBytes 1 0 ++ beBytes 2 (p.payload.length % 2 ^ 13) ++
    beBytes 2 (p.xtag % 2 ^ 14) ++ beBytes 12 p.tspec

/-- The payload with its pad. -/
def Packet.body (p : Packet) : List Byte :=
  p.payload ++ (if p.payload.length % 8 = 0 then List.replicate 4 0 else [])

/-- The bytes of a packet on the wire: HCRC and trailer as its checks say. -/
def Packet.wire (p : Packet) : List Byte :=
  let hc := crc32c p.head
  let tr := crc32c p.body
  p.head ++ beBytes 4 (if p.hcrcOk then hc else hc ^^^ 1) ++ p.body ++
    beBytes 4 (match p.trail with | .good => tr | .stomped => tr ^^^ 0xFFFFFFFF | .bad => tr ^^^ 1)

/-- The data blocks a packet fills (R264). -/
def Packet.blockCount (p : Packet) : Nat := (40 + p.body.length - 4) / 8

/-- The 64-byte credit units that one transmission costs (R270). -/
def Packet.units (p : Packet) : Nat := (p.blockCount * 8 + 63) / 64

/-- Group bytes by eight. -/
def by8 : Nat → List Byte → List (List Byte)
  | 0, _ => []
  | n + 1, bs => if bs.isEmpty then [] else bs.take 8 :: by8 n (bs.drop 8)

/-- The data blocks of a packet (R242): sync header 0b01, then 8 bytes, first byte first; the flag marks the first. -/
def Packet.dataBlocks (p : Packet) : List (Bool × Nat) :=
  (by8 520 p.wire).zipIdx.map (fun (b, i) => (i == 0, 2 ^ 64 + beNat b))

/-- Read a packet from its bytes on the wire (R264, R265). -/
def Packet.parse (bs : List Byte) : Packet :=
  let g := fun a n => beNat ((bs.drop a).take n)
  let len := g 12 2 % 2 ^ 13
  let pad := if len % 8 = 0 then 4 else 0
  let body := (bs.drop 32).take (len + pad)
  let tr := g (32 + len + pad) 4
  { dst := g 0 2, src := g 2 2, tc := bitsAt (g 4 1) 6 2, vc := bitsAt (g 4 1) 5 1, ptype := g 5 1, hops := g 6 1,
    lseq := g 8 3, xtag := g 14 2 % 2 ^ 14, tspec := g 16 12, payload := body.take len,
    hcrcOk := g 28 4 == crc32c (bs.take 28),
    trail := if tr = crc32c body then .good else if tr = crc32c body ^^^ 0xFFFFFFFF then .stomped else .bad }

/-- The bytes a packet of a given header takes on the wire. -/
def wireLen (len : Nat) : Nat := 36 + len + (if len % 8 = 0 then 4 else 0)

/-! ## Packet types (R265) -/

/-- The class and payload range of a type; none for a reserved type. -/
def typeRule (t : Nat) : Option (Nat × Nat × Nat) :=
  match t with
  | 0x01 => some (0, 32, 32)
  | 0x02 => some (0, 16, 16)
  | 0x03 => some (0, 84, 84)
  | 0x04 => some (0, 32, 32)
  | 0x10 => some (1, 4, 4096)
  | 0x11 => some (1, 4, 64)
  | 0x20 => some (2, 4, 4096)
  | 0x21 => some (2, 4, 64)
  | 0x30 => some (3, 4, 4096)
  | _ => none

/-- Whether a packet's type, class and length agree (R271). -/
def Packet.typeOk (p : Packet) : Bool :=
  match typeRule p.ptype with
  | none => false
  | some (tc, lo, hi) => p.tc == tc && decide (lo ≤ p.payload.length) && decide (p.payload.length ≤ hi)

end Sys2Proof

namespace Sys2Proof.Machine

/-! ## The scrambler 1 + x^39 + x^58 (R242) -/

/-- Scramble a 64-bit payload, most significant bit first: the result and the new state. -/
def scramble (st v : Nat) : Nat × Nat :=
  (List.range 64).foldl (fun (o, s) i =>
    let b := (v.testBit (63 - i) != s.testBit 38) != s.testBit 57
    (2 * o + b.toNat, (2 * s + b.toNat) % 2 ^ 58)) (0, st)

/-- Descramble a 64-bit payload: the result and the new state. -/
def descramble (st v : Nat) : Nat × Nat :=
  (List.range 64).foldl (fun (o, s) i =>
    let r := v.testBit (63 - i)
    let b := (r != s.testBit 38) != s.testBit 57
    (2 * o + b.toNat, (2 * s + r.toNat) % 2 ^ 58)) (0, st)

/-! ## Links and ports -/

/-- A link. -/
def Hw.link (h : Hw) (n : Nat) : Link := h.links.getD n {}

/-- Change a link. -/
def Hw.modLink (h : Hw) (n : Nat) (f : Link → Link) : Hw := { h with links := h.links.upd n {} f }

/-- States of a link (*FL_STATE*, R261). -/
def lsDisabled : Nat := 0
def lsWait : Nat := 1
def lsTraining : Nat := 2
def lsIdentify : Nat := 3
def lsUp : Nat := 4
def lsDown : Nat := 5
def lsDead : Nat := 6
def lsMiswired : Nat := 7

/-- The state of a link. -/
def Hw.linkState (h : Hw) (n : Nat) : Nat := h.fld (Fd.FL_STATE.STATE n)

/-- Whether a link is UP. -/
def Hw.isUp (h : Hw) (n : Nat) : Bool := h.linkState n == lsUp

/-- The VCQ of a class and virtual channel (R267). -/
def vcqOf (tc vc : Nat) : Nat := tc * 2 + vc

/-- Credit units in use toward a link's peer for a VCQ (R270). -/
def Link.inUse (l : Link) (q : Nat) : Nat := Tab.getD l.used q 0

/-- The credit units of one VCQ at every transition to UP (R270). -/
def vcqUnits : Nat := 3072

/-! ## Routing (R271–R275) -/

/-- The outgoing VC of a packet at a port (R275): `from` is the port and VC it arrived on, if any. -/
def Hw.outVc (h : Hw) (src : Option (Nat × Nat)) (port : Nat) : Nat :=
  if h.flag (Fd.FR_PORT_CFG.DATELINE port) then 1
  else
    match src with
    | some (n, 1) => if h.fld (Fd.FR_PORT_CFG.RING n) = h.fld (Fd.FR_PORT_CFG.RING port) then 1 else 0
    | _ => 0

/-- The candidate ports of a destination that are UP (R273, R274). -/
def Hw.candidates (h : Hw) (dst : Nat) : List Nat :=
  (List.range 24).filter (fun n => bitAt (h.fld (Fd.FR_ROUTE.PORTS dst)) n && h.isUp n)

/-- The output of a packet (R274): fewest units in use, then a port of the hub that holds it, then the lowest number. -/
def Hw.choosePort (h : Hw) (hub : Nat) (src : Option (Nat × Nat)) (p : Packet) : Option (Nat × Nat) :=
  (h.candidates p.dst).foldl (fun best n =>
    let vc := h.outVc src n
    let key := ((h.link n).inUse (vcqOf p.tc vc), if n / 12 = hub then 0 else 1)
    match best with
    | none => some (n, vc)
    | some (b, bvc) =>
      let bkey := ((h.link b).inUse (vcqOf p.tc bvc), if b / 12 = hub then 0 else 1)
      if key.1 < bkey.1 ∨ (key.1 = bkey.1 ∧ key.2 < bkey.2) then some (n, vc) else best) none

/-- Return the units of a packet that leaves a landing buffer (R270). -/
def Hw.returnUnits (h : Hw) (src : Option (Nat × Nat)) (p : Packet) : Hw :=
  match src with
  | none => h
  | some (n, q) => h.modLink n (fun l => { l with credRet := l.credRet.upd q 0 (· + p.units) })

/-- Deliver a packet to this package. -/
def Hw.deliver (h : Hw) (p : Packet) (link : Option Nat) : Hw :=
  { h with rtr := { h.rtr with deliv := h.rtr.deliv ++ [⟨p, link, h.tb⟩] } }

/-- Whether a packet is for this package (R273). -/
def Hw.isLocal (h : Hw) (dst : Nat) : Bool := dst == h.fld Fd.FR_FID.FID || h.flag (Fd.FR_ROUTE.LOCAL dst)

/-- Route a packet that a router of hub `hub` holds (R271, R273, R274, PACKET_FORWARD, PACKET_DROP): deliver it, queue
it for an output, or drop and count it. `src` is the link and VC it arrived on. -/
def Hw.routePkt (h : Hw) (hub : Nat) (src : Option (Nat × Nat)) (p : Packet) : Hw :=
  let back := src.map (fun (n, vc) => (n, vcqOf p.tc vc))
  if p.typeOk = false then (h.satFld (Fd.FR_DROP_CNT.BAD_TYPE hub) 1).returnUnits back p
  else if p.ptype = 0x01 then (h.deliver p (src.map Prod.fst)).returnUnits back p
  else if p.dst ≠ 0xFFFF ∧ h.isLocal p.dst = true then (h.deliver p (src.map Prod.fst)).returnUnits back p
  else if p.dst = 0xFFFF ∨ h.fld Fd.FR_FID.FID = 0xFFFF then
    (h.satFld (Fd.FR_DROP_CNT.NOROUTE hub) 1).returnUnits back p
  else if h.fld Fd.FR_CTRL.HOP_LIMIT ≤ p.hops then (h.satFld (Fd.FR_DROP_CNT.HOPS hub) 1).returnUnits back p
  else
    match h.choosePort hub src p with
    | none => (h.satFld (Fd.FR_DROP_CNT.NOROUTE hub) 1).returnUnits back p
    | some (n, vc) => h.modLink n (fun l => { l with queue := l.queue ++ [⟨{ p with hops := p.hops + 1 }, vc, back⟩] })

/-- Whether a packet of this package must wait (R282, R284): while the package is quiesced, or while every UP candidate
has more than THROTTLE_PCT percent of its units in use. -/
def Hw.injHeld (h : Hw) (p : Packet) : Bool :=
  if p.tc = 0 then false
  else
    h.flag Fd.FR_STATUS.QUIESCED ||
      (!(h.candidates p.dst).isEmpty && !h.isLocal p.dst &&
        (h.candidates p.dst).all (fun n =>
          decide (h.fld Fd.FR_CTRL.THROTTLE_PCT * vcqUnits < 100 * (h.link n).inUse (vcqOf p.tc (h.outVc none n)))))

/-- Inject a packet of this package at a hub (R262, R275, R282, R284): VC 0, HOPS 0. A package without a FID injects no
routed packet. -/
def Hw.inject (h : Hw) (hub : Nat) (p : Packet) : Hw :=
  if h.fld Fd.FR_FID.FID = 0xFFFF then h
  else if h.injHeld p then { h with rtr := { h.rtr with inj := h.rtr.inj ++ [p] } }
  else h.routePkt hub none p

/-- Inject what waited and may now go (R282, R285). -/
def Hw.drainInj (h : Hw) : Hw :=
  let w := h.rtr.inj
  w.foldl (fun h p => h.inject 0 p) { h with rtr := { h.rtr with inj := [] } }

/-- A packet of this package (R264, R275). -/
def Hw.packet (h : Hw) (dst tc ptype tspec : Nat) (payload : List Byte) : Packet :=
  { dst := dst, src := h.fld Fd.FR_FID.FID, tc := tc, vc := 0, ptype := ptype, hops := 0, lseq := 0, xtag := 0,
    tspec := tspec, payload := payload }

/-- The first delivered packet that satisfies a test. -/
def Hw.delivered (h : Hw) (f : Packet → Bool) : Option Deliv := h.rtr.deliv.find? (fun d => f d.p)

/-- Remove the first delivered packet that satisfies a test. -/
def Hw.undeliver (h : Hw) (f : Packet → Bool) : Hw :=
  { h with rtr := { h.rtr with deliv := h.rtr.deliv.eraseP (fun d => f d.p) } }

/-- A command that a delivered packet stands for: take the packet and act on it; nothing where there is none. -/
def Hw.onDelivered (h : Hw) (f : Packet → Bool) (g : Deliv → Hw → Hw) : Hw :=
  match h.delivered f with
  | none => h
  | some d => g d (h.undeliver f)

/-- Allocate a transaction tag with a timeout (R266): the lowest free one; none while all 16,384 are in use. -/
def Hw.takeXtag (h : Hw) (due : Nat) : Option (Nat × Hw) :=
  if 16384 ≤ h.rtr.xtags.length then none
  else
    match (List.range (h.rtr.xtags.length + 1)).find? (fun t => !(h.rtr.xtags.any (fun x => x.1 == t))) with
    | none => none
    | some t =>
      let h1 := { h with rtr := { h.rtr with xtags := h.rtr.xtags ++ [(t, due)] } }
      some (t, h1.setFld Fd.FR_STATUS.XTAG_INUSE h1.rtr.xtags.length)

/-- Free a transaction tag (R266). -/
def Hw.freeXtag (h : Hw) (t : Nat) : Hw :=
  let h1 := { h with rtr := { h.rtr with xtags := h.rtr.xtags.filter (fun x => x.1 != t) } }
  h1.setFld Fd.FR_STATUS.XTAG_INUSE h1.rtr.xtags.length

end Sys2Proof.Machine
end

