-- ==== Sys2Proof/Machine/Records.lean ====
section
/-!
DEFINITION. The fault record (R380) and the slip record (R170) as bytes, in both byte orders (R8).
-/
namespace Sys2Proof.Machine

/-- The widths of the fields of ARGS, bytes 32–63 (*Fault arguments*, R380), so that each field can be sent most
significant byte first. -/
def argLayout (detail : Nat) : List Nat :=
  if detail ∈ [dTokenOverflow, dTokenUnderflow, dTokenLeftover, dHandoff, dSizeMismatch] then [1, 1, 1, 1, 2, 2, 4, 4]
  else if detail ∈ [dRegionGuard, dRegionBound, dBankOff, dRegionRo, dAlign, dOperandUe] then [1, 1, 1, 1, 4, 8]
  else if detail ∈ [dBarMismatch, dStreamEnd] then [2, 2]
  else if detail = dTripBound then [1, 3, 4, 4]
  else if detail = dSlotRange then [2, 2, 4]
  else if detail = dPageInvalid then [4, 4, 8]
  else if detail ∈ [dAbftMismatch, dNoReplay, dAccParity] then [1, 1, 1, 1, 2]
  else if detail ∈ [dHbmUe, dMapUe] then [1, 3, 4, 8]
  else if detail ∈ [dStreamStall, dBarStall] then [1, 1, 6, 8]
  else if detail = dTargetReset then [1, 1, 1]
  else if detail / 256 = 6 then [2, 2, 1, 1, 1, 1, 2, 2, 4, 2]
  else if detail / 256 = 7 then [1, 1, 2]
  else if detail / 256 = 8 then [1]
  else if detail / 256 = 9 then [4, 4]
  else []

/-- Reverse each field of a list of bytes. -/
def swapFields : List Nat → List Byte → List Byte
  | [], bs => bs
  | w :: ws, bs => (bs.take w).reverse ++ swapFields ws (bs.drop w)

/-- A fault record as bytes; `be` gives the order of YCP messages and fabric packets (R8, R380). -/
def FaultRec.bytes (r : FaultRec) (be : Bool) : List Byte :=
  let n := fun k v => if be then beBytes k v else leBytes k v
  n 8 r.tb ++ n 2 r.job ++ n 1 r.ctx ++ n 1 r.cls ++ n 2 r.detail ++ n 1 r.flags ++ n 1 r.more ++ n 4 r.punit ++
    n 4 r.lunit ++ n 4 r.index ++ n 2 r.originFid ++ n 2 0 ++
    (if be then swapFields (argLayout r.detail) (padArgs r.args) else padArgs r.args)

/-- Read a fault record from the bytes of a Squall (R386). -/
def FaultRec.ofWire (bs : List Byte) : FaultRec :=
  let g := fun a k => beNat ((bs.drop a).take k)
  ⟨g 0 8, g 8 2, g 10 1, g 11 1, g 12 2, g 14 1, g 15 1, g 16 4, g 20 4, g 24 4, g 28 2,
    swapFields (argLayout (g 12 2)) ((bs.drop 32).take 32)⟩

/-- A signed field that saturates, as its two's complement. -/
def satSigned (w : Nat) (i : Int) : Nat :=
  toSigned w (max (-(2 ^ (w - 1) - 1)) (min (2 ^ (w - 1) - 1) i))

/-- A slip record as bytes (R8, R170). -/
def SlipRec.bytes (r : SlipRec) (be : Bool) : List Byte :=
  let n := fun k v => if be then beBytes k v else leBytes k v
  n 4 r.epochSeq ++ n 2 r.epochDesc ++ n 1 r.lc ++ n 1 r.lk ++ n 4 (min r.modelSteps 0xFFFFFFFF) ++ n 4 r.pace ++
    n 8 r.measuredNs ++ n 8 (toSigned 64 r.slipNs) ++
    ((List.range 5).flatMap (fun i => n 4 (satSigned 32 (r.streamSlip.getD i 0)))) ++
    n 1 r.flags ++ List.replicate 3 0 ++ n 8 r.endTb

end Sys2Proof.Machine
end

