-- ==== Sys2Proof/Machine/Groups.lean ====
section
/-!
DEFINITION. The group table as the other chapters use it (R288–R290, R296), the release of a context's collectives (R290,
R313), and Squalls (R385, R386).
-/
namespace Sys2Proof.Machine

/-! ## Entries (R288, R290, R296) -/

/-- The state of an entry that registers do not hold. -/
def Hw.grp (h : Hw) (g : Nat) : Grp := h.cve.grps.getD g {}

/-- Change it. -/
def Hw.modGrp (h : Hw) (g : Nat) (f : Grp → Grp) : Hw := { h with cve := { h.cve with grps := h.cve.grps.upd g {} f } }

/-- Whether an entry is valid and not fenced. -/
def Hw.groupLive (h : Hw) (g : Nat) : Bool := h.flag (Fd.CVE_GRP_W1.VALID g) && !h.flag (Fd.CVE_GRP_W1.FENCED g)

/-- The entry that a received GID and GEN name (R290, R298). -/
def Hw.groupOf (h : Hw) (gid gen : Nat) : Option Nat :=
  (List.range 1024).find? (fun g => h.groupLive g && h.fld (Fd.CVE_GRP_W0.GID g) == gid &&
    h.fld (Fd.CVE_GRP_W1.GEN g) == gen)

/-- The CVE of an entry before admission (R288): code 0b10 counts as HUB-A. -/
def Hw.groupCve (h : Hw) (g : Nat) : Nat := if h.fld (Fd.CVE_GRP_W1.CVE g) = 1 then 1 else 0

/-- The base of a group (R296): the oldest SEQ in progress in the order of the numbers, which wrap, or else one more than the last
finished. -/
def Hw.groupBase (h : Hw) (g : Nat) : Nat :=
  match (h.cve.colls.filter (fun c => c.grp == g)).map (·.seq) with
  | s :: ss => ss.foldl (fun a b => if (b + 2 ^ 16 - a) % 2 ^ 16 < 32768 then a else b) s
  | [] =>
    match (h.grp g).last with
    | some s => (s + 1) % 2 ^ 16
    | none => 0

/-- Whether a SEQ is current (R296). -/
def Hw.seqCurrent (h : Hw) (g s : Nat) : Bool := decide ((s + 2 ^ 16 - h.groupBase g) % 2 ^ 16 < 32768)

/-! ## Release (R290, R313) -/

/-- Release a context's collectives, channels, slots and staging parts, and its entries (R290, R313): an end by HALT
unbinds them with base 0, and any other end fences them and discards what waits. -/
def Hw.releaseColls (h : Hw) (ctx : Nat) (fence : Bool) : Hw :=
  let gs := (List.range 1024).filter (fun g => h.flag (Fd.CVE_GRP_W1.BOUND g) && h.fld (Fd.CVE_GRP_W3.CTX g) == ctx)
  let h := { h with cve := { h.cve with colls := h.cve.colls.filter (fun c => c.ctx != ctx) } }
  gs.foldl (fun h g =>
    let h := (h.setFlag (Fd.CVE_GRP_W1.BOUND g) false).setFld (Fd.CVE_GRP_W3.CTX g) 0
    if fence then
      (h.setFlag (Fd.CVE_GRP_W1.FENCED g) true).modGrp g (fun x => { x with last := none, pool := [] })
    else h.modGrp g (fun x => { x with last := none })) h

/-! ## Squall (R385, R386) -/

/-- The hub whose complex holds AUTH (R339); the last holder's while none does. -/
def Hw.holderHub (h : Hw) : Nat := h.fld Fd.CPX_AUTH.HOLDER

/-- One pass of a Squall (R386): one unicast copy to each recipient in ascending FID. -/
def Hw.squallPass (h : Hw) (peers : List Nat) (payload : List Byte) : Hw :=
  peers.foldl (fun h f => h.inject h.holderHub (h.packet f 0 0x03 0 payload)) h

/-- The payload of a Squall (R386). -/
def Hw.squallPayload (h : Hw) (r : FaultRec) : List Byte :=
  beBytes 2 r.job ++ beBytes 2 (h.fld Fd.FR_FID.FID) ++ beBytes 4 (h.squall.seq % 2 ^ 32) ++ beBytes 8 r.tb ++
    r.bytes true ++ beBytes 1 (h.fld Fd.PKG_TIME_STATUS.LOCKED) ++ List.replicate 3 0

/-- Send a Squall (R385, R386, R336): the first pass at once, two more to come, counted, reported and logged. -/
def Hw.sendSquall (h : Hw) (r : FaultRec) (handle : Nat) (peers : List Nat) : Hw :=
  let pl := h.squallPayload r
  let h := { h with squall := { h.squall with
    seq := h.squall.seq + 1, active := h.squall.active ++ [(⟨peers, pl, 2, h.tb + 100000⟩ : SquallTx)] } }
  let h := (h.squallPass peers pl).satFld Fd.PKG_SQUALL_STATUS.SENT 1
  h.event 0x7F04 handle [r.job] (r.bytes true)

end Sys2Proof.Machine
end

