-- ==== Sys2Proof/Machine/Pace.lean ====
section
/-!
DEFINITION. The programmed pace of the clusters and what follows from it (R27, R28, R398–R402): the limits of *Pace limits*,
the offer of an agreement, the voltage rule, and the rate at which steps are issued.
-/
namespace Sys2Proof.Machine

/-! ## Voltage (R398, R399) -/

/-- Natural speed at Tj 60 °C at 550, 600, … 850 mV, in M-steps/s (*Pace against voltage*). -/
def naturalTable : List Nat := [950, 1120, 1310, 1500, 1680, 1850, 2000]

/-- Fifty times the natural speed at Tj 60 °C, interpolated between rows. -/
def natural50 (mv : Nat) : Nat :=
  let i := min 5 ((mv - 550) / 50)
  let lo := naturalTable.getD i 0
  let hi := naturalTable.getD (i + 1) 0
  50 * lo + (hi - lo) * (mv - 550 - 50 * i)

/-- Whether a voltage reaches a pace (R398, R399): derated at the die temperature in FREE mode; at 95 °C and with a margin
of 2% otherwise. -/
def voltOk (pace : Nat) (temp : Int) (fixed : Bool) (mv : Nat) : Bool :=
  let t : Nat := if fixed then 950 else (max 600 temp).toNat
  decide (pace * 50 * 35000 * 100 ≤ natural50 mv * (35000 - 4 * (t - 600)) * (if fixed then 98 else 100))

/-- The lowest voltage that meets the rule, or 850 mV (R399). -/
def pickVolt (pace : Nat) (temp : Int) (fixed : Bool) : Nat :=
  (((List.range 31).map (fun i => 550 + 10 * i)).find? (voltOk pace temp fixed)).getD 850

/-! ## Limits (R400–R402, R405, R410, R411, R415) -/

/-- The programmed pace of a cluster now. -/
def Hw.progOf (h : Hw) (c : Nat) : Nat := h.pwr.prog.getD c 1500

/-- SAFE_PACE. -/
def Hw.safePace (h : Hw) : Nat := h.fld Fd.THM_CTRL.SAFE_PACE

/-- Whether DEGR_PACE limits a die (R411). -/
def Hw.degraded (h : Hw) (d : Nat) : Bool :=
  h.reg (Reg.THM_SENSOR_FAIL d) != 0 || h.thm.coolFault || h.fld Fd.PKG_LEAK.STATE == 4

/-- The entries of a table at a key, as limits under a code. -/
def limitOf (code : Nat) (t : Tab Nat) (k : Nat) : List (Nat × Nat) :=
  match t.find? k with
  | some v => [(code, v)]
  | none => []

/-- Limits 0x0 and 0x2–0x7 of a cluster (*Pace limits*), as (code, pace). -/
def Hw.baseLimits (h : Hw) (c : Nat) : List (Nat × Nat) :=
  let d := c / 8
  [(0, h.fld (Fd.PWR_DIE_PACE.PROG_MSTEPS d))] ++ limitOf 2 h.pwr.capLim c ++ limitOf 3 h.pwr.preset c ++
    limitOf 4 h.pwr.loopLim d ++ limitOf 4 h.pwr.hbmLim d ++
    (if h.degraded d then [(5, h.fld Fd.THM_CTRL.DEGR_PACE)] else []) ++
    (if bitAt (h.fld (Fd.THM_SENSOR_STATE.SAFE d)) (c % 8) || h.thm.reopenTb.isSome ||
        h.flag (Fd.HBM_STATUS.HOLD (2 * d)) || h.flag (Fd.HBM_STATUS.HOLD (2 * d + 1)) then [(6, h.safePace)] else []) ++
    limitOf 7 h.pwr.hw95 c ++ (match Tab.find? h.pwr.fast c with | some (v, _) => [(7, v)] | none => [])

/-- The lowest of some limits. -/
def lowest (l : List (Nat × Nat)) : Nat := (l.map Prod.snd).foldl min 2000

/-- The clusters that an agreement covers (R401). -/
def Hw.covered (h : Hw) (a : Agree) : List Nat :=
  (List.range 64).filter (fun c =>
    match h.holder c with
    | some (_, x) => x.host.job == h.fld (Fd.CVE_GRP_W0.JOB a.grp)
    | none => false)

/-- A package's offer (R401); none without a covered cluster. -/
def Hw.offer (h : Hw) (a : Agree) : Option Nat :=
  match h.covered a with
  | [] => none
  | cs => some ((cs.map (fun c => lowest (h.baseLimits c))).foldl min 1880)

/-- The agreement that covers a cluster. -/
def Hw.agreeOf (h : Hw) (c : Nat) : Option Agree := (h.pwr.agrees.map Prod.snd).find? (fun a => (h.covered a).contains c)

/-- Every limit of a cluster: 0x1 holds it at the lower of the agreed pace and the offer (R402), and a closed gate issues no
steps (R415). -/
def Hw.limits (h : Hw) (c : Nat) : List (Nat × Nat) :=
  h.baseLimits c ++
    (match h.agreeOf c with
      | none => []
      | some a => (match a.agreed with
          | some v => [(1, min v ((h.offer a).getD v))]
          | none => [])) ++
    (if h.flag Fd.THM_STATUS.GATE then [(8, 0)] else [])

/-- The code that decided (R400): the highest of those equal to the lowest. -/
def Hw.decided (h : Hw) (c : Nat) : Nat :=
  let l := h.limits c
  ((l.filter (fun p => p.2 == lowest l)).map Prod.fst).foldl max 0

/-! ## Issue (R27, R28) -/

/-- Note something about a cluster's epoch in the context that holds it. -/
def Hw.noteEpoch (h : Hw) (c : Nat) (f : CtxRun → Nat → CtxRun) : Hw :=
  match h.holder c with
  | none => h
  | some (id, x) =>
    match (x.host.place.bind (fun p => List.find? (fun (q : Nat × Nat) => q.2 == c) p.clusters)) with
    | some (lc, _) => h.modRun id (fun r => f r lc)
    | none => h

/-- Set the rate of steps of a cluster: the lower of the programmed pace and the natural speed (R27), nothing while its die
is not powered or the gate is closed. -/
def Hw.reissue (h : Hw) (c : Nat) : Hw :=
  if h.plu.diesUp.contains (c / 8) then
    let prog := h.progOf c
    let nat := h.fld (Fd.PWR_CL_PACE.NATURAL_MSTEPS c)
    let lim := decide (nat < prog)
    let h1 := (h.setIssued c (min prog nat)).setFlag (Fd.PWR_CL_PACE.NAT_LIMITED c) lim
    if lim then h1.noteEpoch c (fun r lc => { r with natLimited := insNat r.natLimited lc }) else h1
  else h.setIssued c 0

/-- Give a cluster its programmed pace (R400), a multiple of 10 (R398): a change is noted in the epoch that sees it (R170). -/
def Hw.repaceClus (h : Hw) (c : Nat) : Hw :=
  let v := lowest (h.limits c) / 10 * 10
  if v = h.progOf c then h
  else
    let h1 : Hw := { h with pwr := { h.pwr with prog := Tab.set h.pwr.prog c 1500 v } }
    (h1.noteEpoch c (fun r lc => { r with paceChanged := insNat r.paceChanged lc })).reissue c

/-- The status of a die after its clusters have their paces: the highest pace, the limit that decided it, the mode and the
voltage (R398–R400, R415). -/
def Hw.repaceDie (h : Hw) (d : Nat) : Hw :=
  let cs := (List.range 8).map (fun c => 8 * d + c)
  let top := (cs.map h.progOf).foldl max 0
  let who := (cs.find? (fun c => h.progOf c == top)).getD (8 * d)
  let agree := cs.any (fun c => (h.agreeOf c).isSome)
  let fixed := h.pwr.fixed.contains d
  let mv := if h.flag Fd.THM_STATUS.GATE then 550 else pickVolt top (h.thm.dieTemp.getD d 600) (fixed || agree)
  let h1 := h.setFld (Fd.PWR_DIE_STATUS.PACE_MSTEPS d) top
  let h2 := (h1.setFld (Fd.PWR_DIE_STATUS.LIMIT d) (h.decided who)).setFld (Fd.PWR_DIE_STATUS.VDD_MV d) mv
  h2.setFld (Fd.PWR_DIE_STATUS.MODE d) (if agree then 2 else if fixed then 1 else 0)

/-- Give every cluster of the powered dies its pace, and every powered die its voltage (R399, R400). -/
def Hw.repace (h : Hw) : Hw :=
  h.plu.diesUp.foldl Hw.repaceDie
    (((List.range 64).filter (fun c => h.plu.diesUp.contains (c / 8))).foldl Hw.repaceClus h)

end Sys2Proof.Machine
end

