-- ==== Sys2Proof/Machine/Slip.lean ====
section
/-!
DEFINITION. Slip (R169–R171): the slip records of a context, the slip ring in HBM, and the latest records.
-/
namespace Sys2Proof.Machine

/-- A quotient rounded to nearest, ties to even (R169, assumption 20). -/
def divRound (n d : Nat) : Nat :=
  let q := n / d
  let r := n % d
  if 2 * r < d then q else if d < 2 * r then q + 1 else q + q % 2

/-- LUNIT that names no stream (R380). -/
def lunitNone : Nat := 7 * 2 ^ 20

/-- The model arrival of a stream: of its BAR or HALT, or how far its model has come while it has not arrived. -/
def Stream.modelNow (s : Stream) : Nat := if s.arrival = .none then s.mRetire else s.arriveModel

/-- The slip record of a logical core (R169, R170). Streams that have not arrived count as of this moment. -/
def Hw.slipOf (h : Hw) (x : Ctx) (lc lk : Nat) (faulted : Bool) : SlipRec :=
  let r := x.run
  let ss := (List.range 5).map (fun s => r.strm (strmKey lc lk s))
  let c := (x.clus? lc).getD 0
  let model := (ss.map Stream.modelNow).foldl max 0
  let ends := ss.map (fun s => if s.arrival = .none then h.tb else s.arriveTb)
  let endTb := ends.foldl max 0
  let pace := r.epochPace.getD lc 1500
  let ns := endTb - r.epochTb
  let steps := ss.map (fun s =>
    ((if s.arrival = .none then h.steps c else s.arriveSteps) : Int) - (r.epochSteps.getD lc 0 : Nat) - (s.modelNow : Nat))
  let sat := decide (0xFFFFFFFF < model) || steps.any (fun i => decide (2 ^ 31 - 1 < i.natAbs))
  { epochSeq := r.epochSeq, epochDesc := r.epochDesc, lc := lc, lk := lk, modelSteps := min model 0xFFFFFFFF, pace := pace,
    measuredNs := ns, slipNs := (ns : Int) - (divRound (model * 1000) pace : Nat), streamSlip := steps,
    flags := (r.natLimited.contains lc).toNat + 2 * (r.paceChanged.contains lc).toNat + 4 * sat.toNat + 8 * faulted.toNat,
    endTb := endTb }

/-- The records of every logical core, in ascending LC and LK (R170). -/
def Hw.slipRecs (h : Hw) (x : Ctx) (faulted : Bool) : List SlipRec :=
  x.img.cores.map (fun (lc, lk) => h.slipOf x lc lk faulted)

/-- Write one record at the ring's position through the cache of its core's cluster (R171). -/
def Hw.slipWrite (h : Hw) (m : Mem) (c : Nat) (x : Ctx) (region pages pos : Nat) (r : SlipRec) :
    Hw × Except Cond (List Edit) :=
  let off := pos % (pages * pageBytes / 64) * 64
  match h.xlatRow m x.host.job c (x.walker r.lc) true ⟨3, region, 0, off, 64, 0, [], none⟩ with
  | (h, .error e) => (h, .error e)
  | (h, .ok p) => (h, .ok (segEdits p.segs (r.bytes false)))

/-- Write records into the slip ring in order, up to the first that a walk cannot place: the changes, how many were
written, and the condition that stopped them (R171). -/
def Hw.slipRing (m : Mem) (c : Nat) (x : Ctx) (region pages : Nat) :
    Hw → Nat → List SlipRec → Hw × List Edit × Nat × Option Cond
  | h, _, [] => (h, [], 0, none)
  | h, pos, r :: rs =>
    match h.slipWrite m c x region pages pos r with
    | (h, .error e) => (h, [], 0, some e)
    | (h, .ok es) =>
      let (h, es', n, e) := Hw.slipRing m c x region pages h (pos + 1) rs
      (h, es ++ es', n + 1, e)

/-- The epoch's length, its barrier-to-barrier time and their difference, converted at the lowest programmed pace among the
context's clusters at its start (R171). -/
def CtxRun.epochDiff (r : CtxRun) (len endTb : Nat) : CtxRun :=
  let pace := (r.epochPace.map Prod.snd).foldl min 2000
  let ns := endTb - r.epochTb
  { r with modelLen := len, measuredNs := ns, diffNs := (ns : Int) - (divRound (len * 1000) pace : Nat) }

/-- Write the slip records of a barrier, a context's end or a fault (R170, R171): into the context state always, and into
the slip region where there is one. A walk that fails faults the context, or counts in MORE once it has faulted. -/
def Hw.writeSlips (h : Hw) (m : Mem) (c : Nat) (faulted : Bool) : Hw × List Edit :=
  match h.ctx? c with
  | none => (h, [])
  | some x =>
    let recs := h.slipRecs x faulted
    let h := h.modRun c (fun r =>
      { r with slips := recs.foldl (fun t q => Tab.put t (coreKey q.lc q.lk) q) r.slips })
    match x.img.decl.slip.bind x.img.hbm? with
    | none => (h, [])
    | some d =>
      let (h, es, n, e) := Hw.slipRing m c x d.region d.pages h x.run.slipPos recs
      let h := h.modRun c (fun r => { r with slipPos := (x.run.slipPos + n) % (d.pages * pageBytes / 64) })
      match e with
      | none => (h, es)
      | some e => (h.raise c e 0 lunitNone 0, es)

end Sys2Proof.Machine
end

