-- ==== Sys2Proof/Machine/Release.lean ====
section
/-!
DEFINITION. Banks that lose power (R101, R104, R111), engine state that is cleared (R64), and the release of everything a
context holds (R383, R104, R136, R200, R290, R313, R319), which its end, its fault and its abort share.
-/
namespace Sys2Proof.Machine

/-! ## Banks (R93, R98, R101, R104, R107, R111) -/

/-- Bank `b` of the scratchpad of physical core `k`: its first byte in the machine's memory. -/
def spadBankAt (k b : Nat) : Nat := spadBase k + b * 2 ^ 17

/-- Bank `b` of the cluster memory of physical cluster `c`. -/
def cmemBankAt (c b : Nat) : Nat := cmemBase c + b * 2 ^ 20

/-- The bank under a region test in a cluster, as its first byte (R107); none for trace SRAM. -/
def Bgt.bank (t : Bgt) (c : Nat) : Option Nat :=
  if t.locked then
    if t.region < 9216 then some (spadBankAt (9 * c + t.region / 1024) (t.region % 1024 / 32))
    else if t.region < 17408 then some (cmemBankAt c ((t.region - 9216) / 256))
    else none
  else none

/-- Set the state of a scratchpad bank (R101). -/
def Hw.setSpadBank (h : Hw) (k b code : Nat) : Hw := h.setFld (Fd.CO_SPAD_PWR.BANK k (b / 16) (b % 16)) code

/-- Set the state of a cluster-memory bank. -/
def Hw.setCmemBank (h : Hw) (c b code : Nat) : Hw := h.setFld (Fd.CL_CMEM_PWR.BANK c (b / 16) (b % 16)) code

/-- The state of the bank that begins at an address. -/
def Hw.bankCode (h : Hw) (a : Nat) : Nat :=
  if a < 2 ^ 32 then h.spadBank (a / 2 ^ 22) (a % 2 ^ 22 / 2 ^ 17)
  else h.cmemBank ((a - 2 ^ 32) / 2 ^ 25) (a % 2 ^ 25 / 2 ^ 20)

/-- Set it. -/
def Hw.setBank (h : Hw) (a code : Nat) : Hw :=
  if a < 2 ^ 32 then h.setSpadBank (a / 2 ^ 22) (a % 2 ^ 22 / 2 ^ 17) code
  else h.setCmemBank ((a - 2 ^ 32) / 2 ^ 25) (a % 2 ^ 25 / 2 ^ 20) code

/-- Bytes of the bank that begins at an address. -/
def bankLen (a : Nat) : Nat := if a < 2 ^ 32 then 2 ^ 17 else 2 ^ 20

/-- The cluster of the bank that begins at an address. -/
def bankOwner (a : Nat) : Nat := if a < 2 ^ 32 then a / 2 ^ 22 / 9 else (a - 2 ^ 32) / 2 ^ 25

/-- Turn a bank OFF: its contents are lost (R101, R104). A bank under test goes OFF after the unlock (R111). -/
def Hw.bankOff (h : Hw) (a : Nat) : Hw × List Edit :=
  let c := bankOwner a
  if ((h.clusOf c).bgt.bank c) = some a then
    (h.modClus c (fun x => { x with bgt := { x.bgt with pend := x.bgt.pend.put a 2 } }), [])
  else (h.setBank a 2, [.clear a (bankLen a)])

/-- Give a bank the state that an epoch declares (R102): one that is to be ON and is not wakes; RET and OFF follow at once; a
bank under test waits for the unlock (R111). -/
def Hw.bankTo (h : Hw) (a code : Nat) : Hw × List Edit :=
  let c := bankOwner a
  if ((h.clusOf c).bgt.bank c) = some a then
    (h.modClus c (fun x => { x with bgt := { x.bgt with pend := x.bgt.pend.put a code } }), [])
  else if code = 2 then (h.setBank a 2, [.clear a (bankLen a)])
  else if code = 1 then (h.setBank a 1, [])
  else if h.bankCode a = 0 then (h, [])
  else (h.setBank a 3, [])

/-- Turn banks OFF in order. -/
def Hw.banksOff (h : Hw) (as : List Nat) : Hw × List Edit :=
  as.foldl (fun (acc : Hw × List Edit) a =>
    let (h, es) := acc.1.bankOff a
    (h, acc.2 ++ es)) (h, [])

/-- The banks of a physical core, and of a physical cluster's memory. -/
def coreBanks (k : Nat) : List Nat := (List.range 32).map (spadBankAt k)
def clusBanks (c : Nat) : List Nat := (List.range 32).map (cmemBankAt c)

/-! ## Engines (R64, R77) -/

/-- Clear the engine state of a core (R64); a retry in progress is abandoned and recorded as unresolved (R77). -/
def Hw.clearEngines (h : Hw) (k job : Nat) : Hw :=
  let h := [0, 1].foldl (fun (h : Hw) e =>
    if ((h.coreOf k).mxe0.retrying && e == 0) || ((h.coreOf k).mxe1.retrying && e == 1) then
      h.unitEvent (punitEngine k e) 3 dAbftMismatch job 0 else h) h
  let h : Hw := { h with cores := h.cores.drop k }
  ((h.setReg (Reg.MXE_TILE k 0) 0).setReg (Reg.MXE_TILE k 1) 0).setReg (Reg.VXE_FPFLAGS k) 0

/-! ## Translations (R136) -/

/-- Invalidate the cached entries that satisfy a test, in every cache. -/
def Hw.invalidate (h : Hw) (f : XEnt → Bool) : Hw :=
  { h with xcl := h.xcl.map (fun (w, x) => (w, { x with sets := x.sets.map (fun (s, es) => (s, es.filter (fun e => !f e))) })) }

/-! ## Contexts -/

/-- Release the physical resources of a context (R200, R383): engines cleared, banks OFF, translations and maps gone,
collectives and RoCEv2 bindings released, and the placement with its pages. -/
def Hw.releaseCtx (h : Hw) (c : Nat) (fence : Bool) : Hw × List Edit :=
  match h.ctx? c with
  | none => (h, [])
  | some x =>
    let p := x.host.place
    let h := if x.run.bar = .migrating then h.setFlag Fd.PLU_STATUS.MIGRATING false else h
    let cores := x.img.cores.filterMap (fun (lc, lk) => x.core? lc lk)
    let cls := (p.map (fun q => q.clusters.map Prod.snd)).getD []
    let h := cores.foldl (fun h k => h.clearEngines k x.host.job) h
    let (h, es) := h.banksOff (cores.flatMap coreBanks ++ cls.flatMap clusBanks)
    let h := h.invalidate (fun e => e.ctx == c)
    let h : Hw := { h with xcl := h.xcl.map (fun (w, t) => (w, { t with walks := t.walks.filter (fun q => q.1 != c) })) }
    let h := h.releaseColls c fence
    let h : Hw := { h with rdma := { h.rdma with
      mrs := h.rdma.mrs.filter (fun b => b.ctx != c),
      qps := h.rdma.qps.map (fun q => if (q.ring.map (·.ctx)) = some c then { q with ring := none } else q) } }
    let h := h.modCtx c (fun x =>
      { host := { x.host with place := none },
        run := { x.run with streams := [], chans := [], owners := [], holds := [], bar := .none, moves := [] } })
    let h : Hw := { h with pwr := { h.pwr with
      preset := h.pwr.preset.filter (fun q => !cls.contains q.1),
      capLim := h.pwr.capLim.filter (fun q => !cls.contains q.1) } }
    (h.repace, if p.isSome then es ++ [.clear (mapAddr c 0 0 0) (256 * 2 ^ 24 * 64)] else es)

/-- The fault history of a context's fault against the unit concerned (R389, R392): an ABFT fault against its engine, and
OPERAND_UE against the core or cluster whose memory held the piece. HBM events were recorded when they were met. -/
def Hw.faultHistory (h : Hw) (x : Ctx) (r : FaultRec) : Hw :=
  if r.cls = 2 then h.unitEvent r.punit 2 r.detail r.job 0
  else if r.detail = dOperandUe then
    let lc := (r.args.getD 1 0).toNat
    let off := leNat ((r.args.drop 8).take 8)
    if (r.args.getD 0 0).toNat = 1 then
      match x.core? lc (r.args.getD 2 0).toNat with
      | some k => h.unitEvent (punitCore k) 2 r.detail r.job off
      | none => h
    else
      match x.clus? lc with
      | some d => h.unitEvent (punitClus d) 2 r.detail r.job off
      | none => h
  else h

end Sys2Proof.Machine
end

