-- ==== Sys2Proof/Machine/Faults.lean ====
section
/-!
DEFINITION. Faults after their detection (16_faults.md): the fault sequence (R382, R383, R388), Squalls (R385–R387), drains
(R374), checks of units and the fault history (R389–R392, R488).
-/
namespace Sys2Proof.Machine

/-! ## Stream states (R172, R388) -/

/-- The state of a stream, as CO_SEQ_STATE codes it. -/
def Ctx.strmState (x : Ctx) (lc lk s : Nat) : Nat :=
  let st := x.run.strm (strmKey lc lk s)
  let w := (x.img.words (strmKey lc lk s)).getD st.pc 0
  match x.host.st with
  | .faulted => 7
  | .stopped => 6
  | .running | .aborting =>
    (match st.arrival with
      | .bar _ => 4
      | .halt => 5
      | .none =>
        if !st.inflight.isEmpty then (if st.waiting then 3 else 1)
        else if x.host.st = .running ∧ nwaitOf w ≠ 0 ∧ x.tokensReady lc lk (waitsOf w) = false then 2
        else if st.waiting then 3 else 1)
  | _ => 0

/-- The index of the oldest instruction that has not retired, or of the BAR or HALT at which the stream waits (R172). -/
def Stream.oldest (s : Stream) : Nat :=
  match s.inflight with
  | f :: _ => f.idx
  | [] => s.pc

/-! ## Capture (R388) -/

/-- The part of a capture that describes a logical core. -/
def Ctx.captureCore (x : Ctx) (lc lk : Nat) : List Byte :=
  if x.img.hasCore lc lk then
    ((List.range 5).flatMap (fun s =>
      let st := x.run.strm (strmKey lc lk s)
      leBytes 8 (st.oldest % 2 ^ 24 + x.strmState lc lk s * 2 ^ 24 +
        (((st.loops.head?.map (·.iter)).getD 0) % 2 ^ 24) * 2 ^ 32))) ++
      ((List.range 64).map (fun ch =>
        match x.img.chan? lc lk ch with
        | some d => BitVec.ofNat 8 (x.chan d).tokens.length
        | none => 0)) ++
      leBytes 4 x.run.epochSeq ++ List.replicate 148 0
  else List.replicate 256 0

/-- The 4,096 bytes of a capture (*Capture layout*). -/
def Ctx.capture (x : Ctx) (r : FaultRec) (lc tb : Nat) : List Byte :=
  r.bytes false ++ leBytes 8 tb ++ List.replicate 56 0 ++ ((List.range 8).flatMap (x.captureCore lc)) ++
    List.replicate 1920 0

/-- Where a capture lies in the trace SRAM of a cluster. -/
def captureAt (c : Nat) : Nat := traceBase c + 0x3F000

/-- Write the capture of one cluster (R388, R433): an earlier one is overwritten and counted, and sampling stops. -/
def Hw.captureClus (h : Hw) (x : Ctx) (r : FaultRec) (lc c : Nat) : Hw × List Edit :=
  let h := if h.flag (Fd.TRC_CAPTURE_CTRL.VALID c) then h.satFld (Fd.TRC_CAPTURE_CTRL.OVERWRITTEN c) 1 else h
  let h := h.setFlag (Fd.TRC_CAPTURE_CTRL.VALID c) true
  let h := if (h.clusOf c).samp.armed then
      (h.setFlag (Fd.TRC_SAMPLE_STATUS.SAMPLE_LOST c) true).setFlag (Fd.TRC_SAMPLE_STATUS.ARMED c) false
    else h
  (h.modClus c (fun k => { k with samp := { k.samp with armed := false } }), storeEdits (captureAt c) (x.capture r lc h.tb))

/-- Whether a region test holds the part of a trace SRAM that captures use (R111). -/
def Hw.captureLocked (h : Hw) (c : Nat) : Bool := (h.clusOf c).bgt.locked && (h.clusOf c).bgt.region == 17471

/-- Write the captures of every powered cluster bound to a context. -/
def Hw.captures (h : Hw) (x : Ctx) (r : FaultRec) : Hw × List Edit :=
  ((((x.host.place.map (fun p => p.clusters)).getD []).filter (fun q => h.plu.diesUp.contains (q.2 / 8)))).foldl (fun (acc : Hw × List Edit) (lc, c) =>
    let (h, es) := acc.1.captureClus x r lc c
    (h, acc.2 ++ es)) (h, [])

/-! ## Domains that wait (R372, R374, R376) -/

/-- The clusters whose background tests a domain waits for. -/
def Hw.domTests (h : Hw) (d : Dom) : List Nat := if d.kind = 0 then [unitClus d.unit] else h.domClusters d

/-- Whether a domain's reset may proceed: its contexts are gone and no region test holds a region in it. -/
def Hw.domReady (h : Hw) (d : Dom) : Bool :=
  (h.domClusters d).all (fun c => (h.holder c).isNone) && (h.domTests d).all (fun c =>
    let b := (h.clusOf c).bgt
    !b.locked || (d.kind == 0 && (decide (9216 ≤ b.region) || b.region / 1024 != unitCore d.unit % 9)))

/-- Domains that wait and may proceed begin to drain. -/
def Hw.domsAdvance (h : Hw) : Hw :=
  { h with doms := h.doms.map (fun d =>
      if d.phase == .waits && h.domReady d then { d with phase := .drains, drainTb := h.tb } else d) }

/-! ## Reset of a context (R374, R383) -/

/-- Transfers that a context has issued and that have not completed: its TXE instructions in progress whose effect has not
happened, collectives apart (R374, R383). -/
def Ctx.transfers (x : Ctx) : Nat :=
  (x.img.cores.map (fun (lc, lk) =>
    ((x.run.strm (strmKey lc lk 3)).inflight.filter (fun f => !f.done && f.coll.isNone)).length)).foldl (· + ·) 0

/-- Complete the commands of a context that its abort ends (R330, R333, R335): CTX_ABORT with OK, the others as aborted. -/
def Hw.abortDone (h : Hw) (hd : Nat) : Hw :=
  let h := h.finishAll (fun k => k.ctx == hd && (k.opcode == 0x0302 || k.opcode == 0x0303)) 0x0304 [] []
  h.finishAll (fun k => k.ctx == hd && k.opcode == 0x0304) stOk [] []

/-- The drain of a context is over (R374, R383): what it holds is released. A faulted context keeps its handle, its record
and its latest slip records; an aborted one is gone. -/
def Hw.endDrain (h : Hw) (c : Nat) : Hw × List Edit :=
  match h.ctx? c with
  | none => (h, [])
  | some x =>
    let hd := h.handle c
    let (h, es) := h.releaseCtx c true
    if x.host.st = .aborting then (({ h with ctxs := h.ctxs.drop c }.abortDone hd).domsAdvance, es)
    else (h.modRun c (fun r => { r with faultStep := .done }), es)

/-- Start the drain of a context, which ends at once where nothing is in flight. -/
def Hw.startDrain (h : Hw) (c : Nat) : Hw × List Edit :=
  match h.ctx? c with
  | none => (h, [])
  | some x =>
    let h := h.modRun c (fun r => { r with faultStep := .draining, drainTb := h.tb })
    if x.transfers = 0 then h.endDrain c else (h, [])

/-! ## CONTEXT_FAULT (R382–R385) -/

/-- Steps 5 and 6 of *Fault sequence*: the Squall, the log, EVT_FAULT, the completions and the history entry. -/
def Hw.reportFault (h : Hw) (c : Nat) (x : Ctx) (r : FaultRec) : Hw :=
  let hd := h.handle c
  let h := match x.run.squallTo with
    | some ps => h.sendSquall r hd ps
    | none => h
  let h := h.log 0 logFault r.detail (r.bytes true)
  let h := h.event 0x7F01 hd [r.cls] (r.bytes true)
  let h := h.finishAll (fun k => k.ctx == hd && k.opcode == 0x0302) 0x0502 [r.cls] (r.bytes true)
  let h := h.finishAll (fun k => k.ctx == hd && k.opcode == 0x0303) 0x0502 [] []
  h.faultHistory x r

/-- The record with SQUALL_SENT set where a Squall goes out (R380, R385). -/
def CtxRun.markSquall (r : CtxRun) : CtxRun :=
  if r.squallTo.isSome then { r with fault := r.fault.map (fun q => { q with flags := q.flags ||| 2 }) } else r

/-- The fault sequence of a context from step 3 on, which waits for a complex that holds AUTH (R382). -/
def faultEff (c : Nat) (h : Hw) (m : Mem) : Hw × List Edit :=
  match (h.modRun c CtxRun.markSquall).ctx? c with
  | none => (h, [])
  | some x =>
    match x.run.fault with
    | none => (h, [])
    | some r =>
      if h.flag Fd.CPX_AUTH.HELD = true ∧ (x.host.st = .faulted ∨ x.host.st = .aborting) ∧ x.run.faultStep = .detected ∧
          ((x.host.place.map (fun p => p.clusters.all (fun q => !h.captureLocked q.2))).getD true) = true then
        let h := h.modRun c CtxRun.markSquall
        let (h, es1) := h.captures x r
        let (h', es2) := { h with tb := x.run.faultTb }.writeSlips m c true
        let h : Hw := { h' with tb := h.tb }
        let h := h.reportFault c x r
        let (h, es3) := h.startDrain c
        (h, es1 ++ es2 ++ es3)
      else (h, [])

/-- A condition that firmware detects while it acts for a context: FW_INTERNAL with its code (R379, R380). -/
def fwCond (code : BitVec 32) : Cond := ⟨0x0903, leBytes 4 0 ++ leBytes 4 code.toNat⟩

/-- CONTEXT_FAULT (R382): the sequence that follows the detection of a fault; `fw` is a firmware condition that this command
itself detects. -/
def contextFaultEff (ctx : Fin 64) (fw : Option (BitVec 32)) (s : State) : Eff :=
  let h := match fw with
    | some code => s.hw.raise ctx.val (fwCond code) (punitHub s.hw.holderHub 0) lunitNone 0
    | none => s.hw
  let (h, es) := faultEff ctx.val h s.mem
  { hw := h, edits := es }
/-- CONTEXT_FAULT (R382). -/
def execContextFault (ctx : Fin 64) (fw : Option (BitVec 32)) (s : State) : Res := done s (contextFaultEff ctx fw s)

/-- Fault every resident context for THERMAL or POWER: each has its own record with the same TB (R381). -/
def Hw.faultAll (h : Hw) (cond : Cond) : Hw :=
  ((h.ctxs.filter (fun q => q.2.resident)).map Prod.fst).foldl (fun h c => h.raise c cond 0 lunitNone 0) h

/-! ## Squalls (R386, R387) -/

/-- A further pass of the oldest Squall whose pass is due. -/
def squallPassHw (h : Hw) : Hw :=
  match h.squall.active.find? (fun q => decide (q.due ≤ h.tb)) with
  | none => h
  | some q =>
    let h1 := h.squallPass q.peers q.payload
    { h1 with squall := { h1.squall with active := h1.squall.active.flatMap (fun p =>
        if p = q then (if p.left ≤ 1 then [] else [{ p with left := p.left - 1, due := h.tb + 100000 }]) else [p]) } }
/-- SQUALL_PASS (R386). -/
def execSquallPass (s : State) : Res := keep s (squallPassHw s.hw)

/-- Whether a received Squall faults a context (R387). -/
def squallHits (locked : Bool) (job originTb : Nat) (x : Ctx) : Bool :=
  x.host.job == job && (x.host.st == .running || x.host.st == .stopped) &&
    (!locked || decide (x.host.startTb < originTb))

/-- Fault one context because of a Squall (R387). -/
def Hw.squallFault (h : Hw) (c : Nat) (r : FaultRec) (origin : Nat) : Hw :=
  h.modCtx c (fun x =>
    { host := { x.host with st := .faulted },
      run := { x.run with
        fault := some { r with tb := h.tb, job := x.host.job, ctx := c, flags := 1, more := 0, originFid := origin },
        faultStep := .detected, faultTb := h.tb, squallTo := none } })

/-- A received Squall, first copy (R387). -/
def Hw.squallIn (h : Hw) (pl : List Byte) : Hw :=
  let g := fun a k => beNat ((pl.drop a).take k)
  let job := g 0 2
  let fid := g 2 2
  let seq := g 4 4
  let seen := h.squall.seen.filter (fun (_, _, t) => decide (h.tb - t < 10000000000))
  if seen.any (fun (f, q, _) => f == fid && q == seq) then h
  else
    let r := FaultRec.ofWire ((pl.drop 16).take 64)
    let h : Hw := { h with squall := { h.squall with seen := ((fid, seq, h.tb) :: seen).take 256 } }
    let h := h.satFld Fd.PKG_SQUALL_STATUS.RECEIVED 1
    let h := (h.log 0 logFault r.detail (r.bytes true)).event 0x7F04 0xFFFF [job] (r.bytes true)
    let locked := bitAt (g 80 1) 0 && h.flag Fd.PKG_TIME_STATUS.LOCKED
    let hits := (h.ctxs.filter (fun q => squallHits locked job (g 8 8) q.2)).map Prod.fst
    let old := (h.ctxs.filter (fun q => q.2.host.job == job && q.2.host.st == .faulted)).map Prod.fst
    let h := old.foldl (fun h c => h.modRun c (fun q =>
      { q with fault := q.fault.map (fun f => { f with more := satAdd f.more 1 255 }) })) h
    let h := hits.foldl (fun h c => h.squallFault c r fid) h
    if hits.isEmpty then h.satFld Fd.PKG_SQUALL_STATUS.STALE 1 else h

/-- The effect of a delivered SQUALL packet. -/
def squallReceiveHw (h : Hw) : Hw := h.onDelivered (fun p => p.ptype == 0x03) (fun d h => h.squallIn d.p.payload)
/-- SQUALL_RECEIVE (R387). -/
def execSquallReceive (s : State) : Res := keep s (squallReceiveHw s.hw)

/-! ## Drains (R374, R383) -/

/-- Clear the error registers of a core (R372). -/
def Hw.clearErrs (h : Hw) (k : Nat) : Hw :=
  [Reg.MXE_ERR k 0, Reg.MXE_ERR k 1, Reg.VXE_ERR k, Reg.TXE_ERR k, Reg.CO_CONTRACT_ERR k].foldl
    (fun h a => h.setReg a (regReset a)) h

/-- What the reset of a core clears (*Reset domains*): engine state, banks and error registers. -/
def Hw.clearCore (h : Hw) (k : Nat) : Hw × List Edit := (((h.clearEngines k 0).clearErrs k)).banksOff (coreBanks k)

/-- What the reset of a cluster clears besides its cores: its banks, its cache, its trace SRAM with captures and
sampling. -/
def Hw.clearClus (h : Hw) (c : Nat) : Hw × List Edit :=
  let h : Hw := { h with xcl := h.xcl.drop c }
  let h := h.modClus c (fun x => { x with samp := {} })
  let h := (h.setReg (Reg.TRC_CAPTURE_CTRL c) 0).setReg (Reg.TRC_SAMPLE_STATUS c) 0
  let (h, es) := h.banksOff (clusBanks c)
  (h, es ++ [.clear (traceBase c) (2 ^ 18)])

/-- Fold an operation that edits memory over units. -/
def foldEff (f : Hw → Nat → Hw × List Edit) (h : Hw) (ks : List Nat) : Hw × List Edit :=
  ks.foldl (fun (acc : Hw × List Edit) k => let (h, es) := f acc.1 k; (h, acc.2 ++ es)) (h, [])

/-- Change the reset of a domain. -/
def Hw.modDom (h : Hw) (kind unit : Nat) (f : Dom → Dom) : Hw :=
  { h with doms := h.doms.map (fun d => if d.kind == kind && d.unit == unit then f d else d) }

/-- The drain of a domain is over: it is cleared and its KAR runs (R372, R373). -/
def Hw.domDrained (h : Hw) (kind unit : Nat) : Hw × List Edit :=
  match h.doms.find? (fun d => d.kind == kind && d.unit == unit && d.phase == .drains) with
  | none => (h, [])
  | some d =>
    let h := h.modDom kind unit (fun d => { d with phase := .kar })
    let (h, es1) := foldEff Hw.clearCore h (h.domCores d)
    let (h, es2) := foldEff Hw.clearClus h (h.domClusters d)
    (h, es1 ++ es2)

/-- All transfers out of a context or domain have completed. -/
def drainDoneEff (w : DrainRef) (s : State) : Eff :=
  match w with
  | .ctx c =>
    if (s.hw.ctx? c.val).any (fun x => x.run.faultStep == .draining) then
      let (h, es) := s.hw.endDrain c.val
      { hw := h, edits := es }
    else { hw := s.hw }
  | .dom k u => let (h, es) := s.hw.domDrained k.val u.toNat; { hw := h, edits := es }
/-- DOMAIN_DRAIN_DONE (R374). -/
def execDomainDrainDone (w : DrainRef) (s : State) : Res := done s (drainDoneEff w s)

/-- Count abandoned transfers and log them (R374). -/
def Hw.abandoned (h : Hw) (what n : Nat) : Hw :=
  (h.satFld Fd.HUB_RESET_STATUS.ABANDONED n).logNote logState 0x0374 what n

/-- 100 µs after the start of a drain: what is incomplete is abandoned (R374). `n` is how many transfers out of a domain have
not completed. -/
def drainTimeoutEff (w : DrainRef) (n : BitVec 16) (s : State) : Eff :=
  let h := s.hw
  match w with
  | .ctx c =>
    match h.ctx? c.val with
    | some x =>
      if x.run.faultStep = .draining ∧ x.run.drainTb + 100000 ≤ h.tb then
        let (h, es) := (h.abandoned c.val x.transfers).endDrain c.val
        { hw := h, edits := es }
      else { hw := h }
    | none => { hw := h }
  | .dom k u =>
    match h.doms.find? (fun d => d.kind == k.val && d.unit == u.toNat && d.phase == .drains) with
    | some d =>
      if d.drainTb + 100000 ≤ h.tb then
        let (h, es) := (h.abandoned (64 + k.val * 4096 + u.toNat) n.toNat).domDrained k.val u.toNat
        { hw := h, edits := es }
      else { hw := h }
    | none => { hw := h }
/-- DRAIN_TIMEOUT (R374). -/
def execDrainTimeout (w : DrainRef) (n : BitVec 16) (s : State) : Res := done s (drainTimeoutEff w n s)

/-! ## Checks of units (R390) -/

/-- Whether a context is resident on a unit. -/
def Hw.occupied (h : Hw) (punit : Nat) : Bool :=
  h.ctxs.any (fun (_, x) =>
    match x.host.place with
    | none => false
    | some p => (p.clusters.any (fun (_, c) => punit == punitClus c)) ||
        (x.img.cores.any (fun (lc, lk) => match x.core? lc lk with
          | some k => punitOfCore k punit
          | none => false)))

/-- The outcome of a unit's check (R390): PERMANENT when it fails or the unit holds 3 counting events within 30 days, GOOD
otherwise; PKG_RESOURCES is rewritten. -/
def Hw.unitChecked (h : Hw) (punit : Nat) (pass : Bool) : Hw :=
  let bad := !pass || decide (3 ≤ h.hist.counting h.histNow punit)
  let h := h.history punit (if pass then 6 else 5) (if bad then 2 else 0) 0 0 0 false bad
  ({ h with hist := { h.hist with units := h.hist.units.mod punit (fun u => { u with checking := false }) } } : Hw).resources

/-- The check of a SUSPECT unit with no resident context completes. -/
def unitCheckHw (punit : BitVec 32) (pass : Bool) (h : Hw) : Hw :=
  let p := punit.toNat
  if (h.hist.units.getD p {}).checking = true ∧ h.unitState p = 1 ∧ h.occupied p = false then h.unitChecked p pass else h
/-- UNIT_CHECK (R390). -/
def execUnitCheck (punit : BitVec 32) (pass : Bool) (s : State) : Res := keep s (unitCheckHw punit pass s.hw)

/-- Entries older than 30 days leave the history, unless they made their unit PERMANENT (R391). -/
def historyExpiryHw (h : Hw) : Hw :=
  let ents := h.hist.ents.filter (fun e => e.madePerm || decide (h.histNow - e.htime ≤ thirtyDays))
  ({ h with hist := { h.hist with ents := ents } } : Hw).setFld Fd.PKG_FH_STATUS.ENTRIES ents.length
/-- HISTORY_EVENT_EXPIRY (R391). -/
def execHistoryEventExpiry (s : State) : Res := keep s (historyExpiryHw s.hw)

/-- History time is saved (R488). -/
def historySaveHw (h : Hw) : Hw := { h with hist := { h.hist with savedHtime := h.histNow } }
/-- HISTORY_TIME_SAVE (R488). -/
def execHistoryTimeSave (s : State) : Res := keep s (historySaveHw s.hw)

end Sys2Proof.Machine
end

