-- ==== Sys2Proof/Machine/Mxe.lean ====
section
/-!
DEFINITION. The matrix engine (03_engines.md, *Matrix engine*): SETFMT, LOADB and its staging, MMA and MMAZ with the
checksum row and column (R72, R73), DRAIN with its check, retry and conversion (R68, R74–R76, R491), and CHKRD (R78).
-/
namespace Sys2Proof.Machine

/-- Engine `e` (0 MXE0, 1 MXE1) of a core. -/
def Core.mxe (c : Core) (e : Nat) : Mxe := if e = 0 then c.mxe0 else c.mxe1

/-- Change engine `e` of physical core `k`. -/
def Hw.modMxe (h : Hw) (k e : Nat) (f : Mxe → Mxe) : Hw :=
  h.modCore k (fun c => if e = 0 then { c with mxe0 := f c.mxe0 } else { c with mxe1 := f c.mxe1 })

/-- Engine `e` of physical core `k`. -/
def Hw.mxeOf (h : Hw) (k e : Nat) : Mxe := (h.coreOf k).mxe e

/-- SETFMT (R70). -/
def setfmtMxe (w : Nat) (m : Mxe) : Mxe :=
  { m with aFmt := bitsAt w 88 4, bFmt := bitsAt w 84 4, oFmt := bitsAt w 80 4, rnd := bitAt w 79,
           nonsat := bitAt w 78, tol := bitsAt w 72 6 }

/-- The effect of SETFMT. -/
def setfmtEff (r : StreamRef) (s : State) : Hw :=
  controlEff r 0x10 s (fun w h => (h.modMxe w.k w.w.s (setfmtMxe w.word), .ok ()))

/-- SETFMT (R70): sets the formats, RND, OVF and TOL for the instructions that follow. -/
def execSetfmt (r : StreamRef) (s : State) : Res := keep s (setfmtEff r s)

/-! ## Operands -/

/-- What a LOADB, MMA or MMAZ names (R66, R69, *MXE layouts*): addresses of A, B and their scale arrays, strides and K. -/
structure MmaOps where
  a : Int
  b : Int
  sa : Int
  sb : Int
  da : Desc
  db : Desc
  dsa : Option Desc
  dsb : Option Desc
  k : Nat

/-- The descriptor that stands where an image check has admitted one. -/
def noDesc : Desc := ⟨0, 0, 0, 0, 0, 0, []⟩

/-- The operands of an MMA, MMAZ or LOADB with their effective addresses (R179). -/
def Work.mmaOps (w : Work) : MmaOps :=
  let i := w.x.img
  let d := fun n => i.desc? w.w.lc w.w.lk n
  let da := (d (bitsAt w.word 80 12)).getD noDesc
  let db := (d (bitsAt w.word 68 12)).getD noDesc
  let dsa := d (bitsAt w.word 56 12)
  let dsb := d (bitsAt w.word 44 12)
  let v := fun (o : Option Desc) => (o.map (fun q => q.value w.fl.iters)).getD 0
  { a := da.value w.fl.iters, b := db.value w.fl.iters, sa := v dsa, sb := v dsb, da := da, db := db, dsa := dsa,
    dsb := dsb, k := 32 * (bitsAt w.word 33 11 + 1) }

/-- What a LOADB stages: the operands it names and the formats in force (R69). -/
def MmaOps.staged (o : MmaOps) (m : Mxe) (steps : Nat) : Staged :=
  ⟨o.a, o.b, o.sa, o.sb, o.da.stride, o.db.stride, m.aFmt, m.bFmt, o.k, steps, false⟩

/-- Whether staged heads serve an MMA: the same addresses, strides and formats (R69). -/
def Staged.serves (t : Staged) (o : MmaOps) (m : Mxe) : Bool :=
  t.a == o.a && t.b == o.b && t.sa == o.sa && t.sb == o.sb && t.strideA == o.da.stride && t.strideB == o.db.stride &&
    t.fa == m.aFmt && t.fb == m.bFmt

/-- The effect of LOADB: staging starts, replacing any earlier one (R69). -/
def loadbEff (r : StreamRef) (s : State) : Hw :=
  controlEff r 0x11 s (fun w h =>
    (h.modMxe w.k w.w.s (fun m => { m with staged := some (w.mmaOps.staged m w.fl.startSteps) }), .ok ()))

/-- LOADB (R69). -/
def execLoadb (r : StreamRef) (s : State) : Res := keep s (loadbEff r s)

/-- Staging completes 64 steps after the LOADB issued (R69). -/
def stagingEff (r : StreamRef) (s : State) : Hw :=
  match (s.hw.ctx? r.ctx.val).bind (fun x => x.core? r.lc.val r.lk.val) with
  | none => s.hw
  | some k =>
    match (s.hw.mxeOf k r.strm.val).staged with
    | some t =>
      if t.complete = false ∧ t.issueSteps + 64 ≤ s.hw.steps (k / 9) then
        s.hw.modMxe k r.strm.val (fun m => { m with staged := some { t with complete := true } })
      else s.hw
    | none => s.hw

/-- LOADB_STAGING_DONE (R69). -/
def execLoadbStagingDone (r : StreamRef) (s : State) : Res := keep s (stagingEff r s)

/-! ## Accumulation (R44–R47, R66, R72, R73) -/

/-- Bytes of `n` elements of a format. -/
def Fmt.bytes (f : Fmt) (n : Nat) : Nat := n * f.bits / 8

/-- The values of a row of elements with its block scales (R36–R40): block b of 32 elements has scale byte b. -/
def rowVals (f : Fmt) (n : Nat) (bytes : List Byte) (scales : List Byte) : List Val :=
  let x := leNat bytes
  (List.range n).map (fun i =>
    let v := f.decode (bitsAt x (i * f.bits) f.bits)
    if f.isMx then scaleVal (scales.getD (i / 32) 0).toNat v else v)

/-- Add the products of a row and a column, ascending k (R47). -/
def Ewa.dot (x : Ewa) (a b : List Val) : Ewa := (List.zipWith Val.mul a b).foldl Ewa.add x

/-- The exact sum of values, as the operand sums of R72 form it. -/
def sumVals (l : List Val) : Val := l.foldl (fun a v => (a.add v).1) (.fin false 0 0)

/-- A sum rounded to a 48-bit significand with an unbounded exponent, and whether rounding changed it (R72). -/
def round48 (v : Val) : Val × Bool :=
  match v with
  | .fin n m e =>
    if m < 2 ^ 48 then (v, false)
    else
      let k := Nat.log2 m - 47
      let (q, inex) := roundShift .rne m k
      (.fin n q (e + k), inex)
  | _ => (v, false)

/-- The transpose of rows into `n` columns. -/
def columns (n : Nat) (rows : List (List Val)) : List (List Val) :=
  (List.range n).map (fun k => rows.map (fun r => r.getD k (.fin false 0 0)))

/-- Multiply A (128 rows of K) by B (64 columns of K) into the accumulators and the checksum row and column (R66, R72,
R73). -/
def Mxe.multiply (m : Mxe) (k : Nat) (a b : List (List Val)) : Mxe :=
  let eA := (columns k a).map (fun c => round48 (sumVals c))
  let bE := (columns k b).map (fun c => round48 (sumVals c))
  let eAv := eA.map Prod.fst
  let bEv := bE.map Prod.fst
  { m with
    acc := (List.range 8192).map (fun n => (m.acc.getD n Ewa.clear).dot (a.getD (n / 64) []) (b.getD (n % 64) [])),
    chkRow := (List.range 64).map (fun j => (m.chkRow.getD j Ewa.clear).dot eAv (b.getD j [])),
    chkCol := (List.range 128).map (fun i => (m.chkCol.getD i Ewa.clear).dot (a.getD i []) bEv),
    sumLost := m.sumLost || eA.any Prod.snd || bE.any Prod.snd }

/-- The cleared accumulation (R45, R491): data and checksum accumulators, SUM_LOST and the replay list. -/
def Mxe.clearAcc (m : Mxe) : Mxe :=
  { m with acc := [], chkRow := [], chkCol := [], sumLost := false, replay := [], replayOvf := false }

/-- Read the operands of one MMA (R66): both of them, with their scale arrays, from the core's own scratchpad. -/
def readMma (m : Mem) (k : Nat) (p : Replay) : List (List Val) × List (List Val) :=
  let fa := Fmt.get p.fa
  let fb := Fmt.get p.fb
  let rows := fun (f : Fmt) (n base stride sbase sstride : Nat) =>
    (List.range n).map (fun i => rowVals f p.k (m.reads (spadBase k + base + i * stride) (f.bytes p.k))
      (if f.isMx then m.reads (spadBase k + sbase + i * sstride) (p.k / 32) else []))
  (rows fa 128 p.a p.strideA p.sa p.strideSa, rows fb 64 p.b p.strideB p.sb p.strideSb)

/-- The ranges that an MMA reads, as addresses of memory (R152, R77). -/
def MmaOps.ranges (o : MmaOps) (m : Mxe) : List (Desc × Int × Nat × Nat) :=
  let fa := Fmt.get m.aFmt
  let fb := Fmt.get m.bFmt
  [(o.da, o.a, 128, fa.bytes o.k), (o.db, o.b, 64, fb.bytes o.k)] ++
    (match o.dsa with | some d => [(d, o.sa, 128, o.k / 32)] | none => []) ++
    (match o.dsb with | some d => [(d, o.sb, 64, o.k / 32)] | none => [])

/-- The alignment an MMA's operands need (R66): 32 bytes for A and B, 4 bytes for scale arrays. -/
def MmaOps.misaligned (o : MmaOps) : Option (Desc × Int) :=
  if o.a % 32 ≠ 0 then some (o.da, o.a)
  else if o.b % 32 ≠ 0 then some (o.db, o.b)
  else
    match o.dsa, o.dsb with
    | some d, _ => if o.sa % 4 ≠ 0 then some (d, o.sa) else
        (match o.dsb with | some e => if o.sb % 4 ≠ 0 then some (e, o.sb) else none | none => none)
    | none, some e => if o.sb % 4 ≠ 0 then some (e, o.sb) else none
    | none, none => none

/-- Read every row of several operands (R92, R103, R100). -/
def Hw.srcAll (m : Mem) (w : Work) : Hw → List (Desc × Int × Nat × Nat) → Hw × Except Cond (List Place)
  | h, [] => (h, .ok [])
  | h, (d, v, n, len) :: rest =>
    match h.srcRows m w.x w.w (d.unit w.w.lc w.w.lk) (rowAddrs v n d.stride len) with
    | (h, .error e) => (h, .error e)
    | (h, .ok ps) =>
      match Hw.srcAll m w h rest with
      | (h, .error e) => (h, .error e)
      | (h, .ok qs) => (h, .ok (ps ++ qs))

/-- The steps of an MMA by its wider format (R71), before the 64 of an unstaged one. -/
def mmaSteps (fa fb : Nat) (k : Nat) : Nat :=
  let a := (Fmt.get fa).bits
  let b := (Fmt.get fb).bits
  if max a b = 16 then 2 * k else if max a b = 4 then k / 2 else k

/-- The entry an MMA appends to the replay list (R75). -/
def MmaOps.replay (o : MmaOps) (m : Mxe) : Replay :=
  ⟨o.a.toNat, o.b.toNat, o.sa.toNat, o.sb.toNat, o.da.stride, o.db.stride, (o.dsa.map (·.stride)).getD 0,
    (o.dsb.map (·.stride)).getD 0, m.aFmt, m.bFmt, o.k⟩

/-- Append to the replay list, which holds 64 entries (R75, R76). -/
def Mxe.appendReplay (m : Mxe) (p : Replay) : Mxe :=
  if m.replay.length < 64 then { m with replay := m.replay ++ [p] } else { m with replayOvf := true }

/-- The engine after an MMA, or an MMAZ (`zero`), has multiplied (R45, R66, R491): staged heads are used up or
discarded. -/
def Mxe.mma (m : Mxe) (zero : Bool) (k : Nat) (o : MmaOps) (mem : Mem) : Mxe :=
  let m1 := if zero then m.clearAcc else m
  let p := o.replay m
  let (a, b) := readMma mem k p
  { (m1.multiply o.k a b).appendReplay p with staged := none }

/-- MMA and MMAZ: the waits of staging (R69), the checks of the operands, the multiplication, and the read-hold of the
operand bytes until the DRAIN retires (R77, R152). -/
def mmaWork (zero : Bool) (w : Work) (m : Mem) (h : Hw) : Hw × Except Cond (List Edit) :=
  let o := w.mmaOps
  let e := h.mxeOf w.k w.w.s
  match o.misaligned with
  | some (d, v) => (h, .error (alignCond d w.w.lc w.w.lk v))
  | none =>
    match Hw.srcAll m w h (o.ranges e) with
    | (h, .error c) => (h, .error c)
    | (h, .ok ps) =>
      let key := strmKey w.w.lc w.w.lk w.w.s
      let held := ps.flatMap (fun p => p.segs.map (fun (a, n) => (⟨0, a, n⟩ : Rng)))
      let h := h.modMxe w.k w.w.s (fun x => x.mma zero w.k o m)
      let h := h.modRun w.w.c (fun r => { r with holds := r.holds.put key (r.holds.getD key [] ++ held) })
      let h := h.countCore w.k { code := 0x08, masters := [w.w.s + 1] } (mmaSteps e.aFmt e.bFmt o.k)
      (h, .ok [])

/-- Whether an MMA must still wait for the staging it uses (R69). -/
def stagingWait (r : StreamRef) (opc : Nat) (s : State) : Bool :=
  match s.hw.work r opc with
  | none => false
  | some w =>
    let m := s.hw.mxeOf w.k w.w.s
    match m.staged with
    | some t => t.serves w.mmaOps m && !t.complete
    | none => false

/-- The effect of MMA. -/
def mmaEff (r : StreamRef) (sn : Seen) (s : State) : Eff :=
  if stagingWait r 0x12 s then { hw := s.hw } else engineEff r 0x12 sn s (mmaWork false)

/-- MMA (R66). -/
def execMma (r : StreamRef) (sn : Seen) (s : State) : Res := done s (mmaEff r sn s)

/-- The effect of MMAZ. -/
def mmazEff (r : StreamRef) (sn : Seen) (s : State) : Eff :=
  if stagingWait r 0x13 s then { hw := s.hw } else engineEff r 0x13 sn s (mmaWork true)

/-- MMAZ (R45, R66): clears the accumulation, then acts as MMA. -/
def execMmaz (r : StreamRef) (sn : Seen) (s : State) : Res := done s (mmazEff r sn s)

/-! ## The check (R48, R74) -/

/-- The accumulated value A × 2^L as an exact pair; an EMPTY accumulator is 0 (R45). -/
def Ewa.exact (x : Ewa) : Int × Int := if x.empty then (0, 0) else (x.a, x.l)

/-- The exact sum of pairs i × 2^e. -/
def sumExact (l : List (Int × Int)) : Int × Int :=
  l.foldl (fun (a, ea) (b, eb) =>
    let e := min ea eb
    (a * (2 ^ (ea - e).toNat : Nat) + b * (2 ^ (eb - e).toNat : Nat), e)) (0, 0)

/-- Whether an accumulator has a special value (R74). -/
def Ewa.special (x : Ewa) : Bool := x.nan || x.pinf || x.ninf

/-- One comparison of a row or column with its checksum (R74): none when it is skipped. `bound` is none in exact mode. -/
def compareLine (bound : Option Nat) (line : List Ewa) (chk : Ewa) : Option Bool :=
  if chk.special || line.any Ewa.special || bound == some 63 then none
  else
    let (d, e) := sumExact (((-chk.exact.1, chk.exact.2)) :: line.map Ewa.exact)
    match bound with
    | none => some (d == 0)
    | some tol =>
      let ls := ((chk :: line).filter (fun x => !x.empty)).map (·.l)
      match ls with
      | [] => some (d == 0)
      | l :: rest =>
        let top := rest.foldl max l + tol
        some (if e ≤ top then decide (d.natAbs ≤ 2 ^ (top - e).toNat) else d == 0)

/-- What the check of a DRAIN finds (R48, R74, R78). -/
structure Check where
  wl : Nat
  exact : Bool
  chkLost : Bool
  skipped : Nat
  failRow : Option Nat
  failCol : Option Nat
  deriving DecidableEq, Repr

/-- The check at the start of a DRAIN (R74). -/
def Mxe.check (m : Mxe) : Check :=
  let acc := fun i j => m.acc.getD (64 * i + j) Ewa.clear
  let wl := ((List.range 8192).filter (fun n => (m.acc.getD n Ewa.clear).lost)).length
  let chkLost := m.chkRow.any (·.lost) || m.chkCol.any (·.lost)
  let exact := wl == 0 && !m.sumLost && !chkLost
  let bound := if exact then none else some m.tol
  let cols := (List.range 64).map (fun j => compareLine bound ((List.range 128).map (fun i => acc i j))
    (m.chkRow.getD j Ewa.clear))
  let rows := (List.range 128).map (fun i => compareLine bound ((List.range 64).map (fun j => acc i j))
    (m.chkCol.getD i Ewa.clear))
  { wl := wl, exact := exact, chkLost := chkLost,
    skipped := (cols.filter (· == none)).length + (rows.filter (· == none)).length,
    failRow := rows.findIdx? (· == some false), failCol := cols.findIdx? (· == some false) }

/-- Whether a check passes. -/
def Check.pass (c : Check) : Bool := c.failRow.isNone && c.failCol.isNone

/-- The CHECK code of the tile status (R78): 1 exact, 2 bound, 3 all skipped. -/
def Check.code (c : Check) : Nat := if c.skipped = 192 then 3 else if c.exact then 1 else 2

/-- Errors of the hardware added to accumulators (AbftIn). -/
def Mxe.flip (m : Mxe) (fs : List (Nat × Int)) : Mxe :=
  fs.foldl (fun m (n, d) =>
    let bump := fun (x : Ewa) => { x with a := x.a + d, empty := false }
    if n < 8192 then { m with acc := setAt ((List.range 8192).map (fun i => m.acc.getD i Ewa.clear)) n (bump (m.acc.getD n Ewa.clear)) }
    else if n < 8256 then
      { m with chkRow := setAt ((List.range 64).map (fun i => m.chkRow.getD i Ewa.clear)) (n - 8192) (bump (m.chkRow.getD (n - 8192) Ewa.clear)) }
    else
      { m with chkCol := setAt ((List.range 128).map (fun i => m.chkCol.getD i Ewa.clear)) (n - 8256) (bump (m.chkCol.getD (n - 8256) Ewa.clear)) }) m

/-- Run the replay list again on cleared accumulators (R75). -/
def Mxe.rerun (m : Mxe) (k : Nat) (mem : Mem) : Mxe :=
  let m0 := { m with acc := [], chkRow := [], chkCol := [], sumLost := false }
  m.replay.foldl (fun x p => let (a, b) := readMma mem k p; x.multiply p.k a b) m0

/-- The rows that a replay entry reads, as offsets in the core's scratchpad and lengths (R66, R75). -/
def Replay.rows (p : Replay) : List (Nat × Nat) :=
  let fa := Fmt.get p.fa
  let fb := Fmt.get p.fb
  let at' := fun (n base stride len : Nat) => (List.range n).map (fun i => (base + i * stride, len))
  at' 128 p.a p.strideA (fa.bytes p.k) ++ at' 64 p.b p.strideB (fb.bytes p.k) ++
    (if fa.isMx then at' 128 p.sa p.strideSa (p.k / 32) else []) ++ (if fb.isMx then at' 64 p.sb p.strideSb (p.k / 32) else [])

/-- The first uncorrectable piece that a retry reads, with the row that holds it (R75, R100). -/
def Mxe.replayUe (m : Mxe) (w : Work) (mem : Mem) : Option (Place × Nat) :=
  m.replay.findSome? (fun p => p.rows.findSome? (fun (off, len) =>
    (mem.ueIn (spadBase w.k + off) len).map (fun a =>
      (⟨1, w.w.lc, w.w.lk, off, len, 0, [(spadBase w.k + off, len)], w.x.img.regionAt 1 w.w.lc w.w.lk off len⟩, a))))

/-! ## Conversion and commit (R49, R54–R58, R68) -/

/-- One drained element: its code and whether it is NaN, infinite or saturated (R55, R78). -/
structure OutEl where
  code : Nat
  nan : Bool
  inf : Bool
  sat : Bool
  deriving DecidableEq, Repr

/-- Convert one value to an unscaled output format (R55). -/
def outEl (f : Fmt) (nonsat : Bool) (mode : Rnd) (v : Val) : OutEl :=
  match f with
  | .int32 =>
    let (c, fl) := intConvert 32 mode v
    ⟨c, v.isNan, false, fl.inv && !v.isNan⟩
  | _ =>
    let p := f.par
    let (c, fl) := p.convert mode nonsat v
    let isInf := p.kind == .ieee && bitsAt c 0 (p.eb + p.mb) == p.infCode
    let narrow := !(p.eb == 8)
    ⟨c, c % 2 ^ (p.eb + p.mb) == p.nanCode && (v.isNan || (narrow && nonsat && p.kind == .e4m3 && (fl.ovf || v.isInf))),
      isInf, narrow && !nonsat && (fl.ovf || v.isInf)⟩

/-- One drained row of 64 values: element codes, scale bytes, and what the elements are (R55, R56, R58). -/
def drainRow (m : Mxe) (seed base i : Nat) (vs : List Val) : List Byte × List Byte × List OutEl :=
  let f := Fmt.get m.oFmt
  let modes := (List.range 64).map (fun j => rndMode m.rnd seed base (i * 64 + j))
  if f.isMx then
    let blk := fun b =>
      mxBlock f m.nonsat ((vs.drop (32 * b)).take 32) ((modes.drop (32 * b)).take 32)
    let (s0, e0, _) := blk 0
    let (s1, e1, _) := blk 1
    let els := fun (s : Nat) (es : List Nat) (src : List Val) (ms : List Rnd) =>
      List.zipWith (fun (c : Nat) (vm : Val × Rnd) =>
        let sat := match vm.1 with
          | .fin _ mg ex => decide (s ≠ 255) && decide (mg ≠ 0) && (f.par.round vm.2 mg (ex - ((s : Int) - 127))).overflow
          | _ => false
        (⟨c, decide (s = 255), false, sat⟩ : OutEl)) es (src.zip ms)
    (packElems f.bits (e0 ++ e1), [BitVec.ofNat 8 s0, BitVec.ofNat 8 s1],
      els s0 e0 (vs.take 32) (modes.take 32) ++ els s1 e1 (vs.drop 32) (modes.drop 32))
  else
    let es := List.zipWith (fun md v => outEl f m.nonsat md v) modes vs
    (packElems f.bits (es.map (·.code)), [], es)

/-- The tile status record of a DRAIN that passed (R78). -/
def tileRec (m : Mxe) (c : Check) (retried : Bool) (els : List OutEl) (idx : Nat) : TileRec :=
  let ls := (m.acc.filter (fun x => !x.empty)).map (·.l)
  { wl := c.wl, check := c.code, retried := retried, sumLost := m.sumLost, chkLost := c.chkLost, skipped := c.skipped,
    nanOut := (els.filter (·.nan)).length, infOut := (els.filter (·.inf)).length, satOut := (els.filter (·.sat)).length,
    anchorMax := match ls with | [] => none | l :: r => some (r.foldl max l),
    anchorMin := match ls with | [] => none | l :: r => some (r.foldl min l), drainIdx := idx }

/-- MXE_TILE after a DRAIN. -/
def Hw.setTile (h : Hw) (k e : Nat) (t : TileRec) : Hw :=
  ((((h.setFld (Fd.MXE_TILE.CHECK k e) t.check).setFlag (Fd.MXE_TILE.RETRIED k e) t.retried).setFlag
    (Fd.MXE_TILE.SUM_LOST k e) t.sumLost).setFld (Fd.MXE_TILE.SKIPPED k e) t.skipped).setFld (Fd.MXE_TILE.WL_COUNT k e) t.wl

/-- The destinations of a DRAIN (R68): the result rows and, for an MX output, the scale rows. -/
def drainDests (w : Work) (f : Fmt) : Desc × Int × Option (Desc × Int) :=
  let i := w.x.img
  let d := ((i.desc? w.w.lc w.w.lk (bitsAt w.word 80 12)).getD noDesc)
  let sc := i.desc? w.w.lc w.w.lk (bitsAt w.word 68 12)
  (d, d.value w.fl.iters, if f.isMx then sc.map (fun q => (q, q.value w.fl.iters)) else none)

/-- Commit a DRAIN that has passed (R68, R78, R491): the 8,192 results and their scales are written, the record is kept,
and the accumulation ends. -/
def drainCommit (w : Work) (m : Mem) (h : Hw) (e : Mxe) (c : Check) (retried : Bool) :
    Hw × Except Cond (List Edit) :=
  let f := Fmt.get e.oFmt
  let (d, v, sc) := drainDests w f
  match h.dstRows m w.x w.w (d.unit w.w.lc w.w.lk) (rowAddrs v 128 d.stride (f.bytes 64)) with
  | (h, .error x) => (h, .error x)
  | (h, .ok ps) =>
    let scRows := match sc with
      | some (q, sv) => h.dstRows m w.x w.w (q.unit w.w.lc w.w.lk) (rowAddrs sv 128 q.stride 2)
      | none => (h, .ok [])
    match scRows with
    | (h, .error x) => (h, .error x)
    | (h, .ok qs) =>
      let base := w.x.img.valueOf w.w.lc w.w.lk (bitsAt w.word 56 12) w.fl.iters 48
      let rows := (List.range 128).map (fun i =>
        drainRow e w.x.host.seed base i ((List.range 64).map (fun j => (e.acc.getD (64 * i + j) Ewa.clear).value)))
      let t := tileRec e c retried (rows.flatMap (fun r => r.2.2)) w.fl.idx
      let es := storeRows m (ps.zip (rows.map (fun r => r.1)))
      let ss := storeRows m (qs.zip (rows.map (fun r => r.2.1)))
      let h := h.setTile w.k w.w.s t
      (h.modMxe w.k w.w.s (fun x => { x.clearAcc with tile := some t, retrying := false }), .ok (es ++ ss))

/-- Arguments of the ABFT details (R380). -/
def abftArgs (c : Check) : List Byte :=
  leBytes 1 (c.failRow.getD 0) ++ leBytes 1 (c.failCol.getD 0) ++ leBytes 1 (if c.exact then 1 else 2) ++ [0] ++
    leBytes 2 c.wl

/-- The retry of an accumulation (R75, R76): the replay list runs again, and faults where it reads an uncorrectable piece (R100); a
pass commits with RETRIED and a transient
event, a failure faults with ABFT. -/
def drainRetry (w : Work) (ab : AbftIn) (m : Mem) (h : Hw) : Hw × Except Cond (List Edit) :=
  let e0 := h.mxeOf w.k w.w.s
  let e := (e0.rerun w.k m).flip ab.flips2
  let c := e.check
  let h := h.countCore w.k { code := 0x0B, masters := [w.w.s + 1] } 1
  match e0.replayUe w m with
  | some (p, a) => let (h, x) := h.pieceUe w.x p a; (h, .error x)
  | none =>
  if c.pass && !ab.parity2 then
    match drainCommit w m h e c true with
    | (h, .error x) => (h, .error x)
    | (h, .ok es) =>
      let h := h.setFlag (Fd.MXE_ERR.ABFT_TRANSIENT w.k w.w.s) true
      let h := h.satFld (Fd.MXE_RETRY_CNT.PASS_CNT w.k w.w.s) 1
      (h.unitEvent (punitEngine w.k w.w.s) 1 0 w.x.host.job 0, .ok es)
  else
    let h := h.satFld (Fd.MXE_RETRY_CNT.FAIL_CNT w.k w.w.s) 1
    (h, .error ⟨if ab.parity2 then dAccParity else dAbftMismatch, abftArgs c⟩)

/-- The extra steps of a retry (R75): the unstaged costs of the listed MMAs, plus 72. -/
def retryCost (m : Mxe) : Nat :=
  m.replay.foldl (fun a p => a + mmaSteps p.fa p.fb p.k + 64) 72

/-- The destination of a DRAIN that is not aligned (R68): 32 bytes for results, 4 bytes for scales. -/
def drainMisaligned (w : Work) (f : Fmt) : Option (Desc × Int) :=
  let (d, v, sc) := drainDests w f
  if v % 32 ≠ 0 then some (d, v)
  else
    match sc with
    | some (q, u) => if u % 4 ≠ 0 then some (q, u) else none
    | none => none

/-- DRAIN (R68, R74–R76): alignment is checked when it starts; then the first check, and the retry where it fails. -/
def drainWork (ab : AbftIn) (w : Work) (m : Mem) (h : Hw) : Hw × Except Cond (List Edit) :=
  let e0 := h.mxeOf w.k w.w.s
  match drainMisaligned w (Fmt.get e0.oFmt) with
  | some (d, v) => (h, .error (alignCond d w.w.lc w.w.lk v))
  | none =>
  if e0.retrying then drainRetry w ab m h
  else
    let e := e0.flip ab.flips
    let c := e.check
    if c.pass && !ab.parity then drainCommit w m h e c false
    else if e.replayOvf then (h, .error ⟨dNoReplay, abftArgs c⟩)
    else
      let h := h.markDone w.w (fun f => { f with done := false, cost := f.cost + retryCost e })
      drainRetry w ab m h

/-- Whether this DRAIN leaves its retry unfinished (R77): the first check fails and the retry has not ended. -/
def drainLeft (r : StreamRef) (ab : AbftIn) (s : State) : Option Work :=
  if ab.unfinished then
    match s.hw.work r 0x14 with
    | some w =>
      let e := (s.hw.mxeOf w.k w.w.s).flip ab.flips
      if (e.check.pass && !ab.parity) || e.replayOvf || e.retrying || (drainMisaligned w (Fmt.get e.oFmt)).isSome then none
      else some w
    | none => none
  else none

/-- The effect of DRAIN. -/
def drainEff (r : StreamRef) (sn : Seen) (ab : AbftIn) (s : State) : Eff :=
  match drainLeft r ab s with
  | some w =>
    { hw := (s.hw.modMxe w.k w.w.s (fun m => { m with retrying := true })).markDone w.w
        (fun f => { f with done := false, cost := f.cost + retryCost (s.hw.mxeOf w.k w.w.s) }) }
  | none => engineEff r 0x14 sn s (drainWork ab)

/-- DRAIN (R68). -/
def execDrain (r : StreamRef) (sn : Seen) (ab : AbftIn) (s : State) : Res := done s (drainEff r sn ab s)

/-! ## CHKRD (R78) -/

/-- The 32 bytes of *Tile status record* (R78). -/
def tileBytes : Option TileRec → List Byte
  | none => List.replicate 32 0
  | some t =>
    let anchor := fun (a : Option Int) => leBytes 4 (match a with | some l => toSigned 32 l | none => 0x80000000)
    leBytes 2 t.wl ++ leBytes 1 t.check ++
      leBytes 1 (1 + 2 * t.retried.toNat + 4 * t.sumLost.toNat + 8 * t.chkLost.toNat) ++ leBytes 2 t.skipped ++
      leBytes 2 0 ++ leBytes 2 t.nanOut ++ leBytes 2 t.infOut ++ leBytes 2 t.satOut ++ leBytes 2 0 ++
      anchor t.anchorMax ++ anchor t.anchorMin ++ leBytes 4 t.drainIdx ++ leBytes 4 0

/-- CHKRD: the record of the last retired DRAIN to a 32-byte-aligned address of the core's scratchpad (R78). -/
def chkrdWork (w : Work) (m : Mem) (h : Hw) : Hw × Except Cond (List Edit) :=
  let d := (w.x.img.desc? w.w.lc w.w.lk (bitsAt w.word 80 12)).getD noDesc
  let v := d.value w.fl.iters
  if v % 32 ≠ 0 then (h, .error (alignCond d w.w.lc w.w.lk v))
  else
    match h.dstRow m w.x w.w (d.unit w.w.lc w.w.lk) (v, 32) with
    | (h, .error e) => (h, .error e)
    | (h, .ok p) => (h, .ok (rowEdits m p (tileBytes (h.mxeOf w.k w.w.s).tile)))

/-- The effect of CHKRD. -/
def chkrdEff (r : StreamRef) (sn : Seen) (s : State) : Eff := engineEff r 0x15 sn s chkrdWork

/-- CHKRD (R78). -/
def execChkrd (r : StreamRef) (sn : Seen) (s : State) : Res := done s (chkrdEff r sn s)

end Sys2Proof.Machine
end

