-- ==== Sys2Proof/Machine/Flags.lean ====
section
/-!
DEFINITION. The VXE's element operations with the conditions they raise (R59, R85, R486, R487): every flag computation
of the vector engine.
-/
namespace Sys2Proof.Machine

/-- One result element and its conditions. -/
abbrev ElRes := Nat × FpFlags

/-- Round an exact result to a VXE format with RNE and the flags of R59; `inv` is the operation's invalid condition. -/
def finish (f : Fmt) (v : Val) (inv : Bool) : ElRes :=
  let (c, fl) := f.par.convert .rne false v
  (c, { fl with inv := inv })

/-- VADD, VSUB and VMUL on FP32 and BF16 (R59). -/
def fpAdd (f : Fmt) (a b : Nat) : ElRes := let (v, i) := (f.decode a).add (f.decode b); finish f v i
def fpSub (f : Fmt) (a b : Nat) : ElRes := let (v, i) := (f.decode a).add (f.decode b).negate; finish f v i
def fpMul (f : Fmt) (a b : Nat) : ElRes := let (v, i) := (f.decode a).times (f.decode b); finish f v i
/-- VFMA with a single rounding (R59). -/
def fpFma (f : Fmt) (a b c : Nat) : ElRes := let (v, i) := (f.decode a).fma (f.decode b) (f.decode c); finish f v i

/-- A signalling NaN operand (R487). -/
def isSnan (v : Val) : Bool := v == .nan true

/-- Whether `a` orders before `b`, with −0 below +0 (R487). -/
def ordBefore (a b : Val) : Bool :=
  let c := a.cmp b
  c == -1 || (c == 0 && a.isNeg && !b.isNeg)

/-- IEEE 754-2019 maximum and minimum (R487). -/
def fpMax (f : Fmt) (a b : Nat) : ElRes :=
  let x := f.decode a
  let y := f.decode b
  if x.isNan || y.isNan then (f.par.nanCode, { inv := isSnan x || isSnan y })
  else (if ordBefore x y then b else a, .none)
def fpMin (f : Fmt) (a b : Nat) : ElRes :=
  let x := f.decode a
  let y := f.decode b
  if x.isNan || y.isNan then (f.par.nanCode, { inv := isSnan x || isSnan y })
  else (if ordBefore y x then b else a, .none)

/-- INT32 arithmetic wraps and compares signed, and sets no flag (R487). -/
def intAdd (a b : Nat) : ElRes := ((a + b) % 2 ^ 32, .none)
def intSub (a b : Nat) : ElRes := ((a + 2 ^ 32 - b % 2 ^ 32) % 2 ^ 32, .none)
def intMax (a b : Nat) : ElRes := (if signedOf 32 a < signedOf 32 b then b else a, .none)
def intMin (a b : Nat) : ElRes := (if signedOf 32 b < signedOf 32 a then b else a, .none)

/-- VCMP (R487): quiet comparisons; unordered operands give 1 for NE and 0 otherwise. -/
def cmpEl (f : Fmt) (sub a b : Nat) : Bool × FpFlags :=
  let ord := fun (c : Int) => match sub with
    | 0 => c == 0
    | 1 => c != 0
    | 2 => decide (c < 0)
    | 3 => decide (c ≤ 0)
    | 4 => decide (0 < c)
    | _ => decide (0 ≤ c)
  match f with
  | .int32 => (ord (signedOf 32 a - signedOf 32 b), .none)
  | _ =>
    let x := f.decode a
    let y := f.decode b
    if x.isNan || y.isNan then (sub == 1, { inv := isSnan x || isSnan y }) else (ord (x.cmp y), .none)

/-- VABS clears only the sign bit and VNEG inverts it; no flag (R59). -/
def absEl (f : Fmt) (a : Nat) : Nat := a % 2 ^ (f.bits - 1)
def negEl (f : Fmt) (a : Nat) : Nat := a ^^^ 2 ^ (f.bits - 1)

/-! ## The function unit (R85) -/

/-- FP32 +0, 1.0, the infinities and NaN. -/
def f32One : Nat := 0x3F800000
def f32Inf : Nat := 0x7F800000
def f32NegInf : Nat := 0xFF800000
def f32Nan : Nat := 0x7FC00000

/-- VRCP: 1/x correctly rounded; 1/±0 = ±∞ with overflow, 1/±∞ = ±0 (R85). -/
def rcpEl (a : Nat) : ElRes :=
  match Fmt.decode .fp32 a with
  | .nan s => (f32Nan, { inv := s })
  | .inf n => (if n then 0x80000000 else 0, .none)
  | .fin n m e =>
    if m = 0 then (if n then f32NegInf else f32Inf, { ovf := true })
    else
      let k := Nat.log2 m + 64
      let q := 2 ^ k / m
      let sticky := if 2 ^ k % m = 0 then 0 else 1
      finish .fp32 (.fin n (2 * q + sticky) (-(k : Int) - 1 - e)) false

/-- The integer square root, one bit a step from bit `b` down. -/
def isqrtFrom : Nat → Nat → Nat → Nat
  | 0, n, r => if (r + 1) * (r + 1) ≤ n then r + 1 else r
  | b + 1, n, r =>
    let t := r + 2 ^ (b + 1)
    isqrtFrom b n (if t * t ≤ n then t else r)

/-- The FP32 code `raw` where its value lies within 2^b of ± mag × 2^exp, `other` elsewhere: any result of that accuracy, of which
the spec fixes none (R85). -/
def within (raw : Nat) (neg : Bool) (mag : Nat) (exp b : Int) (other : Nat) : Nat :=
  match Fmt.decode .fp32 raw with
  | .fin n m e =>
    let (d, u) := exactSum n m e (!neg) mag exp
    if (exactSum false d.natAbs u true 1 b).1 ≤ 0 then raw else other
  | _ => other

/-- VRSQ (R85): an FP32 value within 1 ulp of 1/√x; edges as stated. -/
def rsqEl (a : Nat) : ElRes :=
  match Fmt.decode .fp32 a with
  | .nan s => (f32Nan, { inv := s })
  | .inf true => (f32Nan, { inv := true })
  | .inf false => (0, .none)
  | .fin n m e =>
    if m = 0 then (if n then f32NegInf else f32Inf, { ovf := true })
    else if n then (f32Nan, { inv := true })
    else
      let (m, e) := if e % 2 = 0 then (m, e) else (2 * m, e - 1)
      let k : Nat := 160
      let r := isqrtFrom 162 (2 ^ (2 * k) / m) 0
      let drop := Nat.log2 r - 23
      let x : Int := -(k : Int) - e / 2
      let base := ((Fmt.par .fp32).round .rne (r / 2 ^ drop) (drop + x)).code
      let code := within (Config.vrsqRaw a).toNat false r x (drop + x) base
      (code, { inx := !(r * r * m == 2 ^ (2 * k) && code == base) })

/-- e^t in units of 2^−f for t = num / 2^den below 1, by its series: `n` more terms. -/
def expSeries (f num den : Nat) : Nat → Nat → Nat → Nat → Nat
  | 0, _, _, acc => acc
  | n + 1, i, term, acc =>
    let t := term * num / 2 ^ den / i
    expSeries f num den n (i + 1) t (acc + t)

/-- Square a value in units of 2^−f, `n` times. -/
def squareN (f : Nat) : Nat → Nat → Nat
  | 0, x => x
  | n + 1, x => squareN f n (x * x / 2 ^ f)

/-- e^x in units of 2^−512 for x = ± m × 2^e with |x| below 128, rounded down far below any FP32 spacing. -/
def expFixed (neg : Bool) (m : Nat) (e : Int) : Nat :=
  let f := 1024
  let (num, den) := if 0 ≤ e then (m * 2 ^ e.toNat, 8) else (m, (-e).toNat + 8)
  let y := squareN f 8 (expSeries f num den 100 1 (2 ^ f) (2 ^ f))
  if neg then 2 ^ (2 * f) / y / 2 ^ 512 else y / 2 ^ 512

/-- VEXP (R85): above 88.722839 +∞ with overflow; below the normal range a subnormal or +0 with underflow; otherwise an
FP32 value within 1 ulp of e^x. -/
def expEl (a : Nat) : ElRes :=
  match Fmt.decode .fp32 a with
  | .nan s => (f32Nan, { inv := s })
  | .inf true => (0, .none)
  | .inf false => (f32Inf, .none)
  | .fin n m e =>
    if 0 < (exactSum n (m * 1000000) e true 88722839 0).1 then (f32Inf, { ovf := true, inx := true })
    else if (exactSum n m e false 104 0).1 < 0 then ((Config.vexpSub a).toNat, { unf := true, inx := true })
    else
      let y := expFixed n m e
      if y < 2 ^ (512 - 126) then ((Config.vexpSub a).toNat, { unf := true, inx := true })
      else
        let drop := Nat.log2 y - 23
        let base := ((Fmt.par .fp32).round .rne (y / 2 ^ drop) ((drop : Int) - 512)).code
        let code := within (Config.vexpRaw a).toNat false y (-512) ((drop : Int) - 512) base
        (code, { inx := decide (m ≠ 0) || code != f32One, unf := decide (code < 2 ^ 23) })

/-- The arc tangent of 1/q in units of 2^−f by its series: `n` more terms, `pw` the next power of 1/q. -/
def atanSeries (q : Nat) : Nat → Nat → Nat → Int
  | 0, _, _ => 0
  | n + 1, i, pw => (pw / i : Nat) - atanSeries q n (i + 2) (pw / (q * q))

/-- 2π in units of 2^−512 (Machin's formula). -/
def twoPi : Nat := (8 * (4 * atanSeries 5 240 1 (2 ^ 576 / 5) - atanSeries 239 80 1 (2 ^ 576 / 239)) / 2 ^ 64).toNat

/-- The terms of the series of sine and cosine from term `i` on, in units of 2^−512, for the square `sq` of the angle: `n` more. -/
def trigSeries (sq : Nat) : Nat → Nat → Nat → Int
  | 0, _, _ => 0
  | n + 1, i, term => (term : Int) - trigSeries sq n (i + 2) (term * sq / 2 ^ 512 / ((i + 1) * (i + 2)))

/-- The cosine and the sine of p × θ (R83): FP32 values within 2^−23 of those of the exact product for a finite θ;
any codes for a θ that is not a number or infinite, for which the spec states nothing. -/
def trigEl (pos freq : Nat) : Nat × Nat :=
  let rc := (Config.cosRaw pos freq).toNat
  let rs := (Config.sinRaw pos freq).toNat
  match Fmt.decode .fp32 freq with
  | .fin n m e =>
    let x := pos * m * 2 ^ (e + 512).toNat % twoPi
    let sq := x * x / 2 ^ 512
    let c := trigSeries sq 60 0 (2 ^ 512)
    let s := trigSeries sq 60 1 x
    let s := if n then -s else s
    let pick := fun (raw : Nat) (v : Int) =>
      within raw (decide (v < 0)) v.natAbs (-512) (-23) ((Fmt.par .fp32).convert .rne false (.fin (decide (v < 0)) v.natAbs (-512))).1
    (pick rc c, pick rs s)
  | _ => (rc, rs)

end Sys2Proof.Machine
end

