-- ==== Sys2Proof/Machine/Vxe.lean ====
section
/-!
DEFINITION. The vector engine (03_engines.md, *Vector engine*): elementwise operations, reductions, the function unit,
conversion, online softmax, rotary embedding and gather.
-/
namespace Sys2Proof.Machine

/-- A vector operand: its descriptor and effective address (R179, R193). -/
structure VOp where
  d : Desc
  v : Int

/-- The operand that descriptor field `lo` of a VXE word names. -/
def Work.vop (w : Work) (lo : Nat) : VOp :=
  let d := (w.x.img.desc? w.w.lc w.w.lk (bitsAt w.word lo 12)).getD noDescV
  ⟨d, d.value w.fl.iters⟩
where noDescV : Desc := ⟨0, 0, 0, 0, 0, 0, []⟩

/-- Read `n` rows of `len` bytes of an operand, each as a little-endian number, after the checks of R79, R92 and R100. -/
def Hw.vread (h : Hw) (m : Mem) (w : Work) (o : VOp) (n len al : Nat) : Hw × Except Cond (List Nat) :=
  if o.v % al ≠ 0 ∨ (1 < n ∧ o.d.stride % al ≠ 0) then (h, .error (alignCond o.d w.w.lc w.w.lk o.v))
  else
    match h.srcRows m w.x w.w (o.d.unit w.w.lc w.w.lk) (rowAddrs o.v n o.d.stride len) with
    | (h, .error e) => (h, .error e)
    | (h, .ok ps) => (h, .ok (ps.map (fun p => leNat (m.row p))))

/-- Write rows of bytes to an operand, after the checks of R79, R92, R105 and R150–R153. -/
def Hw.vwrite (h : Hw) (m : Mem) (w : Work) (o : VOp) (al : Nat) (rows : List (List Byte)) :
    Hw × Except Cond (List Edit) :=
  if o.v % al ≠ 0 ∨ (1 < rows.length ∧ o.d.stride % al ≠ 0) then (h, .error (alignCond o.d w.w.lc w.w.lk o.v))
  else
    match h.dstRows m w.x w.w (o.d.unit w.w.lc w.w.lk)
        (rows.zipIdx.map (fun (b, i) => (o.v + (i * o.d.stride : Nat), b.length))) with
    | (h, .error e) => (h, .error e)
    | (h, .ok ps) => (h, .ok (storeRows m (ps.zip rows)))

/-- Add the conditions of an instruction to the sticky flags (R86). -/
def Hw.fpFlags (h : Hw) (k : Nat) (f : FpFlags) : Hw :=
  let g := fun (h : Hw) (b : Bool) (x : Fld) => if b then h.setFlag x true else h
  g (g (g (g h f.inv (Fd.VXE_FPFLAGS.INV k)) f.ovf (Fd.VXE_FPFLAGS.OVF k)) f.unf (Fd.VXE_FPFLAGS.UNF k)) f.inx
    (Fd.VXE_FPFLAGS.INX k)

/-- The alignment of an element: its own size (R79); packed 6- and 4-bit elements start on a byte. -/
def Fmt.align (f : Fmt) : Nat := if f.bits < 8 then 1 else f.bits / 8

/-- Fields of the V1 layout (R193). -/
def v1Fmt (w : Work) : Fmt := Fmt.get (bitsAt w.word 40 4)
def v1N (w : Work) : Nat := bitsAt w.word 27 13 + 1
def v1R (w : Work) : Nat := bitsAt w.word 20 7 + 1
def v1Sub (w : Work) : Nat := bitsAt w.word 16 4

/-- Element `e` of a row of `b`-bit elements. -/
def el (row b e : Nat) : Nat := bitsAt row (e * b) b

/-- The results of an element function over rows, as bytes, with every condition raised. -/
def mapRows (b n : Nat) (rows : List (List ElRes)) : List (List Byte) × FpFlags :=
  (rows.map (fun r => packElems b ((r.take n).map Prod.fst)),
    rows.foldl (fun a r => r.foldl (fun a x => a.or x.2) a) .none)

/-- An elementwise operation over the sources `los` of the V1 layout (R79): `f` gets the source elements. -/
def elementwise (los : List Nat) (f : Fmt → List Nat → ElRes) (w : Work) (m : Mem) (h : Hw) :
    Hw × Except Cond (List Edit) :=
  let fmt := v1Fmt w
  let n := v1N w
  let r := v1R w
  let rd := los.foldl (fun (acc : Hw × Except Cond (List (List Nat))) lo =>
    match acc with
    | (h, .error e) => (h, .error e)
    | (h, .ok l) =>
      match h.vread m w (w.vop lo) r (fmt.bits / 8 * n) fmt.align with
      | (h, .error e) => (h, .error e)
      | (h, .ok x) => (h, .ok (l ++ [x]))) (h, .ok [])
  match rd with
  | (h, .error e) => (h, .error e)
  | (h, .ok srcs) =>
    let rows := (List.range r).map (fun i => (List.range n).map (fun e =>
      f fmt (srcs.map (fun s => el (s.getD i 0) fmt.bits e))))
    let (bytes, fl) := mapRows fmt.bits n rows
    (h.fpFlags w.k fl).vwrite m w (w.vop 80) fmt.align bytes

/-- Two-operand element functions, with their INT32 forms (R487). -/
def bin (fp : Fmt → Nat → Nat → ElRes) (int : Nat → Nat → ElRes) (f : Fmt) (l : List Nat) : ElRes :=
  match f with
  | .int32 => int (l.getD 0 0) (l.getD 1 0)
  | _ => fp f (l.getD 0 0) (l.getD 1 0)

/-- The effects of the elementwise rows. -/
def vaddEff (r : StreamRef) (sn : Seen) (s : State) : Eff := engineEff r 0x20 sn s (elementwise [68, 56] (bin fpAdd intAdd))
def vsubEff (r : StreamRef) (sn : Seen) (s : State) : Eff := engineEff r 0x21 sn s (elementwise [68, 56] (bin fpSub intSub))
def vmulEff (r : StreamRef) (sn : Seen) (s : State) : Eff :=
  engineEff r 0x22 sn s (elementwise [68, 56] (fun f l => fpMul f (l.getD 0 0) (l.getD 1 0)))
def vfmaEff (r : StreamRef) (sn : Seen) (s : State) : Eff :=
  engineEff r 0x23 sn s (elementwise [68, 56, 44] (fun f l => fpFma f (l.getD 0 0) (l.getD 1 0) (l.getD 2 0)))
def vmaxEff (r : StreamRef) (sn : Seen) (s : State) : Eff := engineEff r 0x24 sn s (elementwise [68, 56] (bin fpMax intMax))
def vminEff (r : StreamRef) (sn : Seen) (s : State) : Eff := engineEff r 0x25 sn s (elementwise [68, 56] (bin fpMin intMin))
def vabsEff (r : StreamRef) (sn : Seen) (s : State) : Eff :=
  engineEff r 0x26 sn s (elementwise [68] (fun f l => (absEl f (l.getD 0 0), .none)))
def vnegEff (r : StreamRef) (sn : Seen) (s : State) : Eff :=
  engineEff r 0x27 sn s (elementwise [68] (fun f l => (negEl f (l.getD 0 0), .none)))
def vmovEff (r : StreamRef) (sn : Seen) (s : State) : Eff :=
  engineEff r 0x28 sn s (elementwise [68] (fun _ l => (l.getD 0 0, .none)))

/-- VADD (R79, R487). -/
def execVadd (r : StreamRef) (sn : Seen) (s : State) : Res := done s (vaddEff r sn s)
/-- VSUB (R79, R487). -/
def execVsub (r : StreamRef) (sn : Seen) (s : State) : Res := done s (vsubEff r sn s)
/-- VMUL (R79). -/
def execVmul (r : StreamRef) (sn : Seen) (s : State) : Res := done s (vmulEff r sn s)
/-- VFMA (R79): S1 × S2 + S3, rounded once. -/
def execVfma (r : StreamRef) (sn : Seen) (s : State) : Res := done s (vfmaEff r sn s)
/-- VMAX (R487). -/
def execVmax (r : StreamRef) (sn : Seen) (s : State) : Res := done s (vmaxEff r sn s)
/-- VMIN (R487). -/
def execVmin (r : StreamRef) (sn : Seen) (s : State) : Res := done s (vminEff r sn s)
/-- VABS (R59). -/
def execVabs (r : StreamRef) (sn : Seen) (s : State) : Res := done s (vabsEff r sn s)
/-- VNEG (R59). -/
def execVneg (r : StreamRef) (sn : Seen) (s : State) : Res := done s (vnegEff r sn s)
/-- VMOV (R59). -/
def execVmov (r : StreamRef) (sn : Seen) (s : State) : Res := done s (vmovEff r sn s)

/-- VSCL: S1 times the scalar at element 0 of S2 (R193). -/
def vsclWork (w : Work) (m : Mem) (h : Hw) : Hw × Except Cond (List Edit) :=
  let fmt := v1Fmt w
  match h.vread m w (w.vop 68) (v1R w) (fmt.bits / 8 * v1N w) fmt.align with
  | (h, .error e) => (h, .error e)
  | (h, .ok xs) =>
    match h.vread m w (w.vop 56) 1 (fmt.bits / 8) fmt.align with
    | (h, .error e) => (h, .error e)
    | (h, .ok t) =>
      let rows := xs.map (fun x => (List.range (v1N w)).map (fun e => fpMul fmt (el x fmt.bits e) (t.getD 0 0)))
      let (bytes, fl) := mapRows fmt.bits (v1N w) rows
      (h.fpFlags w.k fl).vwrite m w (w.vop 80) fmt.align bytes

def vsclEff (r : StreamRef) (sn : Seen) (s : State) : Eff := engineEff r 0x29 sn s vsclWork
/-- VSCL (R79). -/
def execVscl (r : StreamRef) (sn : Seen) (s : State) : Res := done s (vsclEff r sn s)

/-- Bytes of a packed mask of `n` elements: whole 32-bit words (R79). -/
def maskBytes (n : Nat) : Nat := roundUp n 32 / 8

/-- VCMP: a packed mask in element order r × N + e (R193, R487). The bits of the last word beyond the elements are a
value the spec leaves open (assumption 7). -/
def vcmpWork (w : Work) (m : Mem) (h : Hw) : Hw × Except Cond (List Edit) :=
  let fmt := v1Fmt w
  let n := v1N w
  let r := v1R w
  match h.vread m w (w.vop 68) r (fmt.bits / 8 * n) fmt.align with
  | (h, .error e) => (h, .error e)
  | (h, .ok xs) =>
    match h.vread m w (w.vop 56) r (fmt.bits / 8 * n) fmt.align with
    | (h, .error e) => (h, .error e)
    | (h, .ok ys) =>
      let rs := (List.range (r * n)).map (fun i =>
        cmpEl fmt (v1Sub w) (el (xs.getD (i / n) 0) fmt.bits (i % n)) (el (ys.getD (i / n) 0) fmt.bits (i % n)))
      let bits := rs.foldr (fun x a => x.1.toNat + 2 * a) 0
      let (free, h) := if r * n % 32 = 0 then (0, h) else h.takeFree
      let word := bits + free % 2 ^ (roundUp (r * n) 32 - r * n) * 2 ^ (r * n)
      let fl := rs.foldl (fun a x => a.or x.2) FpFlags.none
      (h.fpFlags w.k fl).vwrite m w (w.vop 80) 4 [leBytes (maskBytes (r * n)) word]

def vcmpEff (r : StreamRef) (sn : Seen) (s : State) : Eff := engineEff r 0x2A sn s vcmpWork
/-- VCMP (R487). -/
def execVcmp (r : StreamRef) (sn : Seen) (s : State) : Res := done s (vcmpEff r sn s)

/-- VSEL: S1 where the mask at S3 is 1 and S2 where it is 0 (R193); copies bits (R59). -/
def vselWork (w : Work) (m : Mem) (h : Hw) : Hw × Except Cond (List Edit) :=
  let fmt := v1Fmt w
  let n := v1N w
  let r := v1R w
  match h.vread m w (w.vop 68) r (fmt.bits / 8 * n) fmt.align with
  | (h, .error e) => (h, .error e)
  | (h, .ok xs) =>
    match h.vread m w (w.vop 56) r (fmt.bits / 8 * n) fmt.align with
    | (h, .error e) => (h, .error e)
    | (h, .ok ys) =>
      match h.vread m w (w.vop 44) 1 (maskBytes (r * n)) 4 with
      | (h, .error e) => (h, .error e)
      | (h, .ok mk) =>
        let rows := (List.range r).map (fun i => packElems fmt.bits ((List.range n).map (fun e =>
          if bitAt (mk.getD 0 0) (i * n + e) then el (xs.getD i 0) fmt.bits e else el (ys.getD i 0) fmt.bits e)))
        h.vwrite m w (w.vop 80) fmt.align rows

def vselEff (r : StreamRef) (sn : Seen) (s : State) : Eff := engineEff r 0x2B sn s vselWork
/-- VSEL (R79). -/
def execVsel (r : StreamRef) (sn : Seen) (s : State) : Res := done s (vselEff r sn s)

/-! ## Reductions (R80, R487) -/

/-- Combine two lanes that may hold nothing: an empty lane takes no part (assumption 8). -/
def laneComb (f : Nat → Nat → ElRes) (a b : Option ElRes) : Option ElRes :=
  match a, b with
  | some x, some y => let (c, fl) := f x.1 y.1; some (c, (x.2.or y.2).or fl)
  | some x, none => some x
  | none, y => y

/-- The order of R80: lane e mod 256, each lane ascending, then lanes i and i + 128, i and i + 64, down to lane 0. -/
def laneReduce (f : Nat → Nat → ElRes) (els : List ElRes) : Option ElRes :=
  let lanes := (List.range 256).map (fun l =>
    ((els.drop l).zipIdx.filter (fun (_, i) => i % 256 == 0)).foldl (fun a (x, _) => laneComb f a (some x)) none)
  let fold := fun (ls : List (Option ElRes)) (half : Nat) =>
    List.zipWith (laneComb f) (ls.take half) ((ls.drop half).take half)
  let out := [128, 64, 32, 16, 8, 4, 2, 1].foldl fold lanes
  (out.getD 0 none)

/-- Widen an element to FP32 exactly (R59). -/
def widen (f : Fmt) (c : Nat) : Nat := if f = .bf16 then c * 2 ^ 16 else c

/-- VRED of one row (R80, R487): SUM, SUMSQ, MAX, MIN in FP32. -/
def redRow (f : Fmt) (sub : Nat) (row : List Nat) : ElRes :=
  let xs := row.map (widen f)
  let els : List ElRes := if sub = 1 then xs.map (fun x => fpMul .fp32 x x) else xs.map (fun x => (x, .none))
  let op := match sub with
    | 2 => fpMax .fp32
    | 3 => fpMin .fp32
    | _ => fpAdd .fp32
  (laneReduce op els).getD (0, .none)

/-- VRED (R80, R193): R results in FP32. -/
def vredWork (w : Work) (m : Mem) (h : Hw) : Hw × Except Cond (List Edit) :=
  let fmt := v1Fmt w
  let n := v1N w
  match h.vread m w (w.vop 68) (v1R w) (fmt.bits / 8 * n) fmt.align with
  | (h, .error e) => (h, .error e)
  | (h, .ok xs) =>
    let rs := xs.map (fun x => redRow fmt (v1Sub w) ((List.range n).map (el x fmt.bits)))
    let fl := rs.foldl (fun a x => a.or x.2) FpFlags.none
    (h.fpFlags w.k fl).vwrite m w (w.vop 80) 4 (rs.map (fun x => leBytes 4 x.1))

def vredEff (r : StreamRef) (sn : Seen) (s : State) : Eff := engineEff r 0x30 sn s vredWork
/-- VRED (R80). -/
def execVred (r : StreamRef) (sn : Seen) (s : State) : Res := done s (vredEff r sn s)

/-! ## The function unit (R85) -/

def vexpEff (r : StreamRef) (sn : Seen) (s : State) : Eff :=
  engineEff r 0x31 sn s (elementwise [68] (fun _ l => expEl (l.getD 0 0)))
def vrcpEff (r : StreamRef) (sn : Seen) (s : State) : Eff :=
  engineEff r 0x32 sn s (elementwise [68] (fun _ l => rcpEl (l.getD 0 0)))
def vrsqEff (r : StreamRef) (sn : Seen) (s : State) : Eff :=
  engineEff r 0x33 sn s (elementwise [68] (fun _ l => rsqEl (l.getD 0 0)))

/-- VEXP (R85). -/
def execVexp (r : StreamRef) (sn : Seen) (s : State) : Res := done s (vexpEff r sn s)
/-- VRCP (R85). -/
def execVrcp (r : StreamRef) (sn : Seen) (s : State) : Res := done s (vrcpEff r sn s)
/-- VRSQ (R85). -/
def execVrsq (r : StreamRef) (sn : Seen) (s : State) : Res := done s (vrsqEff r sn s)

/-! ## Conversion (R54–R58, R486) -/

/-- One element of a conversion whose destination has no block scale (*VCVT conversions*, *VCVT flags*). -/
def cvtEl (src dst : Fmt) (mode : Rnd) (nonsat : Bool) (v : Val) : ElRes :=
  match dst with
  | .int8 => intConvert 8 mode v
  | .int32 => intConvert 32 mode v
  | .fp32 =>
    if src = .fp32 then (0, .none)
    else
      let (c, fl) := (Fmt.par .fp32).convert (if src = .int32 then mode else .rne) nonsat v
      (c, { fl with unf := false, ovf := src.isMx && fl.ovf, inx := fl.inx })
  | _ =>
    let (c, fl) := dst.par.convert mode nonsat v
    (c, { fl with inv := isSnan v })

/-- VCVT (R54–R58, R486, *VXE layouts* V2). -/
def vcvtWork (w : Work) (m : Mem) (h : Hw) : Hw × Except Cond (List Edit) :=
  let src := Fmt.get (bitsAt w.word 40 4)
  let dst := Fmt.get (bitsAt w.word 16 4)
  let n := v1N w
  let r := v1R w
  let rnd := bitAt w.word 15
  let nonsat := bitAt w.word 14
  let base := w.x.img.valueOf w.w.lc w.w.lk (bitsAt w.word 2 12) w.fl.iters 48
  match h.vread m w (w.vop 68) r ((n * src.bits + 7) / 8) src.align with
  | (h, .error e) => (h, .error e)
  | (h, .ok xs) =>
    let sc := if src.isMx then h.vread m w (w.vop 56) r (n / 32) 1 else (h, .ok [])
    match sc with
    | (h, .error e) => (h, .error e)
    | (h, .ok ss) =>
      let val := fun i e =>
        let v := src.decode (el (xs.getD i 0) src.bits e)
        if src.isMx then scaleVal (el (ss.getD i 0) 8 (e / 32)) v else v
      let mode := fun i e => rndMode rnd w.x.host.seed base (i * n + e)
      if dst.isMx then
        let blocks := (List.range r).map (fun i => (List.range (n / 32)).map (fun b =>
          mxBlock dst nonsat ((List.range 32).map (fun e => val i (32 * b + e)))
            ((List.range 32).map (fun e => mode i (32 * b + e)))))
        let fl := blocks.foldl (fun a row => row.foldl (fun a b => a.or b.2.2) a) FpFlags.none
        match (h.fpFlags w.k fl).vwrite m w (w.vop 80) 1
            (blocks.map (fun row => packElems dst.bits (row.flatMap (fun b => b.2.1)))) with
        | (h, .error e) => (h, .error e)
        | (h, .ok es) =>
          match h.vwrite m w (w.vop 44) 1 (blocks.map (fun row => row.map (fun b => BitVec.ofNat 8 b.1))) with
          | (h, .error e) => (h, .error e)
          | (h, .ok fs) => (h, .ok (es ++ fs))
      else
        let rows := (List.range r).map (fun i => (List.range n).map (fun e => cvtEl src dst (mode i e) nonsat (val i e)))
        let (bytes, fl) := mapRows dst.bits n rows
        (h.fpFlags w.k fl).vwrite m w (w.vop 80) dst.align bytes

def vcvtEff (r : StreamRef) (sn : Seen) (s : State) : Eff := engineEff r 0x34 sn s vcvtWork
/-- VCVT (R486). -/
def execVcvt (r : StreamRef) (sn : Seen) (s : State) : Res := done s (vcvtEff r sn s)

/-! ## Online softmax (R81, R82) -/

/-- Whether an element is masked (*VSMX mask modes*, R81). -/
def smxMasked (mode q k win : Nat) : Bool :=
  match mode with
  | 0 => false
  | 1 => decide (q < k)
  | _ => decide (q < k) || decide (k + win ≤ q)

/-- One row of VSMX (R82): p codes, m_new, l_new, alpha, and the conditions raised. -/
def smxRow (pf mode win q0 k0 tau mOld lOld : Nat) (scores : List Nat) : List Nat × Nat × Nat × Nat × FpFlags :=
  let un := scores.zipIdx.map (fun (sc, c) => if smxMasked mode q0 (k0 + c) win then none else some (fpMul .fp32 sc tau))
  let fl0 := un.foldl (fun a x => match x with | some y => a.or y.2 | none => a) FpFlags.none
  let mx := un.foldl (fun (a : ElRes) x => match x with
    | some y => let (c, f) := fpMax .fp32 a.1 y.1; (c, a.2.or f)
    | none => a) (mOld, .none)
  let mNew := mx.1
  if mNew = f32NegInf then (scores.map (fun _ => 0), mNew, lOld, f32One, fl0.or mx.2)
  else
    let al : ElRes := if mOld = f32NegInf then (0, .none)
      else let (d, f) := fpSub .fp32 mOld mNew; let (e, g) := expEl d; (e, f.or g)
    let pfmt : Fmt := if pf = 0 then .fp32 else if pf = 1 then .bf16 else .e4m3
    let ps := un.map (fun x => match x with
      | none => ((0 : Nat), FpFlags.none)
      | some y =>
        let (d, f) := fpSub .fp32 y.1 mNew
        let (e, g) := expEl d
        let (c, k) := if pf = 0 then (e, FpFlags.none) else pfmt.par.convert .rne false (Fmt.decode .fp32 e)
        (c, (f.or g).or k))
    let wide := ps.map (fun x => ((if pf = 0 then x.1 else ((Fmt.par .fp32).convert .rne false (pfmt.decode x.1)).1),
      FpFlags.none))
    let sum := (laneReduce (fpAdd .fp32) wide).getD (0, .none)
    let (la, f1) := fpMul .fp32 lOld al.1
    let (ln, f2) := fpAdd .fp32 la sum.1
    let fl := ps.foldl (fun a x => a.or x.2) ((((fl0.or mx.2).or al.2).or (f1.or f2)).or sum.2)
    (ps.map Prod.fst, mNew, ln, al.1, fl)

/-- VSMX (R81, R82, *VXE layouts* V3): writes p, and m_new, l_new and alpha in place. -/
def vsmxWork (w : Work) (m : Mem) (h : Hw) : Hw × Except Cond (List Edit) :=
  let sN := 64 * (bitsAt w.word 13 7 + 1)
  let r := bitsAt w.word 6 7 + 1
  let mode := bitsAt w.word 4 2
  let pf := bitsAt w.word 2 2
  let pBytes := if pf = 0 then 4 else if pf = 1 then 2 else 1
  let q0 := w.x.img.valueOf w.w.lc w.w.lk (bitsAt w.word 32 12) w.fl.iters 24
  let k0 := w.x.img.valueOf w.w.lc w.w.lk (bitsAt w.word 20 12) w.fl.iters 24
  match h.vread m w (w.vop 68) r (4 * sN) 4 with
  | (h, .error e) => (h, .error e)
  | (h, .ok sc) =>
    match h.vread m w (w.vop 56) r 16 4 with
    | (h, .error e) => (h, .error e)
    | (h, .ok st) =>
      match h.vread m w (w.vop 44) 1 8 4 with
      | (h, .error e) => (h, .error e)
      | (h, .ok pr) =>
        let tau := el (pr.getD 0 0) 32 0
        let win := el (pr.getD 0 0) 32 1
        let rows := (List.range r).map (fun i =>
          smxRow pf mode win (q0 + i) k0 tau (el (st.getD i 0) 32 0) (el (st.getD i 0) 32 1)
            ((List.range sN).map (el (sc.getD i 0) 32)))
        let fl := rows.foldl (fun a x => a.or x.2.2.2.2) FpFlags.none
        match (h.fpFlags w.k fl).vwrite m w (w.vop 80) pBytes (rows.map (fun x => packElems (8 * pBytes) x.1)) with
        | (h, .error e) => (h, .error e)
        | (h, .ok es) =>
          match h.vwrite m w (w.vop 56) 4
              (rows.map (fun x => leBytes 4 x.2.1 ++ leBytes 4 x.2.2.1 ++ leBytes 4 x.2.2.2.1)) with
          | (h, .error e) => (h, .error e)
          | (h, .ok fs) => (h, .ok (es ++ fs))

def vsmxEff (r : StreamRef) (sn : Seen) (s : State) : Eff := engineEff r 0x35 sn s vsmxWork
/-- VSMX (R82). -/
def execVsmx (r : StreamRef) (sn : Seen) (s : State) : Res := done s (vsmxEff r sn s)

/-! ## Rotary embedding (R83) -/

/-- The elements of pair `i` of a row of `d` (R83). -/
def ropePair (half : Bool) (d i : Nat) : Nat × Nat := if half then (i, i + d / 2) else (2 * i, 2 * i + 1)

/-- Rotate one pair of FP32 values (R83): each product and sum rounded. -/
def rotate (x y c sn : Nat) : ElRes × ElRes :=
  let (a, f1) := fpMul .fp32 x c
  let (b, f2) := fpMul .fp32 y sn
  let (u, f3) := fpSub .fp32 a b
  let (p, g1) := fpMul .fp32 x sn
  let (q, g2) := fpMul .fp32 y c
  let (v, g3) := fpAdd .fp32 p q
  ((u, (f1.or f2).or f3), (v, (g1.or g2).or g3))

/-- One row of VROPE: `d` elements of `row`, pair j rotated by the cosine and sine that `cs` gives it; BF16 results round the FP32
ones (R83). -/
def ropeRow (fmt : Fmt) (half : Bool) (d row : Nat) (cs : Nat → Nat × Nat) : List ElRes :=
  let narrow := fun (x : ElRes) => if fmt = .bf16 then
      let (c, f) := (Fmt.par .bf16).convert .rne false (Fmt.decode .fp32 x.1); ((c, x.2.or f) : ElRes)
    else x
  let pairs := (List.range (d / 2)).map (fun j =>
    let (a, b) := ropePair half d j
    let (c, sn) := cs j
    let (u, v) := rotate (widen fmt (el row fmt.bits a)) (widen fmt (el row fmt.bits b)) c sn
    (narrow u, narrow v))
  (List.range d).map (fun e =>
    let j := if half then e % (d / 2) else e / 2
    let pr := pairs.getD j ((0, .none), (0, .none))
    if e = (ropePair half d j).1 then pr.1 else pr.2)

/-- VROPE (R83, *VXE layouts* V4). -/
def vropeWork (w : Work) (m : Mem) (h : Hw) : Hw × Except Cond (List Edit) :=
  let fmt := v1Fmt w
  let d := v1N w
  let r := v1R w
  let half := bitAt w.word 19
  let computed := bitAt w.word 18
  let p0 := w.x.img.valueOf w.w.lc w.w.lk (bitsAt w.word 44 12) w.fl.iters 24
  match h.vread m w (w.vop 68) r (fmt.bits / 8 * d) fmt.align with
  | (h, .error e) => (h, .error e)
  | (h, .ok xs) =>
    let tab := if computed then h.vread m w (w.vop 56) 1 (4 * (d / 2)) 4
      else h.vread m w ⟨(w.vop 56).d, (w.vop 56).v + (p0 * (w.vop 56).d.stride : Nat)⟩ r (8 * (d / 2)) 4
    match tab with
    | (h, .error e) => (h, .error e)
    | (h, .ok ts) =>
      let rows := (List.range r).map (fun i => ropeRow fmt half d (xs.getD i 0) (fun j =>
        if computed then trigEl (p0 + i) (el (ts.getD 0 0) 32 j)
        else (el (ts.getD i 0) 32 (2 * j), el (ts.getD i 0) 32 (2 * j + 1))))
      let (bytes, fl) := mapRows fmt.bits d rows
      (h.fpFlags w.k fl).vwrite m w (w.vop 80) fmt.align bytes

def vropeEff (r : StreamRef) (sn : Seen) (s : State) : Eff := engineEff r 0x36 sn s vropeWork
/-- VROPE (R83). -/
def execVrope (r : StreamRef) (sn : Seen) (s : State) : Res := done s (vropeEff r sn s)

/-! ## Slot tables and VGATHER (R84, R155) -/

/-- The slot-table declaration of an identifier (R188). -/
def Image.slot? (i : Image) (n : Nat) : Option SlotDecl := i.slots.find? (fun d => d.id == n)

/-- Read a slot table: its indices in ascending slot order (R155, R188). -/
def Hw.readSlots (h : Hw) (m : Mem) (w : Work) (t : SlotDecl) : Hw × Except Cond (List Nat) :=
  let r := w.x.img.regions.find? (fun d => d.mem == t.mem && d.lc == t.lc && (t.mem == 2 || d.lk == t.lk) && d.loc == t.loc)
  let base := ((r.map (·.base)).getD 0) + t.offset
  match h.srcRow m w.x w.w (t.mem, t.lc, t.lk) ((base : Int), 4 * t.capacity) with
  | (h, .error e) => (h, .error e)
  | (h, .ok p) => let n := leNat (m.row p); (h, .ok ((List.range t.capacity).map (el n 32)))

/-- The empty slot (R84). -/
def emptySlot : Nat := 0xFFFFFFFF

/-- Arguments of SLOT_RANGE (R380). -/
def slotArgs (t : SlotDecl) (slot idx : Nat) : List Byte := leBytes 2 t.id ++ leBytes 2 slot ++ leBytes 4 idx

/-- The first slot whose index is out of range (R84). -/
def badSlot (t : SlotDecl) (idx : List Nat) : Option Nat :=
  idx.findIdx? (fun i => i != emptySlot && decide (t.srcRows ≤ i))

/-- Read the rows that slots choose: an empty slot reads as zero bytes (R84, R155). -/
def Hw.slotRows (m : Mem) (w : Work) (o : VOp) (len : Nat) : Hw → List Nat → Hw × Except Cond (List (List Byte))
  | h, [] => (h, .ok [])
  | h, i :: is =>
    let one : Hw × Except Cond (List Byte) := if i = emptySlot then (h, .ok (List.replicate len 0))
      else
        match h.srcRow m w.x w.w (o.d.unit w.w.lc w.w.lk) (o.v + (i * o.d.stride : Nat), len) with
        | (h, .error e) => (h, .error e)
        | (h, .ok p) => (h, .ok (m.row p))
    match one with
    | (h, .error e) => (h, .error e)
    | (h, .ok b) =>
      match Hw.slotRows m w o len h is with
      | (h, .error e) => (h, .error e)
      | (h, .ok bs) => (h, .ok (b :: bs))

/-- VGATHER (R84, *VXE layouts* V5). An index out of range faults; how many rows of earlier slots were written by then
is a value the spec leaves open (assumption 7). -/
def vgatherWork (w : Work) (m : Mem) (h : Hw) : Hw × Except Cond (List Edit) :=
  let len := 4 * (bitsAt w.word 27 13 + 1)
  match w.x.img.slot? (bitsAt w.word 56 12) with
  | none => (h, .ok [])
  | some t =>
    match h.readSlots m w t with
    | (h, .error e) => (h, .error e)
    | (h, .ok idx) =>
      match Hw.slotRows m w (w.vop 68) len h (idx.take ((badSlot t idx).getD idx.length)) with
      | (h, .error e) => (h, .error e)
      | (h, .ok rows) => h.vwrite m w (w.vop 80) 1 rows

/-- The condition of a VGATHER whose table holds an index out of range (R84). -/
def vgatherBad (w : Work) (m : Mem) (h : Hw) : Option (SlotDecl × Nat × Nat) :=
  match w.x.img.slot? (bitsAt w.word 56 12) with
  | none => none
  | some t =>
    match (h.readSlots m w t).2 with
    | .error _ => none
    | .ok idx => (badSlot t idx).map (fun n => (t, n, idx.getD n 0))

/-- The effect of VGATHER: the copy, or the fault of R84 with its partial write. -/
def vgatherEff (r : StreamRef) (sn : Seen) (s : State) : Eff :=
  match s.hw.work r 0x37 with
  | none => { hw := s.hw }
  | some w =>
    let m := s.mem.seen sn
    let h := s.hw.seen sn
    match vgatherBad w m h with
    | none => engineEff r 0x37 sn s vgatherWork
    | some (t, n, i) =>
      let (free, h) := h.takeFree
      let (h, part) := vgatherWork w m h
      let es := match part with
        | .ok es => es.take (free % (es.length + 1))
        | .error _ => []
      { hw := h.workFault w ⟨dSlotRange, slotArgs t n i⟩, edits := seenEdits sn ++ es }

/-- VGATHER (R84). -/
def execVgather (r : StreamRef) (sn : Seen) (s : State) : Res := done s (vgatherEff r sn s)

end Sys2Proof.Machine
end

