-- ==== Sys2Proof/Machine/Time.lean ====
section
/-!
DEFINITION. The time model (R65, R165–R168) and the footprints of transfers (R63), which the TXE's hazard hold and the model
share.
-/
namespace Sys2Proof.Machine

/-! ## Operands of the TXE layouts (*TXE layouts*, R179) -/

/-- The descriptor that field `lo` of a word names. -/
def Image.opnd (i : Image) (lc lk w lo : Nat) : Desc := (i.desc? lc lk (bitsAt w lo 12)).getD noDesc

/-- Rows and row bytes of a MOVE and of a FILL. -/
def moveRows (w : Nat) : Nat := bitsAt w 40 16 + 1
def moveBytes (w : Nat) : Nat := 4 * (bitsAt w 22 18 + 1)
def fillRows (w : Nat) : Nat := bitsAt w 32 16 + 1
def fillBytes (w : Nat) : Nat := 4 * (bitsAt w 14 18 + 1)

/-- Entries, first byte within the page, and copied bytes of a MOVEPG. -/
def pgCount (w : Nat) : Nat := bitsAt w 54 14 + 1
def pgOff (w : Nat) : Nat := 32 * bitsAt w 38 16
def pgBytes (w : Nat) : Nat := 32 * (bitsAt w 22 16 + 1)

/-! ## Footprints (R63, R167) -/

/-- Where an operand's memory begins among the spaces of footprints: the machine's addresses, or an HBM region's offsets. -/
def Ctx.spaceOf (x : Ctx) (d : Desc) (lc lk : Nat) : Nat × Nat :=
  let (mem, a, b) := d.unit lc lk
  if mem = 1 then (0, spadBase ((x.core? a b).getD 0)) else if mem = 2 then (0, cmemBase ((x.clus? a).getD 0)) else (1 + a, 0)

/-- The bytes of `n` rows of `len` bytes at a stride from `v`; contiguous rows are one range. An address in a window of
cluster memory stands for its plain address (R98). -/
def Ctx.rangesOf (x : Ctx) (d : Desc) (lc lk : Nat) (v : Int) (n len : Nat) : List Rng :=
  let (sp, b) := x.spaceOf d lc lk
  let at' := fun (u : Int) => b + (if d.kind = 2 ∨ d.kind = 5 then u.toNat % 2 ^ 25 else u.toNat)
  if n = 1 ∨ d.stride = len then [⟨sp, at' v, n * len⟩]
  else (List.range n).map (fun i => ⟨sp, at' (v + (i * d.stride : Nat)), len⟩)

/-- Whether two footprints share a byte. -/
def shares (a b : List Rng) : Bool :=
  a.any (fun p => b.any (fun q => p.space == q.space && overlaps p.lo p.len q.lo q.len))

/-- Whether an instruction conflicts with an earlier one (R63). -/
def conflicts (src dst esrc edst : List Rng) : Bool := shares dst esrc || shares dst edst || shares src edst

/-- Bytes of a COLL's contribution and result (R187, R295): `m` members. -/
def collBytes (d : CollDecl) (m : Nat) : Nat × Nat :=
  (d.bytes, if d.op = 2 then m * d.bytes else if d.op = 1 then d.bytes / m else d.bytes)

/-- The source and destination bytes of a TXE instruction (R63). -/
def Hw.footprint (h : Hw) (x : Ctx) (lc lk w : Nat) (iters : List Nat) : List Rng × List Rng :=
  let i := x.img
  let d := fun lo => i.opnd lc lk w lo
  let v := fun lo => (d lo).value iters
  match opcOf w with
  | 0x40 =>
    let src := match i.slot? (bitsAt w 56 12) with
      | some t => x.rangesOf (d 68) lc lk (v 68) t.srcRows (moveBytes w)
      | none => x.rangesOf (d 68) lc lk (v 68) (moveRows w) (moveBytes w)
    (src, x.rangesOf (d 80) lc lk (v 80) (moveRows w) (moveBytes w))
  | 0x41 =>
    (x.rangesOf (d 68) lc lk (v 68) 1 (8 * pgCount w) ++ i.hbm.map (fun r => (⟨1 + r.region, 0, r.pages * pageBytes⟩ : Rng)),
      x.rangesOf (d 80) lc lk (v 80) (pgCount w) (pgBytes w))
  | 0x43 =>
    match i.colls.find? (fun c => c.id == bitsAt w 44 12) with
    | none => ([], [])
    | some c =>
      let (a, b) := collBytes c (h.fld (Fd.CVE_GRP_W2.M c.group))
      (x.rangesOf (d 80) lc lk (v 80) 1 a, x.rangesOf (d 68) lc lk (v 68) 1 b)
  | 0x44 => ([], x.rangesOf (d 80) lc lk (v 80) (fillRows w) (fillBytes w))
  | _ => ([], [])

/-! ## Costs (R65, R71, R79, R166) -/

/-- A quotient rounded up. -/
def ceilDiv (a b : Nat) : Nat := (a + b - 1) / b

/-- The rate of an end (*Model rates*). -/
def Image.modelRate (i : Image) (d : Desc) (lc : Nat) : Nat :=
  match d.kind with
  | 1 | 2 => 256
  | 3 => if ((i.hbm? d.hreg).map (·.near)).getD false then 128 else 96
  | _ => if d.rlc = lc then 96 else 64

/-- The cost of a vector instruction (*VXE operations*). -/
def vxeCost (i : Image) (w : Nat) : Nat :=
  let n := (bitsAt w 27 13 + 1) * (bitsAt w 20 7 + 1)
  match opcOf w with
  | 0x30 => ceilDiv n 256 + 8
  | 0x31 | 0x32 | 0x33 => ceilDiv n 64 + 4
  | 0x34 => ceilDiv n 256 + 4
  | 0x35 => ceilDiv (64 * (bitsAt w 13 7 + 1) * (bitsAt w 6 7 + 1)) 64 + 16
  | 0x36 => (if bitAt w 18 then ceilDiv n 64 else ceilDiv n 256) + 4
  | 0x37 => ((i.slot? (bitsAt w 56 12)).map (·.capacity)).getD 0 * ceilDiv (4 * (bitsAt w 27 13 + 1)) 1024 + 4
  | _ => (if Fmt.get (bitsAt w 40 4) = .bf16 then ceilDiv n 512 else ceilDiv n 256) + 4

/-- Occupancy and latency of an instruction of the TXE stream (*TXE model costs*). -/
def Image.txeCost (i : Image) (lc lk w : Nat) : Nat × Nat :=
  let d := fun lo => i.opnd lc lk w lo
  match opcOf w with
  | 0x40 =>
    let c := 32 + ceilDiv (moveRows w * moveBytes w) (min (i.modelRate (d 80) lc) (i.modelRate (d 68) lc))
    (c, c)
  | 0x41 => let c := 32 + pgCount w * (16 + ceilDiv (pgBytes w) (i.modelRate (d 68) lc)); (c, c)
  | 0x42 => (8, 8)
  | 0x43 => (32, ((i.colls.find? (fun c => c.id == bitsAt w 44 12)).map (·.est)).getD 0)
  | 0x44 => let c := 32 + ceilDiv (fillRows w * fillBytes w) (i.modelRate (d 80) lc); (c, c)
  | _ => (1, 1)

/-- The operands of an MMA, MMAZ or LOADB that has not started (R66, R69). -/
def Ctx.mmaOpsAt (x : Ctx) (k lc lk s w : Nat) (iters : List Nat) : MmaOps :=
  (⟨x, k, ⟨0, lc, lk, s, 0, none⟩, ⟨0, iters, 0, 0, 0, 0, 0, [], [], false, 0, none, true, 0⟩, w⟩ : Work).mmaOps

/-- Whether an MMA or MMAZ may use the staged heads of its engine (R69). -/
def Hw.stagedFor (h : Hw) (x : Ctx) (k lc lk s w : Nat) (iters : List Nat) : Bool :=
  let m := h.mxeOf k s
  match m.staged with
  | some t => t.serves (x.mmaOpsAt k lc lk s w iters) m
  | none => false

/-- The cost of an instruction of a stream other than the TXE's (R65, R166). -/
def Hw.cost (h : Hw) (x : Ctx) (k lc lk s w : Nat) (iters : List Nat) : Nat :=
  match opcOf w with
  | 0x05 | 0x15 => 4
  | 0x10 | 0x11 => 1
  | 0x12 | 0x13 =>
    let m := h.mxeOf k s
    mmaSteps m.aFmt m.bFmt (x.mmaOpsAt k lc lk s w iters).k + (if h.stagedFor x k lc lk s w iters then 0 else 64)
  | 0x14 => 72
  | o => if o < 5 then 1 else vxeCost x.img w

/-! ## Model times (R167) -/

/-- The model times of an instruction and the stream's model after it: `ready` is the latest model time of the tokens it
takes. -/
def Hw.modelStep (h : Hw) (x : Ctx) (k lc lk s w : Nat) (iters : List Nat) (ready : Nat) (src dst : List Rng)
    (st : Stream) : Nat × Nat × Stream :=
  if s = 3 then
    let (occ, lat) := x.img.txeCost lc lk w
    let base := max (max ready (st.mStart + st.mOcc)) (((st.mWindow[7]?).map (·.retire)).getD 0)
    let start := (st.mWindow.filter (fun y => conflicts src dst y.src y.dst)).foldl (fun a y => max a y.retire) base
    let retire := max (start + lat) st.mRetire
    (start, retire, { st with mStart := start, mOcc := occ, mRetire := retire,
                              mWindow := ((⟨retire, src, dst⟩ : MEntry) :: st.mWindow).take 8 })
  else
    let uses := (opcOf w == 0x12 || opcOf w == 0x13) && h.stagedFor x k lc lk s w iters
    let base := max ready st.mRetire
    let start := if uses then max base (((st.mStage.map Prod.fst).map (· + 64)).getD 0) else base
    let retire := start + h.cost x k lc lk s w iters
    (start, retire, { st with mStart := start, mRetire := retire,
                              mStage := if opcOf w = 0x11 then some (start, 0) else st.mStage })

/-- The model arrival of a stream at its BAR or HALT: the TXE also waits for the retirement of its last instruction. -/
def Stream.modelArrival (st : Stream) (s : Nat) : Nat := if s = 3 then max (st.mStart + st.mOcc) st.mRetire else st.mRetire

end Sys2Proof.Machine
end

