-- ==== Sys2Proof/Machine/Sched.lean ====
section
/-!
DEFINITION. The core sequencer (06_schedule_contract.md): which instruction of a stream starts and when, what starting and
retiring do, the control instructions NOP, LOOP, ENDLOOP and CTRRD, tokens from other cores, and the stream watchdog.
-/
namespace Sys2Proof.Machine

/-! ## Starting (R62, R63, R139, R143) -/

/-- The word a stream comes to next. -/
def Ctx.nextWord (x : Ctx) (key : Nat) : Option Nat := (x.img.words key)[(x.run.strm key).pc]?

/-- Whether an instruction of a stream's opcode changes where the stream goes. -/
def isLoop (w : Nat) : Bool := opcOf w == 1 || opcOf w == 2

/-- Whether the predecessor rule and the hazard hold admit the stream's next instruction (R62, R63, R139, R158): what is left
is its tokens. -/
def Hw.admits (h : Hw) (x : Ctx) (lc lk s : Nat) : Bool :=
  let key := strmKey lc lk s
  let st := x.run.strm key
  match x.nextWord key with
  | none => false
  | some w =>
    x.host.st == .running && !x.host.stopping && x.run.bar == .none && st.arrival == .none && x.img.hasCore lc lk &&
      (if s = 3 ∧ opcOf w ≠ 3 ∧ opcOf w ≠ 4 then
        let (src, dst) := h.footprint x lc lk w st.iters
        decide (st.inflight.length < 8) &&
          st.inflight.all (fun f => !conflicts src dst f.src f.dst &&
            (f.done || !isLoop ((x.img.words key).getD f.idx 0)))
      else st.inflight.isEmpty)

/-- The first channel that a stream's next instruction waits on and that lacks its token (R143). -/
def Ctx.lacking (x : Ctx) (lc lk : Nat) (ws : List Nat) : Option ChanDecl :=
  match ws.find? (fun w => !x.tokensReady lc lk (ws.filter (fun v => v == w))) with
  | some w => x.img.chan? lc lk w
  | none => none

/-- Whether a stream has arrived at its BAR or HALT (R158, R159). -/
def Ctx.hasArrived (x : Ctx) (p : Nat × Nat × Nat) : Bool := (x.run.strm (strmKey p.1 p.2.1 p.2.2)).arrival != .none

/-- The streams of a context, lowest logical cluster, logical core and number first (R164). -/
def Ctx.allStreams (x : Ctx) : List (Nat × Nat × Nat) :=
  x.img.cores.flatMap (fun (lc, lk) => (List.range 5).map (fun s => (lc, lk, s)))

/-- TOKEN_UNDERFLOW (R163): the first stream that waits on a channel whose producer has arrived at BAR or HALT. -/
def Hw.underflow (h : Hw) (c : Nat) : Hw :=
  match h.ctx? c with
  | none => h
  | some x =>
    let bad := x.allStreams.findSome? (fun (lc, lk, s) =>
      if h.admits x lc lk s then
        match x.lacking lc lk (waitsOf ((x.nextWord (strmKey lc lk s)).getD 0)) with
        | some d => if x.hasArrived d.producerOf then some (lc, lk, s, d) else none
        | none => none
      else none)
    match bad with
    | some (lc, lk, s, d) =>
      h.strmFault c lc lk s (x.run.strm (strmKey lc lk s)).pc ⟨dTokenUnderflow, chanArgs d (x.chan d).tokens.length⟩
        (x.chanCore d)
    | none => h

/-- What CTRRD reads (R430, *CTRRD selector*). -/
def Hw.ctrrd (h : Hw) (k w : Nat) : Nat :=
  let sel := bitsAt w 64 16
  let n := bitsAt sel 0 5
  let ctr := fun bank =>
    if n % 2 = 0 ∧ h.flag (Fd.CTR_CFG.CHAIN bank n) = true then
      (h.ctrVal bank n + 2 ^ 48 * h.ctrVal bank (n + 1)) % 2 ^ 64
    else h.ctrVal bank n
  match bitsAt sel 14 2 with
  | 0 => ctr (bankCore k)
  | 1 => ctr (bankClus (k / 9))
  | 2 => (h.reg (Reg.VXE_FPFLAGS k)).toNat % 16
  | _ => h.tb

/-- Take the tokens of an instruction, in order of its wait fields: the run after it and the latest model time (R143, R167). -/
def CtxRun.takeAll (r : CtxRun) (i : Image) (lc lk : Nat) (ws : List Nat) : CtxRun × Nat :=
  ws.foldl (fun (acc : CtxRun × Nat) ch =>
    match i.chan? lc lk ch with
    | some d => let (r, t) := acc.1.take i d; (r, max acc.2 t)
    | none => acc) (r, 0)

/-- The channel that a TPOST posts to. -/
def Image.tpostChan (i : Image) (w : Nat) : Option ChanDecl := i.chan? (bitsAt w 86 6) (bitsAt w 83 3) (bitsAt w 77 6)

/-- Count a TPOST that its stream has issued (R146). -/
def CtxRun.countTpost (r : CtxRun) (i : Image) (w : Nat) : CtxRun :=
  match i.tpostChan w with
  | some d =>
    let ch := Tab.getD r.chans (chanKey d.lc d.lk d.ch) d.fresh
    r.putChan d { ch with posted := ch.posted + 1 }
  | none => r

/-- Start the next instruction of a stream: its tokens are taken, its model times follow, and it is in progress. -/
def Hw.startInstr (h : Hw) (c : Nat) (x : Ctx) (k lc lk s w : Nat) : Hw :=
  let key := strmKey lc lk s
  let st := x.run.strm key
  let it := st.iters
  let (src, dst) := if s = 3 then h.footprint x lc lk w it else ([], [])
  let (run, ready) := x.run.takeAll x.img lc lk (waitsOf w)
  let (ms, mr, st') := h.modelStep x k lc lk s w it ready src dst st
  let now := h.steps (k / 9)
  let wait := match (h.mxeOf k s).staged with
    | some t => if (opcOf w == 0x12 || opcOf w == 0x13) && h.stagedFor x k lc lk s w it then t.issueSteps + 64 - now else 0
    | none => 0
  let fl : Infl :=
    { idx := st.pc, iters := it, startTb := h.tb, startSteps := now, waitNs := h.tb - st.lastTb, mStart := ms,
      mRetire := mr, src := src, dst := dst, done := false,
      cost := if s = 3 then (if opcOf w < 5 then 1 else 0) else h.cost x k lc lk s w it + wait,
      coll := none, landed := opcOf w != 0x42, val := if opcOf w = 5 then h.ctrrd k w else 0 }
  let run := if opcOf w = 0x42 then run.countTpost x.img w else run
  h.setCtx c { x with run := run.modStrm key (fun _ => { st' with pc := st.pc + 1, inflight := st.inflight ++ [fl],
                                                                  waiting := false }) }

/-- The effect of INSTRUCTION_START: nothing where the instruction may not start; a stream whose token can never come faults
its context. -/
def startHw (r : StreamRef) (h : Hw) : Hw :=
  let (c, lc, lk, s) := (r.ctx.val, r.lc.val, r.lk.val, r.strm.val)
  match h.ctx? c with
  | none => h
  | some x =>
    match x.core? lc lk, x.nextWord (strmKey lc lk s) with
    | some k, some w =>
      if h.admits x lc lk s = false ∨ h.gateOpen = false ∨ opcOf w = 3 ∨ opcOf w = 4 then h
      else if x.tokensReady lc lk (waitsOf w) then (h.startInstr c x k lc lk s w).underflow c
      else h.underflow c
    | _, _ => h
/-- INSTRUCTION_START (R139). -/
def execInstructionStart (r : StreamRef) (s : State) : Res := keep s (startHw r s.hw)

/-! ## Control instructions (R140, R141, R430) -/

/-- NOP takes and posts tokens, and does no other work. -/
def nopHw (r : StreamRef) (s : State) : Hw := controlEff r 0x00 s (fun _ h => (h, .ok ()))
/-- NOP (R140). -/
def execNop (r : StreamRef) (s : State) : Res := keep s (nopHw r s)

/-- The index after the ENDLOOP that matches a LOOP whose body begins at the head of a list of words. -/
def afterLoop : List Nat → Nat → Nat → Nat
  | [], _, n => n
  | w :: ws, depth, n =>
    if opcOf w = 1 then afterLoop ws (depth + 1) (n + 1)
    else if opcOf w = 2 then (if depth = 0 then n + 1 else afterLoop ws (depth - 1) (n + 1))
    else afterLoop ws depth (n + 1)

/-- LOOP opens a loop; a count of 0 skips the body, and a bounded count above its maximum faults (R141, R156). -/
def loopWork (w : Work) (h : Hw) : Hw × Except Cond Unit :=
  let key := strmKey w.w.lc w.w.lk w.w.s
  let bounded := bitAt w.word 91
  let top := bitsAt w.word 67 24
  let n := bitsAt w.word 63 4
  let v := (w.x.run.lens.getD n 0).toNat
  let count := if bounded then v else top
  if bounded ∧ top < v then (h, .error ⟨dTripBound, leBytes 1 n ++ leBytes 3 0 ++ leBytes 4 v ++ leBytes 4 top⟩)
  else
    (h.modRun w.w.c (fun r => r.modStrm key (fun st =>
      if count = 0 then { st with pc := afterLoop ((w.x.img.words key).drop (w.fl.idx + 1)) 0 (w.fl.idx + 1) }
      else { st with loops := ⟨w.fl.idx, count, 0⟩ :: st.loops })), .ok ())
/-- The effect of LOOP. -/
def loopHw (r : StreamRef) (s : State) : Hw := controlEff r 0x01 s loopWork
/-- LOOP (R141). -/
def execLoop (r : StreamRef) (s : State) : Res := keep s (loopHw r s)

/-- ENDLOOP closes the innermost loop or repeats its body. -/
def endloopWork (w : Work) (h : Hw) : Hw × Except Cond Unit :=
  (h.modRun w.w.c (fun r => r.modStrm (strmKey w.w.lc w.w.lk w.w.s) (fun st =>
    match st.loops with
    | [] => st
    | f :: fs => if f.iter + 1 < f.count then { st with loops := { f with iter := f.iter + 1 } :: fs, pc := f.idx + 1 }
      else { st with loops := fs })), .ok ())
/-- The effect of ENDLOOP. -/
def endloopHw (r : StreamRef) (s : State) : Hw := controlEff r 0x02 s endloopWork
/-- ENDLOOP (R141). -/
def execEndloop (r : StreamRef) (s : State) : Res := keep s (endloopHw r s)

/-- CTRRD writes the 64 bits it read at its start (R430). -/
def ctrrdWork (w : Work) (m : Mem) (h : Hw) : Hw × Except Cond (List Edit) := h.vwrite m w (w.vop 80) 8 [leBytes 8 w.fl.val]
/-- The effect of CTRRD. -/
def ctrrdEff (r : StreamRef) (sn : Seen) (s : State) : Eff := engineEff r 0x05 sn s ctrrdWork
/-- CTRRD (R430). -/
def execCtrrd (r : StreamRef) (sn : Seen) (s : State) : Res := done s (ctrrdEff r sn s)

/-! ## Sampling (R432, R433) -/

/-- Whether the first operand field of an opcode names a descriptor. -/
def namesFirst (o : Nat) : Bool := o == 5 || (decide (0x11 ≤ o) && o != 0x42)

/-- A sample record. -/
def sampleRec (x : Ctx) (k lc lk s tb : Nat) (f : Infl) (w : Nat) : List Byte :=
  let v := if namesFirst (opcOf w) then ((x.img.desc? lc lk (bitsAt w 80 12)).map (fun d => d.value f.iters)).getD 0 else 0
  leBytes 8 tb ++ leBytes 1 lc ++ leBytes 1 (lk + 8 * s) ++ leBytes 2 (k % 9) ++ leBytes 4 (f.idx + opcOf w * 2 ^ 24) ++
    leBytes 8 (toSigned 64 v) ++ leBytes 4 (min (tb - f.startTb) 0xFFFFFFFF) ++ leBytes 4 (min f.waitNs 0xFFFFFFFF)

/-- Count a retirement on physical core `k` and record every N-th one. -/
def Hw.sample (h : Hw) (k : Nat) (rec : List Byte) : Hw × List Edit :=
  let c := k / 9
  let p := (h.clusOf c).samp
  if p.armed then
    let counts := (List.range 9).map (fun j => p.counts.getD j 0 + if j = k % 9 then 1 else 0)
    let p := { p with counts := counts }
    if counts.getD (k % 9) 0 % 2 ^ p.log2n = 0 then
      let full := decide (p.limit ≤ p.next + 1)
      let p' : Sampling := { p with next := if full && p.wrap then 0 else p.next + 1, armed := !full || p.wrap }
      let h := h.modClus c (fun x => { x with samp := p' })
      let h := (h.setFld (Fd.TRC_SAMPLE_STATUS.NEXT c) p'.next).setFlag (Fd.TRC_SAMPLE_STATUS.ARMED c) p'.armed
      (if full && !p.wrap then h.setFlag (Fd.TRC_SAMPLE_STATUS.SAMPLE_FULL c) true else h,
        storeEdits (traceBase c + 32 * p.next) rec)
    else (h.modClus c (fun x => { x with samp := p }), [])
  else (h, [])

/-! ## Retiring (R63, R91, R139, R143) -/

/-- Whether the collective that an instruction handed over has given its result (R91). -/
def Hw.collDone (h : Hw) (f : Infl) : Bool :=
  match f.coll with
  | none => true
  | some k => !h.cve.colls.any (fun c => c.grp * 65536 + c.seq == k && !c.finished)

/-- Whether the oldest instruction in progress may retire: its effect has happened, its token has landed, its collective has
its result, and its steps have been issued (R65). -/
def Hw.retirable (h : Hw) (k : Nat) (f : Infl) : Bool :=
  f.done && f.landed && h.collDone f && decide (f.startSteps + f.cost ≤ h.steps (k / 9))

/-- Post the tokens of a retiring instruction. -/
def Hw.postAll (h : Hw) (c lc lk s idx mt : Nat) (i : Image) (ws : List Nat) : Hw :=
  ws.foldl (fun h ch =>
    match i.chan? lc lk ch with
    | some d => h.post c lc lk s idx d mt
    | none => h) h

/-- A context that a CTX_STOP is stopping is stopped once no stream has an instruction in progress (R333). -/
def Hw.stopCheck (h : Hw) (c : Nat) : Hw :=
  match h.ctx? c with
  | none => h
  | some x =>
    if x.host.st = .running ∧ x.host.stopping = true ∧
        (x.allStreams.all (fun p => (x.run.strm (strmKey p.1 p.2.1 p.2.2)).inflight.isEmpty)) = true then
      let h := h.modCtx c (fun x => { x with host := { x.host with st := .stopped, stopping := false, stopTb := h.tb } })
      h.finishAll (fun k => k.ctx == h.handle c && k.opcode == 0x0303) stOk [] []
    else h

/-- The effect of INSTRUCTION_RETIRE. -/
def retireEff (r : StreamRef) (s : State) : Eff :=
  let h := s.hw
  let (c, lc, lk, n) := (r.ctx.val, r.lc.val, r.lk.val, r.strm.val)
  let key := strmKey lc lk n
  match h.ctx? c with
  | none => { hw := h }
  | some x =>
    match x.core? lc lk, (x.run.strm key).inflight with
    | some k, f :: fs =>
      if (x.host.st = .running ∨ x.host.st = .stopped) ∧ h.gateOpen = true ∧ h.retirable k f = true then
        let w := (x.img.words key).getD f.idx 0
        let h := h.modRun c (fun q =>
          { q.modStrm key (fun st => { st with inflight := fs, lastTb := h.tb }) with
            holds := if opcOf w = 0x14 then q.holds.drop key else q.holds })
        let h := h.countCore k { code := 0x02, masters := [n + 1] } 1
        let (h, es) := h.sample k (sampleRec x k lc lk n h.tb f w)
        { hw := ((h.postAll c lc lk n f.idx f.mRetire x.img (postsOf w)).underflow c).stopCheck c, edits := es }
      else { hw := h }
    | _, _ => { hw := h }
/-- INSTRUCTION_RETIRE (R139). -/
def execInstructionRetire (r : StreamRef) (s : State) : Res := done s (retireEff r s)

/-! ## Tokens from other cores (R90, R145, R146) -/

/-- The oldest TPOST of a stream whose token is on its way: its place among the instructions in progress, itself and its
word. -/
def Ctx.tokenOnWay (x : Ctx) (key : Nat) : Option (Nat × Infl × Nat) :=
  let st := x.run.strm key
  match st.inflight.findIdx? (fun f => f.done && !f.landed) with
  | none => none
  | some n => (st.inflight[n]?).map (fun f => (n, f, (x.img.words key).getD f.idx 0))

/-- Arguments of SIZE_MISMATCH (R380). -/
def sizeArgs (d : ChanDecl) (n got : Nat) : List Byte := chanArgs d n ++ [0, 0] ++ leBytes 4 got ++ leBytes 4 d.paySize

/-- The effect of TOKEN_ARRIVAL: the byte count of the payload is checked, and the token is added (R143, R144, R146). -/
def tokenHw (r : StreamRef) (h : Hw) : Hw :=
  let (c, lc, lk, s) := (r.ctx.val, r.lc.val, r.lk.val, r.strm.val)
  let key := strmKey lc lk s
  match h.ctx? c with
  | none => h
  | some x =>
    match x.tokenOnWay key with
    | none => h
    | some (n, f, w) =>
      match x.img.tpostChan w with
      | none => h
      | some d =>
        if x.executes s then
          let ch := x.chan d
          let got := (((ch.pay.filter (fun q => q.1 == ch.arrived)).map Prod.snd)).foldl (· + ·) 0
          let h := h.modRun c (fun q =>
            (q.modStrm key (fun st => { st with inflight := modAt st.inflight n (fun f => { f with landed := true }) })).putChan d
              { ch with arrived := ch.arrived + 1 })
          let full := decide (d.depth ≤ ch.tokens.length)
          let owns := (x.img.handoffs d.lc d.lk d.ch).all (fun g => x.owner g == .strm lc lk s)
          if !full && owns && d.payLocal != 255 && got != d.paySize then
            h.strmFault c lc lk s f.idx ⟨dSizeMismatch, sizeArgs d ch.tokens.length got⟩ (x.chanCore d)
          else (h.post c lc lk s f.idx d f.mRetire).underflow c
        else h
/-- TOKEN_ARRIVAL (R146). -/
def execTokenArrival (r : StreamRef) (s : State) : Res := keep s (tokenHw r s.hw)

/-! ## The stream watchdog (R165) -/

/-- The stream that a STALL fault names: the stalled one, or for a barrier the first stream that has not arrived. -/
def Ctx.stallNames (x : Ctx) (p : Nat × Nat × Nat) : Nat × Nat × Nat :=
  if x.hasArrived p then (x.allStreams.find? (fun q => !x.hasArrived q)).getD p else p

/-- Arguments of the STALL details (R380). -/
def Ctx.stallArgs (x : Ctx) (q : Nat × Nat × Nat) (ns : Nat) : List Byte :=
  let ws := waitsOf ((x.nextWord (strmKey q.1 q.2.1 q.2.2)).getD 0)
  let ch := if (x.run.strm (strmKey q.1 q.2.1 q.2.2)).arrival = .none then x.lacking q.1 q.2.1 ws else none
  leBytes 1 ((ch.map (·.ch)).getD 0xFF) ++ leBytes 1 (x.strmState q.1 q.2.1 q.2.2) ++ leBytes 6 0 ++ leBytes 8 ns

/-- The effect of STREAM_WATCHDOG_EXPIRY: nothing before the stall limit, while the context is stopped, while the pace gate is
closed (R415), or for a stream that does not exist. -/
def watchdogHw (r : StreamRef) (h : Hw) : Hw :=
  let p := (r.lc.val, r.lk.val, r.strm.val)
  match h.ctx? r.ctx.val with
  | none => h
  | some x =>
    let st := x.run.strm (strmKey p.1 p.2.1 p.2.2)
    let ns := h.tb - st.lastTb
    if x.host.st = .running ∧ h.gateOpen = true ∧ x.img.hasCore p.1 p.2.1 = true ∧ x.host.stallMs * 1000000 ≤ ns then
      let q := x.stallNames p
      let detail := if x.hasArrived p then dBarStall else dStreamStall
      h.strmFault r.ctx.val q.1 q.2.1 q.2.2 (x.run.strm (strmKey q.1 q.2.1 q.2.2)).oldest ⟨detail, x.stallArgs q ns⟩
        ((x.core? q.1 q.2.1).getD 0)
    else h
/-- STREAM_WATCHDOG_EXPIRY (R165). -/
def execStreamWatchdogExpiry (r : StreamRef) (s : State) : Res := keep s (watchdogHw r s.hw)

end Sys2Proof.Machine
end

