-- ==== Sys2Proof/Machine/Barrier.lean ====
section
/-!
DEFINITION. Epoch barriers and the end of a context (R102, R156–R159, R163, R217, R218, R407).
-/
namespace Sys2Proof.Machine

/-! ## The forecast (R407) -/

/-- The descriptors that the next `n` BARs of a stream name, from the words at `pc` on: loops without a BAR are passed over.
`fuel` bounds the instructions followed. -/
def nextBars (ws : List Nat) (lens : List W32) : Nat → Nat → Nat → List LoopFr → List Nat
  | 0, _, _, _ => []
  | _, 0, _, _ => []
  | fuel + 1, n + 1, pc, ls =>
    match ws[pc]? with
    | none => []
    | some w =>
      match opcOf w with
      | 1 =>
        let count := if bitAt w 91 then (lens.getD (bitsAt w 63 4) 0).toNat else bitsAt w 67 24
        let stop := afterLoop (ws.drop (pc + 1)) 0 (pc + 1)
        if count = 0 ∨ (((ws.drop pc).take (stop - pc)).all (fun v => opcOf v != 3)) = true then
          nextBars ws lens fuel (n + 1) stop ls
        else nextBars ws lens fuel (n + 1) (pc + 1) (⟨pc, count, 0⟩ :: ls)
      | 2 =>
        match ls with
        | [] => nextBars ws lens fuel (n + 1) (pc + 1) []
        | f :: fs =>
          if f.iter + 1 < f.count then nextBars ws lens fuel (n + 1) (f.idx + 1) ({ f with iter := f.iter + 1 } :: fs)
          else nextBars ws lens fuel (n + 1) (pc + 1) fs
      | 3 => bitsAt w 82 10 :: nextBars ws lens fuel n (pc + 1) ls
      | 4 => []
      | _ => nextBars ws lens fuel (n + 1) (pc + 1) ls

/-- The epochs that a context's hints come from: the one it is in or is entering, and the next three that the BARs of the SEQ
stream of its lowest logical core name. `pc` is where that stream stands. -/
def Ctx.hintEpochs (x : Ctx) (desc : Nat) (past : Bool) : List Nat :=
  match x.img.cores with
  | [] => [desc]
  | (lc, lk) :: _ =>
    let key := strmKey lc lk 4
    let ws := x.img.words key
    let st := x.run.strm key
    desc :: nextBars ws x.run.lens (16 * (ws.length + 1)) 3 (if past then st.pc + 1 else st.pc) st.loops

/-- What a context adds to the forecast. -/
def Ctx.hint (x : Ctx) (idle desc : Nat) (past : Bool) : Nat :=
  ((x.hintEpochs desc past).map (fun e => ((x.img.epochs[e]?).map (·.avgW)).getD 0)).foldl max 0 - idle

/-- The forecast when context `c` enters epoch `desc`. -/
def Hw.forecast (h : Hw) (c desc : Nat) (past : Bool) : Nat :=
  let idle := h.fld Fd.PWR_IDLE.IDLE_W
  idle + (h.ctxs.map (fun (k, x) =>
    if k = c then x.hint idle desc past
    else if x.host.st = .running ∧ x.resident = true then x.hint idle x.run.epochDesc false else 0)).foldl (· + ·) 0

/-- FORECAST (R407): where it exceeds the cap, the pace of the entering context's clusters is preset in proportion; else a
preset ends. -/
def Hw.applyForecast (h : Hw) (c desc : Nat) (past : Bool) : Hw :=
  match h.ctx? c with
  | none => h
  | some x =>
    let f := h.forecast c desc past
    let cap := h.fld Fd.PWR_CAP.EFF_CAP_W
    let cls := ((x.host.place.map (fun p => p.clusters.map Prod.snd)).getD [])
    let peak := ((x.img.epochs[desc]?).map (·.peakUs)).getD 0
    let t := h.pwr.preset.filter (fun q => !cls.contains q.1)
    let t := if cap < f ∧ 5000 ≤ peak then
        cls.foldl (fun (t : Tab Nat) k => t.put k (max 10 (h.fld (Fd.PWR_DIE_PACE.PROG_MSTEPS (k / 8)) * cap / f))) t
      else t
    ({ h with pwr := { h.pwr with preset := t } } : Hw).repace

/-! ## The next epoch (R102, R156, R158 steps 4 and 5) -/

/-- The banks of a context with the states of an epoch (R186): a word for each logical core, then for each logical cluster. -/
def Ctx.bankPlan (x : Ctx) (desc : Nat) : List (Nat × Nat) :=
  let set := x.img.banksets.getD (((x.img.epochs[desc]?).map (·.bankset)).getD 0) []
  let cores := x.img.cores
  let word := fun (bank : Nat → Nat) (w : Nat) => (List.range 32).map (fun b => (bank b, bitsAt w (2 * b) 2))
  (cores.zipIdx.flatMap (fun ((lc, lk), i) =>
    match x.core? lc lk with
    | some k => word (spadBankAt k) (set.getD i 0)
    | none => [])) ++
  ((List.range x.img.masks.length).flatMap (fun lc =>
    match x.clus? lc with
    | some k => word (cmemBankAt k) (set.getD (cores.length + lc) 0)
    | none => []))

/-- Give every bank of a context the state of an epoch. -/
def Hw.bankStates (h : Hw) (plan : List (Nat × Nat)) : Hw × List Edit :=
  plan.foldl (fun (acc : Hw × List Edit) (a, code) =>
    let (h, es) := acc.1.bankTo a code
    (h, acc.2 ++ es)) (h, [])

/-- Latch the length registers from the length block (R156), through the cache of a hub. -/
def Hw.latchLens (h : Hw) (m : Mem) (c : Nat) (x : Ctx) : Hw × Except Cond (List W32) :=
  match x.img.decl.len with
  | none => (h, .ok [])
  | some r =>
    match h.xlatRow m x.host.job c 64 false ⟨3, r, 0, 0, 64, 0, [], none⟩ with
    | (h, .error e) => (h, .error e)
    | (h, .ok p) =>
      match m.rowUe p with
      | some a => let (h, e) := h.pieceUe x p a; (h, .error e)
      | none =>
        let bs := m.row p
        (h, .ok ((List.range 16).map (fun i => BitVec.ofNat 32 (leNat ((bs.drop (4 * i)).take 4)))))

/-- The unit that a condition of the length latch names: the pseudo-channel of the PMA in its arguments (R380). -/
def latchUnit (e : Cond) : Nat :=
  if e.detail = dHbmUe ∨ e.detail = dMapUe then punitHbm (leNat ((e.args.drop 8).take 8)) else 0

/-- Begin an epoch at a time, with the steps and programmed paces of that time (R167, R169). -/
def Hw.beginEpoch (h : Hw) (x : Ctx) (tb : Nat) (steps pace : Tab Nat) (r : CtxRun) : CtxRun :=
  let lcs := (x.host.place.map (·.clusters)).getD []
  { r with
    epochTb := tb, epochSteps := steps, epochPace := pace,
    natLimited := (lcs.filter (fun (q : Nat × Nat) => h.flag (Fd.PWR_CL_PACE.NAT_LIMITED q.2))).map Prod.fst, paceChanged := [],
    streams := r.streams.map (fun (k, s) => (k, { s with mStart := 0, mOcc := 0, mRetire := 0, mWindow := [], mStage := none })) }

/-- The steps and the programmed pace of each logical cluster now. -/
def Hw.clusSteps (h : Hw) (x : Ctx) : Tab Nat :=
  (((x.host.place.map (·.clusters)).getD [])).map (fun (lc, k) => (lc, h.steps k))
def Hw.clusPace (h : Hw) (x : Ctx) : Tab Nat :=
  (((x.host.place.map (·.clusters)).getD [])).map (fun (lc, k) => (lc, h.progOf k))

/-- The latest model arrival of a context's streams. -/
def Ctx.lastArrival (x : Ctx) : Nat :=
  (x.allStreams.map (fun (lc, lk, s) => (x.run.strm (strmKey lc lk s)).arriveModel)).foldl max 0

/-- Steps 4 and 5 of *Epoch barrier sequence*. -/
def Hw.finishBarrier (h : Hw) (m : Mem) (c : Nat) : Hw × List Edit :=
  match h.ctx? c with
  | none => (h, [])
  | some x =>
    match h.latchLens m c x with
    | (h, .error e) => (h.raise c e (latchUnit e) lunitNone 0, [])
    | (h, .ok lens) =>
      let h := h.modRun c (fun r => { r.epochDiff (x.lastArrival + 128) r.barTb with lens := lens, owners := [], chans := [] })
      let (h, es) := h.writeSlips m c false
      match h.ctx? c with
      | none => (h, es)
      | some x =>
        if x.run.fault.isSome then (h, es)
        else
          let h := h.modRun c (fun r =>
            { h.beginEpoch x r.barTb r.barSteps r.barPace r with
              epochSeq := (r.epochSeq + 1) % 2 ^ 32, epochDesc := r.nextDesc, bar := .waking, moves := [], moved := 0 })
          let (h, es2) := h.bankStates (x.bankPlan x.run.nextDesc)
          (h, es ++ es2)

/-! ## Arrival at a barrier (R158, R159, R163) -/

/-- The descriptor a stream named at its BAR, or 0xFFFF for HALT (R380). -/
def Arrival.desc : Arrival → Nat
  | .bar d => d
  | _ => 0xFFFF

/-- The stream that arrived first, ties to the lowest (R163). -/
def Ctx.firstArrived (x : Ctx) (ps : List (Nat × Nat × Nat)) : Option (Nat × Nat × Nat) :=
  ps.foldl (fun (b : Option (Nat × Nat × Nat)) p =>
    if x.hasArrived p then
      match b with
      | none => some p
      | some q => if (x.run.strm (strmKey p.1 p.2.1 p.2.2)).arriveTb < (x.run.strm (strmKey q.1 q.2.1 q.2.2)).arriveTb
          then some p else some q
    else b) none

/-- Arguments of BAR_MISMATCH and STREAM_END (R380): what the named stream named, and what the first to arrive named. -/
def Ctx.barArgs (x : Ctx) (p : Nat × Nat × Nat) : List Byte :=
  let d := fun (q : Nat × Nat × Nat) => (x.run.strm (strmKey q.1 q.2.1 q.2.2)).arrival.desc
  leBytes 2 (d p) ++ leBytes 2 (((x.firstArrived x.allStreams).map d).getD 0xFFFF)

/-- TOKEN_LEFTOVER (R163): the first channel, by its consumer stream, whose count differs from its initial count. -/
def Ctx.leftover (x : Ctx) : Option ChanDecl :=
  x.allStreams.findSome? (fun (lc, lk, s) =>
    x.img.chans.find? (fun d => d.lc == lc && d.lk == lk && d.consumer == s && (x.chan d).tokens.length != d.init))

/-- Fault a context on behalf of a stream that stands at its BAR or HALT. -/
def Hw.barFault (h : Hw) (c : Nat) (x : Ctx) (p : Nat × Nat × Nat) (e : Cond) : Hw :=
  h.strmFault c p.1 p.2.1 p.2.2 (x.run.strm (strmKey p.1 p.2.1 p.2.2)).pc e ((x.core? p.1 p.2.1).getD 0)

/-- TOKEN_LEFTOVER of a channel. -/
def Hw.leftoverFault (h : Hw) (c : Nat) (x : Ctx) (d : ChanDecl) : Hw :=
  h.barFault c x (d.lc, d.lk, d.consumer) ⟨dTokenLeftover, chanArgs d (x.chan d).tokens.length⟩

/-- A stream arrives at its BAR or HALT: none where it does not start it yet. -/
def Hw.arrive (h : Hw) (r : StreamRef) (opc : Nat) : Option (Ctx × Hw) :=
  let (lc, lk, s) := (r.lc.val, r.lk.val, r.strm.val)
  match h.ctx? r.ctx.val with
  | none => none
  | some x =>
    match x.nextWord (strmKey lc lk s), x.core? lc lk with
    | some w, some k =>
      if opcOf w = opc ∧ h.admits x lc lk s = true then
        let h := h.modRun r.ctx.val (fun q => q.modStrm (strmKey lc lk s) (fun st =>
          { st with arrival := if opc = 4 then .halt else .bar (bitsAt w 82 10), arriveTb := h.tb,
                    arriveSteps := h.steps (k / 9), arriveModel := st.modelArrival s, waiting := false }))
        (h.ctx? r.ctx.val).map (fun x => (x, h))
      else none
    | _, _ => none

/-- STREAM_END (R159): one stream has started HALT and another BAR in one epoch; the first to start HALT is named. -/
def Ctx.streamEnd (x : Ctx) : Option (Nat × Nat × Nat) :=
  let at' := fun (p : Nat × Nat × Nat) => (x.run.strm (strmKey p.1 p.2.1 p.2.2)).arrival
  let halts := x.allStreams.filter (fun p => at' p == .halt)
  let bars := x.allStreams.filter (fun p => at' p != .halt && at' p != .none)
  if bars.isEmpty then none else x.firstArrived halts

/-- The last stream has arrived: steps 2 and 3 of *Epoch barrier sequence* (R158). -/
def Hw.barrier (h : Hw) (m : Mem) (c : Nat) (x : Ctx) (desc : Nat) : Hw × List Edit :=
  let first := (x.allStreams.head?.map (fun p => (x.run.strm (strmKey p.1 p.2.1 p.2.2)).arrival.desc)).getD 0
  match x.leftover with
  | some d => (h.leftoverFault c x d, [])
  | none =>
    match x.allStreams.find? (fun p => (x.run.strm (strmKey p.1 p.2.1 p.2.2)).arrival.desc != first) with
    | some p => (h.barFault c x p ⟨dBarMismatch, x.barArgs p⟩, [])
    | none =>
      let moves := h.movePlan x
      let h := h.modRun c (fun r =>
        { r with nextDesc := desc, bar := .migrating, moves := moves, barTb := h.tb, barSteps := h.clusSteps x,
                 barPace := h.clusPace x })
      let h := h.applyForecast c desc true
      if moves.isEmpty then h.finishBarrier m c else (h.setFlag Fd.PLU_STATUS.MIGRATING true, [])

/-- The effect of BAR. -/
def barEff (r : StreamRef) (sn : Seen) (s : State) : Eff :=
  match (s.hw.seen sn).arrive r 3 with
  | none => { hw := s.hw }
  | some (x, h) =>
    match x.streamEnd with
    | some p => { hw := h.barFault r.ctx.val x p ⟨0x0108, x.barArgs p⟩, edits := seenEdits sn }
    | none =>
      let h := h.underflow r.ctx.val
      if x.allStreams.all x.hasArrived then
        let (h, es) := h.barrier (s.mem.seen sn) r.ctx.val x
          (x.run.strm (strmKey r.lc.val r.lk.val r.strm.val)).arrival.desc
        { hw := h, edits := seenEdits sn ++ es }
      else { hw := h, edits := seenEdits sn }
/-- BAR (R158). -/
def execBar (r : StreamRef) (sn : Seen) (s : State) : Res := done s (barEff r sn s)

/-! ## Migration (R218, R219) -/

/-- The copies of a page's entry after it moved, and the placement with its new frame. -/
def Placement.moved (p : Placement) (key dst : Nat) (home : Option Nat) : Placement :=
  { p with pages := p.pages.put key dst, migrated := p.migrated + 1,
           displaced := if home.isSome ∧ home ≠ some (dst / 65536) then insNat p.displaced key
             else p.displaced.filter (fun k => k != key) }

/-- The logical core whose TXE copies the next page: round robin (R218). -/
def Ctx.mover (x : Ctx) : Nat × Nat := (x.img.cores[x.run.moved % x.img.cores.length]?).getD (0, 0)

/-- The effect of MIGRATION_PAGE_DONE: the oldest page of the plan is copied, its cached entries go, both map copies are
written and the old frame is free. A read that is uncorrectable faults the context and leaves the page in place. -/
def migrationEff (ctx : Fin 64) (sn : Seen) (s : State) : Eff :=
  let c := ctx.val
  let h := s.hw.seen sn
  let m := s.mem.seen sn
  match h.ctx? c with
  | none => { hw := s.hw }
  | some x =>
    match x.run.moves, x.host.place with
    | mv :: rest, some p =>
      if x.host.st = .running ∧ x.run.bar = .migrating then
        let a := hbmAddr (mv.src * pageBytes)
        let b := hbmAddr (mv.dst * pageBytes)
        match m.ueIn a pageBytes with
        | some u =>
          let (lc, lk) := x.mover
          let k := (x.core? lc lk).getD 0
          let (h, e) := h.pieceUe x ⟨3, mv.region, 0, mv.lpn * pageBytes, 1, 0, [], none⟩ u
          let h := h.setFlag Fd.PLU_STATUS.MIGRATING false
          { hw := (h.setErr (engineErr k 3 e.detail)).raise c e (punitEngine k 3) (lunitOf lc lk 3)
              (indexOf (x.run.strm (strmKey lc lk 3)).pc), edits := seenEdits sn }
        | none =>
          let key := pageKey mv.region mv.lpn
          let home := match x.img.hbm? mv.region with
            | some d => (h.pageStacks x.img p.clusters d mv.lpn).2
            | none => none
          let h := h.invalidate (fun e => e.ctx == c && e.region == mv.region && e.lpn == mv.lpn)
          let h := h.satFld Fd.PLU_MIGR_CNT.PAGES 1
          let h := h.modCtx c (fun x =>
            { host := { x.host with place := x.host.place.map (fun p => p.moved key mv.dst home) },
              run := { x.run with moves := rest, moved := x.run.moved + 1 } })
          let copy := zeroFrame mv.dst :: (m.cells.filterMap (fun q =>
            if a ≤ q.1 ∧ q.1 < a + pageBytes then some (Edit.put (b + (q.1 - a)) q.2) else none))
          let es := seenEdits sn ++ copy ++ mapEdits c x.img key mv.dst
          if rest.isEmpty then
            let (h, es2) := (h.setFlag Fd.PLU_STATUS.MIGRATING false).finishBarrier (m.edit es) c
            { hw := h, edits := es ++ es2 }
          else { hw := h, edits := es }
      else { hw := s.hw }
    | _, _ => { hw := s.hw }
/-- MIGRATION_PAGE_DONE (R218). -/
def execMigrationPageDone (ctx : Fin 64) (sn : Seen) (s : State) : Res := done s (migrationEff ctx sn s)

/-! ## Release (R158 step 6) -/

/-- What every retirement adds to the counters and samples. -/
def Hw.retireNote (h : Hw) (x : Ctx) (p : Nat × Nat × Nat) : Hw × List Edit :=
  let key := strmKey p.1 p.2.1 p.2.2
  let st := x.run.strm key
  match x.core? p.1 p.2.1 with
  | none => (h, [])
  | some k =>
    let f : Infl := { idx := st.pc, iters := st.iters, startTb := st.arriveTb, startSteps := 0, waitNs := st.arriveTb - st.lastTb,
                      mStart := 0, mRetire := 0, src := [], dst := [], done := true, coll := none }
    (h.countCore k { code := 0x02, masters := [p.2.2 + 1] } 1).sample k
      (sampleRec x k p.1 p.2.1 p.2.2 h.tb f ((x.img.words key).getD st.pc 0))

/-- Note the retirement of every stream's BAR or HALT. -/
def Hw.retireAll (h : Hw) (x : Ctx) : Hw × List Edit :=
  x.allStreams.foldl (fun (acc : Hw × List Edit) p =>
    let (h, es) := acc.1.retireNote x p
    (h, acc.2 ++ es)) (h, [])

/-- The effect of BARRIER_RELEASE: the banks that woke are ON, every BAR retires and the next instructions may start; it waits
for banks under test (R111). -/
def releaseEff (ctx : Fin 64) (s : State) : Eff :=
  let h := s.hw
  match h.ctx? ctx.val with
  | none => { hw := h }
  | some x =>
    let plan := x.bankPlan x.run.epochDesc
    if x.host.st = .running ∧ x.run.bar = .waking ∧
        (plan.all (fun q => ((h.clusOf (bankOwner q.1)).bgt.pend.find? q.1).isNone)) = true then
      let (h, es) := h.retireAll x
      let h := plan.foldl (fun h q => if q.2 = 0 then h.setBank q.1 0 else h) h
      { hw := h.modRun ctx.val (fun r =>
          { r with
            bar := .none,
            streams := r.streams.map (fun (k, st) => (k, { st with arrival := .none, pc := st.pc + 1, lastTb := h.tb })) }),
        edits := es }
    else { hw := h }
/-- BARRIER_RELEASE (R158). -/
def execBarrierRelease (ctx : Fin 64) (s : State) : Res := done s (releaseEff ctx s)

/-! ## HALT (R159) -/

/-- The end of a context: the channel check, slip records, the context's resources and the completion of CTX_START (R159,
R335). -/
def Hw.endCtx (h : Hw) (m : Mem) (c : Nat) (x : Ctx) : Hw × List Edit :=
  match x.leftover with
  | some d => (h.leftoverFault c x d, [])
  | none =>
    let (h, es0) := h.retireAll x
    let h := h.modRun c (fun r => r.epochDiff (x.lastArrival + 1) h.tb)
    let (h, es1) := h.writeSlips m c false
    if ((h.ctx? c).map (fun x => x.run.fault.isSome)).getD true then (h, es0 ++ es1)
    else
      let h := h.modCtx c (fun x => { x with host := { x.host with st := .ended } })
      let hd := h.handle c
      let (h, es2) := h.releaseCtx c false
      let h := h.finishAll (fun k => k.ctx == hd && (k.opcode == 0x0302 || k.opcode == 0x0303)) stOk [] []
      (h, es0 ++ es1 ++ es2)

/-- The effect of HALT. -/
def haltEff (r : StreamRef) (s : State) : Eff :=
  match s.hw.arrive r 4 with
  | none => { hw := s.hw }
  | some (x, h) =>
    match x.streamEnd with
    | some p => { hw := h.barFault r.ctx.val x p ⟨0x0108, x.barArgs p⟩ }
    | none =>
      let h := h.underflow r.ctx.val
      if x.allStreams.all x.hasArrived then
        let (h, es) := h.endCtx s.mem r.ctx.val x
        { hw := h, edits := es }
      else { hw := h }
/-- HALT (R159). -/
def execHalt (r : StreamRef) (s : State) : Res := done s (haltEff r s)

end Sys2Proof.Machine
end

