-- ==== Sys2Proof/Machine/Host.lean ====
section
/-!
DEFINITION. The Yarba Control Protocol (13_host_protocol.md): what every command of the host goes through (R324, R327–R333,
R447), and the commands and events of sessions (R325–R327).
-/
namespace Sys2Proof.Machine

/-! ## Statuses (*Status codes*) -/

def stVersion : Nat := 0x0101
def stOpcode : Nat := 0x0102
def stParam : Nat := 0x0103
def stRegAddr : Nat := 0x0104
def stLength : Nat := 0x0105
def stTagInUse : Nat := 0x0106
def stHandle : Nat := 0x0107
def stMemRange : Nat := 0x0108
def stAuth : Nat := 0x0201
def stPrivilege : Nat := 0x0202
def stRekey : Nat := 0x0203
def stLcDenied : Nat := 0x0220
def stState : Nat := 0x0301
def stCtxState : Nat := 0x0303
def stImgState : Nat := 0x0310
def stTags : Nat := 0x0401
def stSessions : Nat := 0x0403
def stHbmUe : Nat := 0x0501
def stReset : Nat := 0x0503
def stFlash : Nat := 0x0505

/-! ## Life cycle and keys as sessions use them (R438, R439, R445, R447) -/

/-- The state code a transition fuse pair moved to: pair `n` is the bits 64 n + code (R438). -/
def Fuses.pairState (f : Fuses) (n : Nat) : Option Nat := (List.range 16).find? (fun c => f.bits.contains (64 * n + c))

/-- Transitions burned (R438, R439). -/
def Fuses.lcCount (f : Fuses) : Nat := ((List.range 15).filter (fun n => (f.pairState n).isSome)).length

/-- The life-cycle state (*Life-cycle states*): BLANK where no pair is burned; the fuse of SCRAPPED stands apart at pair 15. -/
def Fuses.lcState (f : Fuses) : Nat :=
  if (f.pairState 15).isSome then 5
  else if f.lcCount = 0 then 1 else ((f.pairState (f.lcCount - 1)).getD 1)

/-- A fused number of `w` bits at `base`. -/
def Fuses.number (f : Fuses) (base w : Nat) : Nat :=
  ((List.range w).map (fun i => if f.bits.contains (base + i) then 2 ^ i else 0)).foldl (· + ·) 0

/-- Where the fuses of owner slot `s` begin: programmed, revoked, then the digest (R445). -/
def ownerFuse (s : Nat) : Nat := 4096 + 1024 * s

/-- Whether an owner slot is programmed, and whether it is revoked. -/
def Fuses.ownerSet (f : Fuses) (s : Nat) : Bool := f.bits.contains (ownerFuse s)
def Fuses.ownerRevoked (f : Fuses) (s : Nat) : Bool := f.bits.contains (ownerFuse s + 1)
def Fuses.ownerDigest (f : Fuses) (s : Nat) : Nat := f.number (ownerFuse s + 2) 512

/-- The active owner slot: the highest-numbered that is programmed and not revoked (R445). -/
def Fuses.activeOwner (f : Fuses) : Option Nat := [3, 2, 1, 0].find? (fun s => f.ownerSet s && !f.ownerRevoked s)

/-- Whether a public key is the vendor root key, or the active owner key. -/
def isVendor (key : List Byte) : Bool := Config.shake512 key == Config.vendorDigest
def Fuses.isOwner (f : Fuses) (key : List Byte) : Bool :=
  match f.activeOwner with
  | some s => Config.shake512 key == f.ownerDigest s
  | none => false

/-- SERVICE_EN and IMG_SIG_REQ (R452). -/
def Hw.serviceEn (h : Hw) : Bool := h.flag Fd.SEP_KEY_CTRL.SERVICE_EN
def Hw.imgSigReq (h : Hw) : Bool := h.flag Fd.SEP_KEY_CTRL.IMG_SIG_REQ

/-- The role of a key that the present state admits (*Life-cycle states*, R447): vendor root as `vendor`, which is the role
SERVICE, the active owner key as `service`, an operator-list entry as `oper` with its entry. -/
def Hw.admitKey (h : Hw) (f : Fuses) (key : List Byte) : Option (Role × Option Nat) :=
  let vendor := if isVendor key then some (Role.vendor, none) else none
  let owner := if f.isOwner key then some (Role.service, none) else none
  match f.lcState with
  | 1 | 2 => vendor
  | 3 =>
    (match owner with
      | some r => some r
      | none =>
        match h.sep.ops.find? (fun e => e.2.1 == key) with
        | some e => some (Role.oper, some e.1)
        | none => if h.serviceEn then vendor else none)
  | 4 => (match vendor with | some r => some r | none => owner)
  | _ => none

/-! ## Sending to sessions -/

/-- Whether a complex holds AUTH and S0 has ended, so that commands are served (R339, R349, R359). -/
def Hw.served (h : Hw) : Bool :=
  h.flag Fd.PKG_BOARD_STATUS.AUX_PWROK && h.flag Fd.CPX_AUTH.HELD &&
    !(h.fld Fd.HUB_BRINGUP_STATUS.STAGE == 0 && h.fld Fd.HUB_BRINGUP_STATUS.STATE != 2)

/-! ## Packets that arrive while AUTH is free between the CUT and the claim of a planned handover (R347) -/

/-- Between steps 5 and 6 of a planned handover: the CUT is made and AUTH is not claimed yet. -/
def Hw.inCut (h : Hw) : Bool :=
  h.flag Fd.PKG_BOARD_STATUS.AUX_PWROK && !h.flag Fd.CPX_AUTH.HELD && (h.cpx.hand.map Hand.cut).getD false

/-- A packet waits in the hubs' receive buffers, which hold up to 4,096. -/
def Hw.receive (h : Hw) (c : Instr) : Hw :=
  if 4096 ≤ h.cpx.rx.length then h else { h with cpx := { h.cpx with rx := h.cpx.rx ++ [(c, h.tb)] } }

/-- What a YCP packet does: it waits during the cut, and has its own effect otherwise. -/
def unlessCut (c : Instr) (s : State) (r : Res) : Res := if s.hw.inCut then keep s (s.hw.receive c) else r

/-- End the sessions that satisfy a test. -/
def Hw.endSessions (h : Hw) (f : Session → Bool) : Hw :=
  { h with host := { h.host with sessions := h.host.sessions.filter (fun x => !f x) } }

/-- Whether a session must be rekeyed (R327). -/
def Session.limited (x : Session) (tb : Nat) : Bool :=
  x.limitTb.isSome || decide (2 ^ 40 ≤ x.rxCount) || decide (2 ^ 40 ≤ x.txCount) || decide (x.keyTb + 86400000000000 ≤ tb)

/-- Whether a SEQ is a duplicate or old (R328). -/
def Session.stale (x : Session) (seq : Nat) : Bool := x.rxSeen.contains seq || decide (seq + 16384 ≤ x.rxHigh)

/-- Accept a packet of a session (R328, R329): its SEQ, the count, and the address on its plane. -/
def Session.accept (x : Session) (hd : Hdr) : Session :=
  let seq := hd.seq.toNat
  let high := max x.rxHigh seq
  { x with
    rxHigh := high, rxSeen := (seq :: x.rxSeen).filter (fun q => decide (high < q + 16384)), rxCount := x.rxCount + 1,
    peerA := if hd.peer.port.val < 4 then some hd.peer else x.peerA,
    peerB := if hd.peer.port.val < 4 then x.peerB else some hd.peer }

/-- Count a dropped YCP packet (R324). -/
def Hw.ycpDrop (h : Hw) (port : Nat) : Hw := h.satFld (Fd.EP_DROP_CNT.YCP port) 1

/-! ## Commands (R330, R331, R333) -/

/-- What a command answers: its status, the reply words from P1 on, and the payload. -/
structure Rep where
  status : Nat
  p : List Nat := []
  payload : List Byte := []

/-- A reply that carries only a status. -/
def Rep.only (status : Nat) : Rep := { status := status }

/-- What a command's own effect is: the new hardware, the memory changes, the fuses, the reply, what marks the command while it
is outstanding, and what follows its reply. -/
structure Did where
  hw : Hw
  rep : Rep
  edits : List Edit := []
  burn : List Nat := []
  what : Nat := 0
  aux : Nat := 0
  next : Hw → Hw × List Edit := fun h => (h, [])

/-- A command that answers a status and does nothing. -/
def Did.fail (h : Hw) (status : Nat) : Did := { hw := h, rep := Rep.only status }

/-- What a command is, to the wrapper: its opcode, whether it reads (R331), whether its payload length is allowed, whether CTX must
name a context, and the roles that may send it (R447). -/
structure Spec where
  opcode : Nat
  reads : Bool := false
  lenOk : Bool := true
  needsCtx : Bool := false
  roles : List Role := [.oper, .service, .vendor]

/-- The context that a handle names (R332). -/
def Hw.ctxOf (h : Hw) (handle : Nat) : Option (Nat × Ctx) :=
  let id := handle % 64
  if 1024 * 64 ≤ handle then none
  else
    match h.ctx? id with
    | some x => if x.host.gen = handle / 64 then some (id, x) else none
    | none => none

/-- Keep the record of a completed command (R331). -/
def Hw.keepRec (h : Hw) (x : Nat) (hd : Hdr) (opcode : Nat) (p : List Nat) : Hw :=
  { h with host := { h.host with recs := (⟨x, hd.tag.toNat, opcode, hd.ctx.toNat, false, p⟩ :: h.host.recs).take 8192 } }

/-- Reply to a command. -/
def Hw.answer (h : Hw) (hd : Hdr) (opcode : Nat) (r : Rep) : Hw :=
  h.send hd.session.toNat false hd.tag.toNat opcode hd.ctx.toNat (r.status :: r.p) r.payload

/-- Note that the holder has executed a command of the host, which a trial awaits (R464). -/
def Hw.hostServed (h : Hw) : Hw :=
  match h.fw.trial with
  | some t => { h with fw := { h.fw with trial := some { t with served := true } } }
  | none => h

/-- Run a command's own effect and reply (R330): one that is ACCEPTED is outstanding from its reply on. -/
def runBody (sp : Spec) (hd : Hdr) (s : State) (h : Hw) (body : State → Hw → Did) : Eff :=
  let d := body s h.hostServed
  let id := hd.session.toNat
  let h := d.hw.answer hd sp.opcode d.rep
  let h : Hw := if d.rep.status = stAccepted then
      { h with host := { h.host with cmds := h.host.cmds ++
          [(⟨id, hd.tag.toNat, sp.opcode, hd.ctx.toNat, d.what, d.aux⟩ : Cmd)] } }
    else h.keepRec id hd sp.opcode (d.rep.status :: d.rep.p)
  let (h, es) := d.next h
  { hw := h, edits := d.edits ++ es, burn := d.burn }

/-- A command that a check refuses. -/
def refuse (sp : Spec) (hd : Hdr) (h : Hw) (status : Nat) : Eff := { hw := h.answer hd sp.opcode (Rep.only status) }

/-- The checks of an accepted packet that come before its own effect (R327, R330–R333, R447). -/
def checked (sp : Spec) (hd : Hdr) (x : Session) (s : State) (h : Hw) (body : State → Hw → Did) : Eff :=
  let mine := fun (session tag : Nat) => session == hd.session.toNat && tag == hd.tag.toNat
  if x.limited h.tb = true ∧ sp.opcode ≠ 0x0005 ∧ sp.opcode ≠ 0x0003 then refuse sp hd h stRekey
  else if h.host.cmds.any (fun c => mine c.session c.tag) then
    if hd.retry then { hw := h.answer hd sp.opcode (Rep.only stAccepted) } else refuse sp hd h stTagInUse
  else
    match if hd.retry then h.host.recs.find? (fun r => mine r.session r.tag) else none with
    | some r =>
      if sp.reads then runBody sp hd s h body
      else { hw := h.send hd.session.toNat false hd.tag.toNat r.opcode r.ctx r.p [] }
    | none =>
      if 8192 ≤ h.host.cmds.length then refuse sp hd h stTags
      else if !sp.roles.contains x.role then refuse sp hd h stPrivilege
      else if !sp.lenOk then refuse sp hd h stLength
      else if sp.needsCtx && (h.ctxOf hd.ctx.toNat).isNone then refuse sp hd h stHandle
      else runBody sp hd s h body

/-- What every command of the host goes through (R324, R328): nothing while no complex holds AUTH; a packet of no session, a
duplicate or an old one is dropped. A half-open session is opened only by SESSION_OPEN. -/
def hostCmd (sp : Spec) (hd : Hdr) (s : State) (body : State → Hw → Did) : Eff :=
  let h := s.hw
  if h.served = false then { hw := h }
  else
    match h.session? hd.session.toNat with
    | none => { hw := h.ycpDrop hd.peer.port.val }
    | some x =>
      if x.stale hd.seq.toNat then { hw := h.ycpDrop hd.peer.port.val }
      else
        let h := h.modSession x.id (fun y => y.accept hd)
        if x.opened = false then refuse sp hd h stState else checked sp hd x s h body

/-! ## Sessions (R325–R327) -/

/-- The digest of a handshake as 64 bytes. -/
def digestBytes (n : Nat) : List Byte := beBytes 64 n

/-- The session keys (R325): host to E9, and E9 to host. -/
def sessionKeys (z t : Nat) : Nat × Nat :=
  let k := Config.kmac z "YCP-E9 keys" 128 (digestBytes t)
  (k / 2 ^ 512, k % 2 ^ 512)

/-- The fields of a certificate before its signature (*Certificate*). -/
def certBody (kind mac issued : Nat) (subject : List Byte) (issuer : Nat) : List Byte :=
  [0x56, 0x43, 0x52, 0x54, 1] ++ beBytes 1 kind ++ beBytes 2 0x0E09 ++ beBytes 8 Config.serial ++ beBytes 6 mac ++ [0, 0] ++
    beBytes 8 issued ++ (subject ++ List.replicate 57 0).take 57 ++ List.replicate 7 0 ++ digestBytes issuer

/-- A certificate with its signature by the identity key (R444, R446). -/
def selfCert (kind mac issued : Nat) (subject : List Byte) : List Byte :=
  let b := certBody kind mac issued subject (Config.shake512 Config.identityKey)
  b ++ Config.ed448Sign (digestBytes (Config.shake512 b)) ++ List.replicate 14 0

/-- The device certificate that a HELLO reply carries (R446): in BLANK one that the identity key has signed. -/
def Hw.deviceCert (h : Hw) : List Byte := h.sep.cert.getD (selfCert 1 Config.macBase 0 Config.identityKey)

/-- The reply to a HELLO: SESSION 0, a trailer of zeros (R322, R323), to where it came from. -/
def Hw.helloReply (h : Hw) (hd : Hdr) (p : List Nat) (payload : List Byte) : Hw :=
  let a := if hd.peer.port.val < 4 then some hd.peer else none
  let b := if hd.peer.port.val < 4 then none else some hd.peer
  { h with out := h.out ++ [.ycp { session := 0, seq := 0, unsol := false, tag := hd.tag.toNat, opcode := 0x0001,
                                   ctx := hd.ctx.toNat, p := p, payload := payload, toA := a, toB := b, key := 0 }] }

/-- Open a half-open session for a HELLO (R325). -/
def Hw.helloNew (h : Hw) (hd : Hdr) (payload : List Byte) : Hw :=
  let (free, h) := h.takeFree
  let n := h.host.keyPairs
  let id := h.host.nextSession
  let head := beBytes 32 free ++ Config.x448Public n ++ h.deviceCert
  let t := Config.shake512 (payload ++ head)
  let (ki, ko) := sessionKeys (Config.x448Shared n (payload.drop 32)) t
  let x : Session := { id := id, transcript := t, keyIn := ki, keyOut := ko, keyTb := h.tb, helloTb := h.tb }
  let h : Hw := { h with host := { h.host with
    sessions := h.host.sessions ++ [x], nextSession := id + 1, keyPairs := n + 1 } }
  h.helloReply hd [stOk, id] (head ++ Config.ed448Sign (digestBytes t))

/-- The effect of HELLO (R324, R325, R326, R438). -/
def helloHw (hd : Hdr) (version : Byte) (payload : List Byte) (s : State) : Hw :=
  let h := s.hw
  if h.served = false then h
  else if version ≠ 2 then h.helloReply hd [stVersion, 2] []
  else if hd.session ≠ 0 then h.ycpDrop hd.peer.port.val
  else if payload.length ≠ 88 then h.helloReply hd [stLength] []
  else if s.fuses.lcState = 5 then h.helloReply hd [stLcDenied] []
  else if 16 ≤ h.host.sessions.length then h.helloReply hd [stSessions] []
  else h.helloNew hd payload
/-- HELLO (R325). -/
def execHello (hd : Hdr) (version : Byte) (payload : List Byte) (s : State) : Res :=
  unlessCut (.hello hd version payload) s (keep s (helloHw hd version payload s))

/-- Whether SESSION_OPEN may open its session, and the role it takes (R325, R447). -/
def openRole (s : State) (x : Session) (payload : List Byte) : Option (Role × Option Nat) :=
  let key := payload.take 57
  if Config.ed448Verify key (digestBytes x.transcript) (payload.drop 57) then s.hw.admitKey s.fuses key else none

/-- The effect of SESSION_OPEN. -/
def sessionOpenHw (hd : Hdr) (p0 : BitVec 32) (payload : List Byte) (s : State) : Hw :=
  let h := s.hw
  if h.served = false then h
  else
    match h.session? hd.session.toNat with
    | none => h.ycpDrop hd.peer.port.val
    | some x =>
      if x.stale hd.seq.toNat then h.ycpDrop hd.peer.port.val
      else
        let h := h.modSession x.id (fun y => y.accept hd)
        let ans := fun (h : Hw) st => h.answer hd 0x0002 (Rep.only st)
        if x.opened then ans h stState
        else if payload.length ≠ 171 then ans h stLength
        else if p0.toNat / 2 ^ 7 ≠ 0 ∨ p0.toNat % 2 = 1 then ans h stParam
        else
          match openRole s x payload with
          | none => (ans h stAuth).endSessions (fun y => y.id == x.id)
          | some (role, slot) =>
            ans (h.modSession x.id (fun y =>
              { y with opened := true, hostKey := payload.take 57, role := role, keySlot := slot, mask := p0.toNat })) stOk
/-- SESSION_OPEN (R325). -/
def execSessionOpen (hd : Hdr) (p0 : BitVec 32) (payload : List Byte) (s : State) : Res :=
  unlessCut (.sessionOpen hd p0 payload) s (keep s (sessionOpenHw hd p0 payload s))

/-- SESSION_CLOSE replies and closes the session (R333); its outstanding commands go on without completions (R330). -/
def sessionCloseEff (hd : Hdr) (len : Nat) (s : State) : Eff :=
  hostCmd { opcode := 0x0003, lenOk := len == 0 } hd s (fun _ h =>
    { hw := h, rep := Rep.only stOk, next := fun h => (h.endSessions (fun y => y.id == hd.session.toNat), []) })
/-- SESSION_CLOSE (R333). -/
def execSessionClose (hd : Hdr) (len : Nat) (s : State) : Res := unlessCut (.sessionClose hd len) s (done s (sessionCloseEff hd len s))

/-- The effect of ECHO: its words in P1–P5 and its payload. -/
def echoEff (hd : Hdr) (p : List (BitVec 32)) (payload : List Byte) (s : State) : Eff :=
  hostCmd { opcode := 0x0004, lenOk := decide (payload.length ≤ 8192) } hd s (fun _ h =>
    { hw := h, rep := { status := stOk, p := (List.range 5).map (fun i => (p.getD (i + 1) 0).toNat), payload := payload } })
/-- ECHO (R333). -/
def execEcho (hd : Hdr) (p : List (BitVec 32)) (payload : List Byte) (s : State) : Res :=
  unlessCut (.echo hd p payload) s (done s (echoEff hd p payload s))

/-- New keys for a session (R327): the old ones are accepted for 5 s. -/
def Session.rekeyed (x : Session) (ki ko t tb : Nat) : Session :=
  { x with keyIn := ki, keyOut := ko, transcript := t, oldKeyIn := some x.keyIn, oldUntil := tb + 5000000000, keyTb := tb,
           rxCount := 0, txCount := 0, limitTb := none }

/-- The effect of REKEY: the reply is the last packet under the old keys. -/
def rekeyEff (hd : Hdr) (payload : List Byte) (s : State) : Eff :=
  hostCmd { opcode := 0x0005, lenOk := payload.length == 56 } hd s (fun _ h =>
    let n := h.host.keyPairs
    let pub := Config.x448Public n
    let t := Config.shake512 (payload ++ pub)
    let (ki, ko) := sessionKeys (Config.x448Shared n payload) t
    { hw := { h with host := { h.host with keyPairs := n + 1 } }, rep := { status := stOk, payload := pub },
      next := fun h => (h.modSession hd.session.toNat (fun y => y.rekeyed ki ko t h.tb), []) })
/-- REKEY (R327). -/
def execRekey (hd : Hdr) (payload : List Byte) (s : State) : Res := unlessCut (.rekey hd payload) s (done s (rekeyEff hd payload s))

/-! ## Events of sessions -/

/-- A half-open session ends 10 s after its HELLO reply. -/
def openTimeoutHw (id : BitVec 32) (h : Hw) : Hw :=
  h.endSessions (fun x => x.id == id.toNat && !x.opened && decide (x.helloTb + 10000000000 ≤ h.tb))
/-- SESSION_OPEN_TIMEOUT (R325). -/
def execSessionOpenTimeout (id : BitVec 32) (s : State) : Res := keep s (openTimeoutHw id s.hw)

/-- A session reaches a limit of its keys. -/
def rekeyLimitHw (id : BitVec 32) (h : Hw) : Hw :=
  h.modSession id.toNat (fun x => if x.opened && x.limitTb.isNone && x.limited h.tb then { x with limitTb := some h.tb } else x)
/-- REKEY_LIMIT (R327). -/
def execRekeyLimit (id : BitVec 32) (s : State) : Res := keep s (rekeyLimitHw id s.hw)

/-- 60 s after the limit the session closes. -/
def rekeyCloseHw (id : BitVec 32) (h : Hw) : Hw :=
  h.endSessions (fun x => x.id == id.toNat && (match x.limitTb with
    | some t => decide (t + 60000000000 ≤ h.tb)
    | none => false))
/-- REKEY_CLOSE_TIMEOUT (R327). -/
def execRekeyCloseTimeout (id : BitVec 32) (s : State) : Res := keep s (rekeyCloseHw id s.hw)

/-- 5 s after a REKEY reply the old keys end. -/
def oldKeyHw (id : BitVec 32) (h : Hw) : Hw :=
  h.modSession id.toNat (fun x => if x.oldUntil ≤ h.tb then { x with oldKeyIn := none } else x)
/-- OLD_KEY_EXPIRY (R327). -/
def execOldKeyExpiry (id : BitVec 32) (s : State) : Res := keep s (oldKeyHw id s.hw)

/-! ## Dropped packets (R324) -/

/-- The opcodes of *Opcodes and parameters*. -/
def knownOpcodes : List Nat :=
  [0x0001, 0x0002, 0x0003, 0x0004, 0x0005, 0x0100, 0x0101, 0x0102, 0x0103, 0x0200, 0x0201, 0x0202, 0x0203, 0x0300, 0x0301,
   0x0302, 0x0303, 0x0304, 0x0305, 0x0306, 0x0307, 0x0400, 0x0401, 0x0402, 0x0403, 0x0500, 0x0501, 0x0502, 0x0503, 0x0504,
   0x0505, 0x0600, 0x0601, 0x0602, 0x0603, 0x0604, 0x0605, 0x0700, 0x0701, 0x0702, 0x0703, 0x0800, 0x0801, 0x0802, 0x0803,
   0x0804, 0x0805, 0x0806, 0x0900, 0x0901, 0x0902]

/-- A datagram to port 41290 as R322 lays it out. -/
structure Dgram where
  bytes : List Byte

/-- A big-endian field of a datagram. -/
def Dgram.fld (d : Dgram) (a k : Nat) : Nat := beNat ((d.bytes.drop a).take k)

/-- Whether a datagram's trailer verifies under one of a session's keys (R323, R327). -/
def Dgram.macOk (d : Dgram) (x : Session) (tb : Nat) : Bool :=
  let body := d.bytes.take (d.bytes.length - 16)
  let mac := d.fld (d.bytes.length - 16) 16
  Config.kmac x.keyIn "YCP-E9" 16 body == mac ||
    (match x.oldKeyIn with
      | some k => decide (tb < x.oldUntil) && Config.kmac k "YCP-E9" 16 body == mac
      | none => false)

/-- The header of a datagram. -/
def Dgram.hdr (d : Dgram) (peer : Peer) : Hdr :=
  { peer := peer, session := BitVec.ofNat 32 (d.fld 4 4), seq := BitVec.ofNat 64 (d.fld 8 8), tag := BitVec.ofNat 16 (d.fld 16 2),
    ctx := BitVec.ofNat 16 (d.fld 20 2), dual := bitAt (d.fld 3 1) 4, retry := bitAt (d.fld 3 1) 3 }

/-- Whether a datagram passes checks 1 and 2 of R324. -/
def Dgram.formOk (d : Dgram) : Bool :=
  decide (64 ≤ d.bytes.length) && d.bytes.length == 48 + d.fld 22 2 + 16 && d.fld 0 2 == 0x5647

/-- A datagram that a check of R324 drops, or that names no opcode: the check it fails first counts it; one whose opcode is unknown
is answered. A datagram that passes every check is another row's command, and this row leaves it. -/
def ycpDropEff (peer : Peer) (bytes : List Byte) (s : State) : Eff :=
  let d : Dgram := ⟨bytes⟩
  let h := s.hw
  let drop : Eff := { hw := h.ycpDrop peer.port.val }
  let op := d.fld 18 2
  if h.flag Fd.PKG_BOARD_STATUS.AUX_PWROK = false then { hw := h }
  else if d.formOk = false then drop
  else if d.fld 2 1 ≠ 2 then (if op = 1 then { hw := h } else drop)
  else if op = 1 then (if d.fld 4 4 = 0 then { hw := h } else drop)
  else
    match h.session? (d.fld 4 4) with
    | none => drop
    | some x =>
      if d.macOk x h.tb = false ∨ bitAt (d.fld 3 1) 7 = true ∨ x.stale (d.fld 8 8) = true then drop
      else if knownOpcodes.contains op then { hw := h }
      else hostCmd { opcode := op } (d.hdr peer) s (fun _ h => Did.fail h stOpcode)
/-- YCP_DROP (R324). -/
def execYcpDrop (peer : Peer) (bytes : List Byte) (s : State) : Res :=
  unlessCut (.ycpDrop peer bytes) s (done s (ycpDropEff peer bytes s))

end Sys2Proof.Machine
end

