-- ==== Sys2Proof/Machine/Bundle.lean ====
section
/-!
DEFINITION. Firmware bundles and deltas (R449, R453–R458): the flash slots, what a bundle holds, whether it verifies, and the
reconstruction of a bundle from a delta.
-/
namespace Sys2Proof.Machine

/-! ## Slots (R454–R456) -/

/-- Slot states (*Slot states*). -/
def slotEmpty : Nat := 0
def slotWriting : Nat := 1
def slotTrial : Nat := 2
def slotConfirmed : Nat := 3
def slotPrevious : Nat := 4
def slotRejected : Nat := 5

/-- The state of slot 0 (A) or 1 (B). -/
def Hw.slotState (h : Hw) (n : Nat) : Nat :=
  if n = 0 then h.fld Fd.HUB_FW_STATUS.SLOT_A else h.fld Fd.HUB_FW_STATUS.SLOT_B

/-- Set it, in the NV store too (R455). -/
def Hw.setSlot (h : Hw) (n st : Nat) : Hw :=
  let h := if n = 0 then h.setFld Fd.HUB_FW_STATUS.SLOT_A st else h.setFld Fd.HUB_FW_STATUS.SLOT_B st
  { h with nv := h.nv.put Reg.HUB_FW_STATUS (BitVec.ofNat 32 ((h.reg Reg.HUB_FW_STATUS).toNat / 2 ^ 26 * 2 ^ 26)) }

/-- The slot that is in a state. -/
def Hw.slotIn (h : Hw) (st : Nat) : Option Nat := [0, 1].find? (fun n => h.slotState n == st)

/-- The bytes of a slot: slot A holds the factory's bundle until it is written (R454). -/
def Hw.slotBytes (h : Hw) (n : Nat) : List Byte :=
  (h.fw.slots.find? n).getD (if n = 0 then Config.factoryBundle else [])

/-- The header of a slot's bundle, and of the bundle that the holder booted. -/
def Hw.slotHead (h : Hw) (n : Nat) : Config.BundleHead := Config.bundleHead (h.slotBytes n)
def Hw.running (h : Hw) : Nat := h.fld Fd.HUB_FW_STATUS.RUNNING

/-- The version and the digest of a component of a bundle, zero where it has none (R453). -/
def bundlePart (b : Config.BundleHead) (kind : Nat) : Nat × Nat :=
  match b.table.find? (fun e => e.1 == kind) with
  | some (_, v, _, _, d) => (v, d)
  | none => (0, 0)

/-! ## Verification (R449, R453, R462) -/

/-- Why a bundle or delta is rejected (HUB_FW_STATUS.REASON). -/
def fwBase : Nat := 1
def fwSignature : Nat := 2
def fwTarget : Nat := 3
def fwGeneration : Nat := 4
def fwFormat : Nat := 5
def fwFlash : Nat := 6
def fwStandby : Nat := 7
def fwTimeout : Nat := 8
def fwDies : Nat := 9
def fwKar : Nat := 10
def fwAuthLoss : Nat := 11
def fwReset : Nat := 12

/-- The public key whose digest a bundle names, where it may sign bundles (R449): the vendor root key or the active owner key. -/
def Hw.bundleKey (h : Hw) (f : Fuses) (digest : Nat) : Option (List Byte) :=
  if digest = Config.vendorDigest then some Config.vendorKey
  else
    match f.activeOwner with
    | some s => if digest = f.ownerDigest s then (h.sep.owners.find? (fun e => e.1 == s)).map Prod.snd else none
    | none => none

/-- Whether a bundle's signature and component digests verify. -/
def Hw.bundleSigned (h : Hw) (f : Fuses) (bytes : List Byte) : Bool :=
  let b := Config.bundleHead bytes
  (match h.bundleKey f b.keyDigest with
    | some k => Config.ed448Verify k (digestBytes (Config.shake512 (bytes.take b.signed))) b.sig
    | none => false) &&
  b.table.all (fun (_, _, off, len, d) => Config.shake512 ((bytes.drop off).take len) == d)

/-- Whether a slot's bundle verifies at S0 (R456); the factory's bundle, which nothing has written over, does. -/
def Hw.slotVerifies (h : Hw) (f : Fuses) (n : Nat) : Bool :=
  (n == 0 && (h.fw.slots.find? 0).isNone) || h.bundleSigned f (h.slotBytes n)

/-- Whether a bundle's form is right (R453): its kinds are those of *Bundle components*, and it fits in a slot. -/
def bundleForm (bytes : List Byte) : Bool :=
  let b := Config.bundleHead bytes
  b.ok && decide (bytes.length ≤ 96 * 2 ^ 20) && b.table.all (fun (k, _) => [1, 2, 3, 4, 5, 7].contains k)

/-- The checks of a reconstructed bundle, in order, as the reason of the first that fails (R462). -/
def Hw.bundleReason (h : Hw) (f : Fuses) (bytes : List Byte) : Nat :=
  let b := Config.bundleHead bytes
  if bundleForm bytes = false then fwFormat
  else if b.target ≠ 0x0E09 then fwTarget
  else if b.generation ≤ (h.slotHead h.running).generation then fwGeneration
  else if h.bundleSigned f bytes = false then fwSignature
  else 0

/-! ## Deltas (R458) -/

/-- The operations of a delta over a base: the bytes they build, or nothing where one is malformed. -/
def deltaOps (base : List Byte) (limit : Nat) : Nat → List Byte → List Byte → Option (List Byte)
  | 0, _, _ => none
  | fuel + 1, ops, out =>
    let w := fun k => leNat ((ops.drop (4 * k)).take 4)
    match ops with
    | code :: _ =>
      if code = 0 then some out
      else if code = 1 then
        let len := w 2
        if ops.length < 12 ∨ base.length < w 1 + len ∨ limit < out.length + len then none
        else deltaOps base limit fuel (ops.drop 12) (out ++ (base.drop (w 1)).take len)
      else if code = 2 then
        let len := w 1
        if ops.length < 8 + len ∨ limit < out.length + len then none
        else deltaOps base limit fuel (ops.drop (8 + roundUp len 4)) (out ++ (ops.drop 8).take len)
      else none
    | [] => none

/-- The bundle that a delta rebuilds from a base, or why it is rejected. -/
def applyDelta (base delta : List Byte) : Except Nat (List Byte) :=
  let (digest, target, ops) := Config.deltaHead delta
  if delta.take 4 ≠ [0x56, 0x44, 0x4C, 0x54] then .error fwFormat
  else if Config.shake512 base ≠ digest then .error fwBase
  else if 96 * 2 ^ 20 < target then .error fwFormat
  else
    match deltaOps base target (delta.length + 1) (delta.drop ops) [] with
    | some out => if out.length = target then .ok out else .error fwFormat
    | none => .error fwFormat

end Sys2Proof.Machine
end

