-- ==== Sys2Proof/Machine/Contexts.lean ====
section
/-!
DEFINITION. The commands that create, run, stop, abort and show a context (R332, R333, R335, R359, R383–R385).
-/
namespace Sys2Proof.Machine

/-- More statuses (*Status codes*). -/
def stAborted : Nat := 0x0304
def stContexts : Nat := 0x0402

/-! ## CTX_CREATE (R332, R333, R359, R438) -/

/-- The lowest local ID that no context has. -/
def Hw.freeId (h : Hw) : Option Nat := (List.range 64).find? (fun c => (h.ctx? c).isNone)

/-- The generation of the next context of an ID (R332): 0 the first time, then 1 more each time, 0 after 1,022. -/
def Hw.nextGen (h : Hw) (c : Nat) : Nat :=
  match h.gens.find? c with
  | some g => (g + 1) % 1023
  | none => 0

/-- A new context, or why there is none. -/
def createBody (p0 p1 p2 p3 : BitVec 32) (s : State) (h : Hw) : Did :=
  let lc := s.fuses.lcState
  if 2 ^ 21 ≤ p0.toNat ∨ 60000 < p1.toNat then Did.fail h stParam
  else if h.flag Fd.HUB_BRINGUP_STATUS.READY = false ∨ lc = 1 ∨ lc = 5 then Did.fail h stState
  else
    match h.freeId with
    | none => Did.fail h stContexts
    | some c =>
      let g := h.nextGen c
      let host : CtxHost :=
        { gen := g, job := bitsAt p0.toNat 0 16, part := bitsAt p0.toNat 16 4, countersUser := bitAt p0.toNat 20,
          stallMs := if p1 = 0 then 2000 else p1.toNat, seed := p2.toNat + 2 ^ 32 * p3.toNat, st := .created }
      let x : Ctx := { host := host }
      { hw := { h.setCtx c x with gens := h.gens.put c g }, rep := { status := stOk, p := [c + 64 * g] } }
/-- The effect of CTX_CREATE. -/
def ctxCreateEff (hd : Hdr) (len : Nat) (p0 p1 p2 p3 : BitVec 32) (s : State) : Eff :=
  hostCmd { opcode := 0x0300, lenOk := len == 0 } hd s (createBody p0 p1 p2 p3)
/-- CTX_CREATE (R333). -/
def execCtxCreate (hd : Hdr) (len : Nat) (p0 p1 p2 p3 : BitVec 32) (s : State) : Res :=
  unlessCut (.ctxCreate hd len p0 p1 p2 p3) s (done s (ctxCreateEff hd len p0 p1 p2 p3 s))

/-! ## CTX_START (R64, R156, R157, R333, R335, R407, R416) -/

/-- The run of a context that starts: every stream at its first instruction, in epoch 0. -/
def Hw.freshRun (h : Hw) (x : Ctx) (lens : List W32) : CtxRun :=
  let ss : Tab Stream := x.allStreams.foldl (fun (t : Tab Stream) (lc, lk, s) => t.put (strmKey lc lk s) { lastTb := h.tb }) []
  h.beginEpoch x h.tb (h.clusSteps x) (h.clusPace x) { streams := ss, lens := lens }

/-- Start a loaded context: engine state is cleared, the lengths are latched, and its first instructions may start. The heat
load of Foehn mode stops (R416). A length that cannot be read faults the context before any stream starts (R121). -/
def Hw.startCtx (h : Hw) (m : Mem) (c : Nat) (x : Ctx) : Hw :=
  let cores := x.img.cores.filterMap (fun (lc, lk) => x.core? lc lk)
  let h := cores.foldl (fun h k => h.clearEngines k x.host.job) h
  let h : Hw := { h with thm := { h.thm with foehnPace := [] } }
  let h := h.modCtx c (fun x => { x with host := { x.host with st := .running, startTb := h.tb, stopping := false } })
  match h.latchLens m c x with
  | (h, .error e) =>
    (h.modRun c (fun _ => h.freshRun x [])).raise c e (latchUnit e) lunitNone 0
  | (h, .ok lens) => (h.modRun c (fun _ => h.freshRun x lens)).applyForecast c 0 false

/-- Resume a stopped context (R333): the time it was held does not count for its watchdogs (R165). -/
def Hw.resumeCtx (h : Hw) (c : Nat) : Hw :=
  (h.modCtx c (fun x =>
    let dt := h.tb - x.host.stopTb
    { host := { x.host with st := .running },
      run := { x.run with streams := x.run.streams.map (fun (k, s) => (k, { s with lastTb := s.lastTb + dt })) } })).underflow c

/-- The effect of CTX_START on its context; `sn` is what the read of the length block finds. -/
def startBody (handle : Nat) (sn : Seen) (s : State) (h : Hw) : Did :=
  match h.ctxOf handle with
  | none => Did.fail h stHandle
  | some (c, x) =>
    match x.host.st with
    | .stopped => { hw := h.resumeCtx c, rep := Rep.only stOk }
    | .loaded =>
      { hw := h, rep := Rep.only stAccepted, edits := seenEdits sn,
        next := fun h => ((h.seen sn).startCtx (s.mem.seen sn) c x, []) }
    | _ => Did.fail h stCtxState
/-- The effect of CTX_START. -/
def ctxStartEff (hd : Hdr) (len : Nat) (sn : Seen) (s : State) : Eff :=
  hostCmd { opcode := 0x0302, lenOk := len == 0, needsCtx := true } hd s (startBody hd.ctx.toNat sn)
/-- CTX_START (R335). -/
def execCtxStart (hd : Hdr) (len : Nat) (sn : Seen) (s : State) : Res :=
  unlessCut (.ctxStart hd len sn) s (done s (ctxStartEff hd len sn s))

/-! ## CTX_STOP (R333) -/

/-- No stream of the context starts another instruction; a stream that waits at its barrier has stopped. -/
def stopBody (handle : Nat) (_ : State) (h : Hw) : Did :=
  match h.ctxOf handle with
  | none => Did.fail h stHandle
  | some (c, x) =>
    match x.host.st with
    | .running =>
      { hw := h, rep := Rep.only stAccepted,
        next := fun h => ((h.modCtx c (fun x => { x with host := { x.host with stopping := true } })).stopCheck c, []) }
    | .stopped =>
      { hw := h, rep := Rep.only stAccepted,
        next := fun h => (h.finishAll (fun k => k.ctx == handle && k.opcode == 0x0303) stOk [] [], []) }
    | _ => Did.fail h stCtxState
/-- The effect of CTX_STOP. -/
def ctxStopEff (hd : Hdr) (len : Nat) (s : State) : Eff :=
  hostCmd { opcode := 0x0303, lenOk := len == 0, needsCtx := true } hd s (stopBody hd.ctx.toNat)
/-- CTX_STOP (R333). -/
def execCtxStop (hd : Hdr) (len : Nat) (s : State) : Res := unlessCut (.ctxStop hd len) s (done s (ctxStopEff hd len s))

/-! ## CTX_ABORT (R199, R332, R383–R385) -/

/-- The record that the Squall of an abort carries (R386). -/
def Hw.abortRec (h : Hw) (c : Nat) (x : Ctx) : FaultRec :=
  ⟨h.tb, x.host.job, c, 0, 1, 2, 0, 0, lunitNone, 0, h.fld Fd.FR_FID.FID, padArgs []⟩

/-- Send the Squall of an abort where one is due (R385). -/
def Hw.abortSquall (h : Hw) (c : Nat) (x : Ctx) : Hw :=
  if x.host.job = 0 then h
  else
    match h.squallPeers x.host.job with
    | some ps => h.sendSquall (h.abortRec c x) (h.handle c) ps
    | none => h

/-- Abandon a load that is being received, checked or placed (R199). -/
def Hw.abandonLoad (h : Hw) (c : Nat) : Hw :=
  let hd := h.handle c
  let h : Hw := { h with plu := { h.plu with waiting := h.plu.waiting.filter (fun d => d != c) } }
  (h.finishAll (fun k => k.ctx == hd && k.opcode == 0x0301) stImgState [] []).modCtx c
    (fun x => { x with host := { x.host with parts := [], total := none, checking := false, loadCmd := none } })

/-- Abort a context: as CTX_ABORT does, with a Squall where `squall` asks for it and the context has not faulted. -/
def Hw.abortCtx (h : Hw) (c : Nat) (squall : Bool) : Hw × List Edit :=
  match h.ctx? c with
  | none => (h, [])
  | some x =>
    let h := h.abandonLoad c
    let set := fun (h : Hw) => h.modCtx c (fun x => { x with host := { x.host with st := .aborting, stopping := false } })
    match x.host.st with
    | .aborting => (h, [])
    | .faulted => if x.run.faultStep = .done then (set h).endDrain c else (set h, [])
    | _ => (set (if squall then h.abortSquall c x else h)).startDrain c

/-- Abort contexts in order. -/
def Hw.abortAll (h : Hw) (cs : List Nat) : Hw × List Edit := foldEff (fun h c => h.abortCtx c false) h cs

/-- The effect of CTX_ABORT on its context. -/
def abortBody (handle : Nat) (p0 : BitVec 32) (_ : State) (h : Hw) : Did :=
  match h.ctxOf handle with
  | none => Did.fail h stHandle
  | some (c, x) =>
    if 2 ≤ p0.toNat then Did.fail h stParam
    else if x.host.st = .aborting then Did.fail h stCtxState
    else { hw := h, rep := Rep.only stAccepted, next := fun h => h.abortCtx c (p0.toNat == 1) }
/-- The effect of CTX_ABORT. -/
def ctxAbortEff (hd : Hdr) (len : Nat) (p0 : BitVec 32) (s : State) : Eff :=
  hostCmd { opcode := 0x0304, lenOk := len == 0, needsCtx := true } hd s (abortBody hd.ctx.toNat p0)
/-- CTX_ABORT (R333). -/
def execCtxAbort (hd : Hdr) (len : Nat) (p0 : BitVec 32) (s : State) : Res :=
  unlessCut (.ctxAbort hd len p0) s (done s (ctxAbortEff hd len p0 s))

/-! ## CTX_QUERY (R333, *Context record*) -/

/-- The STATE byte of the context record. -/
def CtxState.code : CtxState → Nat
  | .created => 0 | .loaded => 1 | .running => 2 | .stopped => 3 | .ended => 4 | .faulted => 5 | .aborting => 6

/-- The context record from logical core `first` on, big-endian (R8). -/
def Ctx.record (x : Ctx) (c first : Nat) : List Byte :=
  let recs := ((x.img.cores.drop first).take 126).filterMap (fun (lc, lk) => x.run.slips.find? (coreKey lc lk))
  beBytes 1 x.host.st.code ++ beBytes 1 c ++ beBytes 2 x.host.job ++ beBytes 1 x.host.part ++
    beBytes 1 (x.run.fault.isSome.toNat + 2 * x.img.decl.slip.isSome.toNat) ++ beBytes 2 x.img.cores.length ++
    beBytes 4 x.run.epochSeq ++ beBytes 4 (min x.run.modelLen 0xFFFFFFFF) ++ beBytes 8 x.run.measuredNs ++
    beBytes 8 (toSigned 64 x.run.diffNs) ++ beBytes 4 x.run.slipPos ++ beBytes 2 first ++ beBytes 2 recs.length ++
    List.replicate 24 0 ++ (match x.run.fault with
      | some r => r.bytes true
      | none => List.replicate 64 0) ++ recs.flatMap (fun r => r.bytes true)

/-- The reply of CTX_QUERY. -/
def queryBody (handle : Nat) (p0 : BitVec 32) (_ : State) (h : Hw) : Did :=
  match h.ctxOf handle with
  | none => Did.fail h stHandle
  | some (c, x) => { hw := h, rep := { status := stOk, payload := x.record c p0.toNat } }
/-- The effect of CTX_QUERY. -/
def ctxQueryEff (hd : Hdr) (len : Nat) (p0 : BitVec 32) (s : State) : Eff :=
  hostCmd { opcode := 0x0305, reads := true, lenOk := len == 0, needsCtx := true } hd s (queryBody hd.ctx.toNat p0)
/-- CTX_QUERY (R333). -/
def execCtxQuery (hd : Hdr) (len : Nat) (p0 : BitVec 32) (s : State) : Res :=
  unlessCut (.ctxQuery hd len p0) s (done s (ctxQueryEff hd len p0 s))

end Sys2Proof.Machine
end

