-- ==== Sys2Proof/Machine/Sec.lean ====
section
/-!
DEFINITION. The life cycle and its authorisation records, wipes of the secure SRAM, the operator list and attestation
(04_onchip_memory.md, 19_security.md).
-/
namespace Sys2Proof.Machine

/-! ## What SEP_LC_STATUS shows (R445, R452) -/

/-- Whether a programmed slot's stored public key is unusable (R445). -/
def Hw.ownerFault (h : Hw) (f : Fuses) (s : Nat) : Bool :=
  f.ownerSet s && !f.ownerRevoked s &&
    !(h.sep.owners.any (fun e => e.1 == s && Config.shake512 e.2 == f.ownerDigest s))

/-- Rewrite SEP_LC_STATUS from the fuses and SEP_KEY_CTRL (R452). -/
def Hw.lcRegs (h : Hw) (f : Fuses) : Hw :=
  let h := h.setFld Fd.SEP_LC_STATUS.STATE f.lcState
  let h := h.setFld Fd.SEP_LC_STATUS.LC_COUNT f.lcCount
  let h := h.setFld Fd.SEP_LC_STATUS.OWNER_SLOT (f.activeOwner.getD 15)
  let h := h.setFld Fd.SEP_LC_STATUS.REVOKED
    (((List.range 4).map (fun s => if f.ownerRevoked s then 2 ^ s else 0)).foldl (· + ·) 0)
  let h := h.setFlag Fd.SEP_LC_STATUS.IMG_SIG_REQ h.imgSigReq
  let h := h.setFlag Fd.SEP_LC_STATUS.SERVICE_EN h.serviceEn
  h.setFlag Fd.SEP_LC_STATUS.KEY_FAULT ((List.range 4).any (h.ownerFault f))

/-- VALID bits of SEP_KEY_CTRL from the operator list. -/
def Hw.keyValid (h : Hw) : Hw :=
  h.setFld Fd.SEP_KEY_CTRL.VALID (((List.range 16).map (fun n => if h.sep.ops.any (fun e => e.1 == n) then 2 ^ n else 0)).foldl
    (· + ·) 0)

/-! ## Wipes (R113, R114, R450) -/

/-- Wipe the secure SRAM of a hub: its session keys go, so every session ends. -/
def Hw.wipe (h : Hw) (hub cause : Nat) : Hw :=
  ((h.satFld (Fd.SEP_SSRAM_STATUS.WIPE_CNT hub) 1).setFld (Fd.SEP_SSRAM_STATUS.LAST_CAUSE hub) cause).endSessions (fun _ => true)

/-- Send a wipe request to the other hub's SEP (R19, R113). -/
def Hw.askWipe (h : Hw) (hub : Nat) : Hw :=
  { h with out := h.out ++ [.sepMsg hub 1], sep := { h.sep with wipeReq := insNat h.sep.wipeReq (1 - hub) } }

/-- A tamper event at a hub: cause 1 voltage glitch, 2 clock glitch, 3 light, 4 lid. -/
def tamperHw (hub : Fin 2) (cause : Fin 4) (h : Hw) : Hw :=
  if h.flag Fd.PKG_BOARD_STATUS.AUX_PWROK = false then h
  else
    let h := (h.wipe hub.val (cause.val + 1)).askWipe hub.val
    (h.satFld Fd.SEP_LC_STATUS.TAMPER_CNT 1).logSev 5 (1 + hub.val) logState (Config.noteData logState 0x0450 (cause.val + 1) 0)
/-- TAMPER_EVENT (R113, R450). -/
def execTamperEvent (hub : Fin 2) (cause : Fin 4) (s : State) : Res := keep s (tamperHw hub cause s.hw)

/-- A wipe request that is on its way to a hub arrives. -/
def wipeRequestHw (hub : Fin 2) (h : Hw) : Hw :=
  if h.sep.wipeReq.contains hub.val then
    let h := h.wipe hub.val 6
    { h with sep := { h.sep with wipeReq := h.sep.wipeReq.filter (fun x => x != hub.val) } }
  else h
/-- WIPE_REQUEST (R113). -/
def execWipeRequest (hub : Fin 2) (s : State) : Res := keep s (wipeRequestHw hub s.hw)

/-! ## Authorisation records (R439–R443) -/

/-- A field of a record. -/
def authFld (r : List Byte) (a k : Nat) : Nat := beNat ((r.drop a).take k)
def authBytes (r : List Byte) (a k : Nat) : List Byte := (r.drop a).take k

/-- The digest of the identity key, which names the package (R440). -/
def deviceId : Nat := Config.shake512 Config.identityKey

/-- The signer that a move needs (*Life-cycle moves*): `.vendor` or `.service`, either for SCRAPPED; none where there is no
such move. -/
def lcSigners (fromSt toSt : Nat) (owner : Bool) : Option (List Role) :=
  let ownerOr := if owner then [Role.service] else [Role.vendor]
  if fromSt = 5 then none
  else if toSt = 5 then some (if owner then [.vendor, .service] else [.vendor])
  else
    match fromSt, toSt with
    | 1, 2 => some [.vendor]
    | 2, 3 => some [.vendor]
    | 3, 3 => some ownerOr
    | 3, 4 => some ownerOr
    | 4, 3 => some ownerOr
    | 4, 2 => some [.vendor]
    | _, _ => none

/-- The lowest owner slot that is neither programmed nor revoked (R439). -/
def Fuses.freeOwner (f : Fuses) : Option Nat := (List.range 4).find? (fun s => !f.ownerSet s && !f.ownerRevoked s)

/-- The owner slot that a move fuses a new key into (R439). -/
def Fuses.newSlot (f : Fuses) (fromSt toSt : Nat) : Option Nat :=
  if fromSt = 2 ∧ toSt = 3 then (if f.ownerSet 0 || f.ownerRevoked 0 then none else some 0)
  else if fromSt = 3 ∧ toSt = 3 then f.freeOwner else none

/-- Whether a record passes the checks of R441 for target state `to`. -/
def lcAllowed (f : Fuses) (toSt : Nat) (r : List Byte) : Bool :=
  let now := f.lcState
  let newKey := authBytes r 72 57
  let signer := authBytes r 129 57
  let zero := newKey == List.replicate 57 0
  let rotates := now == 3 && toSt == 3
  let role := if authFld r 1 1 = 0 then Role.vendor else Role.service
  let digest := if authFld r 1 1 = 0 then some Config.vendorDigest else f.activeOwner.map f.ownerDigest
  authFld r 0 1 == toSt && (lcSigners now toSt f.activeOwner.isSome).isSome && (rotates || toSt == 5 || decide (f.lcCount < 15)) &&
    authFld r 4 4 == f.lcCount && authFld r 8 64 == deviceId &&
    decide (authFld r 1 1 < 2) && digest == some (Config.shake512 signer) &&
    ((lcSigners now toSt f.activeOwner.isSome).getD []).contains role &&
    Config.ed448Verify signer (digestBytes (Config.shake512 (r.take 192))) (authBytes r 192 114) &&
    (if rotates then !zero && (f.newSlot now toSt).isSome
      else if now == 2 && toSt == 3 then zero || (f.newSlot now toSt).isSome
      else zero)

/-- The fuses of a number of `w` bits at `base`. -/
def fuseNumber (base w n : Nat) : List Nat := (List.range w).filterMap (fun i => if bitAt n i then some (base + i) else none)

/-- Fuses apart from the life-cycle pairs and the owner slots: the device secret's read-disable and the digest of the device
certificate (R439, R446). -/
def fuseDsOff : Nat := 2048
def fuseCert : Nat := 8192

/-- The fuses that program an owner slot. -/
def fuseOwner (s : Nat) (key : List Byte) : List Nat := ownerFuse s :: fuseNumber (ownerFuse s + 2) 512 (Config.shake512 key)

/-- The fuses a move burns (R438, R439, R442), with the digest of a new device certificate. -/
def lcBurn (f : Fuses) (toSt : Nat) (newKey : List Byte) (cert : Option (List Byte)) : List Nat :=
  let now := f.lcState
  let owner := if newKey == List.replicate 57 0 then [] else ((f.newSlot now toSt).map (fun s => fuseOwner s newKey)).getD []
  if now = 3 ∧ toSt = 3 then owner ++ (f.activeOwner.map (fun s => ownerFuse s + 1)).toList
  else
    let pair := if f.lcCount = 15 then 15 else f.lcCount
    [64 * pair + toSt] ++ owner ++ (if now = 4 ∧ toSt = 2 then (List.range 4).map (fun s => ownerFuse s + 1) else []) ++
      (if toSt = 5 then [fuseDsOff] else []) ++
      ((cert.map (fun c => fuseNumber fuseCert 512 (Config.shake512 c))).getD [])

/-- The device certificate that BLANK → PROVISIONED writes (R446): the vendor root key's signature and the time are open. -/
def Hw.newCert (h : Hw) : List Byte × Hw :=
  let (issued, h) := h.takeFree
  let (sig, h) := h.takeFree
  (certBody 1 Config.macBase issued Config.identityKey Config.vendorDigest ++ beBytes 114 sig ++ List.replicate 14 0, h)

/-- Abort a context to its end within one step (R442): its fault sequence, drain and release. -/
def Hw.abortNow (m : Mem) (h : Hw) (c : Nat) : Hw × List Edit :=
  let (h, e1) := h.abortCtx c false
  let (h, e2) := if (h.ctx? c).any (fun x => x.run.faultStep == .detected && x.run.fault.isSome) then faultEff c h m else (h, [])
  let (h, e3) := h.endDrain c
  (h, e1 ++ e2 ++ e3)

/-- The contexts that a move aborts. -/
def Hw.lcAborts (h : Hw) (now toSt : Nat) : List Nat :=
  if (now = 3 ∧ toSt = 4) ∨ toSt = 5 then ((h.ctxs.filter (fun q => q.2.resident)).map Prod.fst) else []

/-- Steps 2–8 of *Transition sequence* after ACCEPTED, with the fuses as they are after the burn. -/
def Hw.transition (s : State) (hd : Hdr) (toSt : Nat) (cert : Option (List Byte)) (owners : List (Nat × List Byte))
    (burnt : Fuses) (h : Hw) : Hw × List Edit :=
  let now := s.fuses.lcState
  let (h, es) := foldEff (Hw.abortNow s.mem) h (h.lcAborts now toSt)
  let h : Hw := { h with sep := { h.sep with
    cert := if cert.isSome then cert else h.sep.cert, owners := owners ++ h.sep.owners,
    ops := if now = 4 ∧ toSt = 2 then [] else h.sep.ops } }
  let h := (h.keyValid).lcRegs burnt
  let h := h.finishAll (fun c => c.session == hd.session.toNat && c.tag == hd.tag.toNat && c.opcode == 0x0801) stOk [] []
  let h := (h.logNote logState 0x0438 now toSt).wipe h.holderHub 5
  ((h.askWipe h.holderHub), es)

/-- LIFECYCLE_SET's own effect. -/
def lifecycleBody (hd : Hdr) (p0 : BitVec 32) (r : List Byte) (s : State) (h : Hw) : Did :=
  let f := s.fuses
  let now := f.lcState
  let toSt := p0.toNat
  if h.cpx.hand.isSome ∨ h.fw.trial.isSome ∨ h.fld Fd.HUB_FW_STATUS.STAGING = 3 then Did.fail h stState
  else if lcAllowed f toSt r = false then
    Did.fail (h.logSev 3 0 logState (Config.noteData logState 0x0441 now toSt)) stLcDenied
  else
    let newKey := authBytes r 72 57
    let (cert, h) := if now = 1 ∧ toSt = 2 then let (c, h) := h.newCert; (some c, h) else (none, h)
    let burn := lcBurn f toSt newKey cert
    let burnt := f.burn burn
    let owners := if newKey == List.replicate 57 0 then [] else ((f.newSlot now toSt).map (fun s => (s, newKey))).toList
    if now = 3 ∧ toSt = 3 then
      let old := f.activeOwner.map f.ownerDigest
      let h : Hw := { h with sep := { h.sep with owners := owners ++ h.sep.owners } }
      { hw := h.lcRegs burnt, rep := Rep.only stOk, burn := burn,
        next := fun h => (h.endSessions (fun x => x.role == .service && some (Config.shake512 x.hostKey) == old), []) }
    else { hw := h, rep := Rep.only stAccepted, burn := burn, next := fun h => h.transition s hd toSt cert owners burnt }
/-- The effect of LIFECYCLE_SET. -/
def lifecycleEff (hd : Hdr) (p0 : BitVec 32) (payload : List Byte) (s : State) : Eff :=
  hostCmd { opcode := 0x0801, lenOk := payload.length == 306 } hd s (lifecycleBody hd p0 payload)
/-- LIFECYCLE_SET (R439–R443). -/
def execLifecycleSet (hd : Hdr) (p0 : BitVec 32) (payload : List Byte) (s : State) : Res :=
  unlessCut (.lifecycleSet hd p0 payload) s (done s (lifecycleEff hd p0 payload s))

/-! ## The operator list (R447, R448, R452) -/

/-- The bytes that SEP_KEY_DATA holds. -/
def Hw.keyData (h : Hw) : List Byte := (List.range 16).flatMap (fun n => leBytes 4 (h.reg (Reg.SEP_KEY_DATA n)).toNat)

/-- Whether the list may be edited (R448). -/
def lcEdits (f : Fuses) : Bool := f.lcState == 3 || f.lcState == 4

/-- Whether a key may not be stored as an entry: it stands in another one, or is a fused key. -/
def Hw.keyTaken (h : Hw) (f : Fuses) (slot : Nat) (key : List Byte) : Bool :=
  h.sep.ops.any (fun e => e.1 != slot && e.2.1 == key) || isVendor key ||
    (List.range 4).any (fun s => f.ownerSet s && f.ownerDigest s == Config.shake512 key)

/-- Store SEP_KEY_DATA in an entry (R452), with the status: a session of a key that the entry no longer holds ends (R447). -/
def Hw.keyCommit (h : Hw) (f : Fuses) (slot : Nat) : Nat × Hw :=
  let d := h.keyData
  let key := d.take 57
  let role := (d.getD 57 0).toNat
  if lcEdits f = false then (stState, h)
  else if (role ≠ 1 ∧ role ≠ 2) ∨ h.keyTaken f slot key = true then (stParam, h)
  else
    let h := h.endSessions (fun x => x.keySlot == some slot && x.hostKey != key)
    (stOk, ({ h with sep := { h.sep with ops := (slot, (key, role)) :: h.sep.ops.filter (fun e => e.1 != slot) } } : Hw).keyValid)

/-- Empty an entry, which ends its sessions. -/
def Hw.keyRemove (h : Hw) (f : Fuses) (slot : Nat) : Nat × Hw :=
  if lcEdits f = false then (stState, h)
  else
    let h := h.endSessions (fun x => x.keySlot == some slot)
    (stOk, ({ h with sep := { h.sep with ops := h.sep.ops.filter (fun e => e.1 != slot) } } : Hw).keyValid)

/-- Save IMG_SIG_REQ and SERVICE_EN in the NV store and copy them to SEP_LC_STATUS. -/
def Hw.keyCtrlSaved (h : Hw) (f : Fuses) : Hw :=
  ({ h with nv := h.nv.put Reg.SEP_KEY_CTRL (BitVec.ofNat 32 ((h.reg Reg.SEP_KEY_CTRL).toNat / 2 ^ 28 % 4 * 2 ^ 28)) } : Hw).lcRegs f

/-- Set SERVICE_EN: clearing it ends the vendor root key's sessions (R452), which only FIELD admits by it. -/
def Hw.setServiceEn (h : Hw) (f : Fuses) (on : Bool) : Hw :=
  let h := (h.setFlag Fd.SEP_KEY_CTRL.SERVICE_EN on).keyCtrlSaved f
  if !on && f.lcState == 3 then h.endSessions (fun x => x.role == .vendor) else h

/-- KEY_COMMIT (R452). -/
def execKeyCommit (slot : Fin 16) (s : State) : Res :=
  keep s ((s.hw.setFld Fd.SEP_KEY_CTRL.SLOT slot.val).keyCommit s.fuses slot.val).2
/-- KEY_REMOVE (R447, R452). -/
def execKeyRemove (slot : Fin 16) (s : State) : Res :=
  keep s ((s.hw.setFld Fd.SEP_KEY_CTRL.SLOT slot.val).keyRemove s.fuses slot.val).2
/-- SERVICE_EN_WRITE (R452). -/
def execServiceEnWrite (on : Bool) (s : State) : Res :=
  keep s (if lcEdits s.fuses then s.hw.setServiceEn s.fuses on else s.hw)

/-! ## Attestation (R451) -/

/-- An entry of an operator list as stored, 64 bytes: the key, the role and reserved bytes. -/
def Hw.opBytes (h : Hw) (n : Nat) : List Byte :=
  match h.sep.ops.find? (fun e => e.1 == n) with
  | some (_, key, role) => (key ++ List.replicate 57 0).take 57 ++ leBytes 1 role ++ List.replicate 6 0
  | none => List.replicate 64 0

/-- One entry of a report. -/
def attEntry (kind slot aux version digest : Nat) : List Byte :=
  beBytes 1 kind ++ beBytes 1 slot ++ beBytes 2 aux ++ beBytes 4 version ++ List.replicate 8 0 ++ digestBytes digest

/-- The distinct microcode versions that cores hold, or the running bundle's where none holds any. -/
def Hw.ucodeVersions (h : Hw) : List Nat :=
  let vs := (h.fw.ucode.map (fun (_, u) => u.version)).foldl insNat []
  if vs.isEmpty then [(h.slotHead h.running).ucode] else vs

/-- The entry of a microcode version: the slot whose bundle carries it and the cores that hold it. -/
def Hw.ucodeEntry (h : Hw) (v : Nat) : List Byte :=
  let slot := if (h.slotHead h.running).ucode = v then h.running else 1 - h.running
  attEntry 4 slot (h.fw.ucode.filter (fun (_, u) => u.version == v)).length v (bundlePart (h.slotHead slot) 4).2

/-- The entries of a report in ascending kind. -/
def Hw.attEntries (h : Hw) (f : Fuses) : List (List Byte) :=
  let r := h.running
  let b := h.slotHead r
  let comp := fun k => attEntry k r 0 (bundlePart b k).1 (bundlePart b k).2
  let imgs := (h.ctxs.filter (fun q => q.2.resident)).map (fun (c, x) => attEntry 0x10 c (h.handle c) 0 x.host.digest)
  [attEntry 1 h.sep.slot 0 h.sep.version h.sep.meas, comp 2, comp 3] ++ h.ucodeVersions.map h.ucodeEntry ++
    [comp 5, attEntry 6 r 0 b.generation (Config.shake512 (h.slotBytes r))] ++ imgs ++
    [attEntry 0x20 0 0 0 Config.vendorDigest] ++ (f.activeOwner.map (fun s => attEntry 0x21 0 0 0 (f.ownerDigest s))).toList ++
    [attEntry 0x22 0 0 0 (Config.shake512 ((List.range 16).flatMap h.opBytes))]

/-- Whether the holder is the preferred complex (R353). -/
def Hw.holderPreferred (h : Hw) : Bool := h.fld Fd.CPX_AUTH.PREFER == h.fld Fd.CPX_AUTH.HOLDER

/-- The report of *Attestation report*. -/
def Hw.attReport (h : Hw) (f : Fuses) (nonce : List Byte) : List Byte :=
  let es := h.attEntries f
  let flags := h.imgSigReq.toNat + 2 * h.serviceEn.toNat + 4 * h.fld Fd.SEP_LC_STATUS.KEY_FAULT + 8 * h.holderPreferred.toNat
  let body := [0x56, 0x41, 0x54, 0x52, 1] ++ beBytes 1 f.lcState ++ beBytes 2 es.length ++ beBytes 8 h.tb ++ nonce ++
    digestBytes deviceId ++ beBytes 1 f.lcCount ++ beBytes 1 (f.activeOwner.getD 255) ++ beBytes 1 flags ++
    beBytes 1 (h.fld Fd.SEP_LC_STATUS.TAMPER_CNT) ++ List.replicate 12 0 ++ es.flatten ++
    selfCert 2 0 h.sep.s0Tb (Config.attestationKey h.sep.meas)
  body ++ Config.attestSign h.sep.meas (digestBytes (Config.shake512 body))

/-- The effect of ATTEST_REPORT. -/
def attestEff (hd : Hdr) (nonce : List Byte) (s : State) : Eff :=
  hostCmd { opcode := 0x0800, reads := true, lenOk := nonce.length == 32 } hd s (fun s h =>
    { hw := h, rep := { status := stOk, payload := h.attReport s.fuses nonce } })
/-- ATTEST_REPORT (R451). -/
def execAttestReport (hd : Hdr) (nonce : List Byte) (s : State) : Res :=
  unlessCut (.attestReport hd nonce) s (done s (attestEff hd nonce s))

end Sys2Proof.Machine
end

