-- ==== Sys2Proof/Machine/CpxOps.lean ====
section
/-!
DEFINITION. Operations on the control complexes that several families share (14_control_complexes.md): their states, waking, the
start of a planned handover, the release and the grant of AUTH.
-/
namespace Sys2Proof.Machine

/-! ## States (*Complex states*) -/

def cxOffline : Nat := 0
def cxSelfTest : Nat := 1
def cxLull : Nat := 2
def cxLullFailed : Nat := 3
def cxBooting : Nat := 4
def cxShadow : Nat := 5
def cxActive : Nat := 6

/-- Causes of a handover (CPX_AUTH.LAST_CAUSE). -/
def hoHost : Nat := 1
def hoSelf : Nat := 2
def hoTimeout : Nat := 3
def hoRevert : Nat := 4
def hoFirmware : Nat := 5
def hoFallBack : Nat := 6

/-- The state of the complex of a hub. -/
def Hw.cx (h : Hw) (hub : Nat) : Nat := if hub = 0 then h.fld Fd.CPX_AUTH.STATE_A else h.fld Fd.CPX_AUTH.STATE_B

/-- Change it, which is logged (R434). -/
def Hw.setCx (h : Hw) (hub st : Nat) : Hw :=
  (h.setFld (if hub = 0 then Fd.CPX_AUTH.STATE_A else Fd.CPX_AUTH.STATE_B) st).logNote logState 0x0342 hub st

/-- Whether a complex holds AUTH, and the hub of the one that does not. -/
def Hw.held (h : Hw) : Bool := h.flag Fd.CPX_AUTH.HELD
def Hw.otherHub (h : Hw) : Nat := 1 - h.holderHub

/-- Whether both copies of the journal are current (R345). -/
def Hw.mirrorOk (h : Hw) : Bool := h.flag Fd.CPX_JOURNAL.MIRROR_OK

/-- Whether a planned handover can start (R346, R348). -/
def Hw.standbyReady (h : Hw) : Bool := h.held && h.cx h.otherHub == cxLull && h.mirrorOk && h.cpx.hand.isNone

/-- The statuses of redundancy and firmware commands. -/
def stStandby : Nat := 0x0350
def stFwState : Nat := 0x0340
def stStageFailed : Nat := 0x0504

/-- Step 1 of *Planned handover sequence*. -/
def Hw.startHandover (h : Hw) (cause : Nat) : Hw :=
  { h.setCx h.otherHub cxBooting with cpx := { h.cpx with hand := some { cause := cause, startTb := h.tb } } }

/-- A complex reboots after it lost AUTH (R342): its self-test runs, and its health starts anew (R353). -/
def Hw.reboot (h : Hw) (hub : Nat) : Hw :=
  { (h.setCx hub cxSelfTest).setFlag (Fd.CPX_HEALTH.DEGRADED hub) false with
    cpx := { h.cpx with lostTb := h.cpx.lostTb.put hub h.tb } }

/-- Wake a complex to take free AUTH (R340, R350): one whose self-test failed only where no other can claim, and it runs
degraded. -/
def Hw.wake (h : Hw) (hub : Nat) : Hw :=
  let able := fun (k : Nat) => h.cx k == cxLull || h.cx k == cxBooting || h.cx k == cxShadow
  if h.cx hub = cxLull then h.setCx hub cxBooting
  else if h.cx hub = cxLullFailed ∧ able (1 - hub) = false then
    (h.setCx hub cxBooting).setFlag (Fd.CPX_HEALTH.DEGRADED hub) true
  else h

/-- The interlock frees AUTH and wakes the other complex (R340): a handover in progress is over, and its shadow goes on to
claim. -/
def Hw.freeAuth (h : Hw) (cause : Nat) : Hw :=
  let k := h.holderHub
  let h := (h.setFlag Fd.CPX_AUTH.HELD false).reboot k
  ({ h with cpx := { h.cpx with hand := none, cause := cause, suspended := none } } : Hw).wake (1 - k)

/-- A grant of AUTH (R339, R342): the first since VAUX is no handover. -/
def Hw.grant (h : Hw) (hub cause : Nat) : Hw :=
  let h := (h.setFld Fd.CPX_AUTH.HOLDER hub).setFlag Fd.CPX_AUTH.HELD true
  let h := h.setCx hub cxActive
  let h : Hw := { h with cpx := { h.cpx with hand := none, renewTb := h.tb, cause := hoTimeout, rx := [] } }
  if cause = 0 then h.setFlag Fd.CPX_JOURNAL.MIRROR_OK (h.flag (Fd.HUB_PRIVMEM_STATUS.PSRAM_OK (1 - hub)))
  else (h.setFld Fd.CPX_AUTH.LAST_CAUSE cause).satFld Fd.CPX_AUTH.HANDOVERS 1

/-- The event of a handover (R352). -/
def Hw.handoverEvent (h : Hw) (hub cause : Nat) : Hw := h.event 0x7F03 0xFFFF [hub, cause] []

/-- Write an entry that goes out as EVT_LOG whatever severity it has (R346, R436). -/
def Hw.logRaised (h : Hw) (what a b : Nat) : Hw :=
  h.logSev (max (Config.severity logState what).val (h.fld Fd.CTR_LOG_CTRL.THRESH)) 0 logState
    (leBytes 4 what ++ leBytes 4 a ++ leBytes 4 b)

/-! ## What the taking complex finishes (R227, R349, R360) -/

/-- Loads whose maps were not yet live are released, with 0x0310 (R227). -/
def Hw.dropLoads (h : Hw) : Hw :=
  let cs := (h.ctxs.filter (fun q => q.2.host.st == .created && (q.2.host.checking || h.plu.waiting.contains q.1))).map Prod.fst
  cs.foldl (fun h c => h.abandonLoad c) h

/-- Migration copies whose switch was not journalled are discarded (R227): their barriers go on without them. -/
def Hw.dropMoves (m : Mem) (h : Hw) : Hw × List Edit :=
  let cs := (h.ctxs.filter (fun q => q.2.host.st == .running && q.2.run.bar == .migrating)).map Prod.fst
  foldEff (fun h c =>
    ((h.setFlag Fd.PLU_STATUS.MIGRATING false).modRun c (fun r => { r with moves := [] })).finishBarrier m c) h cs

/-- A running stage restarts from its beginning (R360). -/
def Hw.restartStage (h : Hw) : Hw :=
  if h.fld Fd.HUB_BRINGUP_STATUS.STATE = 1 then { h with bring := { h.bring with startTb := h.tb, okTb := none } } else h

/-- What the taking complex does first. -/
def Hw.takeOver (m : Mem) (h : Hw) : Hw × List Edit := h.dropLoads.restartStage.dropMoves m

end Sys2Proof.Machine
end

