-- ==== Sys2Proof/Machine/Collect.lean ====
section
/-!
DEFINITION. The extended counts of the counter collectors (R426) and the clearing of counters (R424, R425), which placement and the
counter commands share.
-/
namespace Sys2Proof.Machine

/-- The key of a counter: the address of its CTR_CFG. -/
def ctrKey (bank n : Nat) : Nat := bank + 16 * n

/-- What a counter or the even member of a chained pair holds: 48 or 96 bits (R422, R426). -/
def Hw.ctrWide (h : Hw) (bank n : Nat) : Nat :=
  if n % 2 = 0 ∧ h.flag (Fd.CTR_CFG.CHAIN bank n) = true then h.ctrVal bank n + 2 ^ 48 * h.ctrVal bank (n + 1) else h.ctrVal bank n

/-- Fold what a counter has counted since the last fold into its extended count (R426). -/
def Hw.foldCtr (h : Hw) (bank n : Nat) : Hw :=
  if h.ctrChained bank n then h
  else
    let k := ctrKey bank n
    let top := if n % 2 = 0 ∧ h.flag (Fd.CTR_CFG.CHAIN bank n) = true then 2 ^ 96 else 2 ^ 48
    let v := h.ctrWide bank n
    let d := (v + top - h.ccl.prev.getD k 0 % top) % top
    { h with ccl := { h.ccl with ext := Tab.set h.ccl.ext k 0 (h.ccl.ext.getD k 0 + d), prev := Tab.set h.ccl.prev k 0 v } }

/-- Clear the values of a bank of `size` counters, folding them first (R424–R426). -/
def Hw.clearBank (h : Hw) (bank size : Nat) : Hw :=
  let h := (List.range size).foldl (fun h n => h.foldCtr bank n) h
  let h := (List.range size).foldl (fun h n => h.setCtr bank n 0) h
  { h with ccl := { h.ccl with cleared := true,
                               prev := (List.range size).foldl (fun t n => Tab.drop t (ctrKey bank n)) h.ccl.prev } }

/-- Clear the banks of a cluster and of its cores (R424). -/
def Hw.clearCluster (h : Hw) (c : Nat) : Hw :=
  (List.range 9).foldl (fun h j => h.clearBank (bankCore (9 * c + j)) 16) (h.clearBank (bankClus c) 32)

end Sys2Proof.Machine
end

