-- ==== Sys2Proof/Machine/ImageCheck.lean ====
section
/-!
DEFINITION. The Cramos image (07_program_image.md): its container and records (R173–R190), and the load checks 1–11 of R197.
-/
namespace Sys2Proof.Machine

/-! ## The container (R173–R175) -/

/-- A section-table entry (*Section-table entry*). -/
structure Sect where
  typ : Nat
  subj : Nat
  off : Nat
  len : Nat
  items : Nat
  deriving DecidableEq, Repr

/-- A delivered image: its bytes and its section table. -/
structure Raw where
  data : List Byte
  sects : List Sect

/-- A little-endian field of a byte string. -/
def fieldLe (bs : List Byte) (a k : Nat) : Nat := leNat ((bs.drop a).take k)

/-- Read the container of an image. -/
def Raw.ofBytes (data : List Byte) : Raw :=
  { data := data,
    sects := (List.range (fieldLe data 16 4)).map (fun i =>
      let e := (data.drop (32 + 16 * i)).take 16
      ⟨fieldLe e 0 2, fieldLe e 2 2, fieldLe e 4 4, fieldLe e 8 4, fieldLe e 12 4⟩) }

/-- What SUBJECT names: logical cluster, logical core, stream number. -/
def Sect.lc (s : Sect) : Nat := bitsAt s.subj 0 6
def Sect.lk (s : Sect) : Nat := bitsAt s.subj 6 3
def Sect.strm (s : Sect) : Nat := bitsAt s.subj 9 3

/-- Record sizes of *Section types*; 0 where the size varies. -/
def recSize (typ : Nat) : Nat :=
  [0, 4, 16, 32, 16, 32, 16, 8, 32, 0, 32, 24, 32, 192].getD typ 0

/-- The record `j` of a section. -/
def Raw.record (r : Raw) (s : Sect) (j : Nat) : List Byte := (r.data.drop (s.off + recSize s.typ * j)).take (recSize s.typ)

/-- The records of a section. -/
def Raw.recs (r : Raw) (s : Sect) : List (List Byte) := (List.range s.items).map (r.record s)

/-- The records of the section of a type that may appear once. -/
def Raw.recsOf (r : Raw) (typ : Nat) : List (List Byte) :=
  match r.sects.find? (fun s => s.typ == typ) with
  | some s => r.recs s
  | none => []

/-- Why a load ends (R198): `sig` for status 0x0210, else REASON, SECTION and ITEM. -/
structure LoadErr where
  sig : Bool := false
  reason : Nat := 0
  sect : Nat := 0xFFFF
  item : Nat := 0
  deriving DecidableEq, Repr

/-- Reasons of *Load checks and their order*. -/
def rsMagic : Nat := 0x01
def rsVersion : Nat := 0x02
def rsTarget : Nat := 0x03
def rsSections : Nat := 0x04
def rsResources : Nat := 0x05
def rsOpcode : Nat := 0x06
def rsField : Nat := 0x07
def rsFormat : Nat := 0x08
def rsDescriptor : Nat := 0x09
def rsToken : Nat := 0x0A
def rsLoop : Nat := 0x0B
def rsHalt : Nat := 0x0C
def rsChannel : Nat := 0x0D
def rsRegion : Nat := 0x0E
def rsEpoch : Nat := 0x0F
def rsColl : Nat := 0x10
def rsSlot : Nat := 0x11
def rsAffinity : Nat := 0x12
def rsLimit : Nat := 0x14
def rsCounters : Nat := 0x15

/-- Check every record of the sections of a type, in table and record order: `f` gets the section, the record's index, the record,
and answers a reason where it fails. -/
def Raw.each (r : Raw) (typ : Nat) (f : Sect → Nat → List Byte → Option Nat) : Option LoadErr :=
  r.sects.zipIdx.findSome? (fun (s, i) =>
    if s.typ = typ then
      (r.recs s).zipIdx.findSome? (fun (b, j) => (f s j b).map (fun e => { reason := e, sect := i, item := j }))
    else none)

/-- A reason where a test holds. -/
def failIf (b : Bool) (reason : Nat) : Option Nat := if b then some reason else none

/-! ## The records (R176–R189) -/

/-- A descriptor record (R178). -/
def readDesc (b : List Byte) : Desc :=
  ⟨fieldLe b 0 1, fieldLe b 1 1, fieldLe b 2 1, fieldLe b 3 1, signedOf 64 (fieldLe b 4 8), fieldLe b 12 4,
    (List.range 4).map (fun i => signedOf 32 (fieldLe b (16 + 4 * i) 4))⟩

/-- A token-channel record (R180). -/
def readChan (b : List Byte) : ChanDecl :=
  ⟨fieldLe b 0 1, fieldLe b 1 1, fieldLe b 2 1, fieldLe b 3 1, fieldLe b 4 1, fieldLe b 5 1, fieldLe b 6 1, fieldLe b 7 1,
    fieldLe b 8 1, fieldLe b 9 1, if fieldLe b 9 1 = 255 then 0 else fieldLe b 12 4⟩

/-- A region record (R181), with its valid handoff entries. Cluster memory names no logical core. -/
def readRegion (b : List Byte) : RegionDecl :=
  ⟨fieldLe b 0 1, fieldLe b 1 1, if fieldLe b 0 1 = 1 then fieldLe b 2 1 else 0, fieldLe b 3 1, fieldLe b 4 1, fieldLe b 5 1,
    fieldLe b 6 1, fieldLe b 8 4, fieldLe b 12 4,
    (List.range 4).filterMap (fun h =>
      let e := b.drop (16 + 4 * h)
      if fieldLe e 3 1 % 2 = 1 then some (fieldLe e 0 1, fieldLe e 1 1, fieldLe e 2 1) else none)⟩

/-- An HBM region record (R183). -/
def readHbm (b : List Byte) : HbmDecl :=
  ⟨fieldLe b 0 1, fieldLe b 1 1 == 1, bitAt (fieldLe b 2 1) 0, bitAt (fieldLe b 2 1) 1, fieldLe b 4 4⟩

/-- An epoch descriptor (R185). -/
def readEpoch (b : List Byte) : EpochDecl := ⟨fieldLe b 0 8, fieldLe b 8 2, fieldLe b 10 2, fieldLe b 12 4⟩

/-- A collective declaration (R187). -/
def readColl (b : List Byte) : CollDecl :=
  ⟨fieldLe b 0 2, fieldLe b 2 2, fieldLe b 4 1, fieldLe b 5 1, fieldLe b 6 1, bitAt (fieldLe b 7 1) 0, fieldLe b 8 8, fieldLe b 16 4⟩

/-- A slot-table declaration (R188). -/
def readSlot (b : List Byte) : SlotDecl :=
  ⟨fieldLe b 0 2, fieldLe b 2 1, fieldLe b 3 1, if fieldLe b 2 1 = 1 then fieldLe b 4 1 else 0, fieldLe b 5 1, fieldLe b 6 2,
    fieldLe b 8 4, fieldLe b 12 4⟩

/-- The context-declaration record (R189). -/
def readDecl (b : List Byte) : CtxDecl :=
  let role := fun i => if bitAt (fieldLe b 0 1) i then some (fieldLe b (i + 1) 1) else none
  ⟨role 0, role 1, role 2⟩

/-- The bank-state sets (R186): `n` words of 8 bytes each. -/
def Raw.banksets (r : Raw) (n : Nat) : List (List Nat) :=
  match r.sects.find? (fun s => s.typ == 9) with
  | none => []
  | some s => (List.range s.items).map (fun k => (List.range n).map (fun w => fieldLe r.data (s.off + 8 * (n * k + w)) 8))

/-- The tables of an image, read as they stand. -/
def Raw.image (r : Raw) : Image :=
  let masks := (r.recsOf 1).map (fun b => fieldLe b 0 1)
  let img : Image := { Image.empty with masks := masks }
  { masks := masks,
    streams := r.sects.foldl (fun (t : Tab (List Nat)) s =>
      if s.typ = 2 then t.put (strmKey s.lc s.lk s.strm) ((r.recs s).map leNat) else t) [],
    descs := r.sects.foldl (fun (t : Tab (List Desc)) s =>
      if s.typ = 3 then t.put (coreKey s.lc s.lk) ((r.recs s).map readDesc) else t) [],
    chans := (r.recsOf 4).map readChan, regions := (r.recsOf 5).map readRegion, hbm := (r.recsOf 6).map readHbm,
    affinity := (r.recsOf 7).map (fun b => (fieldLe b 0 2, fieldLe b 2 2, fieldLe b 4 4)),
    epochs := (r.recsOf 8).map readEpoch, banksets := r.banksets (img.cores.length + masks.length),
    colls := (r.recsOf 10).map readColl, slots := (r.recsOf 11).map readSlot,
    decl := (((r.recsOf 12).head?).map readDecl).getD ⟨none, none, none⟩ }

/-! ## Steps 1–4 (R173–R175, R177) -/

/-- The header (R173). -/
def checkHeader (data : List Byte) : Option LoadErr :=
  let e := fun reason => some ({ reason := reason } : LoadErr)
  if data.take 4 ≠ [0x43, 0x52, 0x4D, 0x53] then e rsMagic
  else if fieldLe data 4 2 ≠ 2 ∨ fieldLe data 6 2 ≠ 0 then e rsVersion
  else if fieldLe data 8 2 ≠ 0x0E09 then e rsTarget
  else
    let n := fieldLe data 16 4
    if fieldLe data 12 4 ≠ data.length ∨ n = 0 ∨ 65535 < n ∨ data.length < 32 + 16 * n then e rsSections else none

/-- What may appear once (R174): a type, a stream of a core, the descriptor table of a core. Tool annotations may repeat. -/
def Sect.once (s : Sect) : Option (Nat × Nat) :=
  if s.typ = 2 then some (2, strmKey s.lc s.lk s.strm)
  else if s.typ = 3 then some (3, coreKey s.lc s.lk)
  else if s.typ < 0x8000 then some (s.typ, 0) else none

/-- Whether entry `i` of the section table breaks a rule of R173–R175 or R177. -/
def Raw.badSect (r : Raw) (s : Sect) (i : Nat) : Bool :=
  let n := r.sects.length
  let earlier := r.sects.take i
  s.typ == 0 || (decide (0xE ≤ s.typ) && decide (s.typ < 0x8000)) ||
    s.off % 16 != 0 || decide (s.off < 32 + 16 * n) || decide (r.data.length < s.off + s.len) ||
    earlier.any (fun t => overlaps s.off s.len t.off t.len) ||
    (recSize s.typ != 0 && s.len != s.items * recSize s.typ) ||
    ((s.typ == 12 || s.typ == 13) && s.items != 1) ||
    (s.typ == 2 && (s.items == 0 || decide (4 < s.strm))) ||
    (s.once.isSome && earlier.any (fun t => t.once == s.once)) ||
    (s.typ == 13 && (i + 1 != n || earlier.any (fun t => decide (s.off < t.off))))

/-- The section table (R173–R175). -/
def Raw.checkTable (r : Raw) : Option LoadErr :=
  match r.sects.zipIdx.find? (fun (s, i) => r.badSect s i) with
  | some (_, i) => some { reason := rsSections, sect := i }
  | none => if [1, 8, 9].all (fun t => r.sects.any (fun s => s.typ == t)) then none else some { reason := rsSections }

/-! ## Step 5 (R190, R449) -/

/-- The public keys that may sign an image in this state (R449), of those whose bytes are usable (R445). -/
def State.imageKeys (s : State) : List (List Byte) :=
  let owner := match s.fuses.activeOwner with
    | some o => (s.hw.sep.owners.filter (fun q => q.1 == o && Config.shake512 q.2 == s.fuses.ownerDigest o)).map Prod.snd
    | none => []
  let signers := (s.hw.sep.ops.filter (fun e => e.2.2 == 2)).map (fun e => e.2.1)
  let vendor := if (s.fuses.lcState = 2 ∨ s.fuses.lcState = 4) ∧ isVendor Config.vendorKey = true then [Config.vendorKey] else []
  owner ++ signers ++ vendor

/-- The owner signature. -/
def Raw.checkSig (r : Raw) (s : State) : Option LoadErr :=
  match r.sects.find? (fun t => t.typ == 13) with
  | none => if s.fuses.lcState = 3 ∧ s.hw.imgSigReq = true then some { sig := true } else none
  | some t =>
    let b := r.record t 0
    let msg := digestBytes (Config.shake512 (r.data.take t.off))
    if fieldLe b 0 1 = 1 ∧ s.imageKeys.any (fun k => (b.drop 8).take 64 == digestBytes (Config.shake512 k) &&
        Config.ed448Verify k msg ((b.drop 72).take 114)) = true then none
    else some { sig := true }

/-! ## Step 6 (R176, R177, R196) -/

/-- The most records of a section (*Image limits*). -/
def itemLimit (typ : Nat) : Option Nat :=
  match typ with
  | 2 => some 16777216
  | 3 => some 4095
  | 6 => some 256
  | 7 => some 16384
  | 8 => some 1024
  | 9 => some 1024
  | 10 => some 4095
  | 11 => some 4095
  | _ => none

/-- The first record of a list at which a count for its key passes a limit. -/
def overCount (limit : Nat → Nat) (keys : List Nat) : Option Nat :=
  (keys.zipIdx.find? (fun (k, j) => decide (limit k < (keys.take (j + 1)).count k))).map Prod.snd

/-- The first record at which the declared HBM pages pass the limit. -/
def overPages (i : Image) : Option Nat :=
  (List.range i.hbm.length).find? (fun j => decide (655296 < ((i.hbm.take (j + 1)).map (·.pages)).foldl (· + ·) 0))

/-- The limits of one section, or a core it names that is not declared. -/
def resourceSect (i : Image) (s : Sect) : Option (Nat × Nat) :=
  if (s.typ = 2 ∨ s.typ = 3) ∧ i.hasCore s.lc s.lk = false then some (rsResources, 0)
  else
    match itemLimit s.typ with
    | some n =>
      if n < s.items then some (rsLimit, n)
      else if s.typ = 6 then (overPages i).map (fun j => (rsLimit, j)) else none
    | none =>
      if s.typ = 4 then (overCount (fun _ => 64) (i.chans.map (fun d => coreKey d.lc d.lk))).map (fun j => (rsLimit, j))
      else if s.typ = 5 then
        (overCount (fun k => if k / 2 ^ 16 = 1 then 128 else 256)
          (i.regions.map (fun d => d.mem * 2 ^ 16 + d.lc * 2 ^ 8 + d.lk))).map (fun j => (rsLimit, j))
      else none

/-- Logical resources and limits. -/
def Raw.checkResources (r : Raw) (i : Image) : Option LoadErr :=
  let at1 := (r.sects.findIdx? (fun s => s.typ == 1)).getD 0
  let e := fun reason item => some ({ reason := reason, sect := at1, item := item } : LoadErr)
  if 64 < i.masks.length then e rsLimit 64
  else
    match if i.masks = [] then some 0 else i.masks.findIdx? (fun m => m == 0) with
    | some j => e rsResources j
    | none =>
      match r.sects.zipIdx.findSome? (fun (s, k) => (resourceSect i s).map (fun q => (q, k))) with
      | some ((reason, item), k) => some { reason := reason, sect := k, item := item }
      | none =>
        match i.cores.find? (fun (lc, lk) => (List.range 5).any (fun s => (i.streams.find? (strmKey lc lk s)).isNone)) with
        | some (lc, _) => e rsResources lc
        | none => none

/-! ## Step 7 (R178, R179) -/

/-- A descriptor's kind, and that what it names is declared. -/
def badDesc (i : Image) (d : Desc) : Bool :=
  d.kind == 0 || decide (6 < d.kind) || (d.kind == 3 && (i.hbm? d.hreg).isNone) ||
    (d.kind == 4 && !i.hasCore d.rlc d.rlk) || (d.kind == 5 && decide (i.masks.length ≤ d.rlc))

/-! ## Step 8 (R149, R181–R183, R189) -/

/-- Whether a stream may own a region of a memory (R149, R182). -/
def Image.mayOwn (i : Image) (mem lc lk : Nat) (st : Nat × Nat × Nat) : Bool :=
  let (slc, slk, s) := st
  decide (s < 5) && i.hasCore slc slk && (if mem = 1 then (slc == lc && slk == lk) || s == 3 else slc == lc)

/-- A record of the scratchpad and cluster-memory regions, among the earlier ones. -/
def badRegion (i : Image) (j : Nat) (d : RegionDecl) : Bool :=
  let earlier := i.regions.take j
  let same := fun (e : RegionDecl) => e.mem == d.mem && e.lc == d.lc && e.lk == d.lk
  let top := if d.mem = 1 then 2 ^ 22 else 2 ^ 25
  !(d.mem == 1 || d.mem == 2) || decide (i.masks.length ≤ d.lc) || (d.mem == 1 && !i.hasCore d.lc d.lk) ||
    (d.mem == 1 && decide (127 < d.loc)) || earlier.any (fun e => same e && e.loc == d.loc) ||
    !i.mayOwn d.mem d.lc d.lk (d.olc, d.olk, d.owner) ||
    d.base % 32 != 0 || d.size % 32 != 0 || decide (d.size < 32) || decide (top < d.base + d.size) ||
    earlier.any (fun e => same e && overlaps d.base d.size e.base e.size) ||
    d.handoff.any (fun (lc, lk, ch) =>
      match i.chan? lc lk ch with
      | none => true
      | some c => c.init != 0 || !i.mayOwn d.mem d.lc d.lk c.producerOf || !i.mayOwn d.mem d.lc d.lk (c.lc, c.lk, c.consumer))

/-- An HBM region record, among the earlier ones. -/
def badHbm (i : Image) (j : Nat) (policy : Nat) (d : HbmDecl) : Bool :=
  decide (1 < policy) || d.pages == 0 || decide (655296 < d.pages) || (i.hbm.take j).any (fun e => e.region == d.region)

/-- The context declarations. -/
def badDecl (i : Image) : Bool :=
  let named := [i.decl.len, i.decl.slip, i.decl.staging].filterMap id
  named.any (fun r => ((i.hbm? r).map (·.readOnly)).getD true) || decide (named.eraseDups.length < named.length)

/-! ## Step 9 (R142, R146, R162, R180) -/

/-- A token-channel record, among the earlier ones; `size` is its PAYLOAD_SIZE. -/
def badChan (i : Image) (j size : Nat) (d : ChanDecl) : Bool :=
  !i.hasCore d.lc d.lk || decide (63 < d.ch) || (i.chans.take j).any (fun e => e.lc == d.lc && e.lk == d.lk && e.ch == d.ch) ||
    d.depth == 0 || decide (16 < d.depth) || decide (d.depth < d.init) || decide (4 < d.consumer) || decide (4 < d.producer) ||
    (if d.plc = 255 then d.producer == d.consumer
     else !i.hasCore d.plc d.plk || d.producer != 3 || (d.plc == d.lc && d.plk == d.lk)) ||
    (d.payLocal != 255 && (decide (127 < d.payLocal) || d.plc == 255 || size % 4 != 0 || size == 0 || decide (2 ^ 24 < size) ||
      !i.regions.any (fun g => g.mem == 1 && g.lc == d.lc && g.lk == d.lk && g.loc == d.payLocal))) ||
    (d.init != 0 && !(i.handoffs d.lc d.lk d.ch).isEmpty)

/-! ## Step 10 (R101, R185, R186) -/

/-- The epoch table and the bank-state sets, in table order. -/
def Raw.checkEpochs (r : Raw) (i : Image) : Option LoadErr :=
  let n := i.cores.length + i.masks.length
  r.sects.zipIdx.findSome? (fun (s, k) =>
    let e := fun item => some ({ reason := rsEpoch, sect := k, item := item } : LoadErr)
    if s.typ = 8 then
      if i.epochs = [] then e 0
      else
        match i.epochs.findIdx? (fun d => decide (i.banksets.length ≤ d.bankset) || decide (4800 < d.avgW)) with
        | some j => e j
        | none => none
    else if s.typ = 9 then
      if s.items = 0 ∨ s.len ≠ s.items * 8 * n then e 0
      else
        match i.banksets.findIdx? (fun ws => ws.any (fun w => (List.range 32).any (fun b => bitsAt w (2 * b) 2 == 3))) with
        | some j => e j
        | none => none
    else none)

/-! ## Step 11 (R184, R187, R188, R291) -/

/-- A node of the affinity graph that the image declares. -/
def Image.node (i : Image) (v : Nat) : Bool :=
  if v < 64 then decide (v < i.masks.length) else decide (0x100 ≤ v) && (i.hbm? (v - 0x100)).isSome

/-- An affinity record, among the earlier ones. -/
def badEdge (i : Image) (j : Nat) (e : Nat × Nat × Nat) : Bool :=
  let (a, b, w) := e
  !i.node a || !i.node b || a == b || (decide (64 ≤ a) && decide (64 ≤ b)) || w == 0 ||
    (i.affinity.take j).any (fun q => (q.1 == a && q.2.1 == b) || (q.1 == b && q.2.1 == a))

/-- A collective declaration, among the earlier ones. -/
def badColl (i : Image) (j : Nat) (d : CollDecl) : Bool :=
  decide (4094 < d.id) || (i.colls.take j).any (fun e => e.id == d.id) || decide (1023 < d.group) || decide (2 < d.op) ||
    !(d.dtype == 0 || d.dtype == 1 || d.dtype == 8) || (d.op != 2 && decide (2 < d.redop)) ||
    d.bytes == 0 || d.bytes % 4 != 0 || decide (2 ^ 32 < d.bytes) || (d.stageOk && i.decl.staging.isNone)

/-- A slot-table declaration, among the earlier ones. -/
def badSlotDecl (i : Image) (j : Nat) (d : SlotDecl) : Bool :=
  decide (4094 < d.id) || (i.slots.take j).any (fun e => e.id == d.id) || d.capacity == 0 || decide (8192 < d.capacity) ||
    d.srcRows == 0 || d.srcRows == 0xFFFFFFFF || d.offset % 4 != 0 ||
    (match i.regions.find? (fun g => g.mem == d.mem && g.lc == d.lc && g.lk == d.lk && g.loc == d.loc) with
      | some g => decide (g.size < d.offset + 4 * d.capacity)
      | none => true)

/-- The affinity graph, the collectives and the slot tables, in table order. -/
def Raw.checkGraphs (r : Raw) (i : Image) : Option LoadErr :=
  r.sects.zipIdx.findSome? (fun (s, k) =>
    let bad : Option (Nat × Nat) :=
      if s.typ = 7 then (i.affinity.zipIdx.find? (fun (e, j) => badEdge i j e)).map (fun q => (rsAffinity, q.2))
      else if s.typ = 10 then (i.colls.zipIdx.find? (fun (d, j) => badColl i j d)).map (fun q => (rsColl, q.2))
      else if s.typ = 11 then (i.slots.zipIdx.find? (fun (d, j) => badSlotDecl i j d)).map (fun q => (rsSlot, q.2))
      else none
    bad.map (fun (reason, item) => { reason := reason, sect := k, item := item }))

/-! ## Steps 1–11 in order -/

/-- Steps 6–11 (R197): step 8 takes the regions, then the HBM regions, then the context declarations. -/
def Raw.checkDecls (r : Raw) (i : Image) : Option LoadErr :=
  r.checkResources i <|>
    r.each 3 (fun _ _ b => failIf (badDesc i (readDesc b)) rsDescriptor) <|>
    r.each 5 (fun _ j b => failIf (badRegion i j (readRegion b)) rsRegion) <|>
    r.each 6 (fun _ j b => failIf (badHbm i j (fieldLe b 1 1) (readHbm b)) rsRegion) <|>
    r.each 12 (fun _ _ _ => failIf (badDecl i) rsRegion) <|>
    r.each 4 (fun _ j b => failIf (badChan i j (fieldLe b 12 4) (readChan b)) rsChannel) <|>
    r.checkEpochs i <|>
    r.checkGraphs i

end Sys2Proof.Machine
end

