-- ==== Sys2Proof/Machine/ProgramCheck.lean ====
section
/-!
DEFINITION. The load checks 12–16 of R197: each instruction of a checked image's streams (R191–R195, R162), loop structure (R141),
formats along every path (R36, R43, R194) and the permission of CTRRD (R193).
-/
namespace Sys2Proof.Machine

/-! ## Codes (R36, R43, R48, R79, *VCVT conversions*) -/

/-- Format codes by role. -/
def isMxCode (c : Nat) : Bool := decide (9 ≤ c) && decide (c ≤ 13)
def isNarrow (c : Nat) : Bool := decide (2 ≤ c) && decide (c ≤ 6)
def isMxeIn (c : Nat) : Bool := isNarrow c || isMxCode c || c == 1 || c == 7
def isMxeOut (c : Nat) : Bool := decide (c ≤ 3) || c == 8 || isMxCode c

/-- The operand pairs of *MXE operand pairs*. -/
def pairOk (a b : Nat) : Bool :=
  (isNarrow a && isNarrow b) || (isMxCode a && isMxCode b) || (a == 1 && b == 1) || (a == 7 && b == 7)

/-- The outputs allowed for a pair. -/
def outOk (pair : Nat × Nat) (o : Nat) : Bool :=
  if pair.1 = 7 then o == 8 || o == 0 else decide (o ≤ 3) || isMxCode o

/-- The element formats of a V1 operation (*VXE operations*). -/
def v1FmtOk (opc f : Nat) : Bool :=
  if 0x31 ≤ opc then f == 0
  else f == 0 || f == 1 || (f == 8 && [0x20, 0x21, 0x24, 0x25, 0x2A, 0x28].contains opc)

/-- The pairs of *VCVT conversions*. -/
def cvtOk (s d : Nat) : Bool :=
  if d = 0 then decide (1 ≤ s) && decide (s ≤ 13)
  else s == 0 && (d == 1 || d == 2 || d == 3 || d == 7 || d == 8 || isMxCode d)

/-- Whether an opcode is a V1 operation. -/
def isV1 (opc : Nat) : Bool := (decide (0x20 ≤ opc) && decide (opc ≤ 0x2B)) || (decide (0x30 ≤ opc) && decide (opc ≤ 0x33))

/-- Whether the table of *Opcodes* allows an opcode in a stream. -/
def opcodeOk (opc s : Nat) : Bool :=
  if opc ≤ 4 then true
  else if opc = 5 then s == 4
  else if 0x10 ≤ opc ∧ opc ≤ 0x15 then s == 0 || s == 1
  else if isV1 opc ∨ (0x34 ≤ opc ∧ opc ≤ 0x37) then s == 2
  else if 0x40 ≤ opc ∧ opc ≤ 0x44 then s == 3 else false

/-! ## Step 12 (R81, R191, R192, R195, R430) -/

/-- Rows times elements of a VXE layout that has NM1 and RM1. -/
def rowsN (w : Nat) : Nat := (bitsAt w 20 7 + 1) * (bitsAt w 27 13 + 1)

/-- Whether the wait and post fields that are not used hold a value (R191). -/
def unusedSet (w : Nat) : Bool :=
  ([bitsAt w 110 6, bitsAt w 104 6].drop (nwaitOf w) ++ [bitsAt w 98 6, bitsAt w 92 6].drop (npostOf w)).any (fun v => v != 0)

/-- Whether an operand field holds a value that its layout rejects. -/
def badOperandField (w : Nat) : Bool :=
  let opc := opcOf w
  if opc = 1 then bitsAt w 67 24 == 0
  else if opc = 5 then
    let space := bitsAt w 78 2
    bitsAt w 69 9 != 0 || decide ((if space = 0 then 15 else if space = 1 then 31 else 0) < bitsAt w 64 5)
  else if isV1 opc then
    decide (8192 < rowsN w) || (opc == 0x2A && decide (5 < bitsAt w 16 4)) || (opc == 0x30 && decide (3 < bitsAt w 16 4))
  else if opc = 0x34 then
    decide (8192 < rowsN w) ||
      ((isMxCode (bitsAt w 40 4) || isMxCode (bitsAt w 16 4)) && (bitsAt w 27 13 + 1) % 32 != 0)
  else if opc = 0x35 then
    bitsAt w 4 2 == 3 || bitsAt w 2 2 == 3 || decide (8192 < (bitsAt w 6 7 + 1) * 64 * (bitsAt w 13 7 + 1))
  else if opc = 0x36 then (bitsAt w 27 13 + 1) % 2 != 0 || decide (8192 < rowsN w)
  else if opc = 0x37 then bitsAt w 56 12 == 0xFFF
  else if opc = 0x40 then decide (2 ^ 24 < (bitsAt w 40 16 + 1) * 4 * (bitsAt w 22 18 + 1))
  else if opc = 0x44 then decide (2 ^ 24 < (bitsAt w 32 16 + 1) * 4 * (bitsAt w 14 18 + 1))
  else if opc = 0x41 then decide (65536 < bitsAt w 38 16 + bitsAt w 22 16 + 1)
  else false

/-- The opcode and the fields of an instruction in a stream. -/
def checkFields (s w : Nat) : Option Nat :=
  if opcodeOk (opcOf w) s = false then some rsOpcode
  else failIf (nwaitOf w == 3 || npostOf w == 3 || unusedSet w || badOperandField w) rsField

/-! ## Step 13 (R90, R162, R175, R179, R188, R195, R492, R493) -/

/-- What an operand field may hold: where the field begins, the kinds allowed, and whether 0xFFF is (0 no, 1 yes, 2 it must be). -/
structure OpUse where
  lo : Nat
  kinds : List Nat
  none : Nat := 0
  stride : Nat := 1

/-- The operands of an instruction (*Descriptor kinds*, the layouts of R193–R195, R66, R68, R493). -/
def opUses (w : Nat) : List OpUse :=
  let opc := opcOf w
  let own := [1, 2]
  let any := [1, 2, 3, 4, 5]
  if opc = 5 then [⟨80, own, 0, 1⟩]
  else if 0x11 ≤ opc ∧ opc ≤ 0x13 then [⟨80, [1], 0, 32⟩, ⟨68, [1], 0, 32⟩, ⟨56, [1], 1, 4⟩, ⟨44, [1], 1, 4⟩]
  else if opc = 0x14 then [⟨80, own, 0, 32⟩, ⟨68, own, 1, 4⟩, ⟨56, [6], 1, 1⟩]
  else if opc = 0x15 then [⟨80, [1], 0, 1⟩]
  else if isV1 opc then
    [⟨80, own, 0, 1⟩, ⟨68, own, 0, 1⟩,
     ⟨56, own, if [0x20, 0x21, 0x22, 0x23, 0x24, 0x25, 0x29, 0x2A, 0x2B].contains opc then 0 else 2, 1⟩,
     ⟨44, own, if opc = 0x23 ∨ opc = 0x2B then 0 else 2, 1⟩]
  else if opc = 0x34 then [⟨80, own, 0, 1⟩, ⟨68, own, 0, 1⟩, ⟨56, own, 1, 1⟩, ⟨44, own, 1, 1⟩, ⟨2, [6], 1, 1⟩]
  else if opc = 0x35 then
    [⟨80, own, 0, 1⟩, ⟨68, own, 0, 1⟩, ⟨56, own, 0, 1⟩, ⟨44, own, 0, 1⟩, ⟨32, [6], 0, 1⟩, ⟨20, [6], 0, 1⟩]
  else if opc = 0x36 then [⟨80, own, 0, 1⟩, ⟨68, own, 0, 1⟩, ⟨56, own, 0, 1⟩, ⟨44, [6], 0, 1⟩]
  else if opc = 0x37 then [⟨80, own, 0, 1⟩, ⟨68, own, 0, 1⟩]
  else if opc = 0x40 then [⟨80, any, 0, 4⟩, ⟨68, any, 0, 4⟩]
  else if opc = 0x44 then [⟨80, any, 0, 4⟩]
  else if opc = 0x41 then [⟨80, own, 0, 1⟩, ⟨68, [3], 0, 1⟩]
  else if opc = 0x43 then [⟨80, [1, 2, 3], 0, 1⟩, ⟨68, [1, 2, 3], 0, 1⟩, ⟨56, [6], 0, 1⟩]
  else []

/-- Whether an operand breaks its use. -/
def badUse (tab : List Desc) (lc lk w : Nat) (u : OpUse) : Bool :=
  let v := bitsAt w u.lo 12
  if v = 0xFFF then u.none == 0
  else
    match tab[v]? with
    | none => true
    | some d =>
      u.none == 2 || !u.kinds.contains d.kind || (d.kind == 4 && d.rlc == lc && d.rlk == lk) || (d.kind == 5 && d.rlc == lc) ||
        d.stride % u.stride != 0

/-- The slot table that an instruction names. -/
def Image.slotOf (i : Image) (n : Nat) : Option SlotDecl := i.slots.find? (fun d => d.id == n)

/-- The destinations that are written as rows at their STRIDE, with the bytes of a row (R492). -/
def rowDests (i : Image) (w : Nat) : List (Nat × Nat) :=
  let opc := opcOf w
  let n := bitsAt w 27 13 + 1
  let bytes := fun c => n * (Fmt.get c).bits / 8
  if opc = 0x37 then
    match i.slotOf (bitsAt w 56 12) with
    | some t => if 1 < t.capacity then [(80, 4 * n)] else []
    | none => []
  else if opc = 0x35 then
    if bitsAt w 6 7 = 0 then []
    else [(80, 64 * (bitsAt w 13 7 + 1) * [4, 2, 1, 1].getD (bitsAt w 2 2) 1), (56, 16)]
  else if bitsAt w 20 7 = 0 then []
  else if opc = 0x30 then [(80, 4)]
  else if isV1 opc then if opc = 0x2A ∨ v1FmtOk opc (bitsAt w 40 4) = false then [] else [(80, bytes (bitsAt w 40 4))]
  else if opc = 0x34 then
    let d := bitsAt w 16 4
    if cvtOk (bitsAt w 40 4) d then (80, bytes d) :: (if isMxCode d then [(44, n / 32)] else []) else []
  else if opc = 0x36 then if bitsAt w 40 4 < 2 then [(80, bytes (bitsAt w 40 4))] else []
  else []

/-- Whether a descriptor that an instruction names does not serve it. -/
def badDescs (i : Image) (lc lk w : Nat) : Bool :=
  let tab := i.descTab lc lk
  (opUses w).any (badUse tab lc lk w) ||
    (rowDests i w).any (fun (lo, n) =>
      match tab[bitsAt w lo 12]? with
      | some d => decide (d.stride < n)
      | none => false)

/-- Whether a wait, a post or a TPOST names a channel that is not the stream's (R90, R140, R162). -/
def badTokens (i : Image) (lc lk s w : Nat) : Bool :=
  let opc := opcOf w
  ((decide (1 ≤ opc) && decide (opc ≤ 4)) && (nwaitOf w != 0 || npostOf w != 0)) ||
    (waitsOf w).any (fun c =>
      match i.chan? lc lk c with
      | some d => d.consumer != s
      | none => true) ||
    (postsOf w).any (fun c =>
      match i.chan? lc lk c with
      | some d => d.plc != 255 || d.producer != s
      | none => true) ||
    (opc == 0x42 &&
      ((bitsAt w 86 6 == lc && bitsAt w 83 3 == lk) ||
        (match i.chan? (bitsAt w 86 6) (bitsAt w 83 3) (bitsAt w 77 6) with
          | some d => d.plc != lc || d.plk != lk
          | none => true)))

/-- Whether a slot table lies where the engines of a core read it (R188, R195). -/
def SlotDecl.serves (d : SlotDecl) (lc lk : Nat) : Bool := d.lc == lc && (d.mem == 2 || d.lk == lk)

/-- A reference of an instruction to an epoch descriptor, a collective or a slot table that fails (R175, R195). -/
def badRef (i : Image) (lc lk w : Nat) : Option Nat :=
  let opc := opcOf w
  if opc = 3 then failIf (decide (i.epochs.length ≤ bitsAt w 82 10)) rsEpoch
  else if opc = 0x43 then failIf (!i.colls.any (fun d => d.id == bitsAt w 44 12)) rsColl
  else if opc = 0x37 then
    failIf (((i.slotOf (bitsAt w 56 12)).map (fun d => !d.serves lc lk)).getD true) rsSlot
  else if opc = 0x40 ∧ bitsAt w 56 12 ≠ 0xFFF then
    failIf (((i.slotOf (bitsAt w 56 12)).map (fun d => !d.serves lc lk || d.capacity != bitsAt w 40 16 + 1)).getD true) rsSlot
  else none

/-- Step 13 of one instruction. -/
def checkRefs (i : Image) (lc lk s w : Nat) : Option Nat :=
  if badDescs i lc lk w then some rsDescriptor
  else if badTokens i lc lk s w then some rsToken
  else badRef i lc lk w

/-! ## Step 14 (R141, R156, R162) -/

/-- The indexes at which the loop structure of a stream fails, and the LOOPs that stay open. -/
def loopScan (hasLen : Bool) : List Nat → Nat → List Nat → List Nat
  | [], _, stack => stack
  | w :: ws, idx, stack =>
    if opcOf w = 1 then
      let rest := loopScan hasLen ws (idx + 1) (idx :: stack)
      if stack.length = 4 ∨ (bitAt w 91 = true ∧ hasLen = false) then idx :: rest else rest
    else if opcOf w = 2 then
      match stack with
      | [] => idx :: loopScan hasLen ws (idx + 1) []
      | _ :: t => loopScan hasLen ws (idx + 1) t
    else loopScan hasLen ws (idx + 1) stack

/-- The least of a list of numbers. -/
def leastOf (l : List Nat) : Option Nat :=
  l.foldl (fun b k => match b with | none => some k | some a => some (min a k)) none

/-- The first failure of a stream's structure: a LOOP without an ENDLOOP fails at its own index. -/
def checkShape (hasLen : Bool) (ws : List Nat) : Option (Nat × Nat) :=
  let h := match (ws.take (ws.length - 1)).findIdx? (fun w => opcOf w == 4) with
    | some i => some i
    | none => if (ws.getLast?).map opcOf = some 4 then none else some (ws.length - 1)
  match leastOf (loopScan hasLen ws 0 []), h with
  | some a, some b => if a ≤ b then some (a, rsLoop) else some (b, rsHalt)
  | some a, none => some (a, rsLoop)
  | none, some b => some (b, rsHalt)
  | none, none => none

/-! ## Step 15 (R36, R43, R48, R194, R491) -/

/-- What holds before an instruction along one path: its index, the formats in force, and one pair that an MMA of the open
accumulation has used. Following every choice of that one pair follows them all. -/
structure Flow where
  pc : Nat
  fmt : Option (Nat × Nat × Nat)
  pair : Option (Nat × Nat)
  deriving DecidableEq, Repr

/-- Whether an MXE instruction is wrong in what holds before it. -/
def flowBad (w : Nat) (f : Flow) : Bool :=
  let opc := opcOf w
  let scale := fun lo c => (bitsAt w lo 12 == 0xFFF) == isMxCode c
  if opc = 0x10 then !isMxeIn (bitsAt w 88 4) || !isMxeIn (bitsAt w 84 4) || !isMxeOut (bitsAt w 80 4)
  else if 0x11 ≤ opc ∧ opc ≤ 0x14 then
    match f.fmt with
    | none => true
    | some (a, b, o) =>
      if opc = 0x14 then scale 68 o || (match f.pair with | some p => !outOk p o | none => false)
      else scale 56 a || scale 44 b || (opc != 0x11 && !pairOk a b)
  else false

/-- The index after the ENDLOOP that closes the LOOP before `pc`. -/
def closeOf : List Nat → Nat → Nat → Nat
  | [], _, pc => pc
  | w :: ws, depth, pc =>
    if opcOf w = 1 then closeOf ws (depth + 1) (pc + 1)
    else if opcOf w = 2 then (match depth with | 0 => pc + 1 | d + 1 => closeOf ws d (pc + 1))
    else closeOf ws depth (pc + 1)

/-- The LOOP that the ENDLOOP at `pc` closes. -/
def openOf (ws : List Nat) (pc : Nat) : Nat :=
  ((List.range pc).reverse.find? (fun i => opcOf (ws.getD i 0) == 1 && closeOf (ws.drop (i + 1)) 0 (i + 1) == pc + 1)).getD 0

/-- What may hold after an instruction: along the next instruction, around a back edge that can be taken, and past a bounded loop
whose length is 0. -/
def flowNext (ws : List Nat) (w : Nat) (f : Flow) : List Flow :=
  let opc := opcOf w
  let on := { f with pc := f.pc + 1 }
  if opc = 0x10 then [{ on with fmt := some (bitsAt w 88 4, bitsAt w 84 4, bitsAt w 80 4) }]
  else if opc = 0x14 then [{ on with pair := none }]
  else if opc = 0x12 then
    match f.fmt with
    | some (a, b, _) => [on, { on with pair := some (a, b) }]
    | none => [on]
  else if opc = 0x13 then [{ on with pair := f.fmt.map (fun (a, b, _) => (a, b)) }]
  else if opc = 1 then
    if bitAt w 91 then [on, { f with pc := closeOf (ws.drop (f.pc + 1)) 0 (f.pc + 1) }] else [on]
  else if opc = 2 then
    let l := openOf ws f.pc
    let v := ws.getD l 0
    if bitAt v 91 = false ∧ bitsAt v 67 24 = 1 then [on] else [on, { f with pc := l + 1 }]
  else if opc = 4 then [] else [on]

/-- Every state that some path reaches. `fuel` bounds the states followed. -/
def flowAll (ws : List Nat) : Nat → List Flow → List Flow → List Flow
  | 0, _, seen => seen
  | _, [], seen => seen
  | fuel + 1, f :: todo, seen =>
    match ws[f.pc]? with
    | none => flowAll ws fuel todo seen
    | some w =>
      if seen.contains f then flowAll ws fuel todo seen
      else flowAll ws fuel (flowNext ws w f ++ todo) (f :: seen)

/-- The states that can be reached are at most this many, each followed by at most two. -/
def flowFuel (ws : List Nat) : Nat := (ws.length + 1) * 2 ^ 24

/-- A VXE instruction whose formats are wrong. -/
def vxeFmtBad (w : Nat) : Bool :=
  let opc := opcOf w
  if isV1 opc then !v1FmtOk opc (bitsAt w 40 4)
  else if opc = 0x34 then
    let (s, d) := (bitsAt w 40 4, bitsAt w 16 4)
    !cvtOk s d || (bitsAt w 56 12 == 0xFFF) == isMxCode s || (bitsAt w 44 12 == 0xFFF) == isMxCode d
  else opc == 0x36 && decide (1 < bitsAt w 40 4)

/-- The first instruction of a stream whose formats are wrong; a SETFMT or a VXE instruction counts on no path. -/
def checkFormats (s : Nat) (ws : List Nat) : Option Nat :=
  if s < 2 then
    let fs := flowAll ws (flowFuel ws) [⟨0, none, none⟩] []
    (List.range ws.length).find? (fun i =>
      let w := ws.getD i 0
      (opcOf w == 0x10 && flowBad w ⟨i, none, none⟩) || fs.any (fun f => f.pc == i && flowBad w f))
  else ws.findIdx? vxeFmtBad

/-! ## Steps 12–16 in order -/

/-- Run a check over every instruction of every stream, in section-table order. -/
def Raw.eachInstr (r : Raw) (f : Nat → Nat → Nat → Nat → Option Nat) : Option LoadErr :=
  r.each 2 (fun s _ b => f s.lc s.lk s.strm (leNat b))

/-- Run a check over every stream. -/
def Raw.eachStream (r : Raw) (f : Sect → List Nat → Option (Nat × Nat)) : Option LoadErr :=
  r.sects.zipIdx.findSome? (fun (s, i) =>
    if s.typ = 2 then
      (f s ((r.recs s).map leNat)).map (fun (item, reason) => { reason := reason, sect := i, item := item })
    else none)

/-- Steps 12–16 (R197). -/
def Raw.checkProgram (r : Raw) (i : Image) (counters : Bool) : Option LoadErr :=
  r.eachInstr (fun _ _ s w => checkFields s w) <|>
    r.eachInstr (fun lc lk s w => checkRefs i lc lk s w) <|>
    r.eachStream (fun _ ws => checkShape i.decl.len.isSome ws) <|>
    r.eachStream (fun s ws => (checkFormats s.strm ws).map (fun j => (j, rsFormat))) <|>
    r.eachInstr (fun _ _ _ w => failIf (opcOf w == 5 && !counters) rsCounters)

/-- Steps 1–16 (R197) on the bytes of a whole image: the image, or why it is refused. -/
def checkImage (s : State) (counters : Bool) (data : List Byte) : Except LoadErr Image :=
  match checkHeader data with
  | some e => .error e
  | none =>
    let r := Raw.ofBytes data
    let i := r.image
    match r.checkTable <|> r.checkSig s <|> r.checkDecls i <|> r.checkProgram i counters with
    | some e => .error e
    | none => .ok i

end Sys2Proof.Machine
end

