-- ==== Sys2Proof/Machine/Load.lean ====
section
/-!
DEFINITION. Loading an image (R197–R199, R334), binding it (R199–R216, R223, R424), and the queries and pins of placement (R221,
R222, R225).
-/
namespace Sys2Proof.Machine

/-! ## IMAGE_LOAD (R197–R199, R334) -/

def stImgInvalid : Nat := 0x0110
def stImgGap : Nat := 0x0111
def stImgSig : Nat := 0x0210
def stPinEmpty : Nat := 0x0119

/-- The first offset that no part covers, from `pos` on. -/
def firstGap (parts : List (Nat × List Byte)) : Nat → Nat → Nat
  | 0, pos => pos
  | fuel + 1, pos =>
    match parts.find? (fun p => decide (p.1 ≤ pos) && decide (pos < p.1 + p.2.length)) with
    | some p => firstGap parts fuel (p.1 + p.2.length)
    | none => pos

/-- The bytes of an image from its parts, the newest part first. -/
def assemble (parts : List (Nat × List Byte)) (total : Nat) : List Byte :=
  (List.range total).map (fun i =>
    match parts.find? (fun p => decide (p.1 ≤ i) && decide (i < p.1 + p.2.length)) with
    | some p => p.2.getD (i - p.1) 0
    | none => 0)

/-- The checks of a whole image: a failure completes the command and leaves the context created; a success keeps the image and its
measurement, and the load waits for the Placement Unit (R198, R199). -/
def Hw.checkLoad (s : State) (c handle : Nat) (data : List Byte) (h : Hw) : Hw :=
  let h := h.modCtx c (fun x => { x with host := { x.host with parts := [], total := none } })
  let mine := fun (k : Cmd) => k.ctx == handle && k.opcode == 0x0301
  match h.ctx? c with
  | none => h
  | some x =>
    match checkImage s x.host.countersUser data with
    | .error e => if e.sig then h.finishAll mine stImgSig [] [] else h.finishAll mine stImgInvalid [e.reason, e.sect, e.item] []
    | .ok img =>
      let h := h.modCtx c (fun x =>
        { x with host := { x.host with image := some img, digest := Config.shake512 data, checking := true } })
      let h : Hw := { h with plu := { h.plu with waiting := h.plu.waiting ++ [c] } }
      h.setFld Fd.PLU_STATUS.LOADS_WAITING h.plu.waiting.length

/-- A part of an image, and with FINAL the whole of it. -/
def loadBody (handle : Nat) (p0 p1 p2 : BitVec 32) (payload : List Byte) (s : State) (h : Hw) : Did :=
  match h.ctxOf handle with
  | none => Did.fail h stHandle
  | some (c, x) =>
    let total := p1.toNat
    if x.host.st ≠ .created ∨ x.host.image.isSome = true then Did.fail h stImgState
    else if 2 ≤ p2.toNat ∨ total = 0 ∨ 2 ^ 31 < total ∨ total < p0.toNat + payload.length ∨ (x.host.total.getD total) ≠ total then
      Did.fail h stParam
    else
      let parts := (p0.toNat, payload) :: x.host.parts
      let h := h.modCtx c (fun x => { x with host := { x.host with parts := parts, total := some total } })
      if p2 = 0 then { hw := h, rep := Rep.only stOk }
      else
        let gap := firstGap parts (parts.length + 1) 0
        if gap < total then { hw := h, rep := { status := stImgGap, p := [gap] } }
        else { hw := h, rep := Rep.only stAccepted, next := fun h => (h.checkLoad s c handle (assemble parts total), []) }
/-- The effect of IMAGE_LOAD. -/
def imageLoadEff (hd : Hdr) (p0 p1 p2 : BitVec 32) (payload : List Byte) (s : State) : Eff :=
  hostCmd { opcode := 0x0301, lenOk := decide (payload.length ≤ 8192), needsCtx := true } hd s
    (loadBody hd.ctx.toNat p0 p1 p2 payload)
/-- IMAGE_LOAD (R334). -/
def execImageLoad (hd : Hdr) (p0 p1 p2 : BitVec 32) (payload : List Byte) (s : State) : Res :=
  unlessCut (.imageLoad hd p0 p1 p2 payload) s (done s (imageLoadEff hd p0 p1 p2 payload s))

/-! ## PLACEMENT_BIND (R199–R216, R223, R424) -/

/-- What placement finds for a context: clusters, core maps and pages, and whether a pin gave them. -/
def Hw.findPlace (h : Hw) (x : Ctx) : Except Nat (Tab Nat × Tab Nat × Paging × Bool) :=
  let i := x.img
  match x.host.pinSlot with
  | some n =>
    (match h.plu.pins.find? n with
      | none => .error stPinEmpty
      | some pin =>
        match h.bindPin i x.host.part pin with
        | .ok (cl, co, pg) => .ok (cl, co, pg, true)
        | .error e => .error e)
  | none =>
    match h.bindClusters i x.host.part with
    | .error e => .error e
    | .ok (v, cl) =>
      match h.bindPages i x.host.part cl with
      | .error e => .error e
      | .ok pg => .ok (cl, h.coreMaps v cl, pg, false)

/-- A load that placement cannot serve: everything is released and the context stays created (R216, R223). -/
def Hw.placeFailed (h : Hw) (c e : Nat) : Hw :=
  let hd := h.handle c
  (h.finishAll (fun k => k.ctx == hd && k.opcode == 0x0301) e [] []).modCtx c
    (fun x => { x with host := { x.host with image := none, digest := 0, checking := false } })

/-- The maps of a context go live: its pages are zero, its banks take the states of epoch 0, its counters start from 0. -/
def Hw.goLive (h : Hw) (c : Nat) (x : Ctx) (cl co : Tab Nat) (pg : Paging) (pinned : Bool) : Hw × List Edit :=
  let p : Placement :=
    { clusters := cl, cores := co, pages := pg.pages, displaced := pg.displaced, migrated := 0, pinned := pinned, placedTb := h.tb }
  let h := h.modCtx c (fun x => { host := { x.host with st := .loaded, place := some p, checking := false }, run := {} })
  let x : Ctx := { x with host := { x.host with place := some p } }
  let h := cl.foldl (fun h q => h.clearCluster q.2) h
  let plan := x.bankPlan 0
  let (h, es) := h.bankStates plan
  let h := plan.foldl (fun h q => if h.bankCode q.1 = 3 then h.setBank q.1 0 else h) h
  let hd := h.handle c
  let maps := pg.pages.flatMap (fun (key, f) => zeroFrame f :: mapEdits c x.img key f)
  (h.finishAll (fun k => k.ctx == hd && k.opcode == 0x0301) stOk [] [], es ++ maps)

/-- The Placement Unit serves the load that has waited longest (R199, R226). -/
def placementBindEff (s : State) : Eff :=
  let h := s.hw
  match h.plu.waiting with
  | [] => { hw := h }
  | c :: rest =>
    let h : Hw := { h with plu := { h.plu with waiting := rest } }
    let h := h.setFld Fd.PLU_STATUS.LOADS_WAITING rest.length
    match h.ctx? c with
    | none => { hw := h }
    | some x =>
      match h.findPlace x with
      | .error e => { hw := (h.setFld Fd.PLU_STATUS.LAST_RESULT e).placeFailed c e }
      | .ok (cl, co, pg, pinned) =>
        let (h, es) := (h.setFld Fd.PLU_STATUS.LAST_RESULT 0).goLive c x cl co pg pinned
        { hw := h, edits := es }
/-- PLACEMENT_BIND (R206). -/
def execPlacementBind (s : State) : Res := done s (placementBindEff s)

/-! ## PLACEMENT_QUERY (R225) -/

/-- A region's entry of the placement summary. -/
def regionEntry (p : Placement) (d : HbmDecl) : List Byte :=
  beBytes 1 d.region ++ beBytes 1 d.near.toNat ++ beBytes 1 (d.readOnly.toNat + 2 * d.pinned.toNat) ++ [0] ++ beBytes 4 d.pages ++
    (List.range 16).flatMap (fun s =>
      beBytes 2 (p.pages.filter (fun (k, f) => k / 2 ^ 24 == d.region && f / 65536 == s)).length)

/-- The placement summary from a region on. -/
def placeSummary (c : Nat) (x : Ctx) (p : Placement) (first : Nat) : List Byte :=
  let i := x.img
  let room := (8192 - 16 - 8 * i.masks.length) / 40
  let rs := ((List.range 256).filterMap (fun r => if first ≤ r then i.hbm? r else none)).take room
  beBytes 1 c ++ beBytes 1 (p.pinned.toNat + 2 * (decide (0 < p.migrated)).toNat) ++ beBytes 2 i.masks.length ++
    beBytes 2 rs.length ++ [0, 0] ++ beBytes 8 p.placedTb ++
    i.masks.zipIdx.flatMap (fun (m, lc) =>
      beBytes 1 lc ++ beBytes 1 (p.clusters.getD lc 0) ++ beBytes 1 m ++ [0] ++
        beBytes 4 (((List.range 8).map (fun lk => p.cores.getD (coreKey lc lk) 0 % 9 * 16 ^ lk)).foldl (· + ·) 0)) ++
    rs.flatMap (regionEntry p)

/-- The frames of a region's pages from a page on. -/
def placePages (p : Placement) (d : HbmDecl) (first : Nat) : List Byte :=
  let n := min 2040 (d.pages - first)
  beBytes 2 d.region ++ beBytes 2 n ++ beBytes 4 first ++ List.replicate 8 0 ++
    (List.range n).flatMap (fun j => beBytes 4 (p.pages.getD (pageKey d.region (first + j)) 0))

/-- The reply of PLACEMENT_QUERY. -/
def placeQueryBody (handle : Nat) (p0 p1 p2 : BitVec 32) (_ : State) (h : Hw) : Did :=
  match h.ctxOf handle with
  | none => Did.fail h stHandle
  | some (c, x) =>
    match x.host.place with
    | none => Did.fail h stCtxState
    | some p =>
      if p0 = 0 then
        if 255 < p1.toNat then Did.fail h stParam
        else { hw := h, rep := { status := stOk, payload := placeSummary c x p p1.toNat } }
      else if p0 = 1 then
        match x.img.hbm? p1.toNat with
        | some d =>
          if d.pages ≤ p2.toNat then Did.fail h stMemRange
          else { hw := h, rep := { status := stOk, payload := placePages p d p2.toNat } }
        | none => Did.fail h stMemRange
      else Did.fail h stParam
/-- The effect of PLACEMENT_QUERY. -/
def placementQueryEff (hd : Hdr) (len : Nat) (p0 p1 p2 : BitVec 32) (s : State) : Eff :=
  hostCmd { opcode := 0x0306, reads := true, lenOk := len == 0, needsCtx := true } hd s (placeQueryBody hd.ctx.toNat p0 p1 p2)
/-- PLACEMENT_QUERY (R225). -/
def execPlacementQuery (hd : Hdr) (len : Nat) (p0 p1 p2 : BitVec 32) (s : State) : Res :=
  unlessCut (.placementQuery hd len p0 p1 p2) s (done s (placementQueryEff hd len p0 p1 p2 s))

/-! ## PLACEMENT_PIN (R221, R222) -/

def stPinState : Nat := 0x0311

/-- The pin that records a placement. -/
def pinOf (x : Ctx) (p : Placement) : Pin :=
  { masks := x.img.shape.1, regions := x.img.shape.2, clusters := p.clusters, cores := p.cores,
    hbmSet := p.pages.map (fun (k, f) => (k, f / 65536)) }

/-- RECORD stores the placement of a context in a slot. -/
def pinRecordBody (handle : Nat) (p1 : BitVec 32) (_ : State) (h : Hw) : Did :=
  match h.ctxOf handle with
  | none => Did.fail h stHandle
  | some (_, x) =>
    if 7 < p1.toNat then Did.fail h stParam
    else
      match x.host.place with
      | none => Did.fail h stPinState
      | some p => { hw := { h with plu := { h.plu with pins := h.plu.pins.put p1.toNat (pinOf x p) } }, rep := Rep.only stOk }
/-- The effect of PIN_RECORD. -/
def pinRecordEff (hd : Hdr) (len : Nat) (p1 : BitVec 32) (s : State) : Eff :=
  hostCmd { opcode := 0x0307, lenOk := len == 0, needsCtx := true } hd s (pinRecordBody hd.ctx.toNat p1)
/-- PIN_RECORD (R222). -/
def execPinRecord (hd : Hdr) (len : Nat) (p1 : BitVec 32) (s : State) : Res :=
  unlessCut (.pinRecord hd len p1) s (done s (pinRecordEff hd len p1 s))

/-- BIND marks a created context to be placed from a slot. -/
def pinBindBody (handle : Nat) (p1 : BitVec 32) (_ : State) (h : Hw) : Did :=
  match h.ctxOf handle with
  | none => Did.fail h stHandle
  | some (c, x) =>
    if 7 < p1.toNat then Did.fail h stParam
    else if (h.plu.pins.find? p1.toNat).isNone then Did.fail h stPinEmpty
    else if x.host.st ≠ .created ∨ x.host.image.isSome = true then Did.fail h stPinState
    else { hw := h.modCtx c (fun x => { x with host := { x.host with pinSlot := some p1.toNat } }), rep := Rep.only stOk }
/-- The effect of PIN_BIND. -/
def pinBindEff (hd : Hdr) (len : Nat) (p1 : BitVec 32) (s : State) : Eff :=
  hostCmd { opcode := 0x0307, lenOk := len == 0, needsCtx := true } hd s (pinBindBody hd.ctx.toNat p1)
/-- PIN_BIND (R222). -/
def execPinBind (hd : Hdr) (len : Nat) (p1 : BitVec 32) (s : State) : Res :=
  unlessCut (.pinBind hd len p1) s (done s (pinBindEff hd len p1 s))

/-- CLEAR empties a slot. -/
def pinClearBody (p1 : BitVec 32) (_ : State) (h : Hw) : Did :=
  if 7 < p1.toNat then Did.fail h stParam
  else { hw := { h with plu := { h.plu with pins := h.plu.pins.drop p1.toNat } }, rep := Rep.only stOk }
/-- The effect of PIN_CLEAR. -/
def pinClearEff (hd : Hdr) (len : Nat) (p1 : BitVec 32) (s : State) : Eff :=
  hostCmd { opcode := 0x0307, lenOk := len == 0 } hd s (pinClearBody p1)
/-- PIN_CLEAR (R222). -/
def execPinClear (hd : Hdr) (len : Nat) (p1 : BitVec 32) (s : State) : Res :=
  unlessCut (.pinClear hd len p1) s (done s (pinClearEff hd len p1 s))

end Sys2Proof.Machine
end

