-- ==== Sys2Proof/Machine/Firm.lean ====
section
/-!
DEFINITION. Firmware update (20_firmware_update.md): staging a delta, the trade-wind relay, activation, the trial, and the
microcode of the cores.
-/
namespace Sys2Proof.Machine

/-! ## Staging (R459) -/

/-- Staging states. -/
def stgEmpty : Nat := 0
def stgReceiving : Nat := 1
def stgComplete : Nat := 2
def stgApplying : Nat := 3

def Hw.staging (h : Hw) : Nat := h.fld Fd.HUB_FW_STATUS.STAGING
def Hw.setStaging (h : Hw) (st : Nat) : Hw := h.setFld Fd.HUB_FW_STATUS.STAGING st

/-- Bytes of a chunk (R460). -/
def chunkBytes : Nat := 4076

/-- Stop forwarding (R461): the chunks outstanding give their tags back. -/
def Hw.stopForward (h : Hw) : Hw :=
  let h := h.fw.chunks.foldl (fun h c => h.freeXtag c.tag) h
  { h.setFlag Fd.HUB_RELAY_STATUS.FORWARDING false with fw := { h.fw with chunks := [] } }

/-- Begin staging a delta: what was staged is discarded. -/
def Hw.beginDelta (h : Hw) (id len : Nat) (inbound : Bool) : Hw :=
  let h := h.stopForward.setFld Fd.HUB_RELAY_STATUS.ACKED 0
  ({ h with fw := { h.fw with deltaId := id, deltaLen := len, parts := [], inbound := inbound, acked := [] } } : Hw).setStaging
    stgReceiving

/-- Write a part into staging; the delta is complete once parts cover every byte. -/
def Hw.stagePart (h : Hw) (off : Nat) (data : List Byte) : Hw :=
  let parts := (off, data) :: h.fw.parts
  let h : Hw := { h with fw := { h.fw with parts := parts } }
  if h.fw.deltaLen ≤ firstGap parts parts.length 0 then h.setStaging stgComplete else h

/-- The roles that may update firmware (R447). -/
def fwRoles : List Role := [.service, .vendor]

/-- FW_DELTA_BEGIN's own effect. -/
def deltaBeginBody (p0 p1 : BitVec 32) (_ : State) (h : Hw) : Did :=
  if p0.toNat < 64 ∨ 67108864 < p0.toNat ∨ p1.toNat = 0 then Did.fail h stParam
  else if h.staging = stgApplying ∨ (h.staging = stgReceiving ∧ h.fw.inbound = true) then Did.fail h stFwState
  else { hw := h.beginDelta p1.toNat p0.toNat false, rep := Rep.only stOk }
/-- The effect of FW_DELTA_BEGIN. -/
def deltaBeginEff (hd : Hdr) (len : Nat) (p0 p1 : BitVec 32) (s : State) : Eff :=
  hostCmd { opcode := 0x0802, lenOk := len == 0, roles := fwRoles } hd s (deltaBeginBody p0 p1)
/-- FW_DELTA_BEGIN (R459). -/
def execFwDeltaBegin (hd : Hdr) (len : Nat) (p0 p1 : BitVec 32) (s : State) : Res :=
  unlessCut (.fwDeltaBegin hd len p0 p1) s (done s (deltaBeginEff hd len p0 p1 s))

/-- FW_DELTA_DATA's own effect; `flashOk` says whether the flash writes. -/
def deltaDataBody (p0 p1 : BitVec 32) (payload : List Byte) (flashOk : Bool) (_ : State) (h : Hw) : Did :=
  if p0.toNat % 4 ≠ 0 then Did.fail h stParam
  else if h.fw.inbound = true ∨ (h.staging ≠ stgReceiving ∧ h.staging ≠ stgComplete) then Did.fail h stFwState
  else if crc32c payload ≠ p1.toNat ∨ h.fw.deltaLen < p0.toNat + payload.length then Did.fail h stParam
  else if flashOk = false then Did.fail h stFlash
  else { hw := h.stagePart p0.toNat payload, rep := Rep.only stOk }
/-- The effect of FW_DELTA_DATA. -/
def deltaDataEff (hd : Hdr) (p0 p1 : BitVec 32) (payload : List Byte) (flashOk : Bool) (s : State) : Eff :=
  hostCmd { opcode := 0x0803, lenOk := decide (payload.length ≤ 8192) } hd s (deltaDataBody p0 p1 payload flashOk)
/-- FW_DELTA_DATA (R459). -/
def execFwDeltaData (hd : Hdr) (p0 p1 : BitVec 32) (payload : List Byte) (flashOk : Bool) (s : State) : Res :=
  unlessCut (.fwDeltaData hd p0 p1 payload flashOk) s (done s (deltaDataEff hd p0 p1 payload flashOk s))

/-- Seconds left in a trial, rounded up (R459). -/
def Hw.trialLeft (h : Hw) : Nat :=
  match h.fw.trial with
  | some t => (t.start + 600000000000 - h.tb + 999999999) / 1000000000
  | none => 0

/-- The effect of FW_STATUS. -/
def fwStatusEff (hd : Hdr) (len : Nat) (s : State) : Eff :=
  hostCmd { opcode := 0x0806, reads := true, lenOk := len == 0 } hd s (fun _ h =>
    { hw := h, rep := { status := stOk,
                        p := [(h.reg Reg.HUB_FW_STATUS).toNat, (h.reg Reg.HUB_RELAY_STATUS).toNat,
                              (h.slotHead h.running).generation, h.trialLeft] } })
/-- FW_STATUS (R459). -/
def execFwStatus (hd : Hdr) (len : Nat) (s : State) : Res := unlessCut (.fwStatus hd len) s (done s (fwStatusEff hd len s))

/-! ## The relay (R460, R461) -/

/-- The delta as staged. -/
def Hw.delta (h : Hw) : List Byte := assemble h.fw.parts h.fw.deltaLen

/-- Whether staging holds every byte of the chunk at an offset. -/
def Hw.chunkHere (h : Hw) (off : Nat) : Bool :=
  decide (min (off + chunkBytes) h.fw.deltaLen ≤ firstGap h.fw.parts h.fw.parts.length off)

/-- The payload of a RELAY for the chunk at an offset. -/
def Hw.relayPayload (h : Hw) (off : Nat) : List Byte :=
  let data := (h.delta.drop off).take chunkBytes
  beBytes 4 h.fw.deltaId ++ beBytes 4 h.fw.deltaLen ++ beBytes 4 off ++ beBytes 4 (crc32c data) ++ [1, 0, 0, 0] ++ data

/-- Send the RELAY of a chunk under a tag. -/
def Hw.sendChunk (h : Hw) (off tag : Nat) : Hw :=
  h.inject h.holderHub { h.packet (h.fld Fd.HUB_RELAY_CFG.NEXT_FID) 2 0x20 0 (h.relayPayload off) with xtag := tag }

/-- Send the next chunk that is staged, not acknowledged and not outstanding: at most 64 are outstanding, each with a tag (R266). -/
def Hw.pumpOne (h : Hw) : Hw :=
  if h.flag Fd.HUB_RELAY_STATUS.FORWARDING = false ∨ 64 ≤ h.fw.chunks.length then h
  else
    let n := ceilDiv h.fw.deltaLen chunkBytes
    match ((List.range n).map (· * chunkBytes)).find? (fun o =>
        !h.fw.acked.contains o && !h.fw.chunks.any (fun c => c.off == o) && h.chunkHere o) with
    | none => h
    | some o =>
      match h.takeXtag (h.tb + 9000000) with
      | none => h
      | some (t, h) => ({ h with fw := { h.fw with chunks := h.fw.chunks ++ [(⟨o, t, h.tb, 0⟩ : Chunk)] } } : Hw).sendChunk o t

/-- Send every chunk that may go. -/
def Hw.pump (h : Hw) : Hw := (List.range 64).foldl (fun h _ => h.pumpOne) h

/-- SET_RELAY_CHAIN's own effect: the chain is saved. -/
def relayChainBody (p1 p2 : BitVec 32) (_ : State) (h : Hw) : Did :=
  if 2 ^ 16 ≤ p1.toNat ∨ 2 ^ 16 ≤ p2.toNat then Did.fail h stParam
  else
    let h := (h.setFld Fd.HUB_RELAY_CFG.PREV_FID p1.toNat).setFld Fd.HUB_RELAY_CFG.NEXT_FID p2.toNat
    { hw := { h with nv := h.nv.put Reg.HUB_RELAY_CFG (h.reg Reg.HUB_RELAY_CFG) }, rep := Rep.only stOk }
/-- The effect of SET_RELAY_CHAIN. -/
def relayChainEff (hd : Hdr) (len : Nat) (p1 p2 : BitVec 32) (s : State) : Eff :=
  hostCmd { opcode := 0x0804, lenOk := len == 0, roles := fwRoles } hd s (relayChainBody p1 p2)
/-- SET_RELAY_CHAIN (R461). -/
def execSetRelayChain (hd : Hdr) (len : Nat) (p1 p2 : BitVec 32) (s : State) : Res :=
  unlessCut (.setRelayChain hd len p1 p2) s (done s (relayChainEff hd len p1 p2 s))

/-- START_FORWARDING's own effect. -/
def startForwardBody (_ : State) (h : Hw) : Did :=
  if h.staging = stgEmpty ∨ h.fld Fd.HUB_RELAY_CFG.NEXT_FID = 0xFFFF then Did.fail h stFwState
  else
    let h := (h.stopForward.setFlag Fd.HUB_RELAY_STATUS.FORWARDING true).setFld Fd.HUB_RELAY_STATUS.ACKED 0
    { hw := ({ h with fw := { h.fw with acked := [] } } : Hw).pump, rep := Rep.only stOk }
/-- The effect of START_FORWARDING. -/
def startForwardEff (hd : Hdr) (len : Nat) (s : State) : Eff :=
  hostCmd { opcode := 0x0804, lenOk := len == 0, roles := fwRoles } hd s startForwardBody
/-- START_FORWARDING (R461). -/
def execStartForwarding (hd : Hdr) (len : Nat) (s : State) : Res :=
  unlessCut (.startForwarding hd len) s (done s (startForwardEff hd len s))

/-- The effect of STOP_FORWARDING. -/
def stopForwardEff (hd : Hdr) (len : Nat) (s : State) : Eff :=
  hostCmd { opcode := 0x0804, lenOk := len == 0, roles := fwRoles } hd s (fun _ h =>
    { hw := h.stopForward, rep := Rep.only stOk })
/-- STOP_FORWARDING (R461). -/
def execStopForwarding (hd : Hdr) (len : Nat) (s : State) : Res :=
  unlessCut (.stopForwarding hd len) s (done s (stopForwardEff hd len s))

/-- What a receiver answers to a RELAY of a delta, whose CRC holds, and staging after it (R461). -/
def Hw.relayIn (h : Hw) (id total off : Nat) (data : List Byte) : Nat × Hw :=
  let st := h.staging
  let fromHost := st == stgReceiving && !h.fw.inbound
  if st = stgApplying ∨ fromHost = true then (2, h)
  else if h.fw.deltaId = id ∧ st ≠ stgEmpty then (0, h.stagePart off data)
  else if st = stgReceiving then (2, h)
  else (0, (h.beginDelta id total true).stagePart off data)

/-- Start or go on forwarding after a RELAY with FORWARD (R461). -/
def Hw.relayOn (h : Hw) (forward : Bool) : Hw :=
  if forward && h.fld Fd.HUB_RELAY_CFG.NEXT_FID != 0xFFFF then (h.setFlag Fd.HUB_RELAY_STATUS.FORWARDING true).pump else h

/-- The effect of a delivered RELAY: it is written, answered and possibly forwarded. -/
def relayReceiveHw (h : Hw) : Hw :=
  h.onDelivered (fun p => p.ptype == 0x20) (fun d h =>
    let pl := d.p.payload
    let g := fun a k => beNat ((pl.drop a).take k)
    let data := pl.drop 20
    let (st, h) :=
      if d.p.src ≠ h.fld Fd.HUB_RELAY_CFG.PREV_FID then (3, h)
      else if crc32c data ≠ g 12 4 then (1, h)
      else h.relayIn (g 0 4) (g 4 4) (g 8 4) data
    let ack := { h.packet d.p.src 2 0x21 0 (beBytes 4 (g 0 4) ++ beBytes 4 (g 8 4) ++ beBytes 1 st ++ [0, 0, 0]) with
                 xtag := d.p.xtag }
    let h := h.inject h.holderHub ack
    if st = 0 then h.relayOn (bitAt (g 16 1) 0) else h)
/-- RELAY_RECEIVE (R461). -/
def execRelayReceive (s : State) : Res := keep s (relayReceiveHw s.hw)

/-- Resend a chunk, or give up after 8 resends (R461). -/
def Hw.resendChunk (h : Hw) (c : Chunk) : Hw :=
  if 8 ≤ c.resends then (h.stopForward.setFlag Fd.HUB_RELAY_STATUS.FAILED true).logNote logState 0x0461 c.off 0
  else
    ({ h with fw := { h.fw with chunks := h.fw.chunks.map (fun x =>
        if x.off == c.off then { x with sentTb := h.tb, resends := x.resends + 1 } else x) } } : Hw).sendChunk c.off c.tag

/-- The highest contiguous offset that NEXT_FID has acknowledged. -/
def ackedUpTo (acked : List Nat) (total : Nat) : Nat :=
  let n := ceilDiv total chunkBytes
  match (List.range n).find? (fun i => !acked.contains (i * chunkBytes)) with
  | some i => i * chunkBytes
  | none => total

/-- A chunk is acknowledged: its tag is free, and the next ones may go. Forwarding is over when the whole delta is. -/
def Hw.chunkOk (h : Hw) (c : Chunk) : Hw :=
  let h := h.freeXtag c.tag
  let acked := insNat h.fw.acked c.off
  let n := ackedUpTo acked h.fw.deltaLen
  let h : Hw := { h with fw := { h.fw with chunks := h.fw.chunks.erase c, acked := acked } }
  let h := h.setFld Fd.HUB_RELAY_STATUS.ACKED n
  if n = h.fw.deltaLen then h.setFlag Fd.HUB_RELAY_STATUS.FORWARDING false else h.pump

/-- The effect of a delivered RELAY_ACK. -/
def relayAckHw (h : Hw) : Hw :=
  h.onDelivered (fun p => p.ptype == 0x21) (fun d h =>
    let g := fun a k => beNat ((d.p.payload.drop a).take k)
    match h.fw.chunks.find? (fun c => c.off == g 4 4 && g 0 4 == h.fw.deltaId) with
    | none => h
    | some c => if g 8 1 = 0 then h.chunkOk c else if g 8 1 = 3 then h else h.resendChunk c)
/-- RELAY_ACK_RECEIVE (R461). -/
def execRelayAckReceive (s : State) : Res := keep s (relayAckHw s.hw)

/-- A chunk without an OK for 1 ms is resent. -/
def relayResendHw (h : Hw) : Hw :=
  match h.fw.chunks.find? (fun c => decide (c.sentTb + 1000000 ≤ h.tb)) with
  | some c => h.resendChunk c
  | none => h
/-- RELAY_RESEND (R461). -/
def execRelayResend (s : State) : Res := keep s (relayResendHw s.hw)

/-! ## Activation (R462–R465) -/

/-- FW_ACTIVATE's own effect: the slot that is not CONFIRMED will be written. -/
def fwActivateBody (p0 : BitVec 32) (_ : State) (h : Hw) : Did :=
  if h.staging ≠ stgComplete ∨ h.fw.deltaId ≠ p0.toNat ∨ h.fw.trial.isSome = true then Did.fail h stFwState
  else if h.cpx.hand.isSome then Did.fail h stState
  else if h.cx h.otherHub ≠ cxLull ∨ h.mirrorOk = false then Did.fail h stStandby
  else
    let slot := if h.slotState 0 = slotConfirmed then 1 else 0
    { hw := (h.setStaging stgApplying).setSlot slot slotWriting, rep := Rep.only stAccepted }
/-- The effect of FW_ACTIVATE. -/
def fwActivateEff (hd : Hdr) (len : Nat) (p0 : BitVec 32) (s : State) : Eff :=
  hostCmd { opcode := 0x0805, lenOk := len == 0, roles := fwRoles } hd s (fwActivateBody p0)
/-- FW_ACTIVATE (R462). -/
def execFwActivate (hd : Hdr) (len : Nat) (p0 : BitVec 32) (s : State) : Res :=
  unlessCut (.fwActivate hd len p0) s (done s (fwActivateEff hd len p0 s))

/-- Complete the FW_ACTIVATE that is outstanding. -/
def Hw.activateDone (h : Hw) (status : Nat) (p : List Nat) : Hw := h.finishAll (fun c => c.opcode == 0x0805) status p []

/-- Reject a slot for a reason (R462, R465). -/
def Hw.rejectSlot (h : Hw) (slot reason : Nat) : Hw :=
  ((h.setSlot slot slotRejected).setFld Fd.HUB_FW_STATUS.REASON reason).logNote logState 0x0462 slot reason

/-- The outcome of step 2 of *Activation sequence*: the bundle, or why it is rejected. `flashOk` says whether the flash reads and
writes, `scanFits` whether the scan-pattern sets fit beside the running ones (R464). -/
def Hw.reconstruct (h : Hw) (f : Fuses) (flashOk scanFits : Bool) : Except Nat (List Byte) :=
  if flashOk = false then .error fwFlash
  else
    match applyDelta (h.slotBytes ((h.slotIn slotConfirmed).getD 0)) h.delta with
    | .error r => .error r
    | .ok bytes =>
      let r := h.bundleReason f bytes
      if r ≠ 0 then .error r else if scanFits = false then .error fwFormat else .ok bytes

/-- The bundle is reconstructed and verified: steps 2–4 of *Activation sequence*. -/
def reconstructedHw (flashOk scanFits : Bool) (f : Fuses) (h : Hw) : Hw :=
  match (if h.staging = stgApplying then h.slotIn slotWriting else none) with
  | none => h
  | some slot =>
    match h.reconstruct f flashOk scanFits with
    | .error r =>
      let h : Hw := { h with fw := { h.fw with slots := h.fw.slots.put slot [] } }
      ((h.rejectSlot slot r).setStaging stgComplete).activateDone stImgSig [r]
    | .ok bytes =>
      let h : Hw := { h with fw := { h.fw with slots := h.fw.slots.put slot bytes } }
      let h := (h.setStaging stgComplete).setSlot slot slotTrial
      if h.standbyReady then h.startHandover hoFirmware
      else (h.rejectSlot slot fwStandby).activateDone stStandby [fwStandby]
/-- BUNDLE_RECONSTRUCTED (R462). -/
def execBundleReconstructed (flashOk scanFits : Bool) (s : State) : Res :=
  keep s (reconstructedHw flashOk scanFits s.fuses s.hw)

/-- Step 5 of *Activation sequence*: the new holder runs the TRIAL slot's bundle. -/
def Hw.startTrial (h : Hw) (former : Nat) : Hw :=
  let h := (h.setFlag Fd.HUB_FW_STATUS.TRIAL true).setFld Fd.HUB_FW_STATUS.RUNNING ((h.slotIn slotTrial).getD 0)
  { h with fw := { h.fw with trial := some { start := h.tb, former := former } } }

/-- The microcode of a core. -/
def Hw.ucode (h : Hw) (k : Nat) : UCode := h.fw.ucode.getD k {}

/-- Change it. -/
def Hw.setUcode (h : Hw) (k : Nat) (u : UCode) : Hw := { h with fw := { h.fw with ucode := h.fw.ucode.put k u } }

/-- Rewrite UCODE_STALE. -/
def Hw.countStale (h : Hw) : Hw :=
  h.setFld Fd.HUB_FW_STATUS.UCODE_STALE (h.fw.ucode.filter (fun (_, u) => u.stale)).length

/-- The version in the bank that is not active. -/
def UCode.other (u : UCode) : Nat := if u.active = 0 then u.ver1 else u.ver0

/-- Return a core to another version that its inactive bank holds (R465, R466): it switches when no context is resident on it. -/
def UCode.back (u : UCode) (v : Nat) : UCode :=
  { u with writing := false, missing := [], stale := false, ready := decide (u.version ≠ v ∧ u.other = v) }

/-- The end of a trial in fall-back (R465), as the complex that runs the old bundle does it. -/
def Hw.endTrial (h : Hw) (reason : Nat) : Hw :=
  let h := match h.slotIn slotTrial with
    | some slot => h.rejectSlot slot reason
    | none => h
  let h := (h.setFlag Fd.HUB_FW_STATUS.TRIAL false).setFld Fd.HUB_FW_STATUS.RUNNING ((h.slotIn slotConfirmed).getD 0)
  let v := (h.slotHead h.running).ucode
  let h : Hw := { h with fw := { h.fw with trial := none, ucode := h.fw.ucode.map (fun (k, u) => (k, u.back v)) } }
  h.countStale.activateDone stStageFailed [reason]

/-- Whether a die's core runs the trial's microcode (R464). -/
def Hw.dieRuns (h : Hw) (d : Nat) : Bool :=
  (List.range 72).any (fun j => h.coreGood (72 * d + j) && (h.ucode (72 * d + j)).version == (h.slotHead h.running).ucode)

/-- The conditions of confirmation hold; the known-answer runs and the DMPs' answers are this event's own (R464). -/
def confirmHw (h : Hw) : Hw :=
  match h.fw.trial with
  | none => h
  | some t =>
    if t.served = true ∧ t.lost = false ∧ h.plu.diesUp.all (fun d => t.dmps.contains d && h.dieRuns d) = true then
      let new := h.running
      let h := ((h.setSlot (1 - new) slotPrevious).setSlot new slotConfirmed).setFlag Fd.HUB_FW_STATUS.TRIAL false
      let h : Hw := { h with fw := { h.fw with trial := none } }
      ((h.logNote logState 0x0464 new 0).setCx t.former cxSelfTest).activateDone stOk []
    else h
/-- CONFIRMATION (R464). -/
def execConfirmation (s : State) : Res := keep s (confirmHw s.hw)

/-- A trial ends in fall-back: 0 its timer reached 600 s, 1 a die does not answer, 2 a known-answer run fails. The former holder
takes authority once it has replayed the journal. -/
def fallBackEff (why : Fin 3) (m : Mem) (h : Hw) : Hw × List Edit :=
  match h.fw.trial with
  | none => (h, [])
  | some t =>
    if t.lost = true ∨ (why = 0 ∧ h.tb < t.start + 600000000000) then (h, [])
    else
      let hub := t.former
      let h := (h.setFlag Fd.CPX_AUTH.HELD false).reboot h.holderHub
      let (h, es) := (h.grant hub hoFallBack).takeOver m
      (((h.finishAll (fun c => c.opcode == 0x0901) stOk [] []).endTrial (fwTimeout + why.val)).handoverEvent hub hoFallBack, es)
/-- The effect of TRIAL_FALL_BACK. -/
def trialFallBackEff (why : Fin 3) (s : State) : Eff := let (h, es) := fallBackEff why s.mem s.hw; { hw := h, edits := es }
/-- TRIAL_FALL_BACK (R465). -/
def execTrialFallBack (why : Fin 3) (s : State) : Res := done s (trialFallBackEff why s)

/-! ## Microcode (R466, R467) -/

/-- One round for one core: the blocks it still misses (R466). A core whose update stays incomplete after three rounds of
resending keeps its old microcode. -/
def UCode.round (u : UCode) (v : Nat) (miss : List Nat) : UCode :=
  if u.version = v ∨ u.ready = true ∨ u.stale = true then u
  else
    let n := if u.writing then u.rounds + 1 else 0
    if miss.isEmpty then
      { u with ver0 := if u.active = 0 then u.ver0 else v, ver1 := if u.active = 0 then v else u.ver1,
               missing := [], writing := false, rounds := n, ready := true }
    else if 3 ≤ n then { u with missing := miss, writing := false, rounds := n, stale := true }
    else { u with missing := miss, writing := true, rounds := n }

/-- The DMP of a die has restarted with the trial's firmware and broadcasts the new microcode, or resends what is missing: `miss`
lists the blocks that each core has not received intact. -/
def broadcastHw (die : Fin 8) (miss : List (Fin 72 × List Nat)) (h : Hw) : Hw :=
  match h.fw.trial with
  | none => h
  | some t =>
    if h.plu.diesUp.contains die.val = false ∨ t.lost = true then h
    else
      let v := (h.slotHead h.running).ucode
      let h := (List.range 72).foldl (fun h j =>
        let k := 72 * die.val + j
        h.setUcode k ((h.ucode k).round v (((miss.find? (fun e => e.1.val == j)).map Prod.snd).getD []))) h
      ({ h with fw := { h.fw with trial := some { t with dmps := insNat t.dmps die.val } } } : Hw).countStale
/-- MICROCODE_BROADCAST (R466). -/
def execMicrocodeBroadcast (die : Fin 8) (miss : List (Fin 72 × List Nat)) (s : State) : Res :=
  keep s (broadcastHw die miss s.hw)

/-- A core whose new microcode is complete switches banks when no context is resident on it. -/
def bankSwitchHw (core : Fin 576) (h : Hw) : Hw :=
  let u := h.ucode core.val
  if u.ready = true ∧ h.occupied (punitCore core.val) = false then
    h.setUcode core.val { u with active := 1 - u.active, ready := false }
  else h
/-- MICROCODE_BANK_SWITCH (R466). -/
def execMicrocodeBankSwitch (core : Fin 576) (s : State) : Res := keep s (bankSwitchHw core s.hw)

/-- The contexts resident on a core, with the logical core. -/
def Hw.coreCtx (h : Hw) (k : Nat) : Option (Nat × Nat × Nat) :=
  h.ctxs.findSome? (fun (c, x) =>
    (x.img.cores.find? (fun p => x.core? p.1 p.2 == some k)).map (fun p => (c, p.1, p.2)))

/-- Load the running bundle's microcode into a core's inactive bank and switch to it (R466, R467). -/
def Hw.reloadUcode (h : Hw) (k : Nat) : Hw :=
  let u := h.ucode k
  let v := (h.slotHead h.running).ucode
  (h.setUcode k { active := 1 - u.active, ver0 := if u.active = 0 then u.ver0 else v,
                  ver1 := if u.active = 0 then v else u.ver1 }).countStale

/-- A core's active bank fails its CRC: its context faults, and the bank reloads from the running bundle. -/
def microcodeHw (core : Fin 576) (code : BitVec 32) (h : Hw) : Hw :=
  let k := core.val
  let u := h.ucode k
  let v := (h.slotHead h.running).ucode
  let h := h.setUcode k (if u.active = 0 then { u with ver0 := v } else { u with ver1 := v })
  match h.coreCtx k with
  | some (c, lc, lk) => h.raise c ⟨dMicrocode, leBytes 4 0 ++ leBytes 4 code.toNat⟩ (punitCore k) (lunitOf lc lk 7) 0
  | none => h
/-- MICROCODE (R466). -/
def execMicrocode (core : Fin 576) (code : BitVec 32) (s : State) : Res := keep s (microcodeHw core code s.hw)

end Sys2Proof.Machine
end

