-- ==== Sys2Proof/Machine/Cpx.lean ====
section
/-!
DEFINITION. The commands and events of the control complexes (14_control_complexes.md).
-/
namespace Sys2Proof.Machine

/-! ## Health (R346, R352, R353) -/

/-- Watchdog near-misses in the last 10 min, and corrected CPX-memory words in the last hour. -/
def Hw.wdNear (h : Hw) (hub : Nat) : Nat :=
  ((Tab.getD h.cpx.wdTb hub []).filter (fun t => decide (h.tb < t + 600000000000))).length
def Hw.ceHour (h : Hw) (hub : Nat) : Nat :=
  ((Tab.getD h.cpx.ceTb hub []).filter (fun t => decide (h.tb < t + 3600000000000))).length

/-- CPX_HEALTH as it reads. -/
def Hw.cpxHealth (h : Hw) (hub : Nat) : Nat :=
  let v := setBitsAt (h.reg (Reg.CPX_HEALTH hub)).toNat 16 8 (min 255 (h.wdNear hub))
  setBitsAt v 0 16 (min 65535 (h.ceHour hub))

/-- CPX_JOURNAL as it reads: where the journal stands is open (R343). -/
def Hw.cpxJournal (h : Hw) : Nat × Hw :=
  let (n, h) := h.takeFree
  (setBitsAt (setBitsAt (h.reg Reg.CPX_JOURNAL).toNat 30 1 n) 0 11 (n / 2 % 1025), h)

/-- The effect of CPX_STATUS. -/
def cpxStatusEff (hd : Hdr) (len : Nat) (s : State) : Eff :=
  hostCmd { opcode := 0x0900, reads := true, lenOk := len == 0 } hd s (fun _ h =>
    let (j, h) := h.cpxJournal
    { hw := h, rep := { status := stOk,
                        p := [h.holderHub, (h.reg Reg.CPX_AUTH).toNat, h.cpxHealth 0, h.cpxHealth 1, j] } })
/-- CPX_STATUS (R352). -/
def execCpxStatus (hd : Hdr) (len : Nat) (s : State) : Res := unlessCut (.cpxStatus hd len) s (done s (cpxStatusEff hd len s))

/-! ## Planned handover (R347, R348) -/

/-- CPX_HANDOVER's own effect. -/
def handoverBody (_ : State) (h : Hw) : Did :=
  if h.cpx.hand.isSome then Did.fail h stState
  else if h.standbyReady = false then Did.fail h stStandby
  else { hw := h, rep := Rep.only stAccepted, next := fun h => (h.startHandover hoHost, []) }
/-- The effect of CPX_HANDOVER. -/
def cpxHandoverEff (hd : Hdr) (len : Nat) (s : State) : Eff :=
  hostCmd { opcode := 0x0901, lenOk := len == 0 } hd s handoverBody
/-- CPX_HANDOVER (R348). -/
def execCpxHandover (hd : Hdr) (len : Nat) (s : State) : Res := unlessCut (.cpxHandover hd len) s (done s (cpxHandoverEff hd len s))

/-- CPX_PREFER's own effect: the choice is saved. -/
def preferBody (p0 : BitVec 32) (_ : State) (h : Hw) : Did :=
  if 3 ≤ p0.toNat then Did.fail h stParam
  else
    { hw := { h.setFld Fd.CPX_AUTH.PREFER p0.toNat with nv := h.nv.put Reg.CPX_AUTH (BitVec.ofNat 32 (p0.toNat * 2 ^ 28)) },
      rep := Rep.only stOk }
/-- The effect of CPX_PREFER. -/
def cpxPreferEff (hd : Hdr) (len : Nat) (p0 : BitVec 32) (s : State) : Eff :=
  hostCmd { opcode := 0x0902, lenOk := len == 0 } hd s (preferBody p0)
/-- CPX_PREFER (R351). -/
def execCpxPrefer (hd : Hdr) (len : Nat) (p0 : BitVec 32) (s : State) : Res :=
  unlessCut (.cpxPrefer hd len p0) s (done s (cpxPreferEff hd len p0 s))

/-- The standby has booted and replayed the journal within its bounds: it enters SHADOW. -/
def bootDoneHw (h : Hw) : Hw :=
  match h.cpx.hand with
  | some x =>
    if x.shadowTb = none ∧ x.cut = false ∧ h.tb ≤ x.startTb + 280000000 then
      { h.setCx h.otherHub cxShadow with cpx := { h.cpx with hand := some { x with shadowTb := some h.tb } } }
    else h
  | none => h
/-- STANDBY_BOOT_DONE (R347). -/
def execStandbyBootDone (s : State) : Res := keep s (bootDoneHw s.hw)

/-- The overlap window of 50 ms is over: the CUT record is made, and the holder releases AUTH. -/
def cutHw (h : Hw) : Hw :=
  match h.cpx.hand with
  | some x =>
    match x.shadowTb with
    | some t =>
      if h.held = true ∧ t + 50000000 ≤ h.tb then
        let k := h.holderHub
        let h := (h.setFlag Fd.CPX_AUTH.HELD false).reboot k
        { h with cpx := { h.cpx with hand := some { x with cut := true }, cause := x.cause } }
      else h
    | none => h
  | none => h
/-- HANDOVER_CUT (R347). -/
def execHandoverCut (s : State) : Res := keep s (cutHw s.hw)

/-- The handover is given up (R348): 0 a bound was missed, 1 the boot self-check failed, 2 the standby fell out of step. -/
def abandonHw (why : Fin 3) (h : Hw) : Hw :=
  match h.cpx.hand with
  | some x =>
    if x.cut = true ∨ (why = 0 ∧ (x.shadowTb.isSome = true ∨ h.tb ≤ x.startTb + 280000000)) then h
    else
      let k := h.otherHub
      let h := h.setCx k cxLullFailed
      let h := if why = 1 then h.setFlag (Fd.CPX_HEALTH.SELFCHECK_FAIL k) true else h
      let h : Hw := { h with cpx := { h.cpx with hand := none } }
      let h := (h.logNote logState 0x0348 k why.val).finishAll (fun c => c.opcode == 0x0901) stStandby [] []
      if x.cause = hoFirmware then
        (match h.slotIn slotTrial with
          | some slot => h.rejectSlot slot fwStandby
          | none => h).activateDone stStandby [fwStandby]
      else h
  | none => h
/-- HANDOVER_ABANDON (R348). -/
def execHandoverAbandon (why : Fin 3) (s : State) : Res := keep s (abandonHw why s.hw)

/-! ## The interlock (R339–R342, R349, R350, R377) -/

/-- The holder's cores have checked in, where `checked` says so, and it renews AUTH; a rebooted holder resumes (R377). -/
def authRenewHw (checked : Bool) (h : Hw) : Hw :=
  if h.held = true ∧ checked = true ∧ h.board.resetPin.isNone = true then
    { h with cpx := { h.cpx with renewTb := h.tb, suspended := none } }
  else h
/-- AUTH_RENEW (R340). -/
def execAuthRenew (checked : Bool) (s : State) : Res := keep s (authRenewHw checked s.hw)

/-- A trial holder has lost AUTH (R465). -/
def Hw.trialLost (h : Hw) : Hw :=
  match h.fw.trial with
  | some t => { h with fw := { h.fw with trial := some { t with lost := true } } }
  | none => h

/-- 20 ms have passed without a renewal. -/
def authTimeoutHw (h : Hw) : Hw :=
  if h.held = true ∧ h.cpx.suspended.isNone = true ∧ h.cpx.renewTb + 20000000 ≤ h.tb then h.trialLost.freeAuth hoTimeout else h
/-- AUTH_TIMEOUT (R340). -/
def execAuthTimeout (s : State) : Res := keep s (authTimeoutHw s.hw)

/-- The rebooted holder has not resumed renewals within 2 s of the reset (R377). -/
def renewalResumeHw (h : Hw) : Hw :=
  match h.cpx.suspended with
  | some t =>
    if h.held = true ∧ h.board.resetPin.isNone = true ∧ t + 2000000000 ≤ h.tb then h.freeAuth hoTimeout else h
  | none => h
/-- RENEWAL_RESUME_TIMEOUT (R377). -/
def execRenewalResumeTimeout (s : State) : Res := keep s (renewalResumeHw s.hw)

/-- Whether a complex may claim: it is awake and has booted (R339, R341). -/
def Hw.canClaim (h : Hw) (hub : Nat) : Bool := h.cx hub == cxBooting || h.cx hub == cxShadow

/-- The complex that wins where both claim in the same instant (R339). -/
def Hw.claimant (h : Hw) (hub : Nat) (both : Bool) : Nat :=
  if both && h.canClaim (1 - hub) then (if h.fld Fd.CPX_AUTH.PREFER = 1 then 1 else 0) else hub

/-- The new holder's completions and events (R347, R349, R462, R465). -/
def Hw.claimed (h : Hw) (hub cause : Nat) : Hw :=
  let h := if cause = hoFirmware ∨ (h.fw.trial.isNone ∧ (h.slotIn slotTrial).isSome) then h.startTrial (1 - hub)
    else if (h.fw.trial.map (fun t => t.lost)).getD false then h.endTrial fwAuthLoss else h
  if cause = 0 then h else (h.finishAll (fun c => c.opcode == 0x0901) stOk [] []).handoverEvent hub cause

/-- A complex claims AUTH while it is free. `both` says that the other claims in the same instant; `readable`, after an abrupt
takeover without a current mirror, whether the failed hub's journal can be read (R349). -/
def authClaimEff (hub : Fin 2) (both readable : Bool) (m : Mem) (h : Hw) : Hw × List Edit :=
  let k := h.claimant hub.val both
  if h.flag Fd.PKG_BOARD_STATUS.AUX_PWROK = false ∨ h.held = true ∨ h.canClaim k = false then (h, [])
  else
    let cause := h.cpx.cause
    let stale := cause == hoTimeout && !h.mirrorOk && !readable
    let (h, es) := (h.grant k cause).takeOver m
    let h := h.claimed k cause
    (if stale then h.endSessions (fun _ => true) else h, es)
/-- The effect of AUTH_CLAIM. -/
def claimEff (hub : Fin 2) (both readable : Bool) (s : State) : Eff :=
  let (h, es) := authClaimEff hub both readable s.mem s.hw
  { hw := h, edits := es }
/-- The first complex has not claimed AUTH within 2 s of VAUX: the other boots to claim it (R341). -/
def bootClaimHw (h : Hw) : Hw :=
  let first := if h.fld Fd.CPX_AUTH.PREFER = 1 then 1 else 0
  let other := 1 - first
  if h.flag Fd.PKG_BOARD_STATUS.AUX_PWROK = true ∧ h.held = false ∧ h.cpx.cause = 0 ∧ h.cpx.auxTb + 2000000000 ≤ h.tb ∧
      (h.cx other = cxLull ∨ h.cx other = cxSelfTest) then h.setCx other cxBooting
  else h
/-- BOOT_CLAIM_TIMEOUT (R341). -/
def execBootClaimTimeout (s : State) : Res := keep s (bootClaimHw s.hw)

/-- A complex ends its self-test: it enters LULL or LULL_FAILED; where AUTH is free and no complex is about to claim it, the
interlock wakes it. -/
def selfTestEndHw (hub : Fin 2) (pass : Bool) (h : Hw) : Hw :=
  if h.cx hub.val = cxSelfTest then
    let h := h.setCx hub.val (if pass then cxLull else cxLullFailed)
    if h.held = false ∧ h.cpx.cause ≠ 0 ∧ h.canClaim (1 - hub.val) = false then h.wake hub.val else h
  else h
/-- COMPLEX_SELF_TEST_END (R341). -/
def execComplexSelfTestEnd (hub : Fin 2) (pass : Bool) (s : State) : Res := keep s (selfTestEndHw hub pass s.hw)

/-! ## Self-diagnosis (R346) -/

/-- A condition of *Degradation triggers* holds. -/
def Hw.degrade (h : Hw) (what : Nat) : Hw :=
  let h := h.setFlag (Fd.CPX_HEALTH.DEGRADED h.holderHub) true
  if h.standbyReady then h.startHandover hoSelf else h.logRaised 0x0346 h.holderHub what

/-- A core's watchdog is serviced with less than 1 ms left, or `n` corrected words are found in the holder's CPX memories: at the
threshold the complex is degraded. -/
def degradationHw (words : Option (BitVec 16)) (h : Hw) : Hw :=
  let k := h.holderHub
  if h.held = false then h
  else
    match words with
    | none =>
      let h : Hw := { h with cpx := { h.cpx with wdTb := h.cpx.wdTb.upd k [] (fun l => (h.tb :: l).take 255) } }
      if 3 ≤ h.wdNear k then h.degrade 0 else h
    | some n =>
      let h : Hw := { h with cpx := { h.cpx with
        ceTb := h.cpx.ceTb.upd k [] (fun l => (List.replicate n.toNat h.tb ++ l).take 65535) } }
      if 64 ≤ h.ceHour k then h.degrade 1 else h
/-- DEGRADATION_TRIGGER (R346). -/
def execDegradationTrigger (words : Option (BitVec 16)) (s : State) : Res := keep s (degradationHw words s.hw)

/-- The 60 s self-check of the holder's cores. -/
def selfCheckHw (pass : Bool) (h : Hw) : Hw :=
  if h.held then
    let h := h.setFlag (Fd.CPX_HEALTH.SELFCHECK_FAIL h.holderHub) (!pass)
    if pass then h else h.degrade 2
  else h
/-- SELF_CHECK (R346). -/
def execSelfCheck (pass : Bool) (s : State) : Res := keep s (selfCheckHw pass s.hw)

/-! ## The journal's mirror and the preferred complex (R345, R351) -/

/-- A write of the journal's mirror fails. -/
def mirrorFailHw (h : Hw) : Hw :=
  if h.held then (h.setFlag Fd.CPX_JOURNAL.MIRROR_OK false).logNote logState 0x0345 h.holderHub 0 else h
/-- MIRROR_WRITE_FAIL (R345). -/
def execMirrorWriteFail (s : State) : Res := keep s (mirrorFailHw s.hw)

/-- The inter-hub link has recovered, and the active bank has been copied. -/
def mirrorBackHw (h : Hw) : Hw := if h.held then h.setFlag Fd.CPX_JOURNAL.MIRROR_OK true else h
/-- MIRROR_RECOVERY (R345). -/
def execMirrorRecovery (s : State) : Res := keep s (mirrorBackHw s.hw)

/-- The preferred complex in LULL asks for authority (R351). -/
def revertHw (h : Hw) : Hw :=
  let p := h.fld Fd.CPX_AUTH.PREFER
  if p < 2 ∧ h.held = true ∧ h.holderHub ≠ p ∧ h.cx p = cxLull ∧
      ((h.cpx.lostTb.find? p).all (fun t => decide (t + 600000000000 ≤ h.tb))) = true then
    let day := h.cpx.reverts.filter (fun t => decide (h.tb < t + 86400000000000))
    if 3 ≤ day.length then h.logNote logState 0x0351 p 0
    else if h.standbyReady then
      { h.startHandover hoRevert with cpx := { (h.startHandover hoRevert).cpx with reverts := h.tb :: day } }
    else h
  else h
/-- REVERT_REQUEST (R351). -/
def execRevertRequest (s : State) : Res := keep s (revertHw s.hw)

end Sys2Proof.Machine
end

