-- ==== Sys2Proof/Machine/Reset.lean ====
section
/-!
DEFINITION. Power-down, package reset and the work of S0 (R354, R361, R362, R372, R377, R406, R456, R472, R473): operations that
bring-up, power and the board interface share.
-/
namespace Sys2Proof.Machine

/-! ## Stages (R354, R356) -/

/-- Stage states and reasons (HUB_BRINGUP_STATUS). -/
def bsRunning : Nat := 1
def bsPass : Nat := 2
def bsDegraded : Nat := 3
def bsFail : Nat := 4
def brTimeout : Nat := 1
def brHeld : Nat := 2
def brLost : Nat := 3
def brNoDie : Nat := 4
def brNoStack : Nat := 5
def brFlash : Nat := 6
def brNoCompute : Nat := 7

def Hw.stage (h : Hw) : Nat := h.fld Fd.HUB_BRINGUP_STATUS.STAGE
def Hw.stageState (h : Hw) : Nat := h.fld Fd.HUB_BRINGUP_STATUS.STATE

/-- Set STAGE, STATE and REASON; the change is logged (R434). -/
def Hw.setStage (h : Hw) (n st reason : Nat) : Hw :=
  (((h.setFld Fd.HUB_BRINGUP_STATUS.STAGE n).setFld Fd.HUB_BRINGUP_STATUS.STATE st).setFld Fd.HUB_BRINGUP_STATUS.REASON
    reason).logNote logState 0x0354 n (st + 256 * reason)

/-- When the time of the running stage counts from: in S1 and S3 the board's ramp is left out (R355). -/
def Hw.stageMs (h : Hw) : Nat :=
  if h.stage = 1 ∨ h.stage = 3 then
    match h.bring.okTb with
    | some t => (h.tb - t) / 1000000
    | none => 0
  else (h.tb - h.bring.startTb) / 1000000

/-- The running stage ends (R354, R356): its completion, where BRINGUP_STEP started it, is sent. -/
def Hw.endStage (h : Hw) (st reason : Nat) : Hw :=
  let n := h.stage
  let h := (h.setFld Fd.HUB_STAGE_TIME.ELAPSED_MS (min (2 ^ 32 - 1) h.stageMs)).setStage n st reason
  if st = bsFail then h.finishAll (fun c => c.opcode == 0x0200) 0x0504 [reason] []
  else h.finishAll (fun c => c.opcode == 0x0200) stOk [st, reason] []

/-! ## Power-down (R361, R406, R472) -/

/-- Every memory of the dies and stacks loses its contents. -/
def allLost : Edit := .clear 0 (2 ^ 48)

/-- Whether a register sits in a die, cluster, core or HBM controller. -/
def dieReg (a : Nat) : Bool := decide (0x10000000 ≤ a) && (decide (a < 0x20000000) || decide (0x30000000 ≤ a))

/-- Whether a register keeps what the sensor rules found until a package reset (R411). -/
def sensorReg (a : Nat) : Bool :=
  (List.range 8).any (fun d => a == Reg.THM_SENSOR_STATE d || a == Reg.THM_SENSOR_FAIL d)

/-- What is kept of the stacks without power: the pages that are retired, which the fault history records (R124). -/
def Hw.hbmKept (h : Hw) : Tab HbmSt := h.hbm.map (fun (s, x) => (s, { retired := x.retired }))

/-- The power-down sequence: both enables drop, and the dies and stacks lose their power and their state. Domain resets in
progress end. -/
def Hw.powerDown (h : Hw) : Hw :=
  let h := (h.setFlag Fd.PKG_BOARD_STATUS.MAIN_EN false).setFlag Fd.PKG_BOARD_STATUS.HBM_EN false
  let h := h.finishAll (fun c => c.opcode == 0x0202) stReset [] []
  let h := h.setFlag Fd.HUB_RESET_STATUS.BUSY false
  let h : Hw := { h with
    regs := h.regs.filter (fun q => !dieReg q.1 || sensorReg q.1), cores := [], clus := [], hbm := h.hbmKept,
    xcl := [], doms := [], ccl := { h.ccl with rings := [], count := [], prev := h.ccl.prev.filter (fun q => !dieReg q.1) }, plu := { h.plu with diesUp := [] }, fw := { h.fw with ucode := [] },
    pwr := { h.pwr with prog := [], preset := [], loopLim := [], hbmLim := [], hw95 := [], fast := [] },
    thm := { h.thm with newest := [], risingTb := [], calmTb := [], dieTemp := [], foehnPace := [], turns := [] } }
  let h := h.resources
  { h with plu := { h.plu with known := false } }

/-- Main power is lost or held: every resident context faults, a running stage ends with FAIL, and bring-up returns to the end of
S0 (R361, R406, R410). -/
def Hw.mainOff (h : Hw) (cond : Cond) (reason : Nat) : Hw × List Edit :=
  let h := h.faultAll cond
  let h := if h.stageState = bsRunning ∧ h.stage ≠ 0 then h.endStage bsFail reason else h
  let h := h.powerDown
  let h := if h.stage = 0 then h else h.setStage 0 bsPass 0
  ((h.setFlag Fd.HUB_BRINGUP_STATUS.READY false).setFlag Fd.HUB_BRINGUP_STATUS.COMPUTE false, [allLost])

/-- Whether any authority holds main power OFF, or THERMTRIP_N is asserted (R363, R406, R410). -/
def Hw.powerHeld (h : Hw) : Bool :=
  h.flag Fd.PWR_STATUS.OFF_HOST || h.flag Fd.PWR_STATUS.OFF_BOARD || h.flag Fd.THM_STATUS.TRIP

/-! ## S0 (R341, R362, R444, R445, R456) -/

/-- Slots found in WRITING or TRIAL are rejected, and the CONFIRMED slot boots once it verifies, else a PREVIOUS one (R456):
the answer says whether any does. -/
def Hw.bootSlot (h : Hw) (f : Fuses) : Hw × Bool :=
  let h := [0, 1].foldl (fun (h : Hw) n =>
    if h.slotState n = slotWriting ∨ h.slotState n = slotTrial then h.setSlot n slotRejected else h) h
  let good := fun (st : Nat) => [0, 1].find? (fun n => h.slotState n == st && h.slotVerifies f n)
  match good slotConfirmed, good slotPrevious with
  | some n, _ => (h.setFld Fd.HUB_FW_STATUS.RUNNING n, true)
  | none, some n =>
    let h := (h.setSlot (1 - n) slotRejected).setFld Fd.HUB_FW_STATUS.RUNNING n
    (h.logSev 5 0 logState (Config.noteData logState 0x0456 n 0), true)
  | none, none => (h, false)

/-- Load one saved register (R362): fields that share a register with others are set alone. The Foehn setting is applied at S10. -/
def Hw.nvLoad1 (h : Hw) (a : Nat) (v : W32) : Hw :=
  if a = Reg.CPX_AUTH then h.setFld Fd.CPX_AUTH.PREFER (v.toNat / 2 ^ 28)
  else if a = Reg.HUB_FW_STATUS then
    (h.setFld Fd.HUB_FW_STATUS.SLOT_A (v.toNat / 2 ^ 29)).setFld Fd.HUB_FW_STATUS.SLOT_B (v.toNat / 2 ^ 26)
  else if a = Reg.PWR_CAP then
    let w := v.toNat / 2 ^ 16
    (h.setFld Fd.PWR_CAP.HOST_CAP_W w).setFld Fd.PWR_CAP.EFF_CAP_W
      (min w (min (h.fld Fd.PWR_BOARD.BOARD_CAP_W) (h.fld Fd.PWR_BOARD.INTERNAL_W)))
  else if a = Reg.THM_FOEHN then h
  else h.setReg a v

/-- Load the NV store (R362, R455): slot A holds the installed bundle where the store has no record of the slots. -/
def Hw.nvLoad (h : Hw) : Hw :=
  let h := h.setFld Fd.HUB_FW_STATUS.SLOT_A slotConfirmed
  let h := h.nv.foldl (fun h q => h.nvLoad1 q.1 q.2) h
  h.setFld Fd.PKG_FH_STATUS.ENTRIES h.hist.ents.length

/-- What the SEPs do at S0: the NV store is loaded, a slot boots, its SEP firmware is measured, and the keys are checked. -/
def Hw.s0 (h : Hw) (f : Fuses) : Hw × Bool :=
  let (h, ok) := h.nvLoad.bootSlot f
  let part := bundlePart (h.slotHead h.running) 1
  let h : Hw := { h with sep := { h.sep with s0Tb := h.tb, slot := h.running, version := part.1, meas := part.2 } }
  ((h.keyValid).lcRegs f, ok)

/-! ## Package reset (R372, R377) -/

/-- The registers that a package reset keeps: those of the always-on domains, of the retained memories and of the orders that
hold until their authority changes them (R372, R378, R403, R408, R481). -/
def alwaysOn : List Nat :=
  [Reg.HUB_PRIVMEM_STATUS 0, Reg.HUB_PRIVMEM_STATUS 1, Reg.SEP_SSRAM_STATUS 0, Reg.SEP_SSRAM_STATUS 1, Reg.CPX_AUTH,
   Reg.CPX_JOURNAL, Reg.CPX_HEALTH 0, Reg.CPX_HEALTH 1, Reg.HUB_BRINGUP_STATUS, Reg.HUB_BRINGUP_CFG, Reg.HUB_STAGE_TIME,
   Reg.HUB_RESET_STATUS, Reg.PKG_BOARD_STATUS, Reg.PWR_BOARD, Reg.PWR_CAP, Reg.PWR_ENERGY_LO, Reg.PWR_ENERGY_HI,
   Reg.SEP_LC_STATUS, Reg.SEP_KEY_CTRL, Reg.HUB_FW_STATUS, Reg.HUB_RELAY_CFG, Reg.CTR_LOG_STATUS, Reg.PKG_FH_STATUS,
   Reg.PKG_LEAK, Reg.PKG_TIME_STATUS]

/-- The registers after a package reset: PWR_STATUS keeps the OFF holds, THM_STATUS a trip. -/
def Hw.resetRegs (h : Hw) : Hw :=
  let holdH := h.flag Fd.PWR_STATUS.OFF_HOST
  let holdB := h.flag Fd.PWR_STATUS.OFF_BOARD
  let trip := h.flag Fd.THM_STATUS.TRIP
  let h : Hw := { h with regs := h.regs.filter (fun q => alwaysOn.contains q.1) }
  ((h.setFlag Fd.PWR_STATUS.OFF_HOST holdH).setFlag Fd.PWR_STATUS.OFF_BOARD holdB).setFlag Fd.THM_STATUS.TRIP trip

/-- The completions that the aborts of a package reset send before every session ends. -/
def Hw.abortsDone (h : Hw) : Hw := h.ctxs.foldl (fun h q => h.abortDone (h.handle q.1)) h

/-- A planned handover in progress ends: its standby is reset too. -/
def Hw.handReset (h : Hw) : Hw :=
  if h.cpx.hand.isSome then { h.setCx h.otherHub cxSelfTest with cpx := { h.cpx with hand := none } } else h

/-- A package reset (R372, R377): contexts, sessions and every block outside the always-on domains; S0 runs. The completions are
the caller's. -/
def Hw.packageReset (h : Hw) (f : Fuses) : Hw × List Edit :=
  let h := h.abortsDone
  let h := if h.fw.trial.isSome then h.endTrial fwReset else h
  let h := (h.stopForward).handReset
  let h := (h.endSessions (fun _ => true)).powerDown
  let h := h.resetRegs
  let h := h.setFlag (Fd.CPX_HEALTH.DEGRADED h.holderHub) false
  let h : Hw := { h with
    ctxs := [], links := [], rtr := {}, cve := {}, squall := { seq := h.squall.seq }, rdma := {}, ccl := {}, eth := {},
    plu := { pins := h.plu.pins, scan := h.plu.scan }, pwr := {},
    thm := { halves := h.thm.halves, savedHalves := h.thm.halves },
    host := { nextSession := h.host.nextSession, keyPairs := h.host.keyPairs },
    bring := { trained := h.bring.trained, saved := h.bring.saved, startTb := h.tb, fast := true },
    cpx := { h.cpx with suspended := if h.held then some h.tb else none } }
  let h := (h.setFlag Fd.HUB_BRINGUP_STATUS.READY false).setFlag Fd.HUB_BRINGUP_STATUS.COMPUTE false
  let h := h.setStage 0 bsRunning 0
  ((h.s0 f).1, [allLost])

end Sys2Proof.Machine
end

