-- ==== Sys2Proof/Machine/BoardOps.lean ====
section
/-!
DEFINITION. What power, cooling and the board interface share: the PLDM state sensors with their messages and ALERT_N (R476, R480,
R481), the events of R418, the entries of protective actions (R434), and the stop of Foehn's heat load (R416).
-/
namespace Sys2Proof.Machine

/-! ## Messages to the board manager (R479–R481) -/

/-- Send an MCTP message to an endpoint; an in-band interrupt announces it where the controller has enabled them (R479). The layout
of MCTP and PLDM messages is that of DSP0236 and DSP0248 (PRESUMED, assumption 22). -/
def Hw.mctp (h : Hw) (dst : Nat) (body : List Byte) : Hw :=
  let ibi : List Out := if bitAt h.board.events 0 then [.i3c [0xAE]] else []
  { h with out := h.out ++ ibi ++ [.mctp (beBytes 1 dst ++ beBytes 1 h.board.eid ++ body)] }

/-- A PlatformEventMessage with a state-sensor event. -/
def PlatEvt.message (e : PlatEvt) (tid : Nat) : List Byte :=
  [1] ++ leBytes 1 (128 + e.id % 32) ++ [2, 0x0A, 1] ++ leBytes 1 tid ++ [0] ++ leBytes 2 e.sensor ++ [1, 0] ++
    leBytes 1 e.now ++ leBytes 1 e.prev

/-- Send it to the receiver, where one is set. -/
def Hw.sendPlat (h : Hw) (e : PlatEvt) : Hw :=
  match h.board.recv with
  | some dst => h.mctp dst (e.message h.board.tid)
  | none => h

/-! ## State sensors 10–12 (*PLDM repository*) -/

/-- Sensor 10: the most severe that holds. -/
def Hw.coolState (h : Hw) : Nat :=
  if h.flag Fd.THM_STATUS.GATE then 5
  else if h.flag Fd.THM_STATUS.COOL_CRIT then 4
  else if h.flag Fd.THM_STATUS.PROT_DEGRADED then 3
  else if h.flag Fd.THM_STATUS.COOL_WARN then 2
  else 1

/-- Sensor 11, from PKG_LEAK.STATE. -/
def Hw.leakState (h : Hw) : Nat := ([1, 4, 2, 3, 5] : List Nat).getD (h.fld Fd.PKG_LEAK.STATE) 1

/-- Sensor 12. -/
def Hw.tripState (h : Hw) : Nat := if h.flag Fd.THM_STATUS.TRIP then 2 else 1

/-- A state sensor now. -/
def Hw.stateSensor (h : Hw) (n : Nat) : Nat := if n = 10 then h.coolState else if n = 11 then h.leakState else h.tripState

/-- A change of a sensor is sent to the receiver (R481). -/
def Hw.noteSensor (h : Hw) (n : Nat) : Hw :=
  let now := h.stateSensor n
  let prev := h.board.sensors.getD n 1
  if now = prev then h
  else
    let e : PlatEvt := ⟨h.board.evtId, n, now, prev, h.tb⟩
    let h : Hw := { h with board := { h.board with
      sensors := Tab.set h.board.sensors n 1 now, prevs := Tab.set h.board.prevs n 1 prev } }
    if h.board.recv.isSome then
      ({ h with board := { h.board with evts := h.board.evts ++ [e], evtId := h.board.evtId + 1 } } : Hw).sendPlat e
    else h

/-- Whether ALERT_N is asserted (R476). -/
def Hw.alertOn (h : Hw) : Bool :=
  h.coolState != 1 || h.leakState == 2 || h.leakState == 4 || h.tripState == 2 || !h.board.evts.isEmpty

/-- Whether Foehn's heat load must stop (R416). -/
def Hw.foehnBarred (h : Hw) : Bool :=
  h.flag Fd.THM_STATUS.GATE || h.flag Fd.THM_STATUS.COOL_WARN || h.flag Fd.THM_STATUS.COOL_CRIT ||
    h.flag Fd.THM_STATUS.PROT_DEGRADED || !h.pwr.steps.isEmpty

/-- Stop the heat load. -/
def Hw.foehnStop (h : Hw) : Hw :=
  ({ h with thm := { h.thm with foehnPace := [] } } : Hw).setFlag Fd.THM_STATUS.FOEHN_ACTIVE false

/-- What follows a change of cooling, leak or trip: the sensors and their messages, ALERT_N, THERMTRIP_N, and the heat load. -/
def Hw.platform (h : Hw) : Hw :=
  let h := if h.foehnBarred then h.foehnStop else h
  let h := ((h.noteSensor 10).noteSensor 11).noteSensor 12
  (h.setFlag Fd.PKG_BOARD_STATUS.ALERT h.alertOn).setFlag Fd.PKG_BOARD_STATUS.THERMTRIP (h.tripState == 2)

/-! ## Events and protective actions (R418, R434) -/

/-- The payload of EVT_THERMAL and EVT_COOLING (*Thermal event payload*). -/
def thermalPayload (tb cause unit : Nat) (reading : Int) (pace : Nat) : List Byte :=
  beBytes 8 tb ++ beBytes 1 cause ++ beBytes 1 unit ++ beBytes 2 (toSigned 16 reading) ++ beBytes 2 pace ++ [0, 0]

/-- The highest programmed pace of a die's clusters. -/
def Hw.diePace (h : Hw) (d : Nat) : Nat := h.fld (Fd.PWR_DIE_STATUS.PACE_MSTEPS d)

/-- The die that a UNIT names: a die, or the owner of a stack. -/
def unitDie (unit : Nat) : Option Nat :=
  if unit < 8 then some unit else if unit < 0x10 then none else if unit < 0x20 then some ((unit - 0x10) / 2) else none

/-- The pace of a UNIT, or 0. -/
def Hw.unitPace (h : Hw) (unit : Nat) : Nat :=
  match unitDie unit with
  | some d => h.diePace d
  | none => 0

/-- Readings of a UNIT now (R434). -/
def Hw.readings (h : Hw) (unit : Nat) : Readings :=
  { temp := match unitDie unit with
      | some d => h.thm.dieTemp.getD d 0
      | none => signedOf 16 (h.fld Fd.THM_STATUS.HOT_C),
    watts := h.fld Fd.PWR_STATUS.POWER_W, pace := h.unitPace unit,
    mv := match unitDie unit with
      | some d => h.fld (Fd.PWR_DIE_STATUS.VDD_MV d)
      | none => 0,
    flow := h.fld Fd.THM_FLOW.FLOW }

/-- Readings as bytes. -/
def Readings.bytes (r : Readings) : List Byte :=
  beBytes 2 (toSigned 16 r.temp) ++ beBytes 2 r.watts ++ beBytes 2 r.pace ++ beBytes 2 r.mv ++ beBytes 2 r.flow ++ [0, 0]

/-- A protective action begins: `h0` is the state before it, and its entry is written at the next sample. -/
def Hw.protect (h : Hw) (h0 : Hw) (action unit : Nat) : Hw :=
  { h with thm := { h.thm with prot := h.thm.prot ++ [(⟨action, unit, h0.readings unit, h.tb⟩ : Protect)] } }

/-- Write the entries of the protective actions that came before this sample. -/
def Hw.protLog (h : Hw) : Hw :=
  let due := h.thm.prot.filter (fun p => decide (p.tb < h.tb))
  let h : Hw := { h with thm := { h.thm with prot := h.thm.prot.filter (fun p => !decide (p.tb < h.tb)) } }
  due.foldl (fun h p =>
    h.log (match unitDie p.unit with | some d => 0x10 + d | none => 0) logProtective p.action
      (beBytes 1 p.action ++ beBytes 1 p.unit ++ [0, 0] ++ p.before.bytes ++ (h.readings p.unit).bytes)) h

/-- EVT_THERMAL with the unit's pace. -/
def Hw.thermal (h : Hw) (cause unit : Nat) (reading : Int) : Hw :=
  h.event 0x7F02 0xFFFF [] (thermalPayload h.tb cause unit reading (h.unitPace unit))

/-- EVT_COOLING. -/
def Hw.cooling (h : Hw) (cause unit : Nat) (reading : Int) : Hw :=
  h.event 0x7F05 0xFFFF [] (thermalPayload h.tb cause unit reading (h.unitPace unit))

/-! ## Protection degraded (R411) -/

/-- Set PROT_DEGRADED from what has failed; a new failure is reported, for the die or for the package, and paces follow. -/
def Hw.degradeCheck (h : Hw) (unit : Nat) (fresh : Bool) : Hw :=
  let any := (List.range 8).any h.degraded
  let h := h.setFlag Fd.THM_STATUS.PROT_DEGRADED any
  let h0 := h
  let h := h.repace
  let h := if fresh then (h.cooling 0x16 unit 0).protect h0 0x16 unit else h
  h.platform

/-- A package reset with what the board sees of it: the leak loop's fault still degrades protection. -/
def Hw.packageResetAll (h : Hw) (f : Fuses) : Hw × List Edit :=
  let (h, es) := h.packageReset f
  ((h.setFlag Fd.THM_STATUS.PROT_DEGRADED ((List.range 8).any h.degraded)).platform, es)

end Sys2Proof.Machine
end

