-- ==== Sys2Proof/Machine/Links.lean ====
section
/-!
DEFINITION. The optical links (10_fabric_links.md): signal detectors, block lock, codewords, training, identification,
signal quality and eye scans.
-/
namespace Sys2Proof.Machine

/-! ## State changes -/

/-- Set the state of a link; every change is logged (R259, R434). When UP_LINK leaves UP, a timebase that follows it
enters holdover (R281). -/
def Hw.setLinkState (h : Hw) (n st : Nat) : Hw :=
  if h.linkState n = st then h
  else
    let lost := h.isUp n && h.fld Fd.PKG_TIME_CTRL.SRC == 3 && h.fld Fd.FR_TIME_CTRL.UP_LINK == n
    let h := (h.setFld (Fd.FL_STATE.STATE n) st).logNote logState 1 n st
    if lost then h.holdover else h

/-- A lane. -/
def Link.lane (l : Link) (i : Nat) : Lane := Tab.getD l.lanes i {}

/-- Change a lane. -/
def Hw.modLane (h : Hw) (n i : Nat) (f : Lane → Lane) : Hw :=
  h.modLink n (fun l => { l with lanes := l.lanes.upd i {} f })

/-- Whether a lane holds block lock (R246). -/
def Hw.laneLocked (h : Hw) (n i : Nat) : Bool := h.flag (Fd.FL_LANE_STATUS.BLOCK_LOCK n i)

/-- Set or clear block lock of a lane, with the link's copy of it. -/
def Hw.setLock (h : Hw) (n i : Nat) (b : Bool) : Hw :=
  let h := h.setFlag (Fd.FL_LANE_STATUS.BLOCK_LOCK n i) b
  h.setFld (Fd.FL_STATE.LANES_LOCKED n) (setBitsAt (h.fld (Fd.FL_STATE.LANES_LOCKED n)) i 1 b.toNat)

/-- Abort a running eye scan of a lane (R254). -/
def Hw.abortScan (h : Hw) (n i : Nat) : Hw :=
  match ((h.link n).lane i).scanEnd with
  | none => h
  | some _ =>
    ((h.modLane n i (fun x => { x with scanEnd := none })).setFlag (Fd.FL_SCAN_CTRL.START n i) false).setFlag
      (Fd.FL_SCAN_RESULT.ABORTED n i) true

/-- Abort the scans of every lane of a link. -/
def Hw.abortScans (h : Hw) (n : Nat) : Hw := (List.range 8).foldl (fun h i => h.abortScan n i) h

/-- The cache entry that allows fast training (R257): FAST_EN, an entry of the link, and a peer that matches the map. -/
def Hw.fastEntry (h : Hw) (n : Nat) : Option TrainRec :=
  if h.flag (Fd.FL_CTRL.FAST_EN n) then
    h.trainCache.find? (fun e => e.link == n && e.peerFid == h.fld (Fd.FR_PORT_CFG.PEER_FID n) &&
      e.peerLink == h.fld (Fd.FR_PORT_CFG.PEER_LINK n))
  else none

/-- Steps of *Link training sequence* whose condition already holds follow at once (R256): 2 when LOS is clear on every
lane, 3 when LOL is, 5 when every lane holds block lock. -/
def Hw.advanceTraining (h : Hw) (n : Nat) : Hw :=
  let anyLane := fun (f : Nat → Fld) => (List.range 8).any (fun i => h.flag (f i))
  let l := h.link n
  let go := fun (h : Hw) (s : Nat) => h.modLink n (fun l => { l with step := s, stepTb := h.tb })
  let h := if l.step = 1 ∧ anyLane (Fd.FL_LANE_STATUS.LOS n) = false then (go h 2).setLinkState n lsTraining else h
  let h := if (h.link n).step = 2 ∧ anyLane (Fd.FL_LANE_STATUS.LOL n) = false then go h 3 else h
  if (h.link n).step = 4 ∧ h.fld (Fd.FL_STATE.LANES_LOCKED n) = 0xFF then go h 5 else h

/-- Begin a training attempt at step 1 (R256, R257): lasers on, LSTATE TRAINING, state WAIT_SIGNAL. A port that the map
marks unused stays DISABLED, and a link that is not enabled does not train (R258, R261). -/
def Hw.beginTraining (h : Hw) (n : Nat) (full : Bool) : Hw :=
  if h.flag (Fd.FL_CTRL.EN n) = false then h
  else if h.flag (Fd.FR_PORT_CFG.UNUSED n) then h.setLinkState n lsDisabled
  else
    let h := h.abortScans n
    let h := h.modLink n (fun l => { l with
      step := 1, stepTb := h.tb, fast := !full && (h.fastEntry n).isSome, lstate := 0, upRun := 0, rfRun := 0,
      identIn := none, rxNext := none, rxBuf := [], asm := [], asmSync := true, asmBad := false, rxq := [],
      blocks := [], sinceFill := 0 })
    (h.setLinkState n lsWait).advanceTraining n

/-- Failed attempts within the last 60 s (R259). -/
def recent60 (tb : Nat) (l : List Nat) : List Nat := l.filter (fun t => decide (tb < t + 60000000000))

/-- A training attempt fails (R256, R259): the fourth within 60 s makes the link DEAD with its lasers off; otherwise the
link retrains when AUTO_RETRAIN is 1. -/
def Hw.failTraining (h : Hw) (n reason : Nat) : Hw :=
  let fs := h.tb :: recent60 h.tb (h.link n).fails
  let h := (h.modLink n (fun l => { l with fails := fs, step := 0 })).setFld (Fd.FL_STATE.FAIL_REASON n) reason
  let h := h.setFld (Fd.FL_STATE.RETRIES n) (min 4 fs.length)
  if 4 ≤ fs.length then h.setLinkState n lsDead
  else
    let h := h.setLinkState n lsDown
    if h.flag (Fd.FL_CTRL.AUTO_RETRAIN n) then h.beginTraining n false else h

/-- The nanoseconds of a window spent at each eighth of the units in use (R283), up to now. -/
def Link.tally (l : Link) (tb : Nat) : Link :=
  let sum := ([2, 3, 4, 5, 6, 7].map l.inUse).foldl (· + ·) 0
  let b := min 7 (8 * sum / (6 * vcqUnits))
  let bins := (List.range 8).map (fun i => l.bins.getD i 0)
  { l with bins := modAt bins b (· + (tb - l.usedTb)), usedTb := tb }

/-- Move the packets of a link that leaves UP to another candidate, or drop them (R272, PACKET_REROUTE). TIME packets
belong to their link and go no further (R280). -/
def Hw.reroute (h : Hw) (n : Nat) : Hw :=
  let l := h.link n
  let ps : List (Packet × Option (Nat × Nat)) :=
    l.kept.map (fun k => (k.p, none)) ++ l.queue.map (fun q => (q.p, q.src))
  let h := h.modLink n (fun l => { l with kept := [], queue := [], again := [], replayFrom := none, replayTb := none })
  ps.foldl (fun h (p, src) =>
    if p.ptype = 0x01 then h.returnUnits src p
    else
      match h.choosePort (n / 12) (src.map (fun (m, q) => (m, q % 2))) p with
      | none => (h.satFld (Fd.FR_DROP_CNT.NOROUTE (n / 12)) 1).returnUnits src p
      | some (m, vc) => h.modLink m (fun l => { l with queue := l.queue ++ [⟨p, vc, src⟩] })) h

/-- A landing buffer that goes down with its link owes no more credit (R270). -/
def Hw.forgetSource (h : Hw) (n : Nat) : Hw :=
  { h with links := h.links.map (fun (i, l) =>
      (i, { l with queue := l.queue.map (fun q => if (q.src.map Prod.fst) = some n then { q with src := none } else q) })) }

/-- The link's receive direction leaves UP (R249–R251, R272, LINK_DOWN): state DOWN, REMOTE_FAULT for at least 1 µs, its
packets moved, and a new training at once when AUTO_RETRAIN is 1 (R259, AUTO_RETRAIN). -/
def Hw.linkDown (h : Hw) (n reason : Nat) : Hw :=
  if h.isUp n then
    let h := (h.setLinkState n lsDown).setFld (Fd.FL_STATE.FAIL_REASON n) reason
    let h := h.modLink n (fun l => { l.tally h.tb with
      lstate := 2, rfUntil := h.tb + 1000, downTb := h.tb, step := 0, asm := [], asmSync := true, asmBad := false,
      rxq := [], blocks := [], rxBuf := [], credRet := [], nakTb := none, nakDue := false, skipping := false })
    let h := (h.reroute n).forgetSource n
    if h.flag (Fd.FL_CTRL.AUTO_RETRAIN n) then h.beginTraining n false else h
  else h

/-- The link goes UP (R256 step 8, R268, R270, LINK_UP): sequence numbers and credits start again. -/
def Hw.linkUp (h : Hw) (n : Nat) : Hw :=
  let h := (h.setLinkState n lsUp).setFlag (Fd.FL_STATE.FAST n) (h.link n).fast
  h.modLink n (fun l => { l with
    step := 8, rxExp := 0, rxAny := false, skipping := false, nakTb := none, nakDue := false, unacked := false,
    sinceAck := 0, credRet := [], txLseq := 0, kept := [], again := [], replayFrom := none, replayTb := none,
    used := [], bucket := 8192, bucketTb := h.tb, timeEcho := none, badTime := 0, upTb := h.tb, usedTb := h.tb,
    ucws := [], rfRun := 0, bins := [] })

/-- A signal detector fires (R249): an UP link goes DOWN; a training attempt that has passed its step fails. -/
def Hw.signalLost (h : Hw) (n reason pass : Nat) : Hw :=
  if h.isUp n then h.linkDown n reason
  else if pass ≤ (h.link n).step ∧ (h.link n).step < 9 ∧ (h.link n).step ≠ 0 then h.failTraining n reason
  else h

/-! ## Detectors (R249) -/

/-- The received optical power as a signed number of 0.1 dBm. -/
def dbm (b : Byte) : Int := signedOf 8 b.toNat

/-- LOS of a lane asserts: its power stays below −12 dBm (R249). -/
def losAssertHw (n : Fin 24) (l : Fin 8) (pwr : Byte) (h : Hw) : Hw :=
  let h := h.setFld (Fd.FL_LANE_STATUS.OPT_PWR n l) pwr.toNat
  if dbm pwr < -120 then (h.setFlag (Fd.FL_LANE_STATUS.LOS n l) true).signalLost n 1 2 else h
/-- LOS_ASSERT (R249). -/
def execLosAssert (n : Fin 24) (l : Fin 8) (pwr : Byte) (s : State) : Res := keep s (losAssertHw n l pwr s.hw)

/-- LOS of a lane clears: its power rises above −10 dBm (R249). -/
def losClearHw (n : Fin 24) (l : Fin 8) (pwr : Byte) (h : Hw) : Hw :=
  let h := h.setFld (Fd.FL_LANE_STATUS.OPT_PWR n l) pwr.toNat
  if -100 < dbm pwr then
    let first := (List.range 8).all (fun i => h.flag (Fd.FL_LANE_STATUS.LOS n i))
    let h := h.setFlag (Fd.FL_LANE_STATUS.LOS n l) false
    let h := if first = true ∧ (h.link n).step = 1 then h.modLink n (fun x => { x with stepTb := h.tb }) else h
    h.advanceTraining n
  else h
/-- LOS_CLEAR (R249). -/
def execLosClear (n : Fin 24) (l : Fin 8) (pwr : Byte) (s : State) : Res := keep s (losClearHw n l pwr s.hw)

/-- LOL of a lane asserts (R249); without the data phase the lane holds no block lock. -/
def lolAssertHw (n : Fin 24) (l : Fin 8) (h : Hw) : Hw :=
  let h := (h.setFlag (Fd.FL_LANE_STATUS.LOL n l) true).setLock n l false
  (h.modLane n l (fun x => { x with hunt := 0, heads := [] })).signalLost n 2 3
/-- LOL_ASSERT (R249). -/
def execLolAssert (n : Fin 24) (l : Fin 8) (s : State) : Res := keep s (lolAssertHw n l s.hw)

/-- A lane's clock recovery locks (R256). -/
def lolClearHw (n : Fin 24) (l : Fin 8) (h : Hw) : Hw :=
  (h.setFlag (Fd.FL_LANE_STATUS.LOL n l) false).advanceTraining n
/-- LOL_CLEAR (R256). -/
def execLolClear (n : Fin 24) (l : Fin 8) (s : State) : Res := keep s (lolClearHw n l s.hw)

/-! ## Receiving codewords (R243–R251) -/

/-- Block lock of a lane over the sync headers of a codeword, valid or not, in order (R246, R247): 64 valid ones in a
row lock it, and 16 invalid ones in any 64 lose the lock. The answer says whether lock was lost. -/
def Lane.headers (x : Lane) (locked : Bool) (vs : List Bool) : Lane × Bool × Bool :=
  vs.foldl (fun (x, lk, lost) v =>
    if lk then
      let hs := (v :: x.heads).take 64
      if 16 ≤ (hs.filter (fun b => !b)).length then ({ x with heads := [], hunt := 0 }, false, true)
      else ({ x with heads := hs }, true, lost)
    else if v then
      if 63 ≤ x.hunt then ({ x with heads := [], hunt := 0 }, true, lost) else ({ x with hunt := x.hunt + 1 }, false, lost)
    else ({ x with hunt := 0 }, false, lost)) (x, locked, false)

/-- Descramble the payloads of a codeword's blocks in order (R242). -/
def Lane.descrambled (x : Lane) (bs : List Nat) : List Nat × Nat :=
  bs.foldl (fun (acc, st) b =>
    let (v, st) := descramble st (b % 2 ^ 64)
    (acc ++ [b / 2 ^ 64 * 2 ^ 64 + v], st)) ([], x.rxScr)

/-- What the packet layer gathers (R252, R264): add a data block, and close the packet that it ends. -/
def Link.gather (l : Link) (v : Nat) : Link :=
  let asm := l.asm ++ beBytes 8 v
  if asm.length < 16 then { l with asm := asm }
  else
    let len := beNat ((asm.drop 12).take 2) % 2 ^ 13
    if asm.length < wireLen len then { l with asm := asm }
    else { l with asm := asm.drop (wireLen len), rxq := l.rxq ++ [Packet.parse asm] }

/-- A packet that an error mark touches (R245): the packet layer discards it, and the receiver answers with a NAK. -/
def Link.markPacket (l : Link) : Link :=
  if l.asm.isEmpty then { l with asmSync := false }
  else { l with asm := [], asmSync := false, rxq := l.rxq ++ [{ Packet.parse l.asm with marked := true }] }

/-- One block of the link stream (R242, R244, R252): data blocks go to the packet layer of an UP link, FILLER is
deleted, IDENT is kept for training, and a reserved control block is counted and deleted. -/
def Hw.block (n : Nat) (h : Hw) (b : Nat) : Hw :=
  let v := b % 2 ^ 64
  match b / 2 ^ 64 with
  | 1 => if h.isUp n && (h.link n).asmSync then h.modLink n (fun l => l.gather v) else h
  | 2 =>
    if v / 2 ^ 56 = 0x1E then h
    else if v / 2 ^ 56 = 0x4B ∧ bitsAt v 48 8 = 0x01 then
      h.modLink n (fun l => { l with identIn := some (bitsAt v 32 16, bitsAt v 24 8) })
    else h.satFld (Fd.FL_FEC_UCW.BAD_CTRL n) 1
  | _ => h.modLink n Link.markPacket

/-- One codeword of the link stream in order (R245, R267): an error mark, or its blocks; framing that was lost resumes
at the block that FPS names. -/
def Hw.codewordInOrder (n : Nat) (h : Hw) (cw : Option (Nat × List Nat)) : Hw :=
  match cw with
  | none => h.modLink n Link.markPacket
  | some (fps, bs) =>
    if (h.link n).asmSync then bs.foldl (Hw.block n) h
    else if fps < 77 then
      let h := (bs.take fps).foldl (Hw.block n) h
      (bs.drop fps).foldl (Hw.block n) (h.modLink n (fun l => { l with asmSync := true, asm := [] }))
    else bs.foldl (Hw.block n) h

/-- Rebuild the link stream in codeword order (R248): deliver every codeword whose turn has come. -/
def Hw.reorder (n : Nat) : Nat → Hw → Hw
  | 0, h => h
  | fuel + 1, h =>
    match (h.link n).rxNext with
    | none => h
    | some k =>
      match (h.link n).rxBuf.find? k with
      | none => h
      | some cw =>
        let h := h.modLink n (fun l => { l with rxNext := some ((k + 1) % 2 ^ 16), rxBuf := l.rxBuf.drop k })
        Hw.reorder n fuel (h.codewordInOrder n cw)

/-- LSTATE as received (R243, R250, R256): REMOTE_FAULT or TRAINING three times in a row takes an UP link down
(REMOTE_FAULT_RECEIVE), and UP three times in a row puts a link that sends UP into service (LINK_UP). -/
def Hw.lstateIn (h : Hw) (n st : Nat) : Hw :=
  let st := if st = 3 then 0 else st
  let h := h.setFlag (Fd.FL_STATE.REMOTE_FAULT n) (st == 2)
  let h := h.modLink n (fun l => { l with
    rfRun := if st = 1 then 0 else l.rfRun + 1, upRun := if st = 1 then l.upRun + 1 else 0 })
  if h.isUp n ∧ 3 ≤ (h.link n).rfRun then h.linkDown n 8
  else if (h.link n).step = 8 ∧ h.isUp n = false ∧ 3 ≤ (h.link n).upRun then h.linkUp n
  else h

/-- Whether `a` is at or after `b` in a sequence of `k` bits, within half the range. -/
def seqGe (k a b : Nat) : Bool := decide ((a + 2 ^ k - b % 2 ^ k) % 2 ^ k < 2 ^ (k - 1))

/-- Start a replay of every kept packet (R269, R270): the units of the packets that it sends again are restored first;
after 8 replays from one first packet the link goes DOWN. -/
def Hw.replay (h : Hw) (n : Nat) : Hw :=
  let l := h.link n
  match l.kept with
  | [] => h
  | k :: _ =>
    let cnt := match l.replayFrom with
      | some (f, c) => if f = k.lseq then c else 0
      | none => 0
    if 8 ≤ cnt then h.linkDown n 7
    else
      let h := h.modLink n (fun l =>
        let l := l.tally h.tb
        { l with
          used := (l.kept.filter (fun x => !l.again.contains x.lseq)).foldl (fun u x =>
            u.upd (vcqOf x.p.tc x.p.vc) 0 (fun v => v - x.units)) l.used,
          again := l.kept.map (·.lseq), replayFrom := some (k.lseq, cnt + 1), replayTb := some h.tb })
      (h.satFld (Fd.FR_PORT_ERR.REPLAYS n) 1).countPort n 0x62 1

/-- The link-layer control word as received (R267, R269, R270): ACK, CREDIT or NAK. -/
def Hw.llcIn (h : Hw) (n llc : Nat) : Hw :=
  if bitAt llc 24 = false then
    let a := bitsAt llc 0 24
    h.modLink n (fun l =>
      let kept := l.kept.filter (fun k => !seqGe 24 a k.lseq)
      { l with kept := kept, again := l.again.filter (fun q => kept.any (fun k => k.lseq == q)),
               replayFrom := if kept.head?.map (·.lseq) = l.kept.head?.map (·.lseq) then l.replayFrom else none })
  else if bitAt llc 23 = false then
    (h.modLink n (fun l =>
      let l := l.tally h.tb
      { l with used := l.used.upd (bitsAt llc 20 3) 0 (fun v => v - bitsAt llc 7 13) })).drainInj
  else
    match (h.link n).replayTb, (h.link n).replayFrom, (h.link n).kept with
    | some t, some (f, _), k :: _ => if f = k.lseq ∧ h.tb < t + 2000 then h else h.replay n
    | _, _, _ => h.replay n

/-- The codeword's number on its lane when it cannot be read (R243): the next one that the lane owes. -/
def Link.owed (l : Link) (lane : Nat) : Option Nat :=
  match l.rxNext with
  | none => none
  | some k => (List.range 64).findSome? (fun i =>
      let c := (k + i) % 2 ^ 16
      if c % 8 = lane ∧ (l.rxBuf.find? c).isNone then some c else none)

/-- Count an uncorrectable codeword; 16 within 1 ms take the link DOWN (R245, R251, UCW_LIMIT). -/
def Hw.ucw (h : Hw) (n : Nat) : Hw :=
  let h := h.satFld (Fd.FL_FEC_UCW.UCW n) 1
  let us := h.tb :: ((h.link n).ucws.filter (fun t => decide (h.tb < t + 1000000))).take 15
  let h := h.modLink n (fun l => { l with ucws := us })
  if 16 ≤ us.length then h.linkDown n 7 else h

/-- One codeword on a lane (R243–R251): `wrong` symbols are in error; `ctl` is the control field, `blocks` the 77 blocks
still scrambled, and `badHeads` the positions whose sync header arrived invalid. -/
def codewordHw (n : Fin 24) (lane : Fin 8) (wrong ctl : Nat) (blocks badHeads : List Nat) (h : Hw) : Hw :=
  let was := h.laneLocked n lane
  let vs := (List.range 77).map (fun i => !badHeads.contains i)
  let (x, lk, lost) := ((h.link n).lane lane).headers was vs
  let (bs, scr) := x.descrambled blocks
  let h := (h.modLane n lane (fun _ => { x with rxScr := scr })).setLock n lane lk
  if lost then h.signalLost n 3 5
  else if was = false then h.advanceTraining n
  else if 15 < wrong ∨ bitsAt ctl 55 3 ≠ lane.val then
    let h := h.ucw n
    match (h.link n).owed lane with
    | none => h
    | some k => Hw.reorder n 64 (h.modLink n (fun l => { l with rxBuf := l.rxBuf.put k none }))
  else
    let h := if wrong = 0 then h
      else (h.satFld (Fd.FL_FEC_CW.CORR_CW n) 1).satFld (Fd.FL_FEC_SYM.CORR_SYM n) wrong
    let h := h.modLink n (fun l => { l with symWin := l.symWin + wrong })
    let h := h.lstateIn n (bitsAt ctl 37 2)
    let h := if h.isUp n then h.llcIn n (bitsAt ctl 0 32) else h
    let seq := bitsAt ctl 39 16
    let h := if (h.link n).rxNext.isNone && decide (6 ≤ (h.link n).step) && seq % 8 == 0 then
        h.modLink n (fun l => { l with rxNext := some seq }) else h
    match (h.link n).rxNext with
    | none => h
    | some k =>
      if seqGe 16 seq k then
        Hw.reorder n 64 (h.modLink n (fun l => { l with rxBuf := l.rxBuf.put seq (some (bitsAt ctl 25 7, bs)) }))
      else h
/-- CODEWORD_RECEIVE (R245). -/
def execCodewordReceive (n : Fin 24) (lane : Fin 8) (wrong ctl : Nat) (blocks badHeads : List Nat) (s : State) : Res :=
  keep s (codewordHw n lane wrong ctl blocks badHeads s.hw)

/-! ## Sending codewords (R243, R252, R267) -/

/-- A FILLER block (R244). -/
def fillerBlock : Nat := 2 ^ 65 + 0x1E * 2 ^ 56

/-- The block slots of one codeword (R252): a FILLER at least once in 40 slots and whenever nothing waits; the answer
also carries the slot of the first block that starts a packet. -/
def Link.fillSlots (l : Link) : Link × List Nat × Nat :=
  (List.range 77).foldl (fun (l, out, fps) i =>
    if 39 ≤ l.sinceFill then ({ l with sinceFill := 0 }, out ++ [fillerBlock], fps)
    else
      match l.blocks with
      | [] => ({ l with sinceFill := 0 }, out ++ [fillerBlock], fps)
      | (start, b) :: bs =>
        ({ l with blocks := bs, sinceFill := l.sinceFill + 1 }, out ++ [b], if start = true ∧ fps = 127 then i else fps))
    (l, [], 127)

/-- The link-layer control word of the next codeword, FPS apart (R267, R268): a NAK that is due, an ACK in at least one
codeword of four while packets are unacknowledged, freed credit, and otherwise an ACK. -/
def Link.llcOut (l : Link) : Link × Nat :=
  let ack := if l.rxAny then (l.rxExp + 2 ^ 24 - 1) % 2 ^ 24 else 0xFFFFFF
  let acked : Link × Nat := ({ l with unacked := false, sinceAck := 0 }, ack)
  if l.nakDue then ({ l with nakDue := false, sinceAck := l.sinceAck + 1 }, 2 ^ 24 + 2 ^ 23)
  else if l.unacked && decide (3 ≤ l.sinceAck) then acked
  else
    match List.find? (fun c => decide (0 < c.2)) l.credRet with
    | some (q, c) =>
      let k := min c 8191
      ({ l with credRet := l.credRet.put q (c - k), sinceAck := l.sinceAck + 1 }, 2 ^ 24 + q * 2 ^ 20 + k * 2 ^ 7)
    | none => acked

/-- Scramble the payloads of a codeword's blocks (R242). -/
def Lane.scrambled (x : Lane) (bs : List Nat) : List Nat × Nat :=
  bs.foldl (fun (acc, st) b =>
    let (v, st) := scramble st (b % 2 ^ 64)
    (acc ++ [b / 2 ^ 64 * 2 ^ 64 + v], st)) ([], x.txScr)

/-- Whether the lasers of a link are on (R256, R258, R259, R261). -/
def Hw.lasersOn (h : Hw) (n : Nat) : Bool :=
  let st := h.linkState n
  st != lsDisabled && st != lsDead

/-- LSTATE as sent (R250): REMOTE_FAULT for at least 1 µs after leaving UP, then what training says. -/
def Hw.lstateOut (h : Hw) (n : Nat) : Nat :=
  let l := h.link n
  if h.tb < l.rfUntil then 2 else l.lstate

/-- A lane sends the link's next codeword (R243, R250, R252, R267). -/
def codewordTxHw (n : Fin 24) (h : Hw) : Hw :=
  if h.lasersOn n then
    let l0 := h.link n
    let lane := l0.txCw % 8
    let (l1, bs, fps) := l0.fillSlots
    let (l2, llc) : Link × Nat := if h.isUp n then let (l, w) := l1.llcOut; (l, fps * 2 ^ 25 + w) else (l1, 0)
    let ctl := lane * 2 ^ 55 + l0.txCw % 2 ^ 16 * 2 ^ 39 + h.lstateOut n * 2 ^ 37 + llc
    let (scr, st) := (l2.lane lane).scrambled bs
    let h := h.modLink n (fun _ => { l2 with txCw := l2.txCw + 1 })
    let h := h.modLane n lane (fun x => { x with txScr := st })
    { h with out := h.out ++ [.codeword n lane ctl scr] }
  else h
/-- CODEWORD_TRANSMIT (R243). -/
def execCodewordTransmit (n : Fin 24) (s : State) : Res := keep s (codewordTxHw n s.hw)

/-! ## Training (R256–R259) -/

/-- What the fabric agent finds for a lane in a training step: the CTLE code, the other settings (R255) and the delay
behind the earliest lane in ns. -/
abbrev LaneTrain := Nat × List Int × Nat

/-- Apply a lane's settings. -/
def Hw.setLane (h : Hw) (n i ctle : Nat) (set : List Int) : Hw :=
  (h.setFld (Fd.FL_LANE_STATUS.CTLE n i) ctle).modLane n i (fun x => { x with settings := set })

/-- Step 4 is done (R256): in full training the sweep's settings are applied; in fast training the saved CTLE codes are,
with thresholds fine-tuned. -/
def Hw.adapted (h : Hw) (n : Nat) (res : List LaneTrain) : Hw :=
  let saved := if (h.link n).fast then h.fastEntry n else none
  let h := (List.range 8).foldl (fun h i =>
    let r := res.getD i (0, [], 0)
    let ctle := match saved with
      | some e => (e.lanes.getD i (0, [])).1
      | none => r.1
    h.setLane n i ctle r.2.1) h
  (h.modLink n (fun l => { l with step := 4, stepTb := h.tb })).advanceTraining n

/-- Step 6 is done (R248, R256): skew above 48 ns fails the attempt; otherwise the link identifies. -/
def Hw.deskewed (h : Hw) (n : Nat) (res : List LaneTrain) : Hw :=
  let ds := (List.range 8).map (fun i => (res.getD i (0, [], 0)).2.2)
  let h := (List.range 8).foldl (fun h i => h.setFld (Fd.FL_LANE_STATUS.SKEW_NS n i) (min 255 (ds.getD i 0))) h
  if ds.any (fun d => decide (48 < d)) then h.failTraining n 4
  else (h.modLink n (fun l => { l with step := 6, stepTb := h.tb, identTb := h.tb, rxNext := none, rxBuf := [] })).setLinkState n lsIdentify

/-- A training step of the fabric agent completes (R256): adaptation after step 3, deskew after step 5. -/
def trainingStepHw (n : Fin 24) (res : List LaneTrain) (h : Hw) : Hw :=
  if (h.link n).step = 3 then h.adapted n res
  else if (h.link n).step = 5 then h.deskewed n res
  else h
/-- TRAINING_STEP_DONE (R256). -/
def execTrainingStepDone (n : Fin 24) (res : List (Nat × List Int × Nat)) (s : State) : Res :=
  keep s (trainingStepHw n res s.hw)

/-- The bound of the step after step `k` in ns and the reason of missing it (R256): none while no light has arrived. -/
def stepBound (k : Nat) (fast : Bool) : Nat × Nat :=
  match k with
  | 1 => (1000000, 1)
  | 2 => (10000000, 2)
  | 3 => (if fast then 20000000 else 15000000000, 9)
  | 4 => (50000000, 3)
  | 5 => (1000000, 4)
  | 6 => (100000000, 5)
  | _ => (1000000, 8)

/-- A step misses its bound (R256, R257): a fast attempt that misses step 4 or 5 falls back to full; any other fails. -/
def trainingTimeoutHw (n : Fin 24) (h : Hw) : Hw :=
  let l := h.link n
  let st := h.linkState n
  let training := st == lsWait || st == lsTraining || st == lsIdentify
  let dark := l.step == 1 && (List.range 8).all (fun i => h.flag (Fd.FL_LANE_STATUS.LOS n i))
  let (bound, reason) := stepBound l.step l.fast
  if training && !dark && decide (l.stepTb + bound < h.tb) then
    if l.fast && (l.step == 3 || l.step == 4) then h.beginTraining n true else h.failTraining n reason
  else h
/-- TRAINING_TIMEOUT (R256). -/
def execTrainingTimeout (n : Fin 24) (s : State) : Res := keep s (trainingTimeoutHw n s.hw)

/-- An identifying link sends IDENT every 1 µs (R256, R244). -/
def identSendHw (n : Fin 24) (h : Hw) : Hw :=
  let l := h.link n
  if h.linkState n = lsIdentify ∧ l.identTb ≤ h.tb then
    let v := 2 ^ 65 + 0x4B * 2 ^ 56 + 0x01 * 2 ^ 48 + h.fld Fd.FR_FID.FID * 2 ^ 32 + n.val * 2 ^ 24
    h.modLink n (fun l => { l with identTb := h.tb + 1000, blocks := l.blocks ++ [(false, v)] })
  else h
/-- IDENT_SEND (R256). -/
def execIdentSend (n : Fin 24) (s : State) : Res := keep s (identSendHw n s.hw)

/-- A received IDENT (R256, R258): FL_PEER keeps it; an identifying link whose peer matches the map sends UP, and one
whose peer does not is held MISWIRED with both identities logged. -/
def identReceiveHw (n : Fin 24) (h : Hw) : Hw :=
  match (h.link n).identIn with
  | none => h
  | some (fid, pl) =>
    let h := h.modLink n (fun l => { l with identIn := none })
    let h := ((h.setFld (Fd.FL_PEER.FID n) fid).setFld (Fd.FL_PEER.LINK n) pl).setFlag (Fd.FL_PEER.VALID n) true
    if h.linkState n = lsIdentify ∧ (h.link n).step = 6 then
      if h.fld (Fd.FR_PORT_CFG.PEER_FID n) = fid ∧ h.fld (Fd.FR_PORT_CFG.PEER_LINK n) = pl then
        h.modLink n (fun l => { l with step := 8, stepTb := h.tb, lstate := 1, upRun := 0 })
      else
        let h := (h.modLink n (fun l => { l with step := 0, lstate := 0 })).setFld (Fd.FL_STATE.FAIL_REASON n) 6
        let h := h.logNote logState 2 (n.val * 2 ^ 16 + fid) pl
        h.setLinkState n lsMiswired
    else h
/-- IDENT_RECEIVE (R258). -/
def execIdentReceive (n : Fin 24) (s : State) : Res := keep s (identReceiveHw n s.hw)

/-! ## Signal quality (R253, R254) -/

/-- The 1 s window of the corrected-symbol ratio (R253): above 10⁻⁴ of 1.7 × 10¹¹ symbols sets DEGRADED; ten windows at
or below clear it. -/
def fecWindowHw (n : Fin 24) (h : Hw) : Hw :=
  let l := h.link n
  if h.tb < l.symTb + 1000000000 then h
  else
    let bad := decide (17000000 < l.symWin)
    let good := if bad then 0 else l.degGood + 1
    let h := h.modLink n (fun l => { l with symWin := 0, symTb := h.tb, degGood := good })
    if bad then
      (h.setFlag (Fd.FL_STATE.DEGRADED n) true).logNote logState 3 n l.symWin
    else if 10 ≤ good then h.setFlag (Fd.FL_STATE.DEGRADED n) false
    else h
/-- FEC_WINDOW (R253). -/
def execFecWindow (n : Fin 24) (s : State) : Res := keep s (fecWindowHw n s.hw)

/-- A write of FL_SCAN_CTRL (R254, R261): the fields are stored with their clamps; START starts or restarts a scan, or
sets ABORTED on a link that is not UP. -/
def scanWriteHw (n : Fin 24) (l : Fin 8) (v : W32) (h : Hw) : Hw :=
  let w := v.toNat
  let eye := if bitsAt w 28 2 = 3 then 0 else bitsAt w 28 2
  let vo := max (-63) (min 63 (signedOf 8 (bitsAt w 8 8)))
  let ho := max (-32) (min 31 (signedOf 8 (bitsAt w 0 8)))
  let h := (h.setFld (Fd.FL_SCAN_CTRL.EYE n l) eye).setFld (Fd.FL_SCAN_CTRL.DWELL n l) (bitsAt w 24 4)
  let h := (h.setFld (Fd.FL_SCAN_CTRL.VOFF n l) (toSigned 8 vo)).setFld (Fd.FL_SCAN_CTRL.HOFF n l) (toSigned 8 ho)
  if bitAt w 31 then
    let h := (h.setFlag (Fd.FL_SCAN_RESULT.DONE n l) false).setFlag (Fd.FL_SCAN_RESULT.ABORTED n l) false
    if h.isUp n then
      (h.setFlag (Fd.FL_SCAN_CTRL.START n l) true).modLane n l (fun x =>
        { x with scanEnd := some (h.tb + 2 ^ bitsAt w 24 4 * 1000) })
    else
      let h := h.modLane n l (fun x => { x with scanEnd := none })
      (h.setFlag (Fd.FL_SCAN_CTRL.START n l) false).setFlag (Fd.FL_SCAN_RESULT.ABORTED n l) true
  else h
/-- EYE_SCAN_START (R254). -/
def execEyeScanStart (n : Fin 24) (l : Fin 8) (v : W32) (s : State) : Res := keep s (scanWriteHw n l v s.hw)

/-- The dwell of a scan ends (R254). -/
def scanDoneHw (n : Fin 24) (l : Fin 8) (errors : Nat) (h : Hw) : Hw :=
  match ((h.link n).lane l).scanEnd with
  | some t =>
    if t ≤ h.tb then
      let h := (h.modLane n l (fun x => { x with scanEnd := none })).setFlag (Fd.FL_SCAN_CTRL.START n l) false
      (h.setFlag (Fd.FL_SCAN_RESULT.DONE n l) true).setFld (Fd.FL_SCAN_RESULT.ERRORS n l) (min errors 0xFFFFFF)
    else h
  | none => h
/-- EYE_SCAN_DONE (R254). -/
def execEyeScanDone (n : Fin 24) (l : Fin 8) (errors : Nat) (s : State) : Res := keep s (scanDoneHw n l errors s.hw)

/-! ## Control (R261) -/

/-- A link leaves UP because the host says so. -/
def Hw.takeDown (h : Hw) (n st : Nat) : Hw :=
  let h := if h.isUp n then
      let h := h.modLink n (fun l => { l.tally h.tb with rfUntil := h.tb + 1000, lstate := 2 })
      ((h.setLinkState n st).reroute n).forgetSource n
    else h.setLinkState n st
  h.modLink n (fun l => { l with step := 0, blocks := [], rxq := [], asm := [], rxBuf := [] })

/-- RETRAIN (R261): a new training that ends any scan, MISWIRED or DEAD state and clears RETRIES; ignored while EN is 0. -/
def Hw.retrain (h : Hw) (n : Nat) : Hw :=
  if h.flag (Fd.FL_CTRL.EN n) then
    let h := (h.modLink n (fun l => { l with fails := [] })).setFld (Fd.FL_STATE.RETRIES n) 0
    (h.takeDown n lsDown).beginTraining n false
  else h
/-- RETRAIN (R261): a write of FL_CTRL.RETRAIN. -/
def execRetrain (n : Fin 24) (s : State) : Res := keep s (s.hw.retrain n)

/-- Enable or disable a link (R259, R261): enabling starts training, and disabling turns the lasers off. -/
def Hw.enableLink (h : Hw) (n : Nat) (en : Bool) : Hw :=
  let was := h.flag (Fd.FL_CTRL.EN n)
  let h := h.setFlag (Fd.FL_CTRL.EN n) en
  if en then
    if was && h.linkState n != lsDead then h
    else ((h.modLink n (fun l => { l with fails := [] })).setFld (Fd.FL_STATE.RETRIES n) 0).beginTraining n false
  else (h.abortScans n).takeDown n lsDisabled
/-- LINK_ENABLE (R261): a write of FL_CTRL.EN. -/
def execLinkEnable (n : Fin 24) (en : Bool) (s : State) : Res := keep s (s.hw.enableLink n en)

end Sys2Proof.Machine
end

