-- ==== Sys2Proof/Machine/Bring.lean ====
section
/-!
DEFINITION. Bring-up and reset domains (15_bringup.md), and the power signals that drive them (21_board_interface.md).
-/
namespace Sys2Proof.Machine

def stOrder : Nat := 0x0302

/-! ## Starting a stage (R356, R357, R363, R366) -/

/-- S8 enables every link that the installation map does not mark UNUSED (R366); FORCE_FULL ignores saved settings. -/
def Hw.trainLinks (h : Hw) (full : Bool) : Hw :=
  (List.range 24).foldl (fun (h : Hw) n =>
    if h.flag (Fd.FR_PORT_CFG.UNUSED n) then h
    else
      let h := h.enableLink n true
      if full then h.modLink n (fun l => { l with fast := false }) else h) h

/-- What the start of a stage does at once: S1 and S3 assert their enable, or fail while main power is held OFF. -/
def Hw.beginStage (h : Hw) (n : Nat) (full : Bool) : Hw :=
  let h : Hw := { h with bring := { h.bring with
    startTb := h.tb, full := full, okTb := none, fast := h.bring.fast && n != 4 } }
  let h := h.setStage n bsRunning 0
  if n = 1 then (if h.powerHeld then h.endStage bsFail brHeld else h.setFlag Fd.PKG_BOARD_STATUS.MAIN_EN true)
  else if n = 3 then (if h.powerHeld then h.endStage bsFail brHeld else h.setFlag Fd.PKG_BOARD_STATUS.HBM_EN true)
  else if n = 8 then h.trainLinks full
  else h

/-- Whether stage `n` may start (R356). -/
def Hw.mayStart (h : Hw) (n : Nat) : Bool :=
  let ended := h.stageState == bsPass || h.stageState == bsDegraded
  (h.stage + 1 == n && ended) || (n == 6 && h.stage == 3 && ended && h.flag Fd.HUB_BRINGUP_STATUS.COLD_DONE) ||
    (h.stage == n && (h.stageState == bsFail || h.stageState == bsDegraded))

/-- BRINGUP_STEP's own effect. -/
def bringupBody (p0 p1 : BitVec 32) (_ : State) (h : Hw) : Did :=
  if p0.toNat = 0 ∨ 10 < p0.toNat ∨ 2 ≤ p1.toNat then Did.fail h stParam
  else if h.stageState = bsRunning then Did.fail h stState
  else if h.mayStart p0.toNat = false then Did.fail h stOrder
  else { hw := h, rep := Rep.only stAccepted, next := fun h => (h.beginStage p0.toNat (p1.toNat == 1), []) }
/-- The effect of BRINGUP_STEP. -/
def bringupStepEff (hd : Hdr) (len : Nat) (p0 p1 : BitVec 32) (s : State) : Eff :=
  hostCmd { opcode := 0x0200, lenOk := len == 0 } hd s (bringupBody p0 p1)
/-- BRINGUP_STEP (R356). -/
def execBringupStep (hd : Hdr) (len : Nat) (p0 p1 : BitVec 32) (s : State) : Res :=
  unlessCut (.bringupStep hd len p0 p1) s (done s (bringupStepEff hd len p0 p1 s))

/-- A write to HUB_BRINGUP_GO (R357): the same checks; a refused one sets GO_REJECT. -/
def Hw.bringupGo (h : Hw) (v : W32) : Hw :=
  let n := bitsAt v.toNat 0 4
  if n = 0 ∨ 10 < n ∨ h.stageState = bsRunning ∨ h.mayStart n = false then h.setFlag Fd.HUB_BRINGUP_STATUS.GO_REJECT true
  else h.beginStage n (bitAt v.toNat 8)
/-- BRINGUP_GO (R357). -/
def execBringupGo (v : W32) (s : State) : Res := keep s (if s.hw.served then s.hw.bringupGo v else s.hw)

/-- The effect of BRINGUP_STATUS. -/
def bringupStatusEff (hd : Hdr) (len : Nat) (s : State) : Eff :=
  hostCmd { opcode := 0x0201, reads := true, lenOk := len == 0 } hd s (fun _ h =>
    { hw := h, rep := { status := stOk, p := [h.stage, bitsAt (h.reg Reg.HUB_BRINGUP_STATUS).toNat 16 12] } })
/-- BRINGUP_STATUS (R357). -/
def execBringupStatus (hd : Hdr) (len : Nat) (s : State) : Res :=
  unlessCut (.bringupStatus hd len) s (done s (bringupStatusEff hd len s))

/-! ## The outcomes of the stages (R362–R368) -/

/-- PASS, or PASS_DEGRADED where some unit failed. -/
def passIf (ok : Bool) : Nat := if ok then bsPass else bsDegraded

/-- Units of a class that trained (R369). -/
def Hw.setTrained (h : Hw) (cls : Nat) (us : List Nat) : Hw :=
  { h with bring := { h.bring with
    trained := us.foldl (fun l u => insNat l (64 * cls + u)) (h.bring.trained.filter (fun x => x / 64 != cls)) } }

/-- S2: dies whose DMP answers come into service, their cores with the running bundle's microcode (R364, R467). -/
def Hw.endS2 (h : Hw) (r : StageIn) : Hw :=
  let dies := (r.dies.map Fin.val).foldl insNat []
  if dies.isEmpty then h.endStage bsFail brNoDie
  else
    let v := (h.slotHead h.running).ucode
    let ucode : Tab UCode := (List.range 576).filterMap (fun k => if dies.contains (k / 72) then some (k, { ver0 := v }) else none)
    let h : Hw := { h with plu := { h.plu with diesUp := dies, fuseBad := (r.units.map BitVec.toNat).foldl insNat [] },
                           fw := { h.fw with ucode := ucode } }
    h.repace.endStage (passIf (dies.length == 8)) 0

/-- S3: the stacks that trained are in service (R119, R364). -/
def Hw.endS3 (h : Hw) (r : StageIn) : Hw :=
  let up := ((r.hbmSet.map Fin.val).foldl insNat []).filter (fun s => h.plu.diesUp.contains (s / 2))
  let h := (List.range 16).foldl (fun (h : Hw) s =>
    (h.setFlag (Fd.HBM_STATUS.IN_SERVICE s) (up.contains s)).setFld (Fd.HBM_STATUS.PAGES_RETIRED s)
      (h.hbm.getD s {}).retired.length) h
  let h := h.setTrained 0 up
  if up.isEmpty then h.endStage bsFail brNoStack else h.endStage (passIf (up.length == 16)) 0

/-- A unit that a scan, march or known-answer run finds bad is PERMANENT (R390). -/
def Hw.unitDead (h : Hw) (event : Nat) (u : Nat) : Hw := h.history u event 2 0 0 0 false true

/-- COLD_DONE is set once S4 and S5 have both ended (R358). S5 runs only after S4. -/
def Hw.endS4 (h : Hw) (r : StageIn) : Hw :=
  if r.flashOk = false then h.endStage bsFail brFlash
  else
    let bad := (r.units.map BitVec.toNat).foldl insNat []
    let h := bad.foldl (fun h u => h.unitDead 7 u) h
    ({ h with plu := { h.plu with scan := bad } } : Hw).endStage (passIf bad.isEmpty) 0

/-- S5: every tested memory is left filled with zeros, its banks OFF (R104, R364). -/
def Hw.endS5 (h : Hw) (r : StageIn) : Hw × List Edit :=
  let bad := (r.units.map BitVec.toNat).foldl insNat []
  let h := bad.foldl (fun h u => h.unitDead 8 u) h
  let (h, e1) := foldEff (fun h d => h.banksOff ((List.range 72).flatMap (fun j => coreBanks (72 * d + j)))) h h.plu.diesUp
  let (h, e2) := foldEff (fun h d => h.banksOff ((List.range 8).flatMap (fun c => clusBanks (8 * d + c)))) h h.plu.diesUp
  let slots := fun (k : Nat) => min 96 ((r.slots.getD k 96))
  let h := (h.setFld (Fd.HUB_PRIVMEM_STATUS.CVE_SLOTS_GOOD 0) (slots 0)).setFlag (Fd.HUB_PRIVMEM_STATUS.CVE_TESTED 0) true
  let h := (h.setFld (Fd.HUB_PRIVMEM_STATUS.CVE_SLOTS_GOOD 1) (slots 1)).setFlag (Fd.HUB_PRIVMEM_STATUS.CVE_TESTED 1) true
  let h := h.setFlag Fd.HUB_BRINGUP_STATUS.COLD_DONE true
  let h : Hw := { h with plu := { h.plu with scan := bad.foldl insNat h.plu.scan } }
  (h.endStage (passIf (bad.isEmpty && slots 0 == 96 && slots 1 == 96)) 0,
    e1 ++ e2 ++ [.clear 0 (2 ^ 32), .clear (2 ^ 32) (2 ^ 32 + 2 ^ 31)])

/-- A stage that maps units out fails when no cluster is placeable (R364, R371). -/
def Hw.endMapped (h : Hw) (st : Nat) : Hw :=
  let h := h.resources
  if h.placeables.isEmpty then h.endStage bsFail brNoCompute else h.endStage st 0

/-- S6: the defect map (R365) and PKG_RESOURCES (R15). -/
def Hw.endS6 (h : Hw) : Hw :=
  ({ h with plu := { h.plu with defects := h.plu.scan.foldl insNat h.plu.fuseBad, known := true } } : Hw).endMapped bsPass

/-- S7: bridges that do not train are mapped out (R364). -/
def Hw.endS7 (h : Hw) (r : StageIn) : Hw :=
  let up := (r.bridges.map Fin.val).foldl insNat []
  let out := (List.range 14).filter (fun b => !up.contains b)
  let h := ({ h with plu := { h.plu with bridgesOut := out } } : Hw).setTrained 1 up
  h.endMapped (passIf out.isEmpty)

/-- The links that S8 trains, and whether each has come to rest (R366). -/
def Hw.s8Links (h : Hw) : List Nat := (List.range 24).filter (fun n => h.flag (Fd.FL_CTRL.EN n) && !h.flag (Fd.FR_PORT_CFG.UNUSED n))
def Hw.s8Done (h : Hw) : Bool :=
  h.s8Links.all (fun n => h.isUp n || h.linkState n == lsMiswired || h.linkState n == lsDead)
def Hw.endS8 (h : Hw) : Hw := h.endStage (passIf (h.s8Links.all h.isUp)) 0

/-- S9: every good core of a powered die runs the known-answer programme; a core whose engine fails is PERMANENT, and a passing
run is recorded (R367, R390). -/
def Hw.endS9 (h : Hw) (r : StageIn) : Hw :=
  let bad := (r.units.map BitVec.toNat).foldl insNat []
  let cores := (List.range 576).filter (fun k => h.plu.diesUp.contains (k / 72) && h.coreGood k)
  let failed := cores.filter (fun k => bad.any (punitOfCore k))
  let h := cores.foldl (fun (h : Hw) k =>
    let us := bad.filter (punitOfCore k)
    if us.isEmpty then h.history (punitCore k) 6 (h.unitState (punitCore k)) 0 0 0 false false
    else us.foldl (fun h u => h.unitDead 5 u) h) h
  h.endMapped (passIf failed.isEmpty)

/-- S10: READY, COMPUTE where compute service exists, the collectors start, the saved Foehn setting is applied, and the idle power
is measured (R368, R371, R407). -/
def Hw.endS10 (h : Hw) : Hw :=
  let h := (h.setFlag Fd.HUB_BRINGUP_STATUS.READY true).setFlag Fd.HUB_BRINGUP_STATUS.COMPUTE h.computeOk
  let h := match h.nv.find? Reg.THM_FOEHN with
    | some v => h.setReg Reg.THM_FOEHN v
    | none => h
  let h := h.setFld Fd.PWR_IDLE.IDLE_W (h.fld Fd.PWR_STATUS.POWER_W)
  ({ h with ccl := { h.ccl with startTb := h.tb } } : Hw).endStage bsPass 0

/-- The bound of a stage in ns, cold and fast path (*Bring-up stages*). -/
def stageBound (h : Hw) (n : Nat) (fast : Bool) : Nat :=
  let ms := fun (a b : Nat) => (if fast then b else a) * 1000000
  match n with
  | 0 => ms 5000 500
  | 1 => h.fld Fd.HUB_BRINGUP_CFG.PWR_TO_MS * 1000000
  | 2 => ms 300 300
  | 3 => ms 8000 400
  | 4 => ms 12000 12000
  | 5 => ms 6000 6000
  | 6 => ms 500 200
  | 7 => ms 2000 100
  | 8 => ms 20000 800
  | 9 => ms 1200 1200
  | _ => ms 10 10

/-- Whether every unit that a stage trains has saved settings that it may use (R369). -/
def Hw.allSaved (h : Hw) (n : Nat) : Bool :=
  let has := fun (cls : Nat) (us : List Nat) => us.all (fun u => h.bring.saved.contains (64 * cls + u))
  match n with
  | 0 => has 3 (List.range 8)
  | 3 => has 0 ((List.range 16).filter (fun s => h.plu.diesUp.contains (s / 2)))
  | 7 => has 1 (List.range 14)
  | 8 => h.s8Links.all (fun l => (h.fastEntry l).isSome)
  | _ => true

/-- The bound that holds for the running stage: the fast one on a fast path, where no unit needs full training (`full`). -/
def Hw.boundNow (h : Hw) (full : Bool) : Nat :=
  let n := h.stage
  stageBound h n (h.bring.fast && !full && !(h.bring.full && (n == 3 || n == 7 || n == 8)) && h.allSaved n)

/-- Since when the running stage's bound counts, and the bound: while S1 and S3 wait for the board, PWR_TO_MS. -/
def Hw.stageLate (h : Hw) (full : Bool) : Bool :=
  if h.stage = 1 ∨ h.stage = 3 then
    match h.bring.okTb with
    | some t => decide (t + h.boundNow full < h.tb)
    | none => decide (h.bring.startTb + h.fld Fd.HUB_BRINGUP_CFG.PWR_TO_MS * 1000000 < h.tb)
  else decide (h.bring.startTb + h.boundNow full < h.tb)

/-- The running stage misses its bound: S1 and S3 drop the enable they raised while they wait (R363); S8 ends as its links
stand (R366). -/
def Hw.timeoutStage (h : Hw) : Hw :=
  if h.stage = 8 then h.endS8
  else
    let h := if h.stage = 1 then h.setFlag Fd.PKG_BOARD_STATUS.MAIN_EN false
      else if h.stage = 3 ∧ h.bring.okTb.isNone then h.setFlag Fd.PKG_BOARD_STATUS.HBM_EN false else h
    h.endStage bsFail brTimeout

/-- The running stage's work is done, with the outcome `r` that the hardware shows. S1 ends by MAIN_PWROK, S0 needs a holder of
AUTH, S3 its PWROK, and S8 links at rest. -/
def stageEndEff (r : StageIn) (h : Hw) : Hw × List Edit :=
  if h.stageState ≠ bsRunning then (h, [])
  else if h.stageLate true then (h.timeoutStage, [])
  else
    match h.stage with
    | 0 => (if h.held ∧ h.cpx.suspended.isNone = true then h.endStage bsPass 0 else h, [])
    | 2 => (h.endS2 r, [])
    | 3 => (if h.bring.okTb.isSome then h.endS3 r else h, [])
    | 4 => (h.endS4 r, [])
    | 5 => h.endS5 r
    | 6 => (h.endS6, [])
    | 7 => (h.endS7 r, [])
    | 8 => (if h.s8Done then h.endS8 else h, [])
    | 9 => (h.endS9 r, [])
    | 10 => (h.endS10, [])
    | _ => (h, [])
/-- The effect of STAGE_END. -/
def stageEff (r : StageIn) (s : State) : Eff := let (h, es) := stageEndEff r s.hw; { hw := h, edits := es }
/-- STAGE_END (R354, R364). -/
def execStageEnd (r : StageIn) (s : State) : Res := done s (stageEff r s)

/-- The running stage misses its bound; `full` says that some unit has fallen back to full training (R369). -/
def stageTimeoutHw (full : Bool) (h : Hw) : Hw :=
  if h.stageState = bsRunning ∧ h.stageLate full = true ∧ h.stage ≠ 0 then h.timeoutStage
  else if h.stageState = bsRunning ∧ h.stageLate full = true then h.endStage bsFail brTimeout
  else h
/-- STAGE_TIMEOUT (R354). -/
def execStageTimeout (full : Bool) (s : State) : Res := keep s (stageTimeoutHw full s.hw)

/-! ## TRAINING_SAVE (R257, R369) -/

/-- The training record of a link that is UP. -/
def Hw.trainRec (h : Hw) (n : Nat) : TrainRec :=
  { link := n, peerFid := h.fld (Fd.FL_PEER.FID n), peerLink := h.fld (Fd.FL_PEER.LINK n),
    lanes := (List.range 8).map (fun i => (h.fld (Fd.FL_LANE_STATUS.CTLE n i), ((h.link n).lane i).settings)) }

/-- Save the settings of the classes in a mask. -/
def Hw.saveTraining (h : Hw) (mask : Nat) : Hw :=
  let h := if bitAt mask 3 then h.setTrained 3 ((List.range 8).filter (fun n => h.flag (Fd.EP_STATUS.LINK_UP n))) else h
  let pick := h.bring.trained.filter (fun u => (u / 64 == 0 && bitAt mask 0) || (u / 64 == 1 && bitAt mask 1) ||
    (u / 64 == 3 && bitAt mask 3))
  let h : Hw := { h with bring := { h.bring with saved := pick.foldl insNat h.bring.saved } }
  if bitAt mask 2 then
    (List.range 24).foldl (fun (h : Hw) n =>
      if h.isUp n then
        { h with trainCache := h.trainCache.filter (fun e => e.link != n || e.peerFid != h.fld (Fd.FL_PEER.FID n) ||
                                 e.peerLink != h.fld (Fd.FL_PEER.LINK n)) ++ [h.trainRec n] }
      else h) h
  else h

/-- TRAINING_SAVE's own effect: the completion says whether the flash wrote. -/
def trainingSaveBody (hd : Hdr) (p0 : BitVec 32) (flashOk : Bool) (_ : State) (h : Hw) : Did :=
  if 16 ≤ p0.toNat then Did.fail h stParam
  else
    { hw := h, rep := Rep.only stAccepted,
      next := fun h =>
        ((if flashOk then h.saveTraining p0.toNat else h).finishAll
          (fun c => c.session == hd.session.toNat && c.tag == hd.tag.toNat && c.opcode == 0x0203)
          (if flashOk then stOk else stFlash) [] [], []) }
/-- The effect of TRAINING_SAVE. -/
def trainingSaveEff (hd : Hdr) (len : Nat) (p0 : BitVec 32) (flashOk : Bool) (s : State) : Eff :=
  hostCmd { opcode := 0x0203, lenOk := len == 0 } hd s (trainingSaveBody hd p0 flashOk)
/-- TRAINING_SAVE (R369). -/
def execTrainingSave (hd : Hdr) (len : Nat) (p0 : BitVec 32) (flashOk : Bool) (s : State) : Res :=
  unlessCut (.trainingSave hd len p0 flashOk) s (done s (trainingSaveEff hd len p0 flashOk s))

/-! ## Domain resets (R372–R376) -/

/-- Whether S6 has ended (R359). -/
def Hw.s6Ended (h : Hw) : Bool := decide (6 < h.stage) || (h.stage == 6 && h.stageState != bsRunning)

/-- Whether two domains overlap. -/
def Hw.domsMeet (h : Hw) (a b : Dom) : Bool :=
  (h.domCores a).any (fun k => (h.domCores b).contains k)

/-- Start the reset of a domain: what runs in a partition is aborted first. -/
def Hw.startDomain (h : Hw) (d : Dom) : Hw × List Edit :=
  let h := ((h.setFlag Fd.HUB_RESET_STATUS.BUSY true).setFld Fd.HUB_RESET_STATUS.KIND d.kind).setFld
    Fd.HUB_RESET_STATUS.UNIT d.unit
  let h : Hw := { h with doms := h.doms ++ [d] }
  let (h, es) := if d.kind = 2 then h.abortAll ((h.ctxs.filter (fun q => q.2.host.part == d.unit)).map Prod.fst) else (h, [])
  (h.domsAdvance, es)

/-- The own effect of RESET_DOMAIN of kinds 0–2. -/
def resetDomainBody (kind : Nat) (p1 : BitVec 32) (_ : State) (h : Hw) : Did :=
  let u := p1.toNat
  let bad := if kind = 2 then decide (16 ≤ u) else decide (2 ^ 11 ≤ u) || bitAt u 7 || decide (8 < u % 16)
  let d : Dom := { kind := kind, unit := u, phase := .waits }
  if bad then Did.fail h stParam
  else if h.s6Ended = false ∨ h.doms.any (h.domsMeet d) = true then Did.fail h stState
  else if (kind = 0 ∧ h.occupied (punitCore (unitCore u)) = true) ∨ (kind = 1 ∧ (h.holder (unitClus u)).isSome = true) then
    Did.fail h stCtxState
  else { hw := h, rep := Rep.only stAccepted, what := kind, aux := u, next := fun h => h.startDomain d }
/-- The effect of RESET_DOMAIN of one kind. -/
def resetDomainEff (kind : Nat) (hd : Hdr) (len : Nat) (p1 : BitVec 32) (s : State) : Eff :=
  hostCmd { opcode := 0x0202, lenOk := len == 0 } hd s (resetDomainBody kind p1)
/-- RESET_DOMAIN_CORE (R372). -/
def execResetDomainCore (hd : Hdr) (len : Nat) (p1 : BitVec 32) (s : State) : Res :=
  unlessCut (.resetDomainCore hd len p1) s (done s (resetDomainEff 0 hd len p1 s))
/-- RESET_DOMAIN_CLUSTER (R372). -/
def execResetDomainCluster (hd : Hdr) (len : Nat) (p1 : BitVec 32) (s : State) : Res :=
  unlessCut (.resetDomainCluster hd len p1) s (done s (resetDomainEff 1 hd len p1 s))
/-- RESET_DOMAIN_PARTITION (R372). -/
def execResetDomainPartition (hd : Hdr) (len : Nat) (p1 : BitVec 32) (s : State) : Res :=
  unlessCut (.resetDomainPartition hd len p1) s (done s (resetDomainEff 2 hd len p1 s))

/-- The own effect of RESET_DOMAIN of kind 3: its completion precedes the reset (R377). -/
def resetPackageBody (hd : Hdr) (p1 : BitVec 32) (s : State) (h : Hw) : Did :=
  if p1.toNat ≠ 0 then Did.fail h stParam
  else
    { hw := h, rep := Rep.only stAccepted,
      next := fun h =>
        let h := ((h.setFld Fd.HUB_RESET_STATUS.KIND 3).setFld Fd.HUB_RESET_STATUS.UNIT 0).finishAll
          (fun c => c.session == hd.session.toNat && c.tag == hd.tag.toNat && c.opcode == 0x0202) stOk [] []
        h.packageResetAll s.fuses }
/-- The effect of RESET_DOMAIN_PACKAGE. -/
def resetPackageEff (hd : Hdr) (len : Nat) (p1 : BitVec 32) (s : State) : Eff :=
  hostCmd { opcode := 0x0202, lenOk := len == 0 } hd s (resetPackageBody hd p1)
/-- RESET_DOMAIN_PACKAGE (R372, R377). -/
def execResetDomainPackage (hd : Hdr) (len : Nat) (p1 : BitVec 32) (s : State) : Res :=
  unlessCut (.resetDomainPackage hd len p1) s (done s (resetPackageEff hd len p1 s))

/-- The SUSPECT units of a domain, whose checks run as part of its reset (R390). -/
def Hw.domSuspects (h : Hw) (d : Dom) : List Nat :=
  (h.hist.units.filter (fun (p, u) => u.state == 1 &&
    ((h.domCores d).any (fun k => punitOfCore k p) || (h.domClusters d).any (fun c => punitOfClus c p)))).map Prod.fst

/-- A domain finishes its known-answer run and leaves reset (R373): `bad` are the engines and other units that fail. -/
def resetEndHw (kind : Fin 3) (unit : BitVec 12) (bad : List (BitVec 32)) (h : Hw) : Hw :=
  match h.doms.find? (fun d => d.kind == kind.val && d.unit == unit.toNat && d.phase == .kar) with
  | none => h
  | some d =>
    let bs := (bad.map BitVec.toNat).filter (fun p => (h.domCores d).any (fun k => punitOfCore k p) ||
      (h.domClusters d).any (fun c => punitOfClus c p))
    let sus := h.domSuspects d
    let h := (h.domCores d).foldl Hw.reloadUcode h
    let h := sus.foldl (fun h p => h.unitChecked p (!bs.contains p)) h
    let h := (bs.filter (fun p => !sus.contains p)).foldl (fun h p => h.unitDead 5 p) h
    let h : Hw := { h with doms := h.doms.erase d }
    let h := (h.resources).setFlag Fd.HUB_RESET_STATUS.BUSY (!h.doms.isEmpty)
    h.finishAll (fun c => c.opcode == 0x0202 && c.what == d.kind && c.aux == d.unit) stOk [] []
/-- RESET_END (R373). -/
def execResetEnd (kind : Fin 3) (unit : BitVec 12) (bad : List (BitVec 32)) (s : State) : Res :=
  keep s (resetEndHw kind unit bad s.hw)

/-! ## Power signals (R361, R363, R472–R476) -/

/-- What is kept without VAUX (R473): the NV store and the flash, with what they hold, and the fuses. The model's own counters
go on. -/
def Hw.auxLost (h : Hw) : Hw :=
  { nv := h.nv, trainCache := h.trainCache, sep := { ops := h.sep.ops, owners := h.sep.owners, cert := h.sep.cert },
    fw := { slots := h.fw.slots },
    hist := { ents := h.hist.ents, units := h.hist.units, htime := h.hist.savedHtime, savedHtime := h.hist.savedHtime },
    logs := { box := h.logs.box, boxSeq := h.logs.boxSeq }, plu := { pins := h.plu.pins }, hbm := h.hbmKept,
    thm := { halves := h.thm.savedHalves, savedHalves := h.thm.savedHalves },
    bring := { trained := h.bring.trained, saved := h.bring.saved },
    host := { nextSession := h.host.nextSession, keyPairs := h.host.keyPairs }, free := h.free, out := h.out }

/-- AUX_PWROK falls: the enables drop and the always-on domains are in reset (R473). -/
def auxFallEff (h : Hw) : Hw × List Edit :=
  if h.flag Fd.PKG_BOARD_STATUS.AUX_PWROK then (h.auxLost, [allLost]) else (h, [])
/-- The effect of AUX_PWROK_FALL. -/
def auxFallAll (s : State) : Eff := let (h, es) := auxFallEff s.hw; { hw := h, edits := es }
/-- AUX_PWROK_FALL (R473). -/
def execAuxPwrokFall (s : State) : Res := done s (auxFallAll s)

/-- The results of the privileged memory tests of a hub (R112). -/
def Hw.memTests (h : Hw) (hub : Nat) (t : MemTests) : Hw :=
  let h := (h.setFlag (Fd.HUB_PRIVMEM_STATUS.SSRAM_OK hub) t.ssram).setFlag (Fd.HUB_PRIVMEM_STATUS.CPX_MEM_OK hub) t.cpx
  (h.setFlag (Fd.HUB_PRIVMEM_STATUS.PSRAM_OK hub) t.psram).setFld (Fd.HUB_PRIVMEM_STATUS.REPAIRS_USED hub) t.repairs.toNat

/-- The complexes at S0 (R341): the preferred one, or CPX-A, boots, the other runs its self-test; a complex whose hub failed a
test, and both where no bundle verifies, are OFFLINE. -/
def Hw.complexes (h : Hw) (bundle : Bool) (ta tb : MemTests) : Hw :=
  let first := if h.fld Fd.CPX_AUTH.PREFER = 1 then 1 else 0
  let st := fun (hub : Nat) (t : MemTests) =>
    if (bundle && t.ssram && t.cpx && t.psram) = false then cxOffline else if hub = first then cxBooting else cxSelfTest
  (h.setCx 0 (st 0 ta)).setCx 1 (st 1 tb)

/-- AUX_PWROK rises (R472, R473, R475): SLOT_ID is sampled, the timebase starts from 0, and S0 starts. -/
def auxRiseHw (slot : BitVec 6) (ta tb : MemTests) (f : Fuses) (h : Hw) : Hw :=
  if h.flag Fd.PKG_BOARD_STATUS.AUX_PWROK then h
  else
    let h := (h.setFlag Fd.PKG_BOARD_STATUS.AUX_PWROK true).setFld Fd.PKG_BOARD_STATUS.SLOT_ID slot.toNat
    let h : Hw := { h with tb := 0, slew := 0 }
    let h := (h.memTests 0 ta).memTests 1 tb
    let h := h.setStage 0 bsRunning 0
    let (h, ok) := h.s0 f
    h.complexes ok ta tb
/-- AUX_PWROK_RISE (R354, R473). -/
def execAuxPwrokRise (slot : BitVec 6) (ta tb : MemTests) (s : State) : Res := keep s (auxRiseHw slot ta tb s.fuses s.hw)

/-- A PWROK that rises while its enable is low is ignored (R474). -/
def Hw.glitch (h : Hw) (sig : Nat) : Hw :=
  (h.setFlag Fd.PKG_BOARD_STATUS.PWROK_GLITCH true).logSev 3 0 logState (Config.noteData logState 0x0474 sig 0)

/-- MAIN_PWROK rises: S1 passes. -/
def mainPwrokHw (h : Hw) : Hw :=
  if h.flag Fd.PKG_BOARD_STATUS.AUX_PWROK = false ∨ h.flag Fd.PKG_BOARD_STATUS.MAIN_PWROK = true then h
  else
    let h := h.setFlag Fd.PKG_BOARD_STATUS.MAIN_PWROK true
    if h.flag Fd.PKG_BOARD_STATUS.MAIN_EN = false then h.glitch 0
    else if h.stage = 1 ∧ h.stageState = bsRunning then
      if h.stageLate false then h.timeoutStage
      else ({ h with bring := { h.bring with okTb := some h.tb } } : Hw).endStage bsPass 0
    else h
/-- MAIN_PWROK_RISE (R363, R474). -/
def execMainPwrokRise (s : State) : Res := keep s (mainPwrokHw s.hw)

/-- HBM_PWROK rises: stack training proceeds. -/
def hbmPwrokHw (h : Hw) : Hw :=
  if h.flag Fd.PKG_BOARD_STATUS.AUX_PWROK = false ∨ h.flag Fd.PKG_BOARD_STATUS.HBM_PWROK = true then h
  else
    let h := h.setFlag Fd.PKG_BOARD_STATUS.HBM_PWROK true
    if h.flag Fd.PKG_BOARD_STATUS.HBM_EN = false then h.glitch 1
    else if h.stage = 3 ∧ h.stageState = bsRunning then
      if h.stageLate false then h.timeoutStage else { h with bring := { h.bring with okTb := some h.tb } }
    else h
/-- HBM_PWROK_RISE (R363, R474). -/
def execHbmPwrokRise (s : State) : Res := keep s (hbmPwrokHw s.hw)

/-- Whether the stage that awaited a PWROK has passed: 0 S1, 1 S3 (R361). -/
def Hw.pwrPassed (h : Hw) (sig : Nat) : Bool :=
  let n := 1 + 2 * sig
  (if sig = 0 then h.flag Fd.PKG_BOARD_STATUS.MAIN_EN else h.flag Fd.PKG_BOARD_STATUS.HBM_EN) &&
    (decide (n < h.stage) || (h.stage == n && (h.stageState == bsPass || h.stageState == bsDegraded)))

/-- MAIN_PWROK (0) or HBM_PWROK (1) falls. -/
def pwrokFallEff (sig : Fin 2) (h : Hw) : Hw × List Edit :=
  let f := if sig = 0 then Fd.PKG_BOARD_STATUS.MAIN_PWROK else Fd.PKG_BOARD_STATUS.HBM_PWROK
  if h.flag f = false then (h, [])
  else
    let h := h.setFlag f false
    if h.pwrPassed sig.val then
      let (h, es) := h.mainOff ⟨dPwrokLost, leBytes 1 sig.val⟩ brLost
      (h.setFlag Fd.HUB_BRINGUP_STATUS.LOST_MAIN true, es)
    else if sig = 1 ∧ h.stage = 3 ∧ h.stageState = bsRunning then ({ h with bring := { h.bring with okTb := none } }, [])
    else (h, [])
/-- The effect of PWROK_FALL. -/
def pwrokEff (sig : Fin 2) (s : State) : Eff := let (h, es) := pwrokFallEff sig s.hw; { hw := h, edits := es }
/-- PWROK_FALL (R361). -/
def execPwrokFall (sig : Fin 2) (s : State) : Res := done s (pwrokEff sig s)

/-- The board has held PKG_RESET_N low for 10 µs (R377, R476): a package reset without a completion, held while it is low. -/
def pkgResetEff (f : Fuses) (h : Hw) : Hw × List Edit :=
  if h.flag Fd.PKG_BOARD_STATUS.AUX_PWROK = false ∨ h.board.resetPin.isSome = true then (h, [])
  else
    let (h, es) := h.packageResetAll f
    ({ h with board := { h.board with resetPin := some h.tb } }, es)
/-- The effect of PKG_RESET_N. -/
def pkgResetAll (s : State) : Eff := let (h, es) := pkgResetEff s.fuses s.hw; { hw := h, edits := es }
/-- PKG_RESET_N (R476). -/
def execPkgResetN (s : State) : Res := done s (pkgResetAll s)

/-- PKG_RESET_N is released: the package reboots into S0. -/
def pkgReleaseHw (h : Hw) : Hw :=
  if h.board.resetPin.isSome then
    { h with board := { h.board with resetPin := none }, bring := { h.bring with startTb := h.tb },
             cpx := { h.cpx with suspended := if h.held then some h.tb else none } }
  else h
/-- PKG_RESET_N_RELEASE (R377). -/
def execPkgResetNRelease (s : State) : Res := keep s (pkgReleaseHw s.hw)

end Sys2Proof.Machine
end

