-- ==== Sys2Proof/Machine/Ether.lean ====
section
/-!
DEFINITION. The Ethernet ports (R316) and time from the host networks (R32, R321). A frame is a command with what its fields say.
-/
namespace Sys2Proof.Machine

/-- Whether a port's link is up. -/
def Hw.portUp (h : Hw) (p : Nat) : Bool := h.flag (Fd.EP_STATUS.LINK_UP p)

/-- Kinds of frames that the E9 sends. -/
def frArp : Nat := 1
def frEcho : Nat := 2
def frNeighbour : Nat := 3
def frDelayReq : Nat := 4

/-- Send a frame from a port. -/
def Hw.frame (h : Hw) (port kind : Nat) (dst : Peer) (body : List Byte) : Hw :=
  { h with out := h.out ++ [.frame port kind dst body] }

/-- The global IPv6 address of a port. -/
def Hw.ipv6Of (h : Hw) (p : Nat) : Nat :=
  ((List.range 4).map (fun k => h.fld (Fd.EP_IPV6_.ADDR p k) * 2 ^ (96 - 32 * k))).foldl (· + ·) 0

/-- The MAC address of a port (R446: the base address is in the certificate), and its link-local IPv6 address. -/
def macOf (p : Nat) : Nat := (Config.macBase + p) % 2 ^ 48
def linkLocal (p : Nat) : Nat :=
  0xFE80 * 2 ^ 112 + (macOf p / 2 ^ 24 ^^^ 0x020000) * 2 ^ 40 + 0xFFFE * 2 ^ 24 + macOf p % 2 ^ 24

/-- Whether a port has an IPv4, or an IPv6, address. -/
def Hw.isIpv4 (h : Hw) (p a : Nat) : Bool := a != 0 && h.fld (Fd.EP_IPV4.ADDR p) == a
def Hw.isIpv6 (h : Hw) (p a : Nat) : Bool := a == linkLocal p || (a != 0 && h.ipv6Of p == a)

/-! ## Frames (R316) -/

/-- An ARP request for the port's IPv4 address is answered with its MAC address. -/
def arpHw (port : Fin 8) (src : Peer) (target : BitVec 32) (h : Hw) : Hw :=
  if h.portUp port.val && h.isIpv4 port.val target.toNat then h.frame port.val frArp src (beBytes 6 (macOf port.val) ++ beBytes 4 target.toNat)
  else h
/-- ARP (R316). -/
def execArp (port : Fin 8) (src : Peer) (target : BitVec 32) (s : State) : Res := keep s (arpHw port src target s.hw)

/-- An echo request is answered with its own data; `v6` says which protocol. -/
def echoHw (port : Fin 8) (src : Peer) (v6 : Bool) (dst : BitVec 128) (body : List Byte) (h : Hw) : Hw :=
  if h.portUp port.val && (if v6 then h.isIpv6 port.val dst.toNat else h.isIpv4 port.val dst.toNat) then
    h.frame port.val frEcho src body
  else h
/-- ICMP_ECHO (R316). -/
def execIcmpEcho (port : Fin 8) (src : Peer) (v6 : Bool) (dst : BitVec 128) (body : List Byte) (s : State) : Res :=
  keep s (echoHw port src v6 dst body s.hw)

/-- A neighbour solicitation for an address of the port is answered with an advertisement; other messages only inform. -/
def neighbourHw (port : Fin 8) (src : Peer) (solicit : Bool) (target : BitVec 128) (h : Hw) : Hw :=
  if h.portUp port.val && solicit && h.isIpv6 port.val target.toNat then
    h.frame port.val frNeighbour src (beBytes 6 (macOf port.val) ++ beBytes 16 target.toNat)
  else h
/-- NEIGHBOUR_DISCOVERY (R316). -/
def execNeighbourDiscovery (port : Fin 8) (src : Peer) (solicit : Bool) (target : BitVec 128) (s : State) : Res :=
  keep s (neighbourHw port src solicit target s.hw)

/-- A PFC frame pauses the priorities it names that are enabled; `quanta` are units of 512 bit times at 100 Gbit/s. -/
def pfcHw (port : Fin 8) (mask : Byte) (quanta : BitVec 16) (h : Hw) : Hw :=
  if h.portUp port.val then
    let on := (List.range 8).filter (fun p => bitAt mask.toNat p && bitAt (h.fld (Fd.EP_CFG.PFC_MASK port.val)) p)
    { h with eth := { h.eth with
        pause := on.foldl (fun (t : Tab Nat) p => t.put (8 * port.val + p) (h.tb + quanta.toNat * 512 / 100)) h.eth.pause } }
  else h
/-- PFC_PAUSE (R316). -/
def execPfcPause (port : Fin 8) (mask : Byte) (quanta : BitVec 16) (s : State) : Res := keep s (pfcHw port mask quanta s.hw)

/-- A frame outside the subset is dropped and counted. -/
def frameDropHw (port : Fin 8) (h : Hw) : Hw := if h.portUp port.val then h.satFld (Fd.EP_DROP_CNT.FRAME port.val) 1 else h
/-- FRAME_DROP (R316). -/
def execFrameDrop (port : Fin 8) (s : State) : Res := keep s (frameDropHw port s.hw)

/-! ## PTP (R32, R321) -/

/-- The plane that SRC selects: 0 A, 1 B. -/
def Hw.ptpPlane (h : Hw) : Option Nat :=
  let src := h.fld Fd.PKG_TIME_CTRL.SRC
  if src = 1 then some 0 else if src = 2 then some 1 else none

/-- The best time transmitter heard on the UP ports of the selected plane: least rank, ties to the lower port. -/
def Hw.bestTransmitter (h : Hw) : Option (Nat × Nat) :=
  match h.ptpPlane with
  | none => none
  | some pl =>
    (((h.eth.heard.filter (fun e => e.1 / 4 == pl && h.portUp e.1)).foldl
      (fun (b : Option (Nat × Nat × Nat)) e =>
        match b with
        | none => some e
        | some a => if e.2.2 < a.2.2 ∨ (e.2.2 = a.2.2 ∧ e.1 < a.1) then some e else some a) none)).map (fun e => (e.1, e.2.1))

/-- Choose the time transmitter again and show the port that carries it. -/
def Hw.chooseTime (h : Hw) : Hw :=
  let b := h.bestTransmitter
  let h := (List.range 8).foldl (fun h p => h.setFlag (Fd.EP_STATUS.PTP_SEL p) ((b.map Prod.fst) == some p)) h
  if b = h.eth.chosen then h else { h with eth := { h.eth with chosen := b, sync := none, reqTb := none } }

/-- An Announce: who sends it, and its place in the order of the best time-transmitter algorithm, best first. -/
def announceHw (port : Fin 8) (domain : Byte) (ident : BitVec 64) (rank : BitVec 128) (h : Hw) : Hw :=
  if h.portUp port.val && decide (h.fld (Fd.EP_CFG.PTP_DOMAIN port.val) = domain.toNat) then
    ({ h with eth := { h.eth with
        heard := (port.val, ident.toNat, rank.toNat) ::
          h.eth.heard.filter (fun e => !(e.1 == port.val && e.2.1 == ident.toNat)) } } : Hw).chooseTime
  else h
/-- PTP_ANNOUNCE (R321). -/
def execPtpAnnounce (port : Fin 8) (domain : Byte) (ident : BitVec 64) (rank : BitVec 128) (s : State) : Res :=
  keep s (announceHw port domain ident rank s.hw)

/-- Whether a message comes from the chosen time transmitter, in the port's domain. -/
def Hw.fromChosen (h : Hw) (port : Nat) (domain : Byte) (ident : Nat) : Bool :=
  h.portUp port && decide (h.fld (Fd.EP_CFG.PTP_DOMAIN port) = domain.toNat) && h.eth.chosen == some (port, ident)

/-- A Sync is usable: the plane is heard, and a Delay_Req goes out. -/
def Hw.usableSync (h : Hw) (port t1 t2 : Nat) : Hw :=
  ({ h with eth := { h.eth with
      sync := some (some t1, t2), reqTb := some h.tb, syncTb := h.eth.syncTb.put (port / 4) h.tb } } : Hw).frame port frDelayReq
    ⟨0, 319, Fin.ofNat 8 port⟩ []

/-- A Sync is timestamped; one of one step is usable at once. -/
def syncHw (port : Fin 8) (domain : Byte) (ident : BitVec 64) (t1 : Option (BitVec 64)) (h : Hw) : Hw :=
  if h.fromChosen port.val domain ident.toNat then
    match t1 with
    | some t => h.usableSync port.val t.toNat h.tb
    | none => { h with eth := { h.eth with sync := some (none, h.tb), reqTb := none } }
  else h
/-- PTP_SYNC (R321). -/
def execPtpSync (port : Fin 8) (domain : Byte) (ident : BitVec 64) (t1 : Option (BitVec 64)) (s : State) : Res :=
  keep s (syncHw port domain ident t1 s.hw)

/-- A Follow_Up gives the time at which a two-step Sync was sent. -/
def followUpHw (port : Fin 8) (domain : Byte) (ident t1 : BitVec 64) (h : Hw) : Hw :=
  if h.fromChosen port.val domain ident.toNat then
    match h.eth.sync with
    | some (none, t2) => h.usableSync port.val t1.toNat t2
    | _ => h
  else h
/-- PTP_FOLLOW_UP (R321). -/
def execPtpFollowUp (port : Fin 8) (domain : Byte) (ident t1 : BitVec 64) (s : State) : Res :=
  keep s (followUpHw port domain ident t1 s.hw)

/-- A Delay_Resp gives the time at which the Delay_Req arrived: the timebase is corrected by what it lags its source. -/
def delayRespHw (port : Fin 8) (domain : Byte) (ident t4 : BitVec 64) (h : Hw) : Hw :=
  if h.fromChosen port.val domain ident.toNat then
    match h.eth.sync, h.eth.reqTb with
    | some (some t1, t2), some t3 =>
      ({ h with eth := { h.eth with reqTb := none } } : Hw).correctTime
        ((((t1 : Int) - (t2 : Int)) + ((t4.toNat : Int) - (t3 : Int))) / 2)
    | _, _ => h
  else h
/-- PTP_DELAY_RESP (R31, R321). -/
def execPtpDelayResp (port : Fin 8) (domain : Byte) (ident t4 : BitVec 64) (s : State) : Res :=
  keep s (delayRespHw port domain ident t4 s.hw)

/-- No usable Sync on the selected plane for 3 s: holdover. -/
def sourceLossHw (h : Hw) : Hw :=
  match h.ptpPlane with
  | none => h
  | some pl => if h.eth.syncTb.getD pl 0 + 3000000000 ≤ h.tb then h.holdover else h
/-- PTP_SOURCE_LOSS (R321). -/
def execPtpSourceLoss (s : State) : Res := keep s (sourceLossHw s.hw)

/-! ## The PHY (R316) -/

/-- A port's link comes up at 100 Gbit/s. -/
def epUpHw (port : Fin 8) (h : Hw) : Hw :=
  if h.flag Fd.PKG_BOARD_STATUS.AUX_PWROK && !h.portUp port.val then
    ((h.setFlag (Fd.EP_STATUS.LINK_UP port.val) true).logNote logState 0x0120 port.val 1).chooseTime
  else h
/-- EP_LINK_UP (R316). -/
def execEpLinkUp (port : Fin 8) (s : State) : Res := keep s (epUpHw port s.hw)

/-- A port's link goes down. -/
def epDownHw (port : Fin 8) (h : Hw) : Hw :=
  if h.portUp port.val then
    ((h.setFlag (Fd.EP_STATUS.LINK_UP port.val) false).logNote logState 0x0120 port.val 0).chooseTime
  else h
/-- EP_LINK_DOWN (R316). -/
def execEpLinkDown (port : Fin 8) (s : State) : Res := keep s (epDownHw port s.hw)

end Sys2Proof.Machine
end

