-- ==== Sys2Proof/Machine/Power.lean ====
section
/-!
DEFINITION. Power, caps and pace (17_power_thermal.md): the commands of the host, the samples, the coordinator, pace agreements
and the trigger input (R397–R408, R471, R477).
-/
namespace Sys2Proof.Machine

/-! ## Caps (R403, R471) -/

/-- The effective cap is the minimum of the three. -/
def Hw.setEff (h : Hw) : Hw :=
  h.setFld Fd.PWR_CAP.EFF_CAP_W
    (min (h.fld Fd.PWR_CAP.HOST_CAP_W) (min (h.fld Fd.PWR_BOARD.BOARD_CAP_W) (h.fld Fd.PWR_BOARD.INTERNAL_W)))

/-- A cap order: 0 releases it, which reads as 4,800. -/
def capValue (w : Nat) : Nat := if w = 0 then 4800 else w

/-- Whether a cap order is in range. -/
def capOk (w : Nat) : Bool := w == 0 || (decide (1500 ≤ w) && decide (w ≤ 4800))

/-- POWER_CAP_SET's own effect: the order is logged. -/
def powerCapBody (p0 : BitVec 32) (_ : State) (h : Hw) : Did :=
  if capOk p0.toNat = false then Did.fail h stParam
  else
    let w := capValue p0.toNat
    let h := ((h.setFld Fd.PWR_CAP.HOST_CAP_W w).setEff).logNote logOrder 0x0600 p0.toNat 0
    { hw := { h with nv := h.nv.put Reg.PWR_CAP (BitVec.ofNat 32 (w * 2 ^ 16)) },
      rep := { status := stOk, p := [h.fld Fd.PWR_CAP.EFF_CAP_W] } }
/-- The effect of POWER_CAP_SET. -/
def powerCapEff (hd : Hdr) (len : Nat) (p0 : BitVec 32) (s : State) : Eff :=
  hostCmd { opcode := 0x0600, lenOk := len == 0 } hd s (powerCapBody p0)
/-- POWER_CAP_SET (R403). -/
def execPowerCapSet (hd : Hdr) (len : Nat) (p0 : BitVec 32) (s : State) : Res :=
  unlessCut (.powerCapSet hd len p0) s (done s (powerCapEff hd len p0 s))

/-! ## Pace and its modes (R399–R401, R477) -/

/-- The dies of a mask. -/
def maskDies (m : Nat) : List Nat := (List.range 8).filter (fun d => bitAt m d)

/-- The status of a command over dies of a mask, before its own effect: a mask beyond the 8 dies, or a die without power. -/
def Hw.maskStatus (h : Hw) (m : Nat) : Option Nat :=
  if 256 ≤ m then some stParam
  else if (maskDies m).all (fun d => h.plu.diesUp.contains d) then none else some stReset

/-- Whether changes of limits 0x0 and 0x1 wait for a trigger edge. -/
def Hw.paceWaits (h : Hw) : Bool := h.flag Fd.PKG_TRIG_CTRL.PACE_EPOCH

/-- Set the PACE_SET value of a die, at the nearer end of its range, at once or at the next edge. -/
def Hw.setDiePace (h : Hw) (d v : Nat) : Hw :=
  let v := clampTo 10 (if h.pwr.fixed.contains d then 1880 else 2000) v
  if h.paceWaits then { h with pwr := { h.pwr with waitPace := h.pwr.waitPace.put d v } }
  else h.setFld (Fd.PWR_DIE_PACE.PROG_MSTEPS d) v

/-- PACE_SET's own effect. -/
def paceSetBody (p0 p1 : BitVec 32) (_ : State) (h : Hw) : Did :=
  let ds := maskDies p1.toNat
  if p0.toNat < 10 ∨ 2000 < p0.toNat then Did.fail h stParam
  else
    match h.maskStatus p1.toNat with
    | some st => Did.fail h st
    | none =>
      if 1880 < p0.toNat ∧ ds.any (fun d => h.pwr.fixed.contains d) = true then Did.fail h stParam
      else
        { hw := ((ds.foldl (fun h d => h.setDiePace d p0.toNat) h).repace).logNote logOrder 0x0601 p0.toNat p1.toNat,
          rep := Rep.only stOk }
/-- The effect of PACE_SET. -/
def paceSetEff (hd : Hdr) (len : Nat) (p0 p1 : BitVec 32) (s : State) : Eff :=
  hostCmd { opcode := 0x0601, lenOk := len == 0 } hd s (paceSetBody p0 p1)
/-- PACE_SET (R400). -/
def execPaceSet (hd : Hdr) (len : Nat) (p0 p1 : BitVec 32) (s : State) : Res :=
  unlessCut (.paceSet hd len p0 p1) s (done s (paceSetEff hd len p0 p1 s))

/-- Change the mode of a die; FIXED holds the die's value at 1,880 (PWR_DIE_PACE). -/
def Hw.setPaceMode (h : Hw) (fixed : Bool) (d : Nat) : Hw :=
  let h : Hw := { h with pwr := { h.pwr with
    fixed := if fixed then insNat h.pwr.fixed d else h.pwr.fixed.filter (fun e => e != d) } }
  if fixed then h.setFld (Fd.PWR_DIE_PACE.PROG_MSTEPS d) (min 1880 (h.fld (Fd.PWR_DIE_PACE.PROG_MSTEPS d))) else h

/-- PACE_MODE's own effect for modes 0 and 1. -/
def paceModeBody (fixed : Bool) (p1 : BitVec 32) (_ : State) (h : Hw) : Did :=
  match h.maskStatus p1.toNat with
  | some st => Did.fail h st
  | none =>
    { hw := (((maskDies p1.toNat).foldl (fun h d => h.setPaceMode fixed d) h).repace).logNote logOrder 0x0602 fixed.toNat p1.toNat,
      rep := Rep.only stOk }
/-- The effect of PACE_MODE 0 and 1. -/
def paceModeEff (fixed : Bool) (hd : Hdr) (len : Nat) (p1 : BitVec 32) (s : State) : Eff :=
  hostCmd { opcode := 0x0602, lenOk := len == 0 } hd s (paceModeBody fixed p1)
/-- PACE_MODE_FREE (R399). -/
def execPaceModeFree (hd : Hdr) (len : Nat) (p1 : BitVec 32) (s : State) : Res :=
  unlessCut (.paceModeFree hd len p1) s (done s (paceModeEff false hd len p1 s))
/-- PACE_MODE_FIXED (R399). -/
def execPaceModeFixed (hd : Hdr) (len : Nat) (p1 : BitVec 32) (s : State) : Res :=
  unlessCut (.paceModeFixed hd len p1) s (done s (paceModeEff true hd len p1 s))

/-! ## Pace agreement (R401, R402) -/

/-- Change agreement `n` where it runs. -/
def Hw.modAgree (h : Hw) (n : Nat) (f : Agree → Agree) : Hw :=
  { h with pwr := { h.pwr with agrees := h.pwr.agrees.mod n f } }

/-- The agreement of a group entry. -/
def Hw.agreeFor (h : Hw) (g : Nat) : Option (Nat × Agree) := List.find? (fun (q : Nat × Agree) => q.2.grp == g) h.pwr.agrees

/-- Start an agreement in the lowest free place. -/
def Hw.agreeStart (h : Hw) (g : Nat) : Option Hw :=
  match (List.range 8).find? (fun n => (h.pwr.agrees.find? n).isNone) with
  | none => none
  | some n =>
    let h := h.setReg (Reg.PWR_AGREE n) (BitVec.ofNat 32 (2 ^ 31 + g))
    some ({ h with pwr := { h.pwr with agrees := h.pwr.agrees.put n { grp := g, roundTb := h.tb, lapTb := h.tb } } } : Hw).repace

/-- PACE_MODE's own effect for mode 2. -/
def agreeStartBody (p1 : BitVec 32) (_ : State) (h : Hw) : Did :=
  let g := p1.toNat
  if 1024 ≤ g then Did.fail h stParam
  else if h.groupLive g = false then Did.fail h stState
  else if (h.agreeFor g).isSome then { hw := h, rep := Rep.only stOk }
  else
    match h.agreeStart g with
    | none => Did.fail h stState
    | some h => { hw := h.logNote logOrder 0x0602 2 g, rep := Rep.only stOk }
/-- The effect of PACE_MODE 2. -/
def agreeStartEff (hd : Hdr) (len : Nat) (p1 : BitVec 32) (s : State) : Eff :=
  hostCmd { opcode := 0x0602, lenOk := len == 0 } hd s (agreeStartBody p1)
/-- PACE_AGREEMENT_START (R401). -/
def execPaceAgreementStart (hd : Hdr) (len : Nat) (p1 : BitVec 32) (s : State) : Res :=
  unlessCut (.paceAgreementStart hd len p1) s (done s (agreeStartEff hd len p1 s))

/-- PACE_MODE's own effect for mode 3. -/
def agreeStopBody (p1 : BitVec 32) (_ : State) (h : Hw) : Did :=
  let g := p1.toNat
  if 1024 ≤ g then Did.fail h stParam
  else if h.groupLive g = false then Did.fail h stState
  else
    match h.agreeFor g with
    | none => { hw := h, rep := Rep.only stOk }
    | some (n, _) =>
      let h := h.setReg (Reg.PWR_AGREE n) 0
      let h : Hw := { h with pwr := { h.pwr with agrees := h.pwr.agrees.drop n, waitAgree := h.pwr.waitAgree.drop n } }
      { hw := h.repace.logNote logOrder 0x0602 3 g, rep := Rep.only stOk }
/-- The effect of PACE_MODE 3. -/
def agreeStopEff (hd : Hdr) (len : Nat) (p1 : BitVec 32) (s : State) : Eff :=
  hostCmd { opcode := 0x0602, lenOk := len == 0 } hd s (agreeStopBody p1)
/-- PACE_AGREEMENT_STOP (R401). -/
def execPaceAgreementStop (hd : Hdr) (len : Nat) (p1 : BitVec 32) (s : State) : Res :=
  unlessCut (.paceAgreementStop hd len p1) s (done s (agreeStopEff hd len p1 s))

/-- *PACE payload*. -/
def pacePayload (gid gen lap round pace low : Nat) : List Byte :=
  beBytes 2 gid ++ beBytes 1 gen ++ beBytes 1 lap ++ beBytes 4 round ++ beBytes 2 pace ++ beBytes 2 low ++ List.replicate 4 0

/-- Send a PACE packet to the member at a ring index. -/
def Hw.sendPace (h : Hw) (g : Nat) (k lap round pace low : Nat) : Hw :=
  h.inject h.holderHub (h.packet (h.groupMember g k) 0 0x02 0
    (pacePayload (h.fld (Fd.CVE_GRP_W0.GID g)) (h.fld (Fd.CVE_GRP_W1.GEN g)) lap round pace low))

/-- Lap 1 has brought the agreed pace: it applies at once, or at the next edge (R477). -/
def Hw.agreed (h : Hw) (n pace : Nat) : Hw :=
  let h := (h.modAgree n (fun a => { a with lapTb := h.tb })).setFlag (Fd.PWR_AGREE.AGREE_LOST n) false
  if pace = 0xFFFF then h
  else if h.paceWaits then { h with pwr := { h.pwr with waitAgree := h.pwr.waitAgree.put n pace } }
  else ((h.modAgree n (fun a => { a with agreed := some pace })).setFld (Fd.PWR_AGREE.PACE_MSTEPS n) pace).repace

/-- The offer that a member puts into a packet: the lower pace with its ring index. -/
def offerInto (o : Option Nat) (me pace low : Nat) : Nat × Nat :=
  match o with
  | some v => if v < pace then (v, me) else (pace, low)
  | none => (pace, low)

/-- A member has added its offer: the last one turns the packet into lap 1. -/
def Hw.paceForward (h : Hw) (n : Nat) (a : Agree) (round pace low : Nat) : Hw :=
  let me := h.fld (Fd.CVE_GRP_W2.MY_INDEX a.grp)
  let m := h.fld (Fd.CVE_GRP_W2.M a.grp)
  if me + 1 < m then h.sendPace a.grp (me + 1) 0 round pace low
  else if m ≤ 1 then (h.modAgree n (fun a => { a with back := true })).agreed n pace
  else (h.agreed n pace).sendPace a.grp 0 1 round pace low

/-- Index 0 starts a round of agreement `n` every 1 ms or when the previous one has returned, and after 10 ms in any case. -/
def paceRoundHw (n : Fin 8) (h : Hw) : Hw :=
  match h.pwr.agrees.find? n.val with
  | none => h
  | some a =>
    if h.held = true ∧ h.groupLive a.grp = true ∧ h.fld (Fd.CVE_GRP_W2.MY_INDEX a.grp) = 0 ∧
        ((a.back = true ∧ a.roundTb + 1000000 ≤ h.tb) ∨ a.roundTb + 10000000 ≤ h.tb) then
      let r := (a.round + 1) % 2 ^ 32
      let h := h.modAgree n.val (fun a => { a with round := r, roundTb := h.tb, back := false })
      let (p, low) := offerInto (h.offer a) 0 0xFFFF 0
      h.paceForward n.val a r p low
    else h
/-- PACE_ROUND_START (R402). -/
def execPaceRoundStart (n : Fin 8) (s : State) : Res := keep s (paceRoundHw n s.hw)

/-- The agreement that a PACE payload belongs to: its GID and GEN match the entry. -/
def Hw.agreeOfPace (h : Hw) (gid gen : Nat) : Option (Nat × Agree) :=
  List.find? (fun (q : Nat × Agree) => h.groupLive q.2.grp && h.fld (Fd.CVE_GRP_W0.GID q.2.grp) == gid &&
    h.fld (Fd.CVE_GRP_W1.GEN q.2.grp) == gen) h.pwr.agrees

/-- A PACE packet arrives. -/
def Hw.paceIn (h : Hw) (pl : List Byte) : Hw :=
  let g := fun (a k : Nat) => beNat ((pl.drop a).take k)
  match h.agreeOfPace (g 0 2) (g 2 1) with
  | none => h
  | some (n, a) =>
    let me := h.fld (Fd.CVE_GRP_W2.MY_INDEX a.grp)
    let m := h.fld (Fd.CVE_GRP_W2.M a.grp)
    let (round, pace, low) := (g 4 4, g 8 2, g 10 2)
    if g 3 1 = 0 then
      let (p, l) := offerInto (h.offer a) me pace low
      h.paceForward n a round p l
    else if g 3 1 = 1 then
      let h := if me = 0 ∧ round = a.round then h.modAgree n (fun a => { a with back := true }) else h
      let h := h.agreed n pace
      if me + 2 < m then h.sendPace a.grp (me + 1) 1 round pace low else h
    else h
/-- The oldest delivered PACE packet arrives. -/
def paceReceiveHw (h : Hw) : Hw := h.onDelivered (fun p => p.ptype == 0x02) (fun d h => h.paceIn d.p.payload)
/-- PACE_RECEIVE (R402). -/
def execPaceReceive (s : State) : Res := keep s (paceReceiveHw s.hw)

/-- No lap 1 for 20 ms: the last agreed pace is held. -/
def agreeLostHw (n : Fin 8) (h : Hw) : Hw :=
  match h.pwr.agrees.find? n.val with
  | some a => if a.lapTb + 20000000 ≤ h.tb then h.setFlag (Fd.PWR_AGREE.AGREE_LOST n.val) true else h
  | none => h
/-- AGREE_LOST (R402). -/
def execAgreeLost (n : Fin 8) (s : State) : Res := keep s (agreeLostHw n s.hw)

/-! ## The trigger input (R477) -/

/-- Apply what waits for the edge. -/
def Hw.applyWaits (h : Hw) : Hw :=
  let h := h.pwr.waitPace.foldl (fun h (d, v) =>
    h.setFld (Fd.PWR_DIE_PACE.PROG_MSTEPS d) (min v (if h.pwr.fixed.contains d then 1880 else 2000))) h
  let h := h.pwr.waitAgree.foldl (fun h (n, v) =>
    (h.modAgree n (fun a => { a with agreed := some v })).setFld (Fd.PWR_AGREE.PACE_MSTEPS n) v) h
  ({ h with pwr := { h.pwr with waitPace := [], waitAgree := [] } } : Hw).repace

/-- A rising edge of TRIG_IO. -/
def trigHw (h : Hw) : Hw :=
  if h.flag Fd.PKG_BOARD_STATUS.AUX_PWROK = false then h
  else if h.paceWaits then h.applyWaits
  else if h.flag Fd.PKG_TRIG_CTRL.CAPTURE then
    ((h.setFld Fd.PKG_TRIG_TB_LO.TB_LO h.tb).setFld Fd.PKG_TRIG_TB_HI.TB_HI (h.tb / 2 ^ 32)).setFlag
      Fd.PKG_TRIG_CTRL.CAPTURED true
  else h
/-- TRIG_IO_EDGE (R477). -/
def execTrigIoEdge (s : State) : Res := keep s (trigHw s.hw)

/-! ## Main power (R406) -/

/-- An authority holds main power OFF. -/
def Hw.holdOff (h : Hw) (f : Fld) : Hw × List Edit :=
  let h := h.setFlag f true
  h.mainOff ⟨dPowerOff, leBytes 1 2⟩ brHeld

/-- MAIN_POWER 0's own effect: the order is logged. -/
def mainOffBody (_ : State) (h : Hw) : Did :=
  let (h, es) := (h.logNote logOrder 0x0605 0 0).holdOff Fd.PWR_STATUS.OFF_HOST
  { hw := h, rep := Rep.only stOk, edits := es }
/-- The effect of MAIN_POWER_OFF. -/
def mainPowerOffEff (hd : Hdr) (len : Nat) (s : State) : Eff := hostCmd { opcode := 0x0605, lenOk := len == 0 } hd s mainOffBody
/-- MAIN_POWER_OFF (R406). -/
def execMainPowerOff (hd : Hdr) (len : Nat) (s : State) : Res := unlessCut (.mainPowerOff hd len) s (done s (mainPowerOffEff hd len s))

/-- MAIN_POWER 1's own effect: a release without a hold has no effect. -/
def mainReleaseBody (_ : State) (h : Hw) : Did :=
  { hw := if h.flag Fd.PWR_STATUS.OFF_HOST then (h.setFlag Fd.PWR_STATUS.OFF_HOST false).logNote logOrder 0x0605 1 0 else h,
    rep := Rep.only stOk }
/-- The effect of MAIN_POWER_RELEASE. -/
def mainReleaseEff (hd : Hdr) (len : Nat) (s : State) : Eff := hostCmd { opcode := 0x0605, lenOk := len == 0 } hd s mainReleaseBody
/-- MAIN_POWER_RELEASE (R406). -/
def execMainPowerRelease (hd : Hdr) (len : Nat) (s : State) : Res :=
  unlessCut (.mainPowerRelease hd len) s (done s (mainReleaseEff hd len s))

/-! ## Samples and the fast limiter (R397, R405, R408) -/

/-- The average of the newest `n` samples, in W. -/
def Hw.avgPower (h : Hw) (n : Nat) : Nat :=
  let l := h.pwr.samples.take n
  l.foldl (· + ·) 0 / max 1 l.length

/-- The clusters of the powered dies. -/
def Hw.liveClusters (h : Hw) : List Nat := (List.range 64).filter (fun c => h.plu.diesUp.contains (c / 8))

/-- The fast limiter: an expired limit ends, and a 100 µs average 10% above the cap lowers every pace by a quarter for 1 ms. -/
def Hw.fastLimit (h : Hw) : Hw :=
  let kept := h.pwr.fast.filter (fun q => decide (h.tb < q.2.2))
  let excess := decide (11 * h.fld Fd.PWR_CAP.EFF_CAP_W < 10 * h.avgPower 10) && kept.isEmpty
  if excess then
    let cs := h.liveClusters
    let t : Tab (Nat × Nat) := cs.map (fun c => (c, h.progOf c * 3 / 4 / 10 * 10, h.tb + 1000000))
    let h1 := (({ h with pwr := { h.pwr with fast := t } } : Hw).setFlag Fd.PWR_STATUS.FAST_LIMIT true).repace
    if cs.isEmpty then h1 else h1.protect h 0x27 0xFF
  else if kept == h.pwr.fast then h
  else ({ h with pwr := { h.pwr with fast := kept } } : Hw).repace

/-- A sample of package power, every 10 µs: the averages, the energy, and the fast limiter. -/
def powerSampleHw (w : Nat) (h : Hw) : Hw :=
  if h.flag Fd.PKG_BOARD_STATUS.AUX_PWROK = false ∨ h.tb < h.pwr.sampleTb + 10000 then h
  else
    let e := (h.fld Fd.PWR_ENERGY_LO.UJ_LO + 2 ^ 32 * h.fld Fd.PWR_ENERGY_HI.UJ_HI) + 10 * w
    let h : Hw := { h with pwr := { h.pwr with samples := (w :: h.pwr.samples).take 100000, sampleTb := h.tb } }
    let h := (h.setFld Fd.PWR_ENERGY_LO.UJ_LO e).setFld Fd.PWR_ENERGY_HI.UJ_HI (e / 2 ^ 32)
    ((h.setFld Fd.PWR_STATUS.POWER_W (min 65535 (h.avgPower 1000))).protLog).fastLimit
/-- POWER_SAMPLE (R397, R405, R408). -/
def execPowerSample (w : BitVec 16) (s : State) : Res := keep s (powerSampleHw w.toNat s.hw)

/-! ## The coordinator (R404) -/

/-- The clusters bound to a context, on powered dies. -/
def Hw.boundClusters (h : Hw) : List Nat := h.liveClusters.filter (fun c => (h.holder c).isSome)

/-- Whether a class can still be reduced (*Class reductions*): 3 the heat load, 0 compute, 1 memory, 2 links (TC3, then TC2). -/
def Hw.canCut (h : Hw) (cls : Nat) : Bool :=
  if cls = 3 then !h.thm.foehnPace.isEmpty
  else if cls = 0 then h.boundClusters.any (fun c => decide (h.fld Fd.PWR_PRIO.COMPUTE_FLOOR < h.progOf c))
  else if cls = 1 then decide (h.pwr.steps.count 1 < 5)
  else decide (h.pwr.steps.count 2 < 10)

/-- The order of the classes. -/
def Hw.cutOrder (h : Hw) : List Nat :=
  [3, h.fld Fd.PWR_PRIO.FIRST, h.fld Fd.PWR_PRIO.SECOND, h.fld Fd.PWR_PRIO.THIRD]

/-- The bits of PWR_STATUS that show what is reduced. -/
def Hw.showCuts (h : Hw) : Hw :=
  ((h.setFlag Fd.PWR_STATUS.COMPUTE_CUT (h.pwr.steps.contains 0)).setFlag Fd.PWR_STATUS.MEMORY_CUT (h.pwr.steps.contains 1)).setFlag
    Fd.PWR_STATUS.LINKS_CUT (h.pwr.steps.contains 2)

/-- Reduce a class by one step. -/
def Hw.cut (h : Hw) (cls : Nat) : Hw :=
  let h0 := h
  let lim := if cls = 0 then
      h.boundClusters.foldl (fun (t : Tab Nat) c =>
        if h.fld Fd.PWR_PRIO.COMPUTE_FLOOR < h.progOf c then
          t.put c (max (h.fld Fd.PWR_PRIO.COMPUTE_FLOOR) (h.progOf c - 10))
        else t) h.pwr.capLim
    else h.pwr.capLim
  let h : Hw := { h with pwr := { h.pwr with steps := cls :: h.pwr.steps, capLim := lim } }
  let h := h.foehnStop.repace.showCuts
  if h0.pwr.steps.isEmpty then h.protect h0 0x22 0xFF else h

/-- Undo the newest step. -/
def Hw.uncut (h : Hw) : Hw :=
  match h.pwr.steps with
  | [] => h
  | cls :: rest =>
    let lim : Tab Nat := if cls = 0 then (if rest.contains 0 then h.pwr.capLim.map (fun q => (q.1, q.2 + 10)) else [])
      else h.pwr.capLim
    ({ h with pwr := { h.pwr with steps := rest, capLim := lim, undoTb := h.tb } } : Hw).repace.showCuts

/-- One action of the coordinator against the cap. -/
def Hw.coordinate (h : Hw) : Hw :=
  let cap := h.fld Fd.PWR_CAP.EFF_CAP_W
  let avg := h.avgPower 1000
  if cap < avg then
    match h.cutOrder.find? h.canCut with
    | some cls => h.cut cls
    | none =>
      if h.flag Fd.PWR_STATUS.CAP_UNMET then h else (h.setFlag Fd.PWR_STATUS.CAP_UNMET true).thermal 0x0A 0xFF 0
  else
    let h := h.setFlag Fd.PWR_STATUS.CAP_UNMET false
    if avg * 100 < 95 * cap ∧ h.pwr.undoTb + 10000000 ≤ h.tb then h.uncut else h

/-- The internal limit (R471), from VIN48 in mV and the power of the HBM rails in W, as 10 ms averages. -/
def internalLimit (mv hbm : Nat) : Nat := min 4800 (min 4000 (84 * mv / 1000) + hbm)

/-- The coordinator acts, every 1 ms while a complex holds AUTH. -/
def coordinatorHw (mv hbm : Nat) (h : Hw) : Hw :=
  if h.held = false ∨ h.tb < h.pwr.coordTb + 1000000 then h
  else
    let h : Hw := { h with pwr := { h.pwr with coordTb := h.tb } }
    let h := if h.pwr.intTb + 10000000 ≤ h.tb then
        ((({ h with pwr := { h.pwr with intTb := h.tb } } : Hw).setFld Fd.PWR_BOARD.INTERNAL_W (internalLimit mv hbm)).setEff)
      else h
    h.coordinate
/-- COORDINATOR_TICK (R404, R471). -/
def execCoordinatorTick (mv hbm : BitVec 16) (s : State) : Res := keep s (coordinatorHw mv.toNat hbm.toNat s.hw)

/-! ## The canary and droop (R26, R27) -/

/-- The pace limiter of a cluster reads the speed canary, every 1 µs. -/
def canaryHw (c : Fin 64) (v : Nat) (h : Hw) : Hw :=
  if h.plu.diesUp.contains (c.val / 8) = false ∨ h.tb < (h.clusOf c.val).canaryTb + 1000 then h
  else
    ((h.modClus c.val (fun x => { x with canaryTb := h.tb })).setFld (Fd.PWR_CL_PACE.NATURAL_MSTEPS c.val) (min 2047 v)).reissue c.val
/-- CANARY_READ (R27). -/
def execCanaryRead (c : Fin 64) (v : BitVec 16) (s : State) : Res := keep s (canaryHw c v.toNat s.hw)

/-- A droop detector stretches its island's clock; the stretch is counted. -/
def droopHw (i : BitVec 8) (h : Hw) : Hw :=
  if h.flag Fd.PKG_BOARD_STATUS.AUX_PWROK = false ∨ h.board.droop.contains i.toNat = true then h
  else ({ h with board := { h.board with droop := insNat h.board.droop i.toNat } } : Hw).satFld Fd.PWR_DROOP.STRETCH_CNT 1
/-- DROOP_DETECT (R26). -/
def execDroopDetect (i : BitVec 8) (s : State) : Res := keep s (droopHw i s.hw)

/-- The supply recovers and the stretch ends. -/
def droopEndHw (i : BitVec 8) (h : Hw) : Hw :=
  { h with board := { h.board with droop := h.board.droop.filter (fun j => j != i.toNat) } }
/-- DROOP_RECOVERY (R26). -/
def execDroopRecovery (i : BitVec 8) (s : State) : Res := keep s (droopEndHw i s.hw)

end Sys2Proof.Machine
end

