-- ==== Sys2Proof/Machine/Thermal.lean ====
section
/-!
DEFINITION. Cooling (R125–R127, R409–R418): the sensors and their rules, the thermal responses, the pace gate, flow and inlet
warnings, Foehn mode, thermal cycles, the temperatures of the stacks, and the sensor record.
-/
namespace Sys2Proof.Machine

/-! ## Sensor rules (R411) -/

/-- Whether a reading is a valid answer. -/
def validTemp (v : Option Int) : Option Int :=
  match v with
  | some r => if -400 ≤ r ∧ r ≤ 1500 then some r else none
  | none => none

/-- Judge one reading: no valid answer 3 times running, a reading below the lowest plausible one, and, for a hot-spot diode with
the estimated power of its cluster, a reading that does not follow the power. A failed sensor stays failed. -/
def Sensor.judge (x : Sensor) (tb : Nat) (v : Option Int) (low : Option Int) (pow : Option Nat) : Sensor :=
  if x.failed ≠ 0 then x
  else
    match validTemp v with
    | none => { x with bad := x.bad + 1, failed := if 3 ≤ x.bad + 1 then 1 else 0 }
    | some r =>
      let p := pow.getD 0
      let x := if x.last.isNone ∨ 5 ≤ (r - x.still).natAbs then { x with still := r, stillTb := tb, stillPow := p } else x
      let x := { x with last := some r, bad := 0 }
      if (match low with | some l => decide (r < l) | none => false) then { x with failed := 2 }
      else if pow.isSome ∧ x.stillTb + 10000000000 ≤ tb ∧ x.stillPow < 10 * (max p x.stillPow - min p x.stillPow) then
        { x with failed := 3 }
      else x

/-- The reading of a sensor that has not failed. -/
def Sensor.reading (x : Sensor) : Option Int := if x.failed = 0 then x.last else none

/-- Judge a pair: more than 6 K apart for more than 1 s it is SUSPECT, until it has agreed within 2 K for 60 s. -/
def Pair.judge (p : Pair) (tb : Nat) : Pair :=
  match p.a.reading, p.b.reading with
  | some a, some b =>
    let d := (a - b).natAbs
    let diff := if 60 < d then some (p.diffTb.getD tb) else none
    let agree := if d ≤ 20 then some (p.agreeTb.getD tb) else none
    let late := match diff with | some t => decide (t + 1000000000 < tb) | none => false
    let clear := match agree with | some t => decide (t + 60000000000 ≤ tb) | none => false
    { p with diffTb := diff, agreeTb := agree, suspect := late || (p.suspect && !clear) }
  | _, _ => { p with diffTb := none, agreeTb := none }

/-- The temperature of a cluster: the higher valid reading of its pair; beside a FAILED_LOW diode the other one reads 5 K higher. -/
def Pair.temp (p : Pair) : Option Int :=
  match p.a.reading, p.b.reading with
  | some a, some b => some (max a b)
  | some a, none => some (if p.b.failed = 2 then a + 50 else a)
  | none, some b => some (if p.a.failed = 2 then b + 50 else b)
  | none, none => none

/-- Whether a cluster is held at SAFE_PACE. -/
def Pair.safe (p : Pair) : Bool :=
  (p.suspect && p.a.failed == 0 && p.b.failed == 0) || (p.a.failed != 0 && p.b.failed != 0)

/-! ## Temperatures (R409) -/

/-- The pair of cluster `c`, and die sensor `k` of a die. -/
def Hw.pair (h : Hw) (c : Nat) : Pair := h.thm.pairs.getD c {}
def Hw.dieSensor (h : Hw) (d k : Nat) : Sensor := h.thm.dieS.getD (8 * d + k) {}

/-- The inlet value where an inlet sensor reads, and the outlet value. -/
def Hw.inlet (h : Hw) : Option Int :=
  match (h.thm.cool.getD 0 {}).reading, (h.thm.cool.getD 1 {}).reading with
  | some a, some b => some (min a b)
  | some a, none => some a
  | none, b => b
def Hw.outlet (h : Hw) : Option Int :=
  match (h.thm.cool.getD 2 {}).reading, (h.thm.cool.getD 3 {}).reading with
  | some a, some b => some (max a b)
  | some a, none => some a
  | none, b => b

/-- The lowest plausible reading of a cluster whose estimated power is `w` W: the inlet less 2 °C, and the model bound. -/
def Hw.lowBound (h : Hw) (w : Nat) : Option Int := h.inlet.map (fun i => max (i - 20) (i + (5 * w / 2 : Nat)))

/-- The pair of a cluster after a sample. -/
def Hw.judgePair (h : Hw) (c : Nat) (a b : Option Int) (w : Nat) : Pair :=
  let p := h.pair c
  Pair.judge { p with a := p.a.judge h.tb a (h.lowBound w) (some w), b := p.b.judge h.tb b (h.lowBound w) (some w) } h.tb

/-- Take the readings of a die into its sensors. -/
def Hw.takeReadings (h : Hw) (d : Nat) (r : SensorIn) : Hw :=
  let pairs := (List.range 8).foldl (fun (t : Tab Pair) c =>
    t.put (8 * d + c) (h.judgePair (8 * d + c) (r.diodes.getD (2 * c) none) (r.diodes.getD (2 * c + 1) none) (r.power.getD c 0)))
    h.thm.pairs
  let dieS := (List.range 8).foldl (fun (t : Tab Sensor) k =>
    t.put (8 * d + k) ((h.dieSensor d k).judge h.tb (r.dies.getD k none) (h.inlet.map (fun i => i - 20)) none)) h.thm.dieS
  { h with thm := { h.thm with pairs := pairs, dieS := dieS } }

/-- A mask of the indexes below `n` that satisfy a test. -/
def maskOf (n : Nat) (f : Nat → Bool) : Nat := ((List.range n).map (fun i => if f i then 2 ^ i else 0)).foldl (· + ·) 0

/-- Show what the rules found in the registers of a die. -/
def Hw.showSensors (h : Hw) (d : Nat) : Hw :=
  let h := h.setFld (Fd.THM_SENSOR_STATE.PAIR_SUSPECT d) (maskOf 8 (fun c => (h.pair (8 * d + c)).suspect))
  let h := h.setFld (Fd.THM_SENSOR_STATE.SAFE d) (maskOf 8 (fun c => (h.pair (8 * d + c)).safe))
  let h := h.setFld (Fd.THM_SENSOR_FAIL.DIE_FAILED d) (maskOf 8 (fun k => (h.dieSensor d k).failed != 0))
  h.setFld (Fd.THM_SENSOR_FAIL.DIODE_FAILED d) (maskOf 16 (fun i =>
    let p := h.pair (8 * d + i / 2)
    (if i % 2 = 0 then p.a.failed else p.b.failed) != 0))

/-- The hottest powered die. -/
def Hw.hottest (h : Hw) : Option (Nat × Int) :=
  (h.plu.diesUp.filterMap (fun d => (h.thm.dieTemp.find? d).map (fun t => (d, t)))).foldl (fun acc q =>
    match acc with
    | some b => if b.2 < q.2 then some q else acc
    | none => some q) none

/-- The temperature of a die: the highest of its clusters; HOT_DIE and HOT_C follow. -/
def Hw.showTemps (h : Hw) (d : Nat) : Hw :=
  let ts := (List.range 8).filterMap (fun c => (h.pair (8 * d + c)).temp)
  let h : Hw := match ts with
    | [] => h
    | t :: rest => { h with thm := { h.thm with dieTemp := h.thm.dieTemp.put d (rest.foldl max t) } }
  match h.hottest with
  | some (d, t) => (h.setFld Fd.THM_STATUS.HOT_DIE d).setFld Fd.THM_STATUS.HOT_C (toSigned 16 t)
  | none => h

/-- The sensor rules of a die (R411): a cluster newly held at SAFE_PACE, and a sensor newly failed, are reported. -/
def Hw.sensorRules (h : Hw) (d : Nat) (r : SensorIn) : Hw :=
  let h0 := h
  let h := ((h.takeReadings d r).showSensors d).showTemps d
  let safe := h.fld (Fd.THM_SENSOR_STATE.SAFE d)
  let fresh := h0.reg (Reg.THM_SENSOR_FAIL d) == 0 && h.reg (Reg.THM_SENSOR_FAIL d) != 0
  let h := h.repace
  let h := if (List.range 8).any (fun c => bitAt safe c && !bitAt (h0.fld (Fd.THM_SENSOR_STATE.SAFE d)) c) then
      (h.thermal 0x09 d (h.thm.dieTemp.getD d 0)).protect h0 0x26 d
    else h
  if fresh then h.degradeCheck d true else h

/-! ## THERMTRIP, the 95 °C limit and the thermal loop (R410) -/

/-- The highest present reading among a die's hot-spot and die sensors that have not failed. -/
def Hw.dieMax (h : Hw) (d : Nat) : Option Int :=
  ((List.range 8).flatMap (fun k => [(h.pair (8 * d + k)).a.reading, (h.pair (8 * d + k)).b.reading, (h.dieSensor d k).reading])
    ).foldl (fun acc v =>
      match acc, v with
      | some a, some b => some (max a b)
      | none, b => b
      | a, none => a) none

/-- THERMTRIP_N is asserted: main power is dropped and every resident context faults. -/
def Hw.trip (h : Hw) (d : Nat) (t : Int) : Hw × List Edit :=
  let h0 := h
  let h := (h.setFlag Fd.THM_STATUS.TRIP true).thermal 0x04 d t
  let (h, es) := (h.protect h0 0x04 d).mainOff ⟨dThermtrip, leBytes 1 d ++ [0] ++ leBytes 2 (toSigned 16 t)⟩ brHeld
  (h.platform, es)

/-- The clusters of a die. -/
def dieClusters (d : Nat) : List Nat := (List.range 8).map (fun c => 8 * d + c)

/-- The 95 °C limit: every programmed pace of the die is halved until the die falls below 92 °C. -/
def Hw.limit95 (h : Hw) (d : Nat) (t : Int) : Hw :=
  let on := (dieClusters d).any (fun c => (h.pwr.hw95.find? c).isSome)
  if 950 ≤ t ∧ on = false then
    let lim := (dieClusters d).foldl (fun (l : Tab Nat) c => l.put c (max 10 (h.progOf c / 2))) h.pwr.hw95
    let h1 := ({ h with pwr := { h.pwr with hw95 := lim } } : Hw).repace
    (h1.thermal 0x03 d t).protect h 0x03 d
  else if t < 920 ∧ on = true then
    ({ h with pwr := { h.pwr with hw95 := h.pwr.hw95.filter (fun q => q.1 / 8 != d) } } : Hw).repace
  else h

/-- Change the thermal loop's limit of a die. -/
def Hw.setLoop (h : Hw) (d : Nat) (v : Option Nat) : Hw :=
  let t := match v with
    | some v => h.pwr.loopLim.put d v
    | none => h.pwr.loopLim.drop d
  let h : Hw := { h with pwr := { h.pwr with loopLim := t, loopTb := h.pwr.loopTb.put d h.tb } }
  (h.setFlag Fd.THM_STATUS.LOOP (!t.isEmpty)).repace

/-- The thermal loop, which starts above 90 °C, and above 86 °C while COOL_CRIT is set (R414). -/
def Hw.thermalLoop (h : Hw) (d : Nat) (t : Int) : Hw :=
  let on : Int := if h.flag Fd.THM_STATUS.COOL_CRIT then 860 else 900
  if h.held = false then h
  else
    match h.pwr.loopLim.find? d with
    | none =>
      if on < t then
        let h1 := h.setLoop d (some (max 10 (h.diePace d - 10)))
        (h1.thermal 0x01 d t).protect h 0x01 d
      else h
    | some v =>
      if on < t then h.setLoop d (some (max 10 (v - 10)))
      else if t < on - 20 ∧ h.pwr.loopTb.getD d 0 + 10000000 ≤ h.tb then
        if h.fld (Fd.PWR_DIE_PACE.PROG_MSTEPS d) ≤ v + 10 then (h.setLoop d none).thermal 0x02 d t else h.setLoop d (some (v + 10))
      else h

/-! ## The pace gate (R415) -/

/-- How fast a die has risen over the last 10 ms, as (rise in 0.1 K, ns); none without an earlier reading. -/
def Hw.rise (h : Hw) (d : Nat) : Option (Int × Nat) :=
  match Tab.getD h.thm.newest d [] with
  | [] => none
  | (_, t) :: rest =>
    match rest.getLast? with
    | some (tb0, t0) => some (t - t0, h.tb - tb0)
    | none => none

/-- Whether a rise is faster than a number of K/s. -/
def riseAbove (k : Nat) (r : Option (Int × Nat)) : Bool :=
  match r with
  | some (dt, ns) => decide ((10 * k * ns : Nat) < dt * 1000000000)
  | none => false

/-- Note the temperature of a die for its rate: since when it rises faster than 15 K/s, and since when it is at most at 80 °C and
rises no faster than 1 K/s. -/
def Hw.noteRise (h : Hw) (d : Nat) (t : Int) : Hw :=
  let l := (h.tb, t) :: (Tab.getD h.thm.newest d []).filter (fun q => decide (h.tb ≤ q.1 + 10000000))
  let h : Hw := { h with thm := { h.thm with newest := h.thm.newest.put d l } }
  let r := h.rise d
  let rising := if riseAbove 15 r then h.thm.risingTb.put d (h.thm.risingTb.getD d h.tb) else h.thm.risingTb.drop d
  let calm := if t ≤ 800 ∧ riseAbove 1 r = false then h.thm.calmTb.put d (h.thm.calmTb.getD d h.tb) else h.thm.calmTb.drop d
  { h with thm := { h.thm with risingTb := rising, calmTb := calm } }

/-- The gate closes: no cluster issues a step and VDD_CORE falls to 0.55 V. -/
def Hw.closeGate (h : Hw) : Hw :=
  let h0 := h
  let h : Hw := { h.setFlag Fd.THM_STATUS.GATE true with thm := { h.thm with gateTb := h.tb, gateFaulted := false, reopenTb := none } }
  ((h.platform.repace).thermal 0x05 0xFF (signedOf 16 (h.fld Fd.THM_STATUS.HOT_C))).protect h0 0x05 0xFF

/-- The watchdogs of the streams do not count the time that the gate was closed. -/
def Ctx.skipTime (x : Ctx) (since now : Nat) : Ctx :=
  { x with run := { x.run with streams := x.run.streams.map (fun (k, st) =>
      (k, { st with lastTb := if st.lastTb ≤ since then st.lastTb + (now - since) else now })) } }

/-- The gate reopens: the clusters run at SAFE_PACE. -/
def Hw.openGate (h : Hw) : Hw :=
  let h0 := h
  let h : Hw := { h.setFlag Fd.THM_STATUS.GATE false with
    thm := { h.thm with reopenTb := some h.tb },
    ctxs := h.ctxs.map (fun (c, x) => (c, x.skipTime h.thm.gateTb h.tb)) }
  ((h.platform.repace).thermal 0x06 0xFF (signedOf 16 (h.fld Fd.THM_STATUS.HOT_C))).protect h0 0x06 0xFF

/-- Evaluate the gate: two dies that have risen for 50 ms close it, and 5 s of calm on every die reopen it. -/
def Hw.gateCheck (h : Hw) : Hw :=
  if h.gateOpen then
    if 2 ≤ (h.plu.diesUp.filter (fun d => match h.thm.risingTb.find? d with
        | some t => decide (t + 50000000 ≤ h.tb)
        | none => false)).length then h.closeGate
    else h
  else if h.plu.diesUp.all (fun d => match h.thm.calmTb.find? d with
      | some t => decide (t + 5000000000 ≤ h.tb)
      | none => false) then h.openGate
  else h

/-! ## The samples of a die (R409, R410, R415) -/

/-- The responses to a die's temperature. -/
def Hw.dieResponse (h : Hw) (d : Nat) : Hw × List Edit :=
  let t := h.thm.dieTemp.getD d 600
  let h := h.noteRise d t
  match h.dieMax d with
  | some v =>
    if 1100 ≤ v ∧ h.flag Fd.THM_STATUS.TRIP = false then h.trip d v
    else ((((h.limit95 d t).thermalLoop d t).gateCheck).repace, [])
  | none => ((h.gateCheck).repace, [])

/-- The DMP of a powered die samples its sensors, every 1 ms. -/
def sensorEff (d : Fin 8) (r : SensorIn) (h : Hw) : Hw × List Edit :=
  if h.plu.diesUp.contains d.val = false ∨ h.tb < (h.thm.sampleTb.getD d.val 0) + 1000000 then (h, [])
  else
    let h : Hw := { h with thm := { h.thm with sampleTb := h.thm.sampleTb.put d.val h.tb } }
    ((h.sensorRules d.val r).protLog).dieResponse d.val
/-- The effect of SENSOR_SAMPLE. -/
def sensorAll (d : Fin 8) (r : SensorIn) (s : State) : Eff := let (h, es) := sensorEff d r s.hw; { hw := h, edits := es }
/-- SENSOR_SAMPLE (R409–R411, R415). -/
def execSensorSample (d : Fin 8) (r : SensorIn) (s : State) : Res := done s (sensorAll d r s)

/-- A gate closed for 30 s faults every resident context. -/
def gateTimeoutHw (h : Hw) : Hw :=
  if h.gateOpen = true ∨ h.thm.gateFaulted = true ∨ h.tb < h.thm.gateTb + 30000000000 then h
  else
    let (d, t) := h.hottest.getD (0, 0)
    ({ h with thm := { h.thm with gateFaulted := true } } : Hw).faultAll
      ⟨dPaceGate, leBytes 1 d ++ [0] ++ leBytes 2 (toSigned 16 t)⟩
/-- PACE_GATE_TIMEOUT (R415). -/
def execPaceGateTimeout (s : State) : Res := keep s (gateTimeoutHw s.hw)

/-- 10 s after the gate reopened the other limits resume. -/
def safePaceEndHw (h : Hw) : Hw :=
  match h.thm.reopenTb with
  | some t => if t + 10000000000 ≤ h.tb then ({ h with thm := { h.thm with reopenTb := none } } : Hw).repace else h
  | none => h
/-- GATE_SAFE_PACE_END (R415). -/
def execGateSafePaceEnd (s : State) : Res := keep s (safePaceEndHw s.hw)

/-- The host writes 1 to TRIP: THERMTRIP_N is released. -/
def tripClearHw (h : Hw) : Hw := if h.served then (h.setFlag Fd.THM_STATUS.TRIP false).platform else h
/-- TRIP_CLEAR (R410). -/
def execTripClear (s : State) : Res := keep s (tripClearHw s.hw)

/-! ## Flow and inlet (R412–R414) -/

/-- Take the readings of the coolant sensors: inlet A and B, outlet A and B. A position without a valid sensor degrades
protection. -/
def Hw.takeCoolant (h : Hw) (vs : List (Option Int)) : Hw :=
  let cool := (List.range 4).foldl (fun (t : Tab Sensor) i =>
    t.put i ((Tab.getD t i {}).judge h.tb (vs.getD i none) none none)) h.thm.cool
  let h : Hw := { h with thm := { h.thm with cool := cool } }
  let h := match h.inlet with
    | some t => h.setFld Fd.THM_COOLANT.INLET_C (toSigned 16 t)
    | none => h
  let h := match h.outlet with
    | some t => h.setFld Fd.THM_COOLANT.OUTLET_C (toSigned 16 t)
    | none => h
  let dead := fun (i : Nat) => (Tab.getD cool i {}).failed != 0 && (Tab.getD cool (i + 1) {}).failed != 0
  if (dead 0 || dead 2) && !h.thm.coolFault then
    ({ h with thm := { h.thm with coolFault := true } } : Hw).degradeCheck 0xFF true
  else h

/-- Since when the inlet is out of range, too high or too low. -/
def Hw.noteInlet (h : Hw) : Hw :=
  let st : Option Bool := match h.inlet with
    | some t => if 400 < t then some true else if t < 150 then some false else none
    | none => none
  match st with
  | none => { h with thm := { h.thm with inletTb := none, inletSent := false } }
  | some hi =>
    match h.thm.inletTb with
    | some (hi', _) => if hi = hi' then h else { h with thm := { h.thm with inletTb := some (hi, h.tb), inletSent := false } }
    | none => { h with thm := { h.thm with inletTb := some (hi, h.tb), inletSent := false } }

/-- The estimate of flow in 0.01 L/min, where it is valid. -/
def Hw.flowEstimate (h : Hw) : Option Nat :=
  match h.inlet, h.outlet with
  | some i, some o =>
    let p := h.avgPower 100000
    if 1000 ≤ p ∧ 20 ≤ o - i then some (min 65535 (60000 * p / (3890 * (o - i).toNat))) else none
  | _, _ => none

/-- A timer that runs while a condition holds. -/
def runTimer (t : Option Nat) (on : Bool) (now : Nat) : Option Nat := if on then some (t.getD now) else none

/-- Whether a timer has run for 60 s, or longer. -/
def ranMinute (t : Option Nat) (now : Nat) : Bool := match t with | some a => decide (a + 60000000000 ≤ now) | none => false
def overMinute (t : Option Nat) (now : Nat) : Bool := match t with | some a => decide (a + 60000000000 < now) | none => false

/-- Raise or clear the flow warnings for an estimate `f` (*Flow warnings*). -/
def Hw.flowWarn (h : Hw) (f : Nat) : Hw :=
  let nom := h.fld Fd.THM_FLOW.NOM_FLOW
  let below := fun (k : Nat) => decide (100 * f < k * nom)
  let low := runTimer h.thm.lowTb (below 80) h.tb
  let ok := runTimer h.thm.okTb (!below 85) h.tb
  let critOk := runTimer h.thm.critOkTb (!below 65) h.tb
  let h : Hw := { h with thm := { h.thm with lowTb := low, okTb := ok, critOkTb := critOk } }
  let h0 := h
  let h := if below 60 && !h.flag Fd.THM_STATUS.COOL_CRIT then
      ((h.setFlag Fd.THM_STATUS.COOL_CRIT true).cooling 0x12 0xFF f).protect h0 0x12 0xFF
    else if ranMinute critOk h.tb && h.flag Fd.THM_STATUS.COOL_CRIT then
      (h.setFlag Fd.THM_STATUS.COOL_CRIT false).cooling 0x13 0xFF f
    else h
  let h := if overMinute low h.tb && !h.flag Fd.THM_STATUS.COOL_WARN then
      ((h.setFlag Fd.THM_STATUS.COOL_WARN true).cooling 0x11 0xFF f).protect h0 0x11 0xFF
    else if ranMinute ok h.tb && h.flag Fd.THM_STATUS.COOL_WARN then
      (h.setFlag Fd.THM_STATUS.COOL_WARN false).cooling 0x13 0xFF f
    else h
  h.platform

/-- The coordinator estimates flow, once per second, from the coolant's readings. -/
def flowHw (vs : List (Option Int)) (h : Hw) : Hw :=
  if h.held = false ∨ h.tb < h.thm.flowTb + 1000000000 then h
  else
    let h := ((({ h with thm := { h.thm with flowTb := h.tb } } : Hw).takeCoolant vs).noteInlet).protLog
    match h.flowEstimate with
    | none =>
      { h.setFlag Fd.THM_STATUS.FLOW_VALID false with thm := { h.thm with lowTb := none, okTb := none, critOkTb := none } }
    | some f => ((h.setFlag Fd.THM_STATUS.FLOW_VALID true).setFld Fd.THM_FLOW.FLOW f).flowWarn f
/-- FLOW_ESTIMATE (R413, R414). -/
def execFlowEstimate (inA inB outA outB : Option Int) (s : State) : Res := keep s (flowHw [inA, inB, outA, outB] s.hw)

/-- An inlet out of range for 60 s is reported once. -/
def inletHw (h : Hw) : Hw :=
  match h.thm.inletTb with
  | some (hi, t) =>
    if h.held = true ∧ h.thm.inletSent = false ∧ t + 60000000000 ≤ h.tb then
      ({ h with thm := { h.thm with inletSent := true } } : Hw).cooling (if hi then 0x14 else 0x15) 0xFF (h.fld Fd.THM_FLOW.FLOW)
    else h
  | none => h
/-- INLET_WARNING (R412). -/
def execInletWarning (s : State) : Res := keep s (inletHw s.hw)

/-! ## Foehn mode (R416) -/

/-- FOEHN_SET's own effect: the setting is saved. -/
def foehnBody (p0 p1 : BitVec 32) (_ : State) (h : Hw) : Did :=
  if 2 ≤ p0.toNat ∨ p1.toNat < 30 ∨ 70 < p1.toNat then Did.fail h stParam
  else
    let h := (h.setFld Fd.THM_FOEHN.EN p0.toNat).setFld Fd.THM_FOEHN.FLOOR_C p1.toNat
    let h : Hw := { h with nv := h.nv.put Reg.THM_FOEHN (h.reg Reg.THM_FOEHN) }
    { hw := if p0.toNat = 0 then h.foehnStop else h, rep := Rep.only stOk }
/-- The effect of FOEHN_SET. -/
def foehnSetEff (hd : Hdr) (len : Nat) (p0 p1 : BitVec 32) (s : State) : Eff :=
  hostCmd { opcode := 0x0603, lenOk := len == 0 } hd s (foehnBody p0 p1)
/-- FOEHN_SET (R416). -/
def execFoehnSet (hd : Hdr) (len : Nat) (p0 p1 : BitVec 32) (s : State) : Res :=
  unlessCut (.foehnSet hd len p0 p1) s (done s (foehnSetEff hd len p0 p1 s))

/-- The pace of the heat load of a die: the spec bounds it by 500 M-steps/s, and the rest is open. A die below the floor carries a
load, one above the floor + 3 K none, and in between it keeps what it has. -/
def Hw.foehnDie (h : Hw) (d : Nat) : Hw :=
  let floor : Int := 10 * h.fld Fd.THM_FOEHN.FLOOR_C
  let t := h.thm.dieTemp.getD d 600
  if t < floor then
    let (n, h) := h.takeFree
    { h with thm := { h.thm with foehnPace := h.thm.foehnPace.put d (10 * (n % 50 + 1)) } }
  else if floor + 30 < t then { h with thm := { h.thm with foehnPace := h.thm.foehnPace.drop d } }
  else h

/-- The coordinator sets the heat load's pace, every 100 ms. -/
def foehnControlHw (h : Hw) : Hw :=
  if h.held = false ∨ h.tb < h.thm.foehnTb + 100000000 then h
  else
    let h : Hw := { h with thm := { h.thm with foehnTb := h.tb } }
    if h.flag Fd.THM_FOEHN.EN = false ∨ h.flag Fd.HUB_BRINGUP_STATUS.READY = false ∨ h.foehnBarred = true ∨
        (h.ctxs.any (fun q => q.2.host.st == .running)) = true then h.foehnStop
    else
      let h := h.plu.diesUp.foldl Hw.foehnDie h
      h.setFlag Fd.THM_STATUS.FOEHN_ACTIVE (!h.thm.foehnPace.isEmpty)
/-- FOEHN_CONTROL (R416). -/
def execFoehnControl (s : State) : Res := keep s (foehnControlHw s.hw)

/-! ## Thermal cycles (R417) -/

/-- The bin of a swing in 0.1 K: 20–40 K, 40–60 K, 60–80 K, 80 K and above; none below 20 K. -/
def swingBin (sw : Nat) : Option Nat := if sw < 200 then none else some (min 3 (sw / 200 - 1))

/-- Count a half cycle. -/
def countHalf (t : List Nat) (sw : Nat) (n : Nat) : List Nat :=
  match swingBin sw with
  | some b => (List.range 4).map (fun i => t.getD i 0 + if i = b then n else 0)
  | none => t

/-- Rainflow on turning points, newest first: while the last range covers the one before it, that one is counted, as a full cycle, or
as a half cycle where it starts at the oldest point. `fuel` bounds the reductions. -/
def rainflow : Nat → List Int → List Nat → List Int × List Nat
  | 0, p, t => (p, t)
  | fuel + 1, c :: b :: a :: rest, t =>
    let x := (c - b).natAbs
    let y := (b - a).natAbs
    if x < y then (c :: b :: a :: rest, t)
    else if rest.isEmpty then rainflow fuel (c :: b :: rest) (countHalf t y 1)
    else rainflow fuel (c :: rest) (countHalf t y 2)
  | _ + 1, p, t => (p, t)

/-- Add a temperature to the turning points: one that goes on in the same direction replaces the last. -/
def addTurn (p : List Int) (v : Int) : List Int :=
  match p with
  | [] => [v]
  | [a] => if a = v then [a] else [v, a]
  | b :: a :: rest => if b = v then b :: a :: rest else if (a < b ∧ b < v) ∨ (v < b ∧ b < a) then v :: a :: rest else v :: b :: a :: rest

/-- The DMP of a die samples its temperature, every 1 s; every hour the counts go to the NV store. -/
def cycleHw (d : Fin 8) (h : Hw) : Hw :=
  if h.plu.diesUp.contains d.val = false ∨ h.tb < h.thm.cycleTb.getD d.val 0 + 1000000000 then h
  else
    let h : Hw := { h with thm := { h.thm with cycleTb := h.thm.cycleTb.put d.val h.tb } }
    let h : Hw := match h.thm.dieTemp.find? d.val with
      | none => h
      | some v =>
        let p := addTurn (Tab.getD h.thm.turns d.val []) v
        -- the newest point may still move, so only the points before it are reduced
        let (q, t) := rainflow p.length (p.drop 1) (Tab.getD h.thm.halves d.val [])
        { h with thm := { h.thm with turns := h.thm.turns.put d.val (p.take 1 ++ q), halves := h.thm.halves.put d.val t } }
    if h.thm.saveTb + 3600000000000 ≤ h.tb then { h with thm := { h.thm with savedHalves := h.thm.halves, saveTb := h.tb } } else h
/-- THERMAL_CYCLE_SAMPLE (R417). -/
def execThermalCycleSample (d : Fin 8) (s : State) : Res := keep s (cycleHw d s.hw)

/-- What THM_CYCLES reads (R419). -/
def Hw.cycles (h : Hw) : Nat :=
  (Tab.getD h.thm.halves (h.fld Fd.THM_CYCLE_SEL.DIE) []).getD (h.fld Fd.THM_CYCLE_SEL.BIN) 0 % 2 ^ 32

/-! ## The temperatures of the stacks (R125–R127, R410) -/

/-- Act as a row of *Refresh and temperature*. -/
def Hw.hbmRow (h : Hw) (st : Nat) (m : HbmMode) : Hw :=
  let h : Hw := { h with hbm := h.hbm.upd st {} (fun x => { x with mode := m }) }
  let h := h.setFlag (Fd.HBM_STATUS.HOLD st) (m == .hold)
  let h := h.setFlag (Fd.HBM_STATUS.THROTTLE st) (m == .throttle)
  h.setFlag (Fd.HBM_STATUS.REFRESH_X2 st) (m != .base)

/-- The row after a reading in °C; three invalid readings running act as 105 °C and above, and a reading that does not confirm one of
105 °C acts as the 95–104 °C row (R126). -/
def HbmSt.next (x : HbmSt) (t : Option Int) : HbmSt × HbmMode :=
  let v := match t with
    | some r => if -40 ≤ r ∧ r ≤ 150 then some r else none
    | none => none
  let bad := if v.isSome then 0 else x.badCount + 1
  let r := match v with
    | some r => r
    | none => if 3 ≤ bad then 105 else -41
  if v.isNone ∧ bad < 3 then ({ x with badCount := bad, coolCount := 0 }, x.mode)
  else
    let hot := if 105 ≤ r then (if v.isNone then 2 else x.hotCount + 1) else 0
    let cool := if r < 100 then x.coolCount + 1 else 0
    let x' := { x with badCount := bad, hotCount := hot, coolCount := cool }
    if x.mode = .hold then (if 2 ≤ cool then ({ x' with coolCount := 0 }, .throttle) else (x', .hold))
    else if 2 ≤ hot then ({ x' with coolCount := 0 }, .hold)
    else if 95 ≤ r ∨ x.hotCount = 1 ∨ (x.mode = .throttle ∧ 93 ≤ r) then (x', .throttle)
    else if 85 ≤ r ∨ (x.mode ≠ .base ∧ 83 ≤ r) then (x', .x2)
    else (x', .base)

/-- The pace that HBM THROTTLE allows its die: 10% less each 10 ms, down to SAFE_PACE, until no stack of the die throttles. -/
def Hw.hbmPace (h : Hw) (d : Nat) : Hw :=
  if h.flag (Fd.HBM_STATUS.THROTTLE (2 * d)) || h.flag (Fd.HBM_STATUS.THROTTLE (2 * d + 1)) then
    match h.pwr.hbmLim.find? d with
    | some v =>
      if h.pwr.hbmTb.getD d 0 + 10000000 ≤ h.tb then
        { h with pwr := { h.pwr with hbmLim := h.pwr.hbmLim.put d (max h.safePace (v * 9 / 10)), hbmTb := h.pwr.hbmTb.put d h.tb } }
      else h
    | none =>
      { h with pwr := { h.pwr with hbmLim := h.pwr.hbmLim.put d (max h.safePace (h.diePace d * 9 / 10)),
                                   hbmTb := h.pwr.hbmTb.put d h.tb } }
  else { h with pwr := { h.pwr with hbmLim := h.pwr.hbmLim.drop d } }

/-- The controller of a stack in service polls its temperature, every 1 ms; the coordinator acts on THROTTLE. -/
def hbmPollHw (st : Fin 16) (t : Option Int) (h : Hw) : Hw :=
  let n := st.val
  let x := h.hbm.getD n {}
  if h.flag (Fd.HBM_STATUS.IN_SERVICE n) = false ∨ h.tb < x.pollTb + 1000000 then h
  else
    let h0 := h
    let (y, m) := x.next t
    let h : Hw := { h with hbm := h.hbm.put n { y with pollTb := h.tb } }
    let h := match t with
      | some r => if -40 ≤ r ∧ r ≤ 150 then h.setFld (Fd.HBM_STATUS.TEMP n) (r + 64).toNat else h
      | none => h
    let h := if y.badCount = 3 then h.setFlag (Fd.HBM_STATUS.TEMP_FAIL n) true else h
    let h := h.hbmRow n m
    let h := if h.held then h.hbmPace (n / 2) else h
    let h := h.repace
    let r10 := 10 * t.getD 105
    if m = .hold ∧ x.mode ≠ .hold then (h.thermal 0x08 (0x10 + n) r10).protect h0 0x08 (0x10 + n)
    else if m = .throttle ∧ x.mode ≠ .throttle ∧ x.mode ≠ .hold then (h.thermal 0x07 (0x10 + n) r10).protect h0 0x07 (0x10 + n)
    else h
/-- HBM_TEMP_POLL (R125–R127, R410). -/
def execHbmTempPoll (st : Fin 16) (t : Option Int) (s : State) : Res := keep s (hbmPollHw st t s.hw)

/-! ## The sensor record (R418) -/

/-- A temperature of the record: 0x8000 marks a failed sensor or one without a reading. -/
def tempBytes (v : Option Int) : List Byte := beBytes 2 (match v with | some t => toSigned 16 t | none => 0x8000)

/-- A sensor of the record. -/
def Hw.sensorBytes (h : Hw) (d : Nat) (x : Sensor) : List Byte :=
  tempBytes (if h.plu.diesUp.contains d then x.reading else none)

/-- The readings of a die in the record. -/
def Hw.dieBytes (h : Hw) (d : Nat) : List Byte :=
  (List.range 8).flatMap (fun c => h.sensorBytes d (h.pair (8 * d + c)).a ++ h.sensorBytes d (h.pair (8 * d + c)).b) ++
    (List.range 8).flatMap (fun k => h.sensorBytes d (h.dieSensor d k))

/-- The temperature of a stack in °C, where one has been read. -/
def Hw.hbmTemp (h : Hw) (n : Nat) : Option Int :=
  let v := h.fld (Fd.HBM_STATUS.TEMP n)
  if v = 0 then none else some ((v : Int) - 64)

/-- Bits 440–447 of the record for a die. -/
def Hw.dieFlags (h : Hw) (d : Nat) : Nat :=
  (if h.fld (Fd.THM_SENSOR_STATE.PAIR_SUSPECT d) ≠ 0 then 1 else 0) + (if h.reg (Reg.THM_SENSOR_FAIL d) ≠ 0 then 2 else 0) +
    (if h.fld (Fd.THM_SENSOR_STATE.SAFE d) ≠ 0 then 4 else 0) + (if (h.pwr.loopLim.find? d).isSome then 8 else 0) +
    (if (dieClusters d).any (fun c => (h.pwr.hw95.find? c).isSome) then 16 else 0)

/-- *Sensor record*. -/
def Hw.sensorRecord (h : Hw) : List Byte :=
  let bit := fun (i : Nat) (f : Fld) => if h.flag f then 2 ^ i else 0
  beBytes 8 h.tb ++ beBytes 2 (h.fld Fd.PWR_STATUS.POWER_W) ++ beBytes 2 (h.fld Fd.PWR_CAP.EFF_CAP_W) ++
    beBytes 2 (h.fld Fd.THM_FLOW.FLOW) ++
    beBytes 1 (bit 0 Fd.THM_STATUS.FLOW_VALID + bit 1 Fd.THM_STATUS.PROT_DEGRADED + bit 2 Fd.THM_STATUS.GATE +
      bit 3 Fd.THM_STATUS.COOL_WARN + bit 4 Fd.THM_STATUS.COOL_CRIT + bit 5 Fd.THM_STATUS.FOEHN_ACTIVE +
      bit 6 Fd.PWR_STATUS.CAP_UNMET + bit 7 Fd.THM_STATUS.TRIP) ++ [0] ++
    (List.range 4).flatMap (fun i => tempBytes (h.thm.cool.getD i {}).reading) ++
    (List.range 8).flatMap h.dieBytes ++
    (List.range 16).flatMap (fun n => tempBytes ((h.hbmTemp n).map (fun t => 10 * t))) ++
    (List.range 8).flatMap (fun d => beBytes 1 (h.dieFlags d)) ++
    (List.range 8).flatMap (fun d => beBytes 2 (h.diePace d)) ++
    (List.range 8).flatMap (fun d => beBytes 2 (h.fld (Fd.PWR_DIE_STATUS.VDD_MV d)))

/-- The effect of THERMAL_QUERY. -/
def thermalQueryEff (hd : Hdr) (len : Nat) (s : State) : Eff :=
  hostCmd { opcode := 0x0604, reads := true, lenOk := len == 0 } hd s (fun _ h =>
    { hw := h, rep := { status := stOk, payload := h.sensorRecord } })
/-- THERMAL_QUERY (R418). -/
def execThermalQuery (hd : Hdr) (len : Nat) (s : State) : Res := unlessCut (.thermalQuery hd len) s (done s (thermalQueryEff hd len s))

end Sys2Proof.Machine
end

