-- ==== Sys2Proof/Machine/Board.lean ====
section
/-!
DEFINITION. The board interface (21_board_interface.md): the reference clocks, the leak loop, and the management port with its MCTP
and PLDM messages (R478–R483). The layout of I3C, MCTP and PLDM messages is that of their standards (PRESUMED, assumption 22).
-/
namespace Sys2Proof.Machine

/-! ## LED_STATUS -/

/-- LED_STATUS: the first condition that applies; none where the table gives none (S0 has passed and no stage has started). A complex
that is OFFLINE never takes AUTH. LED_LOCATE is PKG_LED_CTRL.LOCATE. -/
def Hw.led (h : Hw) (f : Fuses) : Option Led :=
  if h.flag Fd.PKG_BOARD_STATUS.AUX_PWROK = false then some .off
  else if h.flag Fd.PKG_BOARD_STATUS.THERMTRIP = true ∨ h.fld Fd.PKG_LEAK.STATE = 1 then some .amberFast
  else if h.held = false ∧ h.cx 0 = cxOffline ∧ h.cx 1 = cxOffline ∨ f.lcState = 5 then some .amber
  else if h.stage = 0 ∧ h.stageState = bsRunning then some .amberSlow
  else if h.flag Fd.PWR_STATUS.OFF_HOST = true ∨ h.flag Fd.PWR_STATUS.OFF_BOARD = true ∨ h.stageState = bsFail ∨
      h.stage = 10 ∧ h.stageState ≠ bsRunning ∧ h.flag Fd.HUB_BRINGUP_STATUS.COMPUTE = false then some .alternating
  else if h.flag Fd.HUB_BRINGUP_STATUS.READY = true ∧ h.flag Fd.HUB_BRINGUP_STATUS.COMPUTE = true then some .green
  else if 1 ≤ h.stage then some .greenSlow
  else none

/-! ## Reference clocks (R478) -/

/-- What the loss of a clock does: 0 and 1 stop a hub's links, 2 and 3 a plane's ports; the HBM clock makes accesses wait, and the
islands of REFCLK_AUX go on. -/
def Hw.clkEffect (h : Hw) (i : Nat) : Hw :=
  if i < 2 then (List.range 12).foldl (fun h j => h.signalLost (12 * i + j) 2 1) h
  else if i < 4 then (List.range 4).foldl (fun h j => epDownHw (Fin.ofNat 8 (4 * (i - 2) + j)) h) h
  else h

/-- A clock is missing: its bit is set, and a CRITICAL entry is written. -/
def clkLossHw (i : Fin 6) (h : Hw) : Hw :=
  if h.flag Fd.PKG_BOARD_STATUS.AUX_PWROK = false ∨ h.board.clkOut.contains i.val = true then h
  else
    let h : Hw := { h with board := { h.board with clkOut := insNat h.board.clkOut i.val } }
    let h := h.setFld Fd.PKG_BOARD_STATUS.CLK_LOST (h.fld Fd.PKG_BOARD_STATUS.CLK_LOST ||| 2 ^ i.val)
    (h.logSev 5 0 logState (Config.noteData logState 0x0478 i.val 0)).clkEffect i.val
/-- REFCLK_LOSS (R478). -/
def execRefclkLoss (i : Fin 6) (s : State) : Res := keep s (clkLossHw i s.hw)

/-- A clock returns. -/
def clkReturnHw (i : Fin 6) (h : Hw) : Hw :=
  { h with board := { h.board with clkOut := h.board.clkOut.filter (fun j => j != i.val) } }
/-- REFCLK_RETURN (R478). -/
def execRefclkReturn (i : Fin 6) (s : State) : Res := keep s (clkReturnHw i s.hw)

/-! ## The leak loop (R483) -/

/-- The band of a resistance (*Leak-loop bands*), as PKG_LEAK.STATE codes it; none is an open loop. -/
def leakOf : Option Nat → Nat
  | none => 4
  | some r => if r < 200 then 1 else if r < 1000 then 2 else if r ≤ 5000 then 0 else if r ≤ 20000 then 3 else 4

/-- The loop enters a state: the log, PROT_DEGRADED, and what the board sees. -/
def Hw.leakEnter (h : Hw) (b : Nat) : Hw :=
  let was := h.fld Fd.PKG_LEAK.STATE
  let h := h.setFld Fd.PKG_LEAK.STATE b
  let h := if b = 1 then h.logSev 5 0 logState (Config.noteData logState 0x0483 b 0)
    else if b = 2 ∨ b = 3 then h.logSev 3 0 logState (Config.noteData logState 0x0483 b 0)
    else h
  if b = 4 ∨ was = 4 then h.degradeCheck 0xFF (b == 4) else h.platform

/-- A measurement, every 100 ms: the third reading running in a new band changes the state. -/
def leakHw (r : Option Nat) (h : Hw) : Hw :=
  if h.flag Fd.PKG_BOARD_STATUS.AUX_PWROK = false ∨ h.tb < h.board.leakTb + 100000000 then h
  else
    let b := leakOf r
    let run := if b = h.board.leakBand then h.board.leakRun + 1 else 1
    let h := h.setFld Fd.PKG_LEAK.OHMS (min 0xFFFFF (r.getD 0xFFFFF))
    let h : Hw := { h with board := { h.board with leakTb := h.tb, leakBand := b, leakRun := run } }
    if b ≠ h.fld Fd.PKG_LEAK.STATE ∧ 3 ≤ run then h.leakEnter b else h
/-- LEAK_LOOP_MEASURE (R483). -/
def execLeakLoopMeasure (ohms : Option Nat) (s : State) : Res := keep s (leakHw ohms s.hw)

/-! ## The I3C target (R479, R481) -/

/-- Whether the target answers: there is power, and authority is not passing between the complexes. -/
def Hw.portOn (h : Hw) : Bool := h.flag Fd.PKG_BOARD_STATUS.AUX_PWROK && h.held

/-- Whether the target answers at a dynamic address of its own. -/
def Hw.portReady (h : Hw) : Bool := h.portOn && h.board.addr.isSome

/-- Answer on I3C, or NACK. -/
def Hw.i3cOut (h : Hw) (bs : List Byte) : Hw := { h with out := h.out ++ [.i3c bs] }
def Hw.i3cNack (h : Hw) : Hw := { h with out := h.out ++ [.i3cNack] }

/-- A direct command: its answer, or a NACK. -/
def Hw.direct (h : Hw) (f : Hw → Hw) : Hw := if h.portReady then f h else h.i3cNack

/-- The provisional ID: part 0x0E09 in bits [31:16], SLOT_ID in bits [5:0]. -/
def Hw.pid (h : Hw) : Nat :=
  setBitsAt (setBitsAt Config.i3cPid.toNat 16 16 0x0E09) 0 6 (h.fld Fd.PKG_BOARD_STATUS.SLOT_ID)

/-- Change the board interface. -/
def Hw.modBoard (h : Hw) (f : BoardSt → BoardSt) : Hw := { h with board := f h.board }

/-- A target without an address takes part in the assignment with its ID and characteristics. -/
def entdaaHw (a : BitVec 7) (h : Hw) : Hw :=
  if h.portOn && h.board.addr.isNone then
    (h.i3cOut (beBytes 6 h.pid ++ [Config.i3cBcr, Config.i3cDcr])).modBoard (fun b => { b with addr := some a.toNat })
  else h.i3cNack
/-- ENTDAA (R479). -/
def execEntdaa (a : BitVec 7) (s : State) : Res := keep s (entdaaHw a s.hw)
/-- SETNEWDA (R479). -/
def execSetnewda (a : BitVec 7) (s : State) : Res :=
  keep s (s.hw.direct (fun h => h.modBoard (fun b => { b with addr := some a.toNat })))
/-- RSTDAA (R479). -/
def execRstdaa (s : State) : Res := keep s (if s.hw.portOn then s.hw.modBoard (fun b => { b with addr := none }) else s.hw.i3cNack)
/-- GETPID (R479). -/
def execGetpid (s : State) : Res := keep s (s.hw.direct (fun h => h.i3cOut (beBytes 6 h.pid)))
/-- GETBCR (R479). -/
def execGetbcr (s : State) : Res := keep s (s.hw.direct (fun h => h.i3cOut [Config.i3cBcr]))
/-- GETDCR (R479). -/
def execGetdcr (s : State) : Res := keep s (s.hw.direct (fun h => h.i3cOut [Config.i3cDcr]))

/-- GETSTATUS answers two bytes that the spec leaves open. -/
def getstatusHw (h : Hw) : Hw :=
  let (n, h) := h.takeFree
  h.i3cOut (beBytes 2 n)
/-- GETSTATUS (R479). -/
def execGetstatus (s : State) : Res := keep s (s.hw.direct getstatusHw)
/-- ENEC (R479). -/
def execEnec (mask : Byte) (s : State) : Res :=
  keep s (if s.hw.portOn then s.hw.modBoard (fun b => { b with events := b.events ||| mask.toNat }) else s.hw.i3cNack)
/-- DISEC (R479). -/
def execDisec (mask : Byte) (s : State) : Res :=
  keep s (if s.hw.portOn then s.hw.modBoard (fun b => { b with events := b.events &&& (255 - mask.toNat) }) else s.hw.i3cNack)
/-- SETMWL (R479). -/
def execSetmwl (n : BitVec 16) (s : State) : Res :=
  keep s (if s.hw.portOn then s.hw.modBoard (fun b => { b with mwl := n.toNat }) else s.hw.i3cNack)
/-- SETMRL (R479). -/
def execSetmrl (n : BitVec 16) (s : State) : Res :=
  keep s (if s.hw.portOn then s.hw.modBoard (fun b => { b with mrl := n.toNat }) else s.hw.i3cNack)
/-- GETMWL (R479). -/
def execGetmwl (s : State) : Res := keep s (s.hw.direct (fun h => h.i3cOut (beBytes 2 h.board.mwl)))
/-- GETMRL (R479). -/
def execGetmrl (s : State) : Res := keep s (s.hw.direct (fun h => h.i3cOut (beBytes 2 h.board.mrl)))
/-- I3C_UNSUPPORTED (R479): the target NACKs. -/
def execI3cUnsupported (s : State) : Res := keep s s.hw.i3cNack

/-! ## MCTP control (R480) -/

/-- Answer an MCTP control request. -/
def Hw.mctpReply (h : Hw) (r : MsgRef) (cmd code : Nat) (data : List Byte) : Hw :=
  h.mctp r.src.toNat ([0] ++ leBytes 1 r.iid.toNat ++ leBytes 1 cmd ++ leBytes 1 code ++ data)

/-- Whether SetEndpointID assigns an ID: operations 0 and 1, an ID that an endpoint may have. -/
def eidOk (op : BitVec 2) (eid : Byte) : Bool := decide (op.toNat < 2) && decide (8 ≤ eid.toNat) && decide (eid.toNat < 255)

/-- Set the endpoint ID, which a handover keeps (R481). -/
def setEidHw (r : MsgRef) (op : BitVec 2) (eid : Byte) (h : Hw) : Hw :=
  if eidOk op eid then
    (h.modBoard (fun b => { b with eid := eid.toNat })).mctpReply r 1 0 [0, eid, 0]
  else h.mctpReply r 1 2 []
/-- SET_ENDPOINT_ID (R480). -/
def execSetEndpointId (r : MsgRef) (op : BitVec 2) (eid : Byte) (s : State) : Res := keep s (s.hw.direct (setEidHw r op eid))
/-- GET_ENDPOINT_ID (R480). -/
def execGetEndpointId (r : MsgRef) (s : State) : Res :=
  keep s (s.hw.direct (fun h => h.mctpReply r 2 0 (leBytes 1 h.board.eid ++ [0, 0])))

/-- The versions of a message type, where the package supports it. -/
def mctpVersionHw (r : MsgRef) (t : Byte) (h : Hw) : Hw :=
  if t = 0 ∨ t = 1 ∨ t = 255 then h.mctpReply r 4 0 ([1] ++ beBytes 4 (Config.mctpVersion t.toNat).toNat)
  else h.mctpReply r 4 0x80 []
/-- GET_MCTP_VERSION_SUPPORT (R480). -/
def execGetMctpVersionSupport (r : MsgRef) (t : Byte) (s : State) : Res := keep s (s.hw.direct (mctpVersionHw r t))
/-- GET_MESSAGE_TYPE_SUPPORT (R480): PLDM, beside control. -/
def execGetMessageTypeSupport (r : MsgRef) (s : State) : Res := keep s (s.hw.direct (fun h => h.mctpReply r 5 0 [1, 1]))
/-- GET_ENDPOINT_UUID (R480). -/
def execGetEndpointUuid (r : MsgRef) (s : State) : Res :=
  keep s (s.hw.direct (fun h => h.mctpReply r 3 0 (beBytes 16 Config.endpointUuid.toNat)))
/-- MCTP_DROP (R480): a message of another type is taken and dropped. -/
def execMctpDrop (_ : Byte) (s : State) : Res := keep s (s.hw.direct id)

/-! ## PLDM base (R480) -/

/-- Answer a PLDM request. -/
def Hw.pldm (h : Hw) (r : MsgRef) (type cmd code : Nat) (data : List Byte) : Hw :=
  h.mctp r.src.toNat ([1] ++ leBytes 1 r.iid.toNat ++ leBytes 1 type ++ leBytes 1 cmd ++ leBytes 1 code ++ data)

/-- ERROR_INVALID_DATA and ERROR_UNSUPPORTED_PLDM_CMD; an item that the repository does not hold; a type not supported. -/
def pldmInvalid : Nat := 0x02
def pldmUnsupported : Nat := 0x05
def pldmNoItem : Nat := 0x80
def pldmNoType : Nat := 0x83

/-- The commands that the package answers, by type: base and platform. -/
def pldmCommands (type : Nat) : List Nat :=
  if type = 0 then [1, 2, 3, 4, 5] else if type = 2 then [0x04, 0x11, 0x21, 0x31, 0x32, 0x39, 0x3A, 0x50, 0x51] else []

/-- GET_TID (R480). -/
def execGetTid (r : MsgRef) (s : State) : Res := keep s (s.hw.direct (fun h => h.pldm r 0 2 0 (leBytes 1 h.board.tid)))
/-- SetTID: 0 and 0xFF are reserved. -/
def setTidHw (r : MsgRef) (tid : Byte) (h : Hw) : Hw :=
  if tid = 0 ∨ tid = 255 then h.pldm r 0 1 pldmInvalid []
  else (h.modBoard (fun b => { b with tid := tid.toNat })).pldm r 0 1 0 []
/-- SET_TID (R480). -/
def execSetTid (r : MsgRef) (tid : Byte) (s : State) : Res := keep s (s.hw.direct (setTidHw r tid))
/-- GET_PLDM_VERSION (R480). -/
def execGetPldmVersion (r : MsgRef) (type : Byte) (s : State) : Res :=
  keep s (s.hw.direct (fun h =>
    if type = 0 ∨ type = 2 then
      h.pldm r 0 3 0 (leBytes 4 0 ++ [5] ++ leBytes 8 (Config.pldmVersion type.toNat).toNat)
    else h.pldm r 0 3 pldmNoType []))
/-- GET_PLDM_TYPES (R480). -/
def execGetPldmTypes (r : MsgRef) (s : State) : Res := keep s (s.hw.direct (fun h => h.pldm r 0 4 0 (leBytes 8 5)))
/-- GET_PLDM_COMMANDS (R480). -/
def execGetPldmCommands (r : MsgRef) (type : Byte) (s : State) : Res :=
  keep s (s.hw.direct (fun h =>
    if type = 0 ∨ type = 2 then
      h.pldm r 0 5 0 (leBytes 32 (((pldmCommands type.toNat).map (fun c => 2 ^ c)).foldl (· + ·) 0))
    else h.pldm r 0 5 pldmNoType []))
/-- ERROR_UNSUPPORTED_PLDM_CMD (R480): any other type or command is answered so. -/
def execErrorUnsupportedPldmCmd (r : MsgRef) (type : BitVec 6) (cmd : Byte) (s : State) : Res :=
  keep s (s.hw.direct (fun h =>
    if (pldmCommands type.toNat).contains cmd.toNat then h else h.pldm r type.toNat cmd.toNat pldmUnsupported []))

/-! ## PLDM events (R481) -/

/-- SetEventReceiver: a mode that sends messages names the receiver; disabling drops what is not acknowledged; polling is not
supported. -/
def setReceiverHw (r : MsgRef) (mode eid : Byte) (h : Hw) : Hw :=
  if mode = 0 then ((h.modBoard (fun b => { b with recv := none, evts := [] })).platform).pldm r 2 4 0 []
  else if mode = 1 ∨ mode = 3 then (h.modBoard (fun b => { b with recv := some eid.toNat })).pldm r 2 4 0 []
  else h.pldm r 2 4 0x82 []
/-- SET_EVENT_RECEIVER (R481). -/
def execSetEventReceiver (r : MsgRef) (mode eid : Byte) (s : State) : Res := keep s (s.hw.direct (setReceiverHw r mode eid))

/-- Send the events again that were last sent 1 s ago. -/
def eventRepeatHw (h : Hw) : Hw :=
  if h.portReady then
    let due := fun (e : PlatEvt) => decide (e.sentTb + 1000000000 ≤ h.tb)
    let again := h.board.evts.filter due
    let h := h.modBoard (fun b => { b with evts := b.evts.map (fun e => if due e then { e with sentTb := h.tb } else e) })
    again.foldl Hw.sendPlat h
  else h
/-- PLATFORM_EVENT_REPEAT (R481). -/
def execPlatformEventRepeat (s : State) : Res := keep s (eventRepeatHw s.hw)

/-- The receiver acknowledges an event by its instance ID. -/
def eventAckHw (iid : BitVec 5) (h : Hw) : Hw :=
  (h.modBoard (fun b => { b with evts := b.evts.eraseP (fun e => e.id % 32 == iid.toNat) })).platform
/-- PLATFORM_EVENT_ACK (R481). -/
def execPlatformEventAck (iid : BitVec 5) (s : State) : Res := keep s (s.hw.direct (eventAckHw iid))

/-! ## Sensors (*PLDM repository*) -/

/-- A numeric sensor, as the 16 bits of its value. -/
def Hw.numericSensor (h : Hw) (id : Nat) : Option Nat :=
  if id = 1 then some (h.fld Fd.PWR_STATUS.POWER_W)
  else if id = 2 then some (h.fld Fd.THM_COOLANT.INLET_C)
  else if id = 3 then some (h.fld Fd.THM_COOLANT.OUTLET_C)
  else if id = 4 then some (h.fld Fd.THM_FLOW.FLOW)
  else if id = 5 then some (h.fld Fd.THM_STATUS.HOT_C)
  else if id = 6 then
    some (toSigned 16 (((List.range 16).filterMap h.hbmTemp).foldl (fun (b : Option Int) t => some (max (b.getD t) t)) none |>.getD 0))
  else none

/-- GetSensorReading. -/
def sensorHw (r : MsgRef) (id : BitVec 16) (h : Hw) : Hw :=
  match h.numericSensor id.toNat with
  | some v => h.pldm r 2 0x11 0 ([2, 0, 0, 1, 1, 1] ++ leBytes 2 v)
  | none => h.pldm r 2 0x11 pldmNoItem []
/-- GET_SENSOR_READING (R480). -/
def execGetSensorReading (r : MsgRef) (id : BitVec 16) (s : State) : Res := keep s (s.hw.direct (sensorHw r id))

/-- GetStateSensorReadings. -/
def stateSensorHw (r : MsgRef) (id : BitVec 16) (h : Hw) : Hw :=
  let n := id.toNat
  if 10 ≤ n ∧ n ≤ 12 then
    h.pldm r 2 0x21 0 ([1, 0] ++ leBytes 1 (h.stateSensor n) ++ leBytes 1 (h.board.prevs.getD n 1) ++ leBytes 1 (h.stateSensor n))
  else h.pldm r 2 0x21 pldmNoItem []
/-- GET_STATE_SENSOR_READINGS (R480). -/
def execGetStateSensorReadings (r : MsgRef) (id : BitVec 16) (s : State) : Res := keep s (s.hw.direct (stateSensorHw r id))

/-! ## Effecters (R403, R406, R481) -/

/-- SetNumericEffecterValue: the board cap. -/
def setNumericHw (r : MsgRef) (id : BitVec 16) (v : BitVec 32) (h : Hw) : Hw :=
  if id ≠ 20 then h.pldm r 2 0x31 pldmNoItem []
  else if capOk v.toNat = false then h.pldm r 2 0x31 pldmInvalid []
  else (((h.setFld Fd.PWR_BOARD.BOARD_CAP_W (capValue v.toNat)).setEff).logNote logOrder 0x0481 v.toNat 20).pldm r 2 0x31 0 []
/-- SET_NUMERIC_EFFECTER_VALUE (R481). -/
def execSetNumericEffecterValue (r : MsgRef) (id : BitVec 16) (v : BitVec 32) (s : State) : Res :=
  keep s (s.hw.direct (setNumericHw r id v))

/-- GetNumericEffecterValue: the board cap as PWR_BOARD shows it. -/
def getNumericHw (r : MsgRef) (id : BitVec 16) (h : Hw) : Hw :=
  let w := leBytes 2 (h.fld Fd.PWR_BOARD.BOARD_CAP_W)
  if id = 20 then h.pldm r 2 0x32 0 ([2, 1] ++ w ++ w) else h.pldm r 2 0x32 pldmNoItem []
/-- GET_NUMERIC_EFFECTER_VALUE (R480). -/
def execGetNumericEffecterValue (r : MsgRef) (id : BitVec 16) (s : State) : Res := keep s (s.hw.direct (getNumericHw r id))

/-- What SetStateEffecterStates does to an effecter: the main power hold of the board, or the locate light. -/
def Hw.setEffecter (h : Hw) (id v : Nat) : Hw × List Edit :=
  if id = 22 then (h.setFlag Fd.PKG_LED_CTRL.LOCATE (v == 2), [])
  else if v = 1 then (h.logNote logOrder 0x0481 1 21).holdOff Fd.PWR_STATUS.OFF_BOARD
  else (if h.flag Fd.PWR_STATUS.OFF_BOARD then (h.setFlag Fd.PWR_STATUS.OFF_BOARD false).logNote logOrder 0x0481 2 21 else h, [])

/-- The effect of SET_STATE_EFFECTER_STATES. -/
def setStateEff (r : MsgRef) (id : BitVec 16) (v : Byte) (s : State) : Eff :=
  let h := s.hw
  if h.portReady = false then { hw := h.i3cNack }
  else if id ≠ 21 ∧ id ≠ 22 then { hw := h.pldm r 2 0x39 pldmNoItem [] }
  else if v ≠ 1 ∧ v ≠ 2 then { hw := h.pldm r 2 0x39 pldmInvalid [] }
  else
    let (h, es) := h.setEffecter id.toNat v.toNat
    { hw := h.pldm r 2 0x39 0 [], edits := es }
/-- SET_STATE_EFFECTER_STATES (R481). -/
def execSetStateEffecterStates (r : MsgRef) (id : BitVec 16) (v : Byte) (s : State) : Res := done s (setStateEff r id v s)

/-- GetStateEffecterStates. -/
def getStateHw (r : MsgRef) (id : BitVec 16) (h : Hw) : Hw :=
  let b := fun (n : Nat) => leBytes 1 n ++ leBytes 1 n
  if id = 21 then h.pldm r 2 0x3A 0 ([1, 1] ++ b (if h.flag Fd.PWR_STATUS.OFF_BOARD then 1 else 2))
  else if id = 22 then h.pldm r 2 0x3A 0 ([1, 1] ++ b (if h.flag Fd.PKG_LED_CTRL.LOCATE then 2 else 1))
  else h.pldm r 2 0x3A pldmNoItem []
/-- GET_STATE_EFFECTER_STATES (R480). -/
def execGetStateEffecterStates (r : MsgRef) (id : BitVec 16) (s : State) : Res := keep s (s.hw.direct (getStateHw r id))

/-! ## Descriptor records (R480) -/

/-- GET_PDR_REPOSITORY_INFO (R480). -/
def execGetPdrRepositoryInfo (r : MsgRef) (s : State) : Res :=
  keep s (s.hw.direct (fun h => h.pldm r 2 0x50 0 (leBytes 40 Config.pdrInfo.toNat)))

/-- The items of *PLDM repository*, whose records the repository holds in this order; handle 0 asks for the first. -/
def pdrItems : List Nat := [1, 2, 3, 4, 5, 6, 10, 11, 12, 20, 21, 22]

/-- GetPDR: the part of a record from an offset, at most `count` bytes. -/
def pdrHw (r : MsgRef) (handle off : BitVec 32) (count : BitVec 16) (h : Hw) : Hw :=
  let n := if handle = 0 then 1 else handle.toNat
  if pdrItems.length < n then h.pldm r 2 0x51 0x82 []
  else
    let all := Config.pdr n
    let part := (all.drop off.toNat).take count.toNat
    let upto := off.toNat + part.length
    let last := decide (all.length ≤ upto)
    let flag := (if off = 0 then 0 else 1) + (if last then (if off = 0 then 5 else 3) else 0)
    h.pldm r 2 0x51 0 (leBytes 4 (if n < pdrItems.length then n + 1 else 0) ++ leBytes 4 (if last then 0 else upto) ++
      leBytes 1 flag ++ leBytes 2 part.length ++ part)
/-- GET_PDR (R480). -/
def execGetPdr (r : MsgRef) (handle off : BitVec 32) (count : BitVec 16) (s : State) : Res :=
  keep s (s.hw.direct (pdrHw r handle off count))

end Sys2Proof.Machine
end

