-- ==== Sys2Proof/Machine/Coll.lean ====
section
/-!
DEFINITION. Collective operations (12_collectives.md): starting and admission, the ring with its chunks, credits and
digests, the early-arrival pool, and the gust path.
-/
namespace Sys2Proof.Machine

/-! ## Elements and digests (R292, R306, R307) -/

/-- The format of a collective (R187). -/
def Coll.fmt (c : Coll) : Fmt := Fmt.get c.dtype

/-- The bytes of an element. -/
def Coll.elBytes (c : Coll) : Nat := c.fmt.bits / 8

/-- p ⊕ x for one element (R292). -/
def combineEl (f : Fmt) (redop p x : Nat) : ElRes :=
  match f, redop with
  | .int32, 0 => intAdd p x
  | .int32, 1 => intMax p x
  | .int32, _ => intMin p x
  | f, 0 => fpAdd f p x
  | f, 1 => fpMax f p x
  | f, _ => fpMin f p x

/-- The elements of bytes. -/
def elems (f : Fmt) (bs : List Byte) : List Nat :=
  let n := leNat bs
  (List.range (bs.length * 8 / f.bits)).map (fun i => bitsAt n (i * f.bits) f.bits)

/-- Whether an element is NaN or infinite (R306). -/
def elSpecial (f : Fmt) (e : Nat) : Bool :=
  match f with
  | .int32 => false
  | f => (f.decode e).isNan || (f.decode e).isInf

/-- p ⊕ x for bytes (R292): the result, whether an addition rounded, and whether a contributed or produced element is NaN
or infinite (R306). -/
def combineBytes (f : Fmt) (redop : Nat) (p x : List Byte) : List Byte × Bool × Bool :=
  let xs := elems f x
  let rs := List.zipWith (combineEl f redop) (elems f p) xs
  (packElems f.bits (rs.map Prod.fst), redop == 0 && rs.any (fun r => r.2.inx),
    xs.any (elSpecial f) || rs.any (fun r => elSpecial f r.1))

/-- An element in the units of its digest (R306): 1 for INT32, 2^−149 for FP32 and BF16. -/
def elUnits (f : Fmt) (e : Nat) : Int :=
  match f with
  | .int32 => signedOf 32 e
  | f =>
    match f.decode e with
    | .fin n m x => let v : Int := (m * 2 ^ (x + 149).toNat : Nat); if n then -v else v
    | _ => 0

/-- The digest of a piece (R306). -/
def digestOf (f : Fmt) (bs : List Byte) : Digest :=
  let es := elems f bs
  let vs := es.map (elUnits f)
  { s := vs.foldl (· + ·) 0,
    w := (vs.zipIdx.map (fun (v, i) => v * ((i : Int) + 1))).foldl (· + ·) 0,
    a := (vs.map (fun v => (v.natAbs : Int))).foldl (· + ·) 0,
    special := es.any (elSpecial f) }

/-- The sum of digests, with their flags (R306). -/
def Digest.add (x y : Digest) : Digest :=
  { s := x.s + y.s, w := x.w + y.w, a := x.a + y.a, inexact := x.inexact || y.inexact, special := x.special || y.special }

/-- A digest packet's payload (R309). -/
def Digest.bytes (d : Digest) : List Byte :=
  beBytes 48 (toSigned 384 d.s) ++ beBytes 48 (toSigned 384 d.w) ++ beBytes 48 (toSigned 384 d.a) ++
    beBytes 1 (d.inexact.toNat + 2 * d.special.toNat) ++ List.replicate 7 0

/-- Read a digest packet (R309). -/
def Digest.ofBytes (bs : List Byte) : Digest :=
  let g := fun a => signedOf 384 (beNat ((bs.drop a).take 48))
  let fl := (bs.getD 144 0).toNat
  ⟨g 0, g 48, g 96, bitAt fl 0, bitAt fl 1⟩

/-- How a comparison ends (R307). -/
inductive Cmp where
  | skipped | exact | bound | other | fails
  deriving DecidableEq, Repr

/-- Whether every element of `r` is at least (MAX) or at most (MIN) that of `x` (R307). -/
def dominates (f : Fmt) (redop : Nat) (r x : List Byte) : Bool :=
  (List.zipWith (fun a b =>
    let c : Int := match f with
      | .int32 => signedOf 32 a - signedOf 32 b
      | f => (f.decode a).cmp (f.decode b)
    if redop = 1 then decide (0 ≤ c) else decide (c ≤ 0)) (elems f r) (elems f x)).all id

/-- A comparison of *Digest comparison* for a sum or a gathered piece (R307): carried against found, for `n` elements of
`m` members. -/
def compareDigest (f : Fmt) (sum : Bool) (m n : Nat) (carried found : Digest) : Cmp :=
  if carried.special || found.special then .skipped
  else if f = .int32 ∧ sum = true then
    if (carried.s - found.s) % 2 ^ 32 = 0 ∧ (carried.w - found.w) % 2 ^ 32 = 0 then .exact else .fails
  else if sum = true ∧ carried.inexact = true then
    let k : Nat := if f = .bf16 then 2 ^ 8 else 2 ^ 24
    if (carried.s - found.s).natAbs * k ≤ (m - 1) * carried.a.natAbs ∧
        (carried.w - found.w).natAbs * k ≤ n * (m - 1) * carried.a.natAbs then .bound else .fails
  else if carried.s = found.s ∧ carried.w = found.w then .exact else .fails

/-- Count a comparison (R307, R314). -/
def Hw.countCmp (h : Hw) (v : Nat) (c : Cmp) : Hw :=
  match c with
  | .skipped => h.satFld (Fd.CVE_DROP_CNT.SKIPPED v) 1
  | .exact => h.satFld (Fd.CVE_CHECK_CNT.EXACT_PASS v) 1
  | .bound => h.satFld (Fd.CVE_CHECK_CNT.BOUND_PASS v) 1
  | _ => h

/-! ## Geometry of a ring collective (R291, R294, R303, R304) -/

/-- The bytes of a piece (R291). -/
def Coll.piece (c : Coll) : Nat := (if c.op = 2 then c.bytes else c.bytes / c.m) / 2

/-- The steps of a direction (R294). -/
def Coll.steps (c : Coll) : Nat := if c.op = 0 then 2 * c.m - 2 else c.m - 1

/-- Whether a step reduces (R294): phase 0 of an all-reduce, and a reduce-scatter. -/
def Coll.reduces (c : Coll) (s : Nat) : Bool := c.op != 2 && decide (s + 1 < c.m)

/-- The block that member `k` sends at step `s` in a direction (*Transfer steps*, R294). -/
def Coll.sentBlock (c : Coll) (k s dir : Nat) : Nat :=
  let m := c.m
  let up : Int := if c.op = 2 then s else if s + 1 < m then s + 1 else s + 1 - (m : Int)
  (((k : Int) + (if dir = 0 then -up else up)) % (m : Int)).toNat

/-- The neighbour that a direction's data go to, and the one that they come from (R291). -/
def Coll.next (c : Coll) (dir : Nat) : Nat := if dir = 0 then (c.me + 1) % c.m else (c.me + c.m - 1) % c.m
def Coll.prev (c : Coll) (dir : Nat) : Nat := if dir = 0 then (c.me + c.m - 1) % c.m else (c.me + 1) % c.m

/-- The block received at a step. -/
def Coll.recvBlock (c : Coll) (s dir : Nat) : Nat := c.sentBlock (c.prev dir) s dir

/-- The step at which a block of a phase is received; none where none is. -/
def Coll.recvStep (c : Coll) (dir phase block : Nat) : Option Nat :=
  (List.range c.steps).find? (fun s => c.reduces s == (phase == 0) && c.recvBlock s dir == block)

/-- Transfer order (R304): ascending c + s, ties to the smaller s. -/
def Coll.order (c : Coll) (nch : Nat) : List (Nat × Nat) :=
  (List.range (c.steps + nch - 1)).flatMap (fun t =>
    (List.range c.steps).filterMap (fun s => if s ≤ t ∧ t - s < nch then some (s, t - s) else none))

/-- A direction of a collective. -/
def Coll.dir (c : Coll) (d : Nat) : CDir := if d = 0 then c.wind else c.lee

/-- Change a direction. -/
def Coll.modDir (c : Coll) (d : Nat) (f : CDir → CDir) : Coll :=
  if d = 0 then { c with wind := f c.wind } else { c with lee := f c.lee }

/-- The chunk size of the hop to the next member (R303). -/
def Coll.sendChunk (c : Coll) (d : Nat) : Option Nat := (c.dir d).nbChunk.map (fun x => min x c.chunk)

/-- The chunk size of the hop from the previous member, whose ANNOUNCE grants credit of the other direction (R297, R303). -/
def Coll.recvChunk (c : Coll) (d : Nat) : Option Nat := (c.dir (1 - d)).nbChunk.map (fun x => min x c.chunk)

/-- The number of chunks of a piece. -/
def Coll.chunks (c : Coll) (size : Nat) : Nat := (c.piece + size - 1) / size

/-- The bytes of chunk `i`. -/
def Coll.chunkLen (c : Coll) (size i : Nat) : Nat := min size (c.piece - i * size)

/-- Bytes [lo, lo + len) of what has been gathered of a piece, when all are there. -/
def pieceBytes? (l : List (Nat × List Byte)) (lo len : Nat) : Option (List Byte) :=
  let at' := fun a => (l.find? (fun (o, b) => decide (o ≤ a) && decide (a < o + b.length))).map
    (fun (o, b) => b.getD (a - o) 0)
  (List.range len).foldl (fun acc i =>
    match acc, at' (lo + i) with
    | some bs, some b => some (bs ++ [b])
    | _, _ => none) (some [])

/-- The offset of a piece in the contribution (R291). -/
def Coll.srcOff (c : Coll) (block dir : Nat) : Nat :=
  if c.op = 2 then dir * c.piece else block * (c.bytes / c.m) + dir * c.piece

/-- The offset of a piece in the result (R291). -/
def Coll.dstOff (c : Coll) (block dir : Nat) : Nat :=
  if c.op = 2 then block * c.bytes + dir * c.piece
  else if c.op = 1 then dir * c.piece else block * (c.bytes / c.m) + dir * c.piece

/-- The size of the result (R291). -/
def Coll.dstBytes (c : Coll) : Nat := if c.op = 2 then c.m * c.bytes else if c.op = 1 then c.bytes / c.m else c.bytes

/-! ## Access to the context's memory -/

/-- Change a collective. -/
def Hw.modColl (h : Hw) (c : Coll) (f : Coll → Coll) : Hw :=
  { h with cve := { h.cve with colls := h.cve.colls.map (fun x =>
      if x.grp = c.grp ∧ x.seq = c.seq then f x else x) } }

/-- The collective of an entry and SEQ. -/
def Hw.coll? (h : Hw) (g s : Nat) : Option Coll := h.cve.colls.find? (fun c => c.grp == g && c.seq == s)

/-- The key by which an instruction in progress names its collective. -/
def collKey (g s : Nat) : Nat := g * 65536 + s

/-- Who makes a collective's accesses: the issuing TXE stream, through its CVE (R91, R134, R150). -/
def Coll.who (c : Coll) (x : Ctx) : Who :=
  let st := x.run.strm (strmKey c.lc c.lk 3)
  ⟨c.ctx, c.lc, c.lk, 3, (st.inflight.findIdx? (fun f => f.coll == some (collKey c.grp c.seq))).getD 0, some c.cve⟩

/-- Read bytes of the contribution (R91, R100, R121). -/
def Hw.collRead (h : Hw) (m : Mem) (c : Coll) (off len : Nat) : Hw × Except Cond (List Byte) :=
  match h.ctx? c.ctx with
  | none => (h, .ok (List.replicate len 0))
  | some x =>
    match h.srcRow m x (c.who x) c.src (c.srcV + (off : Nat), len) with
    | (h, .error e) => (h, .error e)
    | (h, .ok p) => (h, .ok (m.row p))

/-- Write bytes of the result (R91, R150). -/
def Hw.collWrite (h : Hw) (m : Mem) (c : Coll) (off : Nat) (bs : List Byte) : Hw × Except Cond (List Edit) :=
  match h.ctx? c.ctx with
  | none => (h, .ok [])
  | some x =>
    match h.dstRow m x (c.who x) c.dst (c.dstV + (off : Nat), bs.length) with
    | (h, .error e) => (h, .error e)
    | (h, .ok p) => (h, .ok (rowEdits m p bs))

/-! ## Faults (R308, R312, R380) -/

/-- The arguments of the COLL details (R380). -/
def collArgs (gid seq gen phase dir ring block chunk collId : Nat) : List Byte :=
  leBytes 2 gid ++ leBytes 2 seq ++ leBytes 1 gen ++ leBytes 1 phase ++ leBytes 1 dir ++ leBytes 1 0 ++
    leBytes 2 ring ++ leBytes 2 block ++ leBytes 4 chunk ++ leBytes 2 collId

/-- The CVE_ERR bit of a detail (*Collective faults*, R312). -/
def cveErr (v detail : Nat) : Option Fld :=
  if detail = dGroupInvalid ∨ detail = dGroupBusy then some (Fd.CVE_ERR.GROUP_INVALID v)
  else if detail = dSize ∨ detail = dPeerMismatch then some (Fd.CVE_ERR.PEER_MISMATCH v)
  else if detail = dSeq then some (Fd.CVE_ERR.STALE v)
  else if detail = dCollAdmitTimeout then some (Fd.CVE_ERR.ADMIT_TIMEOUT v)
  else if detail = dEarlyTimeout then some (Fd.CVE_ERR.EARLY_TIMEOUT v)
  else if detail = dChunkCrc then some (Fd.CVE_ERR.CHUNK_CRC v)
  else if detail = dDigestMismatch then some (Fd.CVE_ERR.DIGEST v)
  else none

/-- A collective's fault (R312): the CVE's bit, and the context that issued it. -/
def Hw.collFault (h : Hw) (c : Coll) (detail phase dir ring block chunk : Nat) : Hw :=
  (h.setErr (cveErr c.cve detail)).raise c.ctx
    ⟨detail, collArgs c.gid c.seq c.gen phase dir ring block chunk c.collId⟩ (punitHub c.cve 3) (lunitOf c.lc c.lk 3)
    (indexOf c.idx)

/-- A condition that a collective meets in the context's memory (R92, R100, R121, R153). -/
def Hw.collCond (h : Hw) (c : Coll) (e : Cond) : Hw := h.strmFault c.ctx c.lc c.lk 3 c.idx e
  (((h.ctx? c.ctx).bind (fun x => x.core? c.lc c.lk)).getD 0)

/-! ## Packets (R309) -/

/-- TSPEC of the ring packets. -/
def ringSpec (c : Coll) (dir phase kind block chunk seg : Nat) : Nat :=
  c.gid * 2 ^ 80 + c.seq * 2 ^ 64 + c.gen * 2 ^ 56 + dir * 2 ^ 55 + phase * 2 ^ 54 + kind * 2 ^ 52 + block * 2 ^ 36 +
    chunk * 2 ^ 16 + seg * 2 ^ 8

/-- TSPEC of COLL_CTRL. -/
def ctrlSpec (gid seq gen msg : Nat) : Nat := gid * 2 ^ 80 + seq * 2 ^ 64 + gen * 2 ^ 56 + msg * 2 ^ 52

/-- The FID of a ring index of a collective's group. -/
def Hw.collPeer (h : Hw) (c : Coll) (k : Nat) : Nat := h.groupMember c.grp k

/-- The code of a chunk size (R288). -/
def chunkCode (c : Nat) : Nat := Nat.log2 (c / 65536)

/-- Send an ANNOUNCE that grants credit of a direction to the member it comes from (R297). -/
def Hw.announce (h : Hw) (c : Coll) (dir : Nat) : Hw :=
  let pl := beBytes 1 c.op ++ beBytes 1 c.dtype ++ beBytes 1 c.redop ++ beBytes 1 (chunkCode c.chunk) ++ beBytes 2 c.m ++
    beBytes 2 c.me ++ beBytes 8 c.bytes ++ beBytes 1 dir ++ beBytes 1 (if c.phase = .staged then 1 else 0) ++
    List.replicate 14 0
  h.inject c.cve (h.packet (h.collPeer c (c.prev dir)) 1 0x11 (ctrlSpec c.gid c.seq c.gen 1) pl)

/-- Return credit of a direction (R304). -/
def Hw.sendCredit (h : Hw) (c : Coll) (dir n : Nat) : Hw :=
  if n = 0 then h
  else h.inject c.cve (h.packet (h.collPeer c (c.prev dir)) 1 0x11 (ctrlSpec c.gid c.seq c.gen 2)
    (beBytes 1 dir ++ beBytes 1 0 ++ beBytes 2 n))

/-- Drop a collective packet and count it (R290, R296, R298, R309, R314). -/
def Hw.staleDrop (h : Hw) (v : Nat) : Hw := h.satFld (Fd.CVE_DROP_CNT.STALE_DROP v) 1

/-! ## The gust path (R310, R311) -/

/-- TSPEC of a GUST packet. -/
def gustSpec (c : Coll) (lap nm1 ds dw : Nat) : Nat :=
  c.gid * 2 ^ 80 + c.seq * 2 ^ 64 + c.gen * 2 ^ 56 + lap * 2 ^ 55 + (if c.dtype = 0 then 1 else 0) * 2 ^ 54 +
    c.redop * 2 ^ 52 + nm1 * 2 ^ 49 + ds * 2 ^ 16 + dw

/-- Send a GUST packet to a ring index (R311). -/
def Hw.sendGust (h : Hw) (c : Coll) (dest lap ds dw : Nat) (data : List Byte) : Hw :=
  h.inject c.cve (h.packet (h.collPeer c dest) 0 0x04 (gustSpec c lap (c.bytes / 4 - 1) ds dw)
    ((data ++ List.replicate 32 0).take 32))

/-- The carried sums of a contribution: S modulo 2^32 and W modulo 2^16 for SUM, 0 otherwise (R310). -/
def gustSums (c : Coll) (bs : List Byte) : Nat × Nat :=
  if c.redop = 0 then
    let d := digestOf c.fmt bs
    (toSigned 32 d.s, toSigned 16 d.w)
  else (0, 0)

/-- Finish a collective (R91, R296): its channel, slots and part are free again. -/
def Hw.endColl (h : Hw) (c : Coll) : Hw :=
  let h := { h with cve := { h.cve with colls := h.cve.colls.filter (fun x => !(x.grp == c.grp && x.seq == c.seq)) } }
  h.modGrp c.grp (fun g => { g with last := some (match g.last with
    | none => c.seq
    | some l => if (c.seq + 2 ^ 16 - l) % 2 ^ 16 < 32768 then c.seq else l) })

/-- Check and deliver a gust result, then pass it on (R311). -/
def Hw.gustResult (h : Hw) (m : Mem) (c : Coll) (data : List Byte) (ds dw ring : Nat) : Hw × List Edit :=
  match h.collRead m c 0 c.bytes with
  | (h, .error e) => (h.collCond c e, [])
  | (h, .ok mine) =>
    let res := data.take c.bytes
    let found := gustSums c res
    let ok := if c.redop = 0 then found == (ds, dw) else dominates c.fmt c.redop res mine
    if ok then
      match h.collWrite m c 0 res with
      | (h, .error e) => (h.collCond c e, [])
      | (h, .ok es) =>
        let h := if c.redop = 0 then h.countCmp c.cve .exact else h
        let h := if c.me = c.m - 1 then h.sendGust c 0 1 ds dw res
          else if c.me + 2 < c.m then h.sendGust c (c.me + 1) 1 ds dw res
          else h
        ((h.modColl c (fun x => { x with finished := true })).endColl c, es)
    else (h.collFault c dDigestMismatch 1 0 ring 0 0, [])

/-- A GUST packet meets the admitted local contribution (R311). -/
def Hw.gustMeet (h : Hw) (m : Mem) (c : Coll) (p : Packet) : Hw × List Edit :=
  let t := p.tspec
  let ds := bitsAt t 16 32
  let dw := bitsAt t 0 16
  if bitsAt t 54 1 ≠ (if c.dtype = 0 then 1 else 0) ∨ bitsAt t 52 2 ≠ c.redop ∨ bitsAt t 49 3 + 1 ≠ c.bytes / 4 then
    (h.collFault c dPeerMismatch (bitsAt t 55 1) 0 (c.prev 0) 0 0, [])
  else if bitAt t 55 then h.gustResult m c p.payload ds dw (c.prev 0)
  else
    match h.collRead m c 0 c.bytes with
    | (h, .error e) => (h.collCond c e, [])
    | (h, .ok mine) =>
      let res := (combineBytes c.fmt c.redop (p.payload.take c.bytes) mine).1
      let own := gustSums c mine
      let ds := (ds + own.1) % 2 ^ 32
      let dw := (dw + own.2) % 2 ^ 16
      if c.me = c.m - 1 then h.gustResult m c res ds dw (c.prev 0)
      else (h.sendGust c (c.me + 1) 0 ds dw res, [])

/-! ## Starting a COLL (R91, R291, R295, R296, R310) -/

/-- Whether a collective takes the gust path (R310). -/
def Hw.gustPath (h : Hw) (g op dtype redop bytes : Nat) : Bool :=
  h.flag (Fd.CVE_GRP_W1.GUST_EN g) && op == 0 && decide (bytes ≤ 32) &&
    (dtype == 8 || (dtype == 0 && redop != 0))

/-- Whether BYTES meets *Sizes* (R291). -/
def sizeOk (op bytes m : Nat) : Bool := if op = 2 then bytes % 8 == 0 else bytes % (8 * m) == 0

/-- COLL (R91): alignment, the start checks of R295, the bounds of R291, binding (R290), and the collective enters the
admission queue; with one member the contribution is copied to the result. -/
def collWork (w : Work) (m : Mem) (h : Hw) : Hw × Except Cond (List Edit × Option Nat) :=
  let i := w.x.img
  let d := fun lo => (i.desc? w.w.lc w.w.lk (bitsAt w.word lo 12)).getD ⟨0, 0, 0, 0, 0, 0, []⟩
  let sd := d 80
  let dd := d 68
  let sv := sd.value w.fl.iters
  let dv := dd.value w.fl.iters
  let seq := i.valueOf w.w.lc w.w.lk (bitsAt w.word 56 12) w.fl.iters 16
  match i.colls.find? (fun c => c.id == bitsAt w.word 44 12) with
  | none => (h, .ok ([], none))
  | some dc =>
    let al : Nat := if dc.dtype = 1 then 2 else 4
    if sv % al ≠ 0 then (h, .error (alignCond sd w.w.lc w.w.lk sv))
    else if dv % al ≠ 0 then (h, .error (alignCond dd w.w.lc w.w.lk dv))
    else
      let g := dc.group
      let gid := h.fld (Fd.CVE_GRP_W0.GID g)
      let gen := h.fld (Fd.CVE_GRP_W1.GEN g)
      let mm := h.fld (Fd.CVE_GRP_W2.M g)
      let bad := fun detail => (h.setErr (cveErr (h.groupCve g) detail),
        (Except.error ⟨detail, collArgs gid seq gen 0 0 0xFFFF 0 0 dc.id⟩ : Except Cond (List Edit × Option Nat)))
      if h.groupLive g = false ∨ h.fld (Fd.CVE_GRP_W0.JOB g) ≠ w.x.host.job then bad dGroupInvalid
      else if h.flag (Fd.CVE_GRP_W1.BOUND g) = true ∧ h.fld (Fd.CVE_GRP_W3.CTX g) ≠ w.w.c then bad dGroupBusy
      else if sizeOk dc.op dc.bytes mm = false then bad dSize
      else if h.seqCurrent g seq = false ∨ (h.coll? g seq).isSome = true then bad dSeq
      else
        let c : Coll :=
          { ctx := w.w.c, lc := w.w.lc, lk := w.w.lk, idx := w.fl.idx, grp := g, gid := gid, seq := seq, gen := gen,
            op := dc.op, dtype := dc.dtype, redop := dc.redop, collId := dc.id, stageOk := dc.stageOk,
            bytes := dc.bytes, m := mm, me := h.fld (Fd.CVE_GRP_W2.MY_INDEX g),
            gust := h.gustPath g dc.op dc.dtype dc.redop dc.bytes, src := sd.unit w.w.lc w.w.lk, srcV := sv,
            dst := dd.unit w.w.lc w.w.lk, dstV := dv, startTb := h.tb, cve := h.groupCve g }
        match w.x.resolve c.src sv c.bytes, w.x.resolve c.dst dv c.dstBytes with
        | .error e, _ => (h, .error e)
        | _, .error e => (h, .error e)
        | .ok _, .ok _ =>
          let h := (h.setFlag (Fd.CVE_GRP_W1.BOUND g) true).setFld (Fd.CVE_GRP_W3.CTX g) w.w.c
          if mm = 1 then
            match h.collRead m c 0 c.bytes with
            | (h, .error e) => (h, .error e)
            | (h, .ok bs) =>
              match h.collWrite m c 0 bs with
              | (h, .error e) => (h, .error e)
              | (h, .ok es) => (h.endColl c, .ok (es, none))
          else
            ({ h with cve := { h.cve with colls := h.cve.colls ++ [c] } }, .ok ([], some (collKey g seq)))

/-- The group-table entry that a COLL's declaration names (R187). -/
def Work.collGroup (w : Work) : Nat :=
  ((w.x.img.colls.find? (fun c => c.id == bitsAt w.word 44 12)).map (·.group)).getD 0

/-- The unit that a COLL's condition names: the CVE for a COLL detail, else the engine (R380). -/
def collEff (r : StreamRef) (sn : Seen) (s : State) : Eff :=
  match s.hw.work r 0x43 with
  | none => { hw := s.hw }
  | some w =>
    match collWork w (s.mem.seen sn) (s.hw.seen sn) with
    | (h, .error e) =>
      let h := if e.detail / 256 = 6 then
          h.raise w.w.c e (punitHub (s.hw.groupCve (w.collGroup)) 3) (lunitOf w.w.lc w.w.lk w.w.s) (indexOf w.fl.idx)
        else h.workFault w e
      { hw := h, edits := seenEdits sn }
    | (h, .ok (es, k)) => { hw := h.markDone w.w (fun f => { f with coll := k }), edits := seenEdits sn ++ es }
/-- COLL (R91). -/
def execColl (r : StreamRef) (sn : Seen) (s : State) : Res := done s (collEff r sn s)

/-! ## Admission (R297, R299–R301) -/

/-- Slots of 512 KiB for a chunk size (R299). -/
def collSlots (c : Nat) : Nat := (4 * c + 524287) / 524288

/-- Channels and free slots of a CVE (R299). -/
def Hw.channels (h : Hw) (v : Nat) : Nat := (h.cve.colls.filter (fun c => c.cve == v && c.phase != .waiting)).length
def Hw.slotsFree (h : Hw) (v : Nat) : Nat :=
  h.fld (Fd.HUB_PRIVMEM_STATUS.CVE_SLOTS_GOOD v) -
    ((h.cve.colls.filter (fun c => c.cve == v && c.phase == .running)).map (·.slots)).foldl (· + ·) 0

/-- The CVE that a waiting collective would be admitted by (R288): code 0b10 names the one with more free slots. -/
def Hw.cveOf (h : Hw) (c : Coll) : Nat :=
  if h.fld (Fd.CVE_GRP_W1.CVE c.grp) = 2 then (if h.slotsFree 0 < h.slotsFree 1 then 1 else 0) else h.groupCve c.grp

/-- The admission queue of a CVE (R300): highest PRIO first, then COLL start time. -/
def Hw.admitQueue (h : Hw) (v : Nat) : List Coll :=
  let ws := h.cve.colls.filter (fun c => c.phase == .waiting && !c.timedOut && h.cveOf c == v)
  [3, 2, 1, 0].flatMap (fun p => ws.filter (fun c => h.fld (Fd.CVE_GRP_W1.PRIO c.grp) == p))

/-- Halve a chunk size while its slots are not free (R300). -/
def fitChunk : Nat → Nat → Nat → Nat
  | 0, _, c => c
  | fuel + 1, free, c => if free < collSlots c ∧ 65536 < c then fitChunk fuel free (c / 2) else c

/-- A neighbour's ANNOUNCE meets the admitted local collective (R297): it grants two chunks of a direction, or disagrees. -/
def Hw.meetAnnounce (h : Hw) (c : Coll) (p : Packet) : Hw :=
  let g := fun a k => beNat ((p.payload.drop a).take k)
  let dir := g 16 1 % 2
  if g 0 1 ≠ c.op ∨ g 1 1 ≠ c.dtype ∨ (g 2 1 ≠ c.redop ∧ c.op ≠ 2) ∨ g 4 2 ≠ c.m ∨ g 6 2 ≠ c.next dir ∨
      g 8 8 ≠ c.bytes then
    h.collFault c dPeerMismatch 0 dir (g 6 2) 0 0
  else
    h.modColl c (fun x => x.modDir dir (fun d =>
      if d.nbChunk.isSome then d else { d with nbChunk := some (65536 * 2 ^ g 3 1), credit := 2 }))

/-- A collective is admitted (R297, R298, R311): ANNOUNCEs go out, its slot of the pool is taken, and ring index 0 of a
gust group sends lap 0. -/
def Hw.admitted (h : Hw) (m : Mem) (c : Coll) : Hw × List Edit :=
  let early := (h.grp c.grp).pool.find? (fun e => e.seq == c.seq)
  let h := h.modGrp c.grp (fun g => { g with pool := g.pool.filter (fun e => e.seq != c.seq) })
  if c.gust then
    let (h, es) := if c.me = 0 then
        match h.collRead m c 0 c.bytes with
        | (h, .error e) => (h.collCond c e, [])
        | (h, .ok bs) => let (ds, dw) := gustSums c bs; (h.sendGust c 1 0 ds dw bs, ([] : List Edit))
      else (h, [])
    match early.bind (·.gust) with
    | some p => let (h, fs) := h.gustMeet m c p; (h, es ++ fs)
    | none => (h, es)
  else
    let h := (h.announce c 0).announce c 1
    ((early.map (·.ann)).getD [] |>.foldl (fun h p => h.meetAnnounce c p) h, [])

/-- The procedure admit (R300): a collective that cannot be admitted holds back every one behind it. -/
def Hw.admitAll (m : Mem) (v : Nat) : Hw → List Coll → Hw × List Edit
  | h, [] => (h, [])
  | h, c :: cs =>
    if 32 ≤ h.channels v then (h, [])
    else
      let want := 65536 * 2 ^ h.fld (Fd.CVE_GRP_W1.CHUNK c.grp)
      let size := if c.gust then 0 else fitChunk 4 (h.slotsFree v) want
      let slots := if c.gust then 0 else collSlots size
      if c.gust = false ∧ h.slotsFree v < slots then (h, [])
      else
        let c' := { c with phase := .running, cve := v, chunk := size, slots := slots, admitTb := h.tb }
        let (h, es) := (h.modColl c (fun _ => c')).admitted m c'
        let (h, fs) := Hw.admitAll m v h cs
        (h, es ++ fs)

/-- The effect of COLL_ADMIT on a CVE. -/
def collAdmitEff (v : Fin 2) (sn : Seen) (s : State) : Eff :=
  let h := s.hw.seen sn
  let (h, es) := Hw.admitAll (s.mem.seen sn) v h (h.admitQueue v)
  { hw := h, edits := seenEdits sn ++ es }
/-- COLL_ADMIT (R300). -/
def execCollAdmit (v : Fin 2) (sn : Seen) (s : State) : Res := done s (collAdmitEff v sn s)

/-- 256 KiB parts of the staging region (R301). -/
def Ctx.stagingParts (x : Ctx) : Nat :=
  match x.img.decl.staging with
  | none => 0
  | some r => ((x.img.hbm? r).map (fun d => d.pages * 8)).getD 0

/-- A collective has waited 100 ms for admission (R301): it leaves the queue for staged mode, or its context faults. -/
def admitTimeoutWork (g seq : Nat) (m : Mem) (h : Hw) : Hw × List Edit :=
  match h.coll? g seq with
  | none => (h, [])
  | some c =>
    if c.phase = .waiting ∧ c.timedOut = false ∧ c.startTb + 100000000 ≤ h.tb then
      let v := h.cveOf c
      let used := h.cve.colls.filterMap (fun x => if x.ctx = c.ctx then x.part else none)
      let part := (List.range (((h.ctx? c.ctx).map Ctx.stagingParts).getD 0)).find? (fun p => !used.contains p)
      match c.stageOk && decide (h.channels v < 32), part with
      | true, some p =>
        let c' := { c with phase := .staged, cve := v, chunk := 65536, slots := 0, part := some p, timedOut := true,
                           admitTb := h.tb }
        (h.modColl c (fun _ => c')).admitted m c'
      | _, _ => ((h.modColl c (fun x => { x with timedOut := true })).collFault c dCollAdmitTimeout 0 0 0xFFFF 0 0, [])
    else (h, [])

/-- The effect of COLL_ADMIT_TIMEOUT. -/
def admitTimeoutEff (g : Fin 1024) (seq : BitVec 16) (s : State) : Eff :=
  let (h, es) := admitTimeoutWork g.val seq.toNat s.mem s.hw
  { hw := h, edits := es }
/-- COLL_ADMIT_TIMEOUT (R301). -/
def execCollAdmitTimeout (g : Fin 1024) (seq : BitVec 16) (s : State) : Res := done s (admitTimeoutEff g seq s)

/-! ## Arrivals (R290, R296–R298, R309) -/

/-- The fields that every collective packet shares (R309). -/
def Packet.cGid (p : Packet) : Nat := bitsAt p.tspec 80 16
def Packet.cSeq (p : Packet) : Nat := bitsAt p.tspec 64 16
def Packet.cGen (p : Packet) : Nat := bitsAt p.tspec 56 8

/-- Act on a collective packet of a live entry whose SEQ is current (R290, R296); otherwise drop and count it. -/
def Hw.collPacket (h : Hw) (p : Packet) (ok : Bool) (f : Nat → Hw → Hw × List Edit) : Hw × List Edit :=
  match h.groupOf (Packet.cGid p) (Packet.cGen p) with
  | none => (h.staleDrop 0, [])
  | some g => if ok && h.seqCurrent g (Packet.cSeq p) then f g h else (h.staleDrop (h.groupCve g), [])

/-- Put an arrival into the early-arrival pool (R298); false where a ninth SEQ finds it full. -/
def Grp.early (g : Grp) (seq tb : Nat) (f : Early → Early) : Grp × Bool :=
  if g.pool.any (fun e => e.seq == seq) then
    ({ g with pool := g.pool.map (fun e => if e.seq = seq then f e else e) }, true)
  else if g.pool.length < 8 then ({ g with pool := g.pool ++ [f ⟨seq, tb, [], none⟩] }, true)
  else (g, false)

/-- The effect of a delivered packet of one kind on the machine. -/
def deliveredEff (sn : Seen) (s : State) (is : Packet → Bool) (f : Deliv → Mem → Hw → Hw × List Edit) : Eff :=
  match s.hw.delivered is with
  | none => { hw := s.hw }
  | some d =>
    let (h, es) := f d (s.mem.seen sn) ((s.hw.undeliver is).seen sn)
    { hw := h, edits := seenEdits sn ++ es }

/-- The message type of a COLL_CTRL packet. -/
def Packet.cMsg (p : Packet) : Nat := bitsAt p.tspec 52 4

/-- An ANNOUNCE arrives (R297, R298): the admitted local collective takes it; before that it waits in the pool, or is
refused where the pool is full. -/
def announceIn (d : Deliv) (h : Hw) : Hw × List Edit :=
  h.collPacket d.p (d.p.payload.length == 32) (fun g h =>
    match h.coll? g (Packet.cSeq d.p) with
    | some c =>
      if c.phase ≠ .waiting then (h.meetAnnounce c d.p, [])
      else
        let (x, ok) := (h.grp g).early (Packet.cSeq d.p) h.tb (fun e => { e with ann := e.ann ++ [d.p] })
        if ok then (h.modGrp g (fun _ => x), []) else refuse g h
    | none =>
      let (x, ok) := (h.grp g).early (Packet.cSeq d.p) h.tb (fun e => { e with ann := e.ann ++ [d.p] })
      if ok then (h.modGrp g (fun _ => x), []) else refuse g h)
where
  refuse (g : Nat) (h : Hw) : Hw × List Edit :=
    let v := h.groupCve g
    let h := h.setFlag (Fd.CVE_ERR.REFUSED v) true
    (h.inject v (h.packet d.p.src 1 0x11 (ctrlSpec (Packet.cGid d.p) (Packet.cSeq d.p) (Packet.cGen d.p) 3)
      (List.replicate 4 0)), [])

def isCtrl (msg : Nat) (p : Packet) : Bool := p.ptype == 0x11 && Packet.cMsg p == msg

def announceEff (s : State) : Eff := deliveredEff Seen.clean s (isCtrl 1) (fun d _ h => announceIn d h)
/-- ANNOUNCE_RECEIVE (R297). -/
def execAnnounceReceive (s : State) : Res := done s (announceEff s)

/-- A REFUSE (R298): the ANNOUNCEs to that neighbour are repeated after 1 ms. -/
def refuseIn (d : Deliv) (h : Hw) : Hw × List Edit :=
  h.collPacket d.p (d.p.payload.length == 4) (fun g h =>
    match h.coll? g (Packet.cSeq d.p) with
    | none => (h, [])
    | some c =>
      let dirs := [0, 1].filter (fun dir => h.collPeer c (c.prev dir) == d.p.src)
      let due := dirs.map (fun dir => (dir, h.tb + 1000000))
      (h.modColl c (fun x => { x with refusedTb := due ++ x.refusedTb.filter (fun r => !dirs.contains r.1) }), []))

def refuseEff (s : State) : Eff := deliveredEff Seen.clean s (isCtrl 3) (fun d _ h => refuseIn d h)
/-- REFUSE_RECEIVE (R298). -/
def execRefuseReceive (s : State) : Res := done s (refuseEff s)

/-- A refused ANNOUNCE is sent again every 1 ms (R298). -/
def announceRepeatHw (g : Fin 1024) (seq : BitVec 16) (h : Hw) : Hw :=
  match h.coll? g seq.toNat with
  | none => h
  | some c =>
    let due := c.refusedTb.filter (fun r => decide (r.2 ≤ h.tb))
    let h := due.foldl (fun h r => h.announce c r.1) h
    h.modColl c (fun x => { x with refusedTb := x.refusedTb.filter (fun r => !decide (r.2 ≤ h.tb)) })
/-- ANNOUNCE_REPEAT (R298). -/
def execAnnounceRepeat (g : Fin 1024) (seq : BitVec 16) (s : State) : Res := keep s (announceRepeatHw g seq s.hw)

/-- A full pool whose oldest slot has waited EARLY_TO_MS (R298): the bound context faults; with none bound the event is
logged, the pool discarded and a Squall sent. -/
def earlyTimeoutHw (g : Fin 1024) (h : Hw) : Hw :=
  match (h.grp g).pool with
  | [] => h
  | e :: es =>
    let oldest := es.foldl (fun a x => min a x.tb) e.tb
    if es.length = 7 ∧ oldest + h.fld Fd.CVE_CTRL.EARLY_TO_MS * 1000000 ≤ h.tb then
      let v := h.groupCve g
      let gid := h.fld (Fd.CVE_GRP_W0.GID g)
      let gen := h.fld (Fd.CVE_GRP_W1.GEN g)
      let seq := ((e :: es).find? (fun x => x.tb == oldest)).map (·.seq) |>.getD e.seq
      let args := collArgs gid seq gen 0 0 0xFFFF 0 0 0
      if h.flag (Fd.CVE_GRP_W1.BOUND g) then
        (h.setErr (cveErr v dEarlyTimeout)).raise (h.fld (Fd.CVE_GRP_W3.CTX g)) ⟨dEarlyTimeout, args⟩ (punitHub v 3) 0 0
      else
        let h := h.setErr (cveErr v dEarlyTimeout)
        let h := h.modGrp g (fun x => { x with pool := [] })
        let job := h.fld (Fd.CVE_GRP_W0.JOB g)
        let r : FaultRec := ⟨h.tb, job, 0xFF, 6, dEarlyTimeout, 4, 0, punitHub v 3, 0, 0, h.fld Fd.FR_FID.FID, padArgs args⟩
        let h := h.log 0 logFault dEarlyTimeout (r.bytes true)
        match h.squallPeers job with
        | some ps => h.sendSquall { r with flags := 6 } 0xFFFF ps
        | none => h
    else h
/-- EARLY_TIMEOUT (R298). -/
def execEarlyTimeout (g : Fin 1024) (s : State) : Res := keep s (earlyTimeoutHw g s.hw)

/-! ## Receiving segments (R303–R308) -/

/-- Fields of COLL_DATA and STAGED_DATA (R309). -/
def Packet.cDir (p : Packet) : Nat := bitsAt p.tspec 55 1
def Packet.cPhase (p : Packet) : Nat := bitsAt p.tspec 54 1
def Packet.cKind (p : Packet) : Nat := bitsAt p.tspec 52 2
def Packet.cBlock (p : Packet) : Nat := bitsAt p.tspec 36 16
def Packet.cChunk (p : Packet) : Nat := bitsAt p.tspec 16 20
def Packet.cSeg (p : Packet) : Nat := bitsAt p.tspec 8 8

def isRing (kind : Nat) (p : Packet) : Bool :=
  (p.ptype == 0x10 || p.ptype == 0x30) && Packet.cKind p == kind

/-- The key of a chunk received at a step. -/
def rxKey (s ch : Nat) : Nat := s * 2 ^ 20 + ch

/-- The bytes of a chunk whose data segments have all arrived. -/
def RxChunk.whole (x : RxChunk) (len : Nat) : Option (List Byte) :=
  let bs := x.segs.flatMap (·.2)
  if bs.length = len ∧ x.segs.length = (len + 4095) / 4096 then some bs else none

/-- Release received chunks of a step that end by `upto` (R304): their credit returns. -/
def Hw.releaseRx (h : Hw) (c : Coll) (dir s upto : Nat) : Hw :=
  match h.coll? c.grp c.seq with
  | none => h
  | some c =>
    match c.recvChunk dir with
    | none => h
    | some size =>
      let hit := fun (e : Nat × RxChunk) => e.1 / 2 ^ 20 == s && e.2.checked && !e.2.released &&
        decide (e.1 % 2 ^ 20 * size + c.chunkLen size (e.1 % 2 ^ 20) ≤ upto)
      let n := (List.filter hit (c.dir dir).rx).length
      let h := h.modColl c (fun c => c.modDir dir (fun d => { d with
        rx := List.map (fun e => if hit e then (e.1, { e.2 with released := true, segs := [] }) else e) d.rx }))
      h.sendCredit c dir n

/-- The collective as it stands. -/
def Hw.again (h : Hw) (c : Coll) : Coll := (h.coll? c.grp c.seq).getD c

/-- Whether nothing is left to send or to check in a direction. -/
def Coll.dirDone (c : Coll) (dir : Nat) : Bool :=
  decide (c.steps ≤ (c.dir dir).passed.length) && decide (c.steps ≤ (c.dir dir).digSent.length)

/-- The collective is written and, when everything is sent, ends (R91). For an all-gather the member's own block is
copied with it (R291). -/
def Hw.settleEnd (h : Hw) (m : Mem) (c : Coll) : Hw × List Edit :=
  let c := h.again c
  let got := fun d => decide (c.steps ≤ (c.dir d).passed.length)
  if got 0 && got 1 then
    let (h, es) : Hw × List Edit := if c.op = 2 ∧ c.finished = false then
        match h.collRead m c 0 c.bytes with
        | (h, .error e) => (h.collCond c e, [])
        | (h, .ok bs) =>
          match h.collWrite m c (c.me * c.bytes) bs with
          | (h, .error e) => (h.collCond c e, [])
          | (h, .ok es) => (h, es)
      else (h, [])
    let h := h.modColl c (fun x => { x with finished := true })
    (if c.dirDone 0 && c.dirDone 1 then h.endColl c else h, es)
  else (h, [])

/-- A piece whose data and digest are both there (R306–R308): a middle member of a reduce phase adds its own digest; the
owner and every gather receiver compare. On a pass the piece is used; a failure faults the context, and nothing is
written. -/
def Hw.settle (h : Hw) (m : Mem) (c : Coll) (dir s : Nat) : Hw × List Edit :=
  let c := h.again c
  let d := c.dir dir
  if d.passed.contains s then (h, [])
  else
    match d.digIn.find? s, pieceBytes? (d.out.getD (s + 1) []) 0 c.piece with
    | some dg, some bs =>
      let block := c.recvBlock s dir
      let n := c.piece / c.elBytes
      let flags := d.digOut.getD (s + 1) ⟨0, 0, 0, false, false⟩
      let own := h.collRead m c (c.srcOff block dir) c.piece
      if c.reduces s then
        match own with
        | (h, .error e) => (h.collCond c e, [])
        | (h, .ok mine) =>
          let carried := (dg.add (digestOf c.fmt mine)).add flags
          if s + 2 < c.m then
            (h.modColl c (fun x => x.modDir dir (fun d =>
              { d with digOut := d.digOut.put (s + 1) carried, passed := insNat d.passed s })), [])
          else
            let found := digestOf c.fmt bs
            let r := if c.redop = 0 then compareDigest c.fmt true c.m n carried found
              else if carried.special || found.special then .skipped
              else if dominates c.fmt c.redop bs mine then .other else .fails
            use h c dir s block bs (if c.redop = 0 then carried else found) r
      else
        let sum := c.op = 0 && c.redop == 0
        use h c dir s block bs dg (compareDigest c.fmt sum c.m n dg (digestOf c.fmt bs))
    | _, _ => (h, [])
where
  use (h : Hw) (c : Coll) (dir s block : Nat) (bs : List Byte) (out : Digest) (r : Cmp) : Hw × List Edit :=
    if r = .fails then (h.collFault c dDigestMismatch (if c.reduces s then 0 else 1) dir (c.prev dir) block 0, [])
    else
      let h := h.countCmp c.cve r
      match h.collWrite m c (c.dstOff block dir) bs with
      | (h, .error e) => (h.collCond c e, [])
      | (h, .ok es) =>
        let h := h.modColl c (fun x => x.modDir dir (fun d =>
          { d with digOut := d.digOut.put (s + 1) out, passed := insNat d.passed s }))
        let (h, fs) := h.settleEnd (m.edit es) c
        (h, es ++ fs)

/-- A chunk that is complete (R305): a wrong CRC faults the context; a right one lets a reduce step wait for the
reduction unit, and makes a gathered chunk part of its piece. -/
def Hw.checkChunk (h : Hw) (m : Mem) (c : Coll) (dir s ch : Nat) : Hw × List Edit :=
  let c := h.again c
  match c.recvChunk dir, (c.dir dir).rx.find? (rxKey s ch) with
  | some size, some x =>
    match x.whole (c.chunkLen size ch), x.crc with
    | some bs, some crc =>
      if x.checked then (h, [])
      else if crc64 bs ≠ crc then
        (h.collFault c dChunkCrc (if c.reduces s then 0 else 1) dir (c.prev dir) (c.recvBlock s dir) ch, [])
      else
        let h := h.modColl c (fun y => y.modDir dir (fun d => { d with rx := d.rx.put (rxKey s ch) { x with checked := true } }))
        if c.reduces s then (h, [])
        else
          let h := h.modColl c (fun y => y.modDir dir (fun d => { d with out := d.out.upd (s + 1) [] (· ++ [(ch * size, bs)]) }))
          let h := if s + 1 = c.steps then h.releaseRx c dir s (ch * size + bs.length) else h
          h.settle m c dir s
    | _, _ => (h, [])
  | _, _ => (h, [])

/-- A segment of an admitted ring collective arrives; any other is dropped (R296, R297, R304, R309). -/
def Hw.ringIn (h : Hw) (p : Packet) (ok : Bool) (f : Coll → Nat → Hw → Hw × List Edit) : Hw × List Edit :=
  h.collPacket p ok (fun g h =>
    match h.coll? g (Packet.cSeq p) with
    | none => (h.staleDrop (h.groupCve g), [])
    | some c =>
      if c.phase = .waiting ∨ c.gust = true then (h.staleDrop c.cve, [])
      else
        match c.recvStep (Packet.cDir p) (Packet.cPhase p) (Packet.cBlock p) with
        | none => (h.staleDrop c.cve, [])
        | some s => f c s h)

/-- A data segment (R303, R304): a segment that is already held is discarded. -/
def dataIn (d : Deliv) (m : Mem) (h : Hw) : Hw × List Edit :=
  h.ringIn d.p true (fun c s h =>
    let dir := Packet.cDir d.p
    let ch := Packet.cChunk d.p
    let x := (c.dir dir).rx.getD (rxKey s ch) {}
    if x.checked || (x.segs.find? (Packet.cSeg d.p)).isSome then (h, [])
    else
      let h := h.modColl c (fun y => y.modDir dir (fun d' => { d' with
        rx := d'.rx.put (rxKey s ch) { x with segs := x.segs.put (Packet.cSeg d.p) d.p.payload } }))
      h.checkChunk m c dir s ch)

def collDataEff (sn : Seen) (s : State) : Eff := deliveredEff sn s (isRing 0) (fun d m h => dataIn d m h)
/-- COLL_DATA_RECEIVE (R304). -/
def execCollDataReceive (sn : Seen) (s : State) : Res := done s (collDataEff sn s)

/-- A CRC segment (R305). -/
def crcIn (d : Deliv) (m : Mem) (h : Hw) : Hw × List Edit :=
  h.ringIn d.p (d.p.payload.length == 8 && Packet.cSeg d.p == 0) (fun c s h =>
    let dir := Packet.cDir d.p
    let ch := Packet.cChunk d.p
    let x := (c.dir dir).rx.getD (rxKey s ch) {}
    if x.crc.isSome then (h, [])
    else
      let h := h.modColl c (fun y => y.modDir dir (fun d' => { d' with
        rx := d'.rx.put (rxKey s ch) { x with crc := some (beNat d.p.payload) } }))
      h.checkChunk m c dir s ch)

def crcEff (sn : Seen) (s : State) : Eff := deliveredEff sn s (isRing 1) (fun d m h => crcIn d m h)
/-- CRC_SEGMENT_RECEIVE (R305). -/
def execCrcSegmentReceive (sn : Seen) (s : State) : Res := done s (crcEff sn s)

/-- A digest (R306). -/
def digestIn (d : Deliv) (m : Mem) (h : Hw) : Hw × List Edit :=
  h.ringIn d.p (d.p.payload.length == 152) (fun c s h =>
    let dir := Packet.cDir d.p
    if ((c.dir dir).digIn.find? s).isSome then (h, [])
    else
      let h := h.modColl c (fun y => y.modDir dir (fun d' => { d' with digIn := d'.digIn.put s (Digest.ofBytes d.p.payload) }))
      h.settle m c dir s)

def digestEff (sn : Seen) (s : State) : Eff := deliveredEff sn s (isRing 2) (fun d m h => digestIn d m h)
/-- DIGEST_RECEIVE (R306). -/
def execDigestReceive (sn : Seen) (s : State) : Res := done s (digestEff sn s)

/-- A CREDIT (R304). -/
def creditIn (d : Deliv) (h : Hw) : Hw × List Edit :=
  h.collPacket d.p (d.p.payload.length == 4) (fun g h =>
    match h.coll? g (Packet.cSeq d.p) with
    | none => (h.staleDrop (h.groupCve g), [])
    | some c =>
      let n := beNat ((d.p.payload.drop 2).take 2)
      (h.modColl c (fun x => x.modDir ((d.p.payload.getD 0 0).toNat % 2) (fun y => { y with credit := y.credit + n })), []))

def creditEff (s : State) : Eff := deliveredEff Seen.clean s (isCtrl 2) (fun d _ h => creditIn d h)
/-- COLL_CREDIT_RECEIVE (R304). -/
def execCollCreditReceive (s : State) : Res := done s (creditEff s)

/-! ## The reduction unit (R292, R299) -/

/-- A chunk that waits for the reduction unit: its direction, step and index. -/
def Coll.toReduce (c : Coll) : Option (Nat × Nat × Nat) :=
  [0, 1].findSome? (fun dir =>
    match c.recvChunk dir with
    | none => none
    | some size =>
      (List.find? (fun (e : Nat × RxChunk) => e.2.checked && c.reduces (e.1 / 2 ^ 20) &&
        decide (e.2.reduced < c.chunkLen size (e.1 % 2 ^ 20))) (c.dir dir).rx).map
          (fun e => (dir, e.1 / 2 ^ 20, e.1 % 2 ^ 20)))

/-- One turn of a CVE's reduction unit (R299): one 4,096-byte segment of the next channel in its round robin. -/
def reduceWork (v : Nat) (m : Mem) (h : Hw) : Hw × List Edit :=
  let t := h.cve.turn.getD v 0
  let cs := h.cve.colls.filter (fun c => c.cve == v && c.phase != .waiting)
  let rot := (cs.drop (t % (cs.length + 1))) ++ cs.take (t % (cs.length + 1))
  match rot.findSome? (fun c => c.toReduce.map (fun w => (c, w))) with
  | none => (h, [])
  | some (c, dir, s, ch) =>
    let pos := (cs.findIdx? (fun x => x.grp == c.grp && x.seq == c.seq)).getD 0
    let h := { h with cve := { h.cve with turn := h.cve.turn.put v (pos + 1) } }
    match c.recvChunk dir, (c.dir dir).rx.find? (rxKey s ch) with
    | some size, some x =>
      let len := c.chunkLen size ch
      let bs := ((x.whole len).getD []).drop x.reduced |>.take 4096
      let off := ch * size + x.reduced
      match h.collRead m c (c.srcOff (c.recvBlock s dir) dir + off) bs.length with
      | (h, .error e) => (h.collCond c e, [])
      | (h, .ok mine) =>
        let (res, inx, sp) := combineBytes c.fmt c.redop bs mine
        let h := h.countCve v 0x70 1
        let h := h.modColl c (fun y => y.modDir dir (fun d =>
          let f := d.digOut.getD (s + 1) ⟨0, 0, 0, false, false⟩
          { d with rx := d.rx.put (rxKey s ch) { x with reduced := x.reduced + bs.length },
                   out := d.out.upd (s + 1) [] (· ++ [(off, res)]),
                   digOut := d.digOut.put (s + 1) { f with inexact := f.inexact || inx, special := f.special || sp } }))
        let h := if s + 2 = c.m ∧ x.reduced + bs.length = len then h.releaseRx c dir s (ch * size + len) else h
        h.settle m c dir s
    | _, _ => (h, [])

def reduceEff (v : Fin 2) (sn : Seen) (s : State) : Eff :=
  let (h, es) := reduceWork v (s.mem.seen sn) (s.hw.seen sn)
  { hw := h, edits := seenEdits sn ++ es }
/-- REDUCE_SEGMENT (R299). -/
def execReduceSegment (v : Fin 2) (sn : Seen) (s : State) : Res := done s (reduceEff v sn s)

/-! ## Sending (R302–R306) -/

/-- What a collective has ready to send in a direction: the digest of a step whose chunks have gone, or the next segment
of the next chunk in transfer order (R302–R306). -/
inductive Ready where
  | digest (s : Nat)
  | data (s ch : Nat)
  deriving DecidableEq, Repr

/-- Whether the data of a chunk to be sent are complete (R302). -/
def Coll.dataReady (c : Coll) (dir s off len : Nat) : Bool :=
  s == 0 || (pieceBytes? ((c.dir dir).out.getD s []) off len).isSome

/-- What a direction has ready to send. -/
def Coll.ready (c : Coll) (dir : Nat) : Option Ready :=
  match c.sendChunk dir with
  | none => none
  | some size =>
    let d := c.dir dir
    let nch := c.chunks size
    let ord := c.order nch
    let sentAll := fun s => ((ord.take d.pos).filter (fun q => q.1 == s)).length == nch
    let dg := (List.range c.steps).find? (fun s => !d.digSent.contains s && sentAll s && (s == 0 || d.passed.contains (s - 1)))
    match d.open_, dg, ord[d.pos]? with
    | false, some s, _ => some (.digest s)
    | op, _, some (s, ch) =>
      let off := ch * size
      if (op || decide (0 < d.credit)) && c.dataReady dir s off (c.chunkLen size ch) then some (.data s ch) else none
    | _, _, none => none

/-- The weight of a flow and the bytes it has sent (R302): a shared collective by itself, or the link set of a serial
one. -/
def Hw.flowOf (h : Hw) (c : Coll) : Nat × Nat :=
  let wt := max 1 (h.fld (Fd.CVE_GRP_W1.WEIGHT c.grp))
  if h.flag (Fd.CVE_GRP_W1.MODE c.grp) then (h.cve.lsets.getD (c.cve * 16 + h.fld (Fd.CVE_GRP_W1.LSET c.grp)) 0, wt)
  else (c.fair, wt)

/-- Whether a serial collective must let another of its link set go first (R302): one of a higher PRIO, or one of its PRIO
admitted earlier, has a chunk ready. -/
def Hw.serialBehind (h : Hw) (c : Coll) : Bool :=
  h.flag (Fd.CVE_GRP_W1.MODE c.grp) &&
    h.cve.colls.any (fun x => !(x.grp == c.grp && x.seq == c.seq) && x.cve == c.cve && x.phase != .waiting && !x.gust &&
      h.flag (Fd.CVE_GRP_W1.MODE x.grp) && h.fld (Fd.CVE_GRP_W1.LSET x.grp) == h.fld (Fd.CVE_GRP_W1.LSET c.grp) &&
      ((x.ready 0).isSome || (x.ready 1).isSome) &&
      (decide (h.fld (Fd.CVE_GRP_W1.PRIO c.grp) < h.fld (Fd.CVE_GRP_W1.PRIO x.grp)) ||
        (h.fld (Fd.CVE_GRP_W1.PRIO c.grp) == h.fld (Fd.CVE_GRP_W1.PRIO x.grp) && decide (x.admitTb < c.admitTb))))

/-- The collective and direction that a CVE sends for next (R302): weighted fair sharing over bytes. -/
def Hw.nextSend (h : Hw) (v : Nat) : Option (Coll × Nat × Ready) :=
  (h.cve.colls.filter (fun c => c.cve == v && c.phase != .waiting && !c.gust)).foldl
    (fun (best : Option (Coll × Nat × Ready)) c =>
      match [0, 1].findSome? (fun d => (c.ready d).map (fun r => (d, r))) with
      | none => best
      | some (d, r) =>
        if h.serialBehind c then best
        else
          match best with
          | none => some (c, d, r)
          | some (b, _, _) =>
            let (x, wx) := h.flowOf c
            let (y, wy) := h.flowOf b
            if x * wy < y * wx then some (c, d, r) else best) none

/-- Charge bytes to a flow (R302). -/
def Hw.charge (h : Hw) (c : Coll) (n : Nat) : Hw :=
  if h.flag (Fd.CVE_GRP_W1.MODE c.grp) then
    { h with cve := { h.cve with lsets := h.cve.lsets.upd (c.cve * 16 + h.fld (Fd.CVE_GRP_W1.LSET c.grp)) 0 (· + n) } }
  else h.modColl c (fun x => { x with fair := x.fair + n })

/-- Send one ring packet (R302, R309): on TC1, or on TC3 in staged mode. -/
def Hw.sendRing (h : Hw) (c : Coll) (dir s kind ch seg : Nat) (bs : List Byte) : Hw :=
  let (tc, ty) := if c.phase = .staged then (3, 0x30) else (1, 0x10)
  let phase := if c.reduces s then 0 else 1
  (h.inject c.cve (h.packet (h.collPeer c (c.next dir)) tc ty (ringSpec c dir phase kind (c.sentBlock c.me s dir) ch seg)
    bs)).charge c bs.length

/-- The bytes of a piece that is sent at a step: the own contribution at the first step, and what was received and
combined after that (R294). -/
def Hw.sendBytes (h : Hw) (m : Mem) (c : Coll) (dir s off len : Nat) : Hw × Except Cond (List Byte) :=
  if s = 0 then h.collRead m c (c.srcOff (c.sentBlock c.me 0 dir) dir + off) len
  else (h, .ok ((pieceBytes? ((c.dir dir).out.getD s []) off len).getD []))

/-- One segment leaves a CVE (R302–R306). -/
def segmentWork (v : Nat) (m : Mem) (h : Hw) : Hw × List Edit :=
  match h.nextSend v with
  | none => (h, [])
  | some (c, dir, .digest s) =>
    let own := if s = 0 then h.collRead m c (c.srcOff (c.sentBlock c.me 0 dir) dir) c.piece
      else (h, .ok [])
    match own with
    | (h, .error e) => (h.collCond c e, [])
    | (h, .ok bs) =>
      let dg := if s = 0 then digestOf c.fmt bs else (c.dir dir).digOut.getD s ⟨0, 0, 0, false, false⟩
      let h := (h.sendRing c dir s 2 0 0 dg.bytes).modColl c (fun x => x.modDir dir (fun d =>
        { d with digSent := insNat d.digSent s }))
      h.settleEnd m c
  | some (c, dir, .data s ch) =>
    match c.sendChunk dir with
    | none => (h, [])
    | some size =>
      let len := c.chunkLen size ch
      let off := ch * size
      let seg := (c.dir dir).seg
      if seg * 4096 < len then
        match h.sendBytes m c dir s (off + seg * 4096) (min 4096 (len - seg * 4096)) with
        | (h, .error e) => (h.collCond c e, [])
        | (h, .ok bs) =>
          ((h.sendRing c dir s 0 ch seg bs).modColl c (fun x => x.modDir dir (fun d =>
            { d with seg := seg + 1, open_ := true, credit := if d.open_ then d.credit else d.credit - 1 })), [])
      else
        match h.sendBytes m c dir s off len with
        | (h, .error e) => (h.collCond c e, [])
        | (h, .ok bs) =>
          let h := (h.sendRing c dir s 1 ch 0 (beBytes 8 (crc64 bs))).modColl c (fun x => x.modDir dir (fun d =>
            { d with seg := 0, open_ := false, pos := d.pos + 1 }))
          (if s = 0 then h else h.releaseRx c dir (s - 1) (off + len), [])

def segmentEff (v : Fin 2) (sn : Seen) (s : State) : Eff :=
  let (h, es) := segmentWork v (s.mem.seen sn) (s.hw.seen sn)
  { hw := h, edits := seenEdits sn ++ es }
/-- SEGMENT_TRANSMIT (R302). -/
def execSegmentTransmit (v : Fin 2) (sn : Seen) (s : State) : Res := done s (segmentEff v sn s)

/-! ## GUST_RECEIVE (R298, R311) -/

/-- A GUST packet arrives (R298, R311): an admitted gust collective takes it; before that it waits in the pool, and a
full pool drops it. -/
def gustIn (d : Deliv) (m : Mem) (h : Hw) : Hw × List Edit :=
  h.collPacket d.p (bitsAt d.p.tspec 52 2 != 3) (fun g h =>
    let pool : Hw × List Edit :=
      let (x, ok) := (h.grp g).early (Packet.cSeq d.p) h.tb (fun e => { e with gust := some d.p })
      if ok then (h.modGrp g (fun _ => x), []) else (h.staleDrop (h.groupCve g), [])
    match h.coll? g (Packet.cSeq d.p) with
    | none => pool
    | some c =>
      if c.phase = .waiting then pool
      else if c.gust then h.gustMeet m c d.p
      else (h.collFault c dPeerMismatch (bitsAt d.p.tspec 55 1) 0 (c.prev 0) 0 0, []))

def gustEff (sn : Seen) (s : State) : Eff := deliveredEff sn s (fun p => p.ptype == 0x04) (fun d m h => gustIn d m h)
/-- GUST_RECEIVE (R311). -/
def execGustReceive (sn : Seen) (s : State) : Res := done s (gustEff sn s)

end Sys2Proof.Machine
end

