-- ==== Sys2Proof/Machine/Counters.lean ====
section
/-!
DEFINITION. Counters, snapshots, samples and the log (18_counters.md): the writes of configurations, the windows of the collectors,
what counts with time, and the commands of the host (R420–R437).
-/
namespace Sys2Proof.Machine

/-! ## Banks (*Counter banks*, R490) -/

/-- The kind of a bank (R420). -/
inductive BankKind where
  | core | clus | dmp | bridge | hbm | port | cve
  deriving DecidableEq, Repr

/-- A counter: the kind and address of its bank, and its number. -/
structure CtrAt where
  kind : BankKind
  bank : Nat
  n : Nat
  deriving DecidableEq, Repr

/-- A counter of a bank of `size` at `base`, `stride` bytes a counter; `x` is the offset of an address from it. -/
def ctrIn (kind : BankKind) (base size x : Nat) : Option CtrAt :=
  if x < 16 * size then some ⟨kind, base, x / 16⟩ else none

/-- The counter that an address belongs to. -/
def ctrAt (a : Nat) : Option CtrAt :=
  match regPlace a with
  | some (.clus, c, o) => if o < 0x2000 then none else ctrIn .clus (bankClus c) 32 (o - 0x2000)
  | some (.core, k, o) => if o < 0x2000 then none else ctrIn .core (bankCore k) 16 (o - 0x2000)
  | some (.die, d, o) =>
    if o < 0x801000 then none
    else
      let b := (o - 0x801000) / 0x1000
      if bridgeBanks.getD d 0 < b then none
      else ctrIn (if b = 0 then .dmp else .bridge) (bankDie d b) 64 ((o - 0x801000) % 0x1000)
  | some (.rtr, r, o) =>
    if o < 0x3000 ∨ 0x3C00 ≤ o then none
    else ctrIn .port (bankPort (12 * r + (o - 0x3000) / 0x100)) 8 ((o - 0x3000) % 0x100)
  | some (.hbm, s, o) => if o < 0x1000 then none else ctrIn .hbm (bankHbm s) 64 (o - 0x1000)
  | some (.hubA, _, o) => if o < 0x8400 then none else ctrIn .cve (bankCve 0) 32 (o - 0x8400)
  | some (.hubB, _, o) => if o < 0x8400 then none else ctrIn .cve (bankCve 1) 32 (o - 0x8400)
  | none => none

/-- The counter whose CTR_CFG an address is. -/
def cfgAt (a : Nat) : Option CtrAt := if a % 16 = 0 then ctrAt a else none

/-- How many counters a bank of a kind has. -/
def BankKind.size : BankKind → Nat
  | .core => 16
  | .clus | .cve => 32
  | .dmp | .bridge | .hbm => 64
  | .port => 8

/-! ## Configurations (R421, R423) -/

/-- The event codes of a kind of bank (*Event codes*). -/
def BankKind.events : BankKind → List Nat
  | .core => [0x01, 0x02, 0x03, 0x04, 0x05, 0x06, 0x07, 0x08, 0x09, 0x0A, 0x0B]
  | .clus => [0x20, 0x21, 0x22, 0x23, 0x24, 0x25, 0x26, 0x27, 0x28]
  | .dmp => [0x40, 0x41, 0x48, 0x49]
  | .bridge => [0x40, 0x41, 0x42, 0x43, 0x44]
  | .hbm => [0x40, 0x41, 0x42, 0x43, 0x50, 0x51, 0x52, 0x53]
  | .port => [0x40, 0x41, 0x42, 0x43, 0x44, 0x60, 0x61, 0x62]
  | .cve => [0x40, 0x41, 0x70, 0x71, 0x72]

/-- The largest MASTER value that an event lists, or 0. -/
def masterTop (code : Nat) : Nat :=
  if 0x02 ≤ code ∧ code ≤ 0x05 then 5 else if code = 0x06 ∨ code = 0x07 then 6
  else if code = 0x08 ∨ code = 0x0B then 2 else if 0x20 ≤ code ∧ code ≤ 0x27 then 10 else 0

/-- The bits of CTR_CFG that a bank stores: a level bank ignores the filter fields. -/
def BankKind.cfgMask : BankKind → Nat
  | .core | .clus => 0xC0FCF7FF
  | _ => 0xC00000FF

/-- Write a configuration: a reserved event, or one of another kind of bank, is stored as 0x00 and sets CFG_REJECT. -/
def Hw.writeCfg (h : Hw) (k : CtrAt) (v : Nat) : Hw :=
  let code := v % 256
  let ok := code == 0 || k.kind.events.contains code
  let v := v &&& k.kind.cfgMask
  let v := if ok then v else v - code
  let v := if masterTop (v % 256) < bitsAt v 12 4 then setBitsAt v 12 4 0 else v
  let h := h.setReg (Reg.CTR_CFG k.bank k.n) (BitVec.ofNat 32 v)
  if ok then h else h.setFlag Fd.CTR_CCL_STATUS.CFG_REJECT true

/-- Write the threshold of a level counter. -/
def Hw.writeAux (h : Hw) (k : CtrAt) (v : Nat) : Hw :=
  if k.kind = .core ∨ k.kind = .clus then h else h.setFld (Fd.CTR_AUX.N k.bank k.n) v

/-- Whether the unit of a register has power. -/
def Hw.regPowered (h : Hw) (a : Nat) : Bool :=
  match regPlace a with
  | some (.die, d, _) => h.plu.diesUp.contains d
  | some (.clus, c, _) => h.plu.diesUp.contains (c / 8)
  | some (.core, k, _) => h.plu.diesUp.contains (k / 72)
  | some (.hbm, s, _) => h.plu.diesUp.contains (s / 2)
  | _ => true

/-- A write of CTR_CFG through the host. -/
def counterCfgHw (a v : Nat) (h : Hw) : Hw :=
  match cfgAt a with
  | some k => if h.served && h.regPowered a then h.writeCfg k v else h
  | none => h
/-- COUNTER_CFG_WRITE (R423). -/
def execCounterCfgWrite (a : BitVec 32) (v : W32) (s : State) : Res := keep s (counterCfgHw a.toNat v.toNat s.hw)

/-- Collectives that wait for admission by a CVE. -/
def Hw.cveQueued (h : Hw) (v : Nat) : Nat := (h.admitQueue v).length

/-! ## COUNTER_CONFIG (R429) -/

/-- COUNTER_CONFIG 0's own effect: the next window's end sets WINDOW_US. -/
def setWindowBody (p1 : BitVec 32) (_ : State) (h : Hw) : Did :=
  if p1.toNat = 0 ∨ 10000000 < p1.toNat then Did.fail h stParam
  else { hw := { h with ccl := { h.ccl with pendWin := some p1.toNat } }, rep := Rep.only stOk }
/-- The effect of SET_WINDOW. -/
def setWindowEff (hd : Hdr) (len : Nat) (p1 : BitVec 32) (s : State) : Eff :=
  hostCmd { opcode := 0x0700, lenOk := len == 0 } hd s (setWindowBody p1)
/-- SET_WINDOW (R429). -/
def execSetWindow (hd : Hdr) (len : Nat) (p1 : BitVec 32) (s : State) : Res :=
  unlessCut (.setWindow hd len p1) s (done s (setWindowEff hd len p1 s))

/-- The entries of COUNTER_CONFIG 1: address, configuration and threshold. -/
def cfgEntries (pl : List Byte) : List (Nat × Nat × Nat) :=
  (List.range (pl.length / 12)).map (fun i =>
    let g := fun (k : Nat) => beNat ((pl.drop (12 * i + 4 * k)).take 4)
    (g 0, g 1, g 2))

/-- COUNTER_CONFIG 1's own effect: all entries wait for the next window's end, or nothing is applied. -/
def applyCfgBody (pl : List Byte) (_ : State) (h : Hw) : Did :=
  let es := cfgEntries pl
  if es.any (fun e => (cfgAt e.1).isNone) then Did.fail h stRegAddr
  else { hw := { h with ccl := { h.ccl with pendCfg := h.ccl.pendCfg ++ es } }, rep := Rep.only stOk }
/-- The effect of APPLY_COUNTER_CONFIG. -/
def applyCfgEff (hd : Hdr) (payload : List Byte) (s : State) : Eff :=
  hostCmd { opcode := 0x0700, lenOk := decide (payload.length ≤ 8184) && payload.length % 12 == 0 } hd s (applyCfgBody payload)
/-- APPLY_COUNTER_CONFIG (R429). -/
def execApplyCounterConfig (hd : Hdr) (payload : List Byte) (s : State) : Res :=
  unlessCut (.applyCounterConfig hd payload) s (done s (applyCfgEff hd payload s))

/-- The counters that hold or have held a count: every other one is 0 (R426). -/
def Hw.liveCtrs (h : Hw) : List CtrAt :=
  let ks := h.regs.filterMap (fun q => if q.1 % 16 = 4 ∨ q.1 % 16 = 8 then (ctrAt q.1).map (fun k => (ctrKey k.bank k.n)) else none)
  ((ks ++ h.ccl.prev.map Prod.fst).foldl insNat []).filterMap cfgAt

/-- Fold every counter into its extended count (R426). -/
def Hw.latchAll (h : Hw) : Hw := h.liveCtrs.foldl (fun h k => h.foldCtr k.bank k.n) h

/-- Clear every bank; what was counted is folded first. -/
def Hw.clearAll (h : Hw) : Hw :=
  let ks := h.liveCtrs
  let h := h.latchAll
  let h := ks.foldl (fun h k => h.setCtr k.bank k.n 0) h
  { h with ccl := { h.ccl with prev := [], cleared := true } }

/-- The effect of CLEAR_BANKS. -/
def clearBanksEff (hd : Hdr) (len : Nat) (s : State) : Eff :=
  hostCmd { opcode := 0x0700, lenOk := len == 0 } hd s (fun _ h => { hw := h.clearAll, rep := Rep.only stOk })
/-- CLEAR_BANKS (R429). -/
def execClearBanks (hd : Hdr) (len : Nat) (s : State) : Res := unlessCut (.clearBanks hd len) s (done s (clearBanksEff hd len s))

/-! ## The end of a window (R426–R428) -/

/-- The extended counts of a bank as 64-bit values: a chained pair fills two (R427). -/
def Hw.extVals (h : Hw) (bank size : Nat) : List Nat :=
  (List.range size).map (fun n =>
    if h.ctrChained bank n then h.ccl.ext.getD (ctrKey bank (n - 1)) 0 / 2 ^ 64 % 2 ^ 32
    else h.ccl.ext.getD (ctrKey bank n) 0 % 2 ^ 64)

/-- Values as 8 bytes each; where their part did not arrive, bytes that nothing fixes. -/
def valBytes (here : Bool) (free : Nat) (vs : List Nat) : List Byte :=
  if here then vs.flatMap (leBytes 8) else leBytes (8 * vs.length) (Config.freeValue free)

/-- The block of a cluster in a partition's record (*Snapshot record*): its name, the context and logical cluster, and its values. -/
def Hw.clusBlock (h : Hw) (here : Bool) (free c : Nat) : List Byte :=
  let who := match h.holder c with
    | some (id, x) =>
      [id, ((x.host.place.bind (fun p => List.find? (fun (e : Nat × Nat) => e.2 == c) p.clusters)).map Prod.fst).getD 255]
    | none => [255, 255]
  let vs := h.extVals (bankClus c) 32 ++ (List.range 9).flatMap (fun j => h.extVals (bankCore (9 * c + j)) 16)
  (if here then leBytes 1 c ++ who.flatMap (leBytes 1) ++ List.replicate 5 0 else leBytes 8 (Config.freeValue free)) ++
    valBytes here free vs

/-- The header of a record. -/
def Hw.snapHead (h : Hw) (ring clusters len : Nat) (a b : Bool) (endTb ns : Nat) : List Byte :=
  leBytes 8 endTb ++ leBytes 4 (h.ccl.win % 2 ^ 32) ++ leBytes 1 ring ++
    leBytes 1 (a.toNat + 2 * b.toNat + 4 * h.ccl.changed.toNat + 8 * h.ccl.cleared.toNat) ++ leBytes 2 clusters ++ leBytes 8 ns ++
    leBytes 4 len ++ List.replicate 36 0

/-- The record of a partition: its members in ascending physical number. -/
def Hw.partRecord (h : Hw) (p : Nat) (a b : Bool) (endTb ns : Nat) : List Byte :=
  let cs := h.partClusters p
  h.snapHead p cs.length (64 + 1416 * cs.length) a b endTb ns ++
    cs.flatMap (fun c => h.clusBlock (if c < 32 then a else b) h.free c)

/-- The bank of each bridge of *Die bridges*: the die it sits on, and its number among that die's bridges (R490). -/
def bridgeBank : List (Nat × Nat) :=
  [(0, 1), (1, 1), (2, 1), (4, 1), (5, 1), (6, 1), (0, 2), (1, 2), (2, 2), (3, 1), (0, 3), (3, 2), (4, 2), (7, 1)]

/-- The 124 byte counts of a window (R428): links and stacks from what the machine moved, Ethernet ports and bridges as the hardware
counted them; a unit that is not in service reports 0. -/
def Hw.byteCounts (h : Hw) (ep br : List Nat) : List Nat :=
  let own := fun (i : Nat) => h.ccl.bytes.getD i 0
  (List.range 48).map (fun i => if h.isUp (i / 2) then own i else 0) ++
    (List.range 16).map (fun i => if h.flag (Fd.EP_STATUS.LINK_UP (i / 2)) then ep.getD i 0 else 0) ++
    (List.range 32).map (fun i => if h.flag (Fd.HBM_STATUS.IN_SERVICE (i / 2)) then own (64 + i) else 0) ++
    (List.range 28).map (fun i => if h.plu.bridgesOut.contains (i / 2) then 0 else br.getD i 0)

/-- The record of the package: every level bank, then the byte counts. -/
def Hw.packRecord (h : Hw) (a b : Bool) (endTb ns : Nat) (ep br : List Nat) : List Byte :=
  let half := fun (inA : Bool) => if inA then a else b
  let v := fun (inA : Bool) (vs : List Nat) => valBytes (half inA) h.free vs
  let bytes := h.byteCounts ep br
  let one := fun (i : Nat) (inA : Bool) => v inA [bytes.getD i 0]
  h.snapHead 16 0 22560 a b endTb ns ++
    (List.range 8).flatMap (fun d => v (decide (d < 4)) (h.extVals (bankDie d 0) 64)) ++
    bridgeBank.flatMap (fun (d, k) => v (decide (d < 4)) (h.extVals (bankDie d k) 64)) ++
    (List.range 16).flatMap (fun s => v (decide (s < 8)) (h.extVals (bankHbm s) 64)) ++
    (List.range 24).flatMap (fun n => v (decide (n < 12)) (h.extVals (bankPort n) 8)) ++
    v true (h.extVals (bankCve 0) 32) ++ v false (h.extVals (bankCve 1) 32) ++
    (List.range 48).flatMap (fun i => one i (decide (i < 24))) ++
    (List.range 16).flatMap (fun i => one (48 + i) (decide (i < 8))) ++
    (List.range 32).flatMap (fun i => one (64 + i) (decide (i < 16))) ++
    (List.range 28).flatMap (fun i => one (96 + i) (decide ((bridgeBank.getD (i / 2) (0, 0)).1 < 4)))

/-- Put a record into the next slot of a ring, over its oldest. -/
def Hw.putRecord (h : Hw) (ring : Nat) (bs : List Byte) : Hw :=
  let n := h.ccl.count.getD ring 0
  { h with ccl := { h.ccl with rings := h.ccl.rings.put (ring * 42 + n % 42) (h.ccl.win % 2 ^ 32, bs),
                               count := h.ccl.count.put ring (n + 1) } }

/-- The window's pending changes take effect (R429). -/
def Hw.windowChanges (h : Hw) : Hw :=
  let changed := match h.ccl.pendWin with
    | some w => w != h.fld Fd.CTR_CCL_CTRL.WINDOW_US
    | none => false
  let h := match h.ccl.pendWin with
    | some w => h.setFld Fd.CTR_CCL_CTRL.WINDOW_US w
    | none => h
  let h := h.ccl.pendCfg.foldl (fun h (a, v, x) =>
    match cfgAt a with
    | some k => if h.regPowered a then (h.writeCfg k v).writeAux k x else h
    | none => h) h
  { h with ccl := { h.ccl with pendWin := none, pendCfg := [], changed := changed } }

/-- The partition rings that a window records (R427). -/
def Hw.ringsNow (h : Hw) : List Nat :=
  let w := h.fld Fd.CTR_CCL_CTRL.WINDOW_US
  let every := if w < 1000 then (1000 + w - 1) / max 1 w else 1
  if h.ccl.win % every = 0 then List.range 16 else []

/-- Write the records of a window; a part that is not written in time is lost. -/
def Hw.writeRecords (h : Hw) (a b : Bool) (endTb ns : Nat) (ep br : List Nat) : Hw :=
  let rs := h.ringsNow
  let h := rs.foldl (fun (h : Hw) p => h.putRecord p (h.partRecord p a b endTb ns)) h
  let h := h.putRecord 16 (h.packRecord a b endTb ns ep br)
  let h := if a && b then h else { h with free := h.free + 1 }
  h.satFld Fd.CTR_CCL_STATUS.MISSED ((rs.length + 1) * ((!a).toNat + (!b).toNat))

/-- A window ends: every counter is latched, the records are written, and pending changes take effect. `a` and `b` say which CCL
writes its part in time; `ep` and `br` are the bytes that the Ethernet ports and the bridges moved. -/
def windowEndHw (a b : Bool) (ep br : List Nat) (h : Hw) : Hw :=
  let ns := h.fld Fd.CTR_CCL_CTRL.WINDOW_US * 1000
  if h.flag Fd.HUB_BRINGUP_STATUS.READY = false ∨ h.tb < h.ccl.startTb + ns then h
  else
    let endTb := h.ccl.startTb + ns
    let h := h.latchAll
    let h := if h.flag Fd.CTR_CCL_CTRL.EN then h.writeRecords a b endTb ns ep br else h
    ({ h with ccl := { h.ccl with startTb := endTb, win := h.ccl.win + 1, cleared := false, bytes := [] } } : Hw).windowChanges
/-- CCL_WINDOW_END (R426–R428). -/
def execCclWindowEnd (a b : Bool) (ep br : List Nat) (s : State) : Res := keep s (windowEndHw a b ep br s.hw)

/-! ## COUNTER_SNAPSHOT (R429) -/

/-- The widths of the fields of a record, so that each can be sent most significant byte first (R8). -/
def snapLayout (ring clusters : Nat) : List Nat :=
  [8, 4, 1, 1, 2, 8, 4] ++ List.replicate 36 1 ++
    (if ring = 16 then List.replicate 2812 8
     else (List.replicate clusters (List.replicate 8 1 ++ List.replicate 176 8)).flatten)

/-- A record in the order of the wire. -/
def snapWire (bs : List Byte) : List Byte :=
  swapFields (snapLayout (leNat ((bs.drop 12).take 1)) (leNat ((bs.drop 14).take 2))) bs

/-- COUNTER_SNAPSHOT's own effect: the bytes of the record that the range covers. -/
def snapshotBody (p0 p1 p2 p3 : BitVec 32) (_ : State) (h : Hw) : Did :=
  let (ring, back, off, len) := (p0.toNat, p1.toNat, p2.toNat, p3.toNat)
  if 17 ≤ ring ∨ 42 ≤ back ∨ off % 8 ≠ 0 ∨ 8192 < len then Did.fail h stParam
  else
    let n := h.ccl.count.getD ring 0
    if n ≤ back then Did.fail h stState
    else
      match h.ccl.rings.find? (ring * 42 + (n - 1 - back) % 42) with
      | none => Did.fail h stState
      | some (w, bs) => { hw := h, rep := { status := stOk, p := [w], payload := ((snapWire bs).drop off).take len } }
/-- The effect of COUNTER_SNAPSHOT. -/
def snapshotEff (hd : Hdr) (len : Nat) (p0 p1 p2 p3 : BitVec 32) (s : State) : Eff :=
  hostCmd { opcode := 0x0701, reads := true, lenOk := len == 0 } hd s (snapshotBody p0 p1 p2 p3)
/-- COUNTER_SNAPSHOT (R429). -/
def execCounterSnapshot (hd : Hdr) (len : Nat) (p0 p1 p2 p3 : BitVec 32) (s : State) : Res :=
  unlessCut (.counterSnapshot hd len p0 p1 p2 p3) s (done s (snapshotEff hd len p0 p1 p2 p3 s))

/-! ## SAMPLE_CONFIG (R432, R433) -/

/-- Configure the sampling of a cluster: a capture that is held keeps its slots, and a buffer that is full stays stopped unless it is
cleared or wraps. -/
def Hw.setSampling (h : Hw) (c log2n : Nat) (wrap clear : Bool) : Hw :=
  let limit := if h.flag (Fd.TRC_CAPTURE_CTRL.VALID c) then 8064 else 8192
  let old := (h.clusOf c).samp
  let next := if clear then 0 else old.next
  let full := decide (limit ≤ next)
  let p : Sampling := { armed := log2n != 0 && (!full || wrap), wrap := wrap, log2n := log2n,
                        next := if full && wrap then 0 else next, limit := limit }
  let h := h.modClus c (fun x => { x with samp := p })
  let h := ((h.setFld (Fd.TRC_SAMPLE_STATUS.NEXT c) p.next).setFlag (Fd.TRC_SAMPLE_STATUS.ARMED c) p.armed).setFlag
    (Fd.TRC_SAMPLE_STATUS.WRAP c) wrap
  let h := h.setFld (Fd.TRC_SAMPLE_STATUS.LOG2N c) log2n
  if log2n ≠ 0 ∧ full = true ∧ wrap = false then h.setFlag (Fd.TRC_SAMPLE_STATUS.SAMPLE_FULL c) true else h

/-- What clearing a buffer erases: all but the slots of a capture that is held. -/
def Hw.sampleClear (h : Hw) (c : Nat) : Edit :=
  .clear (traceBase c) (32 * (if h.flag (Fd.TRC_CAPTURE_CTRL.VALID c) then 8064 else 8192))

/-- SAMPLE_CONFIG's own effect. -/
def sampleBody (p0 p1 p2 : BitVec 32) (_ : State) (h : Hw) : Did :=
  let c := p0.toNat
  let n := p1.toNat
  if (64 ≤ c ∧ c ≠ 0xFF) ∨ (n ≠ 0 ∧ (n < 10 ∨ 24 < n)) ∨ 4 ≤ p2.toNat then Did.fail h stParam
  else if c < 64 ∧ h.plu.diesUp.contains (c / 8) = false then Did.fail h stReset
  else
    let cs := if c < 64 then [c] else (List.range 64).filter (fun k => h.plu.diesUp.contains (k / 8))
    { hw := cs.foldl (fun h k => h.setSampling k n (bitAt p2.toNat 0) (bitAt p2.toNat 1)) h, rep := Rep.only stOk,
      edits := if bitAt p2.toNat 1 then cs.map h.sampleClear else [] }
/-- The effect of SAMPLE_CONFIG. -/
def sampleEff (hd : Hdr) (len : Nat) (p0 p1 p2 : BitVec 32) (s : State) : Eff :=
  hostCmd { opcode := 0x0702, lenOk := len == 0 } hd s (sampleBody p0 p1 p2)
/-- SAMPLE_CONFIG (R432). -/
def execSampleConfig (hd : Hdr) (len : Nat) (p0 p1 p2 : BitVec 32) (s : State) : Res :=
  unlessCut (.sampleConfig hd len p0 p1 p2) s (done s (sampleEff hd len p0 p1 p2 s))

/-! ## LOG_READ (R436) -/

/-- The widths of the fields of a sample record. -/
def sampleLayout : List Nat := [8, 1, 1, 2, 4, 8, 4, 4]

/-- Sample records of a cluster in the order of the wire. -/
def readSamples (m : Mem) (c first count : Nat) : List Byte :=
  (List.range count).flatMap (fun i => swapFields sampleLayout (m.reads (traceBase c + 32 * (first + i)) 32))

/-- LOG_READ's own effect: entries from the first one, counted back from the newest, or samples from a slot. -/
def logReadBody (p0 p1 p2 p3 : BitVec 32) (s : State) (h : Hw) : Did :=
  let (first, count) := (p2.toNat, p3.toNat)
  if p0.toNat = 0 then
    { hw := h, rep := { status := stOk, payload := ((h.logs.ents.drop first).take (min 64 count)).flatMap LogEnt.wire } }
  else if p0.toNat = 1 then
    { hw := h, rep := { status := stOk,
                        payload := ((h.logs.box.drop first).take (min 64 count)).flatMap (fun e => e.2.wire) } }
  else if 3 ≤ p0.toNat ∨ 64 ≤ p1.toNat ∨ 8192 ≤ first then Did.fail h stParam
  else if h.plu.diesUp.contains (p1.toNat / 8) = false then Did.fail h stReset
  else { hw := h, rep := { status := stOk, payload := readSamples s.mem p1.toNat first (min (min 256 count) (8192 - first)) } }
/-- The effect of LOG_READ. -/
def logReadEff (hd : Hdr) (len : Nat) (p0 p1 p2 p3 : BitVec 32) (s : State) : Eff :=
  hostCmd { opcode := 0x0703, reads := true, lenOk := len == 0 } hd s (logReadBody p0 p1 p2 p3)
/-- LOG_READ (R436). -/
def execLogRead (hd : Hdr) (len : Nat) (p0 p1 p2 p3 : BitVec 32) (s : State) : Res :=
  unlessCut (.logRead hd len p0 p1 p2 p3) s (done s (logReadEff hd len p0 p1 p2 p3 s))

end Sys2Proof.Machine
end

