-- ==== Sys2Proof/Machine/Router.lean ====
section
/-!
DEFINITION. The package router (11_fabric_routing.md): acceptance, replay and credits of a link, the choice of what a
port sends, transaction tags, time messages, congestion windows and the drain of a quiesce.
-/
namespace Sys2Proof.Machine

/-! ## Receiving (R268) -/

/-- A NAK condition (R268): the receiver sends NAK in its next LLC, and again every 2 µs. -/
def Hw.nak (h : Hw) (n : Nat) (skip : Bool) : Hw :=
  h.modLink n (fun l => { l with
    skipping := l.skipping || skip, nakDue := true,
    nakTb := match l.nakTb with | some t => some t | none => some (h.tb + 2000) })

/-- LSEQ e arrives in order: any NAK condition ends, and an ACK is owed. -/
def Hw.inOrder (h : Hw) (n : Nat) : Hw :=
  h.modLink n (fun l => { l with
    rxExp := (l.rxExp + 1) % 2 ^ 24, rxAny := true, skipping := false, nakTb := none, nakDue := false, unacked := true })

/-- What a received packet is, by *Packet acceptance* (R268). -/
inductive Accept where
  | damaged | ahead | old | stomp | accept
  deriving DecidableEq, Repr

/-- The first row of *Packet acceptance* that applies. -/
def Link.judge (l : Link) (p : Packet) : Accept :=
  if p.hcrcOk = false ∨ p.marked = true then .damaged
  else if p.lseq = l.rxExp then
    match p.trail with
    | .stomped => .stomp
    | .bad => .damaged
    | .good => .accept
  else if 1 ≤ (l.rxExp + 2 ^ 24 - p.lseq) % 2 ^ 24 ∧ (l.rxExp + 2 ^ 24 - p.lseq) % 2 ^ 24 ≤ 2 ^ 23 then .old
  else .ahead

/-- The oldest packet that a link has received (R268, R270, R271). -/
def packetReceiveHw (n : Fin 24) (h : Hw) : Hw :=
  match (h.link n).rxq with
  | [] => h
  | p :: ps =>
    let j := (h.link n).judge p
    let h := h.modLink n (fun l => { l with rxq := ps })
    match j with
    | .damaged =>
      let h := if p.marked then h else h.satFld (Fd.FR_PORT_ERR.HCRC_ERR n) 1
      h.nak n true
    | .ahead => h.nak n false
    | .old => h
    | .stomp =>
      ((h.inOrder n).satFld (Fd.FR_PORT_ERR.STOMP_RX n) 1).returnUnits (some (n.val, vcqOf p.tc p.vc)) p
    | .accept => (((h.inOrder n).countPort n 0x42 p.units).moved (2 * n.val + 1) p.wire.length).routePkt (n.val / 12) (some (n.val, p.vc)) p
/-- PACKET_RECEIVE (R268). -/
def execPacketReceive (n : Fin 24) (s : State) : Res := keep s (packetReceiveHw n s.hw)

/-- While a NAK condition lasts, the NAK goes out again every 2 µs (R268). -/
def nakRepeatHw (n : Fin 24) (h : Hw) : Hw :=
  match (h.link n).nakTb with
  | none => h
  | some t => if t ≤ h.tb then h.modLink n (fun l => { l with nakDue := true, nakTb := some (h.tb + 2000) }) else h
/-- NAK_REPEAT (R268). -/
def execNakRepeat (n : Fin 24) (s : State) : Res := keep s (nakRepeatHw n s.hw)

/-- The oldest kept packet has gone 20 µs unacknowledged (R269). -/
def replayTimeoutHw (n : Fin 24) (h : Hw) : Hw :=
  match (h.link n).kept with
  | [] => h
  | k :: _ => if k.sentTb + 20000 ≤ h.tb ∧ h.isUp n = true then h.replay n else h
/-- REPLAY_TIMEOUT (R269). -/
def execReplayTimeout (n : Fin 24) (s : State) : Res := keep s (replayTimeoutHw n s.hw)

/-! ## Sending (R269, R270, R277, R278) -/

/-- The TC0 token bucket in quarter bytes: 3.75 GB/s up to 2,048 bytes (R278). -/
def Link.refill (l : Link) (tb : Nat) : Link :=
  { l with bucket := min 8192 (l.bucket + (tb - l.bucketTb) * 15), bucketTb := tb }

/-- Whether credits suffice for a whole packet (R277). -/
def Link.credit (l : Link) (tc vc units : Nat) : Bool := decide (l.inUse (vcqOf tc vc) + units ≤ vcqUnits)

/-- The bytes kept in the replay buffer (R269). -/
def Link.keptBytes (l : Link) : Nat := (l.kept.map (fun k => k.p.wire.length)).foldl (· + ·) 0

/-- The first packet of a class that a port can send, virtual channels alternating (R277, R278). -/
def Link.ready (l : Link) (tc : Nat) : Option QEnt :=
  let last := Tab.getD l.lastVc tc 1
  let head := fun vc => l.queue.find? (fun q => q.p.tc == tc && q.vc == vc)
  let ok := fun (q : Option QEnt) => q.filter (fun q => l.credit tc q.vc q.p.units)
  match ok (head (1 - last)) with
  | some q => some q
  | none => ok (head last)

/-- The weight of a class (R278). -/
def Hw.tcWeight (h : Hw) (tc : Nat) : Nat :=
  match tc with
  | 1 => h.fld Fd.FR_TC_WEIGHT.W1
  | 2 => h.fld Fd.FR_TC_WEIGHT.W2
  | _ => h.fld Fd.FR_TC_WEIGHT.W3

/-- What a port sends next among new packets (R278): TC0 when its bucket holds the packet, else the class of TC1–TC3 that
has had the fewest bytes for its weight. -/
def Hw.nextNew (h : Hw) (n : Nat) : Option QEnt :=
  let l := (h.link n).refill h.tb
  match (l.ready 0).filter (fun q => decide (4 * q.p.wire.length ≤ l.bucket)) with
  | some q => some q
  | none =>
    [1, 2, 3].foldl (fun (best : Option QEnt) tc =>
      match l.ready tc, best with
      | none, b => b
      | some q, none => some q
      | some q, some b =>
        if Tab.getD l.served tc 0 * h.tcWeight b.p.tc < Tab.getD l.served b.p.tc 0 * h.tcWeight tc then some q
        else some b) none

/-- The TIME payload as the packet leaves (R280): TX_TB is the timebase of its transmission. -/
def Packet.stamped (tb : Nat) (p : Packet) : Packet :=
  if p.ptype = 0x01 then { p with payload := beBytes 8 tb ++ p.payload.drop 8 } else p

/-- Put a packet on the wire (R264, R265, R269): its blocks go to the framer. -/
def Hw.wirePkt (h : Hw) (n : Nat) (p : Packet) : Hw :=
  let h := h.modLink n (fun l => { l with blocks := l.blocks ++ p.dataBlocks })
  let h := ((h.countPort n 0x43 p.units).countPort n 0x60 1).moved (2 * n) p.wire.length
  { h with out := h.out ++ [.fabric n p] }

/-- A port starts sending a packet (R277): a replay ahead of new packets, one packet at a time, and only with credits
for the whole packet and room in the replay buffer. -/
def packetTransmitHw (n : Fin 24) (h : Hw) : Hw :=
  let l := h.link n
  if h.isUp n = false ∨ l.blocks.any (fun b => b.2 / 2 ^ 64 == 1) then h
  else
    match l.again with
    | q :: qs =>
      match l.kept.find? (fun k => k.lseq == q) with
      | none => h.modLink n (fun l => { l with again := qs })
      | some k =>
        if l.credit k.p.tc k.p.vc k.units then
          let h := h.modLink n (fun l =>
            let l := l.tally h.tb
            { l with again := qs, used := l.used.upd (vcqOf k.p.tc k.p.vc) 0 (· + k.units),
                     kept := l.kept.map (fun x => if x.lseq = q then { x with sentTb := h.tb } else x) })
          h.wirePkt n k.p
        else h
    | [] =>
      match h.nextNew n with
      | none => h
      | some e =>
        let p := Packet.stamped h.tb { e.p with vc := e.vc, lseq := l.txLseq }
        if 2 ^ 20 < l.keptBytes + p.wire.length then h
        else
          let h := h.modLink n (fun l =>
            let l := (l.tally h.tb).refill h.tb
            { l with
              queue := l.queue.erase e, txLseq := (l.txLseq + 1) % 2 ^ 24,
              kept := l.kept ++ [⟨p.lseq, p, p.units, h.tb⟩],
              used := l.used.upd (vcqOf p.tc p.vc) 0 (· + p.units),
              bucket := if p.tc = 0 then l.bucket - 4 * p.wire.length else l.bucket,
              served := if p.tc = 0 then l.served else l.served.upd p.tc 0 (· + p.wire.length),
              lastVc := l.lastVc.put p.tc p.vc })
          let h := h.returnUnits e.src e.p
          let h := (List.range 8).foldl (fun h i =>
            if bitAt (h.fld (Fd.CTR_CFG.TC_MASK (bankPort n) i)) p.tc && h.flag (Fd.CTR_CFG.EN (bankPort n) i) &&
                h.fld (Fd.CTR_CFG.EVENT (bankPort n) i) == 0x60 && !h.ctrChained (bankPort n) i then
              h.bump (bankPort n) i 1 else h) h
          (h.wirePkt n p).drainInj
/-- PACKET_TRANSMIT (R277). -/
def execPacketTransmit (n : Fin 24) (s : State) : Res := keep s (packetTransmitHw n s.hw)

/-- The timeout of a transaction tag (R266): the tag is freed. -/
def xtagTimeoutHw (t : Fin 16384) (h : Hw) : Hw :=
  if h.rtr.xtags.any (fun x => x.1 == t.val && decide (x.2 ≤ h.tb)) then h.freeXtag t else h
/-- XTAG_TIMEOUT (R266). -/
def execXtagTimeout (t : Fin 16384) (s : State) : Res := keep s (xtagTimeoutHw t s.hw)

/-! ## Time messages (R280, R281) -/

/-- The TIME payload of a link (R280); TX_TB is filled in as the packet leaves. -/
def Hw.timePayload (h : Hw) (n : Nat) : List Byte :=
  let src := h.fld Fd.PKG_TIME_CTRL.SRC
  let (etx, erx) := ((h.link n).timeEcho).getD (0, 0)
  let synced := h.flag Fd.PKG_TIME_STATUS.LOCKED || src == 0
  let stratum := if src = 3 then h.fld Fd.FR_TIME_CTRL.STRATUM else 0
  beBytes 8 0 ++ beBytes 8 etx ++ beBytes 8 erx ++ beBytes 1 synced.toNat ++ beBytes 1 stratum ++ List.replicate 6 0

/-- Every 1 ms a hub sends a TIME packet on each of its UP links (R280). -/
def timeSendHw (hub : Fin 2) (h : Hw) : Hw :=
  if h.flag Fd.FR_TIME_CTRL.EN && decide (h.rtr.timeTb.getD hub 0 ≤ h.tb) then
    let h := { h with rtr := { h.rtr with timeTb := h.rtr.timeTb.put hub (h.tb + 1000000) } }
    ((List.range 12).map (fun i => 12 * hub.val + i)).foldl (fun h n =>
      if h.isUp n then
        let p := h.packet (h.fld (Fd.FL_PEER.FID n)) 0 0x01 0 (h.timePayload n)
        h.modLink n (fun l => { l with queue := l.queue ++ [⟨p, 0, none⟩] })
      else h) h
  else h
/-- TIME_SEND (R280). -/
def execTimeSend (hub : Fin 2) (s : State) : Res := keep s (timeSendHw hub s.hw)

/-- A TIME packet (R280, R281): its link echoes it; on UP_LINK, with TC0 as the source, it corrects the timebase. -/
def timeReceiveHw (h : Hw) : Hw :=
  h.onDelivered (fun p => p.ptype == 0x01) (fun d h =>
    match d.link with
    | none => h
    | some n =>
      let g := fun a k => beNat ((d.p.payload.drop a).take k)
      let t3 := g 0 8
      let t4 := d.tb
      let h := h.modLink n (fun l => { l with timeEcho := some (t3, t4) })
      if h.fld Fd.PKG_TIME_CTRL.SRC = 3 ∧ h.fld Fd.FR_TIME_CTRL.UP_LINK = n then
        if bitAt (g 24 1) 0 = false then
          let h := h.modLink n (fun l => { l with badTime := l.badTime + 1 })
          if (h.link n).badTime = 3 then h.holdover else h
        else
          let h := h.modLink n (fun l => { l with badTime := 0 })
          if g 8 8 = 0 then h
          else
            let delay : Int := (((t4 : Int) - g 8 8) - ((t3 : Int) - g 16 8)) / 2
            let h := h.setFld Fd.FR_TIME_CTRL.STRATUM (min 255 (g 25 1 + 1))
            h.correctTime ((t3 : Int) + delay - t4)
      else h)
/-- TIME_RECEIVE (R281). -/
def execTimeReceive (s : State) : Res := keep s (timeReceiveHw s.hw)

/-! ## Congestion and quiesce (R283, R284) -/

/-- A 100 µs congestion window closes (R283): a link that was not UP for all of it reports zeros; 16 windows are kept. -/
def congestionHw (h : Hw) : Hw :=
  if h.rtr.winTb + 100000 ≤ h.tb then
    let start := h.rtr.winTb
    let bins := (List.range 24).map (fun n =>
      let l := (h.link n).tally h.tb
      if h.isUp n && decide (l.upTb ≤ start) then l.bins else List.replicate 8 0)
    let h := (List.range 24).foldl (fun h n =>
      if (h.links.find? n).isSome then h.modLink n (fun l => { l with bins := [], usedTb := h.tb }) else h) h
    { h with rtr := { h.rtr with
        winTb := start + 100000, winNum := h.rtr.winNum + 1,
        windows := ((start + 100000, h.rtr.winNum % 2 ^ 32, bins) :: h.rtr.windows).take 16 } }
  else h
/-- CONGESTION_WINDOW (R283). -/
def execCongestionWindow (s : State) : Res := keep s (congestionHw s.hw)

/-- Whether no router holds a TC1–TC3 packet (R284 step 3). -/
def Hw.fabricEmpty (h : Hw) : Bool :=
  h.links.all (fun (_, l) => l.queue.all (fun q => q.p.tc == 0) && l.kept.all (fun k => k.p.tc == 0) &&
    l.rxq.all (fun p => p.tc == 0))

/-- The drain of a quiesce ends (R284, R285): DRAINED sets, and every outstanding START completes. -/
def drainedHw (h : Hw) : Hw :=
  if h.flag Fd.FR_STATUS.QUIESCED && h.fabricEmpty then
    (h.setFlag Fd.FR_STATUS.DRAINED true).finishAll (fun c => c.opcode == 0x0502) stOk [] []
  else h
/-- FABRIC_DRAINED (R284). -/
def execFabricDrained (s : State) : Res := keep s (drainedHw s.hw)

end Sys2Proof.Machine
end

