-- ==== Sys2Proof/Machine/FabHost.lean ====
section
/-!
DEFINITION. The commands of the host on groups (R288–R290), on the fabric (R283–R286) and on links (R333).
-/
namespace Sys2Proof.Machine

/-! ## Groups (R288–R290) -/

def stGroupField : Nat := 0x0130
def stGroupMembers : Nat := 0x0131
def stGroupGid : Nat := 0x0132
def stGroupBusy : Nat := 0x0330
def stGroupSpace : Nat := 0x0430

/-- A GROUP_SET: words 0–2 without the fields that the E9 keeps itself, FIRST, and the FIDs. -/
structure GroupPart where
  w0 : Nat
  w1 : Nat
  m : Nat
  first : Nat
  fids : List Nat

/-- Word 1 without VALID, FENCED, BOUND and the reserved bits. -/
def groupWord1 (w : Nat) : Nat := bitsAt w 12 17 * 2 ^ 12 + w % 256

/-- Read the payload (R289). -/
def groupPart (pl : List Byte) : GroupPart :=
  let g := fun (a k : Nat) => beNat ((pl.drop a).take k)
  { w0 := g 0 4, w1 := groupWord1 (g 4 4), m := g 8 2, first := g 12 2,
    fids := (List.range ((pl.length - 14) / 2)).map (fun i => g (14 + 2 * i) 2) }

/-- Whether the fields of a part are valid (GROUP_FIELD). -/
def GroupPart.fieldsOk (q : GroupPart) : Bool :=
  bitsAt q.w1 25 2 != 3 && decide (bitsAt q.w1 20 3 < 5) && bitsAt q.w1 12 4 != 0 && q.m != 0 &&
    decide (q.first + q.fids.length ≤ q.m)

/-- Whether a part starts its entry afresh. -/
def Hw.groupAfresh (h : Hw) (g : Nat) (q : GroupPart) : Bool := (h.grp g).words != some (q.w0, q.w1, q.m)

/-- The places of the other entries in the member store. -/
def Hw.otherPlaces (h : Hw) (g : Nat) : List (Nat × Nat) :=
  h.cve.grps.filterMap (fun (k, x) => if k = g then none else x.place)

/-- The lowest run of `m` free places for an entry. -/
def Hw.freeRun (h : Hw) (g m : Nat) : Option Nat :=
  let ps := h.otherPlaces g
  let starts := (0 :: ps.map (fun p => p.1 + p.2)).foldl insNat []
  starts.find? (fun a => decide (a + m ≤ 524288) && ps.all (fun p => !overlaps a m p.1 p.2))

/-- Whether a completed list of members is valid (GROUP_MEMBERS). -/
def membersOk (fid : Nat) (ms : List Nat) : Bool :=
  ms.count fid == 1 && (ms.foldl insNat []).length == ms.length && !ms.contains 0xFFFF

/-- Take the members of an entry out of the store. -/
def Hw.dropMembers (h : Hw) (g : Nat) : Hw :=
  match (h.grp g).place with
  | none => h
  | some (a, n) =>
    { h with cve := { h.cve with members := h.cve.members.filter (fun e => decide (e.1 < a) || decide (a + n ≤ e.1)) } }

/-- Write a part into an entry at a place, and the entry's words; VALID where the list is complete, else as it was. -/
def Hw.groupWrite (h : Hw) (g off : Nat) (q : GroupPart) (fids : Tab Nat) (afresh : Bool) : Hw :=
  let full := decide (fids.length = q.m)
  let valid := full || (h.flag (Fd.CVE_GRP_W1.VALID g) && !afresh)
  let fenced := h.flag (Fd.CVE_GRP_W1.FENCED g) && !full
  let me := if full then ((List.find? (fun (e : Nat × Nat) => e.2 == h.fld Fd.FR_FID.FID) fids).map Prod.fst).getD 0 else 0
  let h := if afresh then (h.dropMembers g).modGrp g (fun x => { x with pool := [], last := none }) else h
  let h := h.modGrp g (fun x => { x with words := some (q.w0, q.w1, q.m), fids := fids, place := some (off, q.m) })
  let h : Hw := { h with cve := { h.cve with members := fids.foldl (fun t (k, f) => Tab.put t (off + k) f) h.cve.members } }
  let h := h.setReg (Reg.CVE_GRP_W0 g) (BitVec.ofNat 32 q.w0)
  let h := h.setReg (Reg.CVE_GRP_W1 g) (BitVec.ofNat 32 (q.w1 + valid.toNat * 2 ^ 31 + fenced.toNat * 2 ^ 30))
  (h.setReg (Reg.CVE_GRP_W2 g) (BitVec.ofNat 32 (q.m * 2 ^ 16 + me))).setReg (Reg.CVE_GRP_W3 g) (BitVec.ofNat 32 off)

/-- A part that has passed the first three checks. -/
def Hw.groupStore (h : Hw) (g : Nat) (q : GroupPart) : Did :=
  let afresh := h.groupAfresh g q
  match if afresh then h.freeRun g q.m else (h.grp g).place.map Prod.fst with
  | none => Did.fail h stGroupSpace
  | some off =>
    let old : Tab Nat := if afresh then [] else (h.grp g).fids
    let fids := q.fids.zipIdx.foldl (fun (t : Tab Nat) (f, i) => t.put (q.first + i) f) old
    if fids.length = q.m ∧ membersOk (h.fld Fd.FR_FID.FID) (fids.map Prod.snd) = false then Did.fail h stGroupMembers
    else { hw := h.groupWrite g off q fids afresh, rep := Rep.only stOk }

/-- GROUP_SET's own effect: the checks of *Group-table statuses*, then the write. -/
def groupSetBody (p0 : BitVec 32) (pl : List Byte) (_ : State) (h : Hw) : Did :=
  let g := p0.toNat
  let q := groupPart pl
  if 1024 ≤ g ∨ q.fieldsOk = false then Did.fail h stGroupField
  else if h.flag (Fd.CVE_GRP_W1.BOUND g) then Did.fail h stGroupBusy
  else if (List.range 1024).any (fun k => k != g && h.flag (Fd.CVE_GRP_W1.VALID k) &&
      h.fld (Fd.CVE_GRP_W0.GID k) == bitsAt q.w0 16 16) then Did.fail h stGroupGid
  else h.groupStore g q
/-- The effect of GROUP_SET. -/
def groupSetEff (hd : Hdr) (p0 : BitVec 32) (payload : List Byte) (s : State) : Eff :=
  hostCmd { opcode := 0x0500, lenOk := decide (14 ≤ payload.length) && decide (payload.length ≤ 8014) && payload.length % 2 == 0 } hd s
    (groupSetBody p0 payload)
/-- GROUP_SET (R289). -/
def execGroupSet (hd : Hdr) (p0 : BitVec 32) (payload : List Byte) (s : State) : Res :=
  unlessCut (.groupSet hd p0 payload) s (done s (groupSetEff hd p0 payload s))

/-- Empty an entry: its words, its member places and its early arrivals. -/
def Hw.groupEmpty (h : Hw) (g : Nat) : Hw :=
  let h := h.dropMembers g
  let h : Hw := { h with cve := { h.cve with grps := h.cve.grps.drop g } }
  ((h.setReg (Reg.CVE_GRP_W0 g) 0).setReg (Reg.CVE_GRP_W1 g) 0).setReg (Reg.CVE_GRP_W2 g) 0 |>.setReg (Reg.CVE_GRP_W3 g) 0

/-- GROUP_CLEAR's own effect. -/
def groupClearBody (p0 : BitVec 32) (_ : State) (h : Hw) : Did :=
  if 1024 ≤ p0.toNat then Did.fail h stGroupField
  else if h.flag (Fd.CVE_GRP_W1.BOUND p0.toNat) then Did.fail h stGroupBusy
  else { hw := h.groupEmpty p0.toNat, rep := Rep.only stOk }
/-- The effect of GROUP_CLEAR. -/
def groupClearEff (hd : Hdr) (len : Nat) (p0 : BitVec 32) (s : State) : Eff :=
  hostCmd { opcode := 0x0501, lenOk := len == 0 } hd s (groupClearBody p0)
/-- GROUP_CLEAR (R289). -/
def execGroupClear (hd : Hdr) (len : Nat) (p0 : BitVec 32) (s : State) : Res :=
  unlessCut (.groupClear hd len p0) s (done s (groupClearEff hd len p0 s))

/-! ## Quiesce and routes (R284, R285) -/

def stFabricActive : Nat := 0x0320

/-- FABRIC_QUIESCE 0's own effect: the completion follows when DRAINED sets, or at once where it is set. -/
def quiesceBody (hd : Hdr) (_ : State) (h : Hw) : Did :=
  { hw := h.setFlag Fd.FR_STATUS.QUIESCED true, rep := Rep.only stAccepted,
    next := fun h =>
      (if h.flag Fd.FR_STATUS.DRAINED then
        h.finishAll (fun c => c.session == hd.session.toNat && c.tag == hd.tag.toNat && c.opcode == 0x0502) stOk [] []
      else h, []) }
/-- The effect of FABRIC_QUIESCE_START. -/
def quiesceEff (hd : Hdr) (len : Nat) (s : State) : Eff :=
  hostCmd { opcode := 0x0502, lenOk := len == 0 } hd s (quiesceBody hd)
/-- FABRIC_QUIESCE_START (R284, R285). -/
def execFabricQuiesceStart (hd : Hdr) (len : Nat) (s : State) : Res :=
  unlessCut (.fabricQuiesceStart hd len) s (done s (quiesceEff hd len s))

/-- FABRIC_QUIESCE 1's own effect: injection restarts, and an outstanding START completes with STATE. -/
def resumeBody (_ : State) (h : Hw) : Did :=
  if h.flag Fd.FR_STATUS.QUIESCED then
    { hw := (h.setFlag Fd.FR_STATUS.QUIESCED false).setFlag Fd.FR_STATUS.DRAINED false, rep := Rep.only stOk,
      next := fun h => ((h.finishAll (fun c => c.opcode == 0x0502) stState [] []).drainInj, []) }
  else { hw := h, rep := Rep.only stOk }
/-- The effect of FABRIC_QUIESCE_RESUME. -/
def resumeEff (hd : Hdr) (len : Nat) (s : State) : Eff := hostCmd { opcode := 0x0502, lenOk := len == 0 } hd s resumeBody
/-- FABRIC_QUIESCE_RESUME (R284, R285). -/
def execFabricQuiesceResume (hd : Hdr) (len : Nat) (s : State) : Res :=
  unlessCut (.fabricQuiesceResume hd len) s (done s (resumeEff hd len s))

/-- Write a route entry while quiesced (*Route-table entry*); otherwise it has no effect and sets TBL_REJECT. -/
def Hw.setRoute (h : Hw) (fid v : Nat) : Hw :=
  if h.flag Fd.FR_STATUS.QUIESCED then
    (h.setFld (Fd.FR_ROUTE.LOCAL fid) (v / 2 ^ 31)).setFld (Fd.FR_ROUTE.PORTS fid) v
  else h.setFlag Fd.FR_STATUS.TBL_REJECT true

/-- ROUTE_WRITE's own effect. -/
def routeWriteBody (p0 : BitVec 32) (pl : List Byte) (_ : State) (h : Hw) : Did :=
  let n := pl.length / 4
  if 65536 < p0.toNat + n ∨ 65536 ≤ p0.toNat then Did.fail h stParam
  else if h.flag Fd.FR_STATUS.QUIESCED = false then Did.fail (h.setFlag Fd.FR_STATUS.TBL_REJECT true) stFabricActive
  else
    { hw := (List.range n).foldl (fun h i => h.setRoute (p0.toNat + i) (beNat ((pl.drop (4 * i)).take 4))) h,
      rep := Rep.only stOk }
/-- The effect of ROUTE_WRITE. -/
def routeWriteEff (hd : Hdr) (p0 : BitVec 32) (payload : List Byte) (s : State) : Eff :=
  hostCmd { opcode := 0x0503, lenOk := decide (payload.length ≤ 8192) && payload.length % 4 == 0 } hd s (routeWriteBody p0 payload)
/-- ROUTE_WRITE (R284). -/
def execRouteWrite (hd : Hdr) (p0 : BitVec 32) (payload : List Byte) (s : State) : Res :=
  unlessCut (.routeWrite hd p0 payload) s (done s (routeWriteEff hd p0 payload s))

/-- A register write to FR_ROUTE. -/
def execRouteEntryWrite (fid : BitVec 16) (v : W32) (s : State) : Res :=
  keep s (if s.hw.served then s.hw.setRoute fid.toNat v.toNat else s.hw)

/-! ## Congestion (R283) -/

/-- *Congestion record*. -/
def congestionRecord (w : Nat × Nat × List (List Nat)) : List Byte :=
  beBytes 8 w.1 ++ beBytes 4 w.2.1 ++ List.replicate 4 0 ++
    (List.range 24).flatMap (fun n => (List.range 8).flatMap (fun k => beBytes 4 ((w.2.2.getD n []).getD k 0)))

/-- CONGESTION_READ's own effect. -/
def congestionBody (p0 : BitVec 32) (_ : State) (h : Hw) : Did :=
  if 16 ≤ p0.toNat then Did.fail h stParam
  else
    match h.rtr.windows[p0.toNat]? with
    | none => Did.fail h stState
    | some w => { hw := h, rep := { status := stOk, payload := congestionRecord w } }
/-- The effect of CONGESTION_READ. -/
def congestionReadEff (hd : Hdr) (len : Nat) (p0 : BitVec 32) (s : State) : Eff :=
  hostCmd { opcode := 0x0504, reads := true, lenOk := len == 0 } hd s (congestionBody p0)
/-- CONGESTION_READ (R283). -/
def execCongestionRead (hd : Hdr) (len : Nat) (p0 : BitVec 32) (s : State) : Res :=
  unlessCut (.congestionRead hd len p0) s (done s (congestionReadEff hd len p0 s))

/-! ## Links (R333) -/

/-- The links that P0 names. -/
def linkSet (p0 : Nat) : Option (List Nat) :=
  if p0 < 24 then some [p0] else if p0 = 0xFF then some (List.range 24) else none

/-- What every action of LINK_STATE answers: FL_STATE of the link, or of all links. -/
def Hw.linkReply (h : Hw) (ns : List Nat) : Rep :=
  match ns with
  | [n] => { status := stOk, p := [(h.reg (Reg.FL_STATE n)).toNat] }
  | _ => { status := stOk, payload := ns.flatMap (fun n => beBytes 4 (h.reg (Reg.FL_STATE n)).toNat) }

/-- An action of LINK_STATE. -/
def linkBody (f : Hw → Nat → Hw) (p0 : BitVec 32) (_ : State) (h : Hw) : Did :=
  match linkSet p0.toNat with
  | none => Did.fail h stParam
  | some ns =>
    let h := ns.foldl f h
    { hw := h, rep := h.linkReply ns }
/-- The effect of LINK_STATE with an action. -/
def linkEff (reads : Bool) (f : Hw → Nat → Hw) (hd : Hdr) (len : Nat) (p0 : BitVec 32) (s : State) : Eff :=
  hostCmd { opcode := 0x0505, reads := reads, lenOk := len == 0 } hd s (linkBody f p0)

/-- A link is set DEAD: it leaves UP, and trains no more until the host says so. -/
def Hw.deadLink (h : Hw) (n : Nat) : Hw := (h.abortScans n).takeDown n lsDead

/-- LINK_STATE_READ (R333). -/
def execLinkStateRead (hd : Hdr) (len : Nat) (p0 : BitVec 32) (s : State) : Res :=
  unlessCut (.linkStateRead hd len p0) s (done s (linkEff true (fun h _ => h) hd len p0 s))
/-- LINK_STATE_ENABLE (R261, R333). -/
def execLinkStateEnable (hd : Hdr) (len : Nat) (p0 : BitVec 32) (s : State) : Res :=
  unlessCut (.linkStateEnable hd len p0) s (done s (linkEff false (fun h n => h.enableLink n true) hd len p0 s))
/-- LINK_STATE_DISABLE (R261, R333). -/
def execLinkStateDisable (hd : Hdr) (len : Nat) (p0 : BitVec 32) (s : State) : Res :=
  unlessCut (.linkStateDisable hd len p0) s (done s (linkEff false (fun h n => h.enableLink n false) hd len p0 s))
/-- LINK_STATE_RETRAIN (R261, R333). -/
def execLinkStateRetrain (hd : Hdr) (len : Nat) (p0 : BitVec 32) (s : State) : Res :=
  unlessCut (.linkStateRetrain hd len p0) s (done s (linkEff false Hw.retrain hd len p0 s))
/-- LINK_STATE_SET_DEAD (R286). -/
def execLinkStateSetDead (hd : Hdr) (len : Nat) (p0 : BitVec 32) (s : State) : Res :=
  unlessCut (.linkStateSetDead hd len p0) s (done s (linkEff false Hw.deadLink hd len p0 s))

end Sys2Proof.Machine
end

