-- ==== Sys2Proof/Machine/HostMem.lean ====
section
/-!
DEFINITION. The host's access to the HBM regions of a context (R122, R130, R335).
-/
namespace Sys2Proof.Machine

/-- The ranges of memory of a host access to a region, translated through the cache of the serving hub (R130, R134). -/
def Hw.hostRow (h : Hw) (m : Mem) (c : Nat) (x : Ctx) (walker : Nat) (write : Bool) (region off len : Nat) :
    Hw × Except Cond Place :=
  let p : Place := ⟨3, region, 0, off, len, 0, [], none⟩
  match x.img.hbm? region with
  | none => (h, .error ⟨dRegionBound, memArgs 3 region 0 255 off⟩)
  | some d =>
    if d.pages * pageBytes < off + len then (h, .error ⟨dRegionBound, memArgs 3 region 0 255 off⟩)
    else h.xlatRow m x.host.job c walker write p 10

/-- The status of a condition that a host access meets (R335). -/
def hostStatus (e : Cond) : Nat := if e.detail = dRegionBound ∨ e.detail = dRegionRo then stMemRange else stHbmUe

/-- Count the sectors that a host access reads or writes (R423). -/
def Hw.hostSectors (h : Hw) (p : Place) (write : Bool) : Hw :=
  p.segs.foldl (fun h (a, n) =>
    if n = 0 then h else h.sectors (bitsAt (pmaOf a) 37 4) write ((a + n - 1) / 32 - a / 32 + 1)) h

/-- Read a range: its bytes, or the status of what it meets. -/
def Hw.hostRead (h : Hw) (m : Mem) (c : Nat) (x : Ctx) (walker region off len : Nat) : Hw × Except Nat (List Byte) :=
  match h.hostRow m c x walker false region off len with
  | (h, .error e) => (h, .error (hostStatus e))
  | (h, .ok p) =>
    match m.rowUe p with
    | some a => let (h, e) := h.pieceUe x p a; (h, .error (hostStatus e))
    | none => (h.hostSectors p false, .ok (m.row p))

/-- The bytes that land before the first sector whose merge read is uncorrectable (R122). -/
def Mem.writable (m : Mem) : List (Nat × Nat) → List (Nat × Nat) × Option Nat
  | [] => ([], none)
  | (a, n) :: ss =>
    match m.mergeUe a n with
    | some u => ([(a, u - a)], some u)
    | none =>
      let (l, u) := m.writable ss
      ((a, n) :: l, u)

/-- Store bytes over a range in ascending order, up to the first sector whose merge read is uncorrectable. -/
def Hw.hostStore (h : Hw) (m : Mem) (x : Ctx) (p : Place) (bs : List Byte) : Hw × List Edit × Option Nat :=
  let (segs, u) := m.writable p.segs
  let h := h.hostSectors { p with segs := segs } true
  match u with
  | some a => let (h, e) := h.pieceUe x p a; (h, segEdits segs bs, some (hostStatus e))
  | none => (h, segEdits segs bs, none)

/-- Store bytes over a translated range, or the status of what the translation meets. -/
def Hw.hostPut (h : Hw) (m : Mem) (x : Ctx) (row : Except Cond Place) (bs : List Byte) : Hw × List Edit × Option Nat :=
  match row with
  | .error e => (h, [], some (hostStatus e))
  | .ok p => h.hostStore m x p bs

/-- Translate a range and store bytes over it. -/
def Hw.hostWrite (h : Hw) (m : Mem) (c : Nat) (x : Ctx) (walker region off : Nat) (bs : List Byte) :
    Hw × List Edit × Option Nat :=
  let (h, row) := h.hostRow m c x walker true region off bs.length
  h.hostPut m x row bs

/-- A 64-bit value in two words, low half first (R333). -/
def wide (lo hi : BitVec 32) : Nat := lo.toNat + 2 ^ 32 * hi.toNat

/-- MEM_WRITE of a context. -/
def memWriteBody (handle : Nat) (p0 p1 p2 : BitVec 32) (payload : List Byte) (sn : Seen) (s : State) (h : Hw) : Did :=
  match h.ctxOf handle with
  | none => Did.fail h stHandle
  | some (c, x) =>
    if x.resident = false then Did.fail h stCtxState
    else
      let (h, es, u) := (h.seen sn).hostWrite (s.mem.seen sn) c x (64 + h.holderHub) p0.toNat (wide p1 p2) payload
      { hw := h, rep := Rep.only (u.getD stOk), edits := seenEdits sn ++ es }
/-- The effect of MEM_WRITE. -/
def memWriteEff (hd : Hdr) (p0 p1 p2 : BitVec 32) (payload : List Byte) (sn : Seen) (s : State) : Eff :=
  hostCmd { opcode := 0x0400, lenOk := decide (payload.length ≤ 8192), needsCtx := true } hd s
    (memWriteBody hd.ctx.toNat p0 p1 p2 payload sn)
/-- MEM_WRITE (R335). -/
def execMemWrite (hd : Hdr) (p0 p1 p2 : BitVec 32) (payload : List Byte) (sn : Seen) (s : State) : Res :=
  unlessCut (.memWrite hd p0 p1 p2 payload sn) s (done s (memWriteEff hd p0 p1 p2 payload sn s))

/-- MEM_READ of a context. -/
def memReadBody (handle : Nat) (p0 p1 p2 p3 : BitVec 32) (sn : Seen) (s : State) (h : Hw) : Did :=
  match h.ctxOf handle with
  | none => Did.fail h stHandle
  | some (c, x) =>
    if p3 = 0 ∨ 8192 < p3.toNat then Did.fail h stParam
    else if x.resident = false then Did.fail h stCtxState
    else
      match (h.seen sn).hostRead (s.mem.seen sn) c x (64 + h.holderHub) p0.toNat (wide p1 p2) p3.toNat with
      | (h, .error e) => { hw := h, rep := Rep.only e, edits := seenEdits sn }
      | (h, .ok bs) => { hw := h, rep := { status := stOk, payload := bs }, edits := seenEdits sn }
/-- The effect of MEM_READ. -/
def memReadEff (hd : Hdr) (len : Nat) (p0 p1 p2 p3 : BitVec 32) (sn : Seen) (s : State) : Eff :=
  hostCmd { opcode := 0x0401, reads := true, lenOk := len == 0, needsCtx := true } hd s (memReadBody hd.ctx.toNat p0 p1 p2 p3 sn)
/-- MEM_READ (R335). -/
def execMemRead (hd : Hdr) (len : Nat) (p0 p1 p2 p3 : BitVec 32) (sn : Seen) (s : State) : Res :=
  unlessCut (.memRead hd len p0 p1 p2 p3 sn) s (done s (memReadEff hd len p0 p1 p2 p3 sn s))

/-- MEM_FILL of a context: it is accepted, and completes when the range is filled or a sector stops it. -/
def memFillBody (handle : Nat) (p0 p1 p2 p3 p4 p5 : BitVec 32) (sn : Seen) (s : State) (h : Hw) : Did :=
  match h.ctxOf handle with
  | none => Did.fail h stHandle
  | some (c, x) =>
    let n := wide p3 p4
    if n % 4 ≠ 0 then Did.fail h stParam
    else if x.resident = false then Did.fail h stCtxState
    else if ((x.img.hbm? p0.toNat).map (fun d => decide (wide p1 p2 + n ≤ d.pages * pageBytes))).getD false = false then
      Did.fail h stMemRange
    else
      let bs := (List.range (n / 4)).flatMap (fun _ => leBytes 4 p5.toNat)
      let (h, row) := (h.seen sn).hostRow (s.mem.seen sn) c x (64 + h.holderHub) true p0.toNat (wide p1 p2) n
      { hw := h, rep := Rep.only stAccepted, edits := seenEdits sn,
        next := fun h =>
          let (h, es, u) := h.hostPut (s.mem.seen sn) x row bs
          match (h.host.cmds.getLast?) with
          | some k => (h.finish k (u.getD stOk) [] [], es)
          | none => (h, es) }
/-- The effect of MEM_FILL. -/
def memFillEff (hd : Hdr) (len : Nat) (p0 p1 p2 p3 p4 p5 : BitVec 32) (sn : Seen) (s : State) : Eff :=
  hostCmd { opcode := 0x0403, lenOk := len == 0, needsCtx := true } hd s (memFillBody hd.ctx.toNat p0 p1 p2 p3 p4 p5 sn)
/-- MEM_FILL (R335). -/
def execMemFill (hd : Hdr) (len : Nat) (p0 p1 p2 p3 p4 p5 : BitVec 32) (sn : Seen) (s : State) : Res :=
  unlessCut (.memFill hd len p0 p1 p2 p3 p4 p5 sn) s (done s (memFillEff hd len p0 p1 p2 p3 p4 p5 sn s))

end Sys2Proof.Machine
end

