-- ==== Sys2Proof/Machine/Rdma.lean ====
section
/-!
DEFINITION. RoCEv2 (R319, R320): the commands of RDMA_BIND, and the requests a queue pair receives. The codes of its answers and the
rule of packet sequence numbers are those of the reliable-connected transport (PRESUMED, assumption 21).
-/
namespace Sys2Proof.Machine

/-! ## Queue pairs and bindings -/

def stRdma : Nat := 0x0404

/-- The queue pair of a number. -/
def Hw.qp? (h : Hw) (n : Nat) : Option Qp := h.rdma.qps.find? (fun q => q.num == n)

/-- Change a queue pair. -/
def Hw.modQp (h : Hw) (n : Nat) (f : Qp → Qp) : Hw :=
  { h with rdma := { h.rdma with qps := h.rdma.qps.map (fun q => if q.num == n then f q else q) } }

/-- Open a queue pair; the packet sequence number that the E9 starts from is not stated. -/
def qpOpenBody (p1 p2 p3 : BitVec 32) (payload : List Byte) (_ : State) (h : Hw) : Did :=
  if 7 < p1.toNat ∨ 2 ^ 24 ≤ p2.toNat ∨ 2 ^ 24 ≤ p3.toNat then Did.fail h stParam
  else if 512 ≤ h.rdma.qps.length then Did.fail h stRdma
  else
    let n := h.rdma.nextQp
    let q : Qp := { num := n, port := p1.toNat, remote := p2.toNat, addr := beNat payload, psn := p3.toNat }
    let (free, h) := h.takeFree
    { hw := { h with rdma := { h.rdma with qps := h.rdma.qps ++ [q], nextQp := n + 1 } },
      rep := { status := stOk, p := [n, free % 2 ^ 24] } }
/-- The effect of QP_OPEN. -/
def qpOpenEff (hd : Hdr) (p1 p2 p3 : BitVec 32) (payload : List Byte) (s : State) : Eff :=
  hostCmd { opcode := 0x0402, lenOk := payload.length == 16 } hd s (qpOpenBody p1 p2 p3 payload)
/-- QP_OPEN (R319). -/
def execQpOpen (hd : Hdr) (p1 p2 p3 : BitVec 32) (payload : List Byte) (s : State) : Res :=
  unlessCut (.qpOpen hd p1 p2 p3 payload) s (done s (qpOpenEff hd p1 p2 p3 payload s))

/-- Whether a context declares a range of a region, or the status where it does not. -/
def hostRange (x : Ctx) (region off len : Nat) : Option Nat :=
  if x.resident = false then some stCtxState
  else
    match x.img.hbm? region with
    | some d => if off + len ≤ d.pages * pageBytes then none else some stMemRange
    | none => some stMemRange

/-- Bind a range of a region to an rkey. -/
def mrBindBody (handle : Nat) (p1 p2 p3 p4 : BitVec 32) (_ : State) (h : Hw) : Did :=
  match h.ctxOf handle with
  | none => Did.fail h stHandle
  | some (c, x) =>
    if 2 ^ 10 ≤ p1.toNat then Did.fail h stParam
    else
      let region := bitsAt p1.toNat 0 8
      match hostRange x region (wide p2 p3) p4.toNat with
      | some st => Did.fail h st
      | none =>
        if 4096 ≤ h.rdma.mrs.length then Did.fail h stRdma
        else
          let k := h.rdma.nextKey
          let b : Mr :=
            { rkey := k, ctx := c, region := region, write := bitAt p1.toNat 8, read := bitAt p1.toNat 9, off := wide p2 p3,
              len := p4.toNat }
          { hw := { h with rdma := { h.rdma with mrs := h.rdma.mrs ++ [b], nextKey := k + 1 } },
            rep := { status := stOk, p := [k] } }
/-- The effect of MR_BIND. -/
def mrBindEff (hd : Hdr) (len : Nat) (p1 p2 p3 p4 : BitVec 32) (s : State) : Eff :=
  hostCmd { opcode := 0x0402, lenOk := len == 0, needsCtx := true } hd s (mrBindBody hd.ctx.toNat p1 p2 p3 p4)
/-- MR_BIND (R319). -/
def execMrBind (hd : Hdr) (len : Nat) (p1 p2 p3 p4 : BitVec 32) (s : State) : Res :=
  unlessCut (.mrBind hd len p1 p2 p3 p4) s (done s (mrBindEff hd len p1 p2 p3 p4 s))

/-- Bind a receive ring to a queue pair. -/
def ringBindBody (handle : Nat) (p1 p2 p3 p4 : BitVec 32) (_ : State) (h : Hw) : Did :=
  match h.ctxOf handle with
  | none => Did.fail h stHandle
  | some (c, x) =>
    let n := bitsAt p1.toNat 0 24
    let region := bitsAt p1.toNat 24 8
    if p4.toNat = 0 ∨ p4.toNat % 4096 ≠ 0 ∨ (h.qp? n).isNone = true then Did.fail h stParam
    else
      match hostRange x region (wide p2 p3) p4.toNat with
      | some st => Did.fail h st
      | none =>
        let r : Ring := { ctx := c, region := region, off := wide p2 p3, len := p4.toNat }
        { hw := h.modQp n (fun q => { q with ring := some r }), rep := Rep.only stOk }
/-- The effect of RING_BIND. -/
def ringBindEff (hd : Hdr) (len : Nat) (p1 p2 p3 p4 : BitVec 32) (s : State) : Eff :=
  hostCmd { opcode := 0x0402, lenOk := len == 0, needsCtx := true } hd s (ringBindBody hd.ctx.toNat p1 p2 p3 p4)
/-- RING_BIND (R319). -/
def execRingBind (hd : Hdr) (len : Nat) (p1 p2 p3 p4 : BitVec 32) (s : State) : Res :=
  unlessCut (.ringBind hd len p1 p2 p3 p4) s (done s (ringBindEff hd len p1 p2 p3 p4 s))

/-- Close a queue pair. -/
def qpCloseBody (p1 : BitVec 32) (_ : State) (h : Hw) : Did :=
  if (h.qp? p1.toNat).isNone then Did.fail h stParam
  else
    { hw := { h with rdma := { h.rdma with qps := h.rdma.qps.filter (fun q => q.num != p1.toNat) } }, rep := Rep.only stOk }
/-- The effect of QP_CLOSE. -/
def qpCloseEff (hd : Hdr) (len : Nat) (p1 : BitVec 32) (s : State) : Eff :=
  hostCmd { opcode := 0x0402, lenOk := len == 0 } hd s (qpCloseBody p1)
/-- QP_CLOSE (R319). -/
def execQpClose (hd : Hdr) (len : Nat) (p1 : BitVec 32) (s : State) : Res :=
  unlessCut (.qpClose hd len p1) s (done s (qpCloseEff hd len p1 s))

/-- Remove a memory binding. -/
def mrUnbindBody (p1 : BitVec 32) (_ : State) (h : Hw) : Did :=
  if h.rdma.mrs.all (fun b => b.rkey != p1.toNat) then Did.fail h stParam
  else
    { hw := { h with rdma := { h.rdma with mrs := h.rdma.mrs.filter (fun b => b.rkey != p1.toNat) } }, rep := Rep.only stOk }
/-- The effect of MR_UNBIND. -/
def mrUnbindEff (hd : Hdr) (len : Nat) (p1 : BitVec 32) (s : State) : Eff :=
  hostCmd { opcode := 0x0402, lenOk := len == 0 } hd s (mrUnbindBody p1)
/-- MR_UNBIND (R319). -/
def execMrUnbind (hd : Hdr) (len : Nat) (p1 : BitVec 32) (s : State) : Res :=
  unlessCut (.mrUnbind hd len p1) s (done s (mrUnbindEff hd len p1 s))

/-! ## Requests -/

/-- Syndromes of an acknowledgement, the read response and the congestion notification. -/
def rocAck : Nat := 0x00
def rocRnr : Nat := 0x20
def rocSeq : Nat := 0x60
def rocInvalid : Nat := 0x61
def rocAccess : Nat := 0x62
def rocOper : Nat := 0x63
def rocRead : Nat := 0x10
def rocCnp : Nat := 0x81

/-- Answer a request of a queue pair. -/
def Hw.rdmaOut (h : Hw) (q : Qp) (code psn : Nat) (body : List Byte) : Hw :=
  { h with out := h.out ++ [.rdma q.port q.remote code psn body] }

/-- Packets of 4,096 bytes that a message takes. -/
def packetsOf (n : Nat) : Nat := max 1 ((n + 4095) / 4096)

/-- What a queue pair does about the packet sequence number of a request (assumption 21): take the next one, answer a repeated one
again, and refuse one that leaves a gap. -/
inductive PsnKind where
  | next | again | gap
  deriving DecidableEq, Repr

/-- Which of these a number is. -/
def Qp.kind (q : Qp) (psn : Nat) : PsnKind :=
  let d := (psn + 2 ^ 24 - q.psn) % 2 ^ 24
  if d = 0 then .next else if 2 ^ 23 ≤ d then .again else .gap

/-- The live queue pair that a request on a port reaches: others are dropped. -/
def Hw.reach (h : Hw) (port qpn : Nat) : Option Qp :=
  match h.qp? qpn with
  | some q => if q.port = port ∧ q.err = false ∧ h.flag (Fd.EP_STATUS.LINK_UP port) = true then some q else none
  | none => none

/-- Acknowledge a request of `n` packets. -/
def Hw.rdmaAck (h : Hw) (q : Qp) (psn n : Nat) : Hw :=
  (h.modQp q.num (fun q => { q with psn := (psn + n) % 2 ^ 24 })).rdmaOut q rocAck psn []

/-- Refuse a request and move its queue pair to the error state. -/
def Hw.rdmaDie (h : Hw) (q : Qp) (code psn : Nat) : Hw :=
  (h.modQp q.num (fun q => { q with err := true })).rdmaOut q code psn []

/-- A SEND of one packet lands in the next slot of the ring. -/
def rdmaSendEff (port : Fin 8) (qpn psn : BitVec 24) (body : List Byte) (sn : Seen) (s : State) : Eff :=
  let h := s.hw
  match h.reach port.val qpn.toNat with
  | none => { hw := h }
  | some q =>
    match q.kind psn.toNat with
    | .gap => { hw := h.rdmaOut q rocSeq q.psn [] }
    | .again => { hw := h.rdmaOut q rocAck psn.toNat [] }
    | .next =>
      if 4096 < body.length then { hw := h.rdmaOut q rocInvalid psn.toNat [] }
      else
        match q.ring with
        | none => { hw := h.rdmaOut q rocRnr psn.toNat [] }
        | some r =>
          if r.len / 4096 ≤ r.used then { hw := h.rdmaOut q rocRnr psn.toNat [] }
          else
            match h.ctx? r.ctx with
            | none => { hw := h.rdmaOut q rocAccess psn.toNat [] }
            | some x =>
              let (h, es, u) := (h.seen sn).hostWrite (s.mem.seen sn) r.ctx x (64 + port.val / 4) r.region
                (r.off + 4096 * r.used) body
              match u with
              | none =>
                { hw := (h.modQp q.num (fun q => { q with ring := some { r with used := r.used + 1 } })).rdmaAck q psn.toNat 1,
                  edits := seenEdits sn ++ es }
              | some st =>
                { hw := if st = stHbmUe then h.rdmaDie q rocOper psn.toNat else h.rdmaOut q rocAccess psn.toNat [],
                  edits := seenEdits sn ++ es }
/-- RDMA_SEND (R319). -/
def execRdmaSend (port : Fin 8) (qpn psn : BitVec 24) (body : List Byte) (sn : Seen) (s : State) : Res :=
  done s (rdmaSendEff port qpn psn body sn s)

/-- The binding that a request names, where it allows the access and holds the range. -/
def Hw.binding (h : Hw) (rkey off len : Nat) (write : Bool) : Option (Mr × Ctx) :=
  match h.rdma.mrs.find? (fun b => b.rkey == rkey) with
  | none => none
  | some b =>
    if (if write then b.write else b.read) = true ∧ b.off ≤ off ∧ off + len ≤ b.off + b.len then
      (h.ctx? b.ctx).map (fun x => (b, x))
    else none

/-- A WRITE is translated and written. -/
def rdmaWriteEff (port : Fin 8) (qpn psn : BitVec 24) (rkey : BitVec 32) (off : BitVec 64) (body : List Byte) (sn : Seen)
    (s : State) : Eff :=
  let h := s.hw
  match h.reach port.val qpn.toNat with
  | none => { hw := h }
  | some q =>
    match q.kind psn.toNat with
    | .gap => { hw := h.rdmaOut q rocSeq q.psn [] }
    | .again => { hw := h.rdmaOut q rocAck psn.toNat [] }
    | .next =>
      match h.binding rkey.toNat off.toNat body.length true with
      | none => { hw := h.rdmaOut q rocAccess psn.toNat [] }
      | some (b, x) =>
        let (h, es, u) := (h.seen sn).hostWrite (s.mem.seen sn) b.ctx x (64 + port.val / 4) b.region off.toNat body
        match u with
        | none => { hw := h.rdmaAck q psn.toNat (packetsOf body.length), edits := seenEdits sn ++ es }
        | some st =>
          { hw := if st = stHbmUe then h.rdmaDie q rocOper psn.toNat else h.rdmaOut q rocAccess psn.toNat [],
            edits := seenEdits sn ++ es }
/-- RDMA_WRITE (R319). -/
def execRdmaWrite (port : Fin 8) (qpn psn : BitVec 24) (rkey : BitVec 32) (off : BitVec 64) (body : List Byte) (sn : Seen)
    (s : State) : Res := done s (rdmaWriteEff port qpn psn rkey off body sn s)

/-- A READ is translated and answered. -/
def rdmaReadEff (port : Fin 8) (qpn psn : BitVec 24) (rkey : BitVec 32) (off : BitVec 64) (len : BitVec 32) (sn : Seen)
    (s : State) : Eff :=
  let h := s.hw
  match h.reach port.val qpn.toNat with
  | none => { hw := h }
  | some q =>
    if q.kind psn.toNat = .gap then { hw := h.rdmaOut q rocSeq q.psn [] }
    else
      match h.binding rkey.toNat off.toNat len.toNat false with
      | none => { hw := h.rdmaOut q rocAccess psn.toNat [] }
      | some (b, x) =>
        match (h.seen sn).hostRead (s.mem.seen sn) b.ctx x (64 + port.val / 4) b.region off.toNat len.toNat with
        | (h, .error st) =>
          { hw := if st = stHbmUe then h.rdmaDie q rocOper psn.toNat else h.rdmaOut q rocAccess psn.toNat [],
            edits := seenEdits sn }
        | (h, .ok bs) =>
          let h := if q.kind psn.toNat = .next then
              h.modQp q.num (fun q => { q with psn := (psn.toNat + packetsOf len.toNat) % 2 ^ 24 }) else h
          { hw := h.rdmaOut q rocRead psn.toNat bs, edits := seenEdits sn }
/-- RDMA_READ (R319). -/
def execRdmaRead (port : Fin 8) (qpn psn : BitVec 24) (rkey : BitVec 32) (off : BitVec 64) (len : BitVec 32) (sn : Seen)
    (s : State) : Res := done s (rdmaReadEff port qpn psn rkey off len sn s)

/-- Any other request is refused and its queue pair moves to the error state. -/
def rdmaInvalidHw (port : Fin 8) (qpn psn : BitVec 24) (h : Hw) : Hw :=
  match h.reach port.val qpn.toNat with
  | none => h
  | some q => h.rdmaDie q rocInvalid psn.toNat
/-- RDMA_INVALID_REQUEST (R319). -/
def execRdmaInvalidRequest (port : Fin 8) (qpn psn : BitVec 24) (s : State) : Res := keep s (rdmaInvalidHw port qpn psn s.hw)

/-- A marked packet: a congestion notification unless one was sent within 50 µs. -/
def ceMarkedHw (port : Fin 8) (qpn : BitVec 24) (h : Hw) : Hw :=
  match h.reach port.val qpn.toNat with
  | none => h
  | some q =>
    if (match q.cnpTb with | some t => decide (h.tb < t + 50000) | none => false) then h
    else (h.modQp q.num (fun q => { q with cnpTb := some h.tb })).rdmaOut q rocCnp 0 []
/-- CE_MARKED_PACKET (R320). -/
def execCeMarkedPacket (port : Fin 8) (qpn : BitVec 24) (s : State) : Res := keep s (ceMarkedHw port qpn s.hw)

end Sys2Proof.Machine
end

