-- ==== Sys2Proof/Machine/RegRead.lean ====
section
/-!
DEFINITION. What the registers read (R10, R11, R34): the registers that are views of the machine's state, the captures of 64-bit
pairs, and the registers that a read clears.
-/
namespace Sys2Proof.Machine

/-! ## The two addresses of package-wide registers (R287, R314) -/

/-- The address that holds a register: a package-wide register of HUB-B's range stands at HUB-A's. -/
def canonReg (a : Nat) (l : RegLoc) : Nat :=
  match l.row.blk with
  | .hubB => if l.off = 0x8000 ∨ (0x9000 ≤ l.off ∧ l.off < 0xD000) then a - 0x01000000 else a
  | .rtr => if l.unit = 1 ∧ (l.off < 0x14 ∨ (0x400000 ≤ l.off ∧ l.off < 0x440000)) then a - 0x08000000 else a
  | _ => a

/-! ## Views of a core (R92, R172) -/

/-- The logical core that runs on a physical core: its context, LC and LK. -/
def Hw.onCore (h : Hw) (k : Nat) : Option (Nat × Ctx × Nat × Nat) :=
  match h.holder (k / 9) with
  | none => none
  | some (c, x) =>
    (x.host.place.bind (fun p => List.find? (fun (e : Nat × Nat) => e.2 == k) p.cores)).map (fun e => (c, x, e.1 / 8, e.1 % 8))

/-- The opcodes of the instructions in progress of a stream of a physical core, oldest first, with their words. -/
def Hw.inProgress (h : Hw) (k s : Nat) : List Nat :=
  match h.onCore k with
  | none => []
  | some (_, x, lc, lk) =>
    (x.run.strm (strmKey lc lk s)).inflight.map (fun f => (x.img.words (strmKey lc lk s)).getD f.idx 0)

/-- MXE_STATUS. -/
def Hw.mxeStatus (h : Hw) (k e : Nat) : Nat :=
  let m := if e = 0 then (h.coreOf k).mxe0 else (h.coreOf k).mxe1
  let ws := h.inProgress k e
  let dead := m.acc.all (fun x => x.empty)
  let st := if m.retrying then 3 else if ws.any (fun w => opcOf w == 0x14) then 2 else if dead then 0 else 1
  m.replayOvf.toNat * 2 ^ 23 + m.replay.length % 128 * 2 ^ 16 + st * 2 ^ 4 + m.staged.isSome.toNat * 2 ^ 3 +
    (!ws.isEmpty).toNat * 2 + dead.toNat

/-- VXE_STATUS: the function unit runs VEXP, VRCP, VRSQ, VSMX and computed VROPE. -/
def Hw.vxeStatus (h : Hw) (k : Nat) : Nat :=
  let ws := h.inProgress k 2
  let fu := ws.any (fun w => [0x31, 0x32, 0x33, 0x35].contains (opcOf w) || (opcOf w == 0x36 && bitAt w 18))
  fu.toNat * 2 + (!ws.isEmpty).toNat

/-- Whether the overlap rule of R63 holds the next TXE instruction. -/
def Hw.txeHeld (h : Hw) (k : Nat) : Bool :=
  match h.onCore k with
  | none => false
  | some (_, x, lc, lk) =>
    let st := x.run.strm (strmKey lc lk 3)
    match x.nextWord (strmKey lc lk 3) with
    | none => false
    | some w =>
      let (src, dst) := h.footprint x lc lk w st.iters
      st.arrival == .none && st.inflight.any (fun f => conflicts src dst f.src f.dst)

/-- TXE_STATUS. -/
def Hw.txeStatus (h : Hw) (k : Nat) : Nat :=
  let ws := h.inProgress k 3
  (ws.head?.map opcOf == some 0x43).toNat * 2 ^ 5 + (h.txeHeld k).toNat * 2 ^ 4 + min 8 ws.length

/-- CO_SEQ_STATE. -/
def Hw.seqState (h : Hw) (k : Nat) : Nat :=
  match h.onCore k with
  | none => 0
  | some (_, x, lc, lk) => ((List.range 5).map (fun s => x.strmState lc lk s * 2 ^ (4 * s))).foldl (· + ·) 0

/-- CO_STREAM_IDX. -/
def Hw.streamIdx (h : Hw) (k s : Nat) : Nat :=
  match h.onCore k with
  | none => 0
  | some (_, x, lc, lk) =>
    if x.strmState lc lk s = 0 then 0 else 2 ^ 31 + (x.run.strm (strmKey lc lk s)).oldest % 2 ^ 24

/-- CO_TOKEN_CNT. -/
def Hw.tokenCnt (h : Hw) (k n : Nat) : Nat :=
  match h.onCore k with
  | none => 0
  | some (_, x, lc, lk) =>
    ((List.range 4).map (fun j =>
      match x.img.chan? lc lk (4 * n + j) with
      | some d => (x.chan d).tokens.length % 32 * 2 ^ (8 * j)
      | none => 0)).foldl (· + ·) 0

/-- CO_EPOCH. -/
def Hw.coreEpoch (h : Hw) (k : Nat) : Nat :=
  match h.onCore k with
  | none => 0
  | some (_, x, _, _) => x.run.epochSeq % 2 ^ 32

/-- A register of core `l.unit`; `v` is what the table of registers holds. -/
def Hw.coreView (h : Hw) (l : RegLoc) (v : Nat) : Nat :=
  if l.off = 0x1000 then h.mxeStatus l.unit 0
  else if l.off = 0x1100 then h.mxeStatus l.unit 1
  else if l.off = 0x1200 then h.vxeStatus l.unit
  else if l.off = 0x1300 then h.txeStatus l.unit
  else if l.off = 0x0400 then h.seqState l.unit
  else if 0x0404 ≤ l.off ∧ l.off < 0x0418 then h.streamIdx l.unit ((l.off - 0x0404) / 4)
  else if 0x0420 ≤ l.off ∧ l.off < 0x0460 then h.tokenCnt l.unit ((l.off - 0x0420) / 4)
  else if l.off = 0x0460 then h.coreEpoch l.unit
  else v

/-! ## Views of a cluster (R137, R395) -/

/-- CL_XLAT_STATUS. -/
def Hw.xlatStatus (h : Hw) (c : Nat) : Nat :=
  let x := h.cache c
  x.walks.length % 32 * 2 ^ 22 + (x.sets.map (fun (q : Nat × List XEnt) => q.2.length)).foldl (· + ·) 0 % 4096

/-- A register of cluster `l.unit`. -/
def Hw.clusView (h : Hw) (m : Mem) (l : RegLoc) (v : Nat) : Nat :=
  if l.off = 0x0200 then h.xlatStatus l.unit
  else if 0x4000 ≤ l.off ∧ l.off < 0x5000 then
    (if h.flag (Fd.TRC_CAPTURE_CTRL.VALID l.unit) then m.readLe (captureAt l.unit + (l.off - 0x4000)) 4 else 0)
  else v

/-! ## Views of a hub -/

/-- CVE_STATUS (R314): SLOTS_FREE reads 0 until S10 ends. -/
def Hw.cveStatus (h : Hw) (v : Nat) : Nat :=
  (if h.flag Fd.HUB_BRINGUP_STATUS.READY then h.slotsFree v else 0) % 128 * 2 ^ 24 + h.channels v % 64 * 2 ^ 16 +
    min 127 (h.cveQueued v) * 2 ^ 8 + (h.cve.colls.filter (fun c => c.cve == v && c.phase == .staged)).length % 64

/-- PKG_FH_DATA `n`: four bytes of the selected entry. -/
def Hw.fhData (h : Hw) (n : Nat) : Nat :=
  match h.hist.ents[h.fld Fd.PKG_FH_INDEX.INDEX]? with
  | some e => leNat ((e.bytes.drop (4 * n)).take 4)
  | none => 0

/-- The unit that PKG_FH_UNIT_SEL selects: an engine, a core or a cluster. -/
def Hw.fhSelected (h : Hw) : Option Nat :=
  let p := h.fld Fd.PKG_FH_UNIT_SEL.PUNIT
  if 1 ≤ p / 2 ^ 28 ∧ p / 2 ^ 28 ≤ 3 then some p else none

/-- PKG_FH_UNIT. -/
def Hw.fhUnit (h : Hw) : Nat :=
  match h.fhSelected with
  | some p => h.unitState p * 2 ^ 30 + min 255 (h.hist.counting h.histNow p) * 2 ^ 16 + (h.hist.units.getD p {}).total
  | none => 0

/-- HUB_STAGE_TIME: of the running stage, or of the last one. -/
def Hw.stageTime (h : Hw) (v : Nat) : Nat := if h.stageState = bsRunning then min (2 ^ 32 - 1) h.stageMs else v

/-- A register of a hub. -/
def Hw.hubView (h : Hw) (l : RegLoc) (v : Nat) : Nat :=
  if l.off = 0x10 then h.tb % 2 ^ 32
  else if l.off = 0x14 then h.tb / 2 ^ 32 % 2 ^ 32
  else if l.off = 0x040C then h.stageTime v
  else if l.off = 0x200C then (h.plu.pins.map (fun q => 2 ^ q.1)).foldl (· + ·) 0
  else if 0x21C0 ≤ l.off ∧ l.off < 0x2200 then h.partUsed ((l.off - 0x21C0) / 4)
  else if l.off = 0x3004 then h.cpxHealth l.unit
  else if 0x4110 ≤ l.off ∧ l.off < 0x4150 then
    leNat (((h.opBytes (h.fld Fd.SEP_KEY_CTRL.SLOT)).drop (l.off - 0x4110)).take 4)
  else if 0x5010 ≤ l.off ∧ l.off < 0x5030 then h.fhData ((l.off - 0x5010) / 4)
  else if l.off = 0x5034 then h.fhUnit
  else if l.off = 0x6218 then h.cycles
  else if l.off = 0x8004 then h.cveStatus l.unit
  else if 0x400000 ≤ l.off then
    let w := (l.off - 0x400000) / 4
    h.cve.members.getD (2 * w + 1) 0 % 65536 * 65536 + h.cve.members.getD (2 * w) 0 % 65536
  else v

/-- What a register holds now; where the spec leaves a field open, a free value. -/
def Hw.view (h : Hw) (m : Mem) (a : Nat) (l : RegLoc) : Nat × Hw :=
  let v := (h.reg (canonReg a l)).toNat
  match l.row.blk with
  | .core => (h.coreView l v, h)
  | .clus => (h.clusView m l v, h)
  | .hubA => if l.off = 0x3008 then h.cpxJournal else (h.hubView l v, h)
  | .hubB => (h.hubView l v, h)
  | _ => (v, h)

/-! ## Reading (R10, R34) -/

/-- Whether a register is the low half of a 64-bit pair, whose read captures the pair. -/
def isLow (a : Nat) : Bool :=
  a == Reg.PKG_TIMEBASE_LO || a == Reg.PWR_ENERGY_LO || a == Reg.PKG_TRIG_TB_LO || (a % 16 == 4 && (ctrAt a).isSome)

/-- The high half as its register holds it. -/
def Hw.highHalf (h : Hw) (a : Nat) : Nat :=
  if a = Reg.PKG_TIMEBASE_HI then h.tb / 2 ^ 32 % 2 ^ 32 else (h.reg a).toNat

/-- A read of a low half captures the high half for the session. -/
def Hw.capturePair (h : Hw) (id a : Nat) : Hw :=
  if isLow a then h.modSession id (fun x => { x with captured := Tab.put x.captured (a + 4) (h.highHalf (a + 4)) }) else h

/-- What a session has captured for a high half. -/
def Hw.captured? (h : Hw) (id a : Nat) : Option Nat := (h.session? id).bind (fun x => Tab.find? x.captured a)

/-- A session reads a register: the value, and the fields that the read clears. -/
def Hw.regRead (h : Hw) (m : Mem) (id a : Nat) (l : RegLoc) : Nat × Hw :=
  let (v, h) := match h.captured? id a with
    | some c => (c, h)
    | none => h.view m a l
  let h := h.capturePair id a
  if l.row.rc = 0 then (v, h)
  else
    let b := canonReg a l
    (v, h.setReg b (h.reg b &&& ~~~ BitVec.ofNat 32 l.row.rc))

/-- The checks of an access (R11, R359, R494): the address first, then whether its unit has power and is out of reset. -/
def Hw.regCheck (h : Hw) (a : Nat) : Except Nat RegLoc :=
  match regFind a with
  | none => .error stRegAddr
  | some l =>
    let down := match l.row.blk with
      | .core => h.coreInReset l.unit
      | .clus => h.clusInReset l.unit
      | _ => false
    if h.regPowered a && !down then .ok l else .error stReset

end Sys2Proof.Machine
end

