-- ==== Sys2Proof/Machine/Regs.lean ====
section
/-!
DEFINITION. Writes of registers (R10) with the behaviour that the register tables give them, and the register commands of the host
(R333).
-/
namespace Sys2Proof.Machine

/-! ## A register without behaviour of its own (R10) -/

/-- What the bits of each access type hold after a write of `v`. -/
def RegRow.written (r : RegRow) (old v : W32) : W32 :=
  let rw := BitVec.ofNat 32 r.rw
  (((old &&& ~~~rw) ||| (v &&& rw)) &&& ~~~(v &&& BitVec.ofNat 32 r.w1c)) ||| (v &&& BitVec.ofNat 32 r.w1s)

/-- Write a register by its access types. -/
def Hw.plainWrite (h : Hw) (a : Nat) (l : RegLoc) (v : Nat) : Hw :=
  let b := canonReg a l
  h.setReg b (l.row.written (h.reg b) (BitVec.ofNat 32 v))

/-- A field of `v` at the nearer end of its range. -/
def clampFld (lo w low high v : Nat) : Nat := setBitsAt v lo w (clampTo low high (bitsAt v lo w))

/-! ## Partitions (R201, R202) -/

/-- Write half of a partition's membership: ignored, with PART_REJECT, where it would remove a cluster that holds a context or add
one that another partition holds. -/
def Hw.partWrite (h : Hw) (p : Nat) (hi : Bool) (v : Nat) : Hw :=
  let f := fun (q : Nat) => if hi then Fd.PLU_PART_HI.MEMBER q else Fd.PLU_PART_LO.MEMBER q
  let old := h.fld (f p)
  let base := if hi then 32 else 0
  let bad := (List.range 32).any (fun i =>
    (bitAt old i && !bitAt v i && (h.holder (base + i)).isSome) ||
      (bitAt v i && !bitAt old i && (List.range 16).any (fun q => q != p && bitAt (h.fld (f q)) i)))
  if bad then h.setFlag Fd.PLU_STATUS.PART_REJECT true else h.setFld (f p) v
/-- PARTITION_WRITE (R202). -/
def execPartitionWrite (p : Fin 16) (hi : Bool) (v : W32) (s : State) : Res :=
  keep s (if s.hw.served then s.hw.partWrite p.val hi v.toNat else s.hw)

/-! ## The installation map and other settings that the NV store keeps (R263, R317) -/

/-- Write a register by its access types and save it. -/
def Hw.savedWrite (h : Hw) (a : Nat) (l : RegLoc) (v : Nat) : Hw :=
  let h := h.plainWrite a l v
  { h with nv := h.nv.put (canonReg a l) (h.reg (canonReg a l)) }

/-- Whether a register belongs to the installation map. -/
def isMapReg (l : RegLoc) : Bool := l.row.blk == .rtr && (l.off == 0 || (decide (0x1000 ≤ l.off) && decide (l.off < 0x1030)))

/-- Write the installation map: ignored, with CFG_REJECT, while any link is enabled. -/
def Hw.mapWrite (h : Hw) (a : Nat) (l : RegLoc) (v : Nat) : Hw :=
  if (List.range 24).any (fun n => h.flag (Fd.FL_CTRL.EN n)) then h.setFlag Fd.FR_STATUS.CFG_REJECT true else h.savedWrite a l v

/-- What INSTALLATION_MAP_WRITE does: nothing at a register that is not part of the map. -/
def mapWriteHw (a v : Nat) (h : Hw) : Hw :=
  match regFind a with
  | some l => if h.served && isMapReg l then h.mapWrite a l v else h
  | none => h
/-- INSTALLATION_MAP_WRITE (R263). -/
def execInstallationMapWrite (a : BitVec 32) (v : W32) (s : State) : Res := keep s (mapWriteHw a.toNat v.toNat s.hw)

/-! ## The time source (R32) -/

/-- Select a discipline source: LOCKED drops, and the new source is followed from its next valid time. -/
def Hw.selectTime (h : Hw) (src : Nat) : Hw :=
  let h := (h.setFld Fd.PKG_TIME_CTRL.SRC src).setFlag Fd.PKG_TIME_STATUS.LOCKED false
  let h := if src = 0 then h.setFld Fd.PKG_TIME_STATUS.OFFSET_NS 0 else h
  ({ h with slew := 0 } : Hw).chooseTime
/-- TIME_SOURCE_SELECT (R32). -/
def execTimeSourceSelect (src : Fin 4) (s : State) : Res := keep s (if s.hw.served then s.hw.selectTime src.val else s.hw)

/-! ## The fault history (R391, R395) -/

/-- CLEAR_UNIT: the selected unit returns to GOOD, with a HOST_CLEAR entry. -/
def Hw.clearUnit (h : Hw) : Hw :=
  match h.fhSelected with
  | none => h
  | some p =>
    let h := h.history p 0xB 0 0 0 0 false false
    ({ h with hist := { h.hist with units := h.hist.units.mod p (fun u => { u with checking := false }) } } : Hw).resources

/-- What CLEAR_UNIT does for a session: its key must hold the service authority. -/
def clearUnitHw (id : Nat) (h : Hw) : Hw :=
  match h.session? id with
  | some x => if h.served && x.opened && x.role == .vendor then h.clearUnit else h
  | none => h
/-- CLEAR_UNIT (R391). -/
def execClearUnit (session : BitVec 32) (s : State) : Res := keep s (clearUnitHw session.toNat s.hw)

/-! ## Registers with behaviour of their own, in HUB-A's range -/

/-- PWR_PRIO (R404): an order that names a class twice or a reserved class is ignored as a whole. -/
def Hw.prioWrite (h : Hw) (v : Nat) : Hw :=
  let o := [bitsAt v 0 2, bitsAt v 2 2, bitsAt v 4 2]
  if o.contains 3 = false ∧ o.Nodup then
    h.setReg Reg.PWR_PRIO (BitVec.ofNat 32 (clampTo 10 1000 (bitsAt v 16 11) * 2 ^ 16 + v % 64))
  else h.setFlag Fd.PWR_STATUS.PRIO_REJECT true

/-- THM_FOEHN (R416): saved; a mode that is switched off stops its load. -/
def Hw.foehnWrite (h : Hw) (l : RegLoc) (v : Nat) : Hw :=
  let h := h.savedWrite Reg.THM_FOEHN l (clampFld 0 8 30 70 v)
  if h.flag Fd.THM_FOEHN.EN then h else h.foehnStop

/-- PKG_TRIG_CTRL (R477): selecting both functions sets CFG_ERR; changes of pace that wait for an edge apply when the pace-epoch mode
ends. -/
def Hw.trigWrite (h : Hw) (l : RegLoc) (v : Nat) : Hw :=
  let was := h.paceWaits
  let h := h.plainWrite Reg.PKG_TRIG_CTRL l v
  let h := if v % 4 = 3 then h.setFlag Fd.PKG_TRIG_CTRL.CFG_ERR true else h
  if was && !h.paceWaits then h.applyWaits else h

/-- CTR_CCL_CTRL (R426, R437): a changed window is marked in the record of the present one. -/
def Hw.cclWrite (h : Hw) (l : RegLoc) (v : Nat) : Hw :=
  let old := h.fld Fd.CTR_CCL_CTRL.WINDOW_US
  let h := h.plainWrite Reg.CTR_CCL_CTRL l (clampFld 0 24 1 10000000 v)
  if h.fld Fd.CTR_CCL_CTRL.WINDOW_US = old then h else { h with ccl := { h.ccl with changed := true } }

/-- SEP_KEY_CTRL (R448, R452): SLOT, SERVICE_EN and IMG_SIG_REQ are stored, then COMMIT and REMOVE act; a COMMIT that is refused
refuses the whole write. -/
def Hw.keyCtrlWrite (h : Hw) (f : Fuses) (v : Nat) : Nat × Hw :=
  if lcEdits f = false then (stState, h)
  else
    let slot := bitsAt v 16 4
    let g := (h.setFld Fd.SEP_KEY_CTRL.SLOT slot).setFld Fd.SEP_KEY_CTRL.IMG_SIG_REQ (bitsAt v 29 1)
    let (st, g) := if bitAt v 31 then g.keyCommit f slot else (stOk, g)
    if st ≠ stOk then (st, h)
    else
      let g := if bitAt v 30 then (g.keyRemove f slot).2 else g
      (stOk, g.setServiceEn f (bitAt v 28))

/-- Behaviour of the registers of HUB-A's range and of the package, where a register has some. -/
def Hw.hubWrite (h : Hw) (f : Fuses) (role : Role) (a : Nat) (l : RegLoc) (v : Nat) : Option (Nat × Hw) :=
  let o := l.off
  if o = 0x18 then some (stOk, h.selectTime (v % 4))
  else if o = 0x0400 then some (stOk, h.bringupGo (BitVec.ofNat 32 v))
  else if o = 0x0408 then some (stOk, h.plainWrite a l (clampFld 0 16 100 60000 v))
  else if o = 0x090C then some (stOk, h.trigWrite l v)
  else if o = 0x2004 then some (stOk, h.plainWrite a l (clampFld 8 7 70 95 v))
  else if 0x2100 ≤ o ∧ o < 0x2180 then some (stOk, h.partWrite ((o - 0x2100) / 8) (bitAt o 2) v)
  else if o = 0x4104 then (if role = .service then some (h.keyCtrlWrite f v) else some (stPrivilege, h))
  else if 0x4110 ≤ o ∧ o < 0x4150 then
    (if role ≠ .service then some (stPrivilege, h)
     else if lcEdits f then some (stOk, h.plainWrite a l v) else some (stState, h))
  else if o = 0x5038 then
    (if role ≠ .vendor then some (stPrivilege, h)
     else some (stOk, if bitAt v 0 then h.clearUnit else h))
  else if o = 0x6008 then some (stOk, h.prioWrite v)
  else if o = 0x6200 then some (stOk, (h.plainWrite a l v).platform)
  else if o = 0x6208 then some (stOk, h.plainWrite a l (clampFld 0 16 300 600 v))
  else if o = 0x620C then some (stOk, (h.plainWrite a l (clampFld 16 11 100 1000 (clampFld 0 11 300 2000 v))).repace)
  else if o = 0x6210 then some (stOk, h.foehnWrite l v)
  else if o = 0x7000 then some (stOk, h.cclWrite l v)
  else if o = 0x7014 then some (stOk, h.plainWrite a l (clampFld 0 3 0 5 v))
  else if o = 0x8000 then some (stOk, h.plainWrite a l (clampFld 0 16 100 60000 v))
  else if 0x10000 ≤ o ∧ o < 0x10400 then
    (if l.row.rw = 0 then none
     else some (stOk, h.savedWrite a l (if o % 256 = 8 ∧ v % 4096 = 4095 then 0 else v)))
  else none

/-! ## Registers with behaviour of their own, elsewhere -/

/-- FL_CTRL (R259, R261). -/
def Hw.linkCtrlWrite (h : Hw) (n v : Nat) : Hw :=
  let h := (h.setFld (Fd.FL_CTRL.FAST_EN n) (bitsAt v 2 1)).setFld (Fd.FL_CTRL.AUTO_RETRAIN n) (bitsAt v 1 1)
  let h := if bitAt v 0 == h.flag (Fd.FL_CTRL.EN n) then h else h.enableLink n (bitAt v 0)
  if bitAt v 3 then h.retrain n else h

/-- TC weights: a weight of 0 is stored as 1. -/
def tcWeights (v : Nat) : Nat := clampFld 0 4 1 15 (clampFld 4 4 1 15 (clampFld 8 4 1 15 v))

/-- Behaviour of the registers of a router and its links. -/
def Hw.rtrWrite (h : Hw) (a : Nat) (l : RegLoc) (v : Nat) : Option (Nat × Hw) :=
  let o := l.off
  if isMapReg l then some (stOk, h.mapWrite a l v)
  else if o = 0x4 then some (stOk, h.plainWrite a l (clampFld 16 8 10 100 (clampFld 8 8 8 255 v)))
  else if o = 0xC then some (stOk, h.plainWrite a l (if 24 ≤ bitsAt v 0 5 then setBitsAt v 0 5 31 else v))
  else if o = 0x10 then some (stOk, h.plainWrite a l (tcWeights v))
  else if 0x400000 ≤ o ∧ o < 0x440000 then
    some (if h.flag Fd.FR_STATUS.QUIESCED then stOk else stFabricActive, h.setRoute ((o - 0x400000) / 4) v)
  else if 0x1000000 ≤ o then
    let n := 12 * l.unit + (o - 0x1000000) / 0x10000
    let p := o % 0x10000
    if p = 4 then some (stOk, h.linkCtrlWrite n v)
    else if 0x100 ≤ p ∧ p < 0x200 ∧ p % 32 = 0x10 then
      some (stOk, scanWriteHw (Fin.ofNat 24 n) (Fin.ofNat 8 ((p - 0x100) / 32)) (BitVec.ofNat 32 v) h)
    else none
  else none

/-- Behaviour of the registers of a die, a cluster, a core or a stack. -/
def Hw.unitWrite (h : Hw) (a : Nat) (l : RegLoc) (v : Nat) : Option (Nat × Hw) :=
  let o := l.off
  match l.row.blk with
  | .die =>
    if o = 0x800200 then some (stOk, h.plainWrite a l (clampFld 0 16 60 10080 v))
    else if o = 0x800304 then some (stOk, (h.setDiePace l.unit (v % 2048)).repace)
    else none
  | .clus =>
    if o = 0x300 then
      let g := h.plainWrite a l v
      some (stOk, if g.flag (Fd.TRC_CAPTURE_CTRL.VALID l.unit) then g
        else g.modClus l.unit (fun x => { x with samp := { x.samp with limit := 8192 } }))
    else if o = 0x2800 ∨ o = 0x2808 then some (stOk, h.plainWrite a l (if bitsAt v 30 2 = 3 then setBitsAt v 30 2 0 else v))
    else none
  | .core =>
    if o = 0x2800 ∨ o = 0x2808 then some (stOk, h.plainWrite a l (if bitsAt v 30 2 = 3 then setBitsAt v 30 2 0 else v)) else none
  | .hbm => if o = 0x10 then some (stOk, h.plainWrite a l (clampFld 0 8 1 168 v)) else none
  | _ => none

/-- A counter's configuration or threshold (R423, R437). -/
def Hw.ctrWrite (h : Hw) (a v : Nat) : Option (Nat × Hw) :=
  match ctrAt a with
  | some k =>
    if a % 16 = 0 then some (stOk, h.writeCfg k v)
    else if a % 16 = 12 then some (stOk, h.writeAux k v)
    else none
  | none => none

/-- What a write does to a register with behaviour of its own, with the status of a write by the host; none for any other register. -/
def Hw.ownWrite (h : Hw) (f : Fuses) (role : Role) (a : Nat) (l : RegLoc) (v : Nat) : Option (Nat × Hw) :=
  match h.ctrWrite a v with
  | some r => some r
  | none =>
    match l.row.blk with
    | .hubA | .hubB => h.hubWrite f role a l v
    | .rtr => h.rtrWrite a l v
    | _ => h.unitWrite a l v

/-- The host writes a register: the status, and the machine after it. -/
def Hw.regWrite (h : Hw) (f : Fuses) (role : Role) (a : Nat) (l : RegLoc) (v : Nat) : Nat × Hw :=
  (h.ownWrite f role a l v).getD (stOk, h.plainWrite a l v)

/-! ## REGISTER_WRITE and READ_CAPTURE (R10, R34) -/

/-- A write of a register without behaviour of its own; at any other address it does nothing. -/
def registerWriteHw (f : Fuses) (a v : Nat) (h : Hw) : Hw :=
  match h.regCheck a with
  | .ok l => if h.served && (h.ownWrite f .none a l v).isNone then h.plainWrite a l v else h
  | .error _ => h
/-- REGISTER_WRITE (R10). -/
def execRegisterWrite (a : BitVec 32) (v : W32) (s : State) : Res := keep s (registerWriteHw s.fuses a.toNat v.toNat s.hw)

/-- A session reads the low half of a pair. -/
def readCaptureHw (id a : Nat) (h : Hw) : Hw :=
  match h.regCheck a with
  | .ok _ => if h.served then h.capturePair id a else h
  | .error _ => h
/-- READ_CAPTURE (R34). -/
def execReadCapture (session a : BitVec 32) (s : State) : Res := keep s (readCaptureHw session.toNat a.toNat s.hw)

/-! ## The register commands of the host (R333) -/

/-- The role of a session. -/
def Hw.roleOf (h : Hw) (id : Nat) : Role :=
  match h.session? id with
  | some x => x.role
  | none => .none

/-- REG_READ's own effect. -/
def regReadBody (id : Nat) (p0 : BitVec 32) (s : State) (h : Hw) : Did :=
  match h.regCheck p0.toNat with
  | .error st => Did.fail h st
  | .ok l =>
    let (v, g) := h.regRead s.mem id p0.toNat l
    { hw := g, rep := { status := stOk, p := [v] } }
/-- The effect of REG_READ. -/
def regReadEff (hd : Hdr) (len : Nat) (p0 : BitVec 32) (s : State) : Eff :=
  hostCmd { opcode := 0x0100, reads := true, lenOk := len == 0 } hd s (regReadBody hd.session.toNat p0)
/-- REG_READ (R333). -/
def execRegRead (hd : Hdr) (len : Nat) (p0 : BitVec 32) (s : State) : Res :=
  unlessCut (.regRead hd len p0) s (done s (regReadEff hd len p0 s))

/-- REG_WRITE's own effect. -/
def regWriteBody (id : Nat) (p0 p1 : BitVec 32) (s : State) (h : Hw) : Did :=
  match h.regCheck p0.toNat with
  | .error st => Did.fail h st
  | .ok l =>
    let (st, g) := h.regWrite s.fuses (h.roleOf id) p0.toNat l p1.toNat
    { hw := g, rep := Rep.only st }
/-- The effect of REG_WRITE. -/
def regWriteEff (hd : Hdr) (len : Nat) (p0 p1 : BitVec 32) (s : State) : Eff :=
  hostCmd { opcode := 0x0101, lenOk := len == 0 } hd s (regWriteBody hd.session.toNat p0 p1)
/-- REG_WRITE (R333). -/
def execRegWrite (hd : Hdr) (len : Nat) (p0 p1 : BitVec 32) (s : State) : Res :=
  unlessCut (.regWrite hd len p0 p1) s (done s (regWriteEff hd len p0 p1 s))

/-- The value that REG_RMW writes. -/
def rmwValue (old mask value : W32) : W32 := (old &&& ~~~mask) ||| (value &&& mask)

/-- REG_RMW's own effect: a read and a write with nothing between them; a refused write reads nothing. -/
def regRmwBody (id : Nat) (p0 p1 p2 : BitVec 32) (s : State) (h : Hw) : Did :=
  match h.regCheck p0.toNat with
  | .error st => Did.fail h st
  | .ok l =>
    let (v, g) := h.regRead s.mem id p0.toNat l
    let (st, g) := g.regWrite s.fuses (h.roleOf id) p0.toNat l (rmwValue (BitVec.ofNat 32 v) p1 p2).toNat
    { hw := g, rep := if st = stOk then { status := stOk, p := [v] } else Rep.only st }
/-- The effect of REG_RMW. -/
def regRmwEff (hd : Hdr) (len : Nat) (p0 p1 p2 : BitVec 32) (s : State) : Eff :=
  hostCmd { opcode := 0x0102, lenOk := len == 0 } hd s (regRmwBody hd.session.toNat p0 p1 p2)
/-- REG_RMW (R333). -/
def execRegRmw (hd : Hdr) (len : Nat) (p0 p1 p2 : BitVec 32) (s : State) : Res :=
  unlessCut (.regRmw hd len p0 p1 p2) s (done s (regRmwEff hd len p0 p1 p2 s))

/-- Read registers in ascending order of address. -/
def Hw.regReads (h : Hw) (m : Mem) (id : Nat) (ls : List (Nat × RegLoc)) : List Nat × Hw :=
  ls.foldl (fun (acc : List Nat × Hw) (a, l) =>
    let (v, g) := acc.2.regRead m id a l
    (acc.1 ++ [v], g)) ([], h)

/-- The registers of a block, or the status of the check that fails: every address is held against the map first. -/
def Hw.blockCheck (h : Hw) (a n : Nat) : Except Nat (List (Nat × RegLoc)) :=
  let rs := (List.range n).map (fun i => (a + 4 * i, h.regCheck (a + 4 * i)))
  if rs.any (fun r => (regFind r.1).isNone) then .error stRegAddr
  else if rs.any (fun r => r.2.toBool == false) then .error stReset
  else .ok (rs.filterMap (fun r => match r.2 with | .ok l => some (r.1, l) | .error _ => none))

/-- REG_READ_BLOCK's own effect. -/
def regBlockBody (id : Nat) (p0 p1 : BitVec 32) (s : State) (h : Hw) : Did :=
  if p1.toNat = 0 ∨ 2048 < p1.toNat then Did.fail h stParam
  else
    match h.blockCheck p0.toNat p1.toNat with
    | .error st => Did.fail h st
    | .ok ls =>
      let (vs, g) := h.regReads s.mem id ls
      { hw := g, rep := { status := stOk, payload := vs.flatMap (beBytes 4) } }
/-- The effect of REG_READ_BLOCK. -/
def regBlockEff (hd : Hdr) (len : Nat) (p0 p1 : BitVec 32) (s : State) : Eff :=
  hostCmd { opcode := 0x0103, reads := true, lenOk := len == 0 } hd s (regBlockBody hd.session.toNat p0 p1)
/-- REG_READ_BLOCK (R333). -/
def execRegReadBlock (hd : Hdr) (len : Nat) (p0 p1 : BitVec 32) (s : State) : Res :=
  unlessCut (.regReadBlock hd len p0 p1) s (done s (regBlockEff hd len p0 p1 s))

end Sys2Proof.Machine
end

