-- ==== Sys2Proof/Machine/Claim.lean ====
section
/-!
DEFINITION. The claim of AUTH, after which the new holder executes the packets that waited in the hubs' receive buffers (R347).
-/
namespace Sys2Proof.Machine

/-- A YCP packet's command. -/
def runPacket (s : State) (c : Instr) : Res :=
  match c with
  | .hello hd version payload => execHello hd version payload s
  | .sessionOpen hd p0 payload => execSessionOpen hd p0 payload s
  | .sessionClose hd len => execSessionClose hd len s
  | .echo hd p payload => execEcho hd p payload s
  | .rekey hd payload => execRekey hd payload s
  | .regRead hd len p0 => execRegRead hd len p0 s
  | .regWrite hd len p0 p1 => execRegWrite hd len p0 p1 s
  | .regRmw hd len p0 p1 p2 => execRegRmw hd len p0 p1 p2 s
  | .regReadBlock hd len p0 p1 => execRegReadBlock hd len p0 p1 s
  | .bringupStep hd len p0 p1 => execBringupStep hd len p0 p1 s
  | .bringupStatus hd len => execBringupStatus hd len s
  | .resetDomainCore hd len p1 => execResetDomainCore hd len p1 s
  | .resetDomainCluster hd len p1 => execResetDomainCluster hd len p1 s
  | .resetDomainPartition hd len p1 => execResetDomainPartition hd len p1 s
  | .resetDomainPackage hd len p1 => execResetDomainPackage hd len p1 s
  | .trainingSave hd len p0 flashOk => execTrainingSave hd len p0 flashOk s
  | .ctxCreate hd len p0 p1 p2 p3 => execCtxCreate hd len p0 p1 p2 p3 s
  | .imageLoad hd p0 p1 p2 payload => execImageLoad hd p0 p1 p2 payload s
  | .ctxStart hd len sn => execCtxStart hd len sn s
  | .ctxStop hd len => execCtxStop hd len s
  | .ctxAbort hd len p0 => execCtxAbort hd len p0 s
  | .ctxQuery hd len p0 => execCtxQuery hd len p0 s
  | .placementQuery hd len p0 p1 p2 => execPlacementQuery hd len p0 p1 p2 s
  | .pinRecord hd len p1 => execPinRecord hd len p1 s
  | .pinBind hd len p1 => execPinBind hd len p1 s
  | .pinClear hd len p1 => execPinClear hd len p1 s
  | .memWrite hd p0 p1 p2 payload sn => execMemWrite hd p0 p1 p2 payload sn s
  | .memRead hd len p0 p1 p2 p3 sn => execMemRead hd len p0 p1 p2 p3 sn s
  | .memFill hd len p0 p1 p2 p3 p4 p5 sn => execMemFill hd len p0 p1 p2 p3 p4 p5 sn s
  | .qpOpen hd p1 p2 p3 payload => execQpOpen hd p1 p2 p3 payload s
  | .mrBind hd len p1 p2 p3 p4 => execMrBind hd len p1 p2 p3 p4 s
  | .ringBind hd len p1 p2 p3 p4 => execRingBind hd len p1 p2 p3 p4 s
  | .qpClose hd len p1 => execQpClose hd len p1 s
  | .mrUnbind hd len p1 => execMrUnbind hd len p1 s
  | .groupSet hd p0 payload => execGroupSet hd p0 payload s
  | .groupClear hd len p0 => execGroupClear hd len p0 s
  | .fabricQuiesceStart hd len => execFabricQuiesceStart hd len s
  | .fabricQuiesceResume hd len => execFabricQuiesceResume hd len s
  | .routeWrite hd p0 payload => execRouteWrite hd p0 payload s
  | .congestionRead hd len p0 => execCongestionRead hd len p0 s
  | .linkStateRead hd len p0 => execLinkStateRead hd len p0 s
  | .linkStateEnable hd len p0 => execLinkStateEnable hd len p0 s
  | .linkStateDisable hd len p0 => execLinkStateDisable hd len p0 s
  | .linkStateRetrain hd len p0 => execLinkStateRetrain hd len p0 s
  | .linkStateSetDead hd len p0 => execLinkStateSetDead hd len p0 s
  | .powerCapSet hd len p0 => execPowerCapSet hd len p0 s
  | .paceSet hd len p0 p1 => execPaceSet hd len p0 p1 s
  | .paceModeFree hd len p1 => execPaceModeFree hd len p1 s
  | .paceModeFixed hd len p1 => execPaceModeFixed hd len p1 s
  | .paceAgreementStart hd len p1 => execPaceAgreementStart hd len p1 s
  | .paceAgreementStop hd len p1 => execPaceAgreementStop hd len p1 s
  | .foehnSet hd len p0 p1 => execFoehnSet hd len p0 p1 s
  | .thermalQuery hd len => execThermalQuery hd len s
  | .mainPowerOff hd len => execMainPowerOff hd len s
  | .mainPowerRelease hd len => execMainPowerRelease hd len s
  | .setWindow hd len p1 => execSetWindow hd len p1 s
  | .applyCounterConfig hd payload => execApplyCounterConfig hd payload s
  | .clearBanks hd len => execClearBanks hd len s
  | .counterSnapshot hd len p0 p1 p2 p3 => execCounterSnapshot hd len p0 p1 p2 p3 s
  | .sampleConfig hd len p0 p1 p2 => execSampleConfig hd len p0 p1 p2 s
  | .logRead hd len p0 p1 p2 p3 => execLogRead hd len p0 p1 p2 p3 s
  | .attestReport hd nonce => execAttestReport hd nonce s
  | .lifecycleSet hd p0 payload => execLifecycleSet hd p0 payload s
  | .fwDeltaBegin hd len p0 p1 => execFwDeltaBegin hd len p0 p1 s
  | .fwDeltaData hd p0 p1 payload flashOk => execFwDeltaData hd p0 p1 payload flashOk s
  | .setRelayChain hd len p1 p2 => execSetRelayChain hd len p1 p2 s
  | .startForwarding hd len => execStartForwarding hd len s
  | .stopForwarding hd len => execStopForwarding hd len s
  | .fwActivate hd len p0 => execFwActivate hd len p0 s
  | .fwStatus hd len => execFwStatus hd len s
  | .cpxStatus hd len => execCpxStatus hd len s
  | .cpxHandover hd len => execCpxHandover hd len s
  | .cpxPrefer hd len p0 => execCpxPrefer hd len p0 s
  | .ycpDrop peer bytes => execYcpDrop peer bytes s
  | _ => .next s

/-- The waiting packets in arrival order; one that has waited for more than 2 ms is lost (R347). -/
def runWaiting (s : State) (l : List (Instr × Nat)) : State :=
  l.foldl (fun s q =>
    if s.hw.tb ≤ q.2 + 2000000 then
      match runPacket s q.1 with
      | .next t => t
      | _ => s
    else s) s

/-- AUTH_CLAIM (R339, R347). -/
def execAuthClaim (hub : Fin 2) (both readable : Bool) (s : State) : Res :=
  let t := s.commit (claimEff hub both readable s)
  if s.hw.held = false ∧ t.hw.held = true then .next (runWaiting t s.hw.cpx.rx) else .next t

end Sys2Proof.Machine
end

