-- ==== Sys2Proof/Machine/OnChip.lean ====
section
/-!
DEFINITION. What tests the memories while the package runs: the background test of a cluster (R107–R111), the patrol scrub
(R123) and the error check of the HBM stacks (R119).
-/
namespace Sys2Proof.Machine

/-! ## The background test (R107–R111) -/

/-- The number of test regions of a cluster. -/
def testRegions : Nat := 17472

/-- Whether every bank of a core is OFF. -/
def Hw.coreDark (h : Hw) (k : Nat) : Bool := (List.range 32).all (fun b => h.spadBank k b == 2)

/-- How region `r` of cluster `c` is tested: none where its bank is not ON; without saving on a core whose banks are all OFF
(R111). -/
def Hw.testKind (h : Hw) (c r : Nat) : Option Bool :=
  if r < 9216 then
    let k := 9 * c + r / 1024
    if h.spadBank k (r % 1024 / 32) = 0 then some false else if h.coreDark k then some true else none
  else if r < 17408 then (if h.cmemBank c ((r - 9216) / 256) = 0 then some false else none)
  else some false

/-- The first region at or after `r` that is tested, in ascending order with wrapping, and whether the walk wrapped. -/
def Hw.nextRegion (h : Hw) (c r : Nat) : Option (Nat × Bool × Bool) :=
  ((List.range testRegions).map (fun i => r + i)).findSome? (fun q =>
    (h.testKind c (q % testRegions)).map (fun plain => (q % testRegions, plain, decide (testRegions ≤ q))))

/-- The first byte of a region in the machine's memory. -/
def regionAddr (c r : Nat) : Nat :=
  if r < 9216 then spadBase (9 * c + r / 1024) + r % 1024 * 4096
  else if r < 17408 then cmemBase c + (r - 9216) * 4096
  else traceBase c + (r - 17408) * 4096

/-- The time between two starts, in ns (R107). -/
def Hw.testPeriod (h : Hw) (c : Nat) : Nat := h.fld (Fd.CD_MEMTEST_CTRL.PERIOD_MIN (c / 8)) * 60000000000 / testRegions

/-- The sweeps that all eight clusters of a die have completed. -/
def Hw.dieSweeps (h : Hw) (d : Nat) : Nat :=
  ((List.range 8).map (fun j => (h.clusOf (8 * d + j)).bgt.sweeps)).foldl min 65535

/-- Whether the controller of a cluster starts its next region: not before the period has passed, while a region is locked, while
the test is stopped, or while its next region is in a domain in reset (R376). -/
def testDue (c : Fin 64) (h : Hw) : Bool :=
  let b := (h.clusOf c.val).bgt
  h.flag (Fd.CD_MEMTEST_CTRL.EN (c.val / 8)) && h.plu.diesUp.contains (c.val / 8) && !b.locked &&
    (!b.started || decide (b.lockTb + h.testPeriod c.val ≤ h.tb))

/-- Lock the next region and copy it. -/
def testStartHw (c : Fin 64) (sn : Seen) (m : Mem) (h : Hw) : Hw :=
  let b := (h.clusOf c.val).bgt
  if testDue c h then
    match h.nextRegion c.val b.next with
    | none => h
    | some (r, plain, wrapped) =>
      let h := h.seen sn
      let h := h.modClus c.val (fun x => { x with bgt :=
        { x.bgt with
          locked := true, region := r, next := (r + 1) % testRegions, started := true, promoted := false, plain := plain,
          sweeps := x.bgt.sweeps + (wrapped || r + 1 == testRegions).toNat, lockTb := h.tb,
          save := if plain then [] else m.reads (regionAddr c.val r) 4096 } })
      let h := (h.setFlag (Fd.CL_BGT_STATUS.ACTIVE c.val) true).setFld (Fd.CL_BGT_STATUS.REGION c.val) r
      (h.setFlag (Fd.CL_BGT_STATUS.PROMOTED c.val) false).setFld (Fd.CD_MEMTEST_STATUS.SWEEPS (c.val / 8)) (h.dieSweeps (c.val / 8))
  else h
/-- The effect of REGION_TEST_START. -/
def testStartEff (c : Fin 64) (sn : Seen) (s : State) : Eff :=
  { hw := testStartHw c sn s.mem s.hw, edits := if testDue c s.hw then seenEdits sn else [] }
/-- REGION_TEST_START (R107). -/
def execRegionTestStart (c : Fin 64) (sn : Seen) (s : State) : Res := done s (testStartEff c sn s)

/-- A region still locked 10 µs after its lock takes the transfer-class slot. -/
def testPromoteHw (c : Fin 64) (h : Hw) : Hw :=
  let b := (h.clusOf c.val).bgt
  if b.locked = true ∧ b.promoted = false ∧ b.lockTb + 10000 ≤ h.tb then
    (h.modClus c.val (fun x => { x with bgt := { x.bgt with promoted := true } })).setFlag (Fd.CL_BGT_STATUS.PROMOTED c.val) true
  else h
/-- REGION_TEST_PROMOTE (R108). -/
def execRegionTestPromote (c : Fin 64) (s : State) : Res := keep s (testPromoteHw c s.hw)

/-- A march failure (R110): the event against the core or cluster, FAIL_CNT and the log. -/
def Hw.testFailed (h : Hw) (c r : Nat) : Hw :=
  let u := if r < 9216 then punitCore (9 * c + r / 1024) else punitClus c
  let off := if r < 9216 then r % 1024 * 4096 else if r < 17408 then (r - 9216) * 4096 else 0
  let h := h.unitEvent u 4 0 (((h.holder c).map (fun q => q.2.host.job)).getD 0) off
  (h.satFld (Fd.CD_MEMTEST_STATUS.FAIL_CNT (c / 8)) 1).logNote logState 0x0110 c r

/-- The states that banks take once the region is unlocked (R111): a bank on its way to ON has lost its contents where the test
had powered it; a bank of a context that stands at no barrier is ON at once (R199). -/
def Hw.applyPend (h : Hw) (pend : Tab Nat) : Hw × List Edit :=
  pend.foldl (fun (acc : Hw × List Edit) (a, code) =>
    let (h, es) := acc.1.bankTo a code
    let waking := ((h.holder (bankOwner a)).map (fun q => q.2.run.bar == .waking)).getD true
    (if code = 0 ∧ waking = false then h.setBank a 0 else h, acc.2 ++ es)) (h, [])

/-- The region is restored and unlocked; `fails` says that the march found a failing cell. -/
def testUnlockEff (c : Fin 64) (fails : Bool) (s : State) : Eff :=
  let h := s.hw
  let b := (h.clusOf c.val).bgt
  if b.locked then
    let h := h.modClus c.val (fun x => { x with bgt := { x.bgt with locked := false, promoted := false, save := [], pend := [] } })
    let h := (h.setFlag (Fd.CL_BGT_STATUS.ACTIVE c.val) false).setFlag (Fd.CL_BGT_STATUS.PROMOTED c.val) false
    let h := h.countClus c.val { code := 0x28 } 1
    let h := if fails then h.testFailed c.val b.region else h
    let (h, es) := h.applyPend b.pend
    { hw := h.domsAdvance, edits := es }
  else { hw := h }
/-- REGION_TEST_UNLOCK (R108–R111). -/
def execRegionTestUnlock (c : Fin 64) (fails : Bool) (s : State) : Res := done s (testUnlockEff c fails s)

/-! ## HBM in service (R119, R123) -/

/-- Sectors of a stack. -/
def stackSectors : Nat := 40960 * 65536

/-- What the scrub finds in a sector. -/
def Hw.scrubFinds (h : Hw) (pma : Nat) (found : Option Bool) : Hw :=
  match found with
  | none => h
  | some true => h.corrected (hbmAddr pma)
  | some false => h.hbmUe pma 0 0

/-- The scrub reads the next sector of a stack: `found` is nothing, a correctable or an uncorrectable error. -/
def scrubEff (st : Fin 16) (found : Option Bool) (s : State) : Eff :=
  let h := s.hw
  let n := st.val
  if h.flag (Fd.HBM_SCRUB_CTRL.EN n) = true ∧ h.flag (Fd.HBM_STATUS.IN_SERVICE n) = true ∧ h.flag (Fd.HBM_STATUS.HOLD n) = false then
    let pos := (h.hbmOf n).scrubPos
    let pma := n * 2 ^ 37 + 32 * pos
    let bad := found == some false || (s.mem.ueIn (hbmAddr pma) 32).isSome
    let h := h.scrubFinds pma (if bad then some false else found)
    let h : Hw := { h with hbm := h.hbm.upd n {} (fun x => { x with scrubPos := (pos + 1) % stackSectors }) }
    { hw := if pos + 1 = stackSectors then h.satFld (Fd.HBM_SCRUB_CTRL.PASSES n) 1 else h,
      edits := if bad then [.poison (hbmAddr pma)] else [] }
  else { hw := h }
/-- PATROL_SCRUB (R123). -/
def execPatrolScrub (st : Fin 16) (found : Option Bool) (s : State) : Res := done s (scrubEff st found s)

/-- Every 60 s the controller reads the stack's ECS error count. -/
def ecsHw (st : Fin 16) (n : BitVec 32) (h : Hw) : Hw :=
  if h.flag (Fd.HBM_STATUS.IN_SERVICE st.val) = true ∧ (h.hbmOf st.val).ecsTb + 60000000000 ≤ h.tb then
    ({ h with hbm := h.hbm.upd st.val {} (fun x => { x with ecsTb := h.tb }) } : Hw).satFld (Fd.HBM_ECS.ECS_CNT st.val) n.toNat
  else h
/-- ECS_READ (R119). -/
def execEcsRead (st : Fin 16) (n : BitVec 32) (s : State) : Res := keep s (ecsHw st n s.hw)

end Sys2Proof.Machine
end

