-- ==== Sys2Proof/Machine/Txe.lean ====
section
/-!
DEFINITION. The transfer engine (03_engines.md, *Transfer engine*; R146, R195, R230–R233, R489, R493) and the row of a
translation walk (R135).
-/
namespace Sys2Proof.Machine

/-! ## Payload bytes (R146) -/

/-- TPOSTs to a channel that the stream has issued before the instruction at place `n` of those in progress. -/
def Ctx.tpostsBefore (x : Ctx) (key n : Nat) (d : ChanDecl) : Nat :=
  let later := ((x.run.strm key).inflight.drop (n + 1)).filter (fun f =>
    let w := (x.img.words key).getD f.idx 0
    opcOf w == 0x42 && x.img.tpostChan w == some d)
  (x.chan d).posted - later.length

/-- Count the bytes that a transfer wrote into payload regions toward the TPOSTs that follow it. -/
def Hw.countPayload (h : Hw) (w : Work) (ps : List Place) : Hw :=
  w.x.img.chans.foldl (fun h d =>
    let n := ((ps.filter (fun p => p.mem == 1 && p.lc == d.lc && p.lk == d.lk &&
      (p.reg.map (·.loc)) == some d.payLocal)).map (·.len)).foldl (· + ·) 0
    if d.plc = w.w.lc ∧ d.plk = w.w.lk ∧ d.payLocal ≠ 255 ∧ 0 < n then
      let k := w.x.tpostsBefore (strmKey w.w.lc w.w.lk 3) w.w.n d
      h.modRun w.w.c (fun r =>
        let ch := Tab.getD r.chans (chanKey d.lc d.lk d.ch) d.fresh
        r.putChan d { ch with pay := ch.pay ++ [(k, n)] })
    else h) h

/-! ## Transfers -/

/-- What a transfer copied before it ended: the rows it wrote with their bytes, and the condition that stopped it. -/
structure Moved where
  hw : Hw
  rows : List (Place × List Byte) := []
  stop : Option Cond := none

/-- The rows of an operand of the TXE. -/
def Work.txRows (w : Work) (lo n len : Nat) : Desc × Int × List (Int × Nat) :=
  let d := w.x.img.opnd w.w.lc w.w.lk w.word lo
  let v := d.value w.fl.iters
  (d, v, rowAddrs v n d.stride len)

/-- Read the source rows of a plain MOVE, and check its destination rows. -/
def Hw.copyRows (h : Hw) (m : Mem) (w : Work) (sd dd : Desc) (srcs dsts : List (Int × Nat)) : Moved :=
  match h.srcRows m w.x w.w (sd.unit w.w.lc w.w.lk) srcs with
  | (h, .error e) => { hw := h, stop := some e }
  | (h, .ok ss) =>
    match h.dstRows m w.x w.w (dd.unit w.w.lc w.w.lk) dsts with
    | (h, .error e) => { hw := h, stop := some e }
    | (h, .ok ds) => { hw := h, rows := ds.zip (ss.map m.row) }

/-- The rows of a slotted MOVE up to the first slot whose index is out of range (R84, R87, R195). -/
def Hw.copySlots (h : Hw) (m : Mem) (w : Work) (t : SlotDecl) (sd dd : Desc) (v : Int) (len : Nat)
    (dsts : List (Int × Nat)) : Moved :=
  match h.readSlots m w t with
  | (h, .error e) => { hw := h, stop := some e }
  | (h, .ok idx) =>
    let n := (badSlot t idx).getD idx.length
    match Hw.slotRows m w ⟨sd, v⟩ len h (idx.take n) with
    | (h, .error e) => { hw := h, stop := some e }
    | (h, .ok rows) =>
      match h.dstRows m w.x w.w (dd.unit w.w.lc w.w.lk) (dsts.take n) with
      | (h, .error e) => { hw := h, stop := some e }
      | (h, .ok ds) =>
        { hw := h, rows := ds.zip rows,
          stop := (badSlot t idx).map (fun k => ⟨dSlotRange, slotArgs t k (idx.getD k 0)⟩) }

/-- MOVE (R87, R195, R493). -/
def moveWork (w : Work) (m : Mem) (h : Hw) : Moved :=
  let n := moveRows w.word
  let len := moveBytes w.word
  let (dd, dv, dsts) := w.txRows 80 n len
  let (sd, sv, srcs) := w.txRows 68 n len
  if sv % 4 ≠ 0 then { hw := h, stop := some (alignCond sd w.w.lc w.w.lk sv) }
  else if dv % 4 ≠ 0 then { hw := h, stop := some (alignCond dd w.w.lc w.w.lk dv) }
  else
    match w.x.img.slot? (bitsAt w.word 56 12) with
    | some t => h.copySlots m w t sd dd sv len dsts
    | none => h.copyRows m w sd dd srcs dsts

/-- FILL (R88, R493): a 32-bit pattern, repeated. -/
def fillWork (w : Work) (m : Mem) (h : Hw) : Moved :=
  let len := fillBytes w.word
  let (dd, dv, dsts) := w.txRows 80 (fillRows w.word) len
  if dv % 4 ≠ 0 then { hw := h, stop := some (alignCond dd w.w.lc w.w.lk dv) }
  else
    match h.dstRows m w.x w.w (dd.unit w.w.lc w.w.lk) dsts with
    | (h, .error e) => { hw := h, stop := some e }
    | (h, .ok ds) =>
      let row := (List.range (len / 4)).flatMap (fun _ => leBytes 4 (bitsAt w.word 48 32))
      { hw := h, rows := ds.map (fun p => (p, row)) }

/-- Bytes of the page that an entry describes (R230, R231); none where the entry names none. -/
def pageLen (e : Nat) : Option Nat :=
  let fmt := bitsAt e 60 3
  let dcode := bitsAt e 52 3
  if bitAt e 63 ∧ fmt < 5 ∧ dcode < 4 then
    let d := 64 * (dcode + 1)
    let b := if fmt < 2 then 8 else if fmt < 4 then 6 else 4
    let mx := decide (2 ≤ fmt)
    let krow := 32 * ((d * b + 255) / 256)
    let ks := if mx then 4 * ((d + 127) / 128) else 0
    let hb := 256 * (krow + ks) + d * (32 * b + if mx then 8 else 0)
    some ((bitsAt e 55 5 + 1) * hb)
  else none

/-- Whether an entry passes the checks of R232 against the instruction's first entry. -/
def entryOk (e first off len : Nat) : Bool :=
  match pageLen e with
  | none => false
  | some n => decide (n ≤ 2097152) && bitsAt e 52 11 == bitsAt first 52 11 && decide (off + len ≤ n)

/-- Copy the pages of `n` entries from the `k`-th on, in ascending order (R89, R232, R233). -/
def Hw.copyPages (m : Mem) (w : Work) (md dd : Desc) (mv dv : Int) :
    Nat → Nat → Option Nat → Hw → List (Place × List Byte) → Moved
  | 0, _, _, h, acc => { hw := h, rows := acc }
  | n + 1, k, first, h, acc =>
    match h.srcRow m w.x w.w (md.unit w.w.lc w.w.lk) (mv + (8 * k : Nat), 8) with
    | (h, .error e) => { hw := h, rows := acc, stop := some e }
    | (h, .ok p) =>
      let e := leNat (m.row p)
      let off := pgOff w.word
      let len := pgBytes w.word
      if entryOk e (first.getD e) off len = false then
        { hw := h, rows := acc, stop := some ⟨dPageInvalid, leBytes 4 k ++ leBytes 4 0 ++ leBytes 8 e⟩ }
      else
        match h.srcRow m w.x w.w (3, bitsAt e 44 8, 0) ((32 * bitsAt e 0 36 + off : Nat), len) with
        | (h, .error c) => { hw := h, rows := acc, stop := some c }
        | (h, .ok s) =>
          match h.dstRow m w.x w.w (dd.unit w.w.lc w.w.lk) (dv + (k * dd.stride : Nat), len) with
          | (h, .error c) => { hw := h, rows := acc, stop := some c }
          | (h, .ok d) => Hw.copyPages m w md dd mv dv n (k + 1) (some (first.getD e)) h (acc ++ [(d, m.row s)])

/-- MOVEPG (R89, R231–R233, R493). -/
def movepgWork (w : Work) (m : Mem) (h : Hw) : Moved :=
  let md := w.x.img.opnd w.w.lc w.w.lk w.word 68
  let dd := w.x.img.opnd w.w.lc w.w.lk w.word 80
  let mv := md.value w.fl.iters
  let dv := dd.value w.fl.iters
  if mv % 8 ≠ 0 then { hw := h, stop := some (alignCond md w.w.lc w.w.lk mv) }
  else Hw.copyPages m w md dd mv dv (pgCount w.word) 0 none h []

/-- The effect of a transfer: what it copied, or its condition. How much of what came before the condition was written is a
value the spec leaves open (assumption 7). -/
def transferEff (r : StreamRef) (opc : Nat) (sn : Seen) (s : State) (f : Work → Mem → Hw → Moved) : Eff :=
  match s.hw.work r opc with
  | none => { hw := s.hw }
  | some w =>
    let m := s.mem.seen sn
    let v := f w m (s.hw.seen sn)
    let es := storeRows m v.rows
    match v.stop with
    | some e =>
      let (free, h) := v.hw.takeFree
      { hw := h.workFault w e, edits := seenEdits sn ++ es.take (free % (es.length + 1)) }
    | none =>
      let n := (v.rows.map (fun q => q.1.len)).foldl (· + ·) 0
      let h := v.hw.countCore w.k { code := 0x09 } ((n + 31) / 32)
      { hw := (h.countPayload w (v.rows.map Prod.fst)).markDone w.w id, edits := seenEdits sn ++ es }

/-- The effect of MOVE. -/
def moveEff (r : StreamRef) (sn : Seen) (s : State) : Eff := transferEff r 0x40 sn s moveWork
/-- MOVE (R87). -/
def execMove (r : StreamRef) (sn : Seen) (s : State) : Res := done s (moveEff r sn s)
/-- The effect of FILL. -/
def fillEff (r : StreamRef) (sn : Seen) (s : State) : Eff := transferEff r 0x44 sn s fillWork
/-- FILL (R88). -/
def execFill (r : StreamRef) (sn : Seen) (s : State) : Res := done s (fillEff r sn s)
/-- The effect of MOVEPG. -/
def movepgEff (r : StreamRef) (sn : Seen) (s : State) : Eff := transferEff r 0x41 sn s movepgWork
/-- MOVEPG (R89). -/
def execMovepg (r : StreamRef) (sn : Seen) (s : State) : Res := done s (movepgEff r sn s)

/-! ## TPOST (R90, R145, R489) -/

/-- TPOST sends its token once every write of the stream's earlier instructions is visible; a target in reset faults. -/
def tpostHw (r : StreamRef) (h : Hw) : Hw :=
  match h.work r 0x42 with
  | none => h
  | some w =>
    let st := w.x.run.strm (strmKey w.w.lc w.w.lk w.w.s)
    if (st.inflight.take w.w.n).all h.collDone then
      let lc := bitsAt w.word 86 6
      let lk := bitsAt w.word 83 3
      match w.x.core? lc lk with
      | some k => if h.coreInReset k then h.workFault w ⟨dTargetReset, [0] ++ leBytes 1 lc ++ leBytes 1 lk⟩
          else h.markDone w.w id
      | none => h.workFault w ⟨dTargetReset, [0] ++ leBytes 1 lc ++ leBytes 1 lk⟩
    else h
/-- TPOST (R90). -/
def execTpost (r : StreamRef) (s : State) : Res := keep s (tpostHw r s.hw)

/-! ## TRANSLATION_WALK (R130–R135) -/

/-- The unit that a failed walk names: the pseudo-channel of the PMA in its arguments, where it has one (R380). -/
def walkUnit (e : Cond) : Nat := if e.detail = dMapUe then punitHbm (leNat ((e.args.drop 8).take 8)) else 0

/-- A miss completes its walk: the entry is installed; a walk that fails faults the context (R135, R163). `walker` is a
cluster's cache (0–63) or a hub's (64, 65). -/
def walkEff (ctx : Fin 64) (region : Fin 256) (lpn : BitVec 24) (walker : Fin 66) (sn : Seen) (s : State) : Eff :=
  let h := s.hw.seen sn
  match h.ctx? ctx.val with
  | none => { hw := s.hw }
  | some x =>
    let served := match x.host.place with
      | some p => if walker.val < 64 then p.clusters.any (fun (q : Nat × Nat) => q.2 == walker.val) else true
      | none => false
    if served = false ∨ ((h.cache walker.val).look walker.val ctx.val region.val lpn.toNat).isSome = true then { hw := s.hw }
    else
      match h.walk (s.mem.seen sn) x.host.job ctx.val region.val lpn.toNat walker.val with
      | (h, .error e) => { hw := h.raise ctx.val e (walkUnit e) lunitNone 0, edits := seenEdits sn }
      | (h, .ok (pfn, wr)) =>
        let k := (h.cache walker.val).fill walker.val ctx.val region.val lpn.toNat pfn wr
        { hw := { h with xcl := h.xcl.put walker.val k }, edits := seenEdits sn }
/-- TRANSLATION_WALK (R135). -/
def execTranslationWalk (ctx : Fin 64) (region : Fin 256) (lpn : BitVec 24) (walker : Fin 66) (sn : Seen) (s : State) : Res :=
  done s (walkEff ctx region lpn walker sn s)

end Sys2Proof.Machine
end

