-- ==== Sys2Proof/Machine/Dispatch.lean ====
section
/-!
DEFINITION. What each command does: one arm per constructor, each a direct call of its meaning.
-/
namespace Sys2Proof.Machine

def exec (i : Instr) (s : State) : Host.Outcome State Fault Refusal :=
  match i with
  | .nop r => Sys2Proof.Machine.execNop r s
  | .loop r => Sys2Proof.Machine.execLoop r s
  | .endloop r => Sys2Proof.Machine.execEndloop r s
  | .bar r sn => Sys2Proof.Machine.execBar r sn s
  | .migrationPageDone ctx sn => Sys2Proof.Machine.execMigrationPageDone ctx sn s
  | .barrierRelease ctx => Sys2Proof.Machine.execBarrierRelease ctx s
  | .halt r => Sys2Proof.Machine.execHalt r s
  | .ctrrd r sn => Sys2Proof.Machine.execCtrrd r sn s
  | .setfmt r => Sys2Proof.Machine.execSetfmt r s
  | .loadb r => Sys2Proof.Machine.execLoadb r s
  | .loadbStagingDone r => Sys2Proof.Machine.execLoadbStagingDone r s
  | .mma r sn => Sys2Proof.Machine.execMma r sn s
  | .mmaz r sn => Sys2Proof.Machine.execMmaz r sn s
  | .drain r sn ab => Sys2Proof.Machine.execDrain r sn ab s
  | .chkrd r sn => Sys2Proof.Machine.execChkrd r sn s
  | .vadd r sn => Sys2Proof.Machine.execVadd r sn s
  | .vsub r sn => Sys2Proof.Machine.execVsub r sn s
  | .vmul r sn => Sys2Proof.Machine.execVmul r sn s
  | .vfma r sn => Sys2Proof.Machine.execVfma r sn s
  | .vmax r sn => Sys2Proof.Machine.execVmax r sn s
  | .vmin r sn => Sys2Proof.Machine.execVmin r sn s
  | .vabs r sn => Sys2Proof.Machine.execVabs r sn s
  | .vneg r sn => Sys2Proof.Machine.execVneg r sn s
  | .vmov r sn => Sys2Proof.Machine.execVmov r sn s
  | .vscl r sn => Sys2Proof.Machine.execVscl r sn s
  | .vcmp r sn => Sys2Proof.Machine.execVcmp r sn s
  | .vsel r sn => Sys2Proof.Machine.execVsel r sn s
  | .vred r sn => Sys2Proof.Machine.execVred r sn s
  | .vexp r sn => Sys2Proof.Machine.execVexp r sn s
  | .vrcp r sn => Sys2Proof.Machine.execVrcp r sn s
  | .vrsq r sn => Sys2Proof.Machine.execVrsq r sn s
  | .vcvt r sn => Sys2Proof.Machine.execVcvt r sn s
  | .vsmx r sn => Sys2Proof.Machine.execVsmx r sn s
  | .vrope r sn => Sys2Proof.Machine.execVrope r sn s
  | .vgather r sn => Sys2Proof.Machine.execVgather r sn s
  | .move r sn => Sys2Proof.Machine.execMove r sn s
  | .fill r sn => Sys2Proof.Machine.execFill r sn s
  | .movepg r sn => Sys2Proof.Machine.execMovepg r sn s
  | .tpost r => Sys2Proof.Machine.execTpost r s
  | .tokenArrival r => Sys2Proof.Machine.execTokenArrival r s
  | .coll r sn => Sys2Proof.Machine.execColl r sn s
  | .instructionStart r => Sys2Proof.Machine.execInstructionStart r s
  | .instructionRetire r => Sys2Proof.Machine.execInstructionRetire r s
  | .streamWatchdogExpiry r => Sys2Proof.Machine.execStreamWatchdogExpiry r s
  | .translationWalk ctx region lpn walker sn => Sys2Proof.Machine.execTranslationWalk ctx region lpn walker sn s
  | .contextFault ctx fw => Sys2Proof.Machine.execContextFault ctx fw s
  | .squallPass => Sys2Proof.Machine.execSquallPass s
  | .squallReceive => Sys2Proof.Machine.execSquallReceive s
  | .domainDrainDone w => Sys2Proof.Machine.execDomainDrainDone w s
  | .drainTimeout w n => Sys2Proof.Machine.execDrainTimeout w n s
  | .unitCheck punit pass => Sys2Proof.Machine.execUnitCheck punit pass s
  | .regionTestStart c sn => Sys2Proof.Machine.execRegionTestStart c sn s
  | .regionTestPromote c => Sys2Proof.Machine.execRegionTestPromote c s
  | .regionTestUnlock c fails => Sys2Proof.Machine.execRegionTestUnlock c fails s
  | .hbmTempPoll st t => Sys2Proof.Machine.execHbmTempPoll st t s
  | .patrolScrub st found => Sys2Proof.Machine.execPatrolScrub st found s
  | .ecsRead st n => Sys2Proof.Machine.execEcsRead st n s
  | .tamperEvent hub cause => Sys2Proof.Machine.execTamperEvent hub cause s
  | .wipeRequest hub => Sys2Proof.Machine.execWipeRequest hub s
  | .losAssert n l pwr => Sys2Proof.Machine.execLosAssert n l pwr s
  | .losClear n l pwr => Sys2Proof.Machine.execLosClear n l pwr s
  | .lolAssert n l => Sys2Proof.Machine.execLolAssert n l s
  | .lolClear n l => Sys2Proof.Machine.execLolClear n l s
  | .codewordReceive n lane wrong ctl blocks badHeads => Sys2Proof.Machine.execCodewordReceive n lane wrong ctl blocks badHeads s
  | .identReceive n => Sys2Proof.Machine.execIdentReceive n s
  | .identSend n => Sys2Proof.Machine.execIdentSend n s
  | .trainingStepDone n res => Sys2Proof.Machine.execTrainingStepDone n res s
  | .trainingTimeout n => Sys2Proof.Machine.execTrainingTimeout n s
  | .fecWindow n => Sys2Proof.Machine.execFecWindow n s
  | .eyeScanStart n l v => Sys2Proof.Machine.execEyeScanStart n l v s
  | .eyeScanDone n l errors => Sys2Proof.Machine.execEyeScanDone n l errors s
  | .retrain n => Sys2Proof.Machine.execRetrain n s
  | .linkEnable n en => Sys2Proof.Machine.execLinkEnable n en s
  | .packetReceive n => Sys2Proof.Machine.execPacketReceive n s
  | .packetTransmit n => Sys2Proof.Machine.execPacketTransmit n s
  | .replayTimeout n => Sys2Proof.Machine.execReplayTimeout n s
  | .nakRepeat n => Sys2Proof.Machine.execNakRepeat n s
  | .xtagTimeout t => Sys2Proof.Machine.execXtagTimeout t s
  | .timeSend hub => Sys2Proof.Machine.execTimeSend hub s
  | .timeReceive => Sys2Proof.Machine.execTimeReceive s
  | .congestionWindow => Sys2Proof.Machine.execCongestionWindow s
  | .fabricDrained => Sys2Proof.Machine.execFabricDrained s
  | .collAdmit v sn => Sys2Proof.Machine.execCollAdmit v sn s
  | .announceReceive => Sys2Proof.Machine.execAnnounceReceive s
  | .refuseReceive => Sys2Proof.Machine.execRefuseReceive s
  | .announceRepeat g seq => Sys2Proof.Machine.execAnnounceRepeat g seq s
  | .earlyTimeout g => Sys2Proof.Machine.execEarlyTimeout g s
  | .collAdmitTimeout g seq => Sys2Proof.Machine.execCollAdmitTimeout g seq s
  | .segmentTransmit v sn => Sys2Proof.Machine.execSegmentTransmit v sn s
  | .reduceSegment v sn => Sys2Proof.Machine.execReduceSegment v sn s
  | .collDataReceive sn => Sys2Proof.Machine.execCollDataReceive sn s
  | .crcSegmentReceive sn => Sys2Proof.Machine.execCrcSegmentReceive sn s
  | .digestReceive sn => Sys2Proof.Machine.execDigestReceive sn s
  | .collCreditReceive => Sys2Proof.Machine.execCollCreditReceive s
  | .gustReceive sn => Sys2Proof.Machine.execGustReceive sn s
  | .hello hd version payload => Sys2Proof.Machine.execHello hd version payload s
  | .sessionOpen hd p0 payload => Sys2Proof.Machine.execSessionOpen hd p0 payload s
  | .sessionClose hd len => Sys2Proof.Machine.execSessionClose hd len s
  | .echo hd p payload => Sys2Proof.Machine.execEcho hd p payload s
  | .rekey hd payload => Sys2Proof.Machine.execRekey hd payload s
  | .regRead hd len p0 => Sys2Proof.Machine.execRegRead hd len p0 s
  | .regWrite hd len p0 p1 => Sys2Proof.Machine.execRegWrite hd len p0 p1 s
  | .regRmw hd len p0 p1 p2 => Sys2Proof.Machine.execRegRmw hd len p0 p1 p2 s
  | .regReadBlock hd len p0 p1 => Sys2Proof.Machine.execRegReadBlock hd len p0 p1 s
  | .registerWrite a v => Sys2Proof.Machine.execRegisterWrite a v s
  | .readCapture session a => Sys2Proof.Machine.execReadCapture session a s
  | .bringupStep hd len p0 p1 => Sys2Proof.Machine.execBringupStep hd len p0 p1 s
  | .bringupGo v => Sys2Proof.Machine.execBringupGo v s
  | .bringupStatus hd len => Sys2Proof.Machine.execBringupStatus hd len s
  | .stageEnd r => Sys2Proof.Machine.execStageEnd r s
  | .stageTimeout full => Sys2Proof.Machine.execStageTimeout full s
  | .resetDomainCore hd len p1 => Sys2Proof.Machine.execResetDomainCore hd len p1 s
  | .resetDomainCluster hd len p1 => Sys2Proof.Machine.execResetDomainCluster hd len p1 s
  | .resetDomainPartition hd len p1 => Sys2Proof.Machine.execResetDomainPartition hd len p1 s
  | .resetDomainPackage hd len p1 => Sys2Proof.Machine.execResetDomainPackage hd len p1 s
  | .resetEnd kind unit bad => Sys2Proof.Machine.execResetEnd kind unit bad s
  | .renewalResumeTimeout => Sys2Proof.Machine.execRenewalResumeTimeout s
  | .trainingSave hd len p0 flashOk => Sys2Proof.Machine.execTrainingSave hd len p0 flashOk s
  | .ctxCreate hd len p0 p1 p2 p3 => Sys2Proof.Machine.execCtxCreate hd len p0 p1 p2 p3 s
  | .imageLoad hd p0 p1 p2 payload => Sys2Proof.Machine.execImageLoad hd p0 p1 p2 payload s
  | .placementBind => Sys2Proof.Machine.execPlacementBind s
  | .ctxStart hd len sn => Sys2Proof.Machine.execCtxStart hd len sn s
  | .ctxStop hd len => Sys2Proof.Machine.execCtxStop hd len s
  | .ctxAbort hd len p0 => Sys2Proof.Machine.execCtxAbort hd len p0 s
  | .ctxQuery hd len p0 => Sys2Proof.Machine.execCtxQuery hd len p0 s
  | .placementQuery hd len p0 p1 p2 => Sys2Proof.Machine.execPlacementQuery hd len p0 p1 p2 s
  | .pinRecord hd len p1 => Sys2Proof.Machine.execPinRecord hd len p1 s
  | .pinBind hd len p1 => Sys2Proof.Machine.execPinBind hd len p1 s
  | .pinClear hd len p1 => Sys2Proof.Machine.execPinClear hd len p1 s
  | .memWrite hd p0 p1 p2 payload sn => Sys2Proof.Machine.execMemWrite hd p0 p1 p2 payload sn s
  | .memRead hd len p0 p1 p2 p3 sn => Sys2Proof.Machine.execMemRead hd len p0 p1 p2 p3 sn s
  | .memFill hd len p0 p1 p2 p3 p4 p5 sn => Sys2Proof.Machine.execMemFill hd len p0 p1 p2 p3 p4 p5 sn s
  | .qpOpen hd p1 p2 p3 payload => Sys2Proof.Machine.execQpOpen hd p1 p2 p3 payload s
  | .mrBind hd len p1 p2 p3 p4 => Sys2Proof.Machine.execMrBind hd len p1 p2 p3 p4 s
  | .ringBind hd len p1 p2 p3 p4 => Sys2Proof.Machine.execRingBind hd len p1 p2 p3 p4 s
  | .qpClose hd len p1 => Sys2Proof.Machine.execQpClose hd len p1 s
  | .mrUnbind hd len p1 => Sys2Proof.Machine.execMrUnbind hd len p1 s
  | .rdmaSend port qpn psn body sn => Sys2Proof.Machine.execRdmaSend port qpn psn body sn s
  | .rdmaWrite port qpn psn rkey off body sn => Sys2Proof.Machine.execRdmaWrite port qpn psn rkey off body sn s
  | .rdmaRead port qpn psn rkey off len sn => Sys2Proof.Machine.execRdmaRead port qpn psn rkey off len sn s
  | .rdmaInvalidRequest port qpn psn => Sys2Proof.Machine.execRdmaInvalidRequest port qpn psn s
  | .ceMarkedPacket port qpn => Sys2Proof.Machine.execCeMarkedPacket port qpn s
  | .groupSet hd p0 payload => Sys2Proof.Machine.execGroupSet hd p0 payload s
  | .groupClear hd len p0 => Sys2Proof.Machine.execGroupClear hd len p0 s
  | .fabricQuiesceStart hd len => Sys2Proof.Machine.execFabricQuiesceStart hd len s
  | .fabricQuiesceResume hd len => Sys2Proof.Machine.execFabricQuiesceResume hd len s
  | .routeWrite hd p0 payload => Sys2Proof.Machine.execRouteWrite hd p0 payload s
  | .routeEntryWrite fid v => Sys2Proof.Machine.execRouteEntryWrite fid v s
  | .congestionRead hd len p0 => Sys2Proof.Machine.execCongestionRead hd len p0 s
  | .linkStateRead hd len p0 => Sys2Proof.Machine.execLinkStateRead hd len p0 s
  | .linkStateEnable hd len p0 => Sys2Proof.Machine.execLinkStateEnable hd len p0 s
  | .linkStateDisable hd len p0 => Sys2Proof.Machine.execLinkStateDisable hd len p0 s
  | .linkStateRetrain hd len p0 => Sys2Proof.Machine.execLinkStateRetrain hd len p0 s
  | .linkStateSetDead hd len p0 => Sys2Proof.Machine.execLinkStateSetDead hd len p0 s
  | .powerCapSet hd len p0 => Sys2Proof.Machine.execPowerCapSet hd len p0 s
  | .paceSet hd len p0 p1 => Sys2Proof.Machine.execPaceSet hd len p0 p1 s
  | .paceModeFree hd len p1 => Sys2Proof.Machine.execPaceModeFree hd len p1 s
  | .paceModeFixed hd len p1 => Sys2Proof.Machine.execPaceModeFixed hd len p1 s
  | .paceAgreementStart hd len p1 => Sys2Proof.Machine.execPaceAgreementStart hd len p1 s
  | .paceAgreementStop hd len p1 => Sys2Proof.Machine.execPaceAgreementStop hd len p1 s
  | .foehnSet hd len p0 p1 => Sys2Proof.Machine.execFoehnSet hd len p0 p1 s
  | .thermalQuery hd len => Sys2Proof.Machine.execThermalQuery hd len s
  | .mainPowerOff hd len => Sys2Proof.Machine.execMainPowerOff hd len s
  | .mainPowerRelease hd len => Sys2Proof.Machine.execMainPowerRelease hd len s
  | .setWindow hd len p1 => Sys2Proof.Machine.execSetWindow hd len p1 s
  | .applyCounterConfig hd payload => Sys2Proof.Machine.execApplyCounterConfig hd payload s
  | .clearBanks hd len => Sys2Proof.Machine.execClearBanks hd len s
  | .counterCfgWrite a v => Sys2Proof.Machine.execCounterCfgWrite a v s
  | .counterSnapshot hd len p0 p1 p2 p3 => Sys2Proof.Machine.execCounterSnapshot hd len p0 p1 p2 p3 s
  | .sampleConfig hd len p0 p1 p2 => Sys2Proof.Machine.execSampleConfig hd len p0 p1 p2 s
  | .logRead hd len p0 p1 p2 p3 => Sys2Proof.Machine.execLogRead hd len p0 p1 p2 p3 s
  | .attestReport hd nonce => Sys2Proof.Machine.execAttestReport hd nonce s
  | .lifecycleSet hd p0 payload => Sys2Proof.Machine.execLifecycleSet hd p0 payload s
  | .fwDeltaBegin hd len p0 p1 => Sys2Proof.Machine.execFwDeltaBegin hd len p0 p1 s
  | .fwDeltaData hd p0 p1 payload flashOk => Sys2Proof.Machine.execFwDeltaData hd p0 p1 payload flashOk s
  | .setRelayChain hd len p1 p2 => Sys2Proof.Machine.execSetRelayChain hd len p1 p2 s
  | .startForwarding hd len => Sys2Proof.Machine.execStartForwarding hd len s
  | .stopForwarding hd len => Sys2Proof.Machine.execStopForwarding hd len s
  | .fwActivate hd len p0 => Sys2Proof.Machine.execFwActivate hd len p0 s
  | .fwStatus hd len => Sys2Proof.Machine.execFwStatus hd len s
  | .cpxStatus hd len => Sys2Proof.Machine.execCpxStatus hd len s
  | .cpxHandover hd len => Sys2Proof.Machine.execCpxHandover hd len s
  | .cpxPrefer hd len p0 => Sys2Proof.Machine.execCpxPrefer hd len p0 s
  | .ycpDrop peer bytes => Sys2Proof.Machine.execYcpDrop peer bytes s
  | .sessionOpenTimeout id => Sys2Proof.Machine.execSessionOpenTimeout id s
  | .rekeyLimit id => Sys2Proof.Machine.execRekeyLimit id s
  | .rekeyCloseTimeout id => Sys2Proof.Machine.execRekeyCloseTimeout id s
  | .oldKeyExpiry id => Sys2Proof.Machine.execOldKeyExpiry id s
  | .ptpSync port domain ident t1 => Sys2Proof.Machine.execPtpSync port domain ident t1 s
  | .ptpFollowUp port domain ident t1 => Sys2Proof.Machine.execPtpFollowUp port domain ident t1 s
  | .ptpDelayResp port domain ident t4 => Sys2Proof.Machine.execPtpDelayResp port domain ident t4 s
  | .ptpAnnounce port domain ident rank => Sys2Proof.Machine.execPtpAnnounce port domain ident rank s
  | .ptpSourceLoss => Sys2Proof.Machine.execPtpSourceLoss s
  | .arp port src target => Sys2Proof.Machine.execArp port src target s
  | .icmpEcho port src v6 dst body => Sys2Proof.Machine.execIcmpEcho port src v6 dst body s
  | .neighbourDiscovery port src solicit target => Sys2Proof.Machine.execNeighbourDiscovery port src solicit target s
  | .pfcPause port mask quanta => Sys2Proof.Machine.execPfcPause port mask quanta s
  | .frameDrop port => Sys2Proof.Machine.execFrameDrop port s
  | .timeSourceSelect src => Sys2Proof.Machine.execTimeSourceSelect src s
  | .partitionWrite p hi v => Sys2Proof.Machine.execPartitionWrite p hi v s
  | .installationMapWrite a v => Sys2Proof.Machine.execInstallationMapWrite a v s
  | .clearUnit session => Sys2Proof.Machine.execClearUnit session s
  | .keyCommit slot => Sys2Proof.Machine.execKeyCommit slot s
  | .keyRemove slot => Sys2Proof.Machine.execKeyRemove slot s
  | .serviceEnWrite on => Sys2Proof.Machine.execServiceEnWrite on s
  | .tripClear => Sys2Proof.Machine.execTripClear s
  | .authRenew checked => Sys2Proof.Machine.execAuthRenew checked s
  | .authTimeout => Sys2Proof.Machine.execAuthTimeout s
  | .authClaim hub both readable => Sys2Proof.Machine.execAuthClaim hub both readable s
  | .degradationTrigger words => Sys2Proof.Machine.execDegradationTrigger words s
  | .selfCheck pass => Sys2Proof.Machine.execSelfCheck pass s
  | .standbyBootDone => Sys2Proof.Machine.execStandbyBootDone s
  | .handoverCut => Sys2Proof.Machine.execHandoverCut s
  | .handoverAbandon why => Sys2Proof.Machine.execHandoverAbandon why s
  | .mirrorWriteFail => Sys2Proof.Machine.execMirrorWriteFail s
  | .mirrorRecovery => Sys2Proof.Machine.execMirrorRecovery s
  | .revertRequest => Sys2Proof.Machine.execRevertRequest s
  | .auxPwrokRise slot ta tb => Sys2Proof.Machine.execAuxPwrokRise slot ta tb s
  | .auxPwrokFall => Sys2Proof.Machine.execAuxPwrokFall s
  | .mainPwrokRise => Sys2Proof.Machine.execMainPwrokRise s
  | .hbmPwrokRise => Sys2Proof.Machine.execHbmPwrokRise s
  | .pwrokFall sig => Sys2Proof.Machine.execPwrokFall sig s
  | .pkgResetN => Sys2Proof.Machine.execPkgResetN s
  | .powerSample w => Sys2Proof.Machine.execPowerSample w s
  | .coordinatorTick mv hbm => Sys2Proof.Machine.execCoordinatorTick mv hbm s
  | .sensorSample d r => Sys2Proof.Machine.execSensorSample d r s
  | .paceGateTimeout => Sys2Proof.Machine.execPaceGateTimeout s
  | .gateSafePaceEnd => Sys2Proof.Machine.execGateSafePaceEnd s
  | .flowEstimate inA inB outA outB => Sys2Proof.Machine.execFlowEstimate inA inB outA outB s
  | .inletWarning => Sys2Proof.Machine.execInletWarning s
  | .foehnControl => Sys2Proof.Machine.execFoehnControl s
  | .canaryRead c v => Sys2Proof.Machine.execCanaryRead c v s
  | .paceRoundStart n => Sys2Proof.Machine.execPaceRoundStart n s
  | .paceReceive => Sys2Proof.Machine.execPaceReceive s
  | .agreeLost n => Sys2Proof.Machine.execAgreeLost n s
  | .thermalCycleSample d => Sys2Proof.Machine.execThermalCycleSample d s
  | .cclWindowEnd a b ep br => Sys2Proof.Machine.execCclWindowEnd a b ep br s
  | .historyTimeSave => Sys2Proof.Machine.execHistoryTimeSave s
  | .relayReceive => Sys2Proof.Machine.execRelayReceive s
  | .relayAckReceive => Sys2Proof.Machine.execRelayAckReceive s
  | .relayResend => Sys2Proof.Machine.execRelayResend s
  | .bundleReconstructed flashOk scanFits => Sys2Proof.Machine.execBundleReconstructed flashOk scanFits s
  | .confirmation => Sys2Proof.Machine.execConfirmation s
  | .trialFallBack why => Sys2Proof.Machine.execTrialFallBack why s
  | .microcodeBroadcast die miss => Sys2Proof.Machine.execMicrocodeBroadcast die miss s
  | .microcodeBankSwitch core => Sys2Proof.Machine.execMicrocodeBankSwitch core s
  | .microcode core code => Sys2Proof.Machine.execMicrocode core code s
  | .trigIoEdge => Sys2Proof.Machine.execTrigIoEdge s
  | .refclkLoss clk => Sys2Proof.Machine.execRefclkLoss clk s
  | .leakLoopMeasure ohms => Sys2Proof.Machine.execLeakLoopMeasure ohms s
  | .platformEventRepeat => Sys2Proof.Machine.execPlatformEventRepeat s
  | .entdaa a => Sys2Proof.Machine.execEntdaa a s
  | .setnewda a => Sys2Proof.Machine.execSetnewda a s
  | .rstdaa => Sys2Proof.Machine.execRstdaa s
  | .getpid => Sys2Proof.Machine.execGetpid s
  | .getbcr => Sys2Proof.Machine.execGetbcr s
  | .getdcr => Sys2Proof.Machine.execGetdcr s
  | .getstatus => Sys2Proof.Machine.execGetstatus s
  | .enec mask => Sys2Proof.Machine.execEnec mask s
  | .disec mask => Sys2Proof.Machine.execDisec mask s
  | .setmwl n => Sys2Proof.Machine.execSetmwl n s
  | .setmrl n => Sys2Proof.Machine.execSetmrl n s
  | .getmwl => Sys2Proof.Machine.execGetmwl s
  | .getmrl => Sys2Proof.Machine.execGetmrl s
  | .i3cUnsupported => Sys2Proof.Machine.execI3cUnsupported s
  | .setEndpointId r op eid => Sys2Proof.Machine.execSetEndpointId r op eid s
  | .getEndpointId r => Sys2Proof.Machine.execGetEndpointId r s
  | .getMctpVersionSupport r t => Sys2Proof.Machine.execGetMctpVersionSupport r t s
  | .getMessageTypeSupport r => Sys2Proof.Machine.execGetMessageTypeSupport r s
  | .getEndpointUuid r => Sys2Proof.Machine.execGetEndpointUuid r s
  | .mctpDrop type => Sys2Proof.Machine.execMctpDrop type s
  | .getTid r => Sys2Proof.Machine.execGetTid r s
  | .setTid r tid => Sys2Proof.Machine.execSetTid r tid s
  | .getPldmVersion r type => Sys2Proof.Machine.execGetPldmVersion r type s
  | .getPldmTypes r => Sys2Proof.Machine.execGetPldmTypes r s
  | .getPldmCommands r type => Sys2Proof.Machine.execGetPldmCommands r type s
  | .setEventReceiver r mode eid => Sys2Proof.Machine.execSetEventReceiver r mode eid s
  | .getSensorReading r id => Sys2Proof.Machine.execGetSensorReading r id s
  | .getStateSensorReadings r id => Sys2Proof.Machine.execGetStateSensorReadings r id s
  | .setNumericEffecterValue r id v => Sys2Proof.Machine.execSetNumericEffecterValue r id v s
  | .getNumericEffecterValue r id => Sys2Proof.Machine.execGetNumericEffecterValue r id s
  | .setStateEffecterStates r id v => Sys2Proof.Machine.execSetStateEffecterStates r id v s
  | .getStateEffecterStates r id => Sys2Proof.Machine.execGetStateEffecterStates r id s
  | .getPdrRepositoryInfo r => Sys2Proof.Machine.execGetPdrRepositoryInfo r s
  | .getPdr r handle off count => Sys2Proof.Machine.execGetPdr r handle off count s
  | .errorUnsupportedPldmCmd r type cmd => Sys2Proof.Machine.execErrorUnsupportedPldmCmd r type cmd s
  | .codewordTransmit n => Sys2Proof.Machine.execCodewordTransmit n s
  | .epLinkDown port => Sys2Proof.Machine.execEpLinkDown port s
  | .epLinkUp port => Sys2Proof.Machine.execEpLinkUp port s
  | .pkgResetNRelease => Sys2Proof.Machine.execPkgResetNRelease s
  | .complexSelfTestEnd hub pass => Sys2Proof.Machine.execComplexSelfTestEnd hub pass s
  | .bootClaimTimeout => Sys2Proof.Machine.execBootClaimTimeout s
  | .droopDetect isl => Sys2Proof.Machine.execDroopDetect isl s
  | .droopRecovery isl => Sys2Proof.Machine.execDroopRecovery isl s
  | .refclkReturn clk => Sys2Proof.Machine.execRefclkReturn clk s
  | .platformEventAck iid => Sys2Proof.Machine.execPlatformEventAck iid s
  | .historyEventExpiry => Sys2Proof.Machine.execHistoryEventExpiry s

end Sys2Proof.Machine
end

