-- ==== Sys2Proof/Machine/Tick.lean ====
section
/-!
DEFINITION. What one nanosecond does when no command waits: the timebase (R30, R31) and what counts with time (R420).
-/
namespace Sys2Proof.Machine

/-- The timebase after a nanosecond. While a correction is slewed, one nanosecond in 2,000 makes a nanosecond of it: 500 ppm. -/
def Hw.advance (h : Hw) : Hw :=
  if h.slew = 0 then { h with tb := h.tb + 1, slewNs := 0 }
  else if h.slewNs + 1 < 2000 then { h with tb := h.tb + 1, slewNs := h.slewNs + 1 }
  else if 0 < h.slew then { h with tb := h.tb + 2, slew := h.slew - 1, slewNs := 0 }
  else { h with slew := h.slew + 1, slewNs := 0 }

/-! ## What counts with time (R420, R421) -/

/-- Credit units in use and packets queued at a port. -/
def Hw.portUnits (h : Hw) (n : Nat) : Nat := ((h.link n).used.map Prod.snd).foldl (· + ·) 0

/-- Whether packets of a class wait at a port and none of them has the credit that it needs (R277). -/
def Link.lacksCredit (l : Link) (tc : Nat) : Bool := l.queue.any (fun q => q.p.tc == tc) && (l.ready tc).isNone

/-- Whether the condition that a level event measures in ns holds now: the events whose occupancy the machine holds. -/
def Hw.levelHolds (h : Hw) (k : CtrAt) (code : Nat) : Bool :=
  let above := fun (v : Nat) => decide (h.fld (Fd.CTR_AUX.N k.bank k.n) < v)
  match k.kind with
  | .dmp =>
    let d := (k.bank - 0x10000000) / 0x01000000
    if code = 0x48 then (List.range 8).any (fun c => h.flag (Fd.PWR_CL_PACE.NAT_LIMITED (8 * d + c)))
    else if code = 0x49 then (h.pwr.loopLim.find? d).isSome || (List.range 8).any (fun c => (h.pwr.hw95.find? (8 * d + c)).isSome)
    else false
  | .port =>
    let n := (if k.bank < 0x28000000 then 0 else 12) + (k.bank - 0x3000) % 0x08000000 / 0x100
    if code = 0x40 then above (h.link n).rxq.length
    else if code = 0x41 then above (h.link n).queue.length
    else if code = 0x44 then (List.range 4).any (fun tc => (h.link n).lacksCredit tc)
    else if code = 0x61 then above (h.portUnits n)
    else false
  | .cve =>
    let v := if k.bank < 0x01000000 then 0 else 1
    if code = 0x71 then above (h.channels v) else if code = 0x72 then above (h.cveQueued v) else false
  | _ => false

/-- One enabled counter while the timebase goes from `h0` to `h`: a level event counts its ns, and a core counts the steps issued to
it (0x01) and, for each stream, those in which it waits on a token (0x03) or on a handshake (0x04). -/
def Hw.countTime (h0 h : Hw) (k : CtrAt) : Hw :=
  let code := h.fld (Fd.CTR_CFG.EVENT k.bank k.n)
  let user := fun (m : List Nat) => h.passes k.bank k.n { code := code, priv := .user, masters := m }
  if h.ctrChained k.bank k.n then h
  else if k.kind = .core then
    let die := (k.bank - 0x10000000) % 0x01000000
    let c := (k.bank - 0x10000000) / 0x01000000 * 8 + die / 0x00100000
    let sts := h0.seqState (9 * c + (die % 0x00100000 / 0x00010000 - 1))
    let waits := ((List.range 5).filter (fun s => bitsAt sts (4 * s) 4 + 1 == code && user [s + 1])).length
    let n := if code = 0x01 then (user []).toNat else if code = 0x03 ∨ code = 0x04 then waits else 0
    if n = 0 then h else h.bump k.bank k.n (n * (h.steps c - h0.steps c))
  else if h0.levelHolds k code then h.bump k.bank k.n (h.tb - h0.tb)
  else h

/-- Everything that counts with time while the timebase goes from `h0` to `h`. -/
def Hw.timeCounts (h0 h : Hw) : Hw :=
  let ks := h.regs.filterMap (fun q => if bitAt q.2.toNat 31 then cfgAt q.1 else none)
  ks.foldl (fun h k => h0.countTime h k) h

/-- One nanosecond, while the always-on domain has power (assumption 1). -/
def Hw.tick (h : Hw) : Hw := if h.flag Fd.PKG_BOARD_STATUS.AUX_PWROK then h.timeCounts h.advance else h

end Sys2Proof.Machine
end

