-- ==== Sys2Proof/Safety.lean ====
section
/-!
DEFINITION. What statements about the block speak of: the invariants of its state, the runs, the order of fuses, what a command
leaves alone, and what the host is answered.
-/
namespace Sys2Proof.Machine

/-- The memories stand in their canonical form (see Machine/Mem.lean). -/
def State.MemOk (s : State) : Prop := s.mem.wf = true

/-- No fuse of `a` is clear in `b`: fuses only burn (R439). -/
def Fuses.Le (a b : Fuses) : Prop := ∀ n, n ∈ a.bits → n ∈ b.bits

/-- The fuses as burns leave them (R438, R439, R445): a transition pair names one state, pairs are burned in order, and an owner slot
that is not programmed has no digest bits. -/
def Fuses.Ok (f : Fuses) : Prop :=
  (∀ n < 16, ∀ c < 16, ∀ d < 16, 64 * n + c ∈ f.bits → 64 * n + d ∈ f.bits → c = d) ∧
    (∀ n < 15, (f.pairState n).isSome = true → ∀ m < n, (f.pairState m).isSome = true) ∧
    ∀ k < 4, f.ownerSet k = false → ∀ i < 512, ownerFuse k + 2 + i ∉ f.bits

/-- The dies that have power are dies that the package has (R1): their numbers are below 8. -/
def Hw.DiesExist (h : Hw) : Prop := ∀ d ∈ h.plu.diesUp, d < 8

/-- The registers whose contents the NV store keeps (*NV record types*): single settings and the states of the slots, the settings of the
Ethernet ports, and the installation map. -/
def savedReg (a : Nat) : Bool :=
  [Reg.CPX_AUTH, Reg.HUB_FW_STATUS, Reg.HUB_RELAY_CFG, Reg.SEP_KEY_CTRL, Reg.PWR_CAP, Reg.THM_FOEHN].contains a ||
    (decide (a < 0x02000000) && decide (0x10000 ≤ a % 0x01000000) && decide (a % 0x01000000 < 0x10400)) ||
    (decide (0x20000000 ≤ a) && decide (a < 0x30000000))

/-- The NV store keeps only such registers. -/
def Hw.SavedOk (h : Hw) : Prop := ∀ p ∈ h.nv, savedReg p.1 = true

/-- A state that some number of steps leads to. -/
inductive Reaches : State → State → Prop where
  | refl (s : State) : Reaches s s
  | step {s t u : State} : Reaches s t → step t = .next u → Reaches s u

/-! ## What a command leaves alone -/

/-- The parts of the hardware: one for each field of `Hw`. -/
inductive Part where
  | regs | tb | slew | slewNs | free | ctxs | gens | cores | clus | hbm | xcl | links
  | trainCache | rtr | cve | squall | plu | doms | rdma | pwr | thm | host | sep | fw
  | ccl | eth | cpx | bring | board | nv | logs | hist | out
  deriving DecidableEq, Repr

/-- A part is the same in `k` as in `h`. -/
def Part.Same (h k : Hw) : Part → Prop
  | .regs => k.regs = h.regs
  | .tb => k.tb = h.tb
  | .slew => k.slew = h.slew
  | .slewNs => k.slewNs = h.slewNs
  | .free => k.free = h.free
  | .ctxs => k.ctxs = h.ctxs
  | .gens => k.gens = h.gens
  | .cores => k.cores = h.cores
  | .clus => k.clus = h.clus
  | .hbm => k.hbm = h.hbm
  | .xcl => k.xcl = h.xcl
  | .links => k.links = h.links
  | .trainCache => k.trainCache = h.trainCache
  | .rtr => k.rtr = h.rtr
  | .cve => k.cve = h.cve
  | .squall => k.squall = h.squall
  | .plu => k.plu = h.plu
  | .doms => k.doms = h.doms
  | .rdma => k.rdma = h.rdma
  | .pwr => k.pwr = h.pwr
  | .thm => k.thm = h.thm
  | .host => k.host = h.host
  | .sep => k.sep = h.sep
  | .fw => k.fw = h.fw
  | .ccl => k.ccl = h.ccl
  | .eth => k.eth = h.eth
  | .cpx => k.cpx = h.cpx
  | .bring => k.bring = h.bring
  | .board => k.board = h.board
  | .nv => k.nv = h.nv
  | .logs => k.logs = h.logs
  | .hist => k.hist = h.hist
  | .out => k.out = h.out

/-- Every part of the hardware but the listed ones is the same in `k` as in `h`. -/
def Hw.Only (ps : List Part) (h k : Hw) : Prop := ∀ p, p ∉ ps → p.Same h k

/-- Every register but the listed ones holds in `k` what it holds in `h`. -/
def Hw.RegsBut (l : List Nat) (h k : Hw) : Prop := ∀ a, a ∉ l → k.reg a = h.reg a

/-- Every byte outside the listed ranges (first byte, length) reads in `n` as it reads in `m`. -/
def Mem.But (l : List (Nat × Nat)) (m n : Mem) : Prop :=
  ∀ q, (∀ r ∈ l, ¬ (r.1 ≤ q ∧ q < r.1 + r.2)) → n.read q = m.read q

/-- The frame of a command that stores nothing and burns nothing: the queue, the memories, the fuses and every part of the
hardware but the listed ones are unchanged. -/
def Frame (ps : List Part) (s t : State) : Prop :=
  t.pending = s.pending ∧ t.mem = s.mem ∧ t.fuses = s.fuses ∧ s.hw.Only ps t.hw

/-! ## What the host is answered (13_host_protocol.md) -/

/-- A command of an opened session `x` that no check before the command's own meaning refuses (R324, R327, R328, R330, R331): a complex
holds AUTH, the packet is neither a duplicate nor old, the session's keys have not reached a limit, its tag is not in use, no record
answers it, and fewer than 8,192 commands are outstanding. -/
def Admits (s : State) (hd : Hdr) (x : Session) : Prop :=
  s.hw.served = true ∧ s.hw.session? hd.session.toNat = some x ∧ x.stale hd.seq.toNat = false ∧ x.opened = true ∧
    x.limited s.hw.tb = false ∧
    (∀ c ∈ s.hw.host.cmds, ¬ (c.session = hd.session.toNat ∧ c.tag = hd.tag.toNat)) ∧
    (hd.retry = true → ∀ r ∈ s.hw.host.recs, ¬ (r.session = hd.session.toNat ∧ r.tag = hd.tag.toNat)) ∧
    s.hw.host.cmds.length < 8192

/-- The hardware when it has accepted a packet of session `x` and begins the command's own effect (R328, R329, R464). -/
def Hw.heard (h : Hw) (hd : Hdr) (x : Session) : Hw := (h.modSession x.id (fun y => y.accept hd)).hostServed

/-- What a command of the host says to the wrapper every command goes through: its header, its opcode and whether its CTX names a
context (*Opcodes and parameters*). -/
structure HostRow where
  hd : Hdr
  opcode : Nat
  ctx : Bool

/-- The host's commands of an open session: every opcode but HELLO and SESSION_OPEN. -/
def hostRow : Instr → Option HostRow
  | .sessionClose hd _ => some ⟨hd, 0x0003, false⟩
  | .echo hd _ _ => some ⟨hd, 0x0004, false⟩
  | .rekey hd _ => some ⟨hd, 0x0005, false⟩
  | .regRead hd _ _ => some ⟨hd, 0x0100, false⟩
  | .regWrite hd _ _ _ => some ⟨hd, 0x0101, false⟩
  | .regRmw hd _ _ _ _ => some ⟨hd, 0x0102, false⟩
  | .regReadBlock hd _ _ _ => some ⟨hd, 0x0103, false⟩
  | .bringupStep hd _ _ _ => some ⟨hd, 0x0200, false⟩
  | .bringupStatus hd _ => some ⟨hd, 0x0201, false⟩
  | .resetDomainCore hd _ _ => some ⟨hd, 0x0202, false⟩
  | .resetDomainCluster hd _ _ => some ⟨hd, 0x0202, false⟩
  | .resetDomainPartition hd _ _ => some ⟨hd, 0x0202, false⟩
  | .resetDomainPackage hd _ _ => some ⟨hd, 0x0202, false⟩
  | .trainingSave hd _ _ _ => some ⟨hd, 0x0203, false⟩
  | .ctxCreate hd _ _ _ _ _ => some ⟨hd, 0x0300, false⟩
  | .imageLoad hd _ _ _ _ => some ⟨hd, 0x0301, true⟩
  | .ctxStart hd _ _ => some ⟨hd, 0x0302, true⟩
  | .ctxStop hd _ => some ⟨hd, 0x0303, true⟩
  | .ctxAbort hd _ _ => some ⟨hd, 0x0304, true⟩
  | .ctxQuery hd _ _ => some ⟨hd, 0x0305, true⟩
  | .placementQuery hd _ _ _ _ => some ⟨hd, 0x0306, true⟩
  | .pinRecord hd _ _ => some ⟨hd, 0x0307, true⟩
  | .pinBind hd _ _ => some ⟨hd, 0x0307, true⟩
  | .pinClear hd _ _ => some ⟨hd, 0x0307, false⟩
  | .memWrite hd _ _ _ _ _ => some ⟨hd, 0x0400, true⟩
  | .memRead hd _ _ _ _ _ _ => some ⟨hd, 0x0401, true⟩
  | .memFill hd _ _ _ _ _ _ _ _ => some ⟨hd, 0x0403, true⟩
  | .qpOpen hd _ _ _ _ => some ⟨hd, 0x0402, false⟩
  | .mrBind hd _ _ _ _ _ => some ⟨hd, 0x0402, true⟩
  | .ringBind hd _ _ _ _ _ => some ⟨hd, 0x0402, true⟩
  | .qpClose hd _ _ => some ⟨hd, 0x0402, false⟩
  | .mrUnbind hd _ _ => some ⟨hd, 0x0402, false⟩
  | .groupSet hd _ _ => some ⟨hd, 0x0500, false⟩
  | .groupClear hd _ _ => some ⟨hd, 0x0501, false⟩
  | .fabricQuiesceStart hd _ => some ⟨hd, 0x0502, false⟩
  | .fabricQuiesceResume hd _ => some ⟨hd, 0x0502, false⟩
  | .routeWrite hd _ _ => some ⟨hd, 0x0503, false⟩
  | .congestionRead hd _ _ => some ⟨hd, 0x0504, false⟩
  | .linkStateRead hd _ _ => some ⟨hd, 0x0505, false⟩
  | .linkStateEnable hd _ _ => some ⟨hd, 0x0505, false⟩
  | .linkStateDisable hd _ _ => some ⟨hd, 0x0505, false⟩
  | .linkStateRetrain hd _ _ => some ⟨hd, 0x0505, false⟩
  | .linkStateSetDead hd _ _ => some ⟨hd, 0x0505, false⟩
  | .powerCapSet hd _ _ => some ⟨hd, 0x0600, false⟩
  | .paceSet hd _ _ _ => some ⟨hd, 0x0601, false⟩
  | .paceModeFree hd _ _ => some ⟨hd, 0x0602, false⟩
  | .paceModeFixed hd _ _ => some ⟨hd, 0x0602, false⟩
  | .paceAgreementStart hd _ _ => some ⟨hd, 0x0602, false⟩
  | .paceAgreementStop hd _ _ => some ⟨hd, 0x0602, false⟩
  | .foehnSet hd _ _ _ => some ⟨hd, 0x0603, false⟩
  | .thermalQuery hd _ => some ⟨hd, 0x0604, false⟩
  | .mainPowerOff hd _ => some ⟨hd, 0x0605, false⟩
  | .mainPowerRelease hd _ => some ⟨hd, 0x0605, false⟩
  | .setWindow hd _ _ => some ⟨hd, 0x0700, false⟩
  | .applyCounterConfig hd _ => some ⟨hd, 0x0700, false⟩
  | .clearBanks hd _ => some ⟨hd, 0x0700, false⟩
  | .counterSnapshot hd _ _ _ _ _ => some ⟨hd, 0x0701, false⟩
  | .sampleConfig hd _ _ _ _ => some ⟨hd, 0x0702, false⟩
  | .logRead hd _ _ _ _ _ => some ⟨hd, 0x0703, false⟩
  | .attestReport hd _ => some ⟨hd, 0x0800, false⟩
  | .lifecycleSet hd _ _ => some ⟨hd, 0x0801, false⟩
  | .fwDeltaBegin hd _ _ _ => some ⟨hd, 0x0802, false⟩
  | .fwDeltaData hd _ _ _ _ => some ⟨hd, 0x0803, false⟩
  | .setRelayChain hd _ _ _ => some ⟨hd, 0x0804, false⟩
  | .startForwarding hd _ => some ⟨hd, 0x0804, false⟩
  | .stopForwarding hd _ => some ⟨hd, 0x0804, false⟩
  | .fwActivate hd _ _ => some ⟨hd, 0x0805, false⟩
  | .fwStatus hd _ => some ⟨hd, 0x0806, false⟩
  | .cpxStatus hd _ => some ⟨hd, 0x0900, false⟩
  | .cpxHandover hd _ => some ⟨hd, 0x0901, false⟩
  | .cpxPrefer hd _ _ => some ⟨hd, 0x0902, false⟩
  | _ => none

/-- The rows that are YCP packets. -/
def isPacket (c : Instr) : Bool :=
  (hostRow c).isSome ||
    match c with
    | .hello _ _ _ => true
    | .sessionOpen _ _ _ => true
    | .ycpDrop _ _ => true
    | _ => false

/-- The roles that may send an opcode (*Role authority*). -/
def rolesOf (opcode : Nat) : List Role :=
  if opcode = 0x0802 ∨ opcode = 0x0804 ∨ opcode = 0x0805 then [.service, .vendor] else [.oper, .service, .vendor]

/-- Something was sent between `s` and `t`. -/
def Sent (s t : State) (o : Out) : Prop := ∃ a b, t.hw.out = s.hw.out ++ a ++ o :: b

/-- The host is answered a command: a reply of its session, tag, opcode and context with these words P0–P5 and payload (R330). -/
def Answered (s t : State) (hd : Hdr) (opcode : Nat) (p : List Nat) (payload : List Byte) : Prop :=
  ∃ y : YcpOut, Sent s t (.ycp y) ∧ y.session = hd.session.toNat ∧ y.unsol = false ∧ y.tag = hd.tag.toNat ∧
    y.opcode = opcode ∧ y.ctx = hd.ctx.toNat ∧ y.p = p ∧ y.payload = payload

/-- A command is outstanding (R330): it was answered ACCEPTED and has not completed. -/
def Outstanding (t : State) (hd : Hdr) (opcode : Nat) : Prop :=
  ∃ c ∈ t.hw.host.cmds, c.session = hd.session.toNat ∧ c.tag = hd.tag.toNat ∧ c.opcode = opcode ∧ c.ctx = hd.ctx.toNat

/-! ## Registers -/

/-- The register at an address answers what the table of registers holds: its unit is there (R494), it is a register of a die, a router
or a stack that no read clears or captures, and the session has captured nothing for it. -/
def ReadsPlain (s : State) (x : Session) (a : Nat) (l : RegLoc) : Prop :=
  s.hw.regCheck a = .ok l ∧ (l.row.blk = .die ∨ l.row.blk = .rtr ∨ l.row.blk = .hbm) ∧ l.row.rc = 0 ∧ isLow a = false ∧
    Tab.find? x.captured a = none

/-! ## Links (10_fabric_links.md) -/

/-- A link begins to train (R256, R258, R261): with no attempt counted, at step 1, or further where a lane's detector holds it up no
more; a port that the map marks unused stays DISABLED. -/
def LinkStarts (s t : State) (n : Nat) : Prop :=
  t.hw.flag (Fd.FL_CTRL.EN n) = true ∧ t.hw.fld (Fd.FL_STATE.RETRIES n) = 0 ∧
    (s.hw.flag (Fd.FR_PORT_CFG.UNUSED n) = true → t.hw.linkState n = 0) ∧
    (s.hw.flag (Fd.FR_PORT_CFG.UNUSED n) = false → 1 ≤ (t.hw.link n).step ∧
      ((∃ i < 8, s.hw.flag (Fd.FL_LANE_STATUS.LOS n i) = true) → t.hw.linkState n = 1) ∧
      ((∀ i < 8, s.hw.flag (Fd.FL_LANE_STATUS.LOS n i) = false) → t.hw.linkState n = 2))

/-- An UP link goes DOWN (R249–R251, R259, R272): the reason is kept, REMOTE_FAULT is sent for 1 µs, nothing stays queued or kept, and
AUTO_RETRAIN begins a new training. -/
def LinkFalls (s t : State) (n reason : Nat) : Prop :=
  t.hw.fld (Fd.FL_STATE.FAIL_REASON n) = reason ∧ (t.hw.link n).rfUntil = s.hw.tb + 1000 ∧ (t.hw.link n).queue = [] ∧
    (t.hw.link n).kept = [] ∧ (s.hw.flag (Fd.FL_CTRL.AUTO_RETRAIN n) = false → t.hw.linkState n = 5) ∧
    (s.hw.flag (Fd.FL_CTRL.AUTO_RETRAIN n) = true → s.hw.flag (Fd.FL_CTRL.EN n) = true →
      s.hw.flag (Fd.FR_PORT_CFG.UNUSED n) = false → 1 ≤ (t.hw.link n).step ∧ (t.hw.linkState n = 1 ∨ t.hw.linkState n = 2))

/-- A training attempt fails (R256, R259): the fourth within 60 s makes the link DEAD. -/
def LinkFails (s t : State) (n reason : Nat) : Prop :=
  t.hw.fld (Fd.FL_STATE.FAIL_REASON n) = reason ∧ (t.hw.link n).fails = s.hw.tb :: recent60 s.hw.tb (s.hw.link n).fails ∧
    t.hw.fld (Fd.FL_STATE.RETRIES n) = min 4 (t.hw.link n).fails.length ∧
    (4 ≤ (t.hw.link n).fails.length → t.hw.linkState n = 6) ∧
    ((t.hw.link n).fails.length < 4 → s.hw.flag (Fd.FL_CTRL.AUTO_RETRAIN n) = false → t.hw.linkState n = 5)

/-- A detector of a link fires (R249, R256): an UP link falls, an attempt that has come to a step fails, and otherwise the link keeps
its state. -/
def LinkLost (s t : State) (n reason pass : Nat) : Prop :=
  (s.hw.isUp n = true → LinkFalls s t n reason) ∧
    (s.hw.isUp n = false → pass ≤ (s.hw.link n).step → (s.hw.link n).step < 9 → LinkFails s t n reason) ∧
    (s.hw.isUp n = false → (s.hw.link n).step < pass → t.hw.linkState n = s.hw.linkState n ∧
      (t.hw.link n).step = (s.hw.link n).step)

/-! ## Programs (06_schedule_contract.md, 15_faults_and_recovery.md) -/

/-- A condition of a context that can fault is detected (R381, R382): the context is faulted, with a record of the first detection. -/
def Raised (s t : State) (c detail : Nat) : Prop :=
  ∀ x, Tab.find? s.hw.ctxs c = some x → x.canFault = true → x.run.fault = none →
    ∃ y r, Tab.find? t.hw.ctxs c = some y ∧ y.host = { x.host with st := .faulted } ∧ y.run.fault = some r ∧
      y.run.faultStep = .detected ∧ r.detail = detail ∧ r.cls = detail / 256 ∧ r.tb = s.hw.tb ∧ r.job = x.host.job ∧ r.more = 0

/-- An instruction's own effect has happened, and nothing else of its context changed but what it computes (R139). -/
def Executed (t : State) (w : Work) : Prop :=
  ∃ y f, Tab.find? t.hw.ctxs w.w.c = some y ∧ y.host = w.x.host ∧ y.run.fault = w.x.run.fault ∧
    (y.run.strm (strmKey w.w.lc w.w.lk w.w.s)).inflight[w.w.n]? = some f ∧ f.done = true ∧ f.idx = w.fl.idx ∧
    f.startTb = w.fl.startTb

/-- The key of a stream of a context, in its table of streams. -/
def keyOf (r : StreamRef) : Nat := strmKey r.lc r.lk r.strm

/-- Only context `c` changes, and of its streams only the one with this key; its image and its placement stay. -/
def StreamAlone (s t : State) (c key : Nat) : Prop :=
  (∀ d, d ≠ c → Tab.find? t.hw.ctxs d = Tab.find? s.hw.ctxs d) ∧
    ∀ x, Tab.find? s.hw.ctxs c = some x → ∃ y, Tab.find? t.hw.ctxs c = some y ∧ y.host.image = x.host.image ∧
      y.host.place = x.host.place ∧ ∀ k, k ≠ key → y.run.strm k = x.run.strm k

/-- A channel holds these tokens, as their model times (R142, R143). -/
def Holds (t : State) (c : Nat) (d : ChanDecl) (ts : List Nat) : Prop :=
  ∃ y, Tab.find? t.hw.ctxs c = some y ∧ (y.chan d).tokens = ts

/-- Every stream of a context has a physical core (R211). -/
def Ctx.Placed (x : Ctx) : Prop := ∀ p ∈ x.allStreams, x.core? p.1 p.2.1 ≠ none

/-- Rows of bytes are stored in order (R98, R105, R192): no byte outside them changes; a row in a plain window that no later row
overlaps reads as it was stored; and one row alone, in a window of cluster memory, is combined with what was there. -/
def Stored (m n : Mem) (rs : List (Place × List Byte)) : Prop :=
  m.But (rs.flatMap (fun q => q.1.segs)) n ∧
    (∀ (i : Nat) (p : Place) (bs : List Byte) (a : Nat), rs[i]? = some (p, bs) → p.win = 0 → p.segs = [(a, bs.length)] →
      (∀ (j : Nat) (q : Place × List Byte), i < j → rs[j]? = some q →
        ∀ b ∈ q.1.segs, a + bs.length ≤ b.1 ∨ b.1 + b.2 ≤ a) → n.reads a bs.length = bs) ∧
    ∀ (p : Place) (bs : List Byte) (a : Nat), rs = [(p, bs)] → p.segs = [(a, bs.length)] →
      n.reads a bs.length = aliasBytes p.win (m.reads a bs.length) bs

/-! ## Engines (03_engines.md) -/

/-- An engine instruction meets a condition (R92): its context faults with this detail and no byte changes. -/
def Stops (s t : State) (w : Work) (detail : Nat) : Prop := Raised s t w.w.c detail ∧ Mem.But [] s.mem t.mem

/-- A vector operand of `n` rows of `len` bytes is read, or its condition stops the instruction (R79, R92, R100); `k` says what follows
from the rows as little-endian numbers. -/
def Loaded (s t : State) (sn : Seen) (w : Work) (h : Hw) (o : VOp) (n len al : Nat) (k : Hw → List Nat → Prop) : Prop :=
  ∀ g, (∀ e, h.vread (s.mem.seen sn) w o n len al = (g, .error e) → Stops s t w e.detail) ∧
    ∀ xs, h.vread (s.mem.seen sn) w o n len al = (g, .ok xs) → k g xs

/-- Several vector operands are read in order, each named by a field of the word. -/
def LoadedAll (s t : State) (sn : Seen) (w : Work) (n len al : Nat) : List Nat → Hw → (Hw → List (List Nat) → Prop) → Prop
  | [], h, k => k h []
  | lo :: los, h, k =>
    Loaded s t sn w h (w.vop lo) n len al (fun g xs => LoadedAll s t sn w n len al los g (fun g' ys => k g' (xs :: ys)))

/-- Results are written: each operand in order with its alignment and its rows, where all of them may be written; or the first
condition stops the instruction with no byte written (R79, R92, R105, R150). -/
def Written (s t : State) (sn : Seen) (w : Work) : Hw → List (VOp × Nat × List (List Byte)) → List (Place × List Byte) → Prop
  | _, [], rs => Executed t w ∧ Stored s.mem t.mem rs
  | g, (o, al, rows) :: rest, rs =>
    (o.v % al ≠ 0 ∨ (1 < rows.length ∧ o.d.stride % al ≠ 0) → Stops s t w dAlign) ∧
      (o.v % al = 0 → (1 < rows.length → o.d.stride % al = 0) → ∀ g',
        (∀ e, g.dstRows (s.mem.seen sn) w.x w.w (o.d.unit w.w.lc w.w.lk)
            (rows.zipIdx.map (fun (b, i) => (o.v + (i * o.d.stride : Nat), b.length))) = (g', .error e) → Stops s t w e.detail) ∧
          ∀ ps, g.dstRows (s.mem.seen sn) w.x w.w (o.d.unit w.w.lc w.w.lk)
            (rows.zipIdx.map (fun (b, i) => (o.v + (i * o.d.stride : Nat), b.length))) = (g', .ok ps) →
            Written s t sn w g' rest (rs ++ ps.zip rows))

/-- The sticky flags of a core after these conditions (R86): each stays set, and is set where its condition was raised. -/
def Flagged (s t : State) (k : Nat) (f : FpFlags) : Prop :=
  t.hw.flag (Fd.VXE_FPFLAGS.INV k) = (s.hw.flag (Fd.VXE_FPFLAGS.INV k) || f.inv) ∧
    t.hw.flag (Fd.VXE_FPFLAGS.OVF k) = (s.hw.flag (Fd.VXE_FPFLAGS.OVF k) || f.ovf) ∧
    t.hw.flag (Fd.VXE_FPFLAGS.UNF k) = (s.hw.flag (Fd.VXE_FPFLAGS.UNF k) || f.unf) ∧
    t.hw.flag (Fd.VXE_FPFLAGS.INX k) = (s.hw.flag (Fd.VXE_FPFLAGS.INX k) || f.inx)

/-- The 128 rows of 64 results that a DRAIN of this accumulation gives, as bytes (R49, R55–R58, R68). -/
def drained (m : Mxe) (w : Work) : List (List Byte) :=
  (List.range 128).map (fun i =>
    (drainRow m w.x.host.seed (w.x.img.valueOf w.w.lc w.w.lk (bitsAt w.word 56 12) w.fl.iters 48) i
      ((List.range 64).map (fun j => (m.acc.getD (64 * i + j) Ewa.clear).value))).1)

/-- A context's cores and clusters are ones the package has (R1). -/
def Ctx.InRange (x : Ctx) : Prop :=
  ∀ p, x.host.place = some p → (∀ b ∈ p.cores, b.2 < 576) ∧ ∀ b ∈ p.clusters, b.2 < 64

/-! ## The management port (21_board_interface.md) -/

/-- The commands that the target takes only at a dynamic address of its own. -/
def directCommand : Instr → Bool
  | .setnewda _ | .getpid | .getbcr | .getdcr | .getstatus | .getmwl | .getmrl => true
  | .setEndpointId _ _ _ | .getEndpointId _ | .getMctpVersionSupport _ _ | .getMessageTypeSupport _ | .getEndpointUuid _
  | .mctpDrop _ => true
  | .getTid _ | .setTid _ _ | .getPldmVersion _ _ | .getPldmTypes _ | .getPldmCommands _ _
  | .errorUnsupportedPldmCmd _ _ _ => true
  | .setEventReceiver _ _ _ | .platformEventAck _ | .getSensorReading _ _ | .getStateSensorReadings _ _
  | .setNumericEffecterValue _ _ _ | .getNumericEffecterValue _ _ | .setStateEffecterStates _ _ _
  | .getStateEffecterStates _ _ | .getPdrRepositoryInfo _ | .getPdr _ _ _ _ => true
  | _ => false

/-- The target has a dynamic address, auxiliary power is there and a complex holds AUTH. -/
def PortReady (s : State) : Prop :=
  s.hw.flag Fd.PKG_BOARD_STATUS.AUX_PWROK = true ∧ s.hw.flag Fd.CPX_AUTH.HELD = true ∧ s.hw.board.addr.isSome = true

/-- `s` with these outputs sent and nothing else changed. -/
def State.say (s : State) (l : List Out) : State := { s with hw := { s.hw with out := s.hw.out ++ l } }

/-- `s` with this board interface, these outputs sent, and nothing else changed. -/
def State.boardSay (s : State) (b : BoardSt) (l : List Out) : State :=
  { s with hw := { s.hw with board := b, out := s.hw.out ++ l } }

/-- The output that an MCTP message to an endpoint is, behind the in-band interrupt that announces it where the controller has
enabled it. -/
def mctpOut (b : BoardSt) (dst : Nat) (body : List Byte) : List Out :=
  (if bitAt b.events 0 then [.i3c [0xAE]] else []) ++ [.mctp (BitVec.ofNat 8 dst :: BitVec.ofNat 8 b.eid :: body)]

/-- The output that the answer to a PLDM request is: its instance, type, command and completion code, then the data. -/
def pldmOut (b : BoardSt) (r : MsgRef) (type cmd code : Nat) (data : List Byte) : List Out :=
  mctpOut b r.src.toNat ([1, BitVec.ofNat 8 r.iid.toNat, BitVec.ofNat 8 type, BitVec.ofNat 8 cmd, BitVec.ofNat 8 code] ++ data)

end Sys2Proof.Machine
end

