-- ==== Sys2Proof/Certificates/Slice0/Obligations.lean ====
section
/-!
DEFINITION. The statements for the provers, one for each entry of OBLIGATIONS.json, family by family.
-/
open Sys2Proof Sys2Proof.Machine

/-! ## The block as a whole -/

/-- A step runs the command at the front of the queue on the state with the queue's rest. -/
def Obligations.StepRunsFrontCommand : Prop :=
  ∀ (c : Instr) (cs : List Instr) (s : State), s.pending = c :: cs → step s = exec c { s with pending := cs }

/-- R31 at an empty queue, where a step is a nanosecond of the timebase while AUX_PWROK is high (the model's choice: assumption 1): the
timebase never decreases; it gains one nanosecond, and while a correction is slewed one nanosecond of the correction is made in every
2,000 (500 ppm). The queue, the memories and the fuses stay. -/
def Obligations.IdleStepAdvancesTimebase : Prop :=
  ∀ s : State, s.pending = [] → ∃ t, step s = .next t ∧ t.pending = [] ∧ t.mem = s.mem ∧ t.fuses = s.fuses ∧
    s.hw.tb ≤ t.hw.tb ∧
    (s.hw.flag Fd.PKG_BOARD_STATUS.AUX_PWROK = false → t = s) ∧
    (s.hw.flag Fd.PKG_BOARD_STATUS.AUX_PWROK = true →
      (s.hw.slew = 0 → t.hw.tb = s.hw.tb + 1 ∧ t.hw.slew = 0) ∧
      (s.hw.slew ≠ 0 → s.hw.slewNs + 1 < 2000 →
        t.hw.tb = s.hw.tb + 1 ∧ t.hw.slew = s.hw.slew ∧ t.hw.slewNs = s.hw.slewNs + 1) ∧
      (0 < s.hw.slew → 2000 ≤ s.hw.slewNs + 1 →
        t.hw.tb = s.hw.tb + 2 ∧ t.hw.slew = s.hw.slew - 1 ∧ t.hw.slewNs = 0) ∧
      (s.hw.slew < 0 → 2000 ≤ s.hw.slewNs + 1 →
        t.hw.tb = s.hw.tb ∧ t.hw.slew = s.hw.slew + 1 ∧ t.hw.slewNs = 0))

/-- No command stops the block, and none touches the queue of the commands that wait. -/
def Obligations.EveryCommandAnswersNextState : Prop :=
  ∀ (c : Instr) (s : State), ∃ t, exec c s = .next t ∧ t.pending = s.pending

/-- Every step, whatever the commands are, keeps each of these: the memories' canonical form, the powered dies among the eight that the
package has, and an NV store that keeps only registers it has records for. -/
def Obligations.EveryStepKeepsInvariants : Prop :=
  ∀ s t : State, step s = .next t →
    (s.MemOk → t.MemOk) ∧ (s.hw.DiesExist → t.hw.DiesExist) ∧ (s.hw.SavedOk → t.hw.SavedOk)

/-- The machine at reset meets the invariants: the canonical form of memory, an empty queue, no fuse burned, a timebase of 0 (R30) and no
session, context or outstanding command; and every register holds the reset value of its table, some of them written out. -/
def Obligations.ResetMeetsInvariants : Prop :=
  State.reset.MemOk ∧ State.reset.pending = [] ∧ State.reset.fuses.bits = [] ∧ State.reset.fuses.Ok ∧ State.reset.hw.tb = 0 ∧
    State.reset.hw.host.sessions = [] ∧ State.reset.hw.host.cmds = [] ∧ State.reset.hw.ctxs = [] ∧
    State.reset.hw.DiesExist ∧ State.reset.hw.SavedOk ∧ (∀ a, State.reset.mem.read a = 0) ∧
    (∀ a, State.reset.hw.reg a = regReset a) ∧
    State.reset.hw.reg Reg.PKG_ID = 0x0E091000 ∧ State.reset.hw.reg Reg.PLU_CTRL = 0x00005803 ∧
    State.reset.hw.reg Reg.CVE_CTRL = 0x000007D0 ∧ State.reset.hw.reg (Reg.PLU_PART_LO 0) = 0xFFFFFFFF ∧
    State.reset.hw.reg (Reg.PLU_PART_LO 15) = 0 ∧ State.reset.hw.reg (Reg.MXE_ERR 575 1) = 0

/-- Fuses only burn: along every run, whatever commands come, no fuse that is burned becomes clear; every command other than
LIFECYCLE_SET leaves every fuse as it is (R439), unless one waited for an AUTH_CLAIM (R347); and every step keeps them as burns leave them: a transition pair names one state, pairs
are burned in order, and an owner slot that is not programmed has no digest. -/
def Obligations.FusesOnlyBurn : Prop :=
  (∀ s t : State, Reaches s t → s.fuses.Le t.fuses) ∧
    (∀ (c : Instr) (s t : State), (∀ hd p0 payload, c ≠ .lifecycleSet hd p0 payload) →
      (∀ hub both readable, c = .authClaim hub both readable → ∀ q ∈ s.hw.cpx.rx, ∀ hd p0 payload, q.1 ≠ .lifecycleSet hd p0 payload) →
      exec c s = .next t → t.fuses = s.fuses) ∧
    ∀ s t : State, s.fuses.Ok → step s = .next t → t.fuses.Ok

/-! ## Sessions and the checks of every command (13_host_protocol.md) -/

/-- The checks of *What every command goes through* come before the meaning of every command of an open session, in this order: without
a complex that holds AUTH nothing happens, but that between the CUT and the claim of a planned handover up to 4,096 packets wait (R347); a packet of no session, a duplicate or an old one is dropped and counted (R324, R328); a
half-open session takes no command (STATE); keys at their limit admit only REKEY and SESSION_CLOSE (REKEY_REQUIRED, R327); a tag in use
is refused (TAG_IN_USE, R330); at 8,192 outstanding commands TAGS_EXHAUSTED; a role the opcode is not open to gets PRIVILEGE (R447); a
CTX that must name a context and names none gets CTX_HANDLE, after LENGTH. Each refusal changes sessions and outputs only. -/
def Obligations.ChecksComeBeforeEveryCommand : Prop :=
  ∀ (c : Instr) (r : HostRow) (s : State), hostRow c = some r →
    (s.hw.served = false → s.hw.inCut = false → exec c s = .next s) ∧
    (s.hw.inCut = true → s.hw.cpx.rx.length < 4096 →
      exec c s = .next { s with hw := { s.hw with cpx := { s.hw.cpx with rx := s.hw.cpx.rx ++ [(c, s.hw.tb)] } } }) ∧
    (s.hw.inCut = true → 4096 ≤ s.hw.cpx.rx.length → exec c s = .next s) ∧
    (∀ x, s.hw.served = true → (s.hw.session? r.hd.session.toNat = none ∨
        (s.hw.session? r.hd.session.toNat = some x ∧ x.stale r.hd.seq.toNat = true)) →
      exec c s = .next { s with hw := s.hw.satFld (Fd.EP_DROP_CNT.YCP r.hd.peer.port.val) 1 }) ∧
    (∀ x, s.hw.served = true → s.hw.session? r.hd.session.toNat = some x → x.stale r.hd.seq.toNat = false →
      ∃ t, exec c s = .next t ∧
        ((x.opened = false → Frame [.host, .out] s t ∧ Answered s t r.hd r.opcode [0x0301] []) ∧
        (x.opened = true → x.limited s.hw.tb = true → r.opcode ≠ 0x0003 → r.opcode ≠ 0x0005 →
          Frame [.host, .out] s t ∧ Answered s t r.hd r.opcode [0x0203] []) ∧
        (x.opened = true → x.limited s.hw.tb = false → r.hd.retry = false →
          (∃ k ∈ s.hw.host.cmds, k.session = r.hd.session.toNat ∧ k.tag = r.hd.tag.toNat) →
          Frame [.host, .out] s t ∧ Answered s t r.hd r.opcode [0x0106] []) ∧
        (x.opened = true → x.limited s.hw.tb = false → r.hd.retry = true →
          (∃ k ∈ s.hw.host.cmds, k.session = r.hd.session.toNat ∧ k.tag = r.hd.tag.toNat) →
          Frame [.host, .out] s t ∧ Answered s t r.hd r.opcode [0x0001] []) ∧
        (x.opened = true → x.limited s.hw.tb = false → r.hd.retry = false → s.hw.host.cmds.length = 8192 →
          (∀ k ∈ s.hw.host.cmds, ¬ (k.session = r.hd.session.toNat ∧ k.tag = r.hd.tag.toNat)) →
          Frame [.host, .out] s t ∧ Answered s t r.hd r.opcode [0x0401] []) ∧
        (Admits s r.hd x → x.role ∉ rolesOf r.opcode →
          Frame [.host, .out] s t ∧ Answered s t r.hd r.opcode [0x0202] []) ∧
        (Admits s r.hd x → x.role ∈ rolesOf r.opcode → r.ctx = true → s.hw.ctxOf r.hd.ctx.toNat = none →
          Frame [.host, .out] s t ∧ (Answered s t r.hd r.opcode [0x0107] [] ∨ Answered s t r.hd r.opcode [0x0105] []))))

/-- SESSION_CLOSE, ECHO and REKEY complete. ECHO answers its words P1–P5 and its payload and changes nothing but the conversation;
SESSION_CLOSE is answered, and its session is gone; REKEY answers the package's next public key, installs the keys of the new exchange
and keeps the old receiving key for 5 s. -/
def Obligations.SessionCommandsComplete : Prop :=
  ∀ (hd : Hdr) (s : State) (x : Session), Admits s hd x → x.role ≠ .none →
    (∀ (p : List (BitVec 32)) (payload : List Byte), payload.length ≤ 8192 →
      ∃ t, exec (.echo hd p payload) s = .next t ∧ Frame [.host, .fw, .out] s t ∧
        Answered s t hd 0x0004 (0 :: (List.range 5).map (fun i => (p.getD (i + 1) 0).toNat)) payload) ∧
    (∃ t, exec (.sessionClose hd 0) s = .next t ∧ Frame [.host, .fw, .out] s t ∧ Answered s t hd 0x0003 [0] [] ∧
      t.hw.session? hd.session.toNat = none) ∧
    (∀ payload : List Byte, payload.length = 56 →
      ∃ t, exec (.rekey hd payload) s = .next t ∧ Frame [.host, .fw, .out] s t ∧
        Answered s t hd 0x0005 [0] (Config.x448Public s.hw.host.keyPairs) ∧ t.hw.host.keyPairs = s.hw.host.keyPairs + 1 ∧
        ∃ y, t.hw.session? hd.session.toNat = some y ∧ y.oldKeyIn = some x.keyIn ∧ y.oldUntil = s.hw.tb + 5000000000 ∧
          y.keyTb = s.hw.tb ∧ y.rxCount = 0 ∧ y.txCount = 0 ∧ y.limitTb = none ∧
          (y.keyIn, y.keyOut) = sessionKeys (Config.x448Shared s.hw.host.keyPairs payload)
            (Config.shake512 (payload ++ Config.x448Public s.hw.host.keyPairs)))

/-- HELLO and SESSION_OPEN (R325). A HELLO of version 2, SESSION 0 and 88 bytes opens a half-open session, unless 16 exist or the part
is SCRAPPED, and replies its ID to where the packet came from; SESSION_OPEN opens it with the role that the key takes (R447) and the
subscriptions of P0, or ends it with AUTH_FAILED. -/
def Obligations.SessionsOpen : Prop :=
  (∀ (hd : Hdr) (payload : List Byte) (s : State), s.hw.served = true → hd.session = 0 → payload.length = 88 →
    s.fuses.lcState ≠ 5 → s.hw.host.sessions.length < 16 →
    ∃ t, exec (.hello hd 2 payload) s = .next t ∧ Frame [.host, .out, .free] s t ∧
      (∃ y, t.hw.host.sessions = s.hw.host.sessions ++ [y] ∧ y.id = s.hw.host.nextSession ∧ y.opened = false ∧ y.role = .none ∧
        y.helloTb = s.hw.tb) ∧
      t.hw.host.nextSession = s.hw.host.nextSession + 1 ∧
      ∃ o, t.hw.out = s.hw.out ++ [.ycp o] ∧ o.session = 0 ∧ o.opcode = 1 ∧ o.tag = hd.tag.toNat ∧
        o.p = [0, s.hw.host.nextSession]) ∧
  (∀ (hd : Hdr) (payload : List Byte) (s : State), s.hw.served = true → hd.session = 0 → payload.length = 88 →
    s.fuses.lcState ≠ 5 → 16 ≤ s.hw.host.sessions.length →
    ∃ t, exec (.hello hd 2 payload) s = .next t ∧ Frame [.out] s t ∧
      ∃ o, t.hw.out = s.hw.out ++ [.ycp o] ∧ o.p = [0x0403]) ∧
  ∀ (hd : Hdr) (p0 : BitVec 32) (payload : List Byte) (s : State) (x : Session), s.hw.served = true →
    s.hw.session? hd.session.toNat = some x → x.stale hd.seq.toNat = false → x.opened = false → payload.length = 171 →
    p0.toNat < 128 → p0.toNat % 2 = 0 →
    ∃ t, exec (.sessionOpen hd p0 payload) s = .next t ∧ Frame [.host, .out] s t ∧
      (∀ role slot, openRole s x payload = some (role, slot) →
        Answered s t hd 0x0002 [0] [] ∧
        ∃ y, t.hw.session? hd.session.toNat = some y ∧ y.opened = true ∧ y.role = role ∧ y.keySlot = slot ∧
          y.mask = p0.toNat ∧ y.hostKey = payload.take 57) ∧
      (openRole s x payload = none → Answered s t hd 0x0002 [0x0201] [] ∧ t.hw.session? hd.session.toNat = none)

/-- The timers of sessions and the drops (R324, R325, R327): a half-open session is gone 10 s after its HELLO; a session reaches the
limit of its keys; 60 s later it closes; 5 s after a REKEY the old key is gone; and a datagram that fails checks 1 and 2 counts. -/
def Obligations.SessionTimers : Prop :=
  ∀ s : State,
    (∀ id, ∃ t, exec (.sessionOpenTimeout id) s = .next t ∧ Frame [.host] s t ∧
      ∀ y, y ∈ t.hw.host.sessions ↔ y ∈ s.hw.host.sessions ∧
        ¬ (y.id = id.toNat ∧ y.opened = false ∧ y.helloTb + 10000000000 ≤ s.hw.tb)) ∧
    (∀ id x, s.hw.session? id.toNat = some x → x.opened = true → x.limitTb = none →
        (2 ^ 40 ≤ x.rxCount ∨ 2 ^ 40 ≤ x.txCount ∨ x.keyTb + 86400000000000 ≤ s.hw.tb) →
      ∃ t, exec (.rekeyLimit id) s = .next t ∧ Frame [.host] s t ∧
        t.hw.session? id.toNat = some { x with limitTb := some s.hw.tb }) ∧
    (∀ id, ∃ t, exec (.rekeyCloseTimeout id) s = .next t ∧ Frame [.host] s t ∧
      ∀ y, y ∈ t.hw.host.sessions ↔ y ∈ s.hw.host.sessions ∧
        ¬ (y.id = id.toNat ∧ ∃ b, y.limitTb = some b ∧ b + 60000000000 ≤ s.hw.tb)) ∧
    (∀ id x, s.hw.session? id.toNat = some x → x.oldUntil ≤ s.hw.tb →
      ∃ t, exec (.oldKeyExpiry id) s = .next t ∧ Frame [.host] s t ∧
        t.hw.session? id.toNat = some { x with oldKeyIn := none }) ∧
    (∀ (peer : Peer) (bytes : List Byte), s.hw.flag Fd.PKG_BOARD_STATUS.AUX_PWROK = true → s.hw.inCut = false →
        (bytes.length < 64 ∨ bytes.length ≠ 48 + beNat ((bytes.drop 22).take 2) + 16 ∨ beNat (bytes.take 2) ≠ 0x5647) →
      ∃ t, exec (.ycpDrop peer bytes) s = .next t ∧ Frame [.regs] s t ∧ s.hw.RegsBut [Reg.EP_DROP_CNT peer.port.val] t.hw ∧
        t.hw.fld (Fd.EP_DROP_CNT.YCP peer.port.val) = min (s.hw.fld (Fd.EP_DROP_CNT.YCP peer.port.val) + 1) 0xFFFF)

/-! ## Registers (00_scope.md, 01_package.md) -/

/-- R494: an access at an address that is misaligned, outside the map or in a gap answers REG_ADDRESS and has no effect, whatever the
state of the unit that owns the range, and TARGET_RESET answers only for a register that the map defines, whose unit has no power or is
in reset. A block is checked whole, the map first. -/
def Obligations.RegisterAddressIsCheckedFirst : Prop :=
  (∀ a : Nat, a % 4 ≠ 0 ∨ 0x31000000 ≤ a → regFind a = none) ∧
    ∀ (hd : Hdr) (s : State) (x : Session), Admits s hd x → x.role ≠ .none →
      (∀ (c : Instr) (p0 p1 p2 : BitVec 32), (c = .regRead hd 0 p0 ∨ c = .regWrite hd 0 p0 p1 ∨ c = .regRmw hd 0 p0 p1 p2) →
        ((∀ l, s.hw.regCheck p0.toNat ≠ .ok l) ↔
          ∃ r st t, hostRow c = some r ∧ (st = 0x0104 ↔ regFind p0.toNat = none) ∧ (st = 0x0104 ∨ st = 0x0503) ∧
            s.hw.regCheck p0.toNat = .error st ∧ exec c s = .next t ∧ Frame [.host, .fw, .out] s t ∧
            Answered s t hd r.opcode [st] [])) ∧
      (∀ (p0 p1 : BitVec 32), 1 ≤ p1.toNat → p1.toNat ≤ 2048 →
        (∃ i < p1.toNat, ∀ l, s.hw.regCheck (p0.toNat + 4 * i) ≠ .ok l) →
        ∃ st t, exec (.regReadBlock hd 0 p0 p1) s = .next t ∧ Frame [.host, .fw, .out] s t ∧ Answered s t hd 0x0103 [st] [] ∧
          (st = 0x0104 ∨ st = 0x0503) ∧ (st = 0x0104 ↔ ∃ i < p1.toNat, regFind (p0.toNat + 4 * i) = none))

/-- *Register access types* (R10): what each bit holds after a write, by its type, and that every row of the map gives each bit one
type. -/
def Obligations.WriteFollowsAccessTypes : Prop :=
  (∀ (r : RegRow) (old v : W32) (i : Nat), i < 32 →
    (r.rw.testBit i = true → r.w1c.testBit i = false → r.w1s.testBit i = false → (r.written old v).getLsbD i = v.getLsbD i) ∧
    (r.rw.testBit i = false → r.w1c.testBit i = true → r.w1s.testBit i = false →
      (r.written old v).getLsbD i = (old.getLsbD i && !v.getLsbD i)) ∧
    (r.rw.testBit i = false → r.w1c.testBit i = false → r.w1s.testBit i = true →
      (r.written old v).getLsbD i = (old.getLsbD i || v.getLsbD i)) ∧
    (r.rw.testBit i = false → r.w1c.testBit i = false → r.w1s.testBit i = false →
      (r.written old v).getLsbD i = old.getLsbD i)) ∧
  ∀ b : Blk, ∀ r ∈ regRows b, r.rw &&& r.w1c = 0 ∧ r.rw &&& r.w1s = 0 ∧ r.w1c &&& r.w1s = 0 ∧
    (r.rw ||| r.w1c ||| r.w1s) &&& (r.wo ||| r.rc) = 0 ∧ r.wo &&& r.rc = 0

/-- The register commands of the host complete (R10, R333). On a register that is no view of other state: REG_READ answers what it
holds; REG_WRITE stores by the access types and changes no other register; REG_RMW answers the old value and writes (old and not mask) or
(value and mask); REG_READ_BLOCK answers the registers in ascending address order; a read of PKG_TIMEBASE_LO answers the low half of the
timebase and captures its high half for the session, and a captured half is what a read of it answers. -/
def Obligations.RegisterCommandsComplete : Prop :=
  ∀ (hd : Hdr) (s : State) (x : Session), Admits s hd x → x.role ≠ .none →
    (∀ (p0 : BitVec 32) (l : RegLoc), ReadsPlain s x p0.toNat l →
      ∃ t, exec (.regRead hd 0 p0) s = .next t ∧ Frame [.host, .fw, .out] s t ∧
        Answered s t hd 0x0100 [0, (s.hw.reg (canonReg p0.toNat l)).toNat] []) ∧
    (∀ (p0 p1 : BitVec 32) (l : RegLoc), s.hw.regCheck p0.toNat = .ok l →
        (∀ h : Hw, h.ownWrite s.fuses x.role p0.toNat l p1.toNat = none) →
      ∃ t, exec (.regWrite hd 0 p0 p1) s = .next t ∧ Frame [.regs, .host, .fw, .out] s t ∧
        s.hw.RegsBut [canonReg p0.toNat l] t.hw ∧
        t.hw.reg (canonReg p0.toNat l) = l.row.written (s.hw.reg (canonReg p0.toNat l)) p1 ∧ Answered s t hd 0x0101 [0] []) ∧
    (∀ (p0 p1 p2 : BitVec 32) (l : RegLoc), ReadsPlain s x p0.toNat l →
        (∀ (h : Hw) (v : Nat), h.ownWrite s.fuses x.role p0.toNat l v = none) →
      ∃ t, exec (.regRmw hd 0 p0 p1 p2) s = .next t ∧ Frame [.regs, .host, .fw, .out] s t ∧
        s.hw.RegsBut [canonReg p0.toNat l] t.hw ∧
        t.hw.reg (canonReg p0.toNat l) = l.row.written (s.hw.reg (canonReg p0.toNat l))
          ((s.hw.reg (canonReg p0.toNat l) &&& ~~~p1) ||| (p2 &&& p1)) ∧
        Answered s t hd 0x0102 [0, (s.hw.reg (canonReg p0.toNat l)).toNat] []) ∧
    (∀ (p0 p1 : BitVec 32) (ls : Nat → RegLoc), 1 ≤ p1.toNat → p1.toNat ≤ 2048 →
        (∀ i < p1.toNat, ReadsPlain s x (p0.toNat + 4 * i) (ls i)) →
      ∃ t, exec (.regReadBlock hd 0 p0 p1) s = .next t ∧ Frame [.host, .fw, .out] s t ∧
        Answered s t hd 0x0103 [0] ((List.range p1.toNat).flatMap (fun i =>
          beBytes 4 (s.hw.reg (canonReg (p0.toNat + 4 * i) (ls i))).toNat))) ∧
    (Tab.find? x.captured Reg.PKG_TIMEBASE_LO = none →
      ∃ t, exec (.regRead hd 0 (BitVec.ofNat 32 Reg.PKG_TIMEBASE_LO)) s = .next t ∧ Frame [.host, .fw, .out] s t ∧
        Answered s t hd 0x0100 [0, s.hw.tb % 2 ^ 32] [] ∧
        ∃ y, t.hw.session? hd.session.toNat = some y ∧ Tab.find? y.captured Reg.PKG_TIMEBASE_HI = some (s.hw.tb / 2 ^ 32 % 2 ^ 32)) ∧
    (∀ v, Tab.find? x.captured Reg.PKG_TIMEBASE_HI = some v →
      ∃ t, exec (.regRead hd 0 (BitVec.ofNat 32 Reg.PKG_TIMEBASE_HI)) s = .next t ∧ Frame [.host, .fw, .out] s t ∧
        Answered s t hd 0x0100 [0, v] [])

/-- Register writes with an effect of their own, as rows: PARTITION_WRITE (R202), INSTALLATION_MAP_WRITE (R263), TIME_SOURCE_SELECT (R31,
R32), CLEAR_UNIT (R391), READ_CAPTURE and REGISTER_WRITE (R10). -/
def Obligations.RegisterEventsComplete : Prop :=
  ∀ s : State, s.hw.served = true →
    (∀ (p : Fin 16) (hi : Bool) (v : W32) (f : Nat → Fld) (bad : Nat → Prop),
        (∀ q, f q = if hi then Fd.PLU_PART_HI.MEMBER q else Fd.PLU_PART_LO.MEMBER q) →
        (∀ i, bad i ↔
          (bitAt (s.hw.fld (f p)) i = true ∧ v.getLsbD i = false ∧ s.hw.holder ((if hi then 32 else 0) + i) ≠ none) ∨
          (bitAt (s.hw.fld (f p)) i = false ∧ v.getLsbD i = true ∧ ∃ q : Fin 16, q ≠ p ∧ bitAt (s.hw.fld (f q)) i = true)) →
      ∃ t, exec (.partitionWrite p hi v) s = .next t ∧ Frame [.regs] s t ∧
        ((∃ i < 32, bad i) → t.hw.flag Fd.PLU_STATUS.PART_REJECT = true ∧ s.hw.RegsBut [Reg.PLU_STATUS] t.hw) ∧
        ((∀ i < 32, ¬ bad i) → t.hw.reg (f p).addr = v ∧ s.hw.RegsBut [(f p).addr] t.hw)) ∧
    (∀ (a : BitVec 32) (v : W32) (l : RegLoc), regFind a.toNat = some l → isMapReg l = true →
      ∃ t, exec (.installationMapWrite a v) s = .next t ∧
        ((∃ n < 24, s.hw.flag (Fd.FL_CTRL.EN n) = true) → Frame [.regs] s t ∧ s.hw.RegsBut [Reg.FR_STATUS] t.hw ∧
          t.hw.flag Fd.FR_STATUS.CFG_REJECT = true) ∧
        ((∀ n < 24, s.hw.flag (Fd.FL_CTRL.EN n) = false) → Frame [.regs, .nv] s t ∧ s.hw.RegsBut [canonReg a.toNat l] t.hw ∧
          t.hw.reg (canonReg a.toNat l) = l.row.written (s.hw.reg (canonReg a.toNat l)) v ∧
          Tab.find? t.hw.nv (canonReg a.toNat l) = some (l.row.written (s.hw.reg (canonReg a.toNat l)) v))) ∧
    (∀ src : Fin 4, ∃ t, exec (.timeSourceSelect src) s = .next t ∧ Frame [.regs, .slew, .eth] s t ∧
      t.hw.fld Fd.PKG_TIME_CTRL.SRC = src ∧ t.hw.flag Fd.PKG_TIME_STATUS.LOCKED = false ∧
      t.hw.flag Fd.PKG_TIME_STATUS.STEPPED = s.hw.flag Fd.PKG_TIME_STATUS.STEPPED ∧
      t.hw.flag Fd.PKG_TIME_STATUS.SRC_LOST = s.hw.flag Fd.PKG_TIME_STATUS.SRC_LOST) ∧
    (∀ (session : BitVec 32) (x : Session) (p : Nat), s.hw.session? session.toNat = some x → x.opened = true → x.role = .vendor →
        s.hw.fhSelected = some p →
      ∃ t, exec (.clearUnit session) s = .next t ∧ Frame [.regs, .logs, .out, .host, .hist] s t ∧ t.hw.unitState p = 0 ∧
        ∃ e, t.hw.hist.ents.head? = some e ∧ e.punit = p ∧ e.event = 0xB ∧ e.state = 0 ∧ e.tb = s.hw.tb) ∧
    (∀ (session a : BitVec 32) (x : Session) (l : RegLoc), s.hw.session? session.toNat = some x → s.hw.regCheck a.toNat = .ok l →
        isLow a.toNat = true →
      ∃ t, exec (.readCapture session a) s = .next t ∧ Frame [.host] s t ∧
        ∃ y, t.hw.session? session.toNat = some y ∧ Tab.find? y.captured (a.toNat + 4) = some (s.hw.highHalf (a.toNat + 4))) ∧
    (∀ (a : BitVec 32) (v : W32) (l : RegLoc), s.hw.regCheck a.toNat = .ok l → s.hw.ownWrite s.fuses .none a.toNat l v.toNat = none →
      ∃ t, exec (.registerWrite a v) s = .next t ∧ Frame [.regs] s t ∧ s.hw.RegsBut [canonReg a.toNat l] t.hw ∧
        t.hw.reg (canonReg a.toNat l) = l.row.written (s.hw.reg (canonReg a.toNat l)) v)

/-! ## The board interface (21_board_interface.md) -/

/-- The I3C target (R479, R481): each common command, the drop of MCTP messages of other types (R480), and the NACKs: of every
unsupported command, of a command to an address that the target does not have, and of everything while no complex holds AUTH or
auxiliary power is missing. -/
def Obligations.I3cTargetAnswers : Prop :=
  (∀ s : State, ∃ n : State, n = (s.say ([.i3cNack])) ∧ exec .i3cUnsupported s = .next n ∧
    (¬ PortReady s → ∀ c, directCommand c = true → exec c s = .next n) ∧
    (s.hw.flag Fd.PKG_BOARD_STATUS.AUX_PWROK = false ∨ s.hw.flag Fd.CPX_AUTH.HELD = false →
      (∀ a, exec (.entdaa a) s = .next n) ∧ exec .rstdaa s = .next n ∧
      (∀ m, exec (.enec m) s = .next n ∧ exec (.disec m) s = .next n) ∧
      ∀ l, exec (.setmwl l) s = .next n ∧ exec (.setmrl l) s = .next n)) ∧
  ∀ s : State, s.hw.flag Fd.PKG_BOARD_STATUS.AUX_PWROK = true → s.hw.flag Fd.CPX_AUTH.HELD = true →
    ∃ pid : List Byte, pid.length = 6 ∧ beNat pid / 2 ^ 16 % 2 ^ 16 = 0x0E09 ∧
      beNat pid % 64 = s.hw.fld Fd.PKG_BOARD_STATUS.SLOT_ID ∧
    (∀ a, s.hw.board.addr = none → exec (.entdaa a) s = .next (s.boardSay { s.hw.board with addr := some a.toNat } ([.i3c (pid ++
        [Config.i3cBcr, Config.i3cDcr])]))) ∧
    (exec .rstdaa s = .next (s.boardSay { s.hw.board with addr := none } [])) ∧
    (∀ m : Byte, ∃ e, exec (.enec m) s = .next (s.boardSay { s.hw.board with events := e } []) ∧
      ∀ i < 8, e.testBit i = (s.hw.board.events.testBit i || m.getLsbD i)) ∧
    (∀ m : Byte, ∃ e, exec (.disec m) s = .next (s.boardSay { s.hw.board with events := e } []) ∧
      ∀ i < 8, e.testBit i = (s.hw.board.events.testBit i && !m.getLsbD i)) ∧
    (∀ l, exec (.setmwl l) s = .next (s.boardSay { s.hw.board with mwl := l.toNat } [])) ∧
    (∀ l, exec (.setmrl l) s = .next (s.boardSay { s.hw.board with mrl := l.toNat } [])) ∧
    (s.hw.board.addr.isSome = true →
      (∀ a, exec (.setnewda a) s = .next (s.boardSay { s.hw.board with addr := some a.toNat } [])) ∧
      exec .getpid s = .next (s.say ([.i3c pid])) ∧
      exec .getbcr s = .next (s.say ([.i3c [Config.i3cBcr]])) ∧
      exec .getdcr s = .next (s.say ([.i3c [Config.i3cDcr]])) ∧
      (∃ bs : List Byte, bs.length = 2 ∧
        exec .getstatus s = .next { s with hw := { s.hw with free := s.hw.free + 1, out := s.hw.out ++ [.i3c bs] } }) ∧
      exec .getmwl s = .next (s.say ([.i3c (beBytes 2 s.hw.board.mwl)])) ∧
      exec .getmrl s = .next (s.say ([.i3c (beBytes 2 s.hw.board.mrl)])) ∧
      ∀ t, exec (.mctpDrop t) s = .next s)

/-- MCTP control and PLDM base (R480): what each request of a ready target is answered and what it changes. Versions, the UUID and the
layout of messages are free (assumption 22). -/
def Obligations.MctpControlAndPldmBaseAnswer : Prop :=
  ∀ (s : State) (r : MsgRef), PortReady s →
    (∀ (op : BitVec 2) (eid : Byte), op.toNat < 2 → 8 ≤ eid.toNat → eid.toNat < 255 →
      exec (.setEndpointId r op eid) s =
          .next (s.boardSay { s.hw.board with eid := eid.toNat } (mctpOut { s.hw.board with eid := eid.toNat } r.src.toNat [0,
          BitVec.ofNat 8 r.iid.toNat, 1, 0, 0, eid, 0]))) ∧
    (∀ (op : BitVec 2) (eid : Byte), ¬ (op.toNat < 2 ∧ 8 ≤ eid.toNat ∧ eid.toNat < 255) →
      exec (.setEndpointId r op eid) s = .next (s.say (mctpOut s.hw.board r.src.toNat [0, BitVec.ofNat 8 r.iid.toNat, 1, 2]))) ∧
    (exec (.getEndpointId r) s = .next (s.say (mctpOut s.hw.board r.src.toNat [0, BitVec.ofNat 8 r.iid.toNat, 2, 0,
        BitVec.ofNat 8 s.hw.board.eid, 0, 0]))) ∧
    (∀ ty : Byte, ∃ data : List Byte, exec (.getMctpVersionSupport r ty) s = .next (s.say (mctpOut s.hw.board r.src.toNat ([0,
        BitVec.ofNat 8 r.iid.toNat, 4] ++ data))) ∧
      ((ty = 0 ∨ ty = 1 ∨ ty = 255) → data.head? = some 0 ∧ data.length = 6) ∧
      (¬ (ty = 0 ∨ ty = 1 ∨ ty = 255) → data = [0x80])) ∧
    (exec (.getMessageTypeSupport r) s = .next (s.say (mctpOut s.hw.board r.src.toNat [0, BitVec.ofNat 8 r.iid.toNat, 5, 0, 1, 1]))) ∧
    (exec (.getEndpointUuid r) s = .next (s.say (mctpOut s.hw.board r.src.toNat ([0, BitVec.ofNat 8 r.iid.toNat, 3, 0] ++
        beBytes 16 Config.endpointUuid.toNat)))) ∧
    (exec (.getTid r) s = .next (s.say (pldmOut s.hw.board r 0 2 0 [BitVec.ofNat 8 s.hw.board.tid]))) ∧
    (∀ tid : Byte, tid ≠ 0 → tid ≠ 255 → exec (.setTid r tid) s =
        .next (s.boardSay { s.hw.board with tid := tid.toNat } (pldmOut s.hw.board r 0 1 0 []))) ∧
    (∀ tid : Byte, tid = 0 ∨ tid = 255 → exec (.setTid r tid) s = .next (s.say (pldmOut s.hw.board r 0 1 2 []))) ∧
    (∀ ty : Byte, ∃ (code : Nat) (data : List Byte), exec (.getPldmVersion r ty) s =
        .next (s.say (pldmOut s.hw.board r 0 3 code data)) ∧
      ((ty = 0 ∨ ty = 2) → code = 0 ∧ data.length = 13) ∧ (¬ (ty = 0 ∨ ty = 2) → code = 0x83 ∧ data = [])) ∧
    (exec (.getPldmTypes r) s = .next (s.say (pldmOut s.hw.board r 0 4 0 [5, 0, 0, 0, 0, 0, 0, 0]))) ∧
    (∀ ty : Byte, ty = 0 ∨ ty = 2 → ∃ data : List Byte, data.length = 32 ∧
      exec (.getPldmCommands r ty) s = .next (s.say (pldmOut s.hw.board r 0 5 0 data)) ∧
      ∀ i < 256, (leNat data).testBit i = true ↔
        i ∈ (if ty = 0 then [1, 2, 3, 4, 5] else [0x04, 0x11, 0x21, 0x31, 0x32, 0x39, 0x3A, 0x50, 0x51])) ∧
    (∀ ty : Byte, ¬ (ty = 0 ∨ ty = 2) → exec (.getPldmCommands r ty) s = .next (s.say (pldmOut s.hw.board r 0 5 0x83 []))) ∧
    ∀ (ty : BitVec 6) (cmd : Byte),
      cmd.toNat ∉ (if ty = 0 then [1, 2, 3, 4, 5] else if ty = 2 then [0x04, 0x11, 0x21, 0x31, 0x32, 0x39, 0x3A, 0x50,
          0x51] else []) →
      exec (.errorUnsupportedPldmCmd r ty cmd) s = .next (s.say (pldmOut s.hw.board r ty.toNat cmd.toNat 5 []))

/-- PLDM sensors and descriptor records (*PLDM repository*): the numeric sensors answer the package's power, coolant temperatures,
    flow,
hottest die and hottest stack; the state sensors answer the state of cooling, leak loop and thermal trip, whose rows of the table the
last clauses say; an item that the repository does not hold is answered so; GetPDR answers a record or the part asked for. -/
def Obligations.PldmSensorsAnswer : Prop :=
  ∀ (s : State) (r : MsgRef), PortReady s →
    (∀ q ∈ [(1, Fd.PWR_STATUS.POWER_W), (2, Fd.THM_COOLANT.INLET_C), (3, Fd.THM_COOLANT.OUTLET_C), (4, Fd.THM_FLOW.FLOW),
        (5, Fd.THM_STATUS.HOT_C)],
      exec (.getSensorReading r (BitVec.ofNat 16 q.1)) s = .next (s.say (pldmOut s.hw.board r 2 0x11 0 ([2, 0, 0, 1, 1, 1] ++
          leBytes 2 (s.hw.fld q.2))))) ∧
    (∀ i < 16, ∀ v : Int, s.hw.hbmTemp i = some v → (∀ j < 16, ∀ u, s.hw.hbmTemp j = some u → u ≤ v) →
      exec (.getSensorReading r 6) s = .next (s.say (pldmOut s.hw.board r 2 0x11 0 ([2, 0, 0, 1, 1, 1] ++
          leBytes 2 (v % 2 ^ 16).toNat)))) ∧
    (∀ id : BitVec 16, id = 0 ∨ 6 < id.toNat → exec (.getSensorReading r id) s =
        .next (s.say (pldmOut s.hw.board r 2 0x11 0x80 []))) ∧
    (∀ n, 10 ≤ n → n ≤ 12 → exec (.getStateSensorReadings r (BitVec.ofNat 16 n)) s = .next (s.say (pldmOut s.hw.board r 2 0x21 0 ([1,
        0] ++ leBytes 1 (s.hw.stateSensor n) ++ leBytes 1 (s.hw.board.prevs.getD n 1) ++ leBytes 1 (s.hw.stateSensor n))))) ∧
    (∀ id : BitVec 16, id.toNat < 10 ∨ 12 < id.toNat → exec (.getStateSensorReadings r id) s =
        .next (s.say (pldmOut s.hw.board r 2 0x21 0x80 []))) ∧
    (s.hw.stateSensor 10 = 5 ↔ s.hw.flag Fd.THM_STATUS.GATE = true) ∧
    (s.hw.stateSensor 10 = 1 ↔ s.hw.flag Fd.THM_STATUS.GATE = false ∧ s.hw.flag Fd.THM_STATUS.COOL_CRIT = false ∧
      s.hw.flag Fd.THM_STATUS.PROT_DEGRADED = false ∧ s.hw.flag Fd.THM_STATUS.COOL_WARN = false) ∧
    (∀ q ∈ [(0, 1), (1, 4), (2, 2), (3, 3), (4, 5)], s.hw.fld Fd.PKG_LEAK.STATE = q.1 → s.hw.stateSensor 11 = q.2) ∧
    (s.hw.stateSensor 12 = 2 ↔ s.hw.flag Fd.THM_STATUS.TRIP = true) ∧
    (exec (.getPdrRepositoryInfo r) s = .next (s.say (pldmOut s.hw.board r 2 0x50 0 (leBytes 40 Config.pdrInfo.toNat)))) ∧
    (∀ (h : Nat) (count : BitVec 16), 1 ≤ h → h ≤ 12 → (Config.pdr h).length ≤ count.toNat →
      exec (.getPdr r (BitVec.ofNat 32 h) 0 count) s =
          .next (s.say (pldmOut s.hw.board r 2 0x51 0 (leBytes 4 (if h < 12 then h + 1 else 0) ++ leBytes 4 0 ++ [5] ++
          leBytes 2 (Config.pdr h).length ++ Config.pdr h)))) ∧
    ∀ (h off : BitVec 32) (count : BitVec 16), 12 < h.toNat → exec (.getPdr r h off count) s =
        .next (s.say (pldmOut s.hw.board r 2 0x51 0x82 []))

/-- PLDM effecters and events (R403, R406, R481): the board cap, the board's hold of main power and the locate light, each with its
reading; values out of range change nothing; SetEventReceiver; and the events that wait for their acknowledgement. -/
def Obligations.PldmEffectersAndEvents : Prop :=
  ∀ (s : State) (r : MsgRef), PortReady s →
    (∀ v : BitVec 32, v = 0 ∨ (1500 ≤ v.toNat ∧ v.toNat ≤ 4800) →
      ∃ t w, w = (if v = 0 then 4800 else v.toNat) ∧ exec (.setNumericEffecterValue r 20 v) s = .next t ∧
        Frame [.regs, .logs, .out, .host] s t ∧ s.hw.RegsBut [Reg.PWR_BOARD, Reg.PWR_CAP, Reg.CTR_LOG_STATUS] t.hw ∧
        t.hw.fld Fd.PWR_BOARD.BOARD_CAP_W = w ∧ t.hw.fld Fd.PWR_CAP.HOST_CAP_W = s.hw.fld Fd.PWR_CAP.HOST_CAP_W ∧
        t.hw.fld Fd.PWR_CAP.EFF_CAP_W = min (s.hw.fld Fd.PWR_CAP.HOST_CAP_W) (min w (s.hw.fld Fd.PWR_BOARD.INTERNAL_W)) ∧
        ∃ pre, t.hw.out = s.hw.out ++ pre ++ pldmOut s.hw.board r 2 0x31 0 []) ∧
    (∀ v : BitVec 32, ¬ (v = 0 ∨ (1500 ≤ v.toNat ∧ v.toNat ≤ 4800)) →
      exec (.setNumericEffecterValue r 20 v) s = .next (s.say (pldmOut s.hw.board r 2 0x31 2 []))) ∧
    (exec (.getNumericEffecterValue r 20) s = .next (s.say (pldmOut s.hw.board r 2 0x32 0 ([2, 1] ++
        leBytes 2 (s.hw.fld Fd.PWR_BOARD.BOARD_CAP_W) ++ leBytes 2 (s.hw.fld Fd.PWR_BOARD.BOARD_CAP_W))))) ∧
    (∀ v : Byte, v = 1 ∨ v = 2 → ∃ t, exec (.setStateEffecterStates r 22 v) s = .next t ∧ Frame [.regs, .out] s t ∧
      s.hw.RegsBut [Reg.PKG_LED_CTRL] t.hw ∧ t.hw.flag Fd.PKG_LED_CTRL.LOCATE = (v == 2) ∧
      t.hw.out = s.hw.out ++ pldmOut s.hw.board r 2 0x39 0 []) ∧
    (∃ t, exec (.setStateEffecterStates r 21 1) s = .next t ∧ t.pending = s.pending ∧ t.fuses = s.fuses ∧
      t.hw.flag Fd.PWR_STATUS.OFF_BOARD = true ∧ t.hw.flag Fd.PKG_BOARD_STATUS.MAIN_EN = false ∧
      t.hw.flag Fd.PKG_BOARD_STATUS.HBM_EN = false ∧ Sent s t ((pldmOut s.hw.board r 2 0x39 0 []).getLastD .i3cNack)) ∧
    (∃ t, exec (.setStateEffecterStates r 21 2) s = .next t ∧ Frame [.regs, .logs, .out, .host] s t ∧
      s.hw.RegsBut [Reg.PWR_STATUS, Reg.CTR_LOG_STATUS] t.hw ∧ t.hw.flag Fd.PWR_STATUS.OFF_BOARD = false ∧
      t.hw.flag Fd.PWR_STATUS.OFF_HOST = s.hw.flag Fd.PWR_STATUS.OFF_HOST ∧
      Sent s t ((pldmOut s.hw.board r 2 0x39 0 []).getLastD .i3cNack)) ∧
    (∀ (id : BitVec 16) (v : Byte), (id = 21 ∨ id = 22) → v ≠ 1 → v ≠ 2 →
      exec (.setStateEffecterStates r id v) s = .next (s.say (pldmOut s.hw.board r 2 0x39 2 []))) ∧
    (exec (.getStateEffecterStates r 21) s =
        .next (s.say (pldmOut s.hw.board r 2 0x3A 0 (if s.hw.flag Fd.PWR_STATUS.OFF_BOARD then [1, 1, 1, 1] else [1, 1, 2, 2])))) ∧
    (exec (.getStateEffecterStates r 22) s = .next (s.say (pldmOut s.hw.board r 2 0x3A 0 (if s.hw.flag Fd.PKG_LED_CTRL.LOCATE then [1,
        1, 2, 2] else [1, 1, 1, 1])))) ∧
    (∀ mode eid : Byte, mode = 1 ∨ mode = 3 → exec (.setEventReceiver r mode eid) s =
        .next (s.boardSay { s.hw.board with recv := some eid.toNat } (pldmOut s.hw.board r 2 4 0 []))) ∧
    (∀ eid : Byte, ∃ t, exec (.setEventReceiver r 0 eid) s = .next t ∧ Frame [.regs, .thm, .board, .out] s t ∧
      t.hw.board.recv = none ∧ t.hw.board.evts = []) ∧
    (∃ t, exec .platformEventRepeat s = .next t ∧ Frame [.board, .out] s t ∧
      t.hw.board.evts = s.hw.board.evts.map (fun e => if e.sentTb + 1000000000 ≤ s.hw.tb then { e with sentTb := s.hw.tb } else e) ∧
      ∀ dst, s.hw.board.recv = some dst → ∃ l, t.hw.out = s.hw.out ++ l ∧ (l.filter (fun o => o matches .mctp _)).length =
        (s.hw.board.evts.filter (fun e => decide (e.sentTb + 1000000000 ≤ s.hw.tb))).length) ∧
    ∀ (e : PlatEvt) (pre post : List PlatEvt), s.hw.board.evts = pre ++ e :: post →
      (∀ f ∈ pre, f.id % 32 ≠ e.id % 32) →
      ∃ t l, exec (.platformEventAck (BitVec.ofNat 5 e.id)) s = .next t ∧ Frame [.regs, .thm, .board, .out] s t ∧
        t.hw.board.evts = pre ++ post ++ l ∧ (l ≠ [] → s.hw.board.recv.isSome = true)

/-- Reference clocks and the leak loop (R478, R483). The loss of a clock sets its bit of CLK_LOST,
    which its return leaves; the loss of
a fabric clock takes the hub's links down, of an Ethernet clock the plane's ports, of the HBM or auxiliary clock neither. A reading of
the leak loop stands in OHMS; the third in a row in a new band changes STATE. -/
def Obligations.ClocksAndLeakLoop : Prop :=
  (∀ (s : State) (i : Fin 6), s.hw.flag Fd.PKG_BOARD_STATUS.AUX_PWROK = true → i.val ∉ s.hw.board.clkOut →
    ∃ t, exec (.refclkLoss i) s = .next t ∧
      Frame [.regs, .slew, .links, .host, .eth, .board, .logs, .out] s t ∧
      bitAt (t.hw.fld Fd.PKG_BOARD_STATUS.CLK_LOST) i.val = true ∧ i.val ∈ t.hw.board.clkOut ∧
      (∀ j < 6, j ≠ i.val → bitAt (t.hw.fld Fd.PKG_BOARD_STATUS.CLK_LOST) j = bitAt (s.hw.fld Fd.PKG_BOARD_STATUS.CLK_LOST) j) ∧
      (i.val < 2 → ∀ j < 12, t.hw.isUp (12 * i.val + j) = false) ∧
      (2 ≤ i.val → i.val < 4 → ∀ j < 4, t.hw.portUp (4 * (i.val - 2) + j) = false) ∧
      (4 ≤ i.val → ∀ n < 24, t.hw.isUp n = s.hw.isUp n) ∧ (i.val < 2 ∨ 4 ≤ i.val → ∀ p < 8, t.hw.portUp p = s.hw.portUp p)) ∧
  (∀ (s : State) (i : Fin 6), exec (.refclkReturn i) s = .next { s with hw := { s.hw with board := { s.hw.board with
    clkOut := s.hw.board.clkOut.filter (fun j => j != i.val) } } }) ∧
  (∀ (s : State) (ohms : Option Nat) (b : Nat), s.hw.flag Fd.PKG_BOARD_STATUS.AUX_PWROK = true →
    s.hw.board.leakTb + 100000000 ≤ s.hw.tb →
    b = (match ohms with
      | none => 4
      | some x => if x < 200 then 1 else if x < 1000 then 2 else if x ≤ 5000 then 0 else if x ≤ 20000 then 3 else 4) →
    ∃ t, exec (.leakLoopMeasure ohms) s = .next t ∧ Frame [.regs, .ctxs, .clus, .pwr, .thm, .host, .board, .logs, .out] s t ∧
      t.hw.fld Fd.PKG_LEAK.OHMS = min 0xFFFFF (ohms.getD 0xFFFFF) ∧ t.hw.board.leakTb = s.hw.tb ∧ t.hw.board.leakBand = b ∧
      t.hw.board.leakRun = (if b = s.hw.board.leakBand then s.hw.board.leakRun + 1 else 1) ∧
      t.hw.fld Fd.PKG_LEAK.STATE =
        (if b = s.hw.board.leakBand ∧ 2 ≤ s.hw.board.leakRun then b else s.hw.fld Fd.PKG_LEAK.STATE)) ∧
  ∀ s : State,
    (s.hw.flag Fd.PKG_BOARD_STATUS.AUX_PWROK = false → s.hw.led s.fuses = some .off) ∧
    (s.hw.flag Fd.PKG_BOARD_STATUS.AUX_PWROK = true → s.hw.flag Fd.PKG_BOARD_STATUS.THERMTRIP = true ∨
        s.hw.fld Fd.PKG_LEAK.STATE = 1 →
      s.hw.led s.fuses = some .amberFast) ∧
    (s.hw.led s.fuses = some .green → s.hw.flag Fd.HUB_BRINGUP_STATUS.READY = true ∧
      s.hw.flag Fd.HUB_BRINGUP_STATUS.COMPUTE = true ∧ s.hw.flag Fd.PWR_STATUS.OFF_HOST = false ∧
      s.hw.flag Fd.PWR_STATUS.OFF_BOARD = false)

/-! ## Ethernet ports and time (13_host_protocol.md) -/

/-- The Ethernet subset (R316): a port that is up answers ARP, echo requests and neighbour solicitations for its addresses and nothing
else, honours PFC on the priorities of PFC_MASK, and counts the frames it drops; its link comes up and goes down. On a port that is down
no frame has an effect. -/
def Obligations.EthernetPortsAnswer : Prop :=
  ∀ (s : State) (p : Fin 8),
    (s.hw.portUp p.val = true →
      (∀ (src : Peer) (a : BitVec 32), a ≠ 0 → s.hw.fld (Fd.EP_IPV4.ADDR p.val) = a.toNat →
        exec (.arp p src a) s = .next (s.say [.frame p.val 1 src (beBytes 6 (macOf p.val) ++ beBytes 4 a.toNat)])) ∧
      (∀ (src : Peer) (a : BitVec 32), a = 0 ∨ s.hw.fld (Fd.EP_IPV4.ADDR p.val) ≠ a.toNat → exec (.arp p src a) s = .next s) ∧
      (∀ (src : Peer) (v6 : Bool) (dst : BitVec 128) (body : List Byte),
        (if v6 then s.hw.isIpv6 p.val dst.toNat else s.hw.isIpv4 p.val dst.toNat) = true →
        exec (.icmpEcho p src v6 dst body) s = .next (s.say [.frame p.val 2 src body])) ∧
      (∀ (src : Peer) (dst : BitVec 128), s.hw.isIpv6 p.val dst.toNat = true →
        exec (.neighbourDiscovery p src true dst) s =
          .next (s.say [.frame p.val 3 src (beBytes 6 (macOf p.val) ++ beBytes 16 dst.toNat)])) ∧
      (∀ (src : Peer) (dst : BitVec 128), exec (.neighbourDiscovery p src false dst) s = .next s) ∧
      (∀ (mask : Byte) (quanta : BitVec 16), ∃ t, exec (.pfcPause p mask quanta) s = .next t ∧ Frame [.eth] s t ∧
        ∀ k, Tab.getD t.hw.eth.pause k 0 = (if k / 8 = p.val ∧ mask.getLsbD (k % 8) = true ∧
            bitAt (s.hw.fld (Fd.EP_CFG.PFC_MASK p.val)) (k % 8) = true then s.hw.tb + quanta.toNat * 512 / 100
          else Tab.getD s.hw.eth.pause k 0)) ∧
      (∃ t, exec (.frameDrop p) s = .next t ∧ Frame [.regs] s t ∧ s.hw.RegsBut [Reg.EP_DROP_CNT p.val] t.hw ∧
        t.hw.fld (Fd.EP_DROP_CNT.FRAME p.val) = min (s.hw.fld (Fd.EP_DROP_CNT.FRAME p.val) + 1) 0xFFFF) ∧
      (∃ t, exec (.epLinkDown p) s = .next t ∧ Frame [.regs, .host, .eth, .logs, .out] s t ∧ t.hw.portUp p.val = false ∧
        ∀ q < 8, q ≠ p.val → t.hw.portUp q = s.hw.portUp q)) ∧
    (s.hw.portUp p.val = false →
      (∀ (src : Peer) (a : BitVec 32), exec (.arp p src a) s = .next s) ∧
      (∀ src v6 dst body, exec (.icmpEcho p src v6 dst body) s = .next s) ∧
      (∀ src sol dst, exec (.neighbourDiscovery p src sol dst) s = .next s) ∧
      (∀ mask quanta, exec (.pfcPause p mask quanta) s = .next s) ∧ exec (.frameDrop p) s = .next s ∧
      (s.hw.flag Fd.PKG_BOARD_STATUS.AUX_PWROK = true → ∃ t, exec (.epLinkUp p) s = .next t ∧
        Frame [.regs, .host, .eth, .logs, .out] s t ∧ t.hw.portUp p.val = true ∧
        ∀ q < 8, q ≠ p.val → t.hw.portUp q = s.hw.portUp q))

/-- PTP (R31, R32, R321): an Announce on an UP port of the port's domain enters the choice of a time transmitter, which is the best of
those heard on the UP ports of the selected plane; a usable Sync of the chosen one, of one step or with its Follow_Up, asks for a
Delay_Resp, which corrects the timebase: more than 1 ms forward in one step that sets STEPPED, otherwise by slewing; messages of any
other transmitter have no effect; and 3 s without a usable Sync set SRC_LOST. -/
def Obligations.PtpDisciplinesTimebase : Prop :=
  ∀ (s : State) (p : Fin 8) (dom : Byte) (ident : BitVec 64),
    (s.hw.portUp p.val = true → s.hw.fld (Fd.EP_CFG.PTP_DOMAIN p.val) = dom.toNat →
      (∀ rank : BitVec 128, ∃ t, exec (.ptpAnnounce p dom ident rank) s = .next t ∧ Frame [.regs, .eth] s t ∧
        (∀ e, e ∈ t.hw.eth.heard ↔ e = (p.val, ident.toNat, rank.toNat) ∨
          (e ∈ s.hw.eth.heard ∧ ¬ (e.1 = p.val ∧ e.2.1 = ident.toNat))) ∧
        (∀ pl < 2, s.hw.fld Fd.PKG_TIME_CTRL.SRC = pl + 1 →
          (∃ e ∈ t.hw.eth.heard, e.1 / 4 = pl ∧ s.hw.portUp e.1 = true) →
          ∃ c ∈ t.hw.eth.heard, t.hw.eth.chosen = some (c.1, c.2.1) ∧ c.1 / 4 = pl ∧ s.hw.portUp c.1 = true ∧
            ∀ e ∈ t.hw.eth.heard, e.1 / 4 = pl → s.hw.portUp e.1 = true → c.2.2 ≤ e.2.2) ∧
        (∀ q < 8, t.hw.flag (Fd.EP_STATUS.PTP_SEL q) = decide (t.hw.eth.chosen.map Prod.fst = some q)) ∧
        t.hw.flag Fd.PKG_TIME_STATUS.SRC_LOST = s.hw.flag Fd.PKG_TIME_STATUS.SRC_LOST) ∧
      (s.hw.eth.chosen = some (p.val, ident.toNat) →
        (∀ t1 : BitVec 64, ∃ t, exec (.ptpSync p dom ident (some t1)) s = .next t ∧ Frame [.eth, .out] s t ∧
          t.hw.eth.sync = some (some t1.toNat, s.hw.tb) ∧ t.hw.eth.reqTb = some s.hw.tb ∧
          Tab.getD t.hw.eth.syncTb (p.val / 4) 0 = s.hw.tb ∧ t.hw.out = s.hw.out ++ [.frame p.val 4 ⟨0, 319, p⟩ []]) ∧
        (∃ t, exec (.ptpSync p dom ident none) s = .next t ∧ Frame [.eth] s t ∧ t.hw.eth.sync = some (none, s.hw.tb)) ∧
        (∀ (t1 : BitVec 64) (t2 : Nat), s.hw.eth.sync = some (none, t2) →
          ∃ t, exec (.ptpFollowUp p dom ident t1) s = .next t ∧ Frame [.eth, .out] s t ∧
            t.hw.eth.sync = some (some t1.toNat, t2) ∧ t.hw.eth.reqTb = some s.hw.tb ∧
            t.hw.out = s.hw.out ++ [.frame p.val 4 ⟨0, 319, p⟩ []]) ∧
        (∀ (t4 : BitVec 64) (t1 t2 t3 : Nat) (off : Int), s.hw.eth.sync = some (some t1, t2) → s.hw.eth.reqTb = some t3 →
          2 * off = ((t1 : Int) - t2) + ((t4.toNat : Int) - t3) →
          ∃ t, exec (.ptpDelayResp p dom ident t4) s = .next t ∧ Frame [.regs, .tb, .slew, .eth] s t ∧
            s.hw.RegsBut [Reg.PKG_TIME_STATUS] t.hw ∧ t.hw.eth.reqTb = none ∧
            t.hw.flag Fd.PKG_TIME_STATUS.LOCKED = decide (off.natAbs ≤ 1000) ∧
            (1000000 < off → (t.hw.tb : Int) = s.hw.tb + off ∧ t.hw.flag Fd.PKG_TIME_STATUS.STEPPED = true) ∧
            (off ≤ 1000000 → t.hw.tb = s.hw.tb ∧ t.hw.slew = off ∧
              t.hw.flag Fd.PKG_TIME_STATUS.STEPPED = s.hw.flag Fd.PKG_TIME_STATUS.STEPPED))) ∧
      (s.hw.eth.chosen ≠ some (p.val, ident.toNat) → ∀ (o : Option (BitVec 64)) (t1 : BitVec 64),
        exec (.ptpSync p dom ident o) s = .next s ∧ exec (.ptpFollowUp p dom ident t1) s = .next s ∧
        exec (.ptpDelayResp p dom ident t1) s = .next s)) ∧
    (∀ pl < 2, s.hw.fld Fd.PKG_TIME_CTRL.SRC = pl + 1 → Tab.getD s.hw.eth.syncTb pl 0 + 3000000000 ≤ s.hw.tb →
      ∃ t, exec .ptpSourceLoss s = .next t ∧ Frame [.regs, .slew] s t ∧ s.hw.RegsBut [Reg.PKG_TIME_STATUS] t.hw ∧
        t.hw.flag Fd.PKG_TIME_STATUS.SRC_LOST = true ∧ t.hw.flag Fd.PKG_TIME_STATUS.LOCKED = false ∧ t.hw.slew = 0) ∧
    (∀ pl < 2, s.hw.fld Fd.PKG_TIME_CTRL.SRC = pl + 1 → s.hw.tb < Tab.getD s.hw.eth.syncTb pl 0 + 3000000000 →
      exec .ptpSourceLoss s = .next s)

/-! ## The control complexes (14_control_complexes.md) -/

/-- CPX_STATUS (R352), CPX_HANDOVER (R348) and CPX_PREFER (R351). -/
def Obligations.ComplexCommandsComplete : Prop :=
  ∀ (hd : Hdr) (s : State) (x : Session), Admits s hd x → x.role ≠ .none →
    (∃ t a b j, exec (.cpxStatus hd 0) s = .next t ∧ Frame [.free, .host, .fw, .out] s t ∧
      Answered s t hd 0x0900 [0, s.hw.fld Fd.CPX_AUTH.HOLDER, (s.hw.reg Reg.CPX_AUTH).toNat, a, b, j] [] ∧
      bitsAt a 16 8 = min 255 (s.hw.wdNear 0) ∧ bitsAt a 0 16 = min 65535 (s.hw.ceHour 0) ∧
      bitsAt b 16 8 = min 255 (s.hw.wdNear 1) ∧ bitsAt b 0 16 = min 65535 (s.hw.ceHour 1) ∧
      bitsAt a 30 2 = bitsAt (s.hw.reg (Reg.CPX_HEALTH 0)).toNat 30 2 ∧
      bitsAt b 30 2 = bitsAt (s.hw.reg (Reg.CPX_HEALTH 1)).toNat 30 2 ∧
      bitsAt j 31 1 = s.hw.fld Fd.CPX_JOURNAL.MIRROR_OK ∧ bitsAt j 0 11 ≤ 1024) ∧
    (∃ t, exec (.cpxHandover hd 0) s = .next t ∧
      (s.hw.cpx.hand ≠ none → Frame [.host, .fw, .out] s t ∧ Answered s t hd 0x0901 [0x0301] []) ∧
      (s.hw.cpx.hand = none → (s.hw.cx s.hw.otherHub ≠ 2 ∨ s.hw.flag Fd.CPX_JOURNAL.MIRROR_OK = false) →
        Frame [.host, .fw, .out] s t ∧ Answered s t hd 0x0901 [0x0350] []) ∧
      (s.hw.cpx.hand = none → s.hw.cx s.hw.otherHub = 2 → s.hw.flag Fd.CPX_JOURNAL.MIRROR_OK = true →
        Frame [.regs, .host, .fw, .cpx, .logs, .out] s t ∧ s.hw.RegsBut [Reg.CPX_AUTH, Reg.CTR_LOG_STATUS] t.hw ∧
        Answered s t hd 0x0901 [1] [] ∧ Outstanding t hd 0x0901 ∧ t.hw.cx s.hw.otherHub = 4 ∧
        t.hw.cpx.hand = some { cause := 1, startTb := s.hw.tb } ∧ t.hw.flag Fd.CPX_AUTH.HELD = true ∧
        t.hw.fld Fd.CPX_AUTH.HOLDER = s.hw.fld Fd.CPX_AUTH.HOLDER)) ∧
    (∀ p0 : BitVec 32, p0.toNat < 3 → ∃ t, exec (.cpxPrefer hd 0 p0) s = .next t ∧
      Frame [.regs, .host, .fw, .nv, .out] s t ∧ s.hw.RegsBut [Reg.CPX_AUTH] t.hw ∧ Answered s t hd 0x0902 [0] [] ∧
      t.hw.fld Fd.CPX_AUTH.PREFER = p0.toNat ∧
      (∀ f ∈ [Fd.CPX_AUTH.HOLDER, Fd.CPX_AUTH.HELD, Fd.CPX_AUTH.STATE_A, Fd.CPX_AUTH.STATE_B, Fd.CPX_AUTH.LAST_CAUSE,
        Fd.CPX_AUTH.HANDOVERS], t.hw.fld f = s.hw.fld f) ∧
      Tab.find? t.hw.nv Reg.CPX_AUTH = some (BitVec.ofNat 32 (p0.toNat * 2 ^ 28))) ∧
    (∀ p0 : BitVec 32, 3 ≤ p0.toNat → ∃ t, exec (.cpxPrefer hd 0 p0) s = .next t ∧ Frame [.host, .fw, .out] s t ∧
      Answered s t hd 0x0902 [0x0103] [])

/-- The AUTH interlock (R339–R342, R377): renewal, its timeouts, the claim, and the self-tests of the complexes. YCP packets that come between the
CUT and the claim wait, and the claim then executes them in the order of their arrival, but those older than 2 ms (R347). -/
def Obligations.AuthInterlock : Prop :=
  ∀ s : State,
    (s.hw.flag Fd.CPX_AUTH.HELD = true → s.hw.board.resetPin = none → exec (.authRenew true) s =
      .next { s with hw := { s.hw with cpx := { s.hw.cpx with renewTb := s.hw.tb, suspended := none } } }) ∧
    (exec (.authRenew false) s = .next s) ∧
    (∀ due : Prop, (due ↔ s.hw.cpx.suspended = none ∧ s.hw.cpx.renewTb + 20000000 ≤ s.hw.tb) →
      ∃ t, exec .authTimeout s = .next t ∧
        (¬ (s.hw.flag Fd.CPX_AUTH.HELD = true ∧ due) → t = s) ∧
        (s.hw.flag Fd.CPX_AUTH.HELD = true → due → Frame [.regs, .host, .fw, .cpx, .logs, .out] s t ∧
          t.hw.flag Fd.CPX_AUTH.HELD = false ∧ t.hw.fld Fd.CPX_AUTH.HOLDER = s.hw.fld Fd.CPX_AUTH.HOLDER ∧
          t.hw.cx s.hw.holderHub = 1 ∧ t.hw.cpx.hand = none ∧
          (s.hw.cx s.hw.otherHub = 2 → t.hw.cx s.hw.otherHub = 4) ∧
          (s.hw.cx s.hw.otherHub = 5 → t.hw.cx s.hw.otherHub = 5))) ∧
    (∀ t0, s.hw.cpx.suspended = some t0 → s.hw.flag Fd.CPX_AUTH.HELD = true → s.hw.board.resetPin = none →
      ∃ t, exec .renewalResumeTimeout s = .next t ∧ (s.hw.tb < t0 + 2000000000 → t = s) ∧
        (t0 + 2000000000 ≤ s.hw.tb → Frame [.regs, .host, .cpx, .logs, .out] s t ∧ t.hw.flag Fd.CPX_AUTH.HELD = false ∧
          t.hw.cx s.hw.holderHub = 1 ∧ (s.hw.cx s.hw.otherHub = 2 → t.hw.cx s.hw.otherHub = 4))) ∧
    (∀ hub both readable, s.hw.flag Fd.CPX_AUTH.HELD = true → exec (.authClaim hub both readable) s = .next s) ∧
    (∀ (hub : Fin 2) (both readable : Bool) (k : Nat), s.hw.flag Fd.PKG_BOARD_STATUS.AUX_PWROK = true →
      s.hw.flag Fd.CPX_AUTH.HELD = false → s.hw.cpx.rx = [] → (s.hw.cx k = 4 ∨ s.hw.cx k = 5) →
      k = (if both = true ∧ (s.hw.cx (1 - hub.val) = 4 ∨ s.hw.cx (1 - hub.val) = 5) then
        (if s.hw.fld Fd.CPX_AUTH.PREFER = 1 then 1 else 0) else hub.val) →
      ∃ t, exec (.authClaim hub both readable) s = .next t ∧ t.pending = s.pending ∧ t.fuses = s.fuses ∧
        t.hw.flag Fd.CPX_AUTH.HELD = true ∧ t.hw.fld Fd.CPX_AUTH.HOLDER = k ∧ t.hw.cx k = 6 ∧ t.hw.cpx.renewTb = s.hw.tb ∧
        t.hw.cpx.hand = none ∧
        (s.hw.cpx.cause = 0 → t.hw.fld Fd.CPX_AUTH.HANDOVERS = s.hw.fld Fd.CPX_AUTH.HANDOVERS) ∧
        (s.hw.cpx.cause ≠ 0 → t.hw.fld Fd.CPX_AUTH.HANDOVERS = min (s.hw.fld Fd.CPX_AUTH.HANDOVERS + 1) 0xFFFF ∧
          t.hw.fld Fd.CPX_AUTH.LAST_CAUSE = s.hw.cpx.cause % 16) ∧
        (s.hw.cpx.cause = 3 → s.hw.flag Fd.CPX_JOURNAL.MIRROR_OK = false → readable = false → t.hw.host.sessions = [])) ∧
    (∀ c : Instr, isPacket c = true → s.hw.inCut = true → s.hw.cpx.rx.length < 4096 →
      exec c s = .next { s with hw := { s.hw with cpx := { s.hw.cpx with rx := s.hw.cpx.rx ++ [(c, s.hw.tb)] } } }) ∧
    (∀ (hub : Fin 2) (both readable : Bool), s.hw.flag Fd.CPX_AUTH.HELD = false → (∀ q ∈ s.hw.cpx.rx, isPacket q.1 = true) →
      ∃ t, exec (.authClaim hub both readable) { s with hw := { s.hw with cpx := { s.hw.cpx with rx := [] } } } = .next t ∧
        (t.hw.flag Fd.CPX_AUTH.HELD = true → exec (.authClaim hub both readable) s = .next (s.hw.cpx.rx.foldl (fun u q =>
          if u.hw.tb ≤ q.2 + 2000000 then (match exec q.1 u with | .next v => v | _ => u) else u) t))) ∧
    (∀ o, o = (if s.hw.fld Fd.CPX_AUTH.PREFER = 1 then 0 else 1) → s.hw.flag Fd.PKG_BOARD_STATUS.AUX_PWROK = true →
      s.hw.flag Fd.CPX_AUTH.HELD = false → s.hw.cpx.cause = 0 → s.hw.cpx.auxTb + 2000000000 ≤ s.hw.tb →
      (s.hw.cx o = 1 ∨ s.hw.cx o = 2) → ∃ t, exec .bootClaimTimeout s = .next t ∧ Frame [.regs, .host, .logs, .out] s t ∧
        t.hw.cx o = 4 ∧ t.hw.cx (1 - o) = s.hw.cx (1 - o)) ∧
    (∀ (hub : Fin 2) (pass : Bool), ∃ t, exec (.complexSelfTestEnd hub pass) s = .next t ∧
      (s.hw.cx hub.val ≠ 1 → t = s) ∧
      (s.hw.cx hub.val = 1 → s.hw.flag Fd.CPX_AUTH.HELD = true → Frame [.regs, .host, .logs, .out] s t ∧
        t.hw.cx hub.val = (if pass then 2 else 3) ∧ t.hw.cx (1 - hub.val) = s.hw.cx (1 - hub.val)))

/-- *Planned handover sequence*, self-diagnosis and the journal's mirror (R345–R348, R351). A trigger of R346 marks the holder
DEGRADED and wakes the standby in LULL with a current mirror, and otherwise the holder keeps AUTH and logs it. -/
def Obligations.HandoverSteps : Prop :=
  ∀ s : State,
    (∀ y : Hand, s.hw.cpx.hand = some y → y.cut = false →
      (y.shadowTb = none → s.hw.tb ≤ y.startTb + 280000000 → ∃ t, exec .standbyBootDone s = .next t ∧
        Frame [.regs, .host, .cpx, .logs, .out] s t ∧ t.hw.cx s.hw.otherHub = 5 ∧
        t.hw.cpx.hand = some { y with shadowTb := some s.hw.tb }) ∧
      (∀ u, y.shadowTb = some u → s.hw.flag Fd.CPX_AUTH.HELD = true → ∃ t, exec .handoverCut s = .next t ∧
        (s.hw.tb < u + 50000000 → t = s) ∧
        (u + 50000000 ≤ s.hw.tb → Frame [.regs, .host, .cpx, .logs, .out] s t ∧ t.hw.flag Fd.CPX_AUTH.HELD = false ∧
          t.hw.cx s.hw.holderHub = 1 ∧ t.hw.cpx.cause = y.cause ∧ t.hw.cpx.hand = some { y with cut := true })) ∧
      (∀ why : Fin 3, y.cause ≠ 5 → (why = 0 → y.shadowTb = none ∧ y.startTb + 280000000 < s.hw.tb) →
        ∃ t, exec (.handoverAbandon why) s = .next t ∧ Frame [.regs, .host, .cpx, .logs, .out] s t ∧
          t.hw.cx s.hw.otherHub = 3 ∧ t.hw.cpx.hand = none ∧
          t.hw.flag Fd.CPX_AUTH.HELD = s.hw.flag Fd.CPX_AUTH.HELD ∧ ∀ c ∈ t.hw.host.cmds, c.opcode ≠ 0x0901)) ∧
    (s.hw.flag Fd.CPX_AUTH.HELD = true →
      (∃ t, exec .mirrorWriteFail s = .next t ∧ Frame [.regs, .host, .logs, .out] s t ∧
        s.hw.RegsBut [Reg.CPX_JOURNAL, Reg.CTR_LOG_STATUS] t.hw ∧ t.hw.flag Fd.CPX_JOURNAL.MIRROR_OK = false) ∧
      (∃ t, exec .mirrorRecovery s = .next t ∧ Frame [.regs] s t ∧ s.hw.RegsBut [Reg.CPX_JOURNAL] t.hw ∧
        t.hw.flag Fd.CPX_JOURNAL.MIRROR_OK = true) ∧
      (∃ t, exec (.selfCheck true) s = .next t ∧ Frame [.regs] s t ∧ s.hw.RegsBut [Reg.CPX_HEALTH s.hw.holderHub] t.hw ∧
        t.hw.flag (Fd.CPX_HEALTH.SELFCHECK_FAIL s.hw.holderHub) = false) ∧
      (∀ c ∈ [Instr.selfCheck false, .degradationTrigger (some 64)],
        ∃ t, exec c s = .next t ∧ Frame [.regs, .host, .cpx, .logs, .out] s t ∧
          t.hw.flag (Fd.CPX_HEALTH.DEGRADED s.hw.holderHub) = true ∧ t.hw.flag Fd.CPX_AUTH.HELD = true ∧
          (s.hw.cx s.hw.otherHub = 2 → s.hw.flag Fd.CPX_JOURNAL.MIRROR_OK = true → s.hw.cpx.hand = none →
            t.hw.cx s.hw.otherHub = 4 ∧ t.hw.cpx.hand = some { cause := 2, startTb := s.hw.tb }) ∧
          (¬ (s.hw.cx s.hw.otherHub = 2 ∧ s.hw.flag Fd.CPX_JOURNAL.MIRROR_OK = true ∧ s.hw.cpx.hand = none) →
            t.hw.cpx.hand = s.hw.cpx.hand ∧ t.hw.cx s.hw.otherHub = s.hw.cx s.hw.otherHub ∧
            t.hw.logs.seq = s.hw.logs.seq + 1)) ∧
      ((Tab.getD s.hw.cpx.wdTb s.hw.holderHub []).length < 255 → ∃ t, exec (.degradationTrigger none) s = .next t ∧
        (s.hw.wdNear s.hw.holderHub < 2 → Frame [.cpx] s t ∧ t.hw.wdNear s.hw.holderHub = s.hw.wdNear s.hw.holderHub + 1) ∧
        (2 ≤ s.hw.wdNear s.hw.holderHub → t.hw.flag (Fd.CPX_HEALTH.DEGRADED s.hw.holderHub) = true))) ∧
    (∀ p, p = s.hw.fld Fd.CPX_AUTH.PREFER → p < 2 → s.hw.flag Fd.CPX_AUTH.HELD = true → s.hw.holderHub ≠ p → s.hw.cx p = 2 →
      s.hw.cpx.hand = none → s.hw.flag Fd.CPX_JOURNAL.MIRROR_OK = true →
      ∃ t, exec .revertRequest s = .next t ∧
        (∀ u, Tab.find? s.hw.cpx.lostTb p = some u → s.hw.tb < u + 600000000000 → t = s) ∧
        ((∀ u, Tab.find? s.hw.cpx.lostTb p = some u → u + 600000000000 ≤ s.hw.tb) →
          Frame [.regs, .host, .cpx, .logs, .out] s t ∧
          (s.hw.cpx.reverts.length ≤ 2 → t.hw.cx p = 4 ∧ t.hw.cpx.hand = some { cause := 4, startTb := s.hw.tb }) ∧
          (3 ≤ (s.hw.cpx.reverts.filter (fun r => decide (s.hw.tb < r + 86400000000000))).length →
            t.hw.cpx = s.hw.cpx ∧ t.hw.cx p = 2)))

/-! ## Power and pace (17_power_thermal.md) -/

/-- The power orders of the host (R399, R400, R401, R403, R406): POWER_CAP_SET, PACE_SET, PACE_MODE with its modes and agreements, and
MAIN_POWER. Where PACE_SET applies at once, every cluster of a powered die then runs at the lowest of its limits. -/
def Obligations.PowerOrdersComplete : Prop :=
  ∀ (hd : Hdr) (s : State) (x : Session), Admits s hd x → x.role ≠ .none → s.hw.DiesExist →
    (∀ p0 : BitVec 32, p0 = 0 ∨ (1500 ≤ p0.toNat ∧ p0.toNat ≤ 4800) →
      ∃ t w, w = (if p0 = 0 then 4800 else p0.toNat) ∧ exec (.powerCapSet hd 0 p0) s = .next t ∧
        Frame [.regs, .host, .fw, .nv, .logs, .out] s t ∧ s.hw.RegsBut [Reg.PWR_CAP, Reg.CTR_LOG_STATUS] t.hw ∧
        t.hw.fld Fd.PWR_CAP.HOST_CAP_W = w ∧
        t.hw.fld Fd.PWR_CAP.EFF_CAP_W = min w (min (s.hw.fld Fd.PWR_BOARD.BOARD_CAP_W) (s.hw.fld Fd.PWR_BOARD.INTERNAL_W)) ∧
        Tab.find? t.hw.nv Reg.PWR_CAP = some (BitVec.ofNat 32 (w * 2 ^ 16)) ∧
        Answered s t hd 0x0600 [0, t.hw.fld Fd.PWR_CAP.EFF_CAP_W] []) ∧
    (∀ p0 : BitVec 32, ¬ (p0 = 0 ∨ (1500 ≤ p0.toNat ∧ p0.toNat ≤ 4800)) →
      ∃ t, exec (.powerCapSet hd 0 p0) s = .next t ∧ Frame [.host, .fw, .out] s t ∧ Answered s t hd 0x0600 [0x0103] []) ∧
    (∀ p0 p1 : BitVec 32, 10 ≤ p0.toNat → p0.toNat ≤ 2000 → p1.toNat < 256 →
      (∀ d < 8, p1.getLsbD d = true → d ∈ s.hw.plu.diesUp ∧ (1880 < p0.toNat → d ∉ s.hw.pwr.fixed)) →
      ∃ t, exec (.paceSet hd 0 p0 p1) s = .next t ∧ Frame [.regs, .ctxs, .clus, .pwr, .host, .fw, .logs, .out] s t ∧
        Answered s t hd 0x0601 [0] [] ∧
        (s.hw.flag Fd.PKG_TRIG_CTRL.PACE_EPOCH = false →
          (∀ d < 8, t.hw.fld (Fd.PWR_DIE_PACE.PROG_MSTEPS d) =
            if p1.getLsbD d then p0.toNat else s.hw.fld (Fd.PWR_DIE_PACE.PROG_MSTEPS d)) ∧
          (∀ c < 64, c / 8 ∈ s.hw.plu.diesUp → t.hw.progOf c = lowest (t.hw.limits c) / 10 * 10) ∧
          (∀ c < 64, c / 8 ∉ s.hw.plu.diesUp → t.hw.progOf c = s.hw.progOf c)) ∧
        (s.hw.flag Fd.PKG_TRIG_CTRL.PACE_EPOCH = true → ∀ d < 8,
          t.hw.fld (Fd.PWR_DIE_PACE.PROG_MSTEPS d) = s.hw.fld (Fd.PWR_DIE_PACE.PROG_MSTEPS d) ∧
          Tab.find? t.hw.pwr.waitPace d = if p1.getLsbD d then some p0.toNat else Tab.find? s.hw.pwr.waitPace d)) ∧
    (∀ (fixed : Bool) (c : Instr) (p1 : BitVec 32), c = (if fixed then .paceModeFixed hd 0 p1 else .paceModeFree hd 0 p1) →
      p1.toNat < 256 → (∀ d < 8, p1.getLsbD d = true → d ∈ s.hw.plu.diesUp) →
      ∃ t, exec c s = .next t ∧ Frame [.regs, .ctxs, .clus, .pwr, .host, .fw, .logs, .out] s t ∧ Answered s t hd 0x0602 [0] [] ∧
        ∀ d < 8, (d ∈ t.hw.pwr.fixed ↔ if p1.getLsbD d then fixed = true else d ∈ s.hw.pwr.fixed) ∧
          t.hw.fld (Fd.PWR_DIE_PACE.PROG_MSTEPS d) = (if p1.getLsbD d = true ∧ fixed = true then
            min 1880 (s.hw.fld (Fd.PWR_DIE_PACE.PROG_MSTEPS d)) else s.hw.fld (Fd.PWR_DIE_PACE.PROG_MSTEPS d))) ∧
    (∀ p1 : BitVec 32, p1.toNat < 1024 → s.hw.groupLive p1.toNat = true → s.hw.agreeFor p1.toNat = none →
      (∀ n < 8, Tab.find? s.hw.pwr.agrees n ≠ none) →
      ∃ t, exec (.paceAgreementStart hd 0 p1) s = .next t ∧ Frame [.host, .fw, .out] s t ∧ Answered s t hd 0x0602 [0x0301] []) ∧
    (∀ (p1 : BitVec 32) (n : Nat), p1.toNat < 1024 → s.hw.groupLive p1.toNat = true → s.hw.agreeFor p1.toNat = none → n < 8 →
      Tab.find? s.hw.pwr.agrees n = none → (∀ j < n, Tab.find? s.hw.pwr.agrees j ≠ none) →
      ∃ t, exec (.paceAgreementStart hd 0 p1) s = .next t ∧ Frame [.regs, .ctxs, .clus, .pwr, .host, .fw, .logs, .out] s t ∧
        Answered s t hd 0x0602 [0] [] ∧
        Tab.find? t.hw.pwr.agrees n = some { grp := p1.toNat, roundTb := s.hw.tb, lapTb := s.hw.tb } ∧
        t.hw.flag (Fd.PWR_AGREE.VALID n) = true ∧ t.hw.fld (Fd.PWR_AGREE.GROUP n) = p1.toNat) ∧
    (∀ (p1 : BitVec 32) (n : Nat) (a : Agree), p1.toNat < 1024 → s.hw.groupLive p1.toNat = true →
      s.hw.agreeFor p1.toNat = some (n, a) →
      ∃ t, exec (.paceAgreementStop hd 0 p1) s = .next t ∧ Frame [.regs, .ctxs, .clus, .pwr, .host, .fw, .logs, .out] s t ∧
        Answered s t hd 0x0602 [0] [] ∧ Tab.find? t.hw.pwr.agrees n = none ∧ t.hw.reg (Reg.PWR_AGREE n) = 0) ∧
    (∃ t, exec (.mainPowerOff hd 0) s = .next t ∧ t.pending = s.pending ∧ t.fuses = s.fuses ∧ Answered s t hd 0x0605 [0] [] ∧
      t.hw.flag Fd.PWR_STATUS.OFF_HOST = true ∧ t.hw.flag Fd.PWR_STATUS.OFF_BOARD = s.hw.flag Fd.PWR_STATUS.OFF_BOARD ∧
      t.hw.flag Fd.PKG_BOARD_STATUS.MAIN_EN = false ∧ t.hw.flag Fd.PKG_BOARD_STATUS.HBM_EN = false ∧ t.hw.plu.diesUp = [] ∧
      t.hw.fld Fd.HUB_BRINGUP_STATUS.STAGE = 0 ∧ t.hw.flag Fd.HUB_BRINGUP_STATUS.READY = false ∧
      ∀ q < 2 ^ 48, t.mem.read q = 0) ∧
    (∃ t, exec (.mainPowerRelease hd 0) s = .next t ∧ Frame [.regs, .host, .fw, .logs, .out] s t ∧
      s.hw.RegsBut [Reg.PWR_STATUS, Reg.CTR_LOG_STATUS] t.hw ∧ Answered s t hd 0x0605 [0] [] ∧
      t.hw.flag Fd.PWR_STATUS.OFF_HOST = false ∧ t.hw.flag Fd.PWR_STATUS.OFF_BOARD = s.hw.flag Fd.PWR_STATUS.OFF_BOARD)

/-- Rounds of a pace agreement (R402) and the trigger input (R477). -/
def Obligations.AgreementsAndTrigger : Prop :=
  ∀ s : State, s.hw.DiesExist →
    (∀ (n : Fin 8) (a : Agree), Tab.find? s.hw.pwr.agrees n.val = some a →
      (s.hw.flag Fd.CPX_AUTH.HELD = true → s.hw.groupLive a.grp = true → s.hw.fld (Fd.CVE_GRP_W2.MY_INDEX a.grp) = 0 →
        (a.back = true ∧ a.roundTb + 1000000 ≤ s.hw.tb) ∨ a.roundTb + 10000000 ≤ s.hw.tb →
        ∃ t b, exec (.paceRoundStart n) s = .next t ∧ Frame [.regs, .ctxs, .clus, .links, .rtr, .pwr] s t ∧
          Tab.find? t.hw.pwr.agrees n.val = some b ∧ b.grp = a.grp ∧ b.round = (a.round + 1) % 2 ^ 32 ∧ b.roundTb = s.hw.tb ∧
          (2 ≤ s.hw.fld (Fd.CVE_GRP_W2.M a.grp) → b.back = false ∧ b.agreed = a.agreed)) ∧
      (s.hw.fld (Fd.CVE_GRP_W2.MY_INDEX a.grp) ≠ 0 ∨ s.hw.tb < a.roundTb + 1000000 →
        exec (.paceRoundStart n) s = .next s) ∧
      (a.lapTb + 20000000 ≤ s.hw.tb → ∃ t, exec (.agreeLost n) s = .next t ∧ Frame [.regs] s t ∧
        s.hw.RegsBut [Reg.PWR_AGREE n.val] t.hw ∧ t.hw.flag (Fd.PWR_AGREE.AGREE_LOST n.val) = true ∧
        t.hw.fld (Fd.PWR_AGREE.PACE_MSTEPS n.val) = s.hw.fld (Fd.PWR_AGREE.PACE_MSTEPS n.val)) ∧
      (s.hw.tb < a.lapTb + 20000000 → exec (.agreeLost n) s = .next s)) ∧
    (s.hw.delivered (fun p => p.ptype == 0x02) = none → exec .paceReceive s = .next s) ∧
    (∀ (d : Deliv) (n : Nat) (a : Agree) (gid gen round pace low : Nat), s.hw.delivered (fun p => p.ptype == 0x02) = some d →
      d.p.payload = pacePayload gid gen 1 round pace low → gid < 2 ^ 16 → gen < 2 ^ 8 → round < 2 ^ 32 → pace < 2 ^ 11 →
      s.hw.agreeOfPace gid gen = some (n, a) → Tab.find? s.hw.pwr.agrees n = some a → n < 8 →
      s.hw.flag Fd.PKG_TRIG_CTRL.PACE_EPOCH = false →
      ∃ t b, exec .paceReceive s = .next t ∧ Frame [.regs, .ctxs, .clus, .links, .rtr, .pwr] s t ∧
        Tab.find? t.hw.pwr.agrees n = some b ∧ b.agreed = some pace ∧ b.lapTb = s.hw.tb ∧ b.round = a.round ∧
        t.hw.fld (Fd.PWR_AGREE.PACE_MSTEPS n) = pace ∧ t.hw.flag (Fd.PWR_AGREE.AGREE_LOST n) = false) ∧
    (s.hw.flag Fd.PKG_BOARD_STATUS.AUX_PWROK = true →
      (s.hw.flag Fd.PKG_TRIG_CTRL.PACE_EPOCH = false → s.hw.flag Fd.PKG_TRIG_CTRL.CAPTURE = false →
        exec .trigIoEdge s = .next s) ∧
      (s.hw.flag Fd.PKG_TRIG_CTRL.PACE_EPOCH = false → s.hw.flag Fd.PKG_TRIG_CTRL.CAPTURE = true →
        ∃ t, exec .trigIoEdge s = .next t ∧ Frame [.regs] s t ∧
          s.hw.RegsBut [Reg.PKG_TRIG_TB_LO, Reg.PKG_TRIG_TB_HI, Reg.PKG_TRIG_CTRL] t.hw ∧
          t.hw.fld Fd.PKG_TRIG_TB_LO.TB_LO = s.hw.tb % 2 ^ 32 ∧ t.hw.fld Fd.PKG_TRIG_TB_HI.TB_HI = s.hw.tb / 2 ^ 32 % 2 ^ 32 ∧
          t.hw.flag Fd.PKG_TRIG_CTRL.CAPTURED = true) ∧
      (∀ d v, s.hw.flag Fd.PKG_TRIG_CTRL.PACE_EPOCH = true → s.hw.pwr.waitPace = [(d, v)] → s.hw.pwr.waitAgree = [] → d < 8 →
          v ≤ 2000 →
        ∃ t, exec .trigIoEdge s = .next t ∧ Frame [.regs, .ctxs, .clus, .pwr] s t ∧ t.hw.pwr.waitPace = [] ∧
          t.hw.pwr.waitAgree = [] ∧
          t.hw.fld (Fd.PWR_DIE_PACE.PROG_MSTEPS d) = min v (if d ∈ s.hw.pwr.fixed then 1880 else 2000)) ∧
      (∀ n v a, s.hw.flag Fd.PKG_TRIG_CTRL.PACE_EPOCH = true → s.hw.pwr.waitPace = [] → s.hw.pwr.waitAgree = [(n, v)] → n < 8 →
        v < 2 ^ 11 → Tab.find? s.hw.pwr.agrees n = some a →
        ∃ t, exec .trigIoEdge s = .next t ∧ Frame [.regs, .ctxs, .clus, .pwr] s t ∧ t.hw.pwr.waitAgree = [] ∧
          Tab.find? t.hw.pwr.agrees n = some { a with agreed := some v } ∧ t.hw.fld (Fd.PWR_AGREE.PACE_MSTEPS n) = v))

/-- Samples, the fast limiter, the coordinator, the canary and droop (R26, R27, R397, R404, R405, R408, R471). -/
def Obligations.PowerSamplesAndCoordinator : Prop :=
  ∀ s : State, s.hw.DiesExist →
    (∀ w : BitVec 16, s.hw.flag Fd.PKG_BOARD_STATUS.AUX_PWROK = true → s.hw.pwr.sampleTb + 10000 ≤ s.hw.tb →
      ∃ t, exec (.powerSample w) s = .next t ∧ Frame [.regs, .ctxs, .clus, .pwr, .thm, .host, .logs, .out] s t ∧
        t.hw.pwr.samples = (w.toNat :: s.hw.pwr.samples).take 100000 ∧ t.hw.pwr.sampleTb = s.hw.tb ∧
        t.hw.fld Fd.PWR_ENERGY_LO.UJ_LO + 2 ^ 32 * t.hw.fld Fd.PWR_ENERGY_HI.UJ_HI =
          (s.hw.fld Fd.PWR_ENERGY_LO.UJ_LO + 2 ^ 32 * s.hw.fld Fd.PWR_ENERGY_HI.UJ_HI + 10 * w.toNat) % 2 ^ 64 ∧
        t.hw.fld Fd.PWR_STATUS.POWER_W = min 65535 (t.hw.avgPower 1000) ∧
        (s.hw.pwr.fast = [] → 11 * s.hw.fld Fd.PWR_CAP.EFF_CAP_W < 10 * t.hw.avgPower 10 →
          t.hw.flag Fd.PWR_STATUS.FAST_LIMIT = true ∧
          ∀ c < 64, c / 8 ∈ s.hw.plu.diesUp → t.hw.progOf c ≤ s.hw.progOf c * 3 / 4)) ∧
    (∀ w : BitVec 16, s.hw.tb < s.hw.pwr.sampleTb + 10000 → exec (.powerSample w) s = .next s) ∧
    (∀ mv hbm : BitVec 16, s.hw.flag Fd.CPX_AUTH.HELD = true → s.hw.pwr.coordTb + 1000000 ≤ s.hw.tb →
      ∃ t, exec (.coordinatorTick mv hbm) s = .next t ∧ Frame [.regs, .ctxs, .clus, .pwr, .thm, .host, .logs, .out] s t ∧
        t.hw.pwr.coordTb = s.hw.tb ∧
        (s.hw.pwr.intTb + 10000000 ≤ s.hw.tb →
          t.hw.fld Fd.PWR_BOARD.INTERNAL_W = min 4800 (min 4000 (84 * mv.toNat / 1000) + hbm.toNat) ∧
          t.hw.fld Fd.PWR_CAP.EFF_CAP_W = min (s.hw.fld Fd.PWR_CAP.HOST_CAP_W)
            (min (s.hw.fld Fd.PWR_BOARD.BOARD_CAP_W) (t.hw.fld Fd.PWR_BOARD.INTERNAL_W))) ∧
        (s.hw.tb < s.hw.pwr.intTb + 10000000 → t.hw.reg Reg.PWR_BOARD = s.hw.reg Reg.PWR_BOARD ∧
          t.hw.reg Reg.PWR_CAP = s.hw.reg Reg.PWR_CAP) ∧
        (s.hw.avgPower 1000 ≤ t.hw.fld Fd.PWR_CAP.EFF_CAP_W → t.hw.flag Fd.PWR_STATUS.CAP_UNMET = false ∧
          t.hw.pwr.steps.length ≤ s.hw.pwr.steps.length) ∧
        (∀ cls, t.hw.fld Fd.PWR_CAP.EFF_CAP_W < s.hw.avgPower 1000 → s.hw.cutOrder.find? s.hw.canCut = some cls →
          t.hw.pwr.steps = cls :: s.hw.pwr.steps) ∧
        (t.hw.fld Fd.PWR_CAP.EFF_CAP_W < s.hw.avgPower 1000 → s.hw.cutOrder.find? s.hw.canCut = none →
          t.hw.pwr.steps = s.hw.pwr.steps ∧ t.hw.flag Fd.PWR_STATUS.CAP_UNMET = true)) ∧
    (∀ (c : Fin 64) (v : BitVec 16), c.val / 8 ∈ s.hw.plu.diesUp → (s.hw.clusOf c.val).canaryTb + 1000 ≤ s.hw.tb →
      ∃ t, exec (.canaryRead c v) s = .next t ∧ Frame [.regs, .ctxs, .clus] s t ∧ s.hw.RegsBut [Reg.PWR_CL_PACE c.val] t.hw ∧
        t.hw.fld (Fd.PWR_CL_PACE.NATURAL_MSTEPS c.val) = min 2047 v.toNat ∧
        t.hw.fld (Fd.PWR_CL_PACE.ISSUED_MSTEPS c.val) = min (s.hw.progOf c.val) (min 2047 v.toNat) % 2 ^ 11 ∧
        t.hw.flag (Fd.PWR_CL_PACE.NAT_LIMITED c.val) = decide (min 2047 v.toNat < s.hw.progOf c.val)) ∧
    (∀ i : BitVec 8, s.hw.flag Fd.PKG_BOARD_STATUS.AUX_PWROK = true → i.toNat ∉ s.hw.board.droop →
      ∃ t, exec (.droopDetect i) s = .next t ∧ Frame [.regs, .board] s t ∧ s.hw.RegsBut [Reg.PWR_DROOP] t.hw ∧
        i.toNat ∈ t.hw.board.droop ∧
        t.hw.fld Fd.PWR_DROOP.STRETCH_CNT = min (s.hw.fld Fd.PWR_DROOP.STRETCH_CNT + 1) (2 ^ Fd.PWR_DROOP.STRETCH_CNT.w - 1)) ∧
    (∀ i : BitVec 8, ∃ t, exec (.droopRecovery i) s = .next t ∧ Frame [.board] s t ∧
      ∀ j, j ∈ t.hw.board.droop ↔ j ∈ s.hw.board.droop ∧ j ≠ i.toNat)

/-! ## Cooling (17_power_thermal.md, 05_hbm.md) -/

/-- A sample of a die's sensors (R409–R411, R415): the sensor rules, THERMTRIP at 110 °C, the 95 °C limit, and the pace gate. -/
def Obligations.SensorSamples : Prop :=
  ∀ (s : State) (d : Fin 8) (r : SensorIn), s.hw.DiesExist →
    (d.val ∉ s.hw.plu.diesUp ∨ s.hw.tb < Tab.getD s.hw.thm.sampleTb d.val 0 + 1000000 → exec (.sensorSample d r) s = .next s) ∧
    (d.val ∈ s.hw.plu.diesUp → Tab.getD s.hw.thm.sampleTb d.val 0 + 1000000 ≤ s.hw.tb →
      ∃ t, exec (.sensorSample d r) s = .next t ∧ t.pending = s.pending ∧ t.fuses = s.fuses ∧
        Tab.getD t.hw.thm.sampleTb d.val 0 = s.hw.tb ∧
        (∀ k < 8, (s.hw.dieSensor d.val k).failed ≠ 0 → t.hw.dieSensor d.val k = s.hw.dieSensor d.val k) ∧
        (∀ k < 8, (s.hw.dieSensor d.val k).failed = 0 →
          (r.dies.getD k none = none ∨ ∃ v, r.dies.getD k none = some v ∧ (v < -400 ∨ 1500 < v)) →
          (t.hw.dieSensor d.val k).bad = (s.hw.dieSensor d.val k).bad + 1 ∧
          (t.hw.dieSensor d.val k).failed = if 3 ≤ (s.hw.dieSensor d.val k).bad + 1 then 1 else 0) ∧
        (∀ k < 8, ∀ v, (s.hw.dieSensor d.val k).failed = 0 → r.dies.getD k none = some v → -400 ≤ v → v ≤ 1500 →
          s.hw.inlet = none →
          (t.hw.dieSensor d.val k).reading = some v ∧ (t.hw.dieSensor d.val k).bad = 0 ∧
          (1100 ≤ v → s.hw.flag Fd.THM_STATUS.TRIP = false → t.hw.flag Fd.THM_STATUS.TRIP = true ∧
            t.hw.flag Fd.PKG_BOARD_STATUS.THERMTRIP = true ∧ t.hw.flag Fd.PKG_BOARD_STATUS.MAIN_EN = false ∧
            t.hw.flag Fd.PKG_BOARD_STATUS.HBM_EN = false ∧ ∀ q < 2 ^ 48, t.mem.read q = 0)) ∧
        (t.hw.flag Fd.THM_STATUS.TRIP = false → t.mem = s.mem ∧
          (∀ c < 64, c / 8 ∈ s.hw.plu.diesUp → t.hw.progOf c = lowest (t.hw.limits c) / 10 * 10) ∧
          (∀ temp, Tab.find? t.hw.thm.dieTemp d.val = some temp → (∃ k < 8, (t.hw.dieSensor d.val k).reading ≠ none) →
            (950 ≤ temp → ∃ c, c / 8 = d.val ∧ Tab.find? t.hw.pwr.hw95 c ≠ none) ∧
            (temp < 920 → ∀ c, c / 8 = d.val → Tab.find? t.hw.pwr.hw95 c = none)) ∧
          (s.hw.flag Fd.THM_STATUS.GATE = false → t.hw.flag Fd.THM_STATUS.GATE = true →
            2 ≤ (s.hw.plu.diesUp.filter (fun e => ((Tab.find? t.hw.thm.risingTb e).map
              (fun t0 => decide (t0 + 50000000 ≤ s.hw.tb))).getD false)).length) ∧
          (s.hw.flag Fd.THM_STATUS.GATE = true → t.hw.flag Fd.THM_STATUS.GATE = false → t.hw.thm.reopenTb = some s.hw.tb ∧
            ∀ e ∈ s.hw.plu.diesUp, ∃ t0, Tab.find? t.hw.thm.calmTb e = some t0 ∧ t0 + 5000000000 ≤ s.hw.tb)))

/-- What follows the pace gate and a trip (R410, R415): a gate closed for 30 s faults every resident context with PACE_GATE,
    10 s after
it reopened the other limits resume, and the host's write of TRIP releases THERMTRIP_N. -/
def Obligations.GateAndTripEnd : Prop :=
  ∀ s : State, s.hw.DiesExist →
    (s.hw.flag Fd.THM_STATUS.GATE = true → s.hw.thm.gateFaulted = false → s.hw.thm.gateTb + 30000000000 ≤ s.hw.tb →
      ∃ t, exec .paceGateTimeout s = .next t ∧ Frame [.ctxs, .thm] s t ∧ t.hw.thm.gateFaulted = true ∧
        ∀ c x, Tab.find? s.hw.ctxs c = some x → x.resident = true → x.canFault = true → x.run.fault = none →
          ∃ y f, Tab.find? t.hw.ctxs c = some y ∧ y.host.st = .faulted ∧ y.run.fault = some f ∧ f.detail = 0x0702 ∧
            f.cls = 7 ∧ f.tb = s.hw.tb ∧ f.ctx = c) ∧
    (s.hw.flag Fd.THM_STATUS.GATE = false ∨ s.hw.tb < s.hw.thm.gateTb + 30000000000 →
      exec .paceGateTimeout s = .next s) ∧
    (∀ t0, s.hw.thm.reopenTb = some t0 → ∃ t, exec .gateSafePaceEnd s = .next t ∧
      (s.hw.tb < t0 + 10000000000 → t = s) ∧
      (t0 + 10000000000 ≤ s.hw.tb → Frame [.regs, .ctxs, .clus, .pwr, .thm] s t ∧ t.hw.thm.reopenTb = none ∧
        ∀ c < 64, c / 8 ∈ s.hw.plu.diesUp → t.hw.progOf c = lowest (t.hw.limits c) / 10 * 10)) ∧
    (s.hw.served = true → ∃ t, exec .tripClear s = .next t ∧ Frame [.regs, .thm, .board, .out] s t ∧
      t.hw.flag Fd.THM_STATUS.TRIP = false ∧ t.hw.flag Fd.PKG_BOARD_STATUS.THERMTRIP = false ∧
      t.hw.flag Fd.PKG_BOARD_STATUS.MAIN_EN = s.hw.flag Fd.PKG_BOARD_STATUS.MAIN_EN)

/-- Flow and inlet (R412–R414), Foehn mode (R416), thermal cycles (R417) and THERMAL_QUERY (R418). -/
def Obligations.CoolingAndFoehn : Prop :=
  (∀ s : State, s.hw.DiesExist →
    (∀ a b c d : Option Int, s.hw.flag Fd.CPX_AUTH.HELD = true → s.hw.thm.flowTb + 1000000000 ≤ s.hw.tb →
      ∃ t, exec (.flowEstimate a b c d) s = .next t ∧
        Frame [.regs, .ctxs, .clus, .pwr, .thm, .host, .board, .logs, .out] s t ∧ t.hw.thm.flowTb = s.hw.tb ∧
        (∀ i o, t.hw.inlet = some i → t.hw.outlet = some o → 1000 ≤ s.hw.avgPower 100000 → 20 ≤ o - i →
          t.hw.flag Fd.THM_STATUS.FLOW_VALID = true ∧
          t.hw.fld Fd.THM_FLOW.FLOW = min 65535 (60000 * s.hw.avgPower 100000 / (3890 * (o - i).toNat)) ∧
          (100 * t.hw.fld Fd.THM_FLOW.FLOW < 60 * s.hw.fld Fd.THM_FLOW.NOM_FLOW →
            t.hw.flag Fd.THM_STATUS.COOL_CRIT = true ∧ t.hw.flag Fd.PKG_BOARD_STATUS.ALERT = true)) ∧
        (∀ i o, t.hw.inlet = some i → t.hw.outlet = some o → s.hw.avgPower 100000 < 1000 ∨ o - i < 20 →
          t.hw.flag Fd.THM_STATUS.FLOW_VALID = false ∧
          t.hw.flag Fd.THM_STATUS.COOL_CRIT = s.hw.flag Fd.THM_STATUS.COOL_CRIT ∧
          t.hw.flag Fd.THM_STATUS.COOL_WARN = s.hw.flag Fd.THM_STATUS.COOL_WARN)) ∧
    (∀ hi t0, s.hw.thm.inletTb = some (hi, t0) → s.hw.flag Fd.CPX_AUTH.HELD = true → ∃ t, exec .inletWarning s = .next t ∧
      (s.hw.thm.inletSent = true ∨ s.hw.tb < t0 + 60000000000 → t = s) ∧
      (s.hw.thm.inletSent = false → t0 + 60000000000 ≤ s.hw.tb → Frame [.regs, .thm, .host, .logs, .out] s t ∧
        t.hw.thm = { s.hw.thm with inletSent := true } ∧ t.hw.logs.seq = s.hw.logs.seq + 1)) ∧
    (s.hw.flag Fd.CPX_AUTH.HELD = true → s.hw.thm.foehnTb + 100000000 ≤ s.hw.tb →
      ∃ t, exec .foehnControl s = .next t ∧ Frame [.regs, .free, .thm] s t ∧ s.hw.RegsBut [Reg.THM_STATUS] t.hw ∧
        (s.hw.flag Fd.THM_FOEHN.EN = false ∨ s.hw.flag Fd.HUB_BRINGUP_STATUS.READY = false ∨
          s.hw.flag Fd.THM_STATUS.GATE = true ∨ s.hw.flag Fd.THM_STATUS.COOL_WARN = true ∨
          s.hw.flag Fd.THM_STATUS.COOL_CRIT = true ∨ s.hw.flag Fd.THM_STATUS.PROT_DEGRADED = true ∨ s.hw.pwr.steps ≠ [] ∨
          (∃ q ∈ s.hw.ctxs, q.2.host.st = .running) →
          t.hw.thm.foehnPace = [] ∧ t.hw.flag Fd.THM_STATUS.FOEHN_ACTIVE = false) ∧
        (t.hw.flag Fd.THM_STATUS.FOEHN_ACTIVE = true → ∀ e ∈ s.hw.plu.diesUp,
          (Tab.getD s.hw.thm.dieTemp e 600 < 10 * s.hw.fld Fd.THM_FOEHN.FLOOR_C →
            ∃ v, Tab.find? t.hw.thm.foehnPace e = some v ∧ 10 ≤ v ∧ v ≤ 500) ∧
          ((10 * s.hw.fld Fd.THM_FOEHN.FLOOR_C : Nat) + 30 < Tab.getD s.hw.thm.dieTemp e 600 →
            Tab.find? t.hw.thm.foehnPace e = none))) ∧
    (∀ d : Fin 8, d.val ∈ s.hw.plu.diesUp → Tab.getD s.hw.thm.cycleTb d.val 0 + 1000000000 ≤ s.hw.tb →
      ∃ t, exec (.thermalCycleSample d) s = .next t ∧ Frame [.thm] s t ∧ Tab.getD t.hw.thm.cycleTb d.val 0 = s.hw.tb ∧
        (∀ e, e ≠ d.val → Tab.find? t.hw.thm.halves e = Tab.find? s.hw.thm.halves e) ∧
        (∀ i < 4, (Tab.getD s.hw.thm.halves d.val []).getD i 0 ≤ (Tab.getD t.hw.thm.halves d.val []).getD i 0) ∧
        (s.hw.thm.saveTb + 3600000000000 ≤ s.hw.tb → t.hw.thm.savedHalves = t.hw.thm.halves) ∧
        (s.hw.tb < s.hw.thm.saveTb + 3600000000000 → t.hw.thm.savedHalves = s.hw.thm.savedHalves))) ∧
  ∀ (hd : Hdr) (s : State) (x : Session), Admits s hd x → x.role ≠ .none →
    (∀ p0 p1 : BitVec 32, p0.toNat < 2 → 30 ≤ p1.toNat → p1.toNat ≤ 70 →
      ∃ t, exec (.foehnSet hd 0 p0 p1) s = .next t ∧ Frame [.regs, .thm, .host, .fw, .nv, .out] s t ∧
        Answered s t hd 0x0603 [0] [] ∧ t.hw.fld Fd.THM_FOEHN.EN = p0.toNat ∧ t.hw.fld Fd.THM_FOEHN.FLOOR_C = p1.toNat ∧
        Tab.find? t.hw.nv Reg.THM_FOEHN = some (t.hw.reg Reg.THM_FOEHN) ∧ (p0 = 0 → t.hw.thm.foehnPace = [])) ∧
    (∀ p0 p1 : BitVec 32, 2 ≤ p0.toNat ∨ p1.toNat < 30 ∨ 70 < p1.toNat →
      ∃ t, exec (.foehnSet hd 0 p0 p1) s = .next t ∧ Frame [.host, .fw, .out] s t ∧ Answered s t hd 0x0603 [0x0103] []) ∧
    ∃ t rec, exec (.thermalQuery hd 0) s = .next t ∧ Frame [.host, .fw, .out] s t ∧ Answered s t hd 0x0604 [0] rec ∧
      rec.length = 480 ∧ beNat (rec.take 8) = s.hw.tb % 2 ^ 64 ∧
      ∀ d < 8, beNat ((rec.drop (448 + 2 * d)).take 2) = s.hw.fld (Fd.PWR_DIE_STATUS.PACE_MSTEPS d)

/-- The temperature of a stack (R125–R127): what HOLD, THROTTLE and REFRESH_X2 show after a poll, by the reading and the row the
controller acted as. -/
def Obligations.StackTemperatureRows : Prop :=
  ∀ (s : State) (n : Fin 16) (o : Option Int), s.hw.DiesExist → s.hw.flag (Fd.HBM_STATUS.IN_SERVICE n.val) = true →
    (Tab.getD s.hw.hbm n.val {}).pollTb + 1000000 ≤ s.hw.tb →
    ∃ (t : State) (x : HbmSt), exec (.hbmTempPoll n o) s = .next t ∧ x = Tab.getD s.hw.hbm n.val {} ∧
      Frame [.regs, .ctxs, .clus, .hbm, .pwr, .thm, .host, .logs, .out] s t ∧
      (∀ m, m ≠ n.val → Tab.find? t.hw.hbm m = Tab.find? s.hw.hbm m) ∧
      (∀ v, o = some v → -40 ≤ v → v ≤ 150 →
        t.hw.fld (Fd.HBM_STATUS.TEMP n.val) = (v + 64).toNat ∧
        (105 ≤ v → x.hotCount = 1 → x.mode ≠ .hold → t.hw.flag (Fd.HBM_STATUS.HOLD n.val) = true) ∧
        (105 ≤ v → x.hotCount = 0 → x.mode ≠ .hold →
          t.hw.flag (Fd.HBM_STATUS.HOLD n.val) = false ∧ t.hw.flag (Fd.HBM_STATUS.THROTTLE n.val) = true) ∧
        (v < 105 → x.mode ≠ .hold →
          t.hw.flag (Fd.HBM_STATUS.HOLD n.val) = false ∧
          t.hw.flag (Fd.HBM_STATUS.THROTTLE n.val) = decide (95 ≤ v ∨ x.hotCount = 1 ∨ (x.mode = .throttle ∧ 93 ≤ v)) ∧
          t.hw.flag (Fd.HBM_STATUS.REFRESH_X2 n.val) = decide (85 ≤ v ∨ x.hotCount = 1 ∨ (x.mode ≠ .base ∧ 83 ≤ v))) ∧
        (x.mode = .hold → t.hw.flag (Fd.HBM_STATUS.HOLD n.val) = !decide (v < 100 ∧ 1 ≤ x.coolCount)) ∧
        (x.mode = .hold → v < 100 → 1 ≤ x.coolCount → t.hw.flag (Fd.HBM_STATUS.THROTTLE n.val) = true)) ∧
      ((o = none ∨ ∃ v, o = some v ∧ (v < -40 ∨ 150 < v)) →
        (x.badCount = 2 → t.hw.flag (Fd.HBM_STATUS.TEMP_FAIL n.val) = true ∧ t.hw.flag (Fd.HBM_STATUS.HOLD n.val) = true) ∧
        (x.badCount < 2 → t.hw.flag (Fd.HBM_STATUS.HOLD n.val) = (x.mode == .hold) ∧
          t.hw.flag (Fd.HBM_STATUS.THROTTLE n.val) = (x.mode == .throttle)))

/-! ## Counters, snapshots, samples and the log (18_counters.md) -/

/-- COUNTER_CFG_WRITE (R423) and the commands COUNTER_CONFIG (R425, R426, R429), COUNTER_SNAPSHOT (R429), SAMPLE_CONFIG (R432, R433)
and LOG_READ (R436): where each completes, what it leaves alone, and what it changes or answers. -/
def Obligations.CounterCommandsComplete : Prop :=
  (∀ (s : State) (a : BitVec 32) (v : W32) (k : CtrAt), cfgAt a.toNat = some k →
    ∃ t, exec (.counterCfgWrite a v) s = .next t ∧ Frame [.regs] s t ∧
      s.hw.RegsBut [Reg.CTR_CFG k.bank k.n, Reg.CTR_CCL_STATUS] t.hw ∧
      (s.hw.served = true → s.hw.regPowered a.toNat = true →
        ((v.toNat % 256 = 0 ∨ v.toNat % 256 ∈ k.kind.events) →
          t.hw.fld (Fd.CTR_CFG.EVENT k.bank k.n) = v.toNat % 256 ∧ t.hw.reg Reg.CTR_CCL_STATUS = s.hw.reg Reg.CTR_CCL_STATUS) ∧
        (¬ (v.toNat % 256 = 0 ∨ v.toNat % 256 ∈ k.kind.events) →
          t.hw.fld (Fd.CTR_CFG.EVENT k.bank k.n) = 0 ∧ t.hw.flag Fd.CTR_CCL_STATUS.CFG_REJECT = true ∧
          t.hw.fld Fd.CTR_CCL_STATUS.MISSED = s.hw.fld Fd.CTR_CCL_STATUS.MISSED) ∧
        t.hw.flag (Fd.CTR_CFG.EN k.bank k.n) = v.getLsbD 31 ∧ t.hw.flag (Fd.CTR_CFG.CHAIN k.bank k.n) = v.getLsbD 30)) ∧
  ∀ (hd : Hdr) (s : State) (x : Session), Admits s hd x → x.role ≠ .none →
    (∀ p1 : BitVec 32, ∃ t, exec (.setWindow hd 0 p1) s = .next t ∧
      (1 ≤ p1.toNat → p1.toNat ≤ 10000000 →
        Frame [.host, .fw, .ccl, .out] s t ∧ Answered s t hd 0x0700 [0] [] ∧
        t.hw.ccl = { s.hw.ccl with pendWin := some p1.toNat }) ∧
      (p1.toNat = 0 ∨ 10000000 < p1.toNat → Frame [.host, .fw, .out] s t ∧ Answered s t hd 0x0700 [0x0103] [])) ∧
    (∀ payload : List Byte, payload.length ≤ 8184 → payload.length % 12 = 0 →
      ∃ t, exec (.applyCounterConfig hd payload) s = .next t ∧
        ((∀ e ∈ cfgEntries payload, (cfgAt e.1).isSome = true) →
          Frame [.host, .fw, .ccl, .out] s t ∧ Answered s t hd 0x0700 [0] [] ∧
          t.hw.ccl = { s.hw.ccl with pendCfg := s.hw.ccl.pendCfg ++ cfgEntries payload }) ∧
        ((∃ e ∈ cfgEntries payload, cfgAt e.1 = none) →
          Frame [.host, .fw, .out] s t ∧ Answered s t hd 0x0700 [0x0104] [])) ∧
    (∃ t, exec (.clearBanks hd 0) s = .next t ∧ Frame [.regs, .host, .fw, .ccl, .out] s t ∧ Answered s t hd 0x0700 [0] [] ∧
      (∀ a k, cfgAt a = some k → t.hw.ctrVal k.bank k.n = 0) ∧
      (∀ a, ctrAt a = none ∨ a % 16 = 0 ∨ a % 16 = 12 → t.hw.reg a = s.hw.reg a) ∧
      (∀ k, Tab.getD s.hw.ccl.ext k 0 ≤ Tab.getD t.hw.ccl.ext k 0) ∧ t.hw.ccl.cleared = true) ∧
    (∀ p0 p1 p2 p3 : BitVec 32, ∃ t, exec (.counterSnapshot hd 0 p0 p1 p2 p3) s = .next t ∧ Frame [.host, .fw, .out] s t ∧
      (17 ≤ p0.toNat ∨ 42 ≤ p1.toNat ∨ p2.toNat % 8 ≠ 0 ∨ 8192 < p3.toNat → Answered s t hd 0x0701 [0x0103] []) ∧
      (p0.toNat < 17 → p1.toNat < 42 → p2.toNat % 8 = 0 → p3.toNat ≤ 8192 →
        (Tab.getD s.hw.ccl.count p0.toNat 0 ≤ p1.toNat → Answered s t hd 0x0701 [0x0301] []) ∧
        (∀ w bs, p1.toNat < Tab.getD s.hw.ccl.count p0.toNat 0 →
          Tab.find? s.hw.ccl.rings (p0.toNat * 42 + (Tab.getD s.hw.ccl.count p0.toNat 0 - 1 - p1.toNat) % 42) = some (w, bs) →
          Answered s t hd 0x0701 [0, w] (((snapWire bs).drop p2.toNat).take p3.toNat)))) ∧
    (∀ p0 p1 p2 : BitVec 32, (p1.toNat = 0 ∨ (10 ≤ p1.toNat ∧ p1.toNat ≤ 24)) → p2.toNat < 4 → p0.toNat < 64 →
      ∃ t, exec (.sampleConfig hd 0 p0 p1 p2) s = .next t ∧
        (p0.toNat / 8 ∉ s.hw.plu.diesUp → Frame [.host, .fw, .out] s t ∧ Answered s t hd 0x0702 [0x0503] []) ∧
        (p0.toNat / 8 ∈ s.hw.plu.diesUp →
          t.pending = s.pending ∧ t.fuses = s.fuses ∧ s.hw.Only [.regs, .clus, .host, .fw, .out] t.hw ∧
          s.hw.RegsBut [Reg.TRC_SAMPLE_STATUS p0.toNat] t.hw ∧
          (∀ c, c ≠ p0.toNat → Tab.find? t.hw.clus c = Tab.find? s.hw.clus c) ∧ Answered s t hd 0x0702 [0] [] ∧
          t.hw.fld (Fd.TRC_SAMPLE_STATUS.LOG2N p0.toNat) = p1.toNat ∧
          t.hw.flag (Fd.TRC_SAMPLE_STATUS.WRAP p0.toNat) = p2.getLsbD 0 ∧
          (p1.toNat = 0 → t.hw.flag (Fd.TRC_SAMPLE_STATUS.ARMED p0.toNat) = false) ∧
          (p2.getLsbD 1 = false → t.mem = s.mem) ∧
          (p2.getLsbD 1 = true → ∀ n, n = (if s.hw.flag (Fd.TRC_CAPTURE_CTRL.VALID p0.toNat) then 8064 else 8192) →
            (p1.toNat ≠ 0 → t.hw.flag (Fd.TRC_SAMPLE_STATUS.ARMED p0.toNat) = true) ∧
            t.hw.fld (Fd.TRC_SAMPLE_STATUS.NEXT p0.toNat) = 0 ∧ Mem.But [(traceBase p0.toNat, 32 * n)] s.mem t.mem ∧
            ∀ q < 32 * n, t.mem.read (traceBase p0.toNat + q) = 0))) ∧
    (∀ p0 p1 p2 p3 : BitVec 32, ∃ t, exec (.logRead hd 0 p0 p1 p2 p3) s = .next t ∧ Frame [.host, .fw, .out] s t ∧
      (p0.toNat = 0 → Answered s t hd 0x0703 [0] (((s.hw.logs.ents.drop p2.toNat).take (min 64 p3.toNat)).flatMap LogEnt.wire)) ∧
      (p0.toNat = 1 → Answered s t hd 0x0703 [0]
        (((s.hw.logs.box.drop p2.toNat).take (min 64 p3.toNat)).flatMap (fun e => e.2.wire))) ∧
      (p0.toNat = 2 → p1.toNat < 64 → p2.toNat < 8192 → p1.toNat / 8 ∈ s.hw.plu.diesUp →
        Answered s t hd 0x0703 [0] (readSamples s.mem p1.toNat p2.toNat (min (min 256 p3.toNat) (8192 - p2.toNat)))) ∧
      (3 ≤ p0.toNat → Answered s t hd 0x0703 [0x0103] []))

/-- The end of a window (R426–R429): what falls due once the window is over, the record that the package ring takes, and what waits
for the end. -/
def Obligations.CollectorWindows : Prop :=
  ∀ (s : State) (a b : Bool) (ep br : List Nat) (ns : Nat), ns = s.hw.fld Fd.CTR_CCL_CTRL.WINDOW_US * 1000 →
    ∃ t, exec (.cclWindowEnd a b ep br) s = .next t ∧
      (s.hw.flag Fd.HUB_BRINGUP_STATUS.READY = false ∨ s.hw.tb < s.hw.ccl.startTb + ns → t = s) ∧
      (s.hw.flag Fd.HUB_BRINGUP_STATUS.READY = true → s.hw.ccl.startTb + ns ≤ s.hw.tb →
        Frame [.regs, .free, .ccl] s t ∧ t.hw.ccl.startTb = s.hw.ccl.startTb + ns ∧ t.hw.ccl.win = s.hw.ccl.win + 1 ∧
        t.hw.ccl.cleared = false ∧ t.hw.ccl.bytes = [] ∧ t.hw.ccl.pendWin = none ∧ t.hw.ccl.pendCfg = [] ∧
        (∀ k, Tab.getD s.hw.ccl.ext k 0 ≤ Tab.getD t.hw.ccl.ext k 0) ∧
        (∀ q, ctrAt q ≠ none → q % 16 = 4 ∨ q % 16 = 8 → t.hw.reg q = s.hw.reg q) ∧
        (∀ w, s.hw.ccl.pendWin = some w → w < 2 ^ 24 →
          t.hw.fld Fd.CTR_CCL_CTRL.WINDOW_US = w ∧ t.hw.ccl.changed = decide (w * 1000 ≠ ns)) ∧
        (s.hw.ccl.pendWin = none → t.hw.fld Fd.CTR_CCL_CTRL.WINDOW_US * 1000 = ns ∧ t.hw.ccl.changed = false) ∧
        (s.hw.flag Fd.CTR_CCL_CTRL.EN = false → t.hw.ccl.rings = s.hw.ccl.rings ∧ t.hw.ccl.count = s.hw.ccl.count ∧
          t.hw.fld Fd.CTR_CCL_STATUS.MISSED = s.hw.fld Fd.CTR_CCL_STATUS.MISSED) ∧
        (s.hw.flag Fd.CTR_CCL_CTRL.EN = true →
          Tab.getD t.hw.ccl.count 16 0 = Tab.getD s.hw.ccl.count 16 0 + 1 ∧
          (a = true → b = true → t.hw.fld Fd.CTR_CCL_STATUS.MISSED = s.hw.fld Fd.CTR_CCL_STATUS.MISSED ∧
            t.hw.free = s.hw.free) ∧
          (a = false → b = true → t.hw.fld Fd.CTR_CCL_STATUS.MISSED =
            min (s.hw.fld Fd.CTR_CCL_STATUS.MISSED + s.hw.ringsNow.length + 1) 0xFFFF) ∧
          (1000000 ≤ ns → ∀ p < 16, Tab.getD t.hw.ccl.count p 0 = Tab.getD s.hw.ccl.count p 0 + 1) ∧
          ∃ bs, Tab.find? t.hw.ccl.rings (16 * 42 + Tab.getD s.hw.ccl.count 16 0 % 42) = some (s.hw.ccl.win % 2 ^ 32, bs) ∧
            bs.length = 22560 ∧ leNat (bs.take 8) = (s.hw.ccl.startTb + ns) % 2 ^ 64 ∧
            leNat ((bs.drop 16).take 8) = ns % 2 ^ 64))

/-! ## Firmware (20_firmware_update.md) -/

/-- The commands of firmware (R459, R461, R462): where each completes, what it answers, and the staging after it. -/
def Obligations.FirmwareCommands : Prop :=
  ∀ (hd : Hdr) (s : State) (x : Session), Admits s hd x → (x.role = .service ∨ x.role = .vendor) →
    (∀ p0 p1 : BitVec 32, ∃ t, exec (.fwDeltaBegin hd 0 p0 p1) s = .next t ∧
      (p0.toNat < 64 ∨ 67108864 < p0.toNat ∨ p1.toNat = 0 →
        Frame [.host, .fw, .out] s t ∧ Answered s t hd 0x0802 [0x0103] []) ∧
      (64 ≤ p0.toNat → p0.toNat ≤ 67108864 → p1.toNat ≠ 0 →
        (s.hw.staging = 3 ∨ (s.hw.staging = 1 ∧ s.hw.fw.inbound = true) →
          Frame [.host, .fw, .out] s t ∧ Answered s t hd 0x0802 [0x0340] []) ∧
        (¬ (s.hw.staging = 3 ∨ (s.hw.staging = 1 ∧ s.hw.fw.inbound = true)) →
          Frame [.regs, .rtr, .host, .fw, .out] s t ∧
          s.hw.RegsBut [Reg.HUB_FW_STATUS, Reg.HUB_RELAY_STATUS, Reg.FR_STATUS] t.hw ∧ Answered s t hd 0x0802 [0] [] ∧
          t.hw.staging = 1 ∧ t.hw.fw.deltaId = p1.toNat ∧ t.hw.fw.deltaLen = p0.toNat ∧ t.hw.fw.parts = [] ∧
          t.hw.fw.inbound = false ∧ t.hw.fw.chunks = [] ∧ t.hw.fw.slots = s.hw.fw.slots))) ∧
    (∀ (p0 p1 : BitVec 32) (payload : List Byte) (flashOk : Bool), payload.length ≤ 8192 →
      ∃ t, exec (.fwDeltaData hd p0 p1 payload flashOk) s = .next t ∧
        (p0.toNat % 4 = 0 → s.hw.fw.inbound = true ∨ s.hw.staging = 0 ∨ s.hw.staging = 3 →
          Frame [.host, .fw, .out] s t ∧ Answered s t hd 0x0803 [0x0340] []) ∧
        (p0.toNat % 4 ≠ 0 → Frame [.host, .fw, .out] s t ∧ Answered s t hd 0x0803 [0x0103] []) ∧
        (p0.toNat % 4 = 0 → s.hw.fw.inbound = false → (s.hw.staging = 1 ∨ s.hw.staging = 2) →
          (crc32c payload ≠ p1.toNat ∨ s.hw.fw.deltaLen < p0.toNat + payload.length →
            Frame [.host, .fw, .out] s t ∧ Answered s t hd 0x0803 [0x0103] [] ∧ t.hw.fw.parts = s.hw.fw.parts) ∧
          (crc32c payload = p1.toNat → p0.toNat + payload.length ≤ s.hw.fw.deltaLen →
            (flashOk = false → Frame [.host, .fw, .out] s t ∧ Answered s t hd 0x0803 [0x0505] [] ∧
              t.hw.fw.parts = s.hw.fw.parts) ∧
            (flashOk = true → Frame [.regs, .host, .fw, .out] s t ∧ s.hw.RegsBut [Reg.HUB_FW_STATUS] t.hw ∧
              Answered s t hd 0x0803 [0] [] ∧ t.hw.fw.deltaLen = s.hw.fw.deltaLen ∧
              (∀ i < s.hw.fw.deltaLen, t.hw.delta.getD i 0 =
                if p0.toNat ≤ i ∧ i < p0.toNat + payload.length then payload.getD (i - p0.toNat) 0 else s.hw.delta.getD i 0) ∧
              ((∀ i < s.hw.fw.deltaLen, ∃ q ∈ t.hw.fw.parts, q.1 ≤ i ∧ i < q.1 + q.2.length) → t.hw.staging = 2) ∧
              ((∃ i < s.hw.fw.deltaLen, ∀ q ∈ t.hw.fw.parts, ¬ (q.1 ≤ i ∧ i < q.1 + q.2.length)) →
                t.hw.staging = s.hw.staging))))) ∧
    (∃ t, exec (.fwStatus hd 0) s = .next t ∧ Frame [.host, .fw, .out] s t ∧
      Answered s t hd 0x0806 [0, (s.hw.reg Reg.HUB_FW_STATUS).toNat, (s.hw.reg Reg.HUB_RELAY_STATUS).toNat,
        (s.hw.slotHead s.hw.running).generation,
        match s.hw.fw.trial with
        | some y => (y.start + 600000000000 - s.hw.tb + 999999999) / 1000000000
        | none => 0] []) ∧
    (∀ p1 p2 : BitVec 32, ∃ t, exec (.setRelayChain hd 0 p1 p2) s = .next t ∧
      (p1.toNat < 65536 → p2.toNat < 65536 →
        Frame [.regs, .host, .fw, .nv, .out] s t ∧ s.hw.RegsBut [Reg.HUB_RELAY_CFG] t.hw ∧ Answered s t hd 0x0804 [0] [] ∧
        t.hw.fld Fd.HUB_RELAY_CFG.PREV_FID = p1.toNat ∧ t.hw.fld Fd.HUB_RELAY_CFG.NEXT_FID = p2.toNat ∧
        Tab.find? t.hw.nv Reg.HUB_RELAY_CFG = some (t.hw.reg Reg.HUB_RELAY_CFG)) ∧
      (65536 ≤ p1.toNat ∨ 65536 ≤ p2.toNat → Frame [.host, .fw, .out] s t ∧ Answered s t hd 0x0804 [0x0103] [])) ∧
    (∃ t, exec (.startForwarding hd 0) s = .next t ∧
      (s.hw.staging = 0 ∨ s.hw.fld Fd.HUB_RELAY_CFG.NEXT_FID = 0xFFFF →
        Frame [.host, .fw, .out] s t ∧ Answered s t hd 0x0804 [0x0340] []) ∧
      (s.hw.staging ≠ 0 → s.hw.fld Fd.HUB_RELAY_CFG.NEXT_FID ≠ 0xFFFF →
        Frame [.regs, .links, .rtr, .host, .fw, .out] s t ∧ Answered s t hd 0x0804 [0] [] ∧
        t.hw.flag Fd.HUB_RELAY_STATUS.FORWARDING = true ∧ t.hw.fld Fd.HUB_RELAY_STATUS.ACKED = 0 ∧ t.hw.fw.acked = [] ∧
        t.hw.fw.chunks.length ≤ 64 ∧
        (∀ c ∈ t.hw.fw.chunks, c.sentTb = s.hw.tb ∧ c.resends = 0 ∧ c.off % 4076 = 0 ∧ c.off < s.hw.fw.deltaLen))) ∧
    (∃ t, exec (.stopForwarding hd 0) s = .next t ∧ Frame [.regs, .rtr, .host, .fw, .out] s t ∧
      s.hw.RegsBut [Reg.HUB_RELAY_STATUS, Reg.FR_STATUS] t.hw ∧ Answered s t hd 0x0804 [0] [] ∧
      t.hw.flag Fd.HUB_RELAY_STATUS.FORWARDING = false ∧ t.hw.fw.chunks = [] ∧ t.hw.staging = s.hw.staging ∧
      ∀ c ∈ s.hw.fw.chunks, ∀ y ∈ t.hw.rtr.xtags, y.1 ≠ c.tag) ∧
    ∀ p0 : BitVec 32, ∃ t, exec (.fwActivate hd 0 p0) s = .next t ∧
      (s.hw.staging ≠ 2 ∨ s.hw.fw.deltaId ≠ p0.toNat ∨ s.hw.fw.trial.isSome = true →
        Frame [.host, .fw, .out] s t ∧ Answered s t hd 0x0805 [0x0340] []) ∧
      (s.hw.staging = 2 → s.hw.fw.deltaId = p0.toNat → s.hw.fw.trial = none →
        (s.hw.cpx.hand.isSome = true → Frame [.host, .fw, .out] s t ∧ Answered s t hd 0x0805 [0x0301] []) ∧
        (s.hw.cpx.hand = none → s.hw.cx s.hw.otherHub ≠ 2 ∨ s.hw.flag Fd.CPX_JOURNAL.MIRROR_OK = false →
          Frame [.host, .fw, .out] s t ∧ Answered s t hd 0x0805 [0x0350] []) ∧
        (s.hw.cpx.hand = none → s.hw.cx s.hw.otherHub = 2 → s.hw.flag Fd.CPX_JOURNAL.MIRROR_OK = true →
          Frame [.regs, .host, .fw, .nv, .out] s t ∧ s.hw.RegsBut [Reg.HUB_FW_STATUS] t.hw ∧
          Answered s t hd 0x0805 [1] [] ∧ Outstanding t hd 0x0805 ∧ t.hw.staging = 3 ∧
          (s.hw.slotState 0 = 3 → t.hw.slotState 1 = 1 ∧ t.hw.slotState 0 = 3) ∧
          (s.hw.slotState 0 ≠ 3 → t.hw.slotState 0 = 1 ∧ t.hw.slotState 1 = s.hw.slotState 1)))

/-- The trade-wind relay (R460, R461): what a receiver answers and writes, and what a sender does with an answer or without one. -/
def Obligations.RelayChunks : Prop :=
  ∀ s : State,
    (∀ (d : Deliv) (g : Nat → Nat → Nat) (data : List Byte), s.hw.delivered (fun p => p.ptype == 0x20) = some d →
        (∀ a k, g a k = beNat ((d.p.payload.drop a).take k)) → data = d.p.payload.drop 20 →
      ∃ t st, exec .relayReceive s = .next t ∧ Frame [.regs, .links, .rtr, .fw] s t ∧
        (d.p.src ≠ s.hw.fld Fd.HUB_RELAY_CFG.PREV_FID → st = 3) ∧
        (d.p.src = s.hw.fld Fd.HUB_RELAY_CFG.PREV_FID →
          (crc32c data ≠ g 12 4 → st = 1) ∧
          (crc32c data = g 12 4 →
            (s.hw.staging = 3 ∨ (s.hw.staging = 1 ∧ s.hw.fw.inbound = false) → st = 2) ∧
            (s.hw.staging = 0 ∨ (s.hw.staging = 2 ∧ s.hw.fw.deltaId ≠ g 0 4) → st = 0 ∧ t.hw.fw.deltaId = g 0 4 ∧
              t.hw.fw.deltaLen = g 4 4 ∧ t.hw.fw.parts = [(g 8 4, data)] ∧ t.hw.fw.inbound = true) ∧
            (s.hw.fw.deltaId = g 0 4 → s.hw.staging = 2 ∨ (s.hw.staging = 1 ∧ s.hw.fw.inbound = true) → st = 0 ∧
              t.hw.fw.deltaLen = s.hw.fw.deltaLen ∧ t.hw.fw.parts = (g 8 4, data) :: s.hw.fw.parts))) ∧
        (st ≠ 0 → t.hw = (s.hw.undeliver (fun p => p.ptype == 0x20)).inject s.hw.holderHub
          { s.hw.packet d.p.src 2 0x21 0 (beBytes 4 (g 0 4) ++ beBytes 4 (g 8 4) ++ beBytes 1 st ++ [0, 0, 0]) with
            xtag := d.p.xtag }) ∧
        (st = 0 → bitAt (g 16 1) 0 = true → s.hw.fld Fd.HUB_RELAY_CFG.NEXT_FID ≠ 0xFFFF →
          t.hw.flag Fd.HUB_RELAY_STATUS.FORWARDING = true)) ∧
    (s.hw.delivered (fun p => p.ptype == 0x20) = none → exec .relayReceive s = .next s) ∧
    (∀ (d : Deliv) (c : Chunk) (st : Nat), s.hw.delivered (fun p => p.ptype == 0x21) = some d →
        beNat (d.p.payload.take 4) = s.hw.fw.deltaId → st = beNat ((d.p.payload.drop 8).take 1) →
        s.hw.fw.chunks.find? (fun c => c.off == beNat ((d.p.payload.drop 4).take 4)) = some c →
      ∃ t, exec .relayAckReceive s = .next t ∧ Frame [.regs, .links, .rtr, .host, .fw, .logs, .out] s t ∧
        (st = 0 → c.off ∈ t.hw.fw.acked ∧ (∀ o ∈ s.hw.fw.acked, o ∈ t.hw.fw.acked) ∧
          ∀ i, 4076 * i < t.hw.fld Fd.HUB_RELAY_STATUS.ACKED → 4076 * i ∈ t.hw.fw.acked) ∧
        (st = 3 → Frame [.rtr] s t) ∧
        (st ≠ 0 → st ≠ 3 → c.resends < 8 → t.hw.fw.chunks = s.hw.fw.chunks.map (fun x =>
          if x.off = c.off then { x with sentTb := s.hw.tb, resends := x.resends + 1 } else x)) ∧
        (st ≠ 0 → st ≠ 3 → 8 ≤ c.resends → t.hw.fw.chunks = [] ∧ t.hw.flag Fd.HUB_RELAY_STATUS.FAILED = true ∧
          t.hw.flag Fd.HUB_RELAY_STATUS.FORWARDING = false)) ∧
    (s.hw.delivered (fun p => p.ptype == 0x21) = none → exec .relayAckReceive s = .next s) ∧
    ((∀ c ∈ s.hw.fw.chunks, s.hw.tb < c.sentTb + 1000000) → exec .relayResend s = .next s) ∧
    ∀ c : Chunk, s.hw.fw.chunks.find? (fun c => decide (c.sentTb + 1000000 ≤ s.hw.tb)) = some c →
      ∃ t, exec .relayResend s = .next t ∧ Frame [.regs, .links, .rtr, .host, .fw, .logs, .out] s t ∧
        (c.resends < 8 → t.hw.fw.chunks = s.hw.fw.chunks.map (fun x =>
          if x.off = c.off then { x with sentTb := s.hw.tb, resends := x.resends + 1 } else x)) ∧
        (8 ≤ c.resends → t.hw.fw.chunks = [] ∧ t.hw.flag Fd.HUB_RELAY_STATUS.FAILED = true ∧
          t.hw.flag Fd.HUB_RELAY_STATUS.FORWARDING = false)

/-- Activation, the trial and the microcode (R462–R467). -/
def Obligations.TrialAndMicrocode : Prop :=
  ∀ s : State,
    (∀ (flashOk scanFits : Bool) (k : Nat), s.hw.staging = 3 → s.hw.slotIn 1 = some k →
      ∃ t, exec (.bundleReconstructed flashOk scanFits) s = .next t ∧
        Frame [.regs, .host, .fw, .cpx, .nv, .logs, .out] s t ∧ t.hw.staging = 2 ∧
        t.hw.flag Fd.CPX_AUTH.HELD = s.hw.flag Fd.CPX_AUTH.HELD ∧ t.hw.holderHub = s.hw.holderHub ∧
        (∀ r, s.hw.reconstruct s.fuses flashOk scanFits = .error r → t.hw.slotState k = 5 ∧
          t.hw.fld Fd.HUB_FW_STATUS.REASON = r % 32 ∧ (flashOk = false → r = 6) ∧ t.hw.cpx = s.hw.cpx ∧
          ∀ c ∈ t.hw.host.cmds, c.opcode ≠ 0x0805) ∧
        (∀ bs, s.hw.reconstruct s.fuses flashOk scanFits = .ok bs → Tab.find? t.hw.fw.slots k = some bs ∧
          (s.hw.standbyReady = true → t.hw.slotState k = 2 ∧ t.hw.cx s.hw.otherHub = 4 ∧
            t.hw.cpx.hand = some { cause := 5, startTb := s.hw.tb }) ∧
          (s.hw.standbyReady = false → t.hw.slotState k = 5 ∧ t.hw.fld Fd.HUB_FW_STATUS.REASON = 7 ∧
            ∀ c ∈ t.hw.host.cmds, c.opcode ≠ 0x0805))) ∧
    (∀ y : Trial, s.hw.fw.trial = some y →
      (∃ t, exec .confirmation s = .next t ∧
        (y.served = true → y.lost = false → (∀ d ∈ s.hw.plu.diesUp, d ∈ y.dmps ∧ s.hw.dieRuns d = true) →
          Frame [.regs, .host, .fw, .nv, .logs, .out] s t ∧ t.hw.slotState s.hw.running = 3 ∧
          t.hw.slotState (1 - s.hw.running) = 4 ∧ t.hw.flag Fd.HUB_FW_STATUS.TRIAL = false ∧ t.hw.fw.trial = none ∧
          (y.former < 2 → t.hw.cx y.former = 1) ∧ ∀ c ∈ t.hw.host.cmds, c.opcode ≠ 0x0805) ∧
        (¬ (y.served = true ∧ y.lost = false ∧ ∀ d ∈ s.hw.plu.diesUp, d ∈ y.dmps ∧ s.hw.dieRuns d = true) → t = s)) ∧
      ∀ why : Fin 3, ∃ t, exec (.trialFallBack why) s = .next t ∧
        (y.lost = true ∨ (why = 0 ∧ s.hw.tb < y.start + 600000000000) → t = s) ∧
        (y.lost = false → (why = 0 → y.start + 600000000000 ≤ s.hw.tb) → y.former < 2 →
          t.pending = s.pending ∧ t.fuses = s.fuses ∧ t.hw.flag Fd.CPX_AUTH.HELD = true ∧ t.hw.holderHub = y.former ∧
          t.hw.fld Fd.CPX_AUTH.LAST_CAUSE = 6 ∧ t.hw.cx y.former = 6 ∧ t.hw.fw.trial = none ∧
          t.hw.flag Fd.HUB_FW_STATUS.TRIAL = false ∧ t.hw.fld Fd.HUB_FW_STATUS.RUNNING = (s.hw.slotIn 3).getD 0 ∧
          (∀ k, s.hw.slotIn 2 = some k → t.hw.slotState k = 5 ∧ t.hw.fld Fd.HUB_FW_STATUS.REASON = 8 + why.val) ∧
          ∀ c ∈ t.hw.host.cmds, c.opcode ≠ 0x0805)) ∧
    (∀ (die : Fin 8) (miss : List (Fin 72 × List Nat)) (y : Trial), s.hw.fw.trial = some y →
      ∃ t, exec (.microcodeBroadcast die miss) s = .next t ∧
        (die.val ∉ s.hw.plu.diesUp ∨ y.lost = true → t = s) ∧
        (die.val ∈ s.hw.plu.diesUp → y.lost = false →
          Frame [.regs, .fw] s t ∧ s.hw.RegsBut [Reg.HUB_FW_STATUS] t.hw ∧
          (∃ z, t.hw.fw.trial = some z ∧ die.val ∈ z.dmps ∧ ∀ d ∈ y.dmps, d ∈ z.dmps) ∧
          (∀ k, k / 72 ≠ die.val → t.hw.ucode k = s.hw.ucode k) ∧
          ∀ (j : Fin 72) (u w : UCode), u = s.hw.ucode (72 * die.val + j.val) → w = t.hw.ucode (72 * die.val + j.val) →
            w.active = u.active ∧ w.version = u.version ∧
            (u.version ≠ (s.hw.slotHead s.hw.running).ucode → u.ready = false → u.stale = false →
              (miss.find? (fun e => e.1.val == j.val) = none →
                w.ready = true ∧ w.other = (s.hw.slotHead s.hw.running).ucode) ∧
              (∀ e, miss.find? (fun e => e.1.val == j.val) = some e → e.2 ≠ [] →
                w.ready = false ∧ w.stale = decide (u.writing = true ∧ 2 ≤ u.rounds))))) ∧
    (∀ core : Fin 576, ∃ t, exec (.microcodeBankSwitch core) s = .next t ∧
      ((s.hw.ucode core.val).ready = true → s.hw.occupied (punitCore core.val) = false → Frame [.fw] s t ∧
        (t.hw.ucode core.val).ready = false ∧ (t.hw.ucode core.val).active = 1 - (s.hw.ucode core.val).active ∧
        ∀ k, k ≠ core.val → t.hw.ucode k = s.hw.ucode k) ∧
      ((s.hw.ucode core.val).ready = false ∨ s.hw.occupied (punitCore core.val) = true → t = s)) ∧
    ∀ (core : Fin 576) (code : BitVec 32), ∃ t, exec (.microcode core code) s = .next t ∧ Frame [.ctxs, .fw] s t ∧
      (t.hw.ucode core.val).version = (s.hw.slotHead s.hw.running).ucode ∧
      (∀ k, k ≠ core.val → t.hw.ucode k = s.hw.ucode k) ∧
      (s.hw.coreCtx core.val = none → t.hw.ctxs = s.hw.ctxs) ∧
      ∀ c lc lk x, s.hw.coreCtx core.val = some (c, lc, lk) → Tab.find? s.hw.ctxs c = some x → x.canFault = true →
        x.run.fault = none → ∃ z f, Tab.find? t.hw.ctxs c = some z ∧ z.host.st = .faulted ∧ z.run.fault = some f ∧
          f.detail = 0x0904 ∧ f.tb = s.hw.tb ∧ f.ctx = c

/-! ## Bring-up and reset domains (15_bringup.md) -/

/-- BRINGUP_STEP, BRINGUP_GO and BRINGUP_STATUS (R356, R357, R363, R366) and TRAINING_SAVE (R369): when a stage starts, and what its
start does at once. -/
def Obligations.BringupCommandsComplete : Prop :=
  (∀ (hd : Hdr) (s : State) (x : Session), Admits s hd x → x.role ≠ .none →
    (∀ (p0 p1 : BitVec 32) (n : Nat) (may held : Prop), n = p0.toNat →
        (may ↔ (s.hw.stage + 1 = n ∧ (s.hw.stageState = 2 ∨ s.hw.stageState = 3)) ∨
          (n = 6 ∧ s.hw.stage = 3 ∧ (s.hw.stageState = 2 ∨ s.hw.stageState = 3) ∧
            s.hw.flag Fd.HUB_BRINGUP_STATUS.COLD_DONE = true) ∨
          (s.hw.stage = n ∧ (s.hw.stageState = 4 ∨ s.hw.stageState = 3))) →
        (held ↔ (n = 1 ∨ n = 3) ∧ (s.hw.flag Fd.PWR_STATUS.OFF_HOST = true ∨ s.hw.flag Fd.PWR_STATUS.OFF_BOARD = true ∨
          s.hw.flag Fd.THM_STATUS.TRIP = true)) →
      ∃ t, exec (.bringupStep hd 0 p0 p1) s = .next t ∧
        (n = 0 ∨ 10 < n ∨ 2 ≤ p1.toNat → Frame [.host, .fw, .out] s t ∧ Answered s t hd 0x0200 [0x0103] []) ∧
        (1 ≤ n → n ≤ 10 → p1.toNat < 2 →
          (s.hw.stageState = 1 → Frame [.host, .fw, .out] s t ∧ Answered s t hd 0x0200 [0x0301] []) ∧
          (s.hw.stageState ≠ 1 → ¬ may → Frame [.host, .fw, .out] s t ∧ Answered s t hd 0x0200 [0x0302] []) ∧
          (s.hw.stageState ≠ 1 → may → Frame [.regs, .slew, .links, .host, .fw, .bring, .logs, .out] s t ∧
            Answered s t hd 0x0200 [1] [] ∧ t.hw.stage = n ∧ t.hw.bring.startTb = s.hw.tb ∧
            (held → t.hw.stageState = 4 ∧ t.hw.fld Fd.HUB_BRINGUP_STATUS.REASON = 2 ∧
              t.hw.reg Reg.PKG_BOARD_STATUS = s.hw.reg Reg.PKG_BOARD_STATUS ∧ ∀ c ∈ t.hw.host.cmds, c.opcode ≠ 0x0200) ∧
            (¬ held → t.hw.stageState = 1 ∧ Outstanding t hd 0x0200 ∧
              (n = 1 → t.hw.flag Fd.PKG_BOARD_STATUS.MAIN_EN = true) ∧
              (n = 3 → t.hw.flag Fd.PKG_BOARD_STATUS.HBM_EN = true) ∧
              (n = 8 → ∀ k < 24, t.hw.flag (Fd.FL_CTRL.EN k) =
                (s.hw.flag (Fd.FL_CTRL.EN k) || !s.hw.flag (Fd.FR_PORT_CFG.UNUSED k))))))) ∧
    (∃ t, exec (.bringupStatus hd 0) s = .next t ∧ Frame [.host, .fw, .out] s t ∧
      Answered s t hd 0x0201 [0, s.hw.stage, bitsAt (s.hw.reg Reg.HUB_BRINGUP_STATUS).toNat 16 12] []) ∧
    (∀ (p0 : BitVec 32) (flashOk : Bool), p0.toNat < 16 →
      ∃ t, exec (.trainingSave hd 0 p0 flashOk) s = .next t ∧ Frame [.regs, .trainCache, .host, .fw, .bring, .out] s t ∧
        Answered s t hd 0x0203 [1] [] ∧
        (∀ c ∈ t.hw.host.cmds, ¬ (c.session = hd.session.toNat ∧ c.tag = hd.tag.toNat ∧ c.opcode = 0x0203)) ∧
        (flashOk = false → t.hw.bring = s.hw.bring ∧ t.hw.trainCache = s.hw.trainCache) ∧
        (flashOk = true →
          (∀ u ∈ s.hw.bring.saved, u ∈ t.hw.bring.saved) ∧
          (∀ u ∈ s.hw.bring.trained, (u / 64 = 0 ∧ p0.getLsbD 0 = true) ∨ (u / 64 = 1 ∧ p0.getLsbD 1 = true) →
            u ∈ t.hw.bring.saved) ∧
          (p0.getLsbD 2 = false → t.hw.trainCache = s.hw.trainCache) ∧
          (p0.getLsbD 2 = true → ∀ n < 24, s.hw.isUp n = true → s.hw.trainRec n ∈ t.hw.trainCache))) ∧
    ∀ (p0 : BitVec 32) (flashOk : Bool), 16 ≤ p0.toNat → ∃ t, exec (.trainingSave hd 0 p0 flashOk) s = .next t ∧
      Frame [.host, .fw, .out] s t ∧ Answered s t hd 0x0203 [0x0103] []) ∧
  ∀ (s : State) (v : W32) (n : Nat) (may : Prop), s.hw.served = true → n = v.toNat % 16 →
      (may ↔ 1 ≤ n ∧ n ≤ 10 ∧ s.hw.stageState ≠ 1 ∧
        ((s.hw.stage + 1 = n ∧ (s.hw.stageState = 2 ∨ s.hw.stageState = 3)) ∨
          (n = 6 ∧ s.hw.stage = 3 ∧ (s.hw.stageState = 2 ∨ s.hw.stageState = 3) ∧
            s.hw.flag Fd.HUB_BRINGUP_STATUS.COLD_DONE = true) ∨
          (s.hw.stage = n ∧ (s.hw.stageState = 4 ∨ s.hw.stageState = 3)))) →
    ∃ t, exec (.bringupGo v) s = .next t ∧
      (¬ may → Frame [.regs] s t ∧ s.hw.RegsBut [Reg.HUB_BRINGUP_STATUS] t.hw ∧
        t.hw.flag Fd.HUB_BRINGUP_STATUS.GO_REJECT = true ∧ t.hw.stage = s.hw.stage ∧ t.hw.stageState = s.hw.stageState) ∧
      (may → Frame [.regs, .slew, .links, .host, .bring, .logs, .out] s t ∧ t.hw.stage = n ∧ t.hw.bring.startTb = s.hw.tb ∧
        t.hw.bring.full = v.getLsbD 8 ∧ (n ≠ 1 → n ≠ 3 → t.hw.stageState = 1))

/-- The resets of domains (R372–R376): their refusals, their start, the package reset and the end of a domain's reset. -/
def Obligations.ResetDomains : Prop :=
  (∀ (hd : Hdr) (s : State) (x : Session), Admits s hd x → x.role ≠ .none →
    (∀ (p1 : BitVec 32) (c : Instr) (kind u : Nat) (d : Dom), u = p1.toNat → d = { kind := kind, unit := u, phase := .waits } →
        ((c = .resetDomainCore hd 0 p1 ∧ kind = 0) ∨ (c = .resetDomainCluster hd 0 p1 ∧ kind = 1) ∨
          (c = .resetDomainPartition hd 0 p1 ∧ kind = 2)) →
      ∃ t, exec c s = .next t ∧
        ((kind = 2 ∧ 16 ≤ u) ∨ (kind ≠ 2 ∧ (2048 ≤ u ∨ u / 128 % 2 = 1 ∨ 8 < u % 16)) →
          Frame [.host, .fw, .out] s t ∧ Answered s t hd 0x0202 [0x0103] []) ∧
        ((kind = 2 → u < 16) → (kind ≠ 2 → u < 2048 ∧ u / 128 % 2 = 0 ∧ u % 16 ≤ 8) →
          ((s.hw.stage < 6 ∨ (s.hw.stage = 6 ∧ s.hw.stageState = 1) ∨
              ∃ e ∈ s.hw.doms, ∃ k, k ∈ s.hw.domCores d ∧ k ∈ s.hw.domCores e) →
            Frame [.host, .fw, .out] s t ∧ Answered s t hd 0x0202 [0x0301] []) ∧
          (¬ (s.hw.stage < 6 ∨ (s.hw.stage = 6 ∧ s.hw.stageState = 1) ∨
              ∃ e ∈ s.hw.doms, ∃ k, k ∈ s.hw.domCores d ∧ k ∈ s.hw.domCores e) →
            ((kind = 0 ∧ s.hw.occupied (punitCore (unitCore u)) = true) ∨ (kind = 1 ∧ s.hw.holder (unitClus u) ≠ none) →
              Frame [.host, .fw, .out] s t ∧ Answered s t hd 0x0202 [0x0303] []) ∧
            ((kind = 0 → s.hw.occupied (punitCore (unitCore u)) = false) → (kind = 1 → s.hw.holder (unitClus u) = none) →
              Answered s t hd 0x0202 [1] [] ∧ Outstanding t hd 0x0202 ∧ t.pending = s.pending ∧ t.fuses = s.fuses ∧
              t.hw.flag Fd.HUB_RESET_STATUS.BUSY = true ∧ t.hw.fld Fd.HUB_RESET_STATUS.KIND = kind ∧
              t.hw.fld Fd.HUB_RESET_STATUS.UNIT = u ∧ (∃ e ∈ t.hw.doms, e.kind = kind ∧ e.unit = u) ∧
              (kind ≠ 2 → Frame [.regs, .doms, .host, .fw, .out] s t) ∧
              (kind = 2 → ∀ i y, Tab.find? t.hw.ctxs i = some y → y.host.part = u → y.host.st = .aborting))))) ∧
    (∀ p1 : BitVec 32, p1.toNat ≠ 0 → ∃ t, exec (.resetDomainPackage hd 0 p1) s = .next t ∧ Frame [.host, .fw, .out] s t ∧
      Answered s t hd 0x0202 [0x0103] []) ∧
    (s.hw.SavedOk → ∃ t, exec (.resetDomainPackage hd 0 0) s = .next t ∧ t.pending = s.pending ∧ t.fuses = s.fuses ∧
      Answered s t hd 0x0202 [1] [] ∧ t.hw.host.sessions = [] ∧ t.hw.host.cmds = [] ∧ t.hw.ctxs = [] ∧ t.hw.doms = [] ∧
      t.hw.plu.diesUp = [] ∧ t.hw.tb = s.hw.tb ∧ t.hw.stage = 0 ∧ t.hw.stageState = 1 ∧ t.hw.bring.startTb = s.hw.tb ∧
      t.hw.flag Fd.HUB_BRINGUP_STATUS.READY = false ∧ t.hw.flag Fd.CPX_AUTH.HELD = true ∧
      t.hw.flag Fd.HUB_BRINGUP_STATUS.COLD_DONE = s.hw.flag Fd.HUB_BRINGUP_STATUS.COLD_DONE ∧
      t.hw.flag Fd.PKG_BOARD_STATUS.MAIN_EN = false ∧ t.hw.flag Fd.PKG_BOARD_STATUS.HBM_EN = false ∧
      ∀ q < 2 ^ 48, t.mem.read q = 0)) ∧
  ∀ (s : State) (kind : Fin 3) (unit : BitVec 12) (bad : List (BitVec 32)),
    (s.hw.doms.find? (fun d => d.kind == kind.val && d.unit == unit.toNat && d.phase == .kar) = none →
      exec (.resetEnd kind unit bad) s = .next s) ∧
    ∀ d, s.hw.doms.find? (fun d => d.kind == kind.val && d.unit == unit.toNat && d.phase == .kar) = some d →
      ∃ t, exec (.resetEnd kind unit bad) s = .next t ∧ Frame [.regs, .doms, .host, .fw, .logs, .hist, .out] s t ∧
        t.hw.doms = s.hw.doms.erase d ∧ (t.hw.flag Fd.HUB_RESET_STATUS.BUSY = false ↔ t.hw.doms = []) ∧
        (∀ k ∈ s.hw.domCores d, t.hw.coreVer k = (s.hw.slotHead s.hw.running).ucode) ∧
        (∀ c ∈ t.hw.host.cmds, ¬ (c.opcode = 0x0202 ∧ c.what = d.kind ∧ c.aux = d.unit)) ∧
        (∀ p ∈ bad, p.toNat ∉ s.hw.domSuspects d → (∃ k ∈ s.hw.domCores d, punitOfCore k p.toNat = true) →
          t.hw.unitState p.toNat = 2)

/-- What each stage of bring-up ends with (R354, R358, R364–R368), and the end of a stage that misses its bound. -/
def Obligations.StageOutcomes : Prop :=
  ∀ s : State,
    (∀ r : StageIn, ∃ t, exec (.stageEnd r) s = .next t ∧
      (s.hw.stageState ≠ 1 → t = s) ∧
      (s.hw.stageState = 1 → s.hw.stageLate true = false →
        t.pending = s.pending ∧ t.fuses = s.fuses ∧
        s.hw.Only [.regs, .ctxs, .clus, .plu, .pwr, .host, .fw, .ccl, .bring, .logs, .hist, .out] t.hw ∧
        t.hw.stage = s.hw.stage ∧ (s.hw.stage ≠ 5 → t.mem = s.mem) ∧
        (t.hw.stageState ≠ 1 → ∀ c ∈ t.hw.host.cmds, c.opcode ≠ 0x0200) ∧
        (s.hw.stage = 0 → s.hw.flag Fd.CPX_AUTH.HELD = true → s.hw.cpx.suspended = none → t.hw.stageState = 2) ∧
        (s.hw.stage = 2 →
          (r.dies = [] → t.hw.stageState = 4 ∧ t.hw.fld Fd.HUB_BRINGUP_STATUS.REASON = 4) ∧
          (r.dies ≠ [] → (∀ d, d ∈ t.hw.plu.diesUp ↔ ∃ e ∈ r.dies, e.val = d) ∧
            t.hw.stageState = if ∀ e : Fin 8, e ∈ r.dies then 2 else 3)) ∧
        (s.hw.stage = 3 → s.hw.bring.okTb ≠ none →
          (∀ k : Fin 16, t.hw.flag (Fd.HBM_STATUS.IN_SERVICE k.val) = decide (k ∈ r.hbmSet ∧ k.val / 2 ∈ s.hw.plu.diesUp)) ∧
          ((∀ k ∈ r.hbmSet, k.val / 2 ∉ s.hw.plu.diesUp) → t.hw.stageState = 4 ∧
            t.hw.fld Fd.HUB_BRINGUP_STATUS.REASON = 5) ∧
          ((∃ k ∈ r.hbmSet, k.val / 2 ∈ s.hw.plu.diesUp) → t.hw.stageState = 2 ∨ t.hw.stageState = 3)) ∧
        (s.hw.stage = 4 → (r.flashOk = false → t.hw.stageState = 4 ∧ t.hw.fld Fd.HUB_BRINGUP_STATUS.REASON = 6) ∧
          (r.flashOk = true → t.hw.stageState = (if r.units = [] then 2 else 3) ∧ ∀ u ∈ r.units, t.hw.unitState u.toNat = 2)) ∧
        (s.hw.stage = 5 → t.hw.flag Fd.HUB_BRINGUP_STATUS.COLD_DONE = true ∧
          (t.hw.stageState = 2 ∨ t.hw.stageState = 3) ∧ (∀ u ∈ r.units, t.hw.unitState u.toNat = 2) ∧
          (∀ q < 2 ^ 32 + 2 ^ 32 + 2 ^ 31, t.mem.read q = 0) ∧
          ∀ i < 2, t.hw.flag (Fd.HUB_PRIVMEM_STATUS.CVE_TESTED i) = true ∧
            t.hw.fld (Fd.HUB_PRIVMEM_STATUS.CVE_SLOTS_GOOD i) = min 96 (r.slots.getD i 96)) ∧
        (s.hw.stage = 6 ∨ s.hw.stage = 7 ∨ s.hw.stage = 9 →
          (t.hw.placeables = [] → t.hw.stageState = 4 ∧ t.hw.fld Fd.HUB_BRINGUP_STATUS.REASON = 7) ∧
          (t.hw.placeables ≠ [] → t.hw.stageState = 2 ∨ t.hw.stageState = 3)) ∧
        (s.hw.stage = 7 → ∀ b : Fin 14, b.val ∈ t.hw.plu.bridgesOut ↔ b ∉ r.bridges) ∧
        (s.hw.stage = 8 → s.hw.s8Done = true → t.hw.stageState = if s.hw.s8Links.all s.hw.isUp then 2 else 3) ∧
        (s.hw.stage = 9 → ∀ (k : Fin 576) (u : BitVec 32), u ∈ r.units → punitOfCore k.val u.toNat = true →
          k.val / 72 ∈ s.hw.plu.diesUp → s.hw.coreGood k.val = true → t.hw.unitState u.toNat = 2) ∧
        (s.hw.stage = 10 → t.hw.stageState = 2 ∧ t.hw.flag Fd.HUB_BRINGUP_STATUS.READY = true ∧
          t.hw.flag Fd.HUB_BRINGUP_STATUS.COMPUTE = s.hw.computeOk ∧ t.hw.ccl.startTb = s.hw.tb ∧
          t.hw.fld Fd.PWR_IDLE.IDLE_W = s.hw.fld Fd.PWR_STATUS.POWER_W))) ∧
    ∀ full : Bool, ∃ t, exec (.stageTimeout full) s = .next t ∧
      (¬ (s.hw.stageState = 1 ∧ s.hw.stageLate full = true) → t = s) ∧
      (s.hw.stageState = 1 → s.hw.stageLate full = true → Frame [.regs, .host, .logs, .out] s t ∧
        t.hw.stage = s.hw.stage ∧ (∀ c ∈ t.hw.host.cmds, c.opcode ≠ 0x0200) ∧
        (s.hw.stage = 8 → t.hw.stageState = if s.hw.s8Links.all s.hw.isUp then 2 else 3) ∧
        (s.hw.stage ≠ 8 → t.hw.stageState = 4 ∧ t.hw.fld Fd.HUB_BRINGUP_STATUS.REASON = 1) ∧
        (s.hw.stage = 1 → t.hw.flag Fd.PKG_BOARD_STATUS.MAIN_EN = false))

/-- The power signals of the board (R361, R363, R472–R476): AUX_PWROK, the two PWROKs and PKG_RESET_N. -/
def Obligations.PowerSignals : Prop :=
  ∀ s : State, s.hw.SavedOk →
    (∃ t, exec .auxPwrokFall s = .next t ∧
      (s.hw.flag Fd.PKG_BOARD_STATUS.AUX_PWROK = false → t = s) ∧
      (s.hw.flag Fd.PKG_BOARD_STATUS.AUX_PWROK = true → t.pending = s.pending ∧ t.fuses = s.fuses ∧
        (∀ a, t.hw.reg a = regReset a) ∧ t.hw.nv = s.hw.nv ∧ t.hw.trainCache = s.hw.trainCache ∧
        t.hw.fw.slots = s.hw.fw.slots ∧ t.hw.logs.box = s.hw.logs.box ∧ t.hw.logs.ents = [] ∧
        t.hw.hist.ents = s.hw.hist.ents ∧ t.hw.ctxs = [] ∧ t.hw.host.sessions = [] ∧ t.hw.plu.diesUp = [] ∧
        t.hw.plu.pins = s.hw.plu.pins ∧ ∀ q < 2 ^ 48, t.mem.read q = 0)) ∧
    (∀ (slot : BitVec 6) (a b : MemTests), ∃ t, exec (.auxPwrokRise slot a b) s = .next t ∧
      (s.hw.flag Fd.PKG_BOARD_STATUS.AUX_PWROK = true → t = s) ∧
      (s.hw.flag Fd.PKG_BOARD_STATUS.AUX_PWROK = false → Frame [.regs, .tb, .slew, .host, .sep, .nv, .logs, .out] s t ∧
        t.hw.tb = 0 ∧ t.hw.slew = 0 ∧ t.hw.flag Fd.PKG_BOARD_STATUS.AUX_PWROK = true ∧
        t.hw.fld Fd.PKG_BOARD_STATUS.SLOT_ID = slot.toNat ∧ t.hw.stage = 0 ∧ t.hw.stageState = 1 ∧
        t.hw.flag (Fd.HUB_PRIVMEM_STATUS.SSRAM_OK 0) = a.ssram ∧ t.hw.flag (Fd.HUB_PRIVMEM_STATUS.PSRAM_OK 1) = b.psram ∧
        ((a.ssram && a.cpx && a.psram) = false → t.hw.cx 0 = 0) ∧ ((b.ssram && b.cpx && b.psram) = false → t.hw.cx 1 = 0))) ∧
    (∃ t, exec .mainPwrokRise s = .next t ∧
      (s.hw.flag Fd.PKG_BOARD_STATUS.AUX_PWROK = false ∨ s.hw.flag Fd.PKG_BOARD_STATUS.MAIN_PWROK = true → t = s) ∧
      (s.hw.flag Fd.PKG_BOARD_STATUS.AUX_PWROK = true → s.hw.flag Fd.PKG_BOARD_STATUS.MAIN_PWROK = false →
        Frame [.regs, .host, .bring, .logs, .out] s t ∧ t.hw.flag Fd.PKG_BOARD_STATUS.MAIN_PWROK = true ∧
        (s.hw.flag Fd.PKG_BOARD_STATUS.MAIN_EN = false → t.hw.flag Fd.PKG_BOARD_STATUS.PWROK_GLITCH = true ∧
          t.hw.stageState = s.hw.stageState) ∧
        (s.hw.flag Fd.PKG_BOARD_STATUS.MAIN_EN = true → s.hw.stage = 1 → s.hw.stageState = 1 →
          s.hw.stageLate false = false → t.hw.stage = 1 ∧ t.hw.stageState = 2))) ∧
    (∃ t, exec .hbmPwrokRise s = .next t ∧
      (s.hw.flag Fd.PKG_BOARD_STATUS.AUX_PWROK = false ∨ s.hw.flag Fd.PKG_BOARD_STATUS.HBM_PWROK = true → t = s) ∧
      (s.hw.flag Fd.PKG_BOARD_STATUS.AUX_PWROK = true → s.hw.flag Fd.PKG_BOARD_STATUS.HBM_PWROK = false →
        Frame [.regs, .host, .bring, .logs, .out] s t ∧ t.hw.flag Fd.PKG_BOARD_STATUS.HBM_PWROK = true ∧
        (s.hw.flag Fd.PKG_BOARD_STATUS.HBM_EN = false → t.hw.flag Fd.PKG_BOARD_STATUS.PWROK_GLITCH = true ∧
          t.hw.bring = s.hw.bring) ∧
        (s.hw.flag Fd.PKG_BOARD_STATUS.HBM_EN = true → s.hw.stage = 3 → s.hw.stageState = 1 →
          s.hw.stageLate false = false → t.hw.bring = { s.hw.bring with okTb := some s.hw.tb } ∧ t.hw.stageState = 1))) ∧
    (∀ (sig : Fin 2) (f : Fld), f = (if sig = 0 then Fd.PKG_BOARD_STATUS.MAIN_PWROK else Fd.PKG_BOARD_STATUS.HBM_PWROK) →
      ∃ t, exec (.pwrokFall sig) s = .next t ∧ (s.hw.flag f = false → t = s) ∧
        (s.hw.flag f = true → t.pending = s.pending ∧ t.fuses = s.fuses ∧ t.hw.flag f = false ∧
          (s.hw.pwrPassed sig.val = false → t.mem = s.mem ∧ s.hw.RegsBut [Reg.PKG_BOARD_STATUS] t.hw ∧ t.hw.ctxs = s.hw.ctxs) ∧
          (s.hw.pwrPassed sig.val = true → t.hw.flag Fd.HUB_BRINGUP_STATUS.LOST_MAIN = true ∧
            t.hw.flag Fd.PKG_BOARD_STATUS.MAIN_EN = false ∧ t.hw.flag Fd.PKG_BOARD_STATUS.HBM_EN = false ∧ t.hw.stage = 0 ∧
            t.hw.flag Fd.HUB_BRINGUP_STATUS.READY = false ∧ t.hw.plu.diesUp = [] ∧
            (∀ x ∈ s.hw.host.sessions, ∃ y ∈ t.hw.host.sessions, y.id = x.id) ∧
            (s.hw.stageState = 1 → s.hw.stage ≠ 0 → ∀ c ∈ t.hw.host.cmds, c.opcode ≠ 0x0200) ∧
            ∀ c x, Tab.find? s.hw.ctxs c = some x → x.resident = true → x.canFault = true → x.run.fault = none →
              ∃ y r, Tab.find? t.hw.ctxs c = some y ∧ y.host.st = .faulted ∧ y.run.fault = some r ∧ r.cls = 8))) ∧
    (∃ t, exec .pkgResetN s = .next t ∧
      (s.hw.flag Fd.PKG_BOARD_STATUS.AUX_PWROK = false ∨ s.hw.board.resetPin ≠ none → t = s) ∧
      (s.hw.flag Fd.PKG_BOARD_STATUS.AUX_PWROK = true → s.hw.board.resetPin = none →
        t.pending = s.pending ∧ t.fuses = s.fuses ∧ t.hw.board.resetPin = some s.hw.tb ∧ t.hw.host.sessions = [] ∧
        t.hw.ctxs = [] ∧ t.hw.plu.diesUp = [] ∧ t.hw.stage = 0 ∧ t.hw.stageState = 1 ∧ t.hw.tb = s.hw.tb)) ∧
    (s.hw.board.resetPin = none → exec .pkgResetNRelease s = .next s) ∧
    ∀ u, s.hw.board.resetPin = some u → ∃ t, exec .pkgResetNRelease s = .next t ∧ Frame [.cpx, .bring, .board] s t ∧
      t.hw.board.resetPin = none ∧ t.hw.bring.startTb = s.hw.tb ∧
      t.hw.cpx.suspended = (if s.hw.flag Fd.CPX_AUTH.HELD = true then some s.hw.tb else none)

/-! ## Security and life cycle (19_security.md) -/

/-- LIFECYCLE_SET (R439–R443): its refusals, the rotation of the owner key, and a transition, over fuses in the order that burns leave
them in (`FusesOnlyBurn` states that every step keeps it). -/
def Obligations.LifecycleMoves : Prop :=
  ∀ (hd : Hdr) (s : State) (x : Session) (p0 : BitVec 32) (r : List Byte) (busy : Prop), Admits s hd x → x.role ≠ .none →
    r.length = 306 → s.fuses.Ok →
    (busy ↔ s.hw.cpx.hand ≠ none ∨ s.hw.fw.trial ≠ none ∨ s.hw.staging = 3) →
    ∃ t, exec (.lifecycleSet hd p0 r) s = .next t ∧
      (busy → Frame [.host, .fw, .out] s t ∧ Answered s t hd 0x0801 [0x0301] []) ∧
      (¬ busy → lcAllowed s.fuses p0.toNat r = false →
        Frame [.regs, .host, .fw, .logs, .out] s t ∧ s.hw.RegsBut [Reg.CTR_LOG_STATUS] t.hw ∧
        Answered s t hd 0x0801 [0x0220] [] ∧ ∃ e, t.hw.logs.ents.head? = some e ∧ e.severity = 3 ∧ e.tb = s.hw.tb) ∧
      (¬ busy → lcAllowed s.fuses p0.toNat r = true →
        t.fuses.Ok ∧ t.pending = s.pending ∧ t.hw.tb = s.hw.tb ∧ t.hw.fld Fd.SEP_LC_STATUS.STATE = t.fuses.lcState ∧
        t.hw.fld Fd.SEP_LC_STATUS.LC_COUNT = t.fuses.lcCount ∧
        (s.fuses.lcState = 3 → p0.toNat = 3 → Answered s t hd 0x0801 [0] [] ∧ t.fuses.lcState = 3 ∧
          t.fuses.lcCount = s.fuses.lcCount ∧ t.mem = s.mem ∧ t.hw.ctxs = s.hw.ctxs ∧
          (∃ k < 4, s.fuses.ownerSet k = false ∧ t.fuses.ownerSet k = true ∧
            t.fuses.ownerDigest k = Config.shake512 (authBytes r 72 57)) ∧
          (∀ k, s.fuses.activeOwner = some k → t.fuses.ownerRevoked k = true ∧
            ∀ y ∈ t.hw.host.sessions, ¬ (y.role = .service ∧ Config.shake512 y.hostKey = s.fuses.ownerDigest k)) ∧
          t.hw.reg (Reg.SEP_SSRAM_STATUS 0) = s.hw.reg (Reg.SEP_SSRAM_STATUS 0)) ∧
        (¬ (s.fuses.lcState = 3 ∧ p0.toNat = 3) → Answered s t hd 0x0801 [1] [] ∧ t.fuses.lcState = p0.toNat ∧
          (s.fuses.lcCount < 15 → t.fuses.lcCount = s.fuses.lcCount + 1) ∧ (s.fuses.lcCount = 15 → p0.toNat = 5) ∧
          t.hw.host.sessions = [] ∧ (∀ c ∈ t.hw.host.cmds, ¬ (c.session = hd.session.toNat ∧ c.tag = hd.tag.toNat ∧
            c.opcode = 0x0801)) ∧
          t.hw.fld (Fd.SEP_SSRAM_STATUS.LAST_CAUSE s.hw.holderHub) = 5 ∧ (1 - s.hw.holderHub) ∈ t.hw.sep.wipeReq ∧
          (s.fuses.lcState = 4 → p0.toNat = 2 → t.hw.sep.ops = [] ∧ ∀ k < 4, t.fuses.ownerRevoked k = true) ∧
          (s.fuses.lcState = 1 → p0.toNat = 2 → ∃ c, t.hw.sep.cert = some c ∧ c.length = 288) ∧
          ((s.fuses.lcState = 3 ∧ p0.toNat = 4) ∨ p0.toNat = 5 → ∀ c y, Tab.find? s.hw.ctxs c = some y → y.resident = true →
            Tab.find? t.hw.ctxs c = none)))

/-- Tamper and wipe requests (R113, R450), the operator list (R447, R448, R452) and ATTEST_REPORT (R451). -/
def Obligations.WipesKeysAndReports : Prop :=
  (∀ s : State,
    (∀ (hub : Fin 2) (cause : Fin 4), ∃ t, exec (.tamperEvent hub cause) s = .next t ∧
      (s.hw.flag Fd.PKG_BOARD_STATUS.AUX_PWROK = false → t = s) ∧
      (s.hw.flag Fd.PKG_BOARD_STATUS.AUX_PWROK = true → Frame [.regs, .host, .sep, .logs, .out] s t ∧
        s.hw.RegsBut [Reg.SEP_SSRAM_STATUS hub.val, Reg.SEP_LC_STATUS, Reg.CTR_LOG_STATUS] t.hw ∧ t.hw.host.sessions = [] ∧
        t.hw.fld (Fd.SEP_SSRAM_STATUS.LAST_CAUSE hub.val) = cause.val + 1 ∧
        t.hw.fld Fd.SEP_LC_STATUS.TAMPER_CNT = min (s.hw.fld Fd.SEP_LC_STATUS.TAMPER_CNT + 1) 255 ∧
        t.hw.fld Fd.SEP_LC_STATUS.STATE = s.hw.fld Fd.SEP_LC_STATUS.STATE ∧ (1 - hub.val) ∈ t.hw.sep.wipeReq ∧
        (∃ e, t.hw.logs.box.head? = some e ∧ e.2.severity = 5 ∧ e.2.tb = s.hw.tb))) ∧
    (∀ hub : Fin 2, ∃ t, exec (.wipeRequest hub) s = .next t ∧ (hub.val ∉ s.hw.sep.wipeReq → t = s) ∧
      (hub.val ∈ s.hw.sep.wipeReq → Frame [.regs, .host, .sep] s t ∧ s.hw.RegsBut [Reg.SEP_SSRAM_STATUS hub.val] t.hw ∧
        t.hw.host.sessions = [] ∧ t.hw.fld (Fd.SEP_SSRAM_STATUS.LAST_CAUSE hub.val) = 6 ∧ hub.val ∉ t.hw.sep.wipeReq ∧
        t.hw.fld (Fd.SEP_SSRAM_STATUS.WIPE_CNT hub.val) =
          min (s.hw.fld (Fd.SEP_SSRAM_STATUS.WIPE_CNT hub.val) + 1) 0xFFFF)) ∧
    (∀ (slot : Fin 16) (key : List Byte) (role : Nat), key = s.hw.keyData.take 57 → role = (s.hw.keyData.getD 57 0).toNat →
      ∃ t, exec (.keyCommit slot) s = .next t ∧ Frame [.regs, .host, .sep] s t ∧ s.hw.RegsBut [Reg.SEP_KEY_CTRL] t.hw ∧
        t.hw.fld Fd.SEP_KEY_CTRL.SLOT = slot.val ∧
        (¬ (s.fuses.lcState = 3 ∨ s.fuses.lcState = 4) ∨ (role ≠ 1 ∧ role ≠ 2) ∨ s.hw.keyTaken s.fuses slot.val key = true →
          t.hw.sep = s.hw.sep ∧ t.hw.host = s.hw.host) ∧
        ((s.fuses.lcState = 3 ∨ s.fuses.lcState = 4) → (role = 1 ∨ role = 2) → s.hw.keyTaken s.fuses slot.val key = false →
          (∀ n e, (n, e) ∈ t.hw.sep.ops ↔ (n = slot.val ∧ e = (key, role)) ∨ (n ≠ slot.val ∧ (n, e) ∈ s.hw.sep.ops)) ∧
          (∀ n < 16, bitAt (t.hw.fld Fd.SEP_KEY_CTRL.VALID) n = t.hw.sep.ops.any (fun e => e.1 == n)) ∧
          ∀ y, y ∈ t.hw.host.sessions ↔ y ∈ s.hw.host.sessions ∧ ¬ (y.keySlot = some slot.val ∧ y.hostKey ≠ key))) ∧
    (∀ slot : Fin 16, ∃ t, exec (.keyRemove slot) s = .next t ∧ Frame [.regs, .host, .sep] s t ∧
      s.hw.RegsBut [Reg.SEP_KEY_CTRL] t.hw ∧
      (¬ (s.fuses.lcState = 3 ∨ s.fuses.lcState = 4) → t.hw.sep = s.hw.sep ∧ t.hw.host = s.hw.host) ∧
      ((s.fuses.lcState = 3 ∨ s.fuses.lcState = 4) →
        (∀ e, e ∈ t.hw.sep.ops ↔ e ∈ s.hw.sep.ops ∧ e.1 ≠ slot.val) ∧
        bitAt (t.hw.fld Fd.SEP_KEY_CTRL.VALID) slot.val = false ∧
        ∀ y, y ∈ t.hw.host.sessions ↔ y ∈ s.hw.host.sessions ∧ y.keySlot ≠ some slot.val)) ∧
    ∀ on : Bool, ∃ t, exec (.serviceEnWrite on) s = .next t ∧
      (¬ (s.fuses.lcState = 3 ∨ s.fuses.lcState = 4) → t = s) ∧
      ((s.fuses.lcState = 3 ∨ s.fuses.lcState = 4) → Frame [.regs, .host, .nv] s t ∧
        s.hw.RegsBut [Reg.SEP_KEY_CTRL, Reg.SEP_LC_STATUS] t.hw ∧ t.hw.flag Fd.SEP_KEY_CTRL.SERVICE_EN = on ∧
        t.hw.flag Fd.SEP_LC_STATUS.SERVICE_EN = on ∧
        t.hw.flag Fd.SEP_KEY_CTRL.IMG_SIG_REQ = s.hw.flag Fd.SEP_KEY_CTRL.IMG_SIG_REQ ∧
        ∀ y, y ∈ t.hw.host.sessions ↔ y ∈ s.hw.host.sessions ∧ ¬ (on = false ∧ s.fuses.lcState = 3 ∧ y.role = .vendor))) ∧
  ∀ (hd : Hdr) (s : State) (x : Session) (nonce : List Byte), Admits s hd x → x.role ≠ .none → nonce.length = 32 →
    ∃ t rep, exec (.attestReport hd nonce) s = .next t ∧ Frame [.host, .fw, .out] s t ∧ Answered s t hd 0x0800 [0] rep ∧
      rep.length = 530 + 80 * (s.hw.attEntries s.fuses).length ∧ rep.take 5 = [0x56, 0x41, 0x54, 0x52, 1] ∧
      rep.getD 5 0 = BitVec.ofNat 8 s.fuses.lcState ∧ beNat ((rep.drop 8).take 8) = s.hw.tb % 2 ^ 64 ∧
      (rep.drop 16).take 32 = nonce ∧ (rep.drop 48).take 64 = digestBytes deviceId ∧
      rep.getD 112 0 = BitVec.ofNat 8 s.fuses.lcCount ∧
      (rep.drop 128).take (80 * (s.hw.attEntries s.fuses).length) = (s.hw.attEntries s.fuses).flatten

/-! ## Contexts, loading and placement (09_placement.md, 13_host_protocol.md) -/

/-- CTX_CREATE, CTX_START, CTX_STOP, CTX_ABORT and CTX_QUERY (R332, R333, R335, R359, R383). -/
def Obligations.ContextCommandsComplete : Prop :=
  ∀ (hd : Hdr) (s : State) (x : Session), Admits s hd x → x.role ≠ .none →
    (∀ p0 p1 p2 p3 : BitVec 32, ∃ t, exec (.ctxCreate hd 0 p0 p1 p2 p3) s = .next t ∧
      (2 ^ 21 ≤ p0.toNat ∨ 60000 < p1.toNat → Frame [.host, .fw, .out] s t ∧ Answered s t hd 0x0300 [0x0103] []) ∧
      (p0.toNat < 2 ^ 21 → p1.toNat ≤ 60000 →
        (s.hw.flag Fd.HUB_BRINGUP_STATUS.READY = false ∨ s.fuses.lcState = 1 ∨ s.fuses.lcState = 5 →
          Frame [.host, .fw, .out] s t ∧ Answered s t hd 0x0300 [0x0301] []) ∧
        (s.hw.flag Fd.HUB_BRINGUP_STATUS.READY = true → s.fuses.lcState ≠ 1 → s.fuses.lcState ≠ 5 →
          ((∀ c < 64, Tab.find? s.hw.ctxs c ≠ none) → Frame [.host, .fw, .out] s t ∧ Answered s t hd 0x0300 [0x0402] []) ∧
          (∀ c g, c < 64 → Tab.find? s.hw.ctxs c = none → (∀ d < c, Tab.find? s.hw.ctxs d ≠ none) →
              g = (match Tab.find? s.hw.gens c with
                | some g => (g + 1) % 1023
                | none => 0) →
            Frame [.ctxs, .gens, .host, .fw, .out] s t ∧ Answered s t hd 0x0300 [0, c + 64 * g] [] ∧
            (∀ d, d ≠ c → Tab.find? t.hw.ctxs d = Tab.find? s.hw.ctxs d) ∧
            ∃ y, t.hw.ctxOf (c + 64 * g) = some (c, y) ∧ y.host.gen = g ∧ y.host.st = .created ∧ y.host.image = none ∧
              y.host.job = p0.toNat % 2 ^ 16 ∧ y.host.part = p0.toNat / 2 ^ 16 % 16 ∧ y.host.countersUser = p0.getLsbD 20 ∧
              y.host.stallMs = (if p1 = 0 then 2000 else p1.toNat) ∧ y.host.seed = p2.toNat + 2 ^ 32 * p3.toNat)))) ∧
    ∀ (c : Nat) (y : Ctx), s.hw.ctxOf hd.ctx.toNat = some (c, y) →
      (∀ sn : Seen, ∃ t, exec (.ctxStart hd 0 sn) s = .next t ∧
        (y.host.st ≠ .stopped → y.host.st ≠ .loaded → Frame [.host, .fw, .out] s t ∧ Answered s t hd 0x0302 [0x0303] []) ∧
        (y.host.st = .stopped → Frame [.regs, .ctxs, .host, .fw, .out] s t ∧ Answered s t hd 0x0302 [0] [] ∧
          ∃ z, Tab.find? t.hw.ctxs c = some z ∧ (z.host.st = .running ∨ z.host.st = .faulted)) ∧
        (y.host.st = .loaded → Answered s t hd 0x0302 [1] [] ∧ Outstanding t hd 0x0302 ∧ t.pending = s.pending ∧
          t.fuses = s.fuses ∧ s.hw.Only [.regs, .ctxs, .cores, .clus, .hbm, .xcl, .pwr, .thm, .host, .fw, .logs, .hist, .out] t.hw ∧
          t.hw.thm.foehnPace = [] ∧
          ∃ z, Tab.find? t.hw.ctxs c = some z ∧ z.host.startTb = s.hw.tb ∧ z.run.epochSeq = 0 ∧
            (y.img.decl.len = none → z.host.st = .running ∧
              ∀ p ∈ y.allStreams, (z.run.strm (strmKey p.1 p.2.1 p.2.2)).pc = 0))) ∧
      (∃ t, exec (.ctxStop hd 0) s = .next t ∧
        (y.host.st ≠ .running → y.host.st ≠ .stopped → Frame [.host, .fw, .out] s t ∧ Answered s t hd 0x0303 [0x0303] []) ∧
        (y.host.st = .stopped → Frame [.host, .fw, .out] s t ∧ Answered s t hd 0x0303 [1] [] ∧
          ∀ k ∈ t.hw.host.cmds, ¬ (k.ctx = hd.ctx.toNat ∧ k.opcode = 0x0303)) ∧
        (y.host.st = .running → Frame [.ctxs, .host, .fw, .out] s t ∧ Answered s t hd 0x0303 [1] [] ∧
          (∀ d, d ≠ c → Tab.find? t.hw.ctxs d = Tab.find? s.hw.ctxs d) ∧
          ∃ z, Tab.find? t.hw.ctxs c = some z ∧ z.run = y.run ∧
            ((∃ p ∈ y.allStreams, (y.run.strm (strmKey p.1 p.2.1 p.2.2)).inflight ≠ []) →
              z.host = { y.host with stopping := true } ∧ Outstanding t hd 0x0303) ∧
            ((∀ p ∈ y.allStreams, (y.run.strm (strmKey p.1 p.2.1 p.2.2)).inflight = []) →
              z.host = { y.host with st := .stopped, stopping := false, stopTb := s.hw.tb } ∧
              ∀ k ∈ t.hw.host.cmds, ¬ (k.ctx = hd.ctx.toNat ∧ k.opcode = 0x0303)))) ∧
      (∀ p0 : BitVec 32, ∃ t, exec (.ctxAbort hd 0 p0) s = .next t ∧
        (2 ≤ p0.toNat → Frame [.host, .fw, .out] s t ∧ Answered s t hd 0x0304 [0x0103] []) ∧
        (p0.toNat < 2 → y.host.st = .aborting → Frame [.host, .fw, .out] s t ∧ Answered s t hd 0x0304 [0x0303] []) ∧
        (p0.toNat < 2 → y.host.st ≠ .aborting → Answered s t hd 0x0304 [1] [] ∧ t.pending = s.pending ∧ t.fuses = s.fuses ∧
          c ∉ t.hw.plu.waiting ∧
          (∀ k ∈ t.hw.host.cmds, ¬ (k.ctx = hd.ctx.toNat ∧ k.opcode = 0x0301)) ∧
          (Tab.find? t.hw.ctxs c = none ∨ ∃ z, Tab.find? t.hw.ctxs c = some z ∧ z.host.st = .aborting))) ∧
      ∀ p0 : BitVec 32, ∃ t rec, exec (.ctxQuery hd 0 p0) s = .next t ∧ Frame [.host, .fw, .out] s t ∧
        Answered s t hd 0x0305 [0] rec ∧ rec = y.record c p0.toNat ∧ rec.getD 0 0 = BitVec.ofNat 8 y.host.st.code ∧
        beNat ((rec.drop 2).take 2) = y.host.job % 2 ^ 16 ∧ beNat ((rec.drop 8).take 4) = y.run.epochSeq % 2 ^ 32 ∧
        (∀ f, y.run.fault = some f → (rec.drop 64).take 64 = f.bytes true ∧ bitAt (rec.getD 5 0).toNat 0 = true) ∧
        (y.run.fault = none → (rec.drop 64).take 64 = List.replicate 64 0 ∧ bitAt (rec.getD 5 0).toNat 0 = false)

/-- IMAGE_LOAD (R198, R199, R334), PLACEMENT_BIND (R199, R206, R216, R226), PLACEMENT_QUERY (R225) and PLACEMENT_PIN (R222). -/
def Obligations.LoadsAndPlacement : Prop :=
  (∀ (hd : Hdr) (s : State) (x : Session), Admits s hd x → x.role ≠ .none →
    (∀ (c : Nat) (y : Ctx), s.hw.ctxOf hd.ctx.toNat = some (c, y) →
      (∀ (p0 p1 p2 : BitVec 32) (payload : List Byte) (parts : List (Nat × List Byte)), payload.length ≤ 8192 →
          parts = (p0.toNat, payload) :: y.host.parts →
        ∃ t, exec (.imageLoad hd p0 p1 p2 payload) s = .next t ∧
          (y.host.st ≠ .created ∨ y.host.image.isSome = true →
            Frame [.host, .fw, .out] s t ∧ Answered s t hd 0x0301 [0x0310] []) ∧
          (y.host.st = .created → y.host.image = none →
            (2 ≤ p2.toNat ∨ p1.toNat = 0 ∨ 2 ^ 31 < p1.toNat ∨ p1.toNat < p0.toNat + payload.length ∨
                (∃ n, y.host.total = some n ∧ n ≠ p1.toNat) →
              Frame [.host, .fw, .out] s t ∧ Answered s t hd 0x0301 [0x0103] []) ∧
            (1 ≤ p1.toNat → p1.toNat ≤ 2 ^ 31 → p0.toNat + payload.length ≤ p1.toNat →
                (y.host.total = none ∨ y.host.total = some p1.toNat) →
              (p2 = 0 → Frame [.ctxs, .host, .fw, .out] s t ∧ Answered s t hd 0x0301 [0] [] ∧
                Tab.find? t.hw.ctxs c = some { y with host := { y.host with parts := parts, total := some p1.toNat } }) ∧
              (p2 = 1 → ∀ gap, gap < p1.toNat → (∀ q ∈ parts, ¬ (q.1 ≤ gap ∧ gap < q.1 + q.2.length)) →
                  (∀ i < gap, ∃ q ∈ parts, q.1 ≤ i ∧ i < q.1 + q.2.length) →
                Frame [.ctxs, .host, .fw, .out] s t ∧ Answered s t hd 0x0301 [0x0111, gap] []) ∧
              (p2 = 1 → (∀ i < p1.toNat, ∃ q ∈ parts, q.1 ≤ i ∧ i < q.1 + q.2.length) →
                Frame [.regs, .ctxs, .plu, .host, .fw, .out] s t ∧ s.hw.RegsBut [Reg.PLU_STATUS] t.hw ∧
                Answered s t hd 0x0301 [1] [] ∧
                (∀ e, checkImage s y.host.countersUser (assemble parts p1.toNat) = .error e →
                  t.hw.plu = s.hw.plu ∧ (∀ k ∈ t.hw.host.cmds, ¬ (k.ctx = hd.ctx.toNat ∧ k.opcode = 0x0301)) ∧
                  ∃ z, Tab.find? t.hw.ctxs c = some z ∧ z.host.st = .created ∧ z.host.image = none ∧ z.host.parts = []) ∧
                (∀ img, checkImage s y.host.countersUser (assemble parts p1.toNat) = .ok img →
                  t.hw.plu.waiting = s.hw.plu.waiting ++ [c] ∧ Outstanding t hd 0x0301 ∧
                  ∃ z, Tab.find? t.hw.ctxs c = some z ∧ z.host.st = .created ∧ z.host.image = some img ∧
                    z.host.digest = Config.shake512 (assemble parts p1.toNat)))))) ∧
      (∀ p0 p1 p2 : BitVec 32, ∃ t, exec (.placementQuery hd 0 p0 p1 p2) s = .next t ∧ Frame [.host, .fw, .out] s t ∧
        (y.host.place = none → Answered s t hd 0x0306 [0x0303] []) ∧
        (∀ p, y.host.place = some p →
          (2 ≤ p0.toNat → Answered s t hd 0x0306 [0x0103] []) ∧
          (p0 = 0 → p1.toNat ≤ 255 → Answered s t hd 0x0306 [0] (placeSummary c y p p1.toNat)) ∧
          (p0 = 1 → y.img.hbm? p1.toNat = none → Answered s t hd 0x0306 [0x0108] []) ∧
          (p0 = 1 → ∀ d, y.img.hbm? p1.toNat = some d →
            (d.pages ≤ p2.toNat → Answered s t hd 0x0306 [0x0108] []) ∧
            (p2.toNat < d.pages → Answered s t hd 0x0306 [0] (placePages p d p2.toNat) ∧
              (placePages p d p2.toNat).length = 16 + 4 * min 2040 (d.pages - p2.toNat))))) ∧
      (∀ p1 : BitVec 32, ∃ t, exec (.pinRecord hd 0 p1) s = .next t ∧
        (7 < p1.toNat → Frame [.host, .fw, .out] s t ∧ Answered s t hd 0x0307 [0x0103] []) ∧
        (p1.toNat ≤ 7 → y.host.place = none → Frame [.host, .fw, .out] s t ∧ Answered s t hd 0x0307 [0x0311] []) ∧
        (∀ p, p1.toNat ≤ 7 → y.host.place = some p → Frame [.plu, .host, .fw, .out] s t ∧ Answered s t hd 0x0307 [0] [] ∧
          Tab.find? t.hw.plu.pins p1.toNat = some (pinOf y p) ∧
          ∀ n, n ≠ p1.toNat → Tab.find? t.hw.plu.pins n = Tab.find? s.hw.plu.pins n)) ∧
      ∀ p1 : BitVec 32, ∃ t, exec (.pinBind hd 0 p1) s = .next t ∧
        (7 < p1.toNat → Frame [.host, .fw, .out] s t ∧ Answered s t hd 0x0307 [0x0103] []) ∧
        (p1.toNat ≤ 7 → Tab.find? s.hw.plu.pins p1.toNat = none →
          Frame [.host, .fw, .out] s t ∧ Answered s t hd 0x0307 [0x0119] []) ∧
        (p1.toNat ≤ 7 → Tab.find? s.hw.plu.pins p1.toNat ≠ none →
          (y.host.st ≠ .created ∨ y.host.image.isSome = true →
            Frame [.host, .fw, .out] s t ∧ Answered s t hd 0x0307 [0x0311] []) ∧
          (y.host.st = .created → y.host.image = none → Frame [.ctxs, .host, .fw, .out] s t ∧
            Answered s t hd 0x0307 [0] [] ∧
            Tab.find? t.hw.ctxs c = some { y with host := { y.host with pinSlot := some p1.toNat } }))) ∧
    ∀ p1 : BitVec 32, ∃ t, exec (.pinClear hd 0 p1) s = .next t ∧
      (7 < p1.toNat → Frame [.host, .fw, .out] s t ∧ Answered s t hd 0x0307 [0x0103] []) ∧
      (p1.toNat ≤ 7 → Frame [.plu, .host, .fw, .out] s t ∧ Answered s t hd 0x0307 [0] [] ∧
        Tab.find? t.hw.plu.pins p1.toNat = none ∧ ∀ n, n ≠ p1.toNat → Tab.find? t.hw.plu.pins n = Tab.find? s.hw.plu.pins n)) ∧
  ∀ s : State, (s.hw.plu.waiting = [] → exec .placementBind s = .next s) ∧
    ∀ (c : Nat) (rest : List Nat) (y : Ctx), s.hw.plu.waiting = c :: rest → Tab.find? s.hw.ctxs c = some y →
      ∃ t, exec .placementBind s = .next t ∧ t.pending = s.pending ∧ t.fuses = s.fuses ∧
        s.hw.Only [.regs, .ctxs, .clus, .plu, .host, .ccl, .out] t.hw ∧ t.hw.plu.waiting = rest ∧
        (∀ k ∈ t.hw.host.cmds, ¬ (k.ctx = s.hw.handle c ∧ k.opcode = 0x0301)) ∧
        (∀ d, d ≠ c → Tab.find? t.hw.ctxs d = Tab.find? s.hw.ctxs d) ∧
        (∀ e, s.hw.findPlace y = .error e → t.mem = s.mem ∧ s.hw.RegsBut [Reg.PLU_STATUS] t.hw ∧
          ∃ z, Tab.find? t.hw.ctxs c = some z ∧ z.host = { y.host with image := none, digest := 0, checking := false }) ∧
        (∀ cl co pg pinned, s.hw.findPlace y = .ok (cl, co, pg, pinned) →
          t.hw.fld Fd.PLU_STATUS.LAST_RESULT = 0 ∧
          ∃ z p, Tab.find? t.hw.ctxs c = some z ∧ z.host.st = .loaded ∧ z.host.place = some p ∧ p.clusters = cl ∧
            p.cores = co ∧ p.pages = pg.pages ∧ p.pinned = pinned ∧ p.placedTb = s.hw.tb ∧
            ∀ key f, Tab.find? pg.pages key = some f → f < 2 ^ 20 → ∀ q < pageBytes,
              t.mem.read (hbmAddr (f * pageBytes) + q) = 0)

/-! ## The host's access to memory, and RoCEv2 (13_host_protocol.md) -/

/-- MEM_WRITE, MEM_READ and MEM_FILL (R122, R130, R335): the ranges of memory that an access reaches are those the translation finds,
through the hub that serves the command, by the same function that the meanings use. -/
def Obligations.HostMemoryCommands : Prop :=
  ∀ (hd : Hdr) (s : State) (x : Session), Admits s hd x → x.role ≠ .none →
    ∀ (c : Nat) (y : Ctx) (sn : Seen) (g : Hw) (m : Mem), s.hw.ctxOf hd.ctx.toNat = some (c, y) →
      g = (s.hw.heard hd x).seen sn → m = s.mem.seen sn →
      (∀ (p0 p1 p2 : BitVec 32) (payload : List Byte) (row : Except Cond Place), payload.length ≤ 8192 →
          row = (g.hostRow m c y (64 + s.hw.holderHub) true p0.toNat (wide p1 p2) payload.length).2 →
        ∃ t, exec (.memWrite hd p0 p1 p2 payload sn) s = .next t ∧ t.pending = s.pending ∧ t.fuses = s.fuses ∧
          s.hw.Only [.regs, .hbm, .xcl, .host, .fw, .ccl, .logs, .hist, .out] t.hw ∧
          (y.resident = false → Frame [.host, .fw, .out] s t ∧ Answered s t hd 0x0400 [0x0303] []) ∧
          (y.resident = true →
            (∀ e, row = .error e → Answered s t hd 0x0400 [hostStatus e] [] ∧ Mem.But [] s.mem t.mem) ∧
            (∀ p, row = .ok p → m.writable p.segs = (p.segs, none) →
              Answered s t hd 0x0400 [0] [] ∧ Mem.But p.segs s.mem t.mem ∧
              ∀ a, p.segs = [(a, payload.length)] → t.mem.reads a payload.length = payload) ∧
            (∀ p segs u, row = .ok p → m.writable p.segs = (segs, some u) →
              Answered s t hd 0x0400 [0x0501] [] ∧ Mem.But segs s.mem t.mem))) ∧
      (∀ (p0 p1 p2 p3 : BitVec 32) (row : Except Cond Place),
          row = (g.hostRow m c y (64 + s.hw.holderHub) false p0.toNat (wide p1 p2) p3.toNat).2 →
        ∃ t, exec (.memRead hd 0 p0 p1 p2 p3 sn) s = .next t ∧ t.pending = s.pending ∧ t.fuses = s.fuses ∧
          s.hw.Only [.regs, .hbm, .xcl, .host, .fw, .ccl, .logs, .hist, .out] t.hw ∧ Mem.But [] s.mem t.mem ∧
          (p3.toNat = 0 ∨ 8192 < p3.toNat → Frame [.host, .fw, .out] s t ∧ Answered s t hd 0x0401 [0x0103] []) ∧
          (1 ≤ p3.toNat → p3.toNat ≤ 8192 → y.resident = false →
            Frame [.host, .fw, .out] s t ∧ Answered s t hd 0x0401 [0x0303] []) ∧
          (1 ≤ p3.toNat → p3.toNat ≤ 8192 → y.resident = true →
            (∀ e, row = .error e → Answered s t hd 0x0401 [hostStatus e] []) ∧
            (∀ p, row = .ok p → m.rowUe p = none → Answered s t hd 0x0401 [0] (s.mem.row p)) ∧
            (∀ p u, row = .ok p → m.rowUe p = some u → Answered s t hd 0x0401 [0x0501] []))) ∧
      (∀ (region off len : Nat) (write : Bool) (d : HbmDecl),
        (y.img.hbm? region = none → (g.hostRow m c y (64 + s.hw.holderHub) write region off len).1 = g ∧
          ∃ e, (g.hostRow m c y (64 + s.hw.holderHub) write region off len).2 = .error e ∧ hostStatus e = 0x0108) ∧
        (y.img.hbm? region = some d → d.pages * pageBytes < off + len →
          ∃ e, (g.hostRow m c y (64 + s.hw.holderHub) write region off len).2 = .error e ∧ hostStatus e = 0x0108)) ∧
      ∀ (p0 p1 p2 p3 p4 p5 : BitVec 32) (n : Nat), n = wide p3 p4 →
        ∃ t, exec (.memFill hd 0 p0 p1 p2 p3 p4 p5 sn) s = .next t ∧ t.pending = s.pending ∧ t.fuses = s.fuses ∧
          s.hw.Only [.regs, .hbm, .xcl, .host, .fw, .ccl, .logs, .hist, .out] t.hw ∧
          (n % 4 ≠ 0 → Frame [.host, .fw, .out] s t ∧ Answered s t hd 0x0403 [0x0103] []) ∧
          (n % 4 = 0 → y.resident = false → Frame [.host, .fw, .out] s t ∧ Answered s t hd 0x0403 [0x0303] []) ∧
          (n % 4 = 0 → y.resident = true →
            (y.img.hbm? p0.toNat = none → Frame [.host, .fw, .out] s t ∧ Answered s t hd 0x0403 [0x0108] []) ∧
            ∀ d, y.img.hbm? p0.toNat = some d →
              (d.pages * pageBytes < wide p1 p2 + n → Frame [.host, .fw, .out] s t ∧ Answered s t hd 0x0403 [0x0108] []) ∧
              (wide p1 p2 + n ≤ d.pages * pageBytes → Answered s t hd 0x0403 [1] [] ∧
                (∀ k ∈ t.hw.host.cmds, ¬ (k.session = hd.session.toNat ∧ k.tag = hd.tag.toNat ∧ k.opcode = 0x0403)) ∧
                ∀ p a, (g.hostRow m c y (64 + s.hw.holderHub) true p0.toNat (wide p1 p2) n).2 = .ok p →
                  m.writable p.segs = (p.segs, none) → Mem.But p.segs s.mem t.mem ∧
                  (p.segs = [(a, n)] → ∀ i < n, t.mem.read (a + i) = (leBytes 4 p5.toNat).getD (i % 4) 0)))

/-- RDMA_BIND and the requests of a queue pair (R319, R320); the codes of the answers and the rule of packet sequence numbers are the
model's (log entry 21). -/
def Obligations.RdmaBindingsAndRequests : Prop :=
  (∀ (hd : Hdr) (s : State) (x : Session), Admits s hd x → x.role ≠ .none →
    (∀ (p1 p2 p3 : BitVec 32) (payload : List Byte), payload.length = 16 →
      ∃ t, exec (.qpOpen hd p1 p2 p3 payload) s = .next t ∧
        (7 < p1.toNat ∨ 2 ^ 24 ≤ p2.toNat ∨ 2 ^ 24 ≤ p3.toNat → Frame [.host, .fw, .out] s t ∧ Answered s t hd 0x0402 [0x0103] []) ∧
        (p1.toNat ≤ 7 → p2.toNat < 2 ^ 24 → p3.toNat < 2 ^ 24 →
          (512 ≤ s.hw.rdma.qps.length → Frame [.host, .fw, .out] s t ∧ Answered s t hd 0x0402 [0x0404] []) ∧
          (s.hw.rdma.qps.length < 512 → Frame [.free, .rdma, .host, .fw, .out] s t ∧
            (∃ psn < 2 ^ 24, Answered s t hd 0x0402 [0, s.hw.rdma.nextQp, psn] []) ∧
            t.hw.rdma = { s.hw.rdma with nextQp := s.hw.rdma.nextQp + 1, qps := s.hw.rdma.qps ++
              [{ num := s.hw.rdma.nextQp, port := p1.toNat, remote := p2.toNat, addr := beNat payload, psn := p3.toNat }] }))) ∧
    (∀ p1 : BitVec 32, ∃ t, exec (.qpClose hd 0 p1) s = .next t ∧
      (s.hw.qp? p1.toNat = none → Frame [.host, .fw, .out] s t ∧ Answered s t hd 0x0402 [0x0103] []) ∧
      (s.hw.qp? p1.toNat ≠ none → Frame [.rdma, .host, .fw, .out] s t ∧ Answered s t hd 0x0402 [0] [] ∧
        t.hw.rdma.mrs = s.hw.rdma.mrs ∧ ∀ q, q ∈ t.hw.rdma.qps ↔ q ∈ s.hw.rdma.qps ∧ q.num ≠ p1.toNat)) ∧
    (∀ p1 : BitVec 32, ∃ t, exec (.mrUnbind hd 0 p1) s = .next t ∧
      ((∀ b ∈ s.hw.rdma.mrs, b.rkey ≠ p1.toNat) → Frame [.host, .fw, .out] s t ∧ Answered s t hd 0x0402 [0x0103] []) ∧
      ((∃ b ∈ s.hw.rdma.mrs, b.rkey = p1.toNat) → Frame [.rdma, .host, .fw, .out] s t ∧ Answered s t hd 0x0402 [0] [] ∧
        t.hw.rdma.qps = s.hw.rdma.qps ∧ ∀ b, b ∈ t.hw.rdma.mrs ↔ b ∈ s.hw.rdma.mrs ∧ b.rkey ≠ p1.toNat)) ∧
    ∀ (c : Nat) (y : Ctx) (p1 p2 p3 p4 : BitVec 32), s.hw.ctxOf hd.ctx.toNat = some (c, y) → y.resident = true →
      (p1.toNat < 1024 → ∃ t, exec (.mrBind hd 0 p1 p2 p3 p4) s = .next t ∧
        (y.img.hbm? (p1.toNat % 256) = none → Frame [.host, .fw, .out] s t ∧ Answered s t hd 0x0402 [0x0108] []) ∧
        ∀ d, y.img.hbm? (p1.toNat % 256) = some d →
          (d.pages * pageBytes < wide p2 p3 + p4.toNat → Frame [.host, .fw, .out] s t ∧ Answered s t hd 0x0402 [0x0108] []) ∧
          (wide p2 p3 + p4.toNat ≤ d.pages * pageBytes →
            (4096 ≤ s.hw.rdma.mrs.length → Frame [.host, .fw, .out] s t ∧ Answered s t hd 0x0402 [0x0404] []) ∧
            (s.hw.rdma.mrs.length < 4096 → Frame [.rdma, .host, .fw, .out] s t ∧
              Answered s t hd 0x0402 [0, s.hw.rdma.nextKey] [] ∧
              t.hw.rdma = { s.hw.rdma with nextKey := s.hw.rdma.nextKey + 1, mrs := s.hw.rdma.mrs ++
                [⟨s.hw.rdma.nextKey, c, p1.toNat % 256, p1.getLsbD 8, p1.getLsbD 9, wide p2 p3, p4.toNat⟩] }))) ∧
      (∃ t, exec (.ringBind hd 0 p1 p2 p3 p4) s = .next t ∧
        (p4.toNat = 0 ∨ p4.toNat % 4096 ≠ 0 ∨ s.hw.qp? (p1.toNat % 2 ^ 24) = none →
          Frame [.host, .fw, .out] s t ∧ Answered s t hd 0x0402 [0x0103] []) ∧
        (∀ q d, p4.toNat ≠ 0 → p4.toNat % 4096 = 0 → s.hw.qp? (p1.toNat % 2 ^ 24) = some q →
            y.img.hbm? (p1.toNat / 2 ^ 24) = some d → wide p2 p3 + p4.toNat ≤ d.pages * pageBytes →
          Frame [.rdma, .host, .fw, .out] s t ∧ Answered s t hd 0x0402 [0] [] ∧
          t.hw.qp? (p1.toNat % 2 ^ 24) =
            some { q with ring := some { ctx := c, region := p1.toNat / 2 ^ 24, off := wide p2 p3, len := p4.toNat } }))) ∧
  ∀ (s : State) (port : Fin 8) (qpn psn : BitVec 24) (rkey : BitVec 32) (off : BitVec 64) (len : BitVec 32) (body : List Byte)
      (sn : Seen),
    (s.hw.reach port.val qpn.toNat = none →
      ∀ cmd ∈ [Instr.rdmaSend port qpn psn body sn, .rdmaWrite port qpn psn rkey off body sn,
          .rdmaRead port qpn psn rkey off len sn, .rdmaInvalidRequest port qpn psn, .ceMarkedPacket port qpn],
        exec cmd s = .next s) ∧
    ∀ (q : Qp) (say : Nat → Nat → List Byte → Out), s.hw.reach port.val qpn.toNat = some q →
        (∀ code n b, say code n b = .rdma q.port q.remote code n b) →
      (q.kind psn.toNat = .gap →
        ∀ cmd ∈ [Instr.rdmaSend port qpn psn body sn, .rdmaWrite port qpn psn rkey off body sn,
            .rdmaRead port qpn psn rkey off len sn], exec cmd s = .next (s.say [say 0x60 q.psn []])) ∧
      (q.kind psn.toNat = .again →
        ∀ cmd ∈ [Instr.rdmaSend port qpn psn body sn, .rdmaWrite port qpn psn rkey off body sn],
          exec cmd s = .next (s.say [say 0x00 psn.toNat []])) ∧
      (q.kind psn.toNat = .next →
        (4096 < body.length → exec (.rdmaSend port qpn psn body sn) s = .next (s.say [say 0x61 psn.toNat []])) ∧
        (body.length ≤ 4096 → q.ring = none ∨ (∃ r, q.ring = some r ∧ r.len / 4096 ≤ r.used) →
          exec (.rdmaSend port qpn psn body sn) s = .next (s.say [say 0x20 psn.toNat []])) ∧
        (∀ r y p, body.length ≤ 4096 → q.ring = some r → r.used < r.len / 4096 → Tab.find? s.hw.ctxs r.ctx = some y →
            ((s.hw.seen sn).hostRow (s.mem.seen sn) r.ctx y (64 + port.val / 4) true r.region (r.off + 4096 * r.used)
              body.length).2 = .ok p → (s.mem.seen sn).writable p.segs = (p.segs, none) →
          ∃ t, exec (.rdmaSend port qpn psn body sn) s = .next t ∧ t.pending = s.pending ∧ t.fuses = s.fuses ∧
            s.hw.Only [.regs, .hbm, .xcl, .rdma, .host, .ccl, .logs, .hist, .out] t.hw ∧ Sent s t (say 0x00 psn.toNat []) ∧
            Mem.But p.segs s.mem t.mem ∧ (∀ a, p.segs = [(a, body.length)] → t.mem.reads a body.length = body) ∧
            t.hw.qp? q.num = some { q with ring := some { r with used := r.used + 1 }, psn := (psn.toNat + 1) % 2 ^ 24 }) ∧
        (∀ (b : Mr) (y : Ctx), s.hw.rdma.mrs.find? (fun b => b.rkey == rkey.toNat) = some b →
            Tab.find? s.hw.ctxs b.ctx = some y →
          (b.write = false ∨ off.toNat < b.off ∨ b.off + b.len < off.toNat + body.length →
            exec (.rdmaWrite port qpn psn rkey off body sn) s = .next (s.say [say 0x62 psn.toNat []])) ∧
          (∀ p, b.write = true → b.off ≤ off.toNat → off.toNat + body.length ≤ b.off + b.len →
              ((s.hw.seen sn).hostRow (s.mem.seen sn) b.ctx y (64 + port.val / 4) true b.region off.toNat body.length).2 =
                .ok p → (s.mem.seen sn).writable p.segs = (p.segs, none) →
            ∃ t, exec (.rdmaWrite port qpn psn rkey off body sn) s = .next t ∧ t.pending = s.pending ∧ t.fuses = s.fuses ∧
              s.hw.Only [.regs, .hbm, .xcl, .rdma, .host, .ccl, .logs, .hist, .out] t.hw ∧ Sent s t (say 0x00 psn.toNat []) ∧
              Mem.But p.segs s.mem t.mem ∧ (∀ a, p.segs = [(a, body.length)] → t.mem.reads a body.length = body) ∧
              t.hw.qp? q.num = some { q with psn := (psn.toNat + packetsOf body.length) % 2 ^ 24 }) ∧
          (b.read = false ∨ off.toNat < b.off ∨ b.off + b.len < off.toNat + len.toNat →
            exec (.rdmaRead port qpn psn rkey off len sn) s = .next (s.say [say 0x62 psn.toNat []])) ∧
          (∀ p, b.read = true → b.off ≤ off.toNat → off.toNat + len.toNat ≤ b.off + b.len →
              ((s.hw.seen sn).hostRow (s.mem.seen sn) b.ctx y (64 + port.val / 4) false b.region off.toNat len.toNat).2 =
                .ok p → (s.mem.seen sn).rowUe p = none →
            ∃ t, exec (.rdmaRead port qpn psn rkey off len sn) s = .next t ∧ t.pending = s.pending ∧ t.fuses = s.fuses ∧
              s.hw.Only [.regs, .hbm, .xcl, .rdma, .host, .ccl, .logs, .hist, .out] t.hw ∧ Mem.But [] s.mem t.mem ∧
              Sent s t (say 0x10 psn.toNat (s.mem.row p)) ∧
              t.hw.qp? q.num = some { q with psn := (psn.toNat + packetsOf len.toNat) % 2 ^ 24 }))) ∧
      (∃ t, exec (.rdmaInvalidRequest port qpn psn) s = .next t ∧ Frame [.rdma, .out] s t ∧ Sent s t (say 0x61 psn.toNat []) ∧
        t.hw.qp? q.num = some { q with err := true } ∧ t.hw.reach port.val qpn.toNat = none) ∧
      ∃ t, exec (.ceMarkedPacket port qpn) s = .next t ∧
        ((∃ u, q.cnpTb = some u ∧ s.hw.tb < u + 50000) → t = s) ∧
        ((∀ u, q.cnpTb = some u → u + 50000 ≤ s.hw.tb) → Frame [.rdma, .out] s t ∧ Sent s t (say 0x81 0 []) ∧
          t.hw.qp? q.num = some { q with cnpTb := some s.hw.tb })

/-! ## Groups, routes and links as the host commands them (10_fabric_links.md, 11_fabric_routing.md, 12_collectives.md) -/

/-- GROUP_SET, GROUP_CLEAR, FABRIC_QUIESCE, ROUTE_WRITE, a write to FR_ROUTE, CONGESTION_READ and the actions of LINK_STATE
(R261, R283–R286, R289, R290). That members take the lowest free run of places is the model's choice. -/
def Obligations.FabricHostCommands : Prop :=
  (∀ (hd : Hdr) (s : State) (x : Session), Admits s hd x → x.role ≠ .none →
    (∀ (p0 : BitVec 32) (pl : List Byte) (q : GroupPart), 14 ≤ pl.length → pl.length ≤ 8014 → pl.length % 2 = 0 → q = groupPart pl →
      ∃ t, exec (.groupSet hd p0 pl) s = .next t ∧ Frame [.regs, .cve, .host, .fw, .out] s t ∧
        (1024 ≤ p0.toNat ∨ q.fieldsOk = false → Frame [.host, .fw, .out] s t ∧ Answered s t hd 0x0500 [0x0130] []) ∧
        (p0.toNat < 1024 → q.fieldsOk = true → s.hw.flag (Fd.CVE_GRP_W1.BOUND p0.toNat) = true →
          Frame [.host, .fw, .out] s t ∧ Answered s t hd 0x0500 [0x0330] []) ∧
        (p0.toNat < 1024 → q.fieldsOk = true → s.hw.flag (Fd.CVE_GRP_W1.BOUND p0.toNat) = false →
          (∃ k < 1024, k ≠ p0.toNat ∧ s.hw.flag (Fd.CVE_GRP_W1.VALID k) = true ∧
              s.hw.fld (Fd.CVE_GRP_W0.GID k) = bitsAt q.w0 16 16) →
          Frame [.host, .fw, .out] s t ∧ Answered s t hd 0x0500 [0x0132] []) ∧
        (p0.toNat < 1024 → q.fieldsOk = true → s.hw.flag (Fd.CVE_GRP_W1.BOUND p0.toNat) = false →
            (∀ k < 1024, k ≠ p0.toNat → s.hw.flag (Fd.CVE_GRP_W1.VALID k) = true →
              s.hw.fld (Fd.CVE_GRP_W0.GID k) ≠ bitsAt q.w0 16 16) →
            (s.hw.grp p0.toNat).words ≠ some (q.w0, q.w1, q.m) →
          (s.hw.freeRun p0.toNat q.m = none → Frame [.host, .fw, .out] s t ∧ Answered s t hd 0x0500 [0x0430] []) ∧
          (∀ off, s.hw.freeRun p0.toNat q.m = some off →
            (q.fids.length = q.m → membersOk (s.hw.fld Fd.FR_FID.FID) q.fids = false →
              Frame [.host, .fw, .out] s t ∧ Answered s t hd 0x0500 [0x0131] []) ∧
            (q.fids.length < q.m ∨ membersOk (s.hw.fld Fd.FR_FID.FID) q.fids = true → Answered s t hd 0x0500 [0] [] ∧
              s.hw.RegsBut [Reg.CVE_GRP_W0 p0.toNat, Reg.CVE_GRP_W1 p0.toNat, Reg.CVE_GRP_W2 p0.toNat, Reg.CVE_GRP_W3 p0.toNat] t.hw ∧
              (t.hw.reg (Reg.CVE_GRP_W0 p0.toNat)).toNat = q.w0 ∧
              (t.hw.reg (Reg.CVE_GRP_W1 p0.toNat)).toNat % 2 ^ 29 = q.w1 ∧
              (t.hw.flag (Fd.CVE_GRP_W1.VALID p0.toNat) = true ↔ q.fids.length = q.m) ∧
              t.hw.fld (Fd.CVE_GRP_W2.M p0.toNat) = q.m ∧ t.hw.fld (Fd.CVE_GRP_W3.MOFF p0.toNat) = off ∧
              (q.fids.length = q.m → q.fids[t.hw.fld (Fd.CVE_GRP_W2.MY_INDEX p0.toNat)]? = some (s.hw.fld Fd.FR_FID.FID)) ∧
              (∀ (i f : Nat), q.fids[i]? = some f → t.hw.cve.members.find? (off + q.first + i) = some f) ∧
              (∀ k, k ≠ p0.toNat → t.hw.grp k = s.hw.grp k) ∧ t.hw.cve.colls = s.hw.cve.colls)))) ∧
    (∀ p0 : BitVec 32, ∃ t, exec (.groupClear hd 0 p0) s = .next t ∧
      (1024 ≤ p0.toNat → Frame [.host, .fw, .out] s t ∧ Answered s t hd 0x0501 [0x0130] []) ∧
      (p0.toNat < 1024 → s.hw.flag (Fd.CVE_GRP_W1.BOUND p0.toNat) = true →
        Frame [.host, .fw, .out] s t ∧ Answered s t hd 0x0501 [0x0330] []) ∧
      (p0.toNat < 1024 → s.hw.flag (Fd.CVE_GRP_W1.BOUND p0.toNat) = false →
        Frame [.regs, .cve, .host, .fw, .out] s t ∧ Answered s t hd 0x0501 [0] [] ∧
        s.hw.RegsBut [Reg.CVE_GRP_W0 p0.toNat, Reg.CVE_GRP_W1 p0.toNat, Reg.CVE_GRP_W2 p0.toNat, Reg.CVE_GRP_W3 p0.toNat] t.hw ∧
        t.hw.reg (Reg.CVE_GRP_W0 p0.toNat) = 0 ∧ t.hw.reg (Reg.CVE_GRP_W1 p0.toNat) = 0 ∧
        t.hw.reg (Reg.CVE_GRP_W2 p0.toNat) = 0 ∧ t.hw.reg (Reg.CVE_GRP_W3 p0.toNat) = 0 ∧ t.hw.grp p0.toNat = {} ∧
        (∀ k, k ≠ p0.toNat → t.hw.grp k = s.hw.grp k) ∧
        ∀ a n, (s.hw.grp p0.toNat).place = some (a, n) → ∀ i, t.hw.cve.members.find? i =
          if a ≤ i ∧ i < a + n then none else s.hw.cve.members.find? i)) ∧
    (∃ t, exec (.fabricQuiesceStart hd 0) s = .next t ∧ Frame [.regs, .host, .fw, .out] s t ∧ Answered s t hd 0x0502 [1] [] ∧
      s.hw.RegsBut [Reg.FR_STATUS] t.hw ∧ t.hw.flag Fd.FR_STATUS.QUIESCED = true ∧
      (s.hw.flag Fd.FR_STATUS.DRAINED = false → Outstanding t hd 0x0502) ∧
      (s.hw.flag Fd.FR_STATUS.DRAINED = true → t.hw.host.cmds = s.hw.host.cmds)) ∧
    (∃ t, exec (.fabricQuiesceResume hd 0) s = .next t ∧ Answered s t hd 0x0502 [0] [] ∧
      (s.hw.flag Fd.FR_STATUS.QUIESCED = false → Frame [.host, .fw, .out] s t) ∧
      (s.hw.flag Fd.FR_STATUS.QUIESCED = true → Frame [.regs, .links, .rtr, .host, .fw, .out] s t ∧
        t.hw.flag Fd.FR_STATUS.QUIESCED = false ∧ t.hw.flag Fd.FR_STATUS.DRAINED = false ∧
        t.hw.host.cmds = s.hw.host.cmds.filter (fun c => c.opcode != 0x0502) ∧
        (s.hw.rtr.inj = [] → t.hw.links = s.hw.links ∧ s.hw.RegsBut [Reg.FR_STATUS] t.hw))) ∧
    (∀ (p0 : BitVec 32) (pl : List Byte), pl.length ≤ 8192 → pl.length % 4 = 0 →
      ∃ t, exec (.routeWrite hd p0 pl) s = .next t ∧
        (65536 ≤ p0.toNat ∨ 65536 < p0.toNat + pl.length / 4 →
          Frame [.host, .fw, .out] s t ∧ Answered s t hd 0x0503 [0x0103] []) ∧
        (p0.toNat < 65536 → p0.toNat + pl.length / 4 ≤ 65536 → s.hw.flag Fd.FR_STATUS.QUIESCED = false →
          Frame [.regs, .host, .fw, .out] s t ∧ Answered s t hd 0x0503 [0x0320] [] ∧ s.hw.RegsBut [Reg.FR_STATUS] t.hw ∧
          t.hw.flag Fd.FR_STATUS.TBL_REJECT = true) ∧
        (p0.toNat < 65536 → p0.toNat + pl.length / 4 ≤ 65536 → s.hw.flag Fd.FR_STATUS.QUIESCED = true →
          Frame [.regs, .host, .fw, .out] s t ∧ Answered s t hd 0x0503 [0] [] ∧
          s.hw.RegsBut ((List.range (pl.length / 4)).map (fun i => Reg.FR_ROUTE (p0.toNat + i))) t.hw ∧
          ∀ i < pl.length / 4, ∀ v, v = beNat ((pl.drop (4 * i)).take 4) →
            t.hw.fld (Fd.FR_ROUTE.LOCAL (p0.toNat + i)) = v / 2 ^ 31 ∧
            t.hw.fld (Fd.FR_ROUTE.PORTS (p0.toNat + i)) = v % 2 ^ 24)) ∧
    (∀ p0 : BitVec 32, ∃ t, exec (.congestionRead hd 0 p0) s = .next t ∧ Frame [.host, .fw, .out] s t ∧
      (16 ≤ p0.toNat → Answered s t hd 0x0504 [0x0103] []) ∧
      ∀ w, p0.toNat < 16 → s.hw.rtr.windows[p0.toNat]? = some w →
        Answered s t hd 0x0504 [0] (congestionRecord w) ∧ (congestionRecord w).length = 784) ∧
    (∀ p0 : BitVec 32, 24 ≤ p0.toNat → p0.toNat ≠ 0xFF →
      ∀ c ∈ [Instr.linkStateRead hd 0 p0, .linkStateEnable hd 0 p0, .linkStateDisable hd 0 p0, .linkStateRetrain hd 0 p0,
          .linkStateSetDead hd 0 p0],
        ∃ t, exec c s = .next t ∧ Frame [.host, .fw, .out] s t ∧ Answered s t hd 0x0505 [0x0103] []) ∧
    (∀ c ∈ [Instr.linkStateRead hd 0 0xFF, .linkStateEnable hd 0 0xFF, .linkStateDisable hd 0 0xFF, .linkStateRetrain hd 0 0xFF,
        .linkStateSetDead hd 0 0xFF],
      ∃ t, exec c s = .next t ∧ Frame [.regs, .slew, .links, .host, .fw, .logs, .out] s t ∧
        Answered s t hd 0x0505 [0] ((List.range 24).flatMap (fun n => beBytes 4 (t.hw.reg (Reg.FL_STATE n)).toNat)) ∧
        (c = .linkStateDisable hd 0 0xFF → ∀ n < 24, t.hw.linkState n = 0 ∧ t.hw.flag (Fd.FL_CTRL.EN n) = false) ∧
        (c = .linkStateSetDead hd 0 0xFF → ∀ n < 24, t.hw.linkState n = 6) ∧
        (c = .linkStateEnable hd 0 0xFF → ∀ n < 24, t.hw.flag (Fd.FL_CTRL.EN n) = true)) ∧
    ∀ (n : Fin 24) (p0 : BitVec 32), p0.toNat = n.val →
      ∀ c ∈ [Instr.linkStateRead hd 0 p0, .linkStateEnable hd 0 p0, .linkStateDisable hd 0 p0, .linkStateRetrain hd 0 p0,
          .linkStateSetDead hd 0 p0],
        ∃ t, exec c s = .next t ∧ Frame [.regs, .slew, .links, .host, .fw, .logs, .out] s t ∧
          Answered s t hd 0x0505 [0, (t.hw.reg (Reg.FL_STATE n)).toNat] [] ∧
          (∀ m < 24, m ≠ n.val → t.hw.linkState m = s.hw.linkState m ∧ (s.hw.isUp n = false → t.hw.link m = s.hw.link m)) ∧
          (c = .linkStateRead hd 0 p0 ∨ (c = .linkStateRetrain hd 0 p0 ∧ s.hw.flag (Fd.FL_CTRL.EN n) = false) →
            Frame [.host, .fw, .out] s t) ∧
          (c = .linkStateDisable hd 0 p0 → t.hw.linkState n = 0 ∧ t.hw.flag (Fd.FL_CTRL.EN n) = false ∧ (t.hw.link n).step = 0) ∧
          (c = .linkStateSetDead hd 0 p0 → t.hw.linkState n = 6 ∧ (t.hw.link n).step = 0) ∧
          ((c = .linkStateEnable hd 0 p0 ∧ s.hw.flag (Fd.FL_CTRL.EN n) = false) ∨
              (c = .linkStateRetrain hd 0 p0 ∧ s.hw.flag (Fd.FL_CTRL.EN n) = true) →
            LinkStarts s t n)) ∧
  ∀ (fid : BitVec 16) (v : W32) (s : State), ∃ t, exec (.routeEntryWrite fid v) s = .next t ∧ Frame [.regs] s t ∧
    (s.hw.served = false → t = s) ∧
    (s.hw.served = true → s.hw.flag Fd.FR_STATUS.QUIESCED = false → s.hw.RegsBut [Reg.FR_STATUS] t.hw ∧
      t.hw.flag Fd.FR_STATUS.TBL_REJECT = true) ∧
    (s.hw.served = true → s.hw.flag Fd.FR_STATUS.QUIESCED = true → s.hw.RegsBut [Reg.FR_ROUTE fid.toNat] t.hw ∧
      t.hw.fld (Fd.FR_ROUTE.LOCAL fid.toNat) = v.toNat / 2 ^ 31 ∧ t.hw.fld (Fd.FR_ROUTE.PORTS fid.toNat) = v.toNat % 2 ^ 24)

/-! ## Fabric links (10_fabric_links.md) -/

/-- The commands of a fabric link (R243–R261): its detectors, the codewords it receives and sends, training and identification, the
window of signal quality, eye scans, and the host's control. What the fabric agent finds in a training step is an operand. -/
def Obligations.LinkCommandsComplete : Prop :=
  ∀ (s : State) (n : Fin 24),
    (∀ (l : Fin 8) (pwr : Byte), ∃ t, exec (.losAssert n l pwr) s = .next t ∧ Frame [.regs, .slew, .links, .host, .logs, .out] s t ∧
      t.hw.fld (Fd.FL_LANE_STATUS.OPT_PWR n l) = pwr.toNat ∧
      (signedOf 8 pwr.toNat < -120 → t.hw.flag (Fd.FL_LANE_STATUS.LOS n l) = true ∧ LinkLost s t n 1 2) ∧
      (-120 ≤ signedOf 8 pwr.toNat → Frame [.regs] s t ∧ s.hw.RegsBut [Reg.FL_LANE_STATUS n l] t.hw ∧
        t.hw.flag (Fd.FL_LANE_STATUS.LOS n l) = s.hw.flag (Fd.FL_LANE_STATUS.LOS n l))) ∧
    (∀ (l : Fin 8) (pwr : Byte), ∃ t, exec (.losClear n l pwr) s = .next t ∧ Frame [.regs, .slew, .links, .host, .logs, .out] s t ∧
      t.hw.fld (Fd.FL_LANE_STATUS.OPT_PWR n l) = pwr.toNat ∧
      (signedOf 8 pwr.toNat ≤ -100 → Frame [.regs] s t ∧ s.hw.RegsBut [Reg.FL_LANE_STATUS n l] t.hw ∧
        t.hw.flag (Fd.FL_LANE_STATUS.LOS n l) = s.hw.flag (Fd.FL_LANE_STATUS.LOS n l)) ∧
      (-100 < signedOf 8 pwr.toNat → t.hw.flag (Fd.FL_LANE_STATUS.LOS n l) = false ∧
        (∀ m < 24, m ≠ n.val → t.hw.link m = s.hw.link m ∧ t.hw.linkState m = s.hw.linkState m) ∧
        ((s.hw.link n).step = 1 → (∀ i < 8, i ≠ l.val → s.hw.flag (Fd.FL_LANE_STATUS.LOS n i) = false) →
          2 ≤ (t.hw.link n).step ∧ t.hw.linkState n = 2) ∧
        ((s.hw.link n).step = 1 → (∃ i < 8, i ≠ l.val ∧ s.hw.flag (Fd.FL_LANE_STATUS.LOS n i) = true) →
          (t.hw.link n).step = 1 ∧ t.hw.linkState n = s.hw.linkState n))) ∧
    (∀ l : Fin 8, ∃ t, exec (.lolAssert n l) s = .next t ∧ Frame [.regs, .slew, .links, .host, .logs, .out] s t ∧
      t.hw.flag (Fd.FL_LANE_STATUS.LOL n l) = true ∧ t.hw.flag (Fd.FL_LANE_STATUS.BLOCK_LOCK n l) = false ∧
      (t.hw.fld (Fd.FL_STATE.LANES_LOCKED n)).testBit l = false ∧ LinkLost s t n 2 3) ∧
    (∀ l : Fin 8, ∃ t, exec (.lolClear n l) s = .next t ∧ Frame [.regs, .slew, .links, .host, .logs, .out] s t ∧
      t.hw.flag (Fd.FL_LANE_STATUS.LOL n l) = false ∧
      ((s.hw.link n).step = 2 → (∀ i < 8, i ≠ l.val → s.hw.flag (Fd.FL_LANE_STATUS.LOL n i) = false) →
        (t.hw.link n).step = 3 ∧ (t.hw.link n).stepTb = s.hw.tb) ∧
      ((s.hw.link n).step = 2 → (∃ i < 8, i ≠ l.val ∧ s.hw.flag (Fd.FL_LANE_STATUS.LOL n i) = true) →
        Frame [.regs] s t ∧ s.hw.RegsBut [Reg.FL_LANE_STATUS n l] t.hw)) ∧
    (∀ (lane : Fin 8) (wrong ctl : Nat) (blocks badHeads : List Nat) (x : Lane), x = (s.hw.link n).lane lane →
      ∃ t, exec (.codewordReceive n lane wrong ctl blocks badHeads) s = .next t ∧
        Frame [.regs, .slew, .links, .rtr, .host, .logs, .out] s t ∧
        (s.hw.laneLocked n lane = false → badHeads = [] → t.hw.laneLocked n lane = true) ∧
        (s.hw.laneLocked n lane = true → (∀ i < 16, i ∈ badHeads) → t.hw.laneLocked n lane = false ∧ LinkLost s t n 3 5) ∧
        (s.hw.laneLocked n lane = true → badHeads = [] → x.heads.count false < 16 → t.hw.laneLocked n lane = true ∧
          (15 < wrong ∨ bitsAt ctl 55 3 ≠ lane.val →
            t.hw.fld (Fd.FL_FEC_UCW.UCW n) = min (s.hw.fld (Fd.FL_FEC_UCW.UCW n) + 1) 0xFFFF ∧
            t.hw.reg (Reg.FL_FEC_CW n) = s.hw.reg (Reg.FL_FEC_CW n) ∧ t.hw.reg (Reg.FL_FEC_SYM n) = s.hw.reg (Reg.FL_FEC_SYM n) ∧
            (s.hw.isUp n = true → 15 ≤ ((s.hw.link n).ucws.filter (fun a => decide (s.hw.tb < a + 1000000))).length →
              LinkFalls s t n 7) ∧
            (((s.hw.link n).ucws.filter (fun a => decide (s.hw.tb < a + 1000000))).length < 15 →
              t.hw.linkState n = s.hw.linkState n)) ∧
          (wrong ≤ 15 → bitsAt ctl 55 3 = lane.val → t.hw.fld (Fd.FL_FEC_UCW.UCW n) = s.hw.fld (Fd.FL_FEC_UCW.UCW n) ∧
            t.hw.fld (Fd.FL_FEC_CW.CORR_CW n) = min (s.hw.fld (Fd.FL_FEC_CW.CORR_CW n) + min 1 wrong) 0xFFFFFFFF ∧
            t.hw.fld (Fd.FL_FEC_SYM.CORR_SYM n) = min (s.hw.fld (Fd.FL_FEC_SYM.CORR_SYM n) + wrong) 0xFFFFFFFF ∧
            t.hw.flag (Fd.FL_STATE.REMOTE_FAULT n) = decide (bitsAt ctl 37 2 = 2) ∧
            (s.hw.isUp n = true → 2 ≤ (s.hw.link n).rfRun → bitsAt ctl 37 2 ≠ 1 → LinkFalls s t n 8) ∧
            (s.hw.isUp n = false → (s.hw.link n).step = 8 → 2 ≤ (s.hw.link n).upRun → bitsAt ctl 37 2 = 1 →
              t.hw.linkState n = 4)))) ∧
    (∃ t, exec (.codewordTransmit n) s = .next t ∧ Frame [.links, .out] s t ∧
      (s.hw.linkState n = 0 ∨ s.hw.linkState n = 6 → t = s) ∧
      (s.hw.linkState n ≠ 0 → s.hw.linkState n ≠ 6 → (s.hw.link n).lstate < 4 → (∀ c ∈ (s.hw.link n).credRet, c.1 < 8) →
        ∃ ctl blocks, t.hw.out = s.hw.out ++ [.codeword n ((s.hw.link n).txCw % 8) ctl blocks] ∧ blocks.length = 77 ∧
          bitsAt ctl 55 3 = (s.hw.link n).txCw % 8 ∧ bitsAt ctl 39 16 = (s.hw.link n).txCw % 2 ^ 16 ∧
          (s.hw.tb < (s.hw.link n).rfUntil → bitsAt ctl 37 2 = 2) ∧
          ((s.hw.link n).rfUntil ≤ s.hw.tb → bitsAt ctl 37 2 = (s.hw.link n).lstate) ∧
          (s.hw.isUp n = false → bitsAt ctl 0 32 = 0) ∧
          (s.hw.isUp n = true → (s.hw.link n).nakDue = true → bitsAt ctl 23 2 = 3 ∧ (t.hw.link n).nakDue = false) ∧
          (t.hw.link n).txCw = (s.hw.link n).txCw + 1)) ∧
    (∀ res : List (Nat × List Int × Nat), ∃ t, exec (.trainingStepDone n res) s = .next t ∧
      Frame [.regs, .slew, .links, .host, .logs, .out] s t ∧
      ((s.hw.link n).step ≠ 3 → (s.hw.link n).step ≠ 5 → t = s) ∧
      ((s.hw.link n).step = 3 → (s.hw.fld (Fd.FL_STATE.LANES_LOCKED n) = 0xFF → (t.hw.link n).step = 5) ∧
        (s.hw.fld (Fd.FL_STATE.LANES_LOCKED n) ≠ 0xFF → (t.hw.link n).step = 4) ∧ (t.hw.link n).stepTb = s.hw.tb ∧
        ∀ i < 8, ((t.hw.link n).lane i).settings = (res.getD i (0, [], 0)).2.1 ∧
          ((s.hw.link n).fast = false → t.hw.fld (Fd.FL_LANE_STATUS.CTLE n i) = (res.getD i (0, [], 0)).1 % 16)) ∧
      ((s.hw.link n).step = 5 →
        (∀ i < 8, t.hw.fld (Fd.FL_LANE_STATUS.SKEW_NS n i) = min 255 (res.getD i (0, [], 0)).2.2) ∧
        ((∃ i < 8, 48 < (res.getD i (0, [], 0)).2.2) → LinkFails s t n 4) ∧
        ((∀ i < 8, (res.getD i (0, [], 0)).2.2 ≤ 48) → (t.hw.link n).step = 6 ∧ t.hw.linkState n = 3))) ∧
    (∀ bound reason, (bound, reason) = stepBound (s.hw.link n).step (s.hw.link n).fast →
      ∃ t, exec (.trainingTimeout n) s = .next t ∧ Frame [.regs, .slew, .links, .host, .logs, .out] s t ∧
        (s.hw.linkState n = 0 ∨ 4 ≤ s.hw.linkState n ∨ s.hw.tb ≤ (s.hw.link n).stepTb + bound ∨
          ((s.hw.link n).step = 1 ∧ ∀ i < 8, s.hw.flag (Fd.FL_LANE_STATUS.LOS n i) = true) → t = s) ∧
        (1 ≤ s.hw.linkState n → s.hw.linkState n ≤ 3 → (s.hw.link n).stepTb + bound < s.hw.tb →
            ((s.hw.link n).step = 1 → ∃ i < 8, s.hw.flag (Fd.FL_LANE_STATUS.LOS n i) = false) →
          ((s.hw.link n).fast = true → (s.hw.link n).step = 3 ∨ (s.hw.link n).step = 4 → s.hw.flag (Fd.FL_CTRL.EN n) = true →
              s.hw.flag (Fd.FR_PORT_CFG.UNUSED n) = false →
            (t.hw.link n).fast = false ∧ (t.hw.link n).fails = (s.hw.link n).fails ∧ 1 ≤ (t.hw.link n).step ∧
            (t.hw.linkState n = 1 ∨ t.hw.linkState n = 2)) ∧
          ((s.hw.link n).fast = false ∨ ((s.hw.link n).step ≠ 3 ∧ (s.hw.link n).step ≠ 4) → LinkFails s t n reason))) ∧
    (∃ t, exec (.identSend n) s = .next t ∧ Frame [.links] s t ∧
      (s.hw.linkState n ≠ 3 ∨ s.hw.tb < (s.hw.link n).identTb → t = s) ∧
      (s.hw.linkState n = 3 → (s.hw.link n).identTb ≤ s.hw.tb → (t.hw.link n).identTb = s.hw.tb + 1000 ∧
        (t.hw.link n).blocks = (s.hw.link n).blocks ++
          [(false, 2 ^ 65 + 0x4B * 2 ^ 56 + 2 ^ 48 + s.hw.fld Fd.FR_FID.FID * 2 ^ 32 + n.val * 2 ^ 24)])) ∧
    (∃ t, exec (.identReceive n) s = .next t ∧ Frame [.regs, .slew, .links, .host, .logs, .out] s t ∧
      ((s.hw.link n).identIn = none → t = s) ∧
      ∀ fid peer, (s.hw.link n).identIn = some (fid, peer) → fid < 2 ^ 16 → peer < 32 →
        t.hw.fld (Fd.FL_PEER.FID n) = fid ∧ t.hw.fld (Fd.FL_PEER.LINK n) = peer ∧ t.hw.flag (Fd.FL_PEER.VALID n) = true ∧
        (s.hw.linkState n = 3 → (s.hw.link n).step = 6 →
          (s.hw.fld (Fd.FR_PORT_CFG.PEER_FID n) = fid ∧ s.hw.fld (Fd.FR_PORT_CFG.PEER_LINK n) = peer →
            (t.hw.link n).step = 8 ∧ (t.hw.link n).lstate = 1 ∧ t.hw.linkState n = 3) ∧
          (¬ (s.hw.fld (Fd.FR_PORT_CFG.PEER_FID n) = fid ∧ s.hw.fld (Fd.FR_PORT_CFG.PEER_LINK n) = peer) →
            t.hw.linkState n = 7 ∧ t.hw.fld (Fd.FL_STATE.FAIL_REASON n) = 6 ∧ (t.hw.link n).lstate = 0)) ∧
        (s.hw.linkState n ≠ 3 → Frame [.regs, .links] s t ∧ s.hw.RegsBut [Reg.FL_PEER n] t.hw)) ∧
    (∃ t, exec (.fecWindow n) s = .next t ∧ Frame [.regs, .links, .host, .logs, .out] s t ∧
      (s.hw.tb < (s.hw.link n).symTb + 1000000000 → t = s) ∧
      ((s.hw.link n).symTb + 1000000000 ≤ s.hw.tb → (t.hw.link n).symWin = 0 ∧ (t.hw.link n).symTb = s.hw.tb ∧
        (17000000 < (s.hw.link n).symWin → t.hw.flag (Fd.FL_STATE.DEGRADED n) = true ∧ (t.hw.link n).degGood = 0) ∧
        ((s.hw.link n).symWin ≤ 17000000 → 9 ≤ (s.hw.link n).degGood → t.hw.flag (Fd.FL_STATE.DEGRADED n) = false) ∧
        ((s.hw.link n).symWin ≤ 17000000 → (s.hw.link n).degGood < 9 → (t.hw.link n).degGood = (s.hw.link n).degGood + 1 ∧
          t.hw.flag (Fd.FL_STATE.DEGRADED n) = s.hw.flag (Fd.FL_STATE.DEGRADED n)))) ∧
    (∀ (l : Fin 8) (v : W32), ∃ t, exec (.eyeScanStart n l v) s = .next t ∧ Frame [.regs, .links] s t ∧
      s.hw.RegsBut [Reg.FL_SCAN_CTRL n l, Reg.FL_SCAN_RESULT n l] t.hw ∧
      t.hw.fld (Fd.FL_SCAN_CTRL.EYE n l) = (if bitsAt v.toNat 28 2 = 3 then 0 else bitsAt v.toNat 28 2) ∧
      t.hw.fld (Fd.FL_SCAN_CTRL.DWELL n l) = bitsAt v.toNat 24 4 ∧
      signedOf 8 (t.hw.fld (Fd.FL_SCAN_CTRL.VOFF n l)) = max (-63) (min 63 (signedOf 8 (bitsAt v.toNat 8 8))) ∧
      signedOf 8 (t.hw.fld (Fd.FL_SCAN_CTRL.HOFF n l)) = max (-32) (min 31 (signedOf 8 (bitsAt v.toNat 0 8))) ∧
      (v.getLsbD 31 = false → t.hw.links = s.hw.links) ∧
      (v.getLsbD 31 = true → t.hw.flag (Fd.FL_SCAN_RESULT.DONE n l) = false ∧
        t.hw.flag (Fd.FL_SCAN_RESULT.ABORTED n l) = !s.hw.isUp n ∧ t.hw.flag (Fd.FL_SCAN_CTRL.START n l) = s.hw.isUp n ∧
        ((t.hw.link n).lane l).scanEnd = if s.hw.isUp n then some (s.hw.tb + 2 ^ bitsAt v.toNat 24 4 * 1000) else none)) ∧
    (∀ (l : Fin 8) (errors : Nat), ∃ t, exec (.eyeScanDone n l errors) s = .next t ∧ Frame [.regs, .links] s t ∧
      (((s.hw.link n).lane l).scanEnd = none → t = s) ∧
      (∀ u, ((s.hw.link n).lane l).scanEnd = some u → s.hw.tb < u → t = s) ∧
      (∀ u, ((s.hw.link n).lane l).scanEnd = some u → u ≤ s.hw.tb → ((t.hw.link n).lane l).scanEnd = none ∧
        s.hw.RegsBut [Reg.FL_SCAN_CTRL n l, Reg.FL_SCAN_RESULT n l] t.hw ∧ t.hw.flag (Fd.FL_SCAN_CTRL.START n l) = false ∧
        t.hw.flag (Fd.FL_SCAN_RESULT.DONE n l) = true ∧ t.hw.fld (Fd.FL_SCAN_RESULT.ERRORS n l) = min errors 0xFFFFFF)) ∧
    (∃ t, exec (.retrain n) s = .next t ∧ Frame [.regs, .slew, .links, .host, .logs, .out] s t ∧
      (s.hw.flag (Fd.FL_CTRL.EN n) = false → t = s) ∧ (s.hw.flag (Fd.FL_CTRL.EN n) = true → LinkStarts s t n)) ∧
    ∀ en : Bool, ∃ t, exec (.linkEnable n en) s = .next t ∧ Frame [.regs, .slew, .links, .host, .logs, .out] s t ∧
      t.hw.flag (Fd.FL_CTRL.EN n) = en ∧
      (en = true → s.hw.flag (Fd.FL_CTRL.EN n) = false ∨ s.hw.linkState n = 6 → LinkStarts s t n) ∧
      (en = true → s.hw.flag (Fd.FL_CTRL.EN n) = true → s.hw.linkState n ≠ 6 → t.hw.links = s.hw.links ∧
        t.hw.linkState n = s.hw.linkState n) ∧
      (en = false → t.hw.linkState n = 0 ∧ (t.hw.link n).step = 0)

/-! ## The package router (11_fabric_routing.md) -/

/-- A packet that a link has received (R265, R268, R270, R271, R273, R274): the first row of *Packet acceptance* that applies,
    and what
the router does with one that is accepted. -/
def Obligations.PacketsAreAcceptedInOrder : Prop :=
  ∀ (s : State) (n : Fin 24), ∃ t, exec (.packetReceive n) s = .next t ∧ Frame [.regs, .links, .rtr, .ccl] s t ∧
    ((s.hw.link n).rxq = [] → t = s) ∧
    ∀ p ps, (s.hw.link n).rxq = p :: ps → (t.hw.link n).rxq = ps ∧
      (p.hcrcOk = false ∨ p.marked = true ∨ (p.lseq = (s.hw.link n).rxExp ∧ p.trail = .bad) →
        Frame [.regs, .links] s t ∧ (t.hw.link n).rxExp = (s.hw.link n).rxExp ∧ (t.hw.link n).nakDue = true ∧
        (t.hw.link n).skipping = true ∧ (t.hw.link n).credRet = (s.hw.link n).credRet ∧ s.hw.RegsBut [Reg.FR_PORT_ERR n] t.hw ∧
        (p.marked = false → t.hw.fld (Fd.FR_PORT_ERR.HCRC_ERR n) = min (s.hw.fld (Fd.FR_PORT_ERR.HCRC_ERR n) + 1) 0xFF)) ∧
      (p.hcrcOk = true → p.marked = false → p.lseq ≠ (s.hw.link n).rxExp →
        ((1 ≤ ((s.hw.link n).rxExp + 2 ^ 24 - p.lseq) % 2 ^ 24 ∧ ((s.hw.link n).rxExp + 2 ^ 24 - p.lseq) % 2 ^ 24 ≤ 2 ^ 23) →
          Frame [.links] s t ∧ t.hw.link n = { s.hw.link n with rxq := ps }) ∧
        (¬ (1 ≤ ((s.hw.link n).rxExp + 2 ^ 24 - p.lseq) % 2 ^ 24 ∧
            ((s.hw.link n).rxExp + 2 ^ 24 - p.lseq) % 2 ^ 24 ≤ 2 ^ 23) →
          Frame [.links] s t ∧ (t.hw.link n).rxExp = (s.hw.link n).rxExp ∧ (t.hw.link n).nakDue = true ∧
          (t.hw.link n).credRet = (s.hw.link n).credRet)) ∧
      (p.hcrcOk = true → p.marked = false → p.lseq = (s.hw.link n).rxExp → p.trail ≠ .bad →
        (t.hw.link n).rxExp = (p.lseq + 1) % 2 ^ 24 ∧ (t.hw.link n).unacked = true ∧ (t.hw.link n).nakDue = false ∧
        (t.hw.link n).nakTb = none ∧ (t.hw.link n).skipping = false ∧
        (p.trail = .stomped → Frame [.regs, .links] s t ∧ s.hw.RegsBut [Reg.FR_PORT_ERR n] t.hw ∧
          t.hw.fld (Fd.FR_PORT_ERR.STOMP_RX n) = min (s.hw.fld (Fd.FR_PORT_ERR.STOMP_RX n) + 1) 0xFF ∧
          Tab.getD (t.hw.link n).credRet (vcqOf p.tc p.vc) 0 = Tab.getD (s.hw.link n).credRet (vcqOf p.tc p.vc) 0 + p.units) ∧
        (p.trail = .good → p.dst < 2 ^ 16 →
          (p.typeOk = false → t.hw.rtr = s.hw.rtr ∧
            t.hw.fld (Fd.FR_DROP_CNT.BAD_TYPE (n / 12)) = min (s.hw.fld (Fd.FR_DROP_CNT.BAD_TYPE (n / 12)) + 1) 0xFF) ∧
          (p.typeOk = true → p.ptype = 0x01 ∨ (p.dst = s.hw.fld Fd.FR_FID.FID ∧ p.dst ≠ 0xFFFF) ∨
              (p.dst ≠ 0xFFFF ∧ s.hw.flag (Fd.FR_ROUTE.LOCAL p.dst) = true) →
            t.hw.rtr = { s.hw.rtr with deliv := s.hw.rtr.deliv ++ [⟨p, some n, s.hw.tb⟩] } ∧
            Tab.getD (t.hw.link n).credRet (vcqOf p.tc p.vc) 0 =
              Tab.getD (s.hw.link n).credRet (vcqOf p.tc p.vc) 0 + p.units) ∧
          (p.typeOk = true → p.ptype ≠ 0x01 → p.dst = 0xFFFF ∨ (s.hw.isLocal p.dst = false ∧ s.hw.fld Fd.FR_FID.FID = 0xFFFF) →
            t.hw.rtr = s.hw.rtr ∧
            t.hw.fld (Fd.FR_DROP_CNT.NOROUTE (n / 12)) = min (s.hw.fld (Fd.FR_DROP_CNT.NOROUTE (n / 12)) + 1) 0xFFFF) ∧
          (p.typeOk = true → p.ptype ≠ 0x01 → p.dst ≠ 0xFFFF → s.hw.isLocal p.dst = false → s.hw.fld Fd.FR_FID.FID ≠ 0xFFFF →
            t.hw.rtr = s.hw.rtr ∧
            (s.hw.fld Fd.FR_CTRL.HOP_LIMIT ≤ p.hops →
              t.hw.fld (Fd.FR_DROP_CNT.HOPS (n / 12)) = min (s.hw.fld (Fd.FR_DROP_CNT.HOPS (n / 12)) + 1) 0xFF) ∧
            (p.hops < s.hw.fld Fd.FR_CTRL.HOP_LIMIT →
              (s.hw.candidates p.dst = [] →
                t.hw.fld (Fd.FR_DROP_CNT.NOROUTE (n / 12)) = min (s.hw.fld (Fd.FR_DROP_CNT.NOROUTE (n / 12)) + 1) 0xFFFF) ∧
              ∀ m vc, s.hw.choosePort (n / 12) (some (n, p.vc)) p = some (m, vc) → (t.hw.link m).queue =
                (s.hw.link m).queue ++ [⟨{ p with hops := p.hops + 1 }, vc, some (n, vcqOf p.tc p.vc)⟩]))))

/-- What a port sends, and the router's timers (R266, R268–R270, R277, R278, R280, R281, R283, R284). -/
def Obligations.RouterCommandsComplete : Prop :=
  (∀ (s : State) (n : Fin 24), ∃ t, exec (.packetTransmit n) s = .next t ∧ Frame [.regs, .links, .rtr, .ccl, .out] s t ∧
    (s.hw.isUp n = false ∨ (∃ b ∈ (s.hw.link n).blocks, b.2 / 2 ^ 64 = 1) → t = s) ∧
    (s.hw.isUp n = true → (∀ b ∈ (s.hw.link n).blocks, b.2 / 2 ^ 64 ≠ 1) →
      (∀ q qs k, (s.hw.link n).again = q :: qs → (s.hw.link n).kept.find? (fun k => k.lseq == q) = some k →
        (3072 < (s.hw.link n).inUse (vcqOf k.p.tc k.p.vc) + k.units → t = s) ∧
        ((s.hw.link n).inUse (vcqOf k.p.tc k.p.vc) + k.units ≤ 3072 → Sent s t (.fabric n k.p) ∧ (t.hw.link n).again = qs ∧
          (t.hw.link n).blocks = (s.hw.link n).blocks ++ k.p.dataBlocks ∧
          (t.hw.link n).inUse (vcqOf k.p.tc k.p.vc) = (s.hw.link n).inUse (vcqOf k.p.tc k.p.vc) + k.units)) ∧
      ((s.hw.link n).again = [] → (s.hw.nextNew n = none → t = s) ∧
        ∀ e p, s.hw.nextNew n = some e →
            p = Packet.stamped s.hw.tb { e.p with vc := e.vc, lseq := (s.hw.link n).txLseq } →
          e ∈ (s.hw.link n).queue ∧ (s.hw.link n).inUse (vcqOf e.p.tc e.vc) + e.p.units ≤ 3072 ∧
          (e.p.tc = 0 → 4 * e.p.wire.length ≤ min 8192 ((s.hw.link n).bucket + (s.hw.tb - (s.hw.link n).bucketTb) * 15)) ∧
          (2 ^ 20 < (s.hw.link n).keptBytes + p.wire.length → t = s) ∧
          ((s.hw.link n).keptBytes + p.wire.length ≤ 2 ^ 20 → Sent s t (.fabric n p) ∧
            (t.hw.link n).txLseq = ((s.hw.link n).txLseq + 1) % 2 ^ 24 ∧
            (t.hw.link n).kept = (s.hw.link n).kept ++ [⟨(s.hw.link n).txLseq, p, p.units, s.hw.tb⟩] ∧
            (t.hw.link n).blocks = (s.hw.link n).blocks ++ p.dataBlocks ∧
            (t.hw.link n).inUse (vcqOf e.p.tc e.vc) = (s.hw.link n).inUse (vcqOf e.p.tc e.vc) + p.units ∧
            (s.hw.rtr.inj = [] → (t.hw.link n).queue = (s.hw.link n).queue.erase e))))) ∧
  (∀ (s : State) (n : Fin 24), ∃ t, exec (.nakRepeat n) s = .next t ∧ Frame [.links] s t ∧
    ((s.hw.link n).nakTb = none → t = s) ∧ (∀ u, (s.hw.link n).nakTb = some u → s.hw.tb < u → t = s) ∧
    ∀ u, (s.hw.link n).nakTb = some u → u ≤ s.hw.tb →
      t.hw.link n = { s.hw.link n with nakDue := true, nakTb := some (s.hw.tb + 2000) }) ∧
  (∀ (s : State) (n : Fin 24), ∃ t, exec (.replayTimeout n) s = .next t ∧ Frame [.regs, .slew, .links, .host, .logs, .out] s t ∧
    ((s.hw.link n).kept = [] ∨ s.hw.isUp n = false → t = s) ∧
    ∀ k ks, (s.hw.link n).kept = k :: ks → (s.hw.tb < k.sentTb + 20000 → t = s) ∧
      (s.hw.isUp n = true → k.sentTb + 20000 ≤ s.hw.tb →
        (∀ c, (s.hw.link n).replayFrom = some (k.lseq, c) → 8 ≤ c → LinkFalls s t n 7) ∧
        ((∀ c, (s.hw.link n).replayFrom = some (k.lseq, c) → c < 8) →
          (t.hw.link n).again = (s.hw.link n).kept.map (·.lseq) ∧ (t.hw.link n).kept = (s.hw.link n).kept ∧
          (t.hw.link n).replayTb = some s.hw.tb ∧
          t.hw.fld (Fd.FR_PORT_ERR.REPLAYS n) = min (s.hw.fld (Fd.FR_PORT_ERR.REPLAYS n) + 1) 0xFFFF ∧
          ∀ q, (t.hw.link n).inUse q = (s.hw.link n).inUse q - (((s.hw.link n).kept.filter (fun x =>
            !(s.hw.link n).again.contains x.lseq && vcqOf x.p.tc x.p.vc == q)).map (·.units)).sum))) ∧
  (∀ (s : State) (g : Fin 16384), ∃ t, exec (.xtagTimeout g) s = .next t ∧ Frame [.regs, .rtr] s t ∧
    ((∀ x ∈ s.hw.rtr.xtags, x.1 = g.val → s.hw.tb < x.2) → t = s) ∧
    ((∃ x ∈ s.hw.rtr.xtags, x.1 = g.val ∧ x.2 ≤ s.hw.tb) → s.hw.RegsBut [Reg.FR_STATUS] t.hw ∧
      t.hw.rtr = { s.hw.rtr with xtags := s.hw.rtr.xtags.filter (fun x => x.1 != g.val) } ∧
      t.hw.fld Fd.FR_STATUS.XTAG_INUSE = t.hw.rtr.xtags.length % 2 ^ 15)) ∧
  (∀ (s : State) (hub : Fin 2), ∃ t, exec (.timeSend hub) s = .next t ∧ Frame [.links, .rtr] s t ∧
    (s.hw.flag Fd.FR_TIME_CTRL.EN = false ∨ s.hw.tb < s.hw.rtr.timeTb.getD hub 0 → t = s) ∧
    (s.hw.flag Fd.FR_TIME_CTRL.EN = true → s.hw.rtr.timeTb.getD hub 0 ≤ s.hw.tb →
      t.hw.rtr = { s.hw.rtr with timeTb := s.hw.rtr.timeTb.put hub (s.hw.tb + 1000000) } ∧
      ∀ m < 24, (s.hw.timePayload m).length = 32 ∧
        (m / 12 = hub.val ∧ s.hw.isUp m = true → t.hw.link m = { s.hw.link m with queue := (s.hw.link m).queue ++
          [⟨s.hw.packet (s.hw.fld (Fd.FL_PEER.FID m)) 0 0x01 0 (s.hw.timePayload m), 0, none⟩] }) ∧
        (m / 12 ≠ hub.val ∨ s.hw.isUp m = false → t.hw.link m = s.hw.link m))) ∧
  (∀ s : State, ∃ t, exec .timeReceive s = .next t ∧ Frame [.regs, .tb, .slew, .links, .rtr] s t ∧
    ((∀ d ∈ s.hw.rtr.deliv, d.p.ptype ≠ 0x01) → t = s) ∧
    ∀ d n, s.hw.delivered (fun p => p.ptype == 0x01) = some d → d.link = some n →
      (t.hw.link n).timeEcho = some (beNat (d.p.payload.take 8), d.tb) ∧
      t.hw.rtr = { s.hw.rtr with deliv := s.hw.rtr.deliv.eraseP (fun d => d.p.ptype == 0x01) } ∧
      (s.hw.fld Fd.PKG_TIME_CTRL.SRC ≠ 3 ∨ s.hw.fld Fd.FR_TIME_CTRL.UP_LINK ≠ n → Frame [.links, .rtr] s t) ∧
      (s.hw.fld Fd.PKG_TIME_CTRL.SRC = 3 → s.hw.fld Fd.FR_TIME_CTRL.UP_LINK = n →
        (bitAt (beNat ((d.p.payload.drop 24).take 1)) 0 = false → (t.hw.link n).badTime = (s.hw.link n).badTime + 1 ∧
          ((s.hw.link n).badTime = 2 → t.hw.flag Fd.PKG_TIME_STATUS.SRC_LOST = true ∧ t.hw.slew = 0) ∧
          ((s.hw.link n).badTime ≠ 2 → Frame [.links, .rtr] s t)) ∧
        (bitAt (beNat ((d.p.payload.drop 24).take 1)) 0 = true → (t.hw.link n).badTime = 0 ∧
          ∀ t1 t2 t3 t4 : Int, t1 = beNat ((d.p.payload.drop 8).take 8) → t1 ≠ 0 → t2 = beNat ((d.p.payload.drop 16).take 8) →
              t3 = beNat (d.p.payload.take 8) → t4 = d.tb →
            ∀ offset, offset = t4 - t3 - ((t4 - t1) - (t3 - t2)) / 2 →
              t.hw.fld Fd.FR_TIME_CTRL.STRATUM = min 255 (beNat ((d.p.payload.drop 25).take 1) + 1) ∧
              (t.hw.flag Fd.PKG_TIME_STATUS.LOCKED = true ↔ offset.natAbs ≤ 1000) ∧
              (-1000000 ≤ offset → t.hw.tb = s.hw.tb ∧ t.hw.slew = -offset) ∧
              (offset < -1000000 → t.hw.slew = 0 ∧ (t.hw.tb : Int) = s.hw.tb - offset ∧
                t.hw.flag Fd.PKG_TIME_STATUS.STEPPED = true)))) ∧
  (∀ s : State, ∃ t, exec .congestionWindow s = .next t ∧ Frame [.links, .rtr] s t ∧
    (s.hw.tb < s.hw.rtr.winTb + 100000 → t = s) ∧
    (s.hw.rtr.winTb + 100000 ≤ s.hw.tb → t.hw.rtr.winTb = s.hw.rtr.winTb + 100000 ∧
      ∃ bins, t.hw.rtr.windows = ((s.hw.rtr.winTb + 100000, s.hw.rtr.winNum % 2 ^ 32, bins) :: s.hw.rtr.windows).take 16 ∧
        bins.length = 24 ∧ ∀ m < 24,
          (s.hw.isUp m = false ∨ s.hw.rtr.winTb < (s.hw.link m).upTb → bins.getD m [] = List.replicate 8 0) ∧
          (s.hw.isUp m = true → (s.hw.link m).upTb ≤ s.hw.rtr.winTb → (s.hw.link m).bins = [] →
            (bins.getD m []).sum = s.hw.tb - (s.hw.link m).usedTb))) ∧
  ∀ s : State, ∃ t, exec .fabricDrained s = .next t ∧ Frame [.regs, .host, .out] s t ∧
    (s.hw.flag Fd.FR_STATUS.QUIESCED = false ∨ (∃ e ∈ s.hw.links, (∃ q ∈ e.2.queue, q.p.tc ≠ 0) ∨ (∃ k ∈ e.2.kept, k.p.tc ≠ 0) ∨
      ∃ p ∈ e.2.rxq, p.tc ≠ 0) → t = s) ∧
    (s.hw.flag Fd.FR_STATUS.QUIESCED = true → (∀ e ∈ s.hw.links, (∀ q ∈ e.2.queue, q.p.tc = 0) ∧ (∀ k ∈ e.2.kept, k.p.tc = 0) ∧
        ∀ p ∈ e.2.rxq, p.tc = 0) →
      s.hw.RegsBut [Reg.FR_STATUS] t.hw ∧ t.hw.flag Fd.FR_STATUS.DRAINED = true ∧
      t.hw.host.cmds = s.hw.host.cmds.filter (fun c => c.opcode != 0x0502))

/-! ## Collective operations (12_collectives.md) -/

/-- The start of a COLL (R91, R291, R295, R296, R312): alignment, then the checks in order, each with its detail and its bit of
CVE_ERR; a COLL that passes binds its entry and waits for admission, or with one member copies its contribution. -/
def Obligations.CollStarts : Prop :=
  ∀ (s : State) (r : StreamRef) (sn : Seen), ∃ t, exec (.coll r sn) s = .next t ∧ t.pending = s.pending ∧ t.fuses = s.fuses ∧
    s.hw.Only [.regs, .ctxs, .hbm, .xcl, .cve, .host, .ccl, .logs, .hist, .out] t.hw ∧
    (s.hw.work r 0x43 = none → t = s) ∧
    ∀ w dc sd dd sv dv seq g, s.hw.work r 0x43 = some w → w.x.img.colls.find? (fun c => c.id == bitsAt w.word 44 12) = some dc →
        sd = (w.x.img.desc? w.w.lc w.w.lk (bitsAt w.word 80 12)).getD ⟨0, 0, 0, 0, 0, 0, []⟩ →
        dd = (w.x.img.desc? w.w.lc w.w.lk (bitsAt w.word 68 12)).getD ⟨0, 0, 0, 0, 0, 0, []⟩ → sv = sd.value w.fl.iters →
        dv = dd.value w.fl.iters → seq = w.x.img.valueOf w.w.lc w.w.lk (bitsAt w.word 56 12) w.fl.iters 16 → g = dc.group → g < 1024 →
      (∀ al : Int, al = (if dc.dtype = 1 then 2 else 4) →
        (sv % al ≠ 0 ∨ dv % al ≠ 0 → Raised s t w.w.c dAlign ∧ t.hw.cve = s.hw.cve ∧ Mem.But [] s.mem t.mem) ∧
        (sv % al = 0 → dv % al = 0 →
          (s.hw.groupLive g = false ∨ s.hw.fld (Fd.CVE_GRP_W0.JOB g) ≠ w.x.host.job →
            Raised s t w.w.c dGroupInvalid ∧ t.hw.cve = s.hw.cve ∧ t.hw.flag (Fd.CVE_ERR.GROUP_INVALID (s.hw.groupCve g)) = true) ∧
          (s.hw.groupLive g = true → s.hw.fld (Fd.CVE_GRP_W0.JOB g) = w.x.host.job →
            (s.hw.flag (Fd.CVE_GRP_W1.BOUND g) = true ∧ s.hw.fld (Fd.CVE_GRP_W3.CTX g) ≠ w.w.c →
              Raised s t w.w.c dGroupBusy ∧ t.hw.cve = s.hw.cve ∧
              t.hw.flag (Fd.CVE_ERR.GROUP_INVALID (s.hw.groupCve g)) = true) ∧
            (s.hw.flag (Fd.CVE_GRP_W1.BOUND g) = false ∨ s.hw.fld (Fd.CVE_GRP_W3.CTX g) = w.w.c → ∀ m,
                m = s.hw.fld (Fd.CVE_GRP_W2.M g) →
              ((dc.op = 2 ∧ dc.bytes % 8 ≠ 0) ∨ (dc.op ≠ 2 ∧ dc.bytes % (8 * m) ≠ 0) →
                Raised s t w.w.c dSize ∧ t.hw.cve = s.hw.cve ∧
                t.hw.flag (Fd.CVE_ERR.PEER_MISMATCH (s.hw.groupCve g)) = true) ∧
              (sizeOk dc.op dc.bytes m = true →
                (s.hw.seqCurrent g seq = false ∨ (∃ c ∈ s.hw.cve.colls, c.grp = g ∧ c.seq = seq) →
                  Raised s t w.w.c dSeq ∧ t.hw.cve = s.hw.cve ∧ t.hw.flag (Fd.CVE_ERR.STALE (s.hw.groupCve g)) = true) ∧
                (s.hw.seqCurrent g seq = true → (∀ c ∈ s.hw.cve.colls, ¬ (c.grp = g ∧ c.seq = seq)) → m ≠ 1 →
                    ∀ p q, w.x.resolve (sd.unit w.w.lc w.w.lk) sv dc.bytes = .ok p →
                      w.x.resolve (dd.unit w.w.lc w.w.lk) dv
                        (if dc.op = 2 then m * dc.bytes else if dc.op = 1 then dc.bytes / m else dc.bytes) = .ok q →
                  Executed t w ∧ Mem.But [] s.mem t.mem ∧ t.hw.flag (Fd.CVE_GRP_W1.BOUND g) = true ∧
                  t.hw.fld (Fd.CVE_GRP_W3.CTX g) = w.w.c ∧
                  ∃ c, t.hw.cve = { s.hw.cve with colls := s.hw.cve.colls ++ [c] } ∧ c.ctx = w.w.c ∧ c.grp = g ∧ c.seq = seq ∧
                    c.bytes = dc.bytes ∧ c.op = dc.op ∧ c.dtype = dc.dtype ∧ c.redop = dc.redop ∧ c.m = m ∧ c.phase = .waiting ∧
                    c.startTb = s.hw.tb ∧ c.srcV = sv ∧ c.dstV = dv)))))) ∧
      (s.hw.flag (Fd.CVE_GRP_W1.GUST_EN g) = true → (dc.op = 0 ∧ dc.bytes ≤ 32 ∧ (dc.dtype = 8 ∨ (dc.dtype = 0 ∧ dc.redop ≠ 0)) ↔
        s.hw.gustPath g dc.op dc.dtype dc.redop dc.bytes = true))

/-- Admission, messages between members, and the timers of collectives (R290, R296–R301, R309). -/
def Obligations.CollMessages : Prop :=
  (∀ (s : State) (v : Fin 2) (sn : Seen), ∃ t, exec (.collAdmit v sn) s = .next t ∧ t.pending = s.pending ∧ t.fuses = s.fuses ∧
    s.hw.Only [.regs, .ctxs, .hbm, .xcl, .links, .rtr, .cve, .host, .ccl, .logs, .hist, .out] t.hw ∧
    ((∀ c ∈ s.hw.cve.colls, c.grp < 1024) → s.hw.admitQueue v = [] ∨ 32 ≤ s.hw.channels v → t.hw.cve = s.hw.cve) ∧
    ∀ c cs size, (∀ c ∈ s.hw.cve.colls, c.grp < 1024) → s.hw.admitQueue v = c :: cs → s.hw.channels v < 32 → c.gust = false →
        size = fitChunk 4 (s.hw.slotsFree v) (65536 * 2 ^ s.hw.fld (Fd.CVE_GRP_W1.CHUNK c.grp)) →
      (s.hw.slotsFree v < collSlots size → t.hw.cve = s.hw.cve) ∧
      (collSlots size ≤ s.hw.slotsFree v → cs = [] → ∃ k, t.hw.coll? c.grp c.seq = some k ∧ k.phase = .running ∧ k.cve = v.val ∧
        k.chunk = size ∧ k.slots = collSlots size ∧ k.admitTb = s.hw.tb ∧ k.bytes = c.bytes ∧
        (∀ e ∈ (t.hw.grp c.grp).pool, e.seq ≠ c.seq))) ∧
  (∀ (s : State) (g : Fin 1024) (seq : BitVec 16), ∃ t, exec (.collAdmitTimeout g seq) s = .next t ∧ t.pending = s.pending ∧
    t.fuses = s.fuses ∧ s.hw.Only [.regs, .ctxs, .hbm, .xcl, .links, .rtr, .cve, .host, .ccl, .logs, .hist, .out] t.hw ∧
    (s.hw.coll? g seq.toNat = none → t = s) ∧
    ∀ c, s.hw.coll? g seq.toNat = some c →
      (c.phase ≠ .waiting ∨ c.timedOut = true ∨ s.hw.tb < c.startTb + 100000000 → t = s) ∧
      (c.phase = .waiting → c.timedOut = false → c.startTb + 100000000 ≤ s.hw.tb →
        (c.stageOk = false ∨ 32 ≤ s.hw.channels (s.hw.cveOf c) → Raised s t c.ctx dCollAdmitTimeout) ∧
        ∀ y, c.gust = false → c.stageOk = true → s.hw.channels (s.hw.cveOf c) < 32 → Tab.find? s.hw.ctxs c.ctx = some y →
          ((∃ p < y.stagingParts, ∀ x ∈ s.hw.cve.colls, x.ctx = c.ctx → x.part ≠ some p) → ∃ k p, t.hw.coll? g seq.toNat = some k ∧
            k.phase = .staged ∧ k.chunk = 65536 ∧ k.part = some p ∧ p < y.stagingParts) ∧
          ((∀ p < y.stagingParts, ∃ x ∈ s.hw.cve.colls, x.ctx = c.ctx ∧ x.part = some p) → Raised s t c.ctx dCollAdmitTimeout))) ∧
  (∀ s : State, ∃ t, exec .announceReceive s = .next t ∧ Frame [.regs, .ctxs, .links, .rtr, .cve] s t ∧
    (s.hw.delivered (isCtrl 1) = none → t = s) ∧
    ∀ d p seq, s.hw.delivered (isCtrl 1) = some d → p = d.p → seq = bitsAt p.tspec 64 16 →
      (s.hw.groupOf (bitsAt p.tspec 80 16) (bitsAt p.tspec 56 8) = none → t.hw.cve = s.hw.cve ∧
        t.hw.fld (Fd.CVE_DROP_CNT.STALE_DROP 0) = min (s.hw.fld (Fd.CVE_DROP_CNT.STALE_DROP 0) + 1) 0xFFFF) ∧
      ∀ g, s.hw.groupOf (bitsAt p.tspec 80 16) (bitsAt p.tspec 56 8) = some g →
        (p.payload.length ≠ 32 ∨ s.hw.seqCurrent g seq = false → t.hw.cve = s.hw.cve ∧
          t.hw.fld (Fd.CVE_DROP_CNT.STALE_DROP (s.hw.groupCve g)) =
            min (s.hw.fld (Fd.CVE_DROP_CNT.STALE_DROP (s.hw.groupCve g)) + 1) 0xFFFF) ∧
        (p.payload.length = 32 → s.hw.seqCurrent g seq = true →
          (s.hw.coll? g seq = none → 8 ≤ (s.hw.grp g).pool.length → (∀ e ∈ (s.hw.grp g).pool, e.seq ≠ seq) →
            t.hw.cve = s.hw.cve ∧ t.hw.flag (Fd.CVE_ERR.REFUSED (s.hw.groupCve g)) = true) ∧
          (s.hw.coll? g seq = none → (s.hw.grp g).pool.length < 8 → (∀ e ∈ (s.hw.grp g).pool, e.seq ≠ seq) →
            (t.hw.grp g).pool = (s.hw.grp g).pool ++ [⟨seq, s.hw.tb, [p], none⟩] ∧ t.hw.cve.colls = s.hw.cve.colls) ∧
          ∀ c dir, s.hw.coll? g seq = some c → c.phase ≠ .waiting → dir = beNat ((p.payload.drop 16).take 1) % 2 →
            (beNat (p.payload.take 1) ≠ c.op ∨ beNat ((p.payload.drop 1).take 1) ≠ c.dtype ∨
                beNat ((p.payload.drop 4).take 2) ≠ c.m ∨ beNat ((p.payload.drop 6).take 2) ≠ c.next dir ∨
                beNat ((p.payload.drop 8).take 8) ≠ c.bytes → Raised s t c.ctx dPeerMismatch) ∧
            (beNat (p.payload.take 1) = c.op → beNat ((p.payload.drop 1).take 1) = c.dtype →
                beNat ((p.payload.drop 2).take 1) = c.redop → beNat ((p.payload.drop 4).take 2) = c.m →
                beNat ((p.payload.drop 6).take 2) = c.next dir → beNat ((p.payload.drop 8).take 8) = c.bytes →
                (c.dir dir).nbChunk = none →
              t.hw.ctxs = s.hw.ctxs ∧ ∃ k, t.hw.coll? g seq = some k ∧ (k.dir dir).credit = 2 ∧
                (k.dir dir).nbChunk = some (65536 * 2 ^ beNat ((p.payload.drop 3).take 1))))) ∧
  (∀ s : State, ∃ t, exec .refuseReceive s = .next t ∧ Frame [.regs, .rtr, .cve] s t ∧
    (s.hw.delivered (isCtrl 3) = none → t = s) ∧
    ∀ d g c, s.hw.delivered (isCtrl 3) = some d → s.hw.groupOf (bitsAt d.p.tspec 80 16) (bitsAt d.p.tspec 56 8) = some g →
        d.p.payload.length = 4 → s.hw.seqCurrent g (bitsAt d.p.tspec 64 16) = true → s.hw.coll? g (bitsAt d.p.tspec 64 16) = some c →
      ∃ k, t.hw.coll? g (bitsAt d.p.tspec 64 16) = some k ∧
        ∀ dir < 2, s.hw.groupMember c.grp (c.prev dir) = d.p.src → (dir, s.hw.tb + 1000000) ∈ k.refusedTb) ∧
  (∀ (s : State) (g : Fin 1024) (seq : BitVec 16), ∃ t, exec (.announceRepeat g seq) s = .next t ∧
    Frame [.regs, .links, .rtr, .cve] s t ∧ (s.hw.coll? g seq.toNat = none → t = s) ∧
    ∀ c, s.hw.coll? g seq.toNat = some c → ∃ k, t.hw.coll? g seq.toNat = some k ∧
      k.refusedTb = c.refusedTb.filter (fun r => decide (s.hw.tb < r.2))) ∧
  (∀ s : State, ∃ t, exec .collCreditReceive s = .next t ∧ Frame [.regs, .rtr, .cve] s t ∧
    (s.hw.delivered (isCtrl 2) = none → t = s) ∧
    ∀ d g c dir, s.hw.delivered (isCtrl 2) = some d → s.hw.groupOf (bitsAt d.p.tspec 80 16) (bitsAt d.p.tspec 56 8) = some g →
        d.p.payload.length = 4 → s.hw.seqCurrent g (bitsAt d.p.tspec 64 16) = true → s.hw.coll? g (bitsAt d.p.tspec 64 16) = some c →
        dir = (d.p.payload.getD 0 0).toNat % 2 →
      ∃ k, t.hw.coll? g (bitsAt d.p.tspec 64 16) = some k ∧
        (k.dir dir).credit = (c.dir dir).credit + beNat ((d.p.payload.drop 2).take 2) ∧ k.dir (1 - dir) = c.dir (1 - dir)) ∧
  ∀ (s : State) (g : Fin 1024), ∃ t, exec (.earlyTimeout g) s = .next t ∧
    Frame [.regs, .ctxs, .links, .rtr, .cve, .squall, .host, .logs, .out] s t ∧
    ((s.hw.grp g).pool.length ≠ 8 ∨
      (∀ e ∈ (s.hw.grp g).pool, s.hw.tb < e.tb + s.hw.fld Fd.CVE_CTRL.EARLY_TO_MS * 1000000) → t = s) ∧
    ((s.hw.grp g).pool.length = 8 → (∃ e ∈ (s.hw.grp g).pool, e.tb + s.hw.fld Fd.CVE_CTRL.EARLY_TO_MS * 1000000 ≤ s.hw.tb) →
      t.hw.flag (Fd.CVE_ERR.EARLY_TIMEOUT (s.hw.groupCve g)) = true ∧
      (s.hw.flag (Fd.CVE_GRP_W1.BOUND g) = true → Raised s t (s.hw.fld (Fd.CVE_GRP_W3.CTX g)) dEarlyTimeout ∧ t.hw.cve = s.hw.cve) ∧
      (s.hw.flag (Fd.CVE_GRP_W1.BOUND g) = false → (t.hw.grp g).pool = [] ∧ t.hw.ctxs = s.hw.ctxs ∧
        t.hw.cve.colls = s.hw.cve.colls))

/-- Segments, digests, the reduction unit, sending and the gust path (R292, R302–R308, R311). -/
def Obligations.CollData : Prop :=
  (∀ (s : State) (sn : Seen), ∀ q ∈ [(Instr.collDataReceive sn, 0), (.crcSegmentReceive sn, 1), (.digestReceive sn, 2)],
    ∃ t, exec q.1 s = .next t ∧ t.pending = s.pending ∧ t.fuses = s.fuses ∧
      s.hw.Only [.regs, .ctxs, .hbm, .xcl, .links, .rtr, .cve, .host, .ccl, .logs, .hist, .out] t.hw ∧
      (s.hw.delivered (isRing q.2) = none → t = s) ∧
      ∀ d p seq g c st dir ch x, s.hw.delivered (isRing q.2) = some d → p = d.p → seq = bitsAt p.tspec 64 16 →
          s.hw.groupOf (bitsAt p.tspec 80 16) (bitsAt p.tspec 56 8) = some g → s.hw.seqCurrent g seq = true →
          s.hw.coll? g seq = some c → c.phase ≠ .waiting → c.gust = false → dir = bitsAt p.tspec 55 1 → ch = bitsAt p.tspec 16 20 →
          c.recvStep dir (bitsAt p.tspec 54 1) (bitsAt p.tspec 36 16) = some st →
          x = ((c.dir dir).rx.getD (st * 2 ^ 20 + ch) {} : RxChunk) →
        (q.2 = 0 → (x.checked = true ∨ x.segs.find? (bitsAt p.tspec 8 8) ≠ none → t.hw.cve = s.hw.cve) ∧
          (x.checked = false → x.segs.find? (bitsAt p.tspec 8 8) = none → x.crc = none → Mem.But [] s.mem t.mem ∧
            ∃ k, t.hw.coll? g seq = some k ∧
              (k.dir dir).rx.find? (st * 2 ^ 20 + ch) = some { x with segs := x.segs.put (bitsAt p.tspec 8 8) p.payload })) ∧
        (q.2 = 1 → p.payload.length = 8 → bitsAt p.tspec 8 8 = 0 → x.crc = none → x.checked = false →
          ∀ size, c.recvChunk dir = some size →
            (x.whole (c.chunkLen size ch) = none → Mem.But [] s.mem t.mem ∧ ∃ k, t.hw.coll? g seq = some k ∧
              (k.dir dir).rx.find? (st * 2 ^ 20 + ch) = some { x with crc := some (beNat p.payload) }) ∧
            (∀ bs, x.whole (c.chunkLen size ch) = some bs → crc64 bs ≠ beNat p.payload →
              Raised s t c.ctx dChunkCrc ∧ Mem.But [] s.mem t.mem ∧ t.hw.flag (Fd.CVE_ERR.CHUNK_CRC c.cve) = true)) ∧
        (q.2 = 2 → p.payload.length = 152 → (c.dir dir).digIn.find? st = none → (c.dir dir).passed.contains st = false →
          (pieceBytes? ((c.dir dir).out.getD (st + 1) []) 0 c.piece = none → Mem.But [] s.mem t.mem ∧
            ∃ k, t.hw.coll? g seq = some k ∧ (k.dir dir).digIn.find? st = some (Digest.ofBytes p.payload)) ∧
          (∀ bs, pieceBytes? ((c.dir dir).out.getD (st + 1) []) 0 c.piece = some bs → c.reduces st = false → c.cve < 2 →
            compareDigest c.fmt (c.op == 0 && c.redop == 0) c.m (c.piece / c.elBytes) (Digest.ofBytes p.payload)
              (digestOf c.fmt bs) = .fails →
            Raised s t c.ctx dDigestMismatch ∧ Mem.But [] s.mem t.mem ∧ t.hw.flag (Fd.CVE_ERR.DIGEST c.cve) = true))) ∧
  (∀ (s : State) (v : Fin 2) (sn : Seen), ∃ t, exec (.reduceSegment v sn) s = .next t ∧ t.pending = s.pending ∧
    t.fuses = s.fuses ∧ s.hw.Only [.regs, .ctxs, .hbm, .xcl, .links, .rtr, .cve, .host, .ccl, .logs, .hist, .out] t.hw ∧
    ((∀ c ∈ s.hw.cve.colls, c.cve = v.val → c.phase ≠ .waiting → c.toReduce = none) →
      t.hw.cve = s.hw.cve ∧ Mem.But [] s.mem t.mem) ∧
    ∀ c dir st ch size x bs g mine, s.hw.cve.colls = [c] → c.cve = v.val → c.phase ≠ .waiting → c.toReduce = some (dir, st, ch) →
        c.recvChunk dir = some size → (c.dir dir).rx.find? (rxKey st ch) = some x → (c.dir dir).digIn.find? st = none →
        bs = (((x.whole (c.chunkLen size ch)).getD []).drop x.reduced).take 4096 →
        (s.hw.seen sn).collRead (s.mem.seen sn) c (c.srcOff (c.recvBlock st dir) dir + (ch * size + x.reduced)) bs.length =
          (g, .ok mine) →
      Mem.But [] s.mem t.mem ∧ ∃ k, t.hw.coll? c.grp c.seq = some k ∧ (k.dir dir).out.getD (st + 1) [] =
        (c.dir dir).out.getD (st + 1) [] ++ [(ch * size + x.reduced, (combineBytes c.fmt c.redop bs mine).1)]) ∧
  (∀ (s : State) (v : Fin 2) (sn : Seen), ∃ t, exec (.segmentTransmit v sn) s = .next t ∧ t.pending = s.pending ∧
    t.fuses = s.fuses ∧ s.hw.Only [.regs, .ctxs, .hbm, .xcl, .links, .rtr, .cve, .host, .ccl, .logs, .hist, .out] t.hw ∧
    ((∀ c ∈ s.hw.cve.colls, c.grp < 1024) → s.hw.nextSend v = none → t.hw.cve = s.hw.cve ∧ Mem.But [] s.mem t.mem) ∧
    ∀ c dir st ch size seg len, s.hw.nextSend v = some (c, dir, .data st ch) → s.hw.cve.colls = [c] → c.grp < 1024 →
        c.sendChunk dir = some size →
        seg = (c.dir dir).seg → len = c.chunkLen size ch →
      (∀ g bs, seg * 4096 < len → (s.hw.seen sn).sendBytes (s.mem.seen sn) c dir st (ch * size + seg * 4096)
          (min 4096 (len - seg * 4096)) = (g, .ok bs) → Mem.But [] s.mem t.mem ∧
        ∃ k, t.hw.coll? c.grp c.seq = some k ∧ (k.dir dir).seg = seg + 1 ∧ (k.dir dir).open_ = true ∧
          (k.dir dir).pos = (c.dir dir).pos ∧
          (k.dir dir).credit = if (c.dir dir).open_ then (c.dir dir).credit else (c.dir dir).credit - 1) ∧
      (∀ g bs, len ≤ seg * 4096 → (s.hw.seen sn).sendBytes (s.mem.seen sn) c dir st (ch * size) len = (g, .ok bs) →
        Mem.But [] s.mem t.mem ∧ ∃ k, t.hw.coll? c.grp c.seq = some k ∧ (k.dir dir).seg = 0 ∧ (k.dir dir).open_ = false ∧
          (k.dir dir).pos = (c.dir dir).pos + 1)) ∧
  ∀ (s : State) (sn : Seen), ∃ t, exec (.gustReceive sn) s = .next t ∧ t.pending = s.pending ∧ t.fuses = s.fuses ∧
    s.hw.Only [.regs, .ctxs, .hbm, .xcl, .links, .rtr, .cve, .host, .ccl, .logs, .hist, .out] t.hw ∧
    (s.hw.delivered (fun p => p.ptype == 0x04) = none → t = s) ∧
    ∀ d p seq g, s.hw.delivered (fun p => p.ptype == 0x04) = some d → p = d.p → seq = bitsAt p.tspec 64 16 →
        s.hw.groupOf (bitsAt p.tspec 80 16) (bitsAt p.tspec 56 8) = some g → s.hw.seqCurrent g seq = true →
        bitsAt p.tspec 52 2 ≠ 3 →
      (s.hw.coll? g seq = none → (∀ e ∈ (s.hw.grp g).pool, e.seq ≠ seq) →
        ((s.hw.grp g).pool.length < 8 → (t.hw.grp g).pool = (s.hw.grp g).pool ++ [⟨seq, s.hw.tb, [], some p⟩]) ∧
        (8 ≤ (s.hw.grp g).pool.length → t.hw.cve = s.hw.cve)) ∧
      ∀ c, s.hw.coll? g seq = some c → c.phase ≠ .waiting → c.gust = true →
        (bitsAt p.tspec 54 1 ≠ (if c.dtype = 0 then 1 else 0) ∨ bitsAt p.tspec 52 2 ≠ c.redop ∨
          bitsAt p.tspec 49 3 + 1 ≠ c.bytes / 4 → Raised s t c.ctx dPeerMismatch ∧ Mem.But [] s.mem t.mem) ∧
        (bitsAt p.tspec 54 1 = (if c.dtype = 0 then 1 else 0) → bitsAt p.tspec 52 2 = c.redop →
            bitsAt p.tspec 49 3 + 1 = c.bytes / 4 → ∀ h mine,
            ((s.hw.undeliver (fun p => p.ptype == 0x04)).seen sn).collRead (s.mem.seen sn) c 0 c.bytes = (h, .ok mine) →
          (bitAt p.tspec 55 = false → c.me ≠ c.m - 1 → Mem.But [] s.mem t.mem ∧ t.hw.ctxs = s.hw.ctxs) ∧
          (bitAt p.tspec 55 = true → c.redop = 0 →
            gustSums c (p.payload.take c.bytes) ≠ (bitsAt p.tspec 16 32, bitsAt p.tspec 0 16) →
            Raised s t c.ctx dDigestMismatch ∧ Mem.But [] s.mem t.mem) ∧
          (bitAt p.tspec 55 = true → c.redop = 0 →
            gustSums c (p.payload.take c.bytes) = (bitsAt p.tspec 16 32, bitsAt p.tspec 0 16) →
            ∀ h' es, h.collWrite (s.mem.seen sn) c 0 (p.payload.take c.bytes) = (h', .ok es) →
              t.mem = s.mem.edit (seenEdits sn ++ es) ∧ t.hw.coll? g seq = none))

/-! ## Faults after their detection, and tests of memory in service (04_onchip_memory.md, 05_hbm.md, 16_faults.md) -/

/-- The fault sequence, Squalls, drains, checks of units and the history (R372, R374, R382–R388, R390, R391, R488). -/
def Obligations.FaultSequence : Prop :=
  (∀ (ctx : Fin 64) (s : State),
    (∃ t, exec (.contextFault ctx none) s = .next t ∧ t.pending = s.pending ∧ t.fuses = s.fuses ∧
      s.hw.Only [.regs, .tb, .ctxs, .cores, .clus, .hbm, .xcl, .links, .rtr, .cve, .squall, .doms, .rdma, .pwr, .host, .logs, .hist,
        .out] t.hw ∧ t.hw.tb = s.hw.tb ∧
      ((s.hw.flag Fd.CPX_AUTH.HELD = false ∨ Tab.find? s.hw.ctxs ctx = none ∨
          ∃ x, Tab.find? s.hw.ctxs ctx = some x ∧ (x.run.faultStep ≠ .detected ∨ x.run.fault = none)) → t = s) ∧
      ∀ x r p, s.hw.flag Fd.CPX_AUTH.HELD = true → Tab.find? s.hw.ctxs ctx = some x → x.run.fault = some r →
          x.run.faultStep = .detected → x.host.st = .faulted → x.host.place = some p → (∀ q ∈ p.clusters, q.2 < 64) →
          (∀ q ∈ p.clusters, s.hw.captureLocked q.2 = false) →
        (∃ y q, Tab.find? t.hw.ctxs ctx = some y ∧ y.host.st = .faulted ∧ y.host.gen = x.host.gen ∧ y.run.fault = some q ∧
          (x.run.squallTo = none → q = r) ∧ (x.run.squallTo ≠ none → q = { r with flags := r.flags ||| 2 }) ∧
          (x.transfers = 0 → y.run.faultStep = .done ∧ y.host.place = none) ∧
          (x.transfers ≠ 0 → y.run.faultStep = .draining ∧ y.run.drainTb = s.hw.tb ∧ y.host.place = x.host.place)) ∧
        (∀ q ∈ p.clusters, q.2 / 8 ∈ s.hw.plu.diesUp → t.hw.flag (Fd.TRC_CAPTURE_CTRL.VALID q.2) = true) ∧
        t.hw.host.cmds = s.hw.host.cmds.filter (fun k => !(k.ctx == s.hw.handle ctx && (k.opcode == 0x0302 || k.opcode == 0x0303)))) ∧
    ∀ code : BitVec 32, ∃ t, exec (.contextFault ctx (some code)) s = .next t ∧ t.pending = s.pending ∧ t.fuses = s.fuses ∧
      (s.hw.flag Fd.CPX_AUTH.HELD = false → Frame [.ctxs] s t ∧ Raised s t ctx 0x0903)) ∧
  (∀ s : State, ∃ t, exec .squallPass s = .next t ∧ Frame [.regs, .links, .rtr, .squall] s t ∧
    ((∀ q ∈ s.hw.squall.active, s.hw.tb < q.due) → t = s) ∧
    ∀ q l, s.hw.squall.active = q :: l → q.due ≤ s.hw.tb → q ∉ l →
      t.hw.squall.active = (if q.left ≤ 1 then [] else [{ q with left := q.left - 1, due := s.hw.tb + 100000 }]) ++ l) ∧
  (∀ s : State, ∃ t, exec .squallReceive s = .next t ∧ Frame [.regs, .ctxs, .rtr, .squall, .host, .logs, .out] s t ∧
    (s.hw.delivered (fun p => p.ptype == 0x03) = none → t = s) ∧
    ∀ d pl job fid seq, s.hw.delivered (fun p => p.ptype == 0x03) = some d → pl = d.p.payload → job = beNat (pl.take 2) →
        fid = beNat ((pl.drop 2).take 2) → seq = beNat ((pl.drop 4).take 4) →
      t.hw.rtr = { s.hw.rtr with deliv := s.hw.rtr.deliv.eraseP (fun d => d.p.ptype == 0x03) } ∧
      ((∃ e ∈ s.hw.squall.seen, e.1 = fid ∧ e.2.1 = seq ∧ s.hw.tb - e.2.2 < 10000000000) → Frame [.rtr] s t) ∧
      ((∀ e ∈ s.hw.squall.seen, ¬ (e.1 = fid ∧ e.2.1 = seq ∧ s.hw.tb - e.2.2 < 10000000000)) →
        t.hw.fld Fd.PKG_SQUALL_STATUS.RECEIVED = min (s.hw.fld Fd.PKG_SQUALL_STATUS.RECEIVED + 1) 0xFFFF ∧
        ∀ c x locked, locked = (bitAt (beNat ((pl.drop 80).take 1)) 0 && s.hw.flag Fd.PKG_TIME_STATUS.LOCKED) →
            Tab.find? s.hw.ctxs c = some x → (∀ q ∈ s.hw.ctxs, q.1 = c → q.2 = x) →
          (squallHits locked job (beNat ((pl.drop 8).take 8)) x = true → ∃ y r, Tab.find? t.hw.ctxs c = some y ∧
            y.host.st = .faulted ∧ y.run.faultStep = .detected ∧ y.run.fault = some r ∧ r.flags = 1 ∧ r.originFid = fid ∧
            r.tb = s.hw.tb ∧ r.job = job ∧ y.run.squallTo = none) ∧
          (x.host.job ≠ job → Tab.find? t.hw.ctxs c = some x))) ∧
  (∀ (w : DrainRef) (n : BitVec 16) (s : State), ∀ q ∈ [(Instr.domainDrainDone w, false), (.drainTimeout w n, true)],
    ∃ t, exec q.1 s = .next t ∧ t.pending = s.pending ∧ t.fuses = s.fuses ∧
      s.hw.Only [.regs, .ctxs, .cores, .clus, .xcl, .cve, .doms, .rdma, .pwr, .host, .logs, .hist, .out] t.hw ∧
      (∀ c, w = .ctx c → (Tab.find? s.hw.ctxs c = none → t = s) ∧
        ∀ x, Tab.find? s.hw.ctxs c = some x →
          (x.run.faultStep ≠ .draining ∨ (q.2 = true ∧ s.hw.tb < x.run.drainTb + 100000) → t = s) ∧
          (x.run.faultStep = .draining → (q.2 = true → x.run.drainTb + 100000 ≤ s.hw.tb) →
            (x.host.st = .aborting → Tab.find? t.hw.ctxs c = none) ∧
            (x.host.st ≠ .aborting → ∃ y, Tab.find? t.hw.ctxs c = some y ∧ y.run.faultStep = .done ∧ y.host.place = none ∧
              y.host.st = x.host.st ∧ y.run.fault = x.run.fault) ∧
            (q.2 = true → t.hw.fld Fd.HUB_RESET_STATUS.ABANDONED =
              min (s.hw.fld Fd.HUB_RESET_STATUS.ABANDONED + x.transfers) 0xFFFF))) ∧
      (∀ k u, w = .dom k u →
        ((∀ d ∈ s.hw.doms, ¬ (d.kind = k.val ∧ d.unit = u.toNat ∧ d.phase = .drains)) → t = s) ∧
        ∀ d, s.hw.doms.find? (fun d => d.kind == k.val && d.unit == u.toNat && d.phase == .drains) = some d →
          (q.2 = true → s.hw.tb < d.drainTb + 100000 → t = s) ∧
          ((q.2 = true → d.drainTb + 100000 ≤ s.hw.tb) →
            t.hw.doms = s.hw.doms.map (fun d => if d.kind == k.val && d.unit == u.toNat then { d with phase := .kar } else d) ∧
            (q.2 = true → t.hw.fld Fd.HUB_RESET_STATUS.ABANDONED =
              min (s.hw.fld Fd.HUB_RESET_STATUS.ABANDONED + n.toNat) 0xFFFF)))) ∧
  (∀ (u : BitVec 32) (pass : Bool) (s : State), ∃ t, exec (.unitCheck u pass) s = .next t ∧
    Frame [.regs, .host, .logs, .hist, .out] s t ∧
    ((s.hw.hist.units.getD u.toNat {}).checking = false ∨ s.hw.unitState u.toNat ≠ 1 ∨ s.hw.occupied u.toNat = true → t = s) ∧
    ((s.hw.hist.units.getD u.toNat {}).checking = true → s.hw.unitState u.toNat = 1 → s.hw.occupied u.toNat = false →
      (t.hw.hist.units.getD u.toNat {}).checking = false ∧
      (pass = false ∨ 3 ≤ s.hw.hist.counting s.hw.histNow u.toNat → t.hw.unitState u.toNat = 2) ∧
      (pass = true → s.hw.hist.counting s.hw.histNow u.toNat < 3 → t.hw.unitState u.toNat = 0))) ∧
  ∀ s : State,
    (∃ t, exec .historyEventExpiry s = .next t ∧ Frame [.regs, .hist] s t ∧ s.hw.RegsBut [Reg.PKG_FH_STATUS] t.hw ∧
      t.hw.hist.ents = s.hw.hist.ents.filter (fun e => e.madePerm || decide (s.hw.histNow - e.htime ≤ 2592000)) ∧
      t.hw.hist.units = s.hw.hist.units ∧ t.hw.fld Fd.PKG_FH_STATUS.ENTRIES = t.hw.hist.ents.length % 2 ^ 17) ∧
    ∃ t, exec .historyTimeSave s = .next t ∧ Frame [.hist] s t ∧ t.hw.hist = { s.hw.hist with savedHtime := s.hw.histNow }

/-- The background test of a cluster, the patrol scrub and the error check of a stack (R107–R111, R119, R123). -/
def Obligations.MemoryTestsInService : Prop :=
  (∀ (c : Fin 64) (sn : Seen) (s : State) (b : Bgt), b = (s.hw.clusOf c).bgt →
    (∃ t, exec (.regionTestStart c sn) s = .next t ∧ t.pending = s.pending ∧ t.fuses = s.fuses ∧ Mem.But [] s.mem t.mem ∧
      s.hw.Only [.regs, .clus, .hbm, .host, .logs, .hist, .out] t.hw ∧
      (s.hw.flag (Fd.CD_MEMTEST_CTRL.EN (c / 8)) = false ∨ c.val / 8 ∉ s.hw.plu.diesUp ∨ b.locked = true ∨
        (b.started = true ∧ s.hw.tb < b.lockTb + s.hw.testPeriod c) → t = s) ∧
      ∀ r plain wrapped, s.hw.flag (Fd.CD_MEMTEST_CTRL.EN (c / 8)) = true → c.val / 8 ∈ s.hw.plu.diesUp → b.locked = false →
          (b.started = true → b.lockTb + s.hw.testPeriod c ≤ s.hw.tb) → s.hw.nextRegion c b.next = some (r, plain, wrapped) →
        r < 17472 ∧ (t.hw.clusOf c).bgt.locked = true ∧ (t.hw.clusOf c).bgt.region = r ∧ (t.hw.clusOf c).bgt.lockTb = s.hw.tb ∧
        (t.hw.clusOf c).bgt.next = (r + 1) % 17472 ∧
        (plain = false → (t.hw.clusOf c).bgt.save = s.mem.reads (regionAddr c r) 4096) ∧
        t.hw.flag (Fd.CL_BGT_STATUS.ACTIVE c) = true ∧ t.hw.fld (Fd.CL_BGT_STATUS.REGION c) = r ∧
        t.hw.flag (Fd.CL_BGT_STATUS.PROMOTED c) = false) ∧
    (∃ t, exec (.regionTestPromote c) s = .next t ∧ Frame [.regs, .clus] s t ∧
      (b.locked = false ∨ b.promoted = true ∨ s.hw.tb < b.lockTb + 10000 → t = s) ∧
      (b.locked = true → b.promoted = false → b.lockTb + 10000 ≤ s.hw.tb → t.hw.flag (Fd.CL_BGT_STATUS.PROMOTED c) = true ∧
        s.hw.RegsBut [Reg.CL_BGT_STATUS c] t.hw ∧ (t.hw.clusOf c).bgt = { b with promoted := true })) ∧
    ∀ fails : Bool, ∃ t, exec (.regionTestUnlock c fails) s = .next t ∧ t.pending = s.pending ∧ t.fuses = s.fuses ∧
      s.hw.Only [.regs, .clus, .doms, .host, .logs, .hist, .out] t.hw ∧
      (b.locked = false → t = s) ∧
      (b.locked = true → (t.hw.clusOf c).bgt.locked = false ∧ t.hw.flag (Fd.CL_BGT_STATUS.ACTIVE c) = false ∧
        (b.pend = [] → t.mem = s.mem) ∧
        (fails = true → t.hw.fld (Fd.CD_MEMTEST_STATUS.FAIL_CNT (c / 8)) =
          min (s.hw.fld (Fd.CD_MEMTEST_STATUS.FAIL_CNT (c / 8)) + 1) 0xFFFF) ∧
        (fails = false → t.hw.fld (Fd.CD_MEMTEST_STATUS.FAIL_CNT (c / 8)) = s.hw.fld (Fd.CD_MEMTEST_STATUS.FAIL_CNT (c / 8)) ∧
          t.hw.hist = s.hw.hist))) ∧
  ∀ (n : Fin 16) (s : State),
    (∀ found : Option Bool, ∃ t, exec (.patrolScrub n found) s = .next t ∧ t.pending = s.pending ∧ t.fuses = s.fuses ∧
      Mem.But [] s.mem t.mem ∧ s.hw.Only [.regs, .hbm, .host, .logs, .hist, .out] t.hw ∧
      (s.hw.flag (Fd.HBM_SCRUB_CTRL.EN n) = false ∨ s.hw.flag (Fd.HBM_STATUS.IN_SERVICE n) = false ∨
        s.hw.flag (Fd.HBM_STATUS.HOLD n) = true → t = s) ∧
      (s.hw.flag (Fd.HBM_SCRUB_CTRL.EN n) = true → s.hw.flag (Fd.HBM_STATUS.IN_SERVICE n) = true →
          s.hw.flag (Fd.HBM_STATUS.HOLD n) = false → ∀ a, a = 2 ^ 44 + n * 2 ^ 37 + 32 * (s.hw.hbmOf n).scrubPos →
          (s.hw.hbmOf n).scrubPos < 2684354560 →
        (t.hw.hbmOf n).scrubPos = ((s.hw.hbmOf n).scrubPos + 1) % 2684354560 ∧
        ((s.hw.hbmOf n).scrubPos = 2684354559 → t.hw.fld (Fd.HBM_SCRUB_CTRL.PASSES n) =
          min (s.hw.fld (Fd.HBM_SCRUB_CTRL.PASSES n) + 1) 0xFFFF) ∧
        (found = some false ∨ s.mem.ueIn a 32 ≠ none → a ∈ t.mem.ue ∧
          t.hw.fld (Fd.HBM_ECC.UE_CNT n) = min (s.hw.fld (Fd.HBM_ECC.UE_CNT n) + 1) 0xFF ∧
          (a - 2 ^ 44) / 2097152 ∈ (t.hw.hbmOf n).retired) ∧
        (found = some true → s.mem.ueIn a 32 = none → t.mem = s.mem ∧
          t.hw.fld (Fd.HBM_ECC.CE_CNT n) = min (s.hw.fld (Fd.HBM_ECC.CE_CNT n) + 1) 0xFFF) ∧
        (found = none → s.mem.ueIn a 32 = none → Frame [.regs, .hbm] s t ∧ s.hw.RegsBut [Reg.HBM_SCRUB_CTRL n] t.hw))) ∧
    ∀ k : BitVec 32, ∃ t, exec (.ecsRead n k) s = .next t ∧ Frame [.regs, .hbm] s t ∧
      (s.hw.flag (Fd.HBM_STATUS.IN_SERVICE n) = false ∨ s.hw.tb < (s.hw.hbmOf n).ecsTb + 60000000000 → t = s) ∧
      (s.hw.flag (Fd.HBM_STATUS.IN_SERVICE n) = true → (s.hw.hbmOf n).ecsTb + 60000000000 ≤ s.hw.tb →
        s.hw.RegsBut [Reg.HBM_ECS n] t.hw ∧ (t.hw.hbmOf n).ecsTb = s.hw.tb ∧
        t.hw.fld (Fd.HBM_ECS.ECS_CNT n) = min (s.hw.fld (Fd.HBM_ECS.ECS_CNT n) + k.toNat) 0xFFFFFFFF)

/-! ## Streams, tokens and barriers (06_schedule_contract.md) -/

/-- How an instruction starts, waits, retires and posts; NOP, LOOP,
    ENDLOOP and CTRRD; the arrival of a token; the stream watchdog; BAR,
the page copies of its barrier, its release, and HALT (R62, R63, R139–R146, R151, R156–R165, R218, R333, R430, R433). -/
def Obligations.StreamsAndBarriers : Prop :=
  (∀ (r : StreamRef) (s : State),
    (∃ t, exec (.instructionStart r) s = .next t ∧ Frame [.regs, .ctxs] s t ∧
      (Tab.find? s.hw.ctxs r.ctx = none ∨ s.hw.gateOpen = false ∨
        (∃ x, Tab.find? s.hw.ctxs r.ctx = some x ∧ s.hw.admits x r.lc r.lk r.strm = false) → t = s) ∧
      ∀ x k w, Tab.find? s.hw.ctxs r.ctx = some x → x.core? r.lc r.lk = some k → x.nextWord (keyOf r) = some w →
          s.hw.gateOpen = true → s.hw.admits x r.lc r.lk r.strm = true → opcOf w ≠ 3 → opcOf w ≠ 4 →
        StreamAlone s t r.ctx (keyOf r) ∧
        (x.tokensReady r.lc r.lk (waitsOf w) = false → ∃ y, Tab.find? t.hw.ctxs r.ctx = some y ∧ y.run.streams = x.run.streams ∧
          y.run.chans = x.run.chans ∧
          ∀ (lc lk n : Nat) (d : ChanDecl), x.Placed → (lc, lk, n) ∈ x.allStreams → s.hw.admits x lc lk n = true →
            x.lacking lc lk (waitsOf ((x.nextWord (strmKey lc lk n)).getD 0)) = some d → x.hasArrived d.producerOf = true →
            Raised s t r.ctx dTokenUnderflow) ∧
        (x.tokensReady r.lc r.lk (waitsOf w) = true → ∃ y f, Tab.find? t.hw.ctxs r.ctx = some y ∧
          (y.run.strm (keyOf r)).pc = (x.run.strm (keyOf r)).pc + 1 ∧ (y.run.strm (keyOf r)).loops = (x.run.strm (keyOf r)).loops ∧
          (y.run.strm (keyOf r)).inflight = (x.run.strm (keyOf r)).inflight ++ [f] ∧ f.idx = (x.run.strm (keyOf r)).pc ∧
          f.iters = (x.run.strm (keyOf r)).iters ∧ f.startTb = s.hw.tb ∧ f.startSteps = s.hw.steps (k / 9) ∧ f.done = false ∧
          f.landed = decide (opcOf w ≠ 0x42) ∧
          (opcOf w = 5 → (bitsAt w 78 2 = 3 → f.val = s.hw.tb) ∧
            (bitsAt w 78 2 = 2 → f.val = (s.hw.reg (Reg.VXE_FPFLAGS k)).toNat % 16) ∧
            (bitsAt w 78 2 = 0 → bitsAt w 64 1 = 1 → f.val = s.hw.ctrVal (bankCore k) (bitsAt w 64 5)) ∧
            (bitsAt w 78 2 = 1 → bitsAt w 64 1 = 1 → f.val = s.hw.ctrVal (bankClus (k / 9)) (bitsAt w 64 5))) ∧
          (∀ ch ∈ waitsOf w, ∀ d, x.img.chan? r.lc r.lk ch = some d →
            Holds t r.ctx d ((x.chan d).tokens.drop ((waitsOf w).count ch))) ∧
          ∀ ch d, waitsOf w = [ch] → x.img.chan? r.lc r.lk ch = some d → ∀ g ∈ x.img.handoffs r.lc r.lk ch,
            y.owner g = .strm r.lc r.lk d.consumer)) ∧
    (∃ t, exec (.nop r) s = .next t ∧ Frame [.ctxs] s t ∧ (s.hw.work r 0x00 = none → t = s) ∧
      ∀ w, s.hw.work r 0x00 = some w → Executed t w ∧ StreamAlone s t w.w.c (keyOf r)) ∧
    (∃ t, exec (.loop r) s = .next t ∧ Frame [.regs, .ctxs] s t ∧ (s.hw.work r 0x01 = none → t = s) ∧
      ∀ w st top v count, s.hw.work r 0x01 = some w → st = w.x.run.strm (keyOf r) → top = bitsAt w.word 67 24 →
          v = (w.x.run.lens.getD (bitsAt w.word 63 4) 0).toNat → count = (if bitAt w.word 91 then v else top) →
        StreamAlone s t w.w.c (keyOf r) ∧
        (bitAt w.word 91 = true → top < v → Raised s t w.w.c dTripBound) ∧
        (bitAt w.word 91 = false ∨ v ≤ top → Frame [.ctxs] s t ∧ Executed t w ∧
          ∃ y, Tab.find? t.hw.ctxs w.w.c = some y ∧
            (count ≠ 0 → (y.run.strm (keyOf r)).loops = ⟨w.fl.idx, count, 0⟩ :: st.loops ∧ (y.run.strm (keyOf r)).pc = st.pc) ∧
            (count = 0 → (y.run.strm (keyOf r)).loops = st.loops ∧
              ∀ n e, (w.x.img.words (keyOf r))[w.fl.idx + 1 + n]? = some e → opcOf e = 2 →
                (∀ i v, i < n → (w.x.img.words (keyOf r))[w.fl.idx + 1 + i]? = some v → opcOf v ≠ 1 ∧ opcOf v ≠ 2) →
                (y.run.strm (keyOf r)).pc = w.fl.idx + n + 2))) ∧
    (∃ t, exec (.endloop r) s = .next t ∧ Frame [.ctxs] s t ∧ (s.hw.work r 0x02 = none → t = s) ∧
      ∀ w st f fs, s.hw.work r 0x02 = some w → st = w.x.run.strm (keyOf r) → st.loops = f :: fs →
        StreamAlone s t w.w.c (keyOf r) ∧ Executed t w ∧ ∃ y, Tab.find? t.hw.ctxs w.w.c = some y ∧
          (f.iter + 1 < f.count → (y.run.strm (keyOf r)).loops = { f with iter := f.iter + 1 } :: fs ∧
            (y.run.strm (keyOf r)).pc = f.idx + 1) ∧
          (f.count ≤ f.iter + 1 → (y.run.strm (keyOf r)).loops = fs ∧ (y.run.strm (keyOf r)).pc = st.pc)) ∧
    (∀ sn : Seen, ∃ t, exec (.ctrrd r sn) s = .next t ∧ t.pending = s.pending ∧ t.fuses = s.fuses ∧
      s.hw.Only [.regs, .ctxs, .hbm, .xcl, .host, .ccl, .logs, .hist, .out] t.hw ∧ (s.hw.work r 0x05 = none → t = s) ∧
      ∀ w o, s.hw.work r 0x05 = some w → o = w.vop 80 → StreamAlone s t w.w.c (keyOf r) ∧
        (o.v % 8 ≠ 0 → Raised s t w.w.c dAlign ∧ Mem.But [] s.mem t.mem) ∧
        (o.v % 8 = 0 → ∀ g,
          (∀ e, (s.hw.seen sn).dstRows (s.mem.seen sn) w.x w.w (o.d.unit w.w.lc w.w.lk) [(o.v, 8)] = (g, .error e) →
            Raised s t w.w.c e.detail ∧ Mem.But [] s.mem t.mem) ∧
          ∀ ps, (s.hw.seen sn).dstRows (s.mem.seen sn) w.x w.w (o.d.unit w.w.lc w.w.lk) [(o.v, 8)] = (g, .ok ps) →
            Executed t w ∧ Stored s.mem t.mem (ps.zip [leBytes 8 w.fl.val]))) ∧
    (∃ t, exec (.tokenArrival r) s = .next t ∧ Frame [.regs, .ctxs] s t ∧
      (Tab.find? s.hw.ctxs r.ctx = none ∨ (∃ x, Tab.find? s.hw.ctxs r.ctx = some x ∧
        (x.tokenOnWay (keyOf r) = none ∨ x.executes r.strm = false)) → t = s) ∧
      ∀ x n f w d ch got owns, Tab.find? s.hw.ctxs r.ctx = some x → x.tokenOnWay (keyOf r) = some (n, f, w) →
          x.img.tpostChan w = some d → x.executes r.strm = true → x.core? r.lc r.lk ≠ none → ch = x.chan d →
          got = ((ch.pay.filter (fun q => q.1 == ch.arrived)).map Prod.snd).foldl (· + ·) 0 →
          owns = (x.img.handoffs d.lc d.lk d.ch).all (fun g => x.owner g == .strm r.lc r.lk r.strm) →
        StreamAlone s t r.ctx (keyOf r) ∧
        (∃ y, Tab.find? t.hw.ctxs r.ctx = some y ∧
          (y.run.strm (keyOf r)).inflight[n]? = some { f with landed := true } ∧ (y.chan d).arrived = ch.arrived + 1) ∧
        (d.depth ≤ ch.tokens.length → Raised s t r.ctx dTokenOverflow ∧ Holds t r.ctx d ch.tokens) ∧
        (ch.tokens.length < d.depth → owns = false → Raised s t r.ctx dHandoff ∧ Holds t r.ctx d ch.tokens) ∧
        (ch.tokens.length < d.depth → owns = true → d.payLocal ≠ 255 → got ≠ d.paySize →
          Raised s t r.ctx dSizeMismatch ∧ Holds t r.ctx d ch.tokens) ∧
        (ch.tokens.length < d.depth → owns = true → d.payLocal = 255 ∨ got = d.paySize →
          Holds t r.ctx d (ch.tokens ++ [f.mRetire]) ∧
          ∃ y, Tab.find? t.hw.ctxs r.ctx = some y ∧ ∀ g ∈ x.img.handoffs d.lc d.lk d.ch, y.owner g = .transit)) ∧
    (∃ t, exec (.instructionRetire r) s = .next t ∧ t.pending = s.pending ∧ t.fuses = s.fuses ∧
      s.hw.Only [.regs, .ctxs, .clus, .host, .out] t.hw ∧
      (Tab.find? s.hw.ctxs r.ctx = none ∨ s.hw.gateOpen = false ∨
        (∃ x, Tab.find? s.hw.ctxs r.ctx = some x ∧ ((x.run.strm (keyOf r)).inflight = [] ∨
          (∃ f fs k, (x.run.strm (keyOf r)).inflight = f :: fs ∧ x.core? r.lc r.lk = some k ∧
            (f.done = false ∨ f.landed = false ∨ s.hw.steps (k / 9) < f.startSteps + f.cost)))) → t = s) ∧
      ∀ x k f fs w, Tab.find? s.hw.ctxs r.ctx = some x → x.core? r.lc r.lk = some k →
          (x.run.strm (keyOf r)).inflight = f :: fs → w = (x.img.words (keyOf r)).getD f.idx 0 →
          x.host.st = .running ∨ x.host.st = .stopped → s.hw.gateOpen = true → s.hw.retirable k f = true →
        StreamAlone s t r.ctx (keyOf r) ∧
        (∃ y, Tab.find? t.hw.ctxs r.ctx = some y ∧ (y.run.strm (keyOf r)).inflight = fs ∧
          (y.run.strm (keyOf r)).pc = (x.run.strm (keyOf r)).pc ∧ (y.run.strm (keyOf r)).lastTb = s.hw.tb ∧
          (opcOf w = 0x14 → Tab.find? y.run.holds (keyOf r) = none) ∧ (opcOf w ≠ 0x14 → y.run.holds = x.run.holds) ∧
          (postsOf w = [] → y.run.chans = x.run.chans ∧ y.run.owners = x.run.owners)) ∧
        (∀ ch d own, postsOf w = [ch] → x.img.chan? r.lc r.lk ch = some d →
            own = (x.img.handoffs d.lc d.lk d.ch).all (fun g => x.owner g == .strm r.lc r.lk r.strm) →
          (d.depth ≤ (x.chan d).tokens.length → Raised s t r.ctx dTokenOverflow ∧ Holds t r.ctx d (x.chan d).tokens) ∧
          ((x.chan d).tokens.length < d.depth → own = false → Raised s t r.ctx dHandoff ∧ Holds t r.ctx d (x.chan d).tokens) ∧
          ((x.chan d).tokens.length < d.depth → own = true → Holds t r.ctx d ((x.chan d).tokens ++ [f.mRetire]) ∧
            ∃ y, Tab.find? t.hw.ctxs r.ctx = some y ∧ ∀ g ∈ x.img.handoffs d.lc d.lk d.ch, y.owner g = .transit)) ∧
        ((s.hw.clusOf (k / 9)).samp.armed = false → t.mem = s.mem) ∧
        s.mem.But [(traceBase (k / 9) + 32 * (s.hw.clusOf (k / 9)).samp.next, 32)] t.mem) ∧
    (∃ t, exec (.streamWatchdogExpiry r) s = .next t ∧ Frame [.regs, .ctxs] s t ∧
      ∀ x, Tab.find? s.hw.ctxs r.ctx = some x →
        (x.host.st ≠ .running ∨ s.hw.gateOpen = false ∨ x.img.hasCore r.lc r.lk = false ∨
          s.hw.tb - (x.run.strm (keyOf r)).lastTb < x.host.stallMs * 1000000 → t = s) ∧
        (x.host.st = .running → s.hw.gateOpen = true → x.img.hasCore r.lc r.lk = true → x.Placed →
            x.host.stallMs * 1000000 ≤ s.hw.tb - (x.run.strm (keyOf r)).lastTb →
          ((x.run.strm (keyOf r)).arrival = .none → Raised s t r.ctx dStreamStall) ∧
          ((x.run.strm (keyOf r)).arrival ≠ .none → Raised s t r.ctx dBarStall))) ∧
    ∀ sn : Seen, ∀ q ∈ [(Instr.bar r sn, 3), (.halt r, 4)], ∃ t, exec q.1 s = .next t ∧ t.pending = s.pending ∧
      t.fuses = s.fuses ∧
      s.hw.Only [.regs, .ctxs, .cores, .clus, .hbm, .xcl, .cve, .rdma, .pwr, .host, .logs, .hist, .out] t.hw ∧
      (q.2 = 3 → t.hw.cores = s.hw.cores ∧ t.hw.cve = s.hw.cve ∧ t.hw.rdma = s.hw.rdma) ∧
      (Tab.find? s.hw.ctxs r.ctx = none ∨ (∃ x, Tab.find? s.hw.ctxs r.ctx = some x ∧
        ((x.nextWord (keyOf r)).map opcOf ≠ some q.2 ∨ (x.run.strm (keyOf r)).inflight ≠ [] ∨ x.host.st ≠ .running ∨
          x.run.bar ≠ .none ∨ (x.run.strm (keyOf r)).arrival ≠ .none)) → t = s) ∧
      ∀ x w a others, Tab.find? s.hw.ctxs r.ctx = some x → x.Placed → x.nextWord (keyOf r) = some w → opcOf w = q.2 →
          s.hw.admits x r.lc r.lk r.strm = true → a = (if q.2 = 4 then Arrival.halt else .bar (bitsAt w 82 10)) →
          others = x.allStreams.filter (fun p => p != (r.lc.val, r.lk.val, r.strm.val)) →
        ((∃ p ∈ others, (x.run.strm (strmKey p.1 p.2.1 p.2.2)).arrival ≠ .none ∧
            ((x.run.strm (strmKey p.1 p.2.1 p.2.2)).arrival = .halt ↔ q.2 ≠ 4)) →
          Raised s t r.ctx dStreamEnd ∧ Mem.But [] s.mem t.mem) ∧
        ((∃ p ∈ others, (x.run.strm (strmKey p.1 p.2.1 p.2.2)).arrival = .none) → StreamAlone s t r.ctx (keyOf r) ∧
          Mem.But [] s.mem t.mem ∧ ∃ y, Tab.find? t.hw.ctxs r.ctx = some y ∧ (y.run.strm (keyOf r)).arrival = a ∧
            (y.run.strm (keyOf r)).arriveTb = s.hw.tb ∧ (y.run.strm (keyOf r)).pc = (x.run.strm (keyOf r)).pc ∧
            y.run.bar = .none) ∧
        ((∀ p ∈ others, (x.run.strm (strmKey p.1 p.2.1 p.2.2)).arrival ≠ .none ∧
            ((x.run.strm (strmKey p.1 p.2.1 p.2.2)).arrival = .halt ↔ q.2 = 4)) →
          (x.leftover ≠ none → Raised s t r.ctx dTokenLeftover ∧ Mem.But [] s.mem t.mem) ∧
          (x.leftover = none → q.2 = 3 → (∃ p ∈ others, (x.run.strm (strmKey p.1 p.2.1 p.2.2)).arrival ≠ a) →
            Raised s t r.ctx dBarMismatch ∧ Mem.But [] s.mem t.mem) ∧
          (x.leftover = none → q.2 = 3 → (∀ p ∈ others, (x.run.strm (strmKey p.1 p.2.1 p.2.2)).arrival = a) →
            ∃ y, Tab.find? t.hw.ctxs r.ctx = some y ∧ y.run.nextDesc = bitsAt w 82 10 ∧ y.run.barTb = s.hw.tb ∧
              ((∀ p, x.host.place = some p → p.pinned = true) → x.img.decl.len = none → x.img.decl.slip = none →
                  x.run.fault = none →
                y.run.bar = .waking ∧ y.run.moves = [] ∧ y.run.epochSeq = (x.run.epochSeq + 1) % 2 ^ 32 ∧
                y.run.epochDesc = bitsAt w 82 10 ∧ y.run.epochTb = s.hw.tb ∧ y.run.chans = [] ∧ y.run.owners = [] ∧
                ((∀ b ∈ x.bankPlan (bitsAt w 82 10), b.2 ≠ 2) → Mem.But [] s.mem t.mem))) ∧
          (x.leftover = none → q.2 = 4 → x.img.decl.slip = none → x.run.fault = none →
            ∃ y, Tab.find? t.hw.ctxs r.ctx = some y ∧ y.host = { x.host with st := .ended, place := none } ∧
              (∀ k ∈ t.hw.host.cmds, ¬ (k.ctx = s.hw.handle r.ctx ∧ (k.opcode = 0x0302 ∨ k.opcode = 0x0303))) ∧
              ∀ p, x.host.place = some p → (∀ b ∈ p.cores, b.2 < 576) → (∀ b ∈ p.clusters, b.2 < 64) →
                (∀ c, (s.hw.clusOf c).samp.armed = false) → ∀ z, 2 ^ 44 ≤ z → z < 2 ^ 46 → t.mem.read z = s.mem.read z))) ∧
  ∀ (ctx : Fin 64) (s : State),
    (∀ sn : Seen, ∃ t, exec (.migrationPageDone ctx sn) s = .next t ∧ t.pending = s.pending ∧ t.fuses = s.fuses ∧
      s.hw.Only [.regs, .ctxs, .clus, .hbm, .xcl, .host, .logs, .hist, .out] t.hw ∧
      (Tab.find? s.hw.ctxs ctx = none ∨ (∃ x, Tab.find? s.hw.ctxs ctx = some x ∧
        (x.run.moves = [] ∨ x.host.st ≠ .running ∨ x.run.bar ≠ .migrating)) → t = s) ∧
      ∀ x mv rest p, Tab.find? s.hw.ctxs ctx = some x → x.run.moves = mv :: rest → x.host.place = some p →
          x.host.st = .running → x.run.bar = .migrating →
        ((s.mem.seen sn).ueIn (hbmAddr (mv.src * pageBytes)) pageBytes ≠ none → Raised s t ctx dHbmUe ∧ Mem.But [] s.mem t.mem) ∧
        ((s.mem.seen sn).ueIn (hbmAddr (mv.src * pageBytes)) pageBytes = none →
          (∃ y u, Tab.find? t.hw.ctxs ctx = some y ∧ y.run.moves = rest ∧ y.host.place = some u ∧
            Tab.find? u.pages (pageKey mv.region mv.lpn) = some mv.dst ∧ u.migrated = p.migrated + 1 ∧
            (rest = [] → x.img.decl.len = none → x.img.decl.slip = none → x.run.fault = none → y.run.bar = .waking ∧
              y.run.epochSeq = (x.run.epochSeq + 1) % 2 ^ 32)) ∧
          (rest ≠ [] → t.hw.fld Fd.PLU_MIGR_CNT.PAGES =
              min (s.hw.fld Fd.PLU_MIGR_CNT.PAGES + 1) (2 ^ Fd.PLU_MIGR_CNT.PAGES.w - 1) ∧
            (∀ v ∈ t.hw.xcl, ∀ u ∈ v.2.sets, ∀ e ∈ u.2, ¬ (e.ctx = ctx.val ∧ e.region = mv.region ∧ e.lpn = mv.lpn)) ∧
            (s.MemOk → mv.dst < 2 ^ 20 →
              (∀ b < pageBytes, t.mem.read (hbmAddr (mv.dst * pageBytes) + b) =
                s.mem.read (hbmAddr (mv.src * pageBytes) + b)) ∧
              ∀ z, z < 2 ^ 46 → ¬ (hbmAddr (mv.dst * pageBytes) ≤ z ∧ z < hbmAddr (mv.dst * pageBytes) + pageBytes) →
                t.mem.read z = s.mem.read z)))) ∧
    ∃ t, exec (.barrierRelease ctx) s = .next t ∧ t.pending = s.pending ∧ t.fuses = s.fuses ∧
      s.hw.Only [.regs, .ctxs, .clus] t.hw ∧
      (Tab.find? s.hw.ctxs ctx = none ∨ (∃ x, Tab.find? s.hw.ctxs ctx = some x ∧ (x.run.bar ≠ .waking ∨ x.host.st ≠ .running ∨
        ∃ b ∈ x.bankPlan x.run.epochDesc, Tab.find? (s.hw.clusOf (bankOwner b.1)).bgt.pend b.1 ≠ none)) → t = s) ∧
      ∀ x, Tab.find? s.hw.ctxs ctx = some x → x.run.bar = .waking → x.host.st = .running →
          (∀ b ∈ x.bankPlan x.run.epochDesc, Tab.find? (s.hw.clusOf (bankOwner b.1)).bgt.pend b.1 = none) →
        (∃ y, Tab.find? t.hw.ctxs ctx = some y ∧ y.host = x.host ∧ y.run.bar = .none ∧ y.run.chans = x.run.chans ∧
          ∀ k st, Tab.find? x.run.streams k = some st →
            y.run.strm k = { st with arrival := .none, pc := st.pc + 1, lastTb := s.hw.tb }) ∧
        (∀ b ∈ x.bankPlan x.run.epochDesc, b.2 = 0 → t.hw.bankCode b.1 = 0) ∧
        ((∀ c, (s.hw.clusOf c).samp.armed = false) → t.mem = s.mem)

/-! ## The matrix engines (03_engines.md) -/

/-- SETFMT, LOADB and its staging, MMA and MMAZ, DRAIN with its check and retry, and CHKRD (R45, R47, R66–R70, R73–R78, R92, R152,
R491). -/
def Obligations.MatrixEngine : Prop :=
  ∀ (r : StreamRef) (s : State),
    (∃ t, exec (.setfmt r) s = .next t ∧ Frame [.ctxs, .cores] s t ∧ (s.hw.work r 0x10 = none → t = s) ∧
      ∀ w, s.hw.work r 0x10 = some w → Executed t w ∧ StreamAlone s t w.w.c (keyOf r) ∧
        t.hw.mxeOf w.k r.strm = { s.hw.mxeOf w.k r.strm with aFmt := bitsAt w.word 88 4, bFmt := bitsAt w.word 84 4, oFmt := bitsAt w.word 80 4, rnd := bitAt w.word 79, nonsat := bitAt w.word 78, tol := bitsAt w.word 72 6 } ∧
        (∀ e, decide (e = 0) ≠ decide (r.strm.val = 0) → t.hw.mxeOf w.k e = s.hw.mxeOf w.k e) ∧
        ∀ k, k ≠ w.k → t.hw.coreOf k = s.hw.coreOf k) ∧
    (∃ t, exec (.loadb r) s = .next t ∧ Frame [.ctxs, .cores] s t ∧ (s.hw.work r 0x11 = none → t = s) ∧
      ∀ w, s.hw.work r 0x11 = some w → Executed t w ∧ StreamAlone s t w.w.c (keyOf r) ∧
        (∃ q, t.hw.mxeOf w.k r.strm = { s.hw.mxeOf w.k r.strm with staged := some q } ∧ q.issueSteps = w.fl.startSteps ∧
          q.complete = false ∧ q.serves w.mmaOps (s.hw.mxeOf w.k r.strm) = true) ∧
        (∀ e, decide (e = 0) ≠ decide (r.strm.val = 0) → t.hw.mxeOf w.k e = s.hw.mxeOf w.k e) ∧
        ∀ k, k ≠ w.k → t.hw.coreOf k = s.hw.coreOf k) ∧
    (∃ t, exec (.loadbStagingDone r) s = .next t ∧ Frame [.cores] s t ∧
      ∀ x k, Tab.find? s.hw.ctxs r.ctx = some x → x.core? r.lc r.lk = some k →
        ((s.hw.mxeOf k r.strm).staged = none → t = s) ∧
        ∀ q, (s.hw.mxeOf k r.strm).staged = some q →
          (s.hw.steps (k / 9) < q.issueSteps + 64 ∨ q.complete = true → t = s) ∧
          (q.issueSteps + 64 ≤ s.hw.steps (k / 9) → q.complete = false →
            t.hw.mxeOf k r.strm = { s.hw.mxeOf k r.strm with staged := some { q with complete := true } } ∧
            (∀ e, decide (e = 0) ≠ decide (r.strm.val = 0) → t.hw.mxeOf k e = s.hw.mxeOf k e) ∧
            ∀ j, j ≠ k → t.hw.coreOf j = s.hw.coreOf j)) ∧
    (∀ (sn : Seen), ∀ q ∈ [(Instr.mma r sn, 0x12, false), (.mmaz r sn, 0x13, true)], ∃ t, exec q.1 s = .next t ∧
      t.pending = s.pending ∧ t.fuses = s.fuses ∧ Mem.But [] s.mem t.mem ∧
      s.hw.Only [.regs, .ctxs, .cores, .hbm, .xcl, .host, .ccl, .logs, .hist, .out] t.hw ∧
      (s.hw.work r q.2.1 = none → t = s) ∧
      ∀ w o m0, s.hw.work r q.2.1 = some w → o = w.mmaOps → m0 = s.hw.mxeOf w.k r.strm →
        ((∃ g, m0.staged = some g ∧ g.serves o m0 = true ∧ g.complete = false) → t = s) ∧
        ((∀ g, m0.staged = some g → g.serves o m0 = true → g.complete = true) → StreamAlone s t w.w.c (keyOf r) ∧
          (∀ k, k ≠ w.k → t.hw.coreOf k = s.hw.coreOf k) ∧
          (∀ e, decide (e = 0) ≠ decide (r.strm.val = 0) → t.hw.mxeOf w.k e = s.hw.mxeOf w.k e) ∧
          (o.a % 32 ≠ 0 ∨ o.b % 32 ≠ 0 ∨ (o.dsa ≠ none ∧ o.sa % 4 ≠ 0) ∨ (o.dsb ≠ none ∧ o.sb % 4 ≠ 0) →
            Raised s t w.w.c dAlign ∧ t.hw.cores = s.hw.cores) ∧
          (o.misaligned = none → ∀ g,
            (∀ e, Hw.srcAll (s.mem.seen sn) w (s.hw.seen sn) (o.ranges m0) = (g, .error e) →
              Raised s t w.w.c e.detail ∧ t.hw.cores = s.hw.cores) ∧
            ∀ ps, Hw.srcAll (s.mem.seen sn) w (s.hw.seen sn) (o.ranges m0) = (g, .ok ps) →
              Executed t w ∧ (t.hw.mxeOf w.k r.strm).staged = none ∧
              (∃ y, Tab.find? t.hw.ctxs w.w.c = some y ∧ ∀ p ∈ ps, ∀ a ∈ p.segs,
                (⟨0, a.1, a.2⟩ : Rng) ∈ Tab.getD y.run.holds (keyOf r) []) ∧
              (q.2.2 = true ∨ m0.replay.length < 64 → (t.hw.mxeOf w.k r.strm).replay =
                (if q.2.2 then [] else m0.replay) ++ [o.replay m0]) ∧
              (q.2.2 = false → 64 ≤ m0.replay.length → (t.hw.mxeOf w.k r.strm).replayOvf = true) ∧
              ∀ i j, i < 128 → j < 64 → ∀ fa fb row col, fa = Fmt.get m0.aFmt → fb = Fmt.get m0.bFmt →
                row = rowVals fa o.k (s.mem.reads (spadBase w.k + o.a.toNat + i * o.da.stride) (fa.bytes o.k))
                  (if fa.isMx then s.mem.reads (spadBase w.k + o.sa.toNat + i * (o.replay m0).strideSa) (o.k / 32) else []) →
                col = rowVals fb o.k (s.mem.reads (spadBase w.k + o.b.toNat + j * o.db.stride) (fb.bytes o.k))
                  (if fb.isMx then s.mem.reads (spadBase w.k + o.sb.toNat + j * (o.replay m0).strideSb) (o.k / 32) else []) →
                (t.hw.mxeOf w.k r.strm).acc.getD (64 * i + j) Ewa.clear =
                  (List.zipWith Val.mul row col).foldl Ewa.add
                    (if q.2.2 then Ewa.clear else m0.acc.getD (64 * i + j) Ewa.clear)))) ∧
    (∀ (sn : Seen) (ab : AbftIn), ∃ t, exec (.drain r sn ab) s = .next t ∧ t.pending = s.pending ∧ t.fuses = s.fuses ∧
      s.hw.Only [.regs, .ctxs, .cores, .hbm, .xcl, .host, .ccl, .logs, .hist, .out] t.hw ∧
      (s.hw.work r 0x14 = none → t = s) ∧
      ∀ w m0 m1 m2 d v sc h1 dsts, s.hw.work r 0x14 = some w → m0 = s.hw.mxeOf w.k r.strm → m1 = m0.flip ab.flips →
          m2 = (m0.rerun w.k (s.mem.seen sn)).flip ab.flips2 → drainDests w (Fmt.get m0.oFmt) = (d, v, sc) →
          h1 = (if m0.retrying then s.hw.seen sn else (s.hw.seen sn).markDone w.w
            (fun f => { f with done := false, cost := f.cost + retryCost m1 })).countCore w.k { code := 0x0B, masters := [w.w.s + 1] } 1 →
          dsts = rowAddrs v 128 d.stride ((Fmt.get m0.oFmt).bytes 64) →
        StreamAlone s t w.w.c (keyOf r) ∧ (∀ k, k ≠ w.k → t.hw.coreOf k = s.hw.coreOf k) ∧
        (v % 32 ≠ 0 ∨ (∃ u, sc = some u ∧ u.2 % 4 ≠ 0) → Stops s t w dAlign ∧ t.hw.cores = s.hw.cores) ∧
        (v % 32 = 0 → (∀ u, sc = some u → u.2 % 4 = 0) →
          (m0.retrying = false → m1.check.pass = true → ab.parity = false → sc = none → ∀ g,
            (∀ e, (s.hw.seen sn).dstRows (s.mem.seen sn) w.x w.w (d.unit w.w.lc w.w.lk) dsts = (g, .error e) →
              Stops s t w e.detail ∧ t.hw.cores = s.hw.cores) ∧
            ∀ ps, (s.hw.seen sn).dstRows (s.mem.seen sn) w.x w.w (d.unit w.w.lc w.w.lk) dsts = (g, .ok ps) →
              Executed t w ∧ Stored s.mem t.mem (ps.zip (drained m1 w)) ∧ (t.hw.mxeOf w.k r.strm).acc = [] ∧
              (t.hw.mxeOf w.k r.strm).replay = [] ∧
              ∃ u, (t.hw.mxeOf w.k r.strm).tile = some u ∧ u.retried = false ∧ u.check = m1.check.code ∧
                u.wl = m1.check.wl ∧ u.drainIdx = w.fl.idx) ∧
          (m0.retrying = false → m1.check.pass = false ∨ ab.parity = true →
            (m1.replayOvf = true → Stops s t w dNoReplay) ∧
            (m1.replayOvf = false → ab.unfinished = true → Mem.But [] s.mem t.mem ∧ s.hw.Only [.ctxs, .cores] t.hw ∧
              t.hw.mxeOf w.k r.strm = { m0 with retrying := true } ∧
              ∃ y f, Tab.find? t.hw.ctxs w.w.c = some y ∧ (y.run.strm (keyOf r)).inflight[w.w.n]? = some f ∧ f.done = false ∧
                f.cost = w.fl.cost + retryCost m0)) ∧
          (m0.retrying = true ∨ ((m1.check.pass = false ∨ ab.parity = true) ∧ m1.replayOvf = false ∧ ab.unfinished = false) →
            (m0.replayUe w (s.mem.seen sn) ≠ none → Stops s t w dOperandUe) ∧
            (m0.replayUe w (s.mem.seen sn) = none →
              (m2.check.pass = false → ab.parity2 = false → Stops s t w dAbftMismatch) ∧
              (ab.parity2 = true → Stops s t w dAccParity) ∧
              (m2.check.pass = true → ab.parity2 = false → sc = none → ∀ g,
                (∀ e, h1.dstRows (s.mem.seen sn) w.x w.w (d.unit w.w.lc w.w.lk) dsts = (g, .error e) → Stops s t w e.detail) ∧
                ∀ ps, h1.dstRows (s.mem.seen sn) w.x w.w (d.unit w.w.lc w.w.lk) dsts = (g, .ok ps) →
                  Executed t w ∧ Stored s.mem t.mem (ps.zip (drained m2 w)) ∧ (t.hw.mxeOf w.k r.strm).acc = [] ∧
                  (t.hw.mxeOf w.k r.strm).retrying = false ∧
                  (w.k < 576 → r.strm.val < 2 → t.hw.flag (Fd.MXE_ERR.ABFT_TRANSIENT w.k r.strm) = true) ∧
                  ∃ u, (t.hw.mxeOf w.k r.strm).tile = some u ∧ u.retried = true ∧ u.check = m2.check.code ∧
                    u.drainIdx = w.fl.idx))))) ∧
    ∀ sn : Seen, ∃ t, exec (.chkrd r sn) s = .next t ∧ t.pending = s.pending ∧ t.fuses = s.fuses ∧
      s.hw.Only [.regs, .ctxs, .hbm, .xcl, .host, .ccl, .logs, .hist, .out] t.hw ∧ (s.hw.work r 0x15 = none → t = s) ∧
      ∀ w d v, s.hw.work r 0x15 = some w → d = (w.x.img.desc? w.w.lc w.w.lk (bitsAt w.word 80 12)).getD noDesc →
          v = d.value w.fl.iters → StreamAlone s t w.w.c (keyOf r) ∧
        (v % 32 ≠ 0 → Stops s t w dAlign) ∧
        (v % 32 = 0 → ∀ g,
          (∀ e, (s.hw.seen sn).dstRow (s.mem.seen sn) w.x w.w (d.unit w.w.lc w.w.lk) (v, 32) = (g, .error e) → Stops s t w e.detail) ∧
          ∀ p, (s.hw.seen sn).dstRow (s.mem.seen sn) w.x w.w (d.unit w.w.lc w.w.lk) (v, 32) = (g, .ok p) →
            Executed t w ∧ Stored s.mem t.mem [(p, tileBytes (s.hw.mxeOf w.k r.strm).tile)])

/-! ## The vector engine (03_engines.md) -/

/-- The vector instructions: the elementwise ones, VSCL, VCMP, VSEL, VRED, VCVT, VSMX, VROPE and VGATHER (R54–R59, R79–R86, R193,
    R486,
R487). -/
def Obligations.VectorEngine : Prop :=
  ∀ (r : StreamRef) (sn : Seen) (s : State),
    (∀ q ∈ [(Instr.vadd r sn, 0x20), (.vsub r sn, 0x21), (.vmul r sn, 0x22), (.vfma r sn, 0x23), (.vmax r sn, 0x24),
        (.vmin r sn, 0x25), (.vabs r sn, 0x26), (.vneg r sn, 0x27), (.vmov r sn, 0x28), (.vscl r sn, 0x29), (.vcmp r sn, 0x2A),
        (.vsel r sn, 0x2B), (.vred r sn, 0x30), (.vexp r sn, 0x31), (.vrcp r sn, 0x32), (.vrsq r sn, 0x33), (.vcvt r sn, 0x34),
        (.vsmx r sn, 0x35), (.vrope r sn, 0x36), (.vgather r sn, 0x37)],
      ∃ t, exec q.1 s = .next t ∧ t.pending = s.pending ∧ t.fuses = s.fuses ∧
        s.hw.Only [.regs, .free, .ctxs, .hbm, .xcl, .host, .ccl, .logs, .hist, .out] t.hw ∧
        (q.2 ≠ 0x2A → q.2 ≠ 0x37 → t.hw.free = s.hw.free) ∧ (s.hw.work r q.2 = none → t = s) ∧
        ∀ w, s.hw.work r q.2 = some w → StreamAlone s t w.w.c (keyOf r) ∧ (Executed t w ∨ ∃ d, Raised s t w.w.c d)) ∧
    (∀ q ∈ [(Instr.vadd r sn, 0x20, [68, 56], bin fpAdd intAdd), (.vsub r sn, 0x21, [68, 56], bin fpSub intSub),
        (.vmul r sn, 0x22, [68, 56], fun f l => fpMul f (l.getD 0 0) (l.getD 1 0)),
        (.vfma r sn, 0x23, [68, 56, 44], fun f l => fpFma f (l.getD 0 0) (l.getD 1 0) (l.getD 2 0)),
        (.vmax r sn, 0x24, [68, 56], bin fpMax intMax), (.vmin r sn, 0x25, [68, 56], bin fpMin intMin),
        (.vabs r sn, 0x26, [68], fun f l => (absEl f (l.getD 0 0), .none)),
        (.vneg r sn, 0x27, [68], fun f l => (negEl f (l.getD 0 0), .none)), (.vmov r sn, 0x28, [68], fun _ l => (l.getD 0 0, .none)),
        (.vexp r sn, 0x31, [68], fun _ l => expEl (l.getD 0 0)), (.vrcp r sn, 0x32, [68], fun _ l => rcpEl (l.getD 0 0)),
        (.vrsq r sn, 0x33, [68], fun _ l => rsqEl (l.getD 0 0))],
      ∃ t, exec q.1 s = .next t ∧ ∀ w fmt n, s.hw.work r q.2.1 = some w → fmt = v1Fmt w → n = v1N w →
        LoadedAll s t sn w (v1R w) (fmt.bits / 8 * n) fmt.align q.2.2.1 (s.hw.seen sn) (fun g srcs =>
          ∀ els rows fl, els = (List.range (v1R w)).map (fun i => (List.range n).map (fun e =>
              q.2.2.2 fmt (srcs.map (fun x => el (x.getD i 0) fmt.bits e)))) →
            rows = els.map (fun l => packElems fmt.bits (l.map Prod.fst)) →
            fl = els.foldl (fun a l => l.foldl (fun a x => a.or x.2) a) FpFlags.none →
            Written s t sn w (g.fpFlags w.k fl) [(w.vop 80, fmt.align, rows)] [] ∧
            (w.x.InRange → w.k < 576 → sn = Seen.clean → Executed t w → Flagged s t w.k fl))) ∧
    (∃ t, exec (.vscl r sn) s = .next t ∧ ∀ w fmt n, s.hw.work r 0x29 = some w → fmt = v1Fmt w → n = v1N w →
      Loaded s t sn w (s.hw.seen sn) (w.vop 68) (v1R w) (fmt.bits / 8 * n) fmt.align (fun g xs =>
        Loaded s t sn w g (w.vop 56) 1 (fmt.bits / 8) fmt.align (fun g ts =>
          ∀ els fl, els = xs.map (fun x => (List.range n).map (fun e => fpMul fmt (el x fmt.bits e) (ts.getD 0 0))) →
            fl = els.foldl (fun a l => l.foldl (fun a x => a.or x.2) a) FpFlags.none →
            Written s t sn w (g.fpFlags w.k fl)
              [(w.vop 80, fmt.align, els.map (fun l => packElems fmt.bits (l.map Prod.fst)))] []))) ∧
    (∃ t, exec (.vcmp r sn) s = .next t ∧ ∀ w fmt n m, s.hw.work r 0x2A = some w → fmt = v1Fmt w → n = v1N w → m = v1R w * n →
      Loaded s t sn w (s.hw.seen sn) (w.vop 68) (v1R w) (fmt.bits / 8 * n) fmt.align (fun g xs =>
        Loaded s t sn w g (w.vop 56) (v1R w) (fmt.bits / 8 * n) fmt.align (fun g ys =>
          ∃ mask g', (m % 32 = 0 → g' = g) ∧ (m % 32 ≠ 0 → g' = { g with free := g.free + 1 }) ∧
            (∀ i, i < m → bitAt mask i = (cmpEl fmt (v1Sub w) (el (xs.getD (i / n) 0) fmt.bits (i % n))
              (el (ys.getD (i / n) 0) fmt.bits (i % n))).1) ∧
            ∀ fl, fl = ((List.range m).map (fun i => (cmpEl fmt (v1Sub w) (el (xs.getD (i / n) 0) fmt.bits (i % n))
                (el (ys.getD (i / n) 0) fmt.bits (i % n))).2)).foldl FpFlags.or FpFlags.none →
              Written s t sn w (g'.fpFlags w.k fl) [(w.vop 80, 4, [leBytes (maskBytes m) mask])] []))) ∧
    (∃ t, exec (.vsel r sn) s = .next t ∧ ∀ w fmt n, s.hw.work r 0x2B = some w → fmt = v1Fmt w → n = v1N w →
      Loaded s t sn w (s.hw.seen sn) (w.vop 68) (v1R w) (fmt.bits / 8 * n) fmt.align (fun g xs =>
        Loaded s t sn w g (w.vop 56) (v1R w) (fmt.bits / 8 * n) fmt.align (fun g ys =>
          Loaded s t sn w g (w.vop 44) 1 (maskBytes (v1R w * n)) 4 (fun g mask =>
            Written s t sn w g [(w.vop 80, fmt.align, (List.range (v1R w)).map (fun i =>
              packElems fmt.bits ((List.range n).map (fun e => if bitAt (mask.getD 0 0) (i * n + e)
                then el (xs.getD i 0) fmt.bits e else el (ys.getD i 0) fmt.bits e))))] [])))) ∧
    (∃ t, exec (.vred r sn) s = .next t ∧ ∀ w fmt n, s.hw.work r 0x30 = some w → fmt = v1Fmt w → n = v1N w →
      Loaded s t sn w (s.hw.seen sn) (w.vop 68) (v1R w) (fmt.bits / 8 * n) fmt.align (fun g xs =>
        ∀ rs, rs = xs.map (fun x => redRow fmt (v1Sub w) ((List.range n).map (el x fmt.bits))) →
          Written s t sn w (g.fpFlags w.k (rs.foldl (fun a x => a.or x.2) FpFlags.none))
            [(w.vop 80, 4, rs.map (fun x => leBytes 4 x.1))] [])) ∧
    (∃ t, exec (.vcvt r sn) s = .next t ∧ ∀ w src dst n nonsat, s.hw.work r 0x34 = some w → src = Fmt.get (bitsAt w.word 40 4) →
        dst = Fmt.get (bitsAt w.word 16 4) → n = v1N w → nonsat = bitAt w.word 14 →
      Loaded s t sn w (s.hw.seen sn) (w.vop 68) (v1R w) ((n * src.bits + 7) / 8) src.align (fun g xs =>
        ∀ val mode : Nat → Nat → _,
          (∀ i e, mode i e = rndMode (bitAt w.word 15) w.x.host.seed
            (w.x.img.valueOf w.w.lc w.w.lk (bitsAt w.word 2 12) w.fl.iters 48) (i * n + e)) →
          (∀ i e, val i e = src.decode (el (xs.getD i 0) src.bits e)) →
          (src.isMx = false → dst.isMx = false → ∀ els, els = (List.range (v1R w)).map (fun i => (List.range n).map (fun e =>
              cvtEl src dst (mode i e) nonsat (val i e))) →
            Written s t sn w (g.fpFlags w.k (els.foldl (fun a l => l.foldl (fun a x => a.or x.2) a) FpFlags.none))
              [(w.vop 80, dst.align, els.map (fun l => packElems dst.bits (l.map Prod.fst)))] []) ∧
          (src.isMx = true → dst.isMx = false → Loaded s t sn w g (w.vop 56) (v1R w) (n / 32) 1 (fun g ss =>
            ∀ els, els = (List.range (v1R w)).map (fun i => (List.range n).map (fun e =>
                cvtEl src dst (mode i e) nonsat (scaleVal (el (ss.getD i 0) 8 (e / 32)) (val i e)))) →
              Written s t sn w (g.fpFlags w.k (els.foldl (fun a l => l.foldl (fun a x => a.or x.2) a) FpFlags.none))
                [(w.vop 80, dst.align, els.map (fun l => packElems dst.bits (l.map Prod.fst)))] [])) ∧
          (src.isMx = false → dst.isMx = true → ∀ blocks, blocks = (List.range (v1R w)).map (fun i =>
              (List.range (n / 32)).map (fun b => mxBlock dst nonsat ((List.range 32).map (fun e => val i (32 * b + e)))
                ((List.range 32).map (fun e => mode i (32 * b + e))))) →
            Written s t sn w (g.fpFlags w.k (blocks.foldl (fun a l => l.foldl (fun a b => a.or b.2.2) a) FpFlags.none))
              [(w.vop 80, 1, blocks.map (fun l => packElems dst.bits (l.flatMap (fun b => b.2.1)))),
               (w.vop 44, 1, blocks.map (fun l => l.map (fun b => BitVec.ofNat 8 b.1)))] []) ∧
          (src.isMx = true → dst.isMx = true → Loaded s t sn w g (w.vop 56) (v1R w) (n / 32) 1 (fun g ss =>
            ∀ blocks, blocks = (List.range (v1R w)).map (fun i => (List.range (n / 32)).map (fun b => mxBlock dst nonsat
                ((List.range 32).map (fun e => scaleVal (el (ss.getD i 0) 8 ((32 * b + e) / 32)) (val i (32 * b + e))))
                ((List.range 32).map (fun e => mode i (32 * b + e))))) →
              Written s t sn w (g.fpFlags w.k (blocks.foldl (fun a l => l.foldl (fun a b => a.or b.2.2) a) FpFlags.none))
                [(w.vop 80, 1, blocks.map (fun l => packElems dst.bits (l.flatMap (fun b => b.2.1)))),
                 (w.vop 44, 1, blocks.map (fun l => l.map (fun b => BitVec.ofNat 8 b.1)))] [])))) ∧
    (∃ t, exec (.vsmx r sn) s = .next t ∧ ∀ w m n pf sz q0 k0, s.hw.work r 0x35 = some w → n = 64 * (bitsAt w.word 13 7 + 1) →
        m = bitsAt w.word 6 7 + 1 → pf = bitsAt w.word 2 2 → sz = (if pf = 0 then 4 else if pf = 1 then 2 else 1) →
        q0 = w.x.img.valueOf w.w.lc w.w.lk (bitsAt w.word 32 12) w.fl.iters 24 →
        k0 = w.x.img.valueOf w.w.lc w.w.lk (bitsAt w.word 20 12) w.fl.iters 24 →
      Loaded s t sn w (s.hw.seen sn) (w.vop 68) m (4 * n) 4 (fun g sc =>
        Loaded s t sn w g (w.vop 56) m 16 4 (fun g st =>
          Loaded s t sn w g (w.vop 44) 1 8 4 (fun g pr =>
            ∀ rows, rows = (List.range m).map (fun i => smxRow pf (bitsAt w.word 4 2) (el (pr.getD 0 0) 32 1) (q0 + i) k0
                (el (pr.getD 0 0) 32 0) (el (st.getD i 0) 32 0) (el (st.getD i 0) 32 1)
                ((List.range n).map (el (sc.getD i 0) 32))) →
              Written s t sn w (g.fpFlags w.k (rows.foldl (fun a x => a.or x.2.2.2.2) FpFlags.none))
                [(w.vop 80, sz, rows.map (fun x => packElems (8 * sz) x.1)),
                 (w.vop 56, 4, rows.map (fun x => leBytes 4 x.2.1 ++ leBytes 4 x.2.2.1 ++ leBytes 4 x.2.2.2.1))] [])))) ∧
    (∃ t, exec (.vrope r sn) s = .next t ∧ ∀ w fmt n p0, s.hw.work r 0x36 = some w → fmt = v1Fmt w → n = v1N w →
        p0 = w.x.img.valueOf w.w.lc w.w.lk (bitsAt w.word 44 12) w.fl.iters 24 →
      Loaded s t sn w (s.hw.seen sn) (w.vop 68) (v1R w) (fmt.bits / 8 * n) fmt.align (fun g xs =>
        (bitAt w.word 18 = true → Loaded s t sn w g (w.vop 56) 1 (4 * (n / 2)) 4 (fun g ts =>
          ∀ els, els = (List.range (v1R w)).map (fun i => ropeRow fmt (bitAt w.word 19) n (xs.getD i 0) (fun j =>
              trigEl (p0 + i) (el (ts.getD 0 0) 32 j))) →
            Written s t sn w (g.fpFlags w.k (els.foldl (fun a l => l.foldl (fun a x => a.or x.2) a) FpFlags.none))
              [(w.vop 80, fmt.align, els.map (fun l => packElems fmt.bits (l.map Prod.fst)))] [])) ∧
        (bitAt w.word 18 = false →
          Loaded s t sn w g ⟨(w.vop 56).d, (w.vop 56).v + (p0 * (w.vop 56).d.stride : Nat)⟩ (v1R w) (8 * (n / 2)) 4 (fun g ts =>
            ∀ els, els = (List.range (v1R w)).map (fun i => ropeRow fmt (bitAt w.word 19) n (xs.getD i 0) (fun j =>
                (el (ts.getD i 0) 32 (2 * j), el (ts.getD i 0) 32 (2 * j + 1)))) →
              Written s t sn w (g.fpFlags w.k (els.foldl (fun a l => l.foldl (fun a x => a.or x.2) a) FpFlags.none))
                [(w.vop 80, fmt.align, els.map (fun l => packElems fmt.bits (l.map Prod.fst)))] [])))) ∧
    ∃ t, exec (.vgather r sn) s = .next t ∧ ∀ w len, s.hw.work r 0x37 = some w → len = 4 * (bitsAt w.word 27 13 + 1) →
      ∀ d, w.x.img.slot? (bitsAt w.word 56 12) = some d → ∀ g,
        (∀ e, (s.hw.seen sn).readSlots (s.mem.seen sn) w d = (g, .error e) → Stops s t w e.detail) ∧
        ∀ idx : List Nat, (s.hw.seen sn).readSlots (s.mem.seen sn) w d = (g, .ok idx) →
          (∀ n, badSlot d idx = some n → Raised s t w.w.c dSlotRange ∧ ∀ h0 g1 g2 g3 rows ps,
            h0 = { s.hw.seen sn with free := s.hw.free + 1 } → h0.readSlots (s.mem.seen sn) w d = (g1, .ok idx) →
            Hw.slotRows (s.mem.seen sn) w (w.vop 68) len g1 (idx.take n) = (g2, .ok rows) →
            g2.dstRows (s.mem.seen sn) w.x w.w ((w.vop 80).d.unit w.w.lc w.w.lk)
              (rows.zipIdx.map (fun (b, i) => ((w.vop 80).v + (i * (w.vop 80).d.stride : Nat), b.length))) = (g3, .ok ps) →
            s.mem.But (ps.flatMap (·.segs)) t.mem) ∧
          (badSlot d idx = none → ∀ g',
            (∀ e, Hw.slotRows (s.mem.seen sn) w (w.vop 68) len g idx = (g', .error e) → Stops s t w e.detail) ∧
            ∀ rows : List (List Byte), Hw.slotRows (s.mem.seen sn) w (w.vop 68) len g idx = (g', .ok rows) →
              (∀ i : Nat, idx[i]? = some emptySlot → rows[i]? = some (List.replicate len 0)) ∧
              Written s t sn w g' [(w.vop 80, 1, rows)] [])

/-! ## The transfer engine and translation (03_engines.md, 05_hbm.md) -/

/-- MOVE, FILL, MOVEPG, TPOST and TRANSLATION_WALK (R84, R87–R90, R92, R130–R135, R195, R230–R233, R489, R493). -/
def Obligations.TransferEngine : Prop :=
  (∀ (r : StreamRef) (sn : Seen) (s : State),
    (∀ q ∈ [(Instr.move r sn, 0x40, moveWork), (.fill r sn, 0x44, fillWork), (.movepg r sn, 0x41, movepgWork)],
      ∃ t, exec q.1 s = .next t ∧ t.pending = s.pending ∧ t.fuses = s.fuses ∧
        s.hw.Only [.regs, .free, .ctxs, .hbm, .xcl, .host, .ccl, .logs, .hist, .out] t.hw ∧ (s.hw.work r q.2.1 = none → t = s) ∧
        ∀ w v, s.hw.work r q.2.1 = some w → v = q.2.2 w (s.mem.seen sn) (s.hw.seen sn) →
          (∀ e, v.stop = some e → Raised s t w.w.c e.detail ∧ s.mem.But (v.rows.flatMap (fun x => x.1.segs)) t.mem ∧
            t.hw.free = s.hw.free + 1) ∧
          (v.stop = none → Executed t w ∧ Stored s.mem t.mem v.rows ∧ t.hw.free = s.hw.free)) ∧
    (∃ t, exec (.move r sn) s = .next t ∧ ∀ w n len sd dd sv dv, s.hw.work r 0x40 = some w → n = moveRows w.word →
        len = moveBytes w.word → sd = w.x.img.opnd w.w.lc w.w.lk w.word 68 → dd = w.x.img.opnd w.w.lc w.w.lk w.word 80 →
        sv = sd.value w.fl.iters → dv = dd.value w.fl.iters →
      (sv % 4 ≠ 0 ∨ dv % 4 ≠ 0 → Stops s t w dAlign) ∧
      (sv % 4 = 0 → dv % 4 = 0 →
        (w.x.img.slot? (bitsAt w.word 56 12) = none → ∀ g,
          (∀ e, (s.hw.seen sn).srcRows (s.mem.seen sn) w.x w.w (sd.unit w.w.lc w.w.lk) (rowAddrs sv n sd.stride len) = (g, .error e) →
            Stops s t w e.detail) ∧
          ∀ ss g', (s.hw.seen sn).srcRows (s.mem.seen sn) w.x w.w (sd.unit w.w.lc w.w.lk) (rowAddrs sv n sd.stride len) =
              (g, .ok ss) →
            (∀ e, g.dstRows (s.mem.seen sn) w.x w.w (dd.unit w.w.lc w.w.lk) (rowAddrs dv n dd.stride len) = (g', .error e) →
              Stops s t w e.detail) ∧
            ∀ ds, g.dstRows (s.mem.seen sn) w.x w.w (dd.unit w.w.lc w.w.lk) (rowAddrs dv n dd.stride len) = (g', .ok ds) →
              Executed t w ∧ Stored s.mem t.mem (ds.zip (ss.map s.mem.row))) ∧
        ∀ d, w.x.img.slot? (bitsAt w.word 56 12) = some d → ∀ g idx, (s.hw.seen sn).readSlots (s.mem.seen sn) w d = (g, .ok idx) →
          (∀ k g2 rows g3 ds, badSlot d idx = some k → Hw.slotRows (s.mem.seen sn) w ⟨sd, sv⟩ len g (idx.take k) = (g2, .ok rows) →
            g2.dstRows (s.mem.seen sn) w.x w.w (dd.unit w.w.lc w.w.lk) ((rowAddrs dv n dd.stride len).take k) = (g3, .ok ds) →
            Raised s t w.w.c dSlotRange ∧ s.mem.But (ds.flatMap (·.segs)) t.mem) ∧
          (∀ g2 rows g3 ds, badSlot d idx = none → Hw.slotRows (s.mem.seen sn) w ⟨sd, sv⟩ len g idx = (g2, .ok rows) →
            g2.dstRows (s.mem.seen sn) w.x w.w (dd.unit w.w.lc w.w.lk) ((rowAddrs dv n dd.stride len).take idx.length) =
              (g3, .ok ds) →
            Executed t w ∧ Stored s.mem t.mem (ds.zip rows)))) ∧
    (∃ t, exec (.fill r sn) s = .next t ∧ ∀ w n len dd dv, s.hw.work r 0x44 = some w → n = fillRows w.word → len = fillBytes w.word →
        dd = w.x.img.opnd w.w.lc w.w.lk w.word 80 → dv = dd.value w.fl.iters →
      (dv % 4 ≠ 0 → Stops s t w dAlign) ∧
      (dv % 4 = 0 → ∀ g,
        (∀ e, (s.hw.seen sn).dstRows (s.mem.seen sn) w.x w.w (dd.unit w.w.lc w.w.lk) (rowAddrs dv n dd.stride len) = (g, .error e) →
          Stops s t w e.detail) ∧
        ∀ ds, (s.hw.seen sn).dstRows (s.mem.seen sn) w.x w.w (dd.unit w.w.lc w.w.lk) (rowAddrs dv n dd.stride len) = (g, .ok ds) →
          Executed t w ∧ ∃ row : List Byte, row.length = len ∧
            (∀ i, i < len → row.getD i 0 = (leBytes 4 (bitsAt w.word 48 32)).getD (i % 4) 0) ∧
            Stored s.mem t.mem (ds.map (fun p => (p, row))))) ∧
    (∃ t, exec (.movepg r sn) s = .next t ∧ ∀ w md mv dd dv, s.hw.work r 0x41 = some w →
        md = w.x.img.opnd w.w.lc w.w.lk w.word 68 → mv = md.value w.fl.iters →
        dd = w.x.img.opnd w.w.lc w.w.lk w.word 80 → dv = dd.value w.fl.iters →
      (mv % 8 ≠ 0 → Stops s t w dAlign) ∧
      (mv % 8 = 0 → ∀ g,
        (∀ e, Hw.srcRow (s.mem.seen sn) w.x w.w (md.unit w.w.lc w.w.lk) (s.hw.seen sn) (mv, 8) = (g, .error e) →
          Stops s t w e.detail) ∧
        ∀ p e, Hw.srcRow (s.mem.seen sn) w.x w.w (md.unit w.w.lc w.w.lk) (s.hw.seen sn) (mv, 8) = (g, .ok p) →
            e = leNat (s.mem.row p) →
          (bitAt e 63 = false ∨ 5 ≤ bitsAt e 60 3 ∨ 4 ≤ bitsAt e 52 3 → Stops s t w dPageInvalid) ∧
          (∀ len, pageLen e = some len → len < pgOff w.word + pgBytes w.word → Stops s t w dPageInvalid) ∧
          (∀ len g2 g3 src dst, pgCount w.word = 1 → pageLen e = some len → len ≤ 2097152 → pgOff w.word + pgBytes w.word ≤ len →
            Hw.srcRow (s.mem.seen sn) w.x w.w (3, bitsAt e 44 8, 0) g
              (((32 * bitsAt e 0 36 + pgOff w.word : Nat) : Int), pgBytes w.word) = (g2, .ok src) →
            Hw.dstRow (s.mem.seen sn) w.x w.w (dd.unit w.w.lc w.w.lk) g2 (dv, pgBytes w.word) = (g3, .ok dst) →
            Executed t w ∧ Stored s.mem t.mem [(dst, s.mem.row src)]))) ∧
    ∃ t, exec (.tpost r) s = .next t ∧ Frame [.regs, .ctxs] s t ∧ (s.hw.work r 0x42 = none → t = s) ∧
      ∀ w, s.hw.work r 0x42 = some w →
        ((∃ f ∈ ((w.x.run.strm (keyOf r)).inflight.take w.w.n), s.hw.collDone f = false) → t = s) ∧
        ((∀ f ∈ ((w.x.run.strm (keyOf r)).inflight.take w.w.n), s.hw.collDone f = true) → StreamAlone s t w.w.c (keyOf r) ∧
          (∀ k, w.x.core? (bitsAt w.word 86 6) (bitsAt w.word 83 3) = some k →
            (s.hw.coreInReset k = true → Raised s t w.w.c dTargetReset) ∧
            (s.hw.coreInReset k = false → Frame [.ctxs] s t ∧ Executed t w ∧ ∃ y f, Tab.find? t.hw.ctxs w.w.c = some y ∧
              (y.run.strm (keyOf r)).inflight[w.w.n]? = some f ∧ f.landed = w.fl.landed ∧ y.run.chans = w.x.run.chans)) ∧
          (w.x.core? (bitsAt w.word 86 6) (bitsAt w.word 83 3) = none → Raised s t w.w.c dTargetReset))) ∧
  ∀ (ctx : Fin 64) (region : Fin 256) (lpn : BitVec 24) (walker : Fin 66) (sn : Seen) (s : State),
    ∃ t, exec (.translationWalk ctx region lpn walker sn) s = .next t ∧ t.pending = s.pending ∧ t.fuses = s.fuses ∧
      Mem.But [] s.mem t.mem ∧ s.hw.Only [.regs, .ctxs, .hbm, .xcl, .host, .logs, .hist, .out] t.hw ∧
      (Tab.find? s.hw.ctxs ctx = none ∨
        (∃ x, Tab.find? s.hw.ctxs ctx = some x ∧ (x.host.place = none ∨
          ∃ p, x.host.place = some p ∧ walker.val < 64 ∧ ∀ q ∈ p.clusters, q.2 ≠ walker.val)) ∨
        ((s.hw.cache walker).look walker ctx region lpn.toNat ≠ none) → t = s) ∧
      ∀ x p a b near other ent, Tab.find? s.hw.ctxs ctx = some x → x.host.place = some p →
          (64 ≤ walker.val ∨ ∃ q ∈ p.clusters, q.2 = walker.val) → (s.hw.cache walker).look walker ctx region lpn.toNat = none →
          near = (Config.nearCopy ctx region lpn.toNat walker).val → other = 1 - near →
          a = mapAddr ctx region lpn.toNat near → b = mapAddr ctx region lpn.toNat other →
          ent = s.mem.readLe (if ((s.mem.seen sn).ueIn a 8).isSome then b else a) 8 →
        ((s.mem.seen sn).ueIn a 8 ≠ none → (s.mem.seen sn).ueIn b 8 ≠ none → Raised s t ctx dMapUe ∧ t.hw.xcl = s.hw.xcl) ∧
        ((s.mem.seen sn).ueIn a 8 = none ∨ (s.mem.seen sn).ueIn b 8 = none →
          (bitAt ent 63 = false → Raised s t ctx dRegionBound ∧ t.hw.xcl = s.hw.xcl) ∧
          (bitAt ent 63 = true → bitsAt ent 48 8 ≠ region.val ∨ bitsAt ent 24 24 ≠ lpn.toNat →
            Raised s t ctx dMapCorrupt ∧ t.hw.xcl = s.hw.xcl) ∧
          (bitAt ent 63 = true → bitsAt ent 48 8 = region.val → bitsAt ent 24 24 = lpn.toNat →
            (40960 ≤ bitsAt ent 0 16 → Raised s t ctx dPmaInvalid ∧ t.hw.xcl = s.hw.xcl) ∧
            (bitsAt ent 0 16 < 40960 → t.hw.ctxs = s.hw.ctxs ∧
              (∃ e, (t.hw.cache walker).look walker ctx region lpn.toNat = some e ∧ e.pfn = bitsAt ent 0 20 ∧
                e.writable = bitAt ent 62) ∧
              ∀ v, v ≠ walker.val → t.hw.cache v = s.hw.cache v)))

/-! ## Counters that chain (18_counters.md) -/

/-- R422: with CHAIN set in an even counter, each wrap of it from 2^48 − 1 to 0 increments the next one, which ignores its own event, and
the pair is one 96-bit count; CHAIN has no effect in an odd counter. `count` is what every event of a bank goes through, `countTime`
what counts with time, and `bump` a count of `k` in one counter. -/
def Obligations.CountersChain : Prop :=
  ∀ (h : Hw) (bank n k : Nat),
    (n % 2 = 0 → h.flag (Fd.CTR_CFG.CHAIN bank n) = true →
      (h.ctrVal bank n = 2 ^ 48 - 1 → (h.bump bank n 1).ctrVal bank n = 0 ∧
        (h.bump bank n 1).ctrVal bank (n + 1) = (h.ctrVal bank (n + 1) + 1) % 2 ^ 48) ∧
      (h.ctrVal bank n + k < 2 ^ 48 → (h.bump bank n k).ctrVal bank n = h.ctrVal bank n + k ∧
        (h.bump bank n k).ctrVal bank (n + 1) = h.ctrVal bank (n + 1)) ∧
      ((h.bump bank n k).ctrVal bank n + 2 ^ 48 * (h.bump bank n k).ctrVal bank (n + 1) =
        (h.ctrVal bank n + 2 ^ 48 * h.ctrVal bank (n + 1) + k) % 2 ^ 96) ∧
      (∀ m, m ≠ n → m ≠ n + 1 → (h.bump bank n k).ctrVal bank m = h.ctrVal bank m) ∧
      (∀ (h0 : Hw) (a : CtrAt), a.bank = bank → a.n = n + 1 → h0.countTime h a = h) ∧
      ∀ (size : Nat) (filtered : Bool) (e : Ev), h.flag (Fd.CTR_CFG.EN bank n) = false ∨ h.fld (Fd.CTR_CFG.EVENT bank n) ≠ e.code →
        (h.count bank size filtered e k).ctrVal bank (n + 1) = h.ctrVal bank (n + 1)) ∧
    (n % 2 = 1 → ∀ v : Bool, ((h.setFlag (Fd.CTR_CFG.CHAIN bank n) v).bump bank n k).ctrVal bank n =
        (h.ctrVal bank n + k) % 2 ^ 48 ∧
      (∀ m, m ≠ n → ((h.setFlag (Fd.CTR_CFG.CHAIN bank n) v).bump bank n k).ctrVal bank m = h.ctrVal bank m) ∧
      ∀ (size : Nat) (filtered : Bool) (e : Ev) (m : Nat),
        ((h.setFlag (Fd.CTR_CFG.CHAIN bank n) v).count bank size filtered e k).ctrVal bank m =
          (h.count bank size filtered e k).ctrVal bank m)
end

