-- ==== Sys2Proof/Laws/Bytes.lean ====
section
/-!
SUPPORT. The byte orders (R8): a number is what its bytes spell.
-/
namespace Sys2Proof.Machine

@[simp] theorem leBytes_length (k n : Nat) : (leBytes k n).length = k := by
  induction k generalizing n with
  | zero => rfl
  | succ k ih => simp [leBytes, ih]

@[simp] theorem beBytes_length (k n : Nat) : (beBytes k n).length = k := by simp [beBytes]

theorem leNat_leBytes (k n : Nat) : leNat (leBytes k n) = n % 256 ^ k := by
  induction k generalizing n with
  | zero => simp [leBytes, leNat, Nat.mod_one]
  | succ k ih =>
    rw [leBytes, leNat, ih, BitVec.toNat_ofNat]
    have e : (2 : Nat) ^ 8 = 256 := by norm_num
    rw [e, pow_succ' 256 k]
    exact (Nat.mod_mul).symm

theorem beNat_reverse (bs : List Byte) : beNat bs.reverse = leNat bs := by
  unfold beNat
  rw [List.foldl_reverse]
  induction bs with
  | nil => rfl
  | cons b bs ih => simp only [List.foldr_cons, ih, leNat]; omega

theorem beNat_beBytes (k n : Nat) : beNat (beBytes k n) = n % 256 ^ k := by
  rw [beBytes, beNat_reverse, leNat_leBytes]

end Sys2Proof.Machine
end

