-- ==== Sys2Proof/Laws/Tab.lean ====
section
/-!
SUPPORT. What sparse tables read after a change, and that every change keeps the keys rising.
-/
namespace Sys2Proof.Machine

theorem Tab.find?_put_same (t : Tab α) (k : Nat) (v : α) : (t.put k v).find? k = some v := by
  induction t with
  | nil => simp [Tab.put, Tab.find?]
  | cons q t ih =>
    obtain ⟨j, w⟩ := q
    simp only [Tab.put]
    split
    · simp [Tab.find?]
    · split
      · simp [Tab.find?]
      · simp [Tab.find?, *]

theorem Tab.find?_put_other (t : Tab α) {k q : Nat} (v : α) (h : q ≠ k) : (t.put k v).find? q = t.find? q := by
  induction t with
  | nil => simp [Tab.put, Tab.find?, h]
  | cons p t ih =>
    obtain ⟨j, w⟩ := p
    simp only [Tab.put]
    split
    · simp [Tab.find?, h]
    · split
      · subst_vars; simp [Tab.find?, h]
      · simp [Tab.find?, ih]

theorem Tab.find?_drop_same (t : Tab α) (k : Nat) : (t.drop k).find? k = none := by
  induction t with
  | nil => rfl
  | cons p t ih =>
    obtain ⟨j, w⟩ := p
    simp only [Tab.drop, List.filter_cons] at ih ⊢
    split
    · rename_i hne
      have hk : k ≠ j := fun e => by simp [e] at hne
      simp [Tab.find?, hk, ih]
    · exact ih

theorem Tab.find?_drop_other (t : Tab α) {k q : Nat} (h : q ≠ k) : (t.drop k).find? q = t.find? q := by
  induction t with
  | nil => rfl
  | cons p t ih =>
    obtain ⟨j, w⟩ := p
    simp only [Tab.drop, List.filter_cons] at ih ⊢
    split
    · simp [Tab.find?, ih]
    · rename_i hne
      have hk : q ≠ j := fun e => by simp [← e, h] at hne
      simp [Tab.find?, hk, ih]

/-- Reading a table after an entry is written. -/
theorem Tab.getD_put_same (t : Tab α) (k : Nat) (v d : α) : (t.put k v).getD k d = v := by
  simp [Tab.getD, Tab.find?_put_same]

theorem Tab.getD_put_other (t : Tab α) {k q : Nat} (v d : α) (h : q ≠ k) : (t.put k v).getD q d = t.getD q d := by
  simp [Tab.getD, Tab.find?_put_other t v h]

theorem Tab.getD_drop_same (t : Tab α) (k : Nat) (d : α) : (t.drop k).getD k d = d := by
  simp [Tab.getD, Tab.find?_drop_same]

theorem Tab.getD_drop_other (t : Tab α) {k q : Nat} (d : α) (h : q ≠ k) : (t.drop k).getD q d = t.getD q d := by
  simp [Tab.getD, Tab.find?_drop_other t h]

theorem Tab.getD_set_same [DecidableEq α] (t : Tab α) (k : Nat) (d v : α) : (t.set k d v).getD k d = v := by
  unfold Tab.set
  split
  · subst_vars; exact Tab.getD_drop_same t k _
  · exact Tab.getD_put_same t k v d

theorem Tab.getD_set_other [DecidableEq α] (t : Tab α) {k q : Nat} (d v e : α) (h : q ≠ k) :
    (t.set k d v).getD q e = t.getD q e := by
  unfold Tab.set
  split
  · exact Tab.getD_drop_other t e h
  · exact Tab.getD_put_other t v e h

/-- The keys of a table rise strictly, as a statement about the list of keys. -/
theorem Tab.sorted_iff (t : Tab α) : t.sorted = true ↔ (t.map Prod.fst).Pairwise (· < ·) := by
  induction t with
  | nil => simp [Tab.sorted]
  | cons p t ih =>
    match t with
    | [] => simp [Tab.sorted]
    | q :: u =>
      simp only [Tab.sorted, Bool.and_eq_true, decide_eq_true_eq, ih, List.map_cons, List.pairwise_cons]
      constructor
      · rintro ⟨h, h1, h2⟩
        refine ⟨?_, h1, h2⟩
        intro a ha
        simp only [List.mem_cons] at ha
        rcases ha with rfl | ha
        · exact h
        · exact h.trans (h1 a ha)
      · rintro ⟨h, h1, h2⟩
        exact ⟨h q.1 (by simp), h1, h2⟩

theorem Tab.keys_put (t : Tab α) (k : Nat) (v : α) {a : Nat} (h : a ∈ (t.put k v).map Prod.fst) :
    a = k ∨ a ∈ t.map Prod.fst := by
  induction t with
  | nil => simpa [Tab.put] using h
  | cons p t ih =>
    obtain ⟨j, w⟩ := p
    simp only [Tab.put] at h
    split at h
    · simpa using h
    · split at h
      · subst_vars; simp at h ⊢; tauto
      · simp only [List.map_cons, List.mem_cons] at h ⊢
        rcases h with rfl | h
        · tauto
        · rcases ih h with h | h <;> tauto

theorem Tab.sorted_put (t : Tab α) (k : Nat) (v : α) (h : t.sorted = true) : (t.put k v).sorted = true := by
  rw [Tab.sorted_iff] at h ⊢
  induction t with
  | nil => simp [Tab.put]
  | cons p t ih =>
    obtain ⟨j, w⟩ := p
    simp only [List.map_cons, List.pairwise_cons] at h
    simp only [Tab.put]
    split
    · simp only [List.map_cons, List.pairwise_cons, List.mem_cons]
      refine ⟨?_, h⟩
      rintro a (rfl | ha)
      · assumption
      · have := h.1 a ha; omega
    · split
      · subst_vars; simpa using h
      · simp only [List.map_cons, List.pairwise_cons]
        refine ⟨fun a ha => ?_, ih h.2⟩
        rcases Tab.keys_put t k v ha with rfl | ha
        · omega
        · exact h.1 a ha

theorem Tab.sorted_filter (t : Tab α) (f : Nat × α → Bool) (h : t.sorted = true) : (Tab.sorted (t.filter f)) = true := by
  rw [Tab.sorted_iff] at h ⊢
  exact h.sublist ((List.filter_sublist).map Prod.fst)

theorem Tab.sorted_set [DecidableEq α] (t : Tab α) (k : Nat) (d v : α) (h : t.sorted = true) : (t.set k d v).sorted = true := by
  unfold Tab.set
  split
  · exact Tab.sorted_filter t _ h
  · exact Tab.sorted_put t k v h

theorem Tab.mem_put (t : Tab α) (k : Nat) (v : α) {q : Nat × α} (h : q ∈ t.put k v) : q = (k, v) ∨ q ∈ t := by
  induction t with
  | nil => simpa [Tab.put] using h
  | cons p t ih =>
    obtain ⟨j, w⟩ := p
    simp only [Tab.put] at h
    split at h
    · simpa using h
    · split at h
      · simp at h ⊢; tauto
      · simp only [List.mem_cons] at h ⊢
        rcases h with rfl | h
        · tauto
        · rcases ih h with h | h <;> tauto

theorem rising_iff (l : List Nat) : rising l = true ↔ l.Pairwise (· < ·) := by
  induction l with
  | nil => simp [rising]
  | cons p t ih =>
    match t with
    | [] => simp [rising]
    | q :: u =>
      simp only [rising, Bool.and_eq_true, decide_eq_true_eq, ih, List.pairwise_cons]
      constructor
      · rintro ⟨h, h1, h2⟩
        refine ⟨?_, h1, h2⟩
        intro a ha
        simp only [List.mem_cons] at ha
        rcases ha with rfl | ha
        · exact h
        · exact h.trans (h1 a ha)
      · rintro ⟨h, h1, h2⟩
        exact ⟨h q (by simp), h1, h2⟩

theorem mem_insNat (l : List Nat) (k : Nat) {a : Nat} : a ∈ insNat l k ↔ a = k ∨ a ∈ l := by
  induction l with
  | nil => simp [insNat]
  | cons p t ih =>
    simp only [insNat]
    split
    · simp
    · split
      · subst_vars; simp
      · simp only [List.mem_cons, ih]; tauto

theorem rising_insNat (l : List Nat) (k : Nat) (h : rising l = true) : rising (insNat l k) = true := by
  rw [rising_iff] at h ⊢
  induction l with
  | nil => simp [insNat]
  | cons p t ih =>
    simp only [List.pairwise_cons] at h
    simp only [insNat]
    split
    · simp only [List.pairwise_cons, List.mem_cons]
      refine ⟨?_, h⟩
      rintro a (rfl | ha)
      · assumption
      · have := h.1 a ha; omega
    · split
      · subst_vars; simpa using h
      · simp only [List.pairwise_cons]
        refine ⟨fun a ha => ?_, ih h.2⟩
        rcases (mem_insNat t k).1 ha with rfl | ha
        · omega
        · exact h.1 a ha

end Sys2Proof.Machine
end

