-- ==== Sys2Proof/Laws/Mem.lean ====
section
/-!
SUPPORT. What the memories read after a change, and that every change keeps their canonical form.
-/
namespace Sys2Proof.Machine

/-- The canonical form, part by part. -/
theorem Mem.wf_iff (m : Mem) : m.wf = true ↔
    Tab.sorted m.cells = true ∧ (∀ c ∈ m.cells, c.2 ≠ 0) ∧ rising m.ue = true ∧ (∀ p ∈ m.ue, p % 32 = 0) := by
  simp [Mem.wf, and_assoc]

theorem Mem.wf_empty : Mem.empty.wf = true := by rfl

theorem rising_filter (l : List Nat) (f : Nat → Bool) (h : rising l = true) : rising (l.filter f) = true := by
  rw [rising_iff] at h ⊢
  exact h.sublist List.filter_sublist

/-- One change keeps the canonical form. -/
theorem Mem.wf_edit1 (m : Mem) (e : Edit) (h : m.wf = true) : (m.edit1 e).wf = true := by
  rw [Mem.wf_iff] at h ⊢
  obtain ⟨h1, h2, h3, h4⟩ := h
  cases e with
  | put a b =>
    refine ⟨Tab.sorted_set _ _ _ _ h1, ?_, h3, h4⟩
    intro c hc
    simp only [Mem.edit1, Tab.set] at hc
    split at hc
    · exact h2 c (List.mem_of_mem_filter hc)
    · rcases Tab.mem_put _ _ _ hc with rfl | hc
      · assumption
      · exact h2 c hc
  | clear lo len =>
    exact ⟨Tab.sorted_filter _ _ h1, fun c hc => h2 c (List.mem_of_mem_filter hc), rising_filter _ _ h3,
      fun p hp => h4 p (List.mem_of_mem_filter hp)⟩
  | poison a =>
    refine ⟨h1, h2, rising_insNat _ _ h3, fun p hp => ?_⟩
    rcases (mem_insNat _ _).1 hp with rfl | hp
    · simp [pieceOf]
    · exact h4 p hp
  | heal a => exact ⟨h1, h2, rising_filter _ _ h3, fun p hp => h4 p (List.mem_of_mem_filter hp)⟩

/-- Every list of changes keeps the canonical form. -/
theorem Mem.wf_edit (m : Mem) (es : List Edit) (h : m.wf = true) : (m.edit es).wf = true := by
  induction es generalizing m with
  | nil => exact h
  | cons e es ih => exact ih _ (Mem.wf_edit1 m e h)

theorem Mem.edit_nil (m : Mem) : m.edit [] = m := rfl
theorem Mem.edit_cons (m : Mem) (e : Edit) (es : List Edit) : m.edit (e :: es) = (m.edit1 e).edit es := rfl
theorem Mem.edit_append (m : Mem) (es fs : List Edit) : m.edit (es ++ fs) = (m.edit es).edit fs := by
  simp [Mem.edit, List.foldl_append]

@[simp] theorem Mem.read_put_same (m : Mem) (a : Nat) (b : Byte) : (m.edit1 (.put a b)).read a = b := by
  simp [Mem.edit1, Mem.read, Tab.getD_set_same]

theorem Mem.read_put_other (m : Mem) {a q : Nat} (b : Byte) (h : q ≠ a) : (m.edit1 (.put a b)).read q = m.read q := by
  simp [Mem.edit1, Mem.read, Tab.getD_set_other _ _ _ _ h]

@[simp] theorem Mem.read_poison (m : Mem) (a q : Nat) : (m.edit1 (.poison a)).read q = m.read q := rfl
@[simp] theorem Mem.read_heal (m : Mem) (a q : Nat) : (m.edit1 (.heal a)).read q = m.read q := rfl

/-- A filter that keeps a key does not change what is found there. -/
theorem Tab.find?_filter_keep (t : Tab α) (f : Nat → Bool) {k : Nat} (h : f k = true) :
    Tab.find? (t.filter (fun c => f c.1)) k = t.find? k := by
  induction t with
  | nil => rfl
  | cons p t ih =>
    obtain ⟨j, w⟩ := p
    simp only [List.filter_cons]
    split
    · simp [Tab.find?, ih]
    · rename_i hj
      have : k ≠ j := fun e => hj (e ▸ h)
      simp [Tab.find?, this, ih]

theorem Tab.find?_filter_drop (t : Tab α) (f : Nat → Bool) {k : Nat} (h : f k = false) :
    Tab.find? (t.filter (fun c => f c.1)) k = none := by
  induction t with
  | nil => rfl
  | cons p t ih =>
    obtain ⟨j, w⟩ := p
    simp only [List.filter_cons]
    split
    · rename_i hj
      have : k ≠ j := fun e => by simp [← e, h] at hj
      simp [Tab.find?, this, ih]
    · exact ih

/-- A cleared range reads as zero. -/
theorem Mem.read_clear_in (m : Mem) {lo len q : Nat} (h : lo ≤ q ∧ q < lo + len) :
    (m.edit1 (.clear lo len)).read q = 0 := by
  simp only [Mem.edit1, Mem.read, Tab.getD]
  rw [Tab.find?_filter_drop m.cells (fun a => !(decide (lo ≤ a) && decide (a < lo + len))) (by simp [h.1, h.2])]
  rfl

/-- Clearing a range leaves the bytes outside it alone. -/
theorem Mem.read_clear_out (m : Mem) {lo len q : Nat} (h : ¬ (lo ≤ q ∧ q < lo + len)) :
    (m.edit1 (.clear lo len)).read q = m.read q := by
  simp only [Mem.edit1, Mem.read, Tab.getD]
  rw [Tab.find?_filter_keep m.cells (fun a => !(decide (lo ≤ a) && decide (a < lo + len)))
    (by simp; omega)]

/-- A change that stores no byte at `q` and clears no range around it. -/
def Edit.spares (q : Nat) : Edit → Prop
  | .put a _ => q ≠ a
  | .clear lo len => ¬ (lo ≤ q ∧ q < lo + len)
  | .poison _ => True
  | .heal _ => True

theorem Mem.read_spared (m : Mem) (e : Edit) (q : Nat) (h : e.spares q) : (m.edit1 e).read q = m.read q := by
  cases e with
  | put a b => exact Mem.read_put_other m b h
  | clear lo len => exact Mem.read_clear_out m h
  | poison a => rfl
  | heal a => rfl

/-- The frame of a list of changes: a byte that each of them spares reads as before. -/
theorem Mem.read_edit_spared (m : Mem) (es : List Edit) (q : Nat) (h : ∀ e ∈ es, e.spares q) : (m.edit es).read q = m.read q := by
  induction es generalizing m with
  | nil => rfl
  | cons e es ih =>
    rw [Mem.edit_cons, ih _ (fun x hx => h x (List.mem_cons_of_mem _ hx)), Mem.read_spared m e q (h e (by simp))]

/-! ## Stores -/

/-- The bytes that a store puts, from offset `k` on. -/
theorem Mem.read_puts (m : Mem) (a k : Nat) (bs : List Byte) (q : Nat) :
    (m.edit ((bs.zipIdx k).map (fun (b, i) => Edit.put (a + i) b))).read q =
      if a + k ≤ q ∧ q < a + k + bs.length then bs.getD (q - (a + k)) 0 else m.read q := by
  induction bs generalizing m k with
  | nil =>
    have : ¬ (a + k ≤ q ∧ q < a + k + ([] : List Byte).length) := by simp
    rw [if_neg this]; rfl
  | cons b bs ih =>
    rw [List.zipIdx_cons, List.map_cons, Mem.edit_cons, ih]
    by_cases h0 : q = a + k
    · subst h0
      have h1 : ¬ (a + (k + 1) ≤ a + k ∧ a + k < a + (k + 1) + bs.length) := by omega
      simp
    · by_cases h1 : a + (k + 1) ≤ q ∧ q < a + (k + 1) + bs.length
      · have h2 : a + k ≤ q ∧ q < a + k + (b :: bs).length := by simp; omega
        have h3 : q - (a + k) = (q - (a + (k + 1))) + 1 := by omega
        rw [if_pos h1, if_pos h2, h3]; simp
      · have h2 : ¬ (a + k ≤ q ∧ q < a + k + (b :: bs).length) := by simp; omega
        rw [if_neg h1, if_neg h2]
        exact Mem.read_put_other m b h0

/-- What memory reads after bytes are stored: the bytes in their range, and what it read before outside it. -/
theorem Mem.read_store (m : Mem) (a : Nat) (bs : List Byte) (q : Nat) :
    (m.edit (storeEdits a bs)).read q = if a ≤ q ∧ q < a + bs.length then bs.getD (q - a) 0 else m.read q := by
  unfold storeEdits
  rw [Mem.edit_append, Mem.read_edit_spared]
  · simpa using Mem.read_puts m a 0 bs q
  · intro e he
    simp only [List.mem_filterMap] at he
    obtain ⟨i, -, hi⟩ := he
    split at hi
    · simp only [Option.some.injEq] at hi; subst hi; trivial
    · cases hi

/-- Reading back the bytes that were stored. -/
theorem Mem.reads_store_same (m : Mem) (a : Nat) (bs : List Byte) : (m.edit (storeEdits a bs)).reads a bs.length = bs := by
  apply List.ext_getElem (by simp [Mem.reads])
  intro i h1 h2
  simp [Mem.reads, Mem.read_store, h2]

theorem Mem.read_store_out (m : Mem) (a : Nat) (bs : List Byte) {q : Nat} (h : ¬ (a ≤ q ∧ q < a + bs.length)) :
    (m.edit (storeEdits a bs)).read q = m.read q := by
  rw [Mem.read_store, if_neg h]

/-- A read of bytes that memory holds unchanged. -/
theorem Mem.reads_congr {m n : Mem} {a k : Nat} (h : ∀ i < k, m.read (a + i) = n.read (a + i)) : m.reads a k = n.reads a k := by
  simp only [Mem.reads]
  exact List.map_congr_left (fun i hi => h i (List.mem_range.1 hi))

end Sys2Proof.Machine
end

