-- ==== Sys2Proof/Laws/Regs.lean ====
section
/-!
SUPPORT. What registers and their fields read after one of them is set, and which parts of the hardware that leaves alone.
-/
namespace Sys2Proof.Machine

/-! ## Bit fields of a number -/

/-- A number with a field replaced: the bits below it, the new field, the bits above it. -/
theorem setBitsAt_split (n lo w v : Nat) :
    setBitsAt n lo w v = n % 2 ^ lo + 2 ^ lo * (v % 2 ^ w + 2 ^ w * (n / 2 ^ lo / 2 ^ w)) := by
  unfold setBitsAt bitsAt
  rw [Nat.shiftRight_eq_div_pow]
  have h1 := Nat.div_add_mod n (2 ^ lo)
  have h2 := Nat.div_add_mod (n / 2 ^ lo) (2 ^ w)
  generalize n / 2 ^ lo / 2 ^ w = c at *
  generalize n / 2 ^ lo % 2 ^ w = b at *
  generalize n % 2 ^ lo = a at *
  generalize v % 2 ^ w = x
  rw [← h2] at h1
  rw [← h1]
  have e : 2 ^ lo * (2 ^ w * c + b) + a - b * 2 ^ lo = 2 ^ lo * (2 ^ w * c) + a := by
    rw [Nat.mul_add, Nat.mul_comm b]; omega
  rw [e]; ring

theorem bitsAt_eq (n lo w : Nat) : bitsAt n lo w = n / 2 ^ lo % 2 ^ w := by
  rw [bitsAt, Nat.shiftRight_eq_div_pow]

theorem bitsAt_lt (n lo w : Nat) : bitsAt n lo w < 2 ^ w := Nat.mod_lt _ (by positivity)

/-- Reading the field that was replaced. -/
theorem bitsAt_setBitsAt_same (n lo w v : Nat) : bitsAt (setBitsAt n lo w v) lo w = v % 2 ^ w := by
  rw [bitsAt_eq, setBitsAt_split, Nat.add_mul_div_left _ _ (by positivity), Nat.div_eq_of_lt (Nat.mod_lt _ (by positivity)),
    Nat.zero_add, Nat.add_mul_mod_self_left, Nat.mod_mod]

/-- Reading a field below or above the one that was replaced. -/
theorem bitsAt_setBitsAt_other (n lo w v lo' w' : Nat) (h : lo' + w' ≤ lo ∨ lo + w ≤ lo') :
    bitsAt (setBitsAt n lo w v) lo' w' = bitsAt n lo' w' := by
  rw [bitsAt_eq, bitsAt_eq, setBitsAt_split]
  rcases h with h | h
  · obtain ⟨d, rfl⟩ := Nat.exists_eq_add_of_le h
    generalize v % 2 ^ w + 2 ^ w * (n / 2 ^ (lo' + w' + d) / 2 ^ w) = x
    have e : ∀ y : Nat, y / 2 ^ lo' % 2 ^ w' = y % 2 ^ (lo' + w') / 2 ^ lo' := fun y => by
      rw [Nat.pow_add, Nat.mod_mul_right_div_self]
    rw [e, e]
    congr 1
    rw [Nat.pow_add 2 (lo' + w') d, Nat.mul_assoc, Nat.add_mul_mod_self_left, Nat.mod_mul_right_mod]
  · obtain ⟨d, rfl⟩ := Nat.exists_eq_add_of_le h
    have e : ∀ y : Nat, y / 2 ^ (lo + w + d) = y / 2 ^ lo / 2 ^ w / 2 ^ d := fun y => by
      rw [Nat.div_div_eq_div_mul, Nat.div_div_eq_div_mul, ← Nat.pow_add, ← Nat.pow_add, Nat.add_assoc]
    rw [e, e, Nat.add_mul_div_left _ _ (by positivity), Nat.div_eq_of_lt (Nat.mod_lt _ (by positivity)), Nat.zero_add,
      Nat.add_mul_div_left _ _ (by positivity), Nat.div_eq_of_lt (Nat.mod_lt _ (by positivity)), Nat.zero_add]

/-- A field inside a word of `k` bits does not grow it. -/
theorem setBitsAt_lt {n lo w k : Nat} (v : Nat) (hn : n < 2 ^ k) (h : lo + w ≤ k) : setBitsAt n lo w v < 2 ^ k := by
  obtain ⟨d, rfl⟩ := Nat.exists_eq_add_of_le h
  rw [setBitsAt_split]
  have h1 : n / 2 ^ lo / 2 ^ w < 2 ^ d := by
    rw [Nat.div_div_eq_div_mul, ← Nat.pow_add]
    exact Nat.div_lt_of_lt_mul (by rwa [← Nat.pow_add])
  have h2 : v % 2 ^ w < 2 ^ w := Nat.mod_lt _ (by positivity)
  have h3 : n % 2 ^ lo < 2 ^ lo := Nat.mod_lt _ (by positivity)
  have h4 : v % 2 ^ w + 2 ^ w * (n / 2 ^ lo / 2 ^ w) < 2 ^ w * 2 ^ d := by
    calc _ < 2 ^ w + 2 ^ w * (n / 2 ^ lo / 2 ^ w) := by omega
      _ = 2 ^ w * (n / 2 ^ lo / 2 ^ w + 1) := by ring
      _ ≤ _ := Nat.mul_le_mul_left _ h1
  calc _ < 2 ^ lo + 2 ^ lo * (v % 2 ^ w + 2 ^ w * (n / 2 ^ lo / 2 ^ w)) := by omega
    _ = 2 ^ lo * (v % 2 ^ w + 2 ^ w * (n / 2 ^ lo / 2 ^ w) + 1) := by ring
    _ ≤ 2 ^ lo * (2 ^ w * 2 ^ d) := Nat.mul_le_mul_left _ h4
    _ = 2 ^ (lo + w + d) := by ring

/-! ## Registers -/

@[simp] theorem Hw.reg_setReg_same (h : Hw) (a : Nat) (v : W32) : (h.setReg a v).reg a = v := Tab.getD_set_same _ _ _ _

theorem Hw.reg_setReg_other (h : Hw) {a b : Nat} (v : W32) (e : b ≠ a) : (h.setReg a v).reg b = h.reg b :=
  Tab.getD_set_other _ _ _ _ e

/-- Registers and fields depend on the table of registers alone. -/
theorem Hw.reg_of_regs {h k : Hw} (e : k.regs = h.regs) (a : Nat) : k.reg a = h.reg a := by simp [Hw.reg, e]
theorem Hw.fld_of_regs {h k : Hw} (e : k.regs = h.regs) (g : Fld) : k.fld g = h.fld g := by simp [Hw.fld, Hw.reg_of_regs e]
theorem Hw.flag_of_regs {h k : Hw} (e : k.regs = h.regs) (g : Fld) : k.flag g = h.flag g := by simp [Hw.flag, Hw.fld_of_regs e]
theorem Hw.fld_of_reg {h k : Hw} {g : Fld} (e : k.reg g.addr = h.reg g.addr) : k.fld g = h.fld g := by simp [Hw.fld, e]
theorem Hw.flag_of_reg {h k : Hw} {g : Fld} (e : k.reg g.addr = h.reg g.addr) : k.flag g = h.flag g := by simp [Hw.flag, Hw.fld_of_reg e]

/-- A field after its register is set. -/
theorem Hw.fld_setReg_other (h : Hw) {a : Nat} (v : W32) (g : Fld) (e : g.addr ≠ a) : (h.setReg a v).fld g = h.fld g := by
  simp [Hw.fld, Hw.reg_setReg_other h v e]

theorem Hw.fld_setReg_same (h : Hw) (g : Fld) (v : W32) : (h.setReg g.addr v).fld g = bitsAt v.toNat g.lo g.w := by
  simp [Hw.fld]

theorem Hw.fld_lt (h : Hw) (f : Fld) : h.fld f < 2 ^ f.w := bitsAt_lt _ _ _

/-- A field after it is set: the value's low bits. -/
theorem Hw.fld_setFld_same (h : Hw) (f : Fld) (v : Nat) (hw : f.lo + f.w ≤ 32) : (h.setFld f v).fld f = v % 2 ^ f.w := by
  simp only [Hw.fld, Hw.setFld, Hw.reg_setReg_same, BitVec.toNat_ofNat]
  rw [Nat.mod_eq_of_lt (setBitsAt_lt v (h.reg f.addr).isLt hw), bitsAt_setBitsAt_same]

/-- A field of another register, or other bits of the same one, after a field is set. -/
theorem Hw.fld_setFld_other (h : Hw) (f g : Fld) (v : Nat) (hw : f.lo + f.w ≤ 32)
    (e : g.addr ≠ f.addr ∨ g.lo + g.w ≤ f.lo ∨ f.lo + f.w ≤ g.lo) : (h.setFld f v).fld g = h.fld g := by
  by_cases ha : g.addr = f.addr
  · have e' : g.lo + g.w ≤ f.lo ∨ f.lo + f.w ≤ g.lo := by tauto
    simp only [Hw.fld, Hw.setFld, ha, Hw.reg_setReg_same, BitVec.toNat_ofNat]
    rw [Nat.mod_eq_of_lt (setBitsAt_lt v (h.reg f.addr).isLt hw), bitsAt_setBitsAt_other _ _ _ _ _ _ e']
  · exact Hw.fld_setReg_other h _ g ha

theorem Hw.reg_setFld_other (h : Hw) (f : Fld) (v : Nat) {a : Nat} (e : a ≠ f.addr) : (h.setFld f v).reg a = h.reg a :=
  Hw.reg_setReg_other h _ e

theorem Hw.reg_setFlag_other (h : Hw) (f : Fld) (b : Bool) {a : Nat} (e : a ≠ f.addr) : (h.setFlag f b).reg a = h.reg a :=
  Hw.reg_setReg_other h _ e

theorem Hw.reg_satFld_other (h : Hw) (f : Fld) (n : Nat) {a : Nat} (e : a ≠ f.addr) : (h.satFld f n).reg a = h.reg a :=
  Hw.reg_setReg_other h _ e

/-- A one-bit field after it is set. -/
theorem Hw.flag_setFlag_same (h : Hw) (f : Fld) (b : Bool) (hw : f.w = 1) (hl : f.lo < 32) : (h.setFlag f b).flag f = b := by
  unfold Hw.flag Hw.setFlag
  rw [Hw.fld_setFld_same h f _ (by omega), hw]
  cases b <;> rfl

theorem Hw.fld_setFlag_other (h : Hw) (f g : Fld) (b : Bool) (hw : f.lo + f.w ≤ 32)
    (e : g.addr ≠ f.addr ∨ g.lo + g.w ≤ f.lo ∨ f.lo + f.w ≤ g.lo) : (h.setFlag f b).fld g = h.fld g :=
  Hw.fld_setFld_other h f g _ hw e

theorem Hw.flag_setFld_other (h : Hw) (f g : Fld) (v : Nat) (hw : f.lo + f.w ≤ 32)
    (e : g.addr ≠ f.addr ∨ g.lo + g.w ≤ f.lo ∨ f.lo + f.w ≤ g.lo) : (h.setFld f v).flag g = h.flag g := by
  rw [Hw.flag, Hw.flag, Hw.fld_setFld_other h f g v hw e]

theorem Hw.flag_setFlag_other (h : Hw) (f g : Fld) (b : Bool) (hw : f.lo + f.w ≤ 32)
    (e : g.addr ≠ f.addr ∨ g.lo + g.w ≤ f.lo ∨ f.lo + f.w ≤ g.lo) : (h.setFlag f b).flag g = h.flag g :=
  Hw.flag_setFld_other h f g _ hw e

/-- A saturating counter counts up to its largest value. -/
theorem Hw.fld_satFld_same (h : Hw) (f : Fld) (n : Nat) (hw : f.lo + f.w ≤ 32) :
    (h.satFld f n).fld f = min (h.fld f + n) (2 ^ f.w - 1) := by
  have hp : 0 < 2 ^ f.w := by positivity
  rw [Hw.satFld, Hw.fld_setFld_same h f _ hw]
  exact Nat.mod_eq_of_lt (by simp only [satAdd]; omega)

end Sys2Proof.Machine
end

