-- ==== Sys2Proof/Laws/State.lean ====
section
/-!
SUPPORT. Which fields of the state each plain update leaves alone, one lemma per field; and of every shared operation, once, the
parts of the hardware it can change.
-/
namespace Sys2Proof.Machine

@[simp] theorem State.commit_pending (s : State) (e : Eff) : (s.commit e).pending = s.pending := rfl
@[simp] theorem State.commit_hw (s : State) (e : Eff) : (s.commit e).hw = e.hw := rfl
@[simp] theorem State.commit_mem (s : State) (e : Eff) : (s.commit e).mem = s.mem.edit e.edits := rfl
@[simp] theorem State.commit_fuses (s : State) (e : Eff) : (s.commit e).fuses = s.fuses.burn e.burn := rfl
@[simp] theorem Fuses.burn_nil (f : Fuses) : f.burn [] = f := rfl
@[simp] theorem Mem.edit_none (m : Mem) : m.edit [] = m := rfl


@[simp] theorem Hw.setReg_tb (h : Hw) (a : Nat) (v : W32) : (h.setReg a v).tb = h.tb := rfl
@[simp] theorem Hw.setReg_slew (h : Hw) (a : Nat) (v : W32) : (h.setReg a v).slew = h.slew := rfl
@[simp] theorem Hw.setReg_slewNs (h : Hw) (a : Nat) (v : W32) : (h.setReg a v).slewNs = h.slewNs := rfl
@[simp] theorem Hw.setReg_free (h : Hw) (a : Nat) (v : W32) : (h.setReg a v).free = h.free := rfl
@[simp] theorem Hw.setReg_ctxs (h : Hw) (a : Nat) (v : W32) : (h.setReg a v).ctxs = h.ctxs := rfl
@[simp] theorem Hw.setReg_gens (h : Hw) (a : Nat) (v : W32) : (h.setReg a v).gens = h.gens := rfl
@[simp] theorem Hw.setReg_cores (h : Hw) (a : Nat) (v : W32) : (h.setReg a v).cores = h.cores := rfl
@[simp] theorem Hw.setReg_clus (h : Hw) (a : Nat) (v : W32) : (h.setReg a v).clus = h.clus := rfl
@[simp] theorem Hw.setReg_hbm (h : Hw) (a : Nat) (v : W32) : (h.setReg a v).hbm = h.hbm := rfl
@[simp] theorem Hw.setReg_xcl (h : Hw) (a : Nat) (v : W32) : (h.setReg a v).xcl = h.xcl := rfl
@[simp] theorem Hw.setReg_links (h : Hw) (a : Nat) (v : W32) : (h.setReg a v).links = h.links := rfl
@[simp] theorem Hw.setReg_trainCache (h : Hw) (a : Nat) (v : W32) : (h.setReg a v).trainCache = h.trainCache := rfl
@[simp] theorem Hw.setReg_rtr (h : Hw) (a : Nat) (v : W32) : (h.setReg a v).rtr = h.rtr := rfl
@[simp] theorem Hw.setReg_cve (h : Hw) (a : Nat) (v : W32) : (h.setReg a v).cve = h.cve := rfl
@[simp] theorem Hw.setReg_squall (h : Hw) (a : Nat) (v : W32) : (h.setReg a v).squall = h.squall := rfl
@[simp] theorem Hw.setReg_plu (h : Hw) (a : Nat) (v : W32) : (h.setReg a v).plu = h.plu := rfl
@[simp] theorem Hw.setReg_doms (h : Hw) (a : Nat) (v : W32) : (h.setReg a v).doms = h.doms := rfl
@[simp] theorem Hw.setReg_rdma (h : Hw) (a : Nat) (v : W32) : (h.setReg a v).rdma = h.rdma := rfl
@[simp] theorem Hw.setReg_pwr (h : Hw) (a : Nat) (v : W32) : (h.setReg a v).pwr = h.pwr := rfl
@[simp] theorem Hw.setReg_thm (h : Hw) (a : Nat) (v : W32) : (h.setReg a v).thm = h.thm := rfl
@[simp] theorem Hw.setReg_host (h : Hw) (a : Nat) (v : W32) : (h.setReg a v).host = h.host := rfl
@[simp] theorem Hw.setReg_sep (h : Hw) (a : Nat) (v : W32) : (h.setReg a v).sep = h.sep := rfl
@[simp] theorem Hw.setReg_fw (h : Hw) (a : Nat) (v : W32) : (h.setReg a v).fw = h.fw := rfl
@[simp] theorem Hw.setReg_ccl (h : Hw) (a : Nat) (v : W32) : (h.setReg a v).ccl = h.ccl := rfl
@[simp] theorem Hw.setReg_eth (h : Hw) (a : Nat) (v : W32) : (h.setReg a v).eth = h.eth := rfl
@[simp] theorem Hw.setReg_cpx (h : Hw) (a : Nat) (v : W32) : (h.setReg a v).cpx = h.cpx := rfl
@[simp] theorem Hw.setReg_bring (h : Hw) (a : Nat) (v : W32) : (h.setReg a v).bring = h.bring := rfl
@[simp] theorem Hw.setReg_board (h : Hw) (a : Nat) (v : W32) : (h.setReg a v).board = h.board := rfl
@[simp] theorem Hw.setReg_nv (h : Hw) (a : Nat) (v : W32) : (h.setReg a v).nv = h.nv := rfl
@[simp] theorem Hw.setReg_logs (h : Hw) (a : Nat) (v : W32) : (h.setReg a v).logs = h.logs := rfl
@[simp] theorem Hw.setReg_hist (h : Hw) (a : Nat) (v : W32) : (h.setReg a v).hist = h.hist := rfl
@[simp] theorem Hw.setReg_out (h : Hw) (a : Nat) (v : W32) : (h.setReg a v).out = h.out := rfl

@[simp] theorem Hw.setFld_tb (h : Hw) (f : Fld) (v : Nat) : (h.setFld f v).tb = h.tb := rfl
@[simp] theorem Hw.setFld_slew (h : Hw) (f : Fld) (v : Nat) : (h.setFld f v).slew = h.slew := rfl
@[simp] theorem Hw.setFld_slewNs (h : Hw) (f : Fld) (v : Nat) : (h.setFld f v).slewNs = h.slewNs := rfl
@[simp] theorem Hw.setFld_free (h : Hw) (f : Fld) (v : Nat) : (h.setFld f v).free = h.free := rfl
@[simp] theorem Hw.setFld_ctxs (h : Hw) (f : Fld) (v : Nat) : (h.setFld f v).ctxs = h.ctxs := rfl
@[simp] theorem Hw.setFld_gens (h : Hw) (f : Fld) (v : Nat) : (h.setFld f v).gens = h.gens := rfl
@[simp] theorem Hw.setFld_cores (h : Hw) (f : Fld) (v : Nat) : (h.setFld f v).cores = h.cores := rfl
@[simp] theorem Hw.setFld_clus (h : Hw) (f : Fld) (v : Nat) : (h.setFld f v).clus = h.clus := rfl
@[simp] theorem Hw.setFld_hbm (h : Hw) (f : Fld) (v : Nat) : (h.setFld f v).hbm = h.hbm := rfl
@[simp] theorem Hw.setFld_xcl (h : Hw) (f : Fld) (v : Nat) : (h.setFld f v).xcl = h.xcl := rfl
@[simp] theorem Hw.setFld_links (h : Hw) (f : Fld) (v : Nat) : (h.setFld f v).links = h.links := rfl
@[simp] theorem Hw.setFld_trainCache (h : Hw) (f : Fld) (v : Nat) : (h.setFld f v).trainCache = h.trainCache := rfl
@[simp] theorem Hw.setFld_rtr (h : Hw) (f : Fld) (v : Nat) : (h.setFld f v).rtr = h.rtr := rfl
@[simp] theorem Hw.setFld_cve (h : Hw) (f : Fld) (v : Nat) : (h.setFld f v).cve = h.cve := rfl
@[simp] theorem Hw.setFld_squall (h : Hw) (f : Fld) (v : Nat) : (h.setFld f v).squall = h.squall := rfl
@[simp] theorem Hw.setFld_plu (h : Hw) (f : Fld) (v : Nat) : (h.setFld f v).plu = h.plu := rfl
@[simp] theorem Hw.setFld_doms (h : Hw) (f : Fld) (v : Nat) : (h.setFld f v).doms = h.doms := rfl
@[simp] theorem Hw.setFld_rdma (h : Hw) (f : Fld) (v : Nat) : (h.setFld f v).rdma = h.rdma := rfl
@[simp] theorem Hw.setFld_pwr (h : Hw) (f : Fld) (v : Nat) : (h.setFld f v).pwr = h.pwr := rfl
@[simp] theorem Hw.setFld_thm (h : Hw) (f : Fld) (v : Nat) : (h.setFld f v).thm = h.thm := rfl
@[simp] theorem Hw.setFld_host (h : Hw) (f : Fld) (v : Nat) : (h.setFld f v).host = h.host := rfl
@[simp] theorem Hw.setFld_sep (h : Hw) (f : Fld) (v : Nat) : (h.setFld f v).sep = h.sep := rfl
@[simp] theorem Hw.setFld_fw (h : Hw) (f : Fld) (v : Nat) : (h.setFld f v).fw = h.fw := rfl
@[simp] theorem Hw.setFld_ccl (h : Hw) (f : Fld) (v : Nat) : (h.setFld f v).ccl = h.ccl := rfl
@[simp] theorem Hw.setFld_eth (h : Hw) (f : Fld) (v : Nat) : (h.setFld f v).eth = h.eth := rfl
@[simp] theorem Hw.setFld_cpx (h : Hw) (f : Fld) (v : Nat) : (h.setFld f v).cpx = h.cpx := rfl
@[simp] theorem Hw.setFld_bring (h : Hw) (f : Fld) (v : Nat) : (h.setFld f v).bring = h.bring := rfl
@[simp] theorem Hw.setFld_board (h : Hw) (f : Fld) (v : Nat) : (h.setFld f v).board = h.board := rfl
@[simp] theorem Hw.setFld_nv (h : Hw) (f : Fld) (v : Nat) : (h.setFld f v).nv = h.nv := rfl
@[simp] theorem Hw.setFld_logs (h : Hw) (f : Fld) (v : Nat) : (h.setFld f v).logs = h.logs := rfl
@[simp] theorem Hw.setFld_hist (h : Hw) (f : Fld) (v : Nat) : (h.setFld f v).hist = h.hist := rfl
@[simp] theorem Hw.setFld_out (h : Hw) (f : Fld) (v : Nat) : (h.setFld f v).out = h.out := rfl

@[simp] theorem Hw.setFlag_tb (h : Hw) (f : Fld) (b : Bool) : (h.setFlag f b).tb = h.tb := rfl
@[simp] theorem Hw.setFlag_slew (h : Hw) (f : Fld) (b : Bool) : (h.setFlag f b).slew = h.slew := rfl
@[simp] theorem Hw.setFlag_slewNs (h : Hw) (f : Fld) (b : Bool) : (h.setFlag f b).slewNs = h.slewNs := rfl
@[simp] theorem Hw.setFlag_free (h : Hw) (f : Fld) (b : Bool) : (h.setFlag f b).free = h.free := rfl
@[simp] theorem Hw.setFlag_ctxs (h : Hw) (f : Fld) (b : Bool) : (h.setFlag f b).ctxs = h.ctxs := rfl
@[simp] theorem Hw.setFlag_gens (h : Hw) (f : Fld) (b : Bool) : (h.setFlag f b).gens = h.gens := rfl
@[simp] theorem Hw.setFlag_cores (h : Hw) (f : Fld) (b : Bool) : (h.setFlag f b).cores = h.cores := rfl
@[simp] theorem Hw.setFlag_clus (h : Hw) (f : Fld) (b : Bool) : (h.setFlag f b).clus = h.clus := rfl
@[simp] theorem Hw.setFlag_hbm (h : Hw) (f : Fld) (b : Bool) : (h.setFlag f b).hbm = h.hbm := rfl
@[simp] theorem Hw.setFlag_xcl (h : Hw) (f : Fld) (b : Bool) : (h.setFlag f b).xcl = h.xcl := rfl
@[simp] theorem Hw.setFlag_links (h : Hw) (f : Fld) (b : Bool) : (h.setFlag f b).links = h.links := rfl
@[simp] theorem Hw.setFlag_trainCache (h : Hw) (f : Fld) (b : Bool) : (h.setFlag f b).trainCache = h.trainCache := rfl
@[simp] theorem Hw.setFlag_rtr (h : Hw) (f : Fld) (b : Bool) : (h.setFlag f b).rtr = h.rtr := rfl
@[simp] theorem Hw.setFlag_cve (h : Hw) (f : Fld) (b : Bool) : (h.setFlag f b).cve = h.cve := rfl
@[simp] theorem Hw.setFlag_squall (h : Hw) (f : Fld) (b : Bool) : (h.setFlag f b).squall = h.squall := rfl
@[simp] theorem Hw.setFlag_plu (h : Hw) (f : Fld) (b : Bool) : (h.setFlag f b).plu = h.plu := rfl
@[simp] theorem Hw.setFlag_doms (h : Hw) (f : Fld) (b : Bool) : (h.setFlag f b).doms = h.doms := rfl
@[simp] theorem Hw.setFlag_rdma (h : Hw) (f : Fld) (b : Bool) : (h.setFlag f b).rdma = h.rdma := rfl
@[simp] theorem Hw.setFlag_pwr (h : Hw) (f : Fld) (b : Bool) : (h.setFlag f b).pwr = h.pwr := rfl
@[simp] theorem Hw.setFlag_thm (h : Hw) (f : Fld) (b : Bool) : (h.setFlag f b).thm = h.thm := rfl
@[simp] theorem Hw.setFlag_host (h : Hw) (f : Fld) (b : Bool) : (h.setFlag f b).host = h.host := rfl
@[simp] theorem Hw.setFlag_sep (h : Hw) (f : Fld) (b : Bool) : (h.setFlag f b).sep = h.sep := rfl
@[simp] theorem Hw.setFlag_fw (h : Hw) (f : Fld) (b : Bool) : (h.setFlag f b).fw = h.fw := rfl
@[simp] theorem Hw.setFlag_ccl (h : Hw) (f : Fld) (b : Bool) : (h.setFlag f b).ccl = h.ccl := rfl
@[simp] theorem Hw.setFlag_eth (h : Hw) (f : Fld) (b : Bool) : (h.setFlag f b).eth = h.eth := rfl
@[simp] theorem Hw.setFlag_cpx (h : Hw) (f : Fld) (b : Bool) : (h.setFlag f b).cpx = h.cpx := rfl
@[simp] theorem Hw.setFlag_bring (h : Hw) (f : Fld) (b : Bool) : (h.setFlag f b).bring = h.bring := rfl
@[simp] theorem Hw.setFlag_board (h : Hw) (f : Fld) (b : Bool) : (h.setFlag f b).board = h.board := rfl
@[simp] theorem Hw.setFlag_nv (h : Hw) (f : Fld) (b : Bool) : (h.setFlag f b).nv = h.nv := rfl
@[simp] theorem Hw.setFlag_logs (h : Hw) (f : Fld) (b : Bool) : (h.setFlag f b).logs = h.logs := rfl
@[simp] theorem Hw.setFlag_hist (h : Hw) (f : Fld) (b : Bool) : (h.setFlag f b).hist = h.hist := rfl
@[simp] theorem Hw.setFlag_out (h : Hw) (f : Fld) (b : Bool) : (h.setFlag f b).out = h.out := rfl

@[simp] theorem Hw.satFld_tb (h : Hw) (f : Fld) (n : Nat) : (h.satFld f n).tb = h.tb := rfl
@[simp] theorem Hw.satFld_slew (h : Hw) (f : Fld) (n : Nat) : (h.satFld f n).slew = h.slew := rfl
@[simp] theorem Hw.satFld_slewNs (h : Hw) (f : Fld) (n : Nat) : (h.satFld f n).slewNs = h.slewNs := rfl
@[simp] theorem Hw.satFld_free (h : Hw) (f : Fld) (n : Nat) : (h.satFld f n).free = h.free := rfl
@[simp] theorem Hw.satFld_ctxs (h : Hw) (f : Fld) (n : Nat) : (h.satFld f n).ctxs = h.ctxs := rfl
@[simp] theorem Hw.satFld_gens (h : Hw) (f : Fld) (n : Nat) : (h.satFld f n).gens = h.gens := rfl
@[simp] theorem Hw.satFld_cores (h : Hw) (f : Fld) (n : Nat) : (h.satFld f n).cores = h.cores := rfl
@[simp] theorem Hw.satFld_clus (h : Hw) (f : Fld) (n : Nat) : (h.satFld f n).clus = h.clus := rfl
@[simp] theorem Hw.satFld_hbm (h : Hw) (f : Fld) (n : Nat) : (h.satFld f n).hbm = h.hbm := rfl
@[simp] theorem Hw.satFld_xcl (h : Hw) (f : Fld) (n : Nat) : (h.satFld f n).xcl = h.xcl := rfl
@[simp] theorem Hw.satFld_links (h : Hw) (f : Fld) (n : Nat) : (h.satFld f n).links = h.links := rfl
@[simp] theorem Hw.satFld_trainCache (h : Hw) (f : Fld) (n : Nat) : (h.satFld f n).trainCache = h.trainCache := rfl
@[simp] theorem Hw.satFld_rtr (h : Hw) (f : Fld) (n : Nat) : (h.satFld f n).rtr = h.rtr := rfl
@[simp] theorem Hw.satFld_cve (h : Hw) (f : Fld) (n : Nat) : (h.satFld f n).cve = h.cve := rfl
@[simp] theorem Hw.satFld_squall (h : Hw) (f : Fld) (n : Nat) : (h.satFld f n).squall = h.squall := rfl
@[simp] theorem Hw.satFld_plu (h : Hw) (f : Fld) (n : Nat) : (h.satFld f n).plu = h.plu := rfl
@[simp] theorem Hw.satFld_doms (h : Hw) (f : Fld) (n : Nat) : (h.satFld f n).doms = h.doms := rfl
@[simp] theorem Hw.satFld_rdma (h : Hw) (f : Fld) (n : Nat) : (h.satFld f n).rdma = h.rdma := rfl
@[simp] theorem Hw.satFld_pwr (h : Hw) (f : Fld) (n : Nat) : (h.satFld f n).pwr = h.pwr := rfl
@[simp] theorem Hw.satFld_thm (h : Hw) (f : Fld) (n : Nat) : (h.satFld f n).thm = h.thm := rfl
@[simp] theorem Hw.satFld_host (h : Hw) (f : Fld) (n : Nat) : (h.satFld f n).host = h.host := rfl
@[simp] theorem Hw.satFld_sep (h : Hw) (f : Fld) (n : Nat) : (h.satFld f n).sep = h.sep := rfl
@[simp] theorem Hw.satFld_fw (h : Hw) (f : Fld) (n : Nat) : (h.satFld f n).fw = h.fw := rfl
@[simp] theorem Hw.satFld_ccl (h : Hw) (f : Fld) (n : Nat) : (h.satFld f n).ccl = h.ccl := rfl
@[simp] theorem Hw.satFld_eth (h : Hw) (f : Fld) (n : Nat) : (h.satFld f n).eth = h.eth := rfl
@[simp] theorem Hw.satFld_cpx (h : Hw) (f : Fld) (n : Nat) : (h.satFld f n).cpx = h.cpx := rfl
@[simp] theorem Hw.satFld_bring (h : Hw) (f : Fld) (n : Nat) : (h.satFld f n).bring = h.bring := rfl
@[simp] theorem Hw.satFld_board (h : Hw) (f : Fld) (n : Nat) : (h.satFld f n).board = h.board := rfl
@[simp] theorem Hw.satFld_nv (h : Hw) (f : Fld) (n : Nat) : (h.satFld f n).nv = h.nv := rfl
@[simp] theorem Hw.satFld_logs (h : Hw) (f : Fld) (n : Nat) : (h.satFld f n).logs = h.logs := rfl
@[simp] theorem Hw.satFld_hist (h : Hw) (f : Fld) (n : Nat) : (h.satFld f n).hist = h.hist := rfl
@[simp] theorem Hw.satFld_out (h : Hw) (f : Fld) (n : Nat) : (h.satFld f n).out = h.out := rfl

@[simp] theorem Hw.modSession_regs (h : Hw) (i : Nat) (f : Session → Session) : (h.modSession i f).regs = h.regs := rfl
@[simp] theorem Hw.modSession_tb (h : Hw) (i : Nat) (f : Session → Session) : (h.modSession i f).tb = h.tb := rfl
@[simp] theorem Hw.modSession_slew (h : Hw) (i : Nat) (f : Session → Session) : (h.modSession i f).slew = h.slew := rfl
@[simp] theorem Hw.modSession_slewNs (h : Hw) (i : Nat) (f : Session → Session) : (h.modSession i f).slewNs = h.slewNs := rfl
@[simp] theorem Hw.modSession_free (h : Hw) (i : Nat) (f : Session → Session) : (h.modSession i f).free = h.free := rfl
@[simp] theorem Hw.modSession_ctxs (h : Hw) (i : Nat) (f : Session → Session) : (h.modSession i f).ctxs = h.ctxs := rfl
@[simp] theorem Hw.modSession_gens (h : Hw) (i : Nat) (f : Session → Session) : (h.modSession i f).gens = h.gens := rfl
@[simp] theorem Hw.modSession_cores (h : Hw) (i : Nat) (f : Session → Session) : (h.modSession i f).cores = h.cores := rfl
@[simp] theorem Hw.modSession_clus (h : Hw) (i : Nat) (f : Session → Session) : (h.modSession i f).clus = h.clus := rfl
@[simp] theorem Hw.modSession_hbm (h : Hw) (i : Nat) (f : Session → Session) : (h.modSession i f).hbm = h.hbm := rfl
@[simp] theorem Hw.modSession_xcl (h : Hw) (i : Nat) (f : Session → Session) : (h.modSession i f).xcl = h.xcl := rfl
@[simp] theorem Hw.modSession_links (h : Hw) (i : Nat) (f : Session → Session) : (h.modSession i f).links = h.links := rfl
@[simp] theorem Hw.modSession_trainCache (h : Hw) (i : Nat) (f : Session → Session) : (h.modSession i f).trainCache = h.trainCache := rfl
@[simp] theorem Hw.modSession_rtr (h : Hw) (i : Nat) (f : Session → Session) : (h.modSession i f).rtr = h.rtr := rfl
@[simp] theorem Hw.modSession_cve (h : Hw) (i : Nat) (f : Session → Session) : (h.modSession i f).cve = h.cve := rfl
@[simp] theorem Hw.modSession_squall (h : Hw) (i : Nat) (f : Session → Session) : (h.modSession i f).squall = h.squall := rfl
@[simp] theorem Hw.modSession_plu (h : Hw) (i : Nat) (f : Session → Session) : (h.modSession i f).plu = h.plu := rfl
@[simp] theorem Hw.modSession_doms (h : Hw) (i : Nat) (f : Session → Session) : (h.modSession i f).doms = h.doms := rfl
@[simp] theorem Hw.modSession_rdma (h : Hw) (i : Nat) (f : Session → Session) : (h.modSession i f).rdma = h.rdma := rfl
@[simp] theorem Hw.modSession_pwr (h : Hw) (i : Nat) (f : Session → Session) : (h.modSession i f).pwr = h.pwr := rfl
@[simp] theorem Hw.modSession_thm (h : Hw) (i : Nat) (f : Session → Session) : (h.modSession i f).thm = h.thm := rfl
@[simp] theorem Hw.modSession_sep (h : Hw) (i : Nat) (f : Session → Session) : (h.modSession i f).sep = h.sep := rfl
@[simp] theorem Hw.modSession_fw (h : Hw) (i : Nat) (f : Session → Session) : (h.modSession i f).fw = h.fw := rfl
@[simp] theorem Hw.modSession_ccl (h : Hw) (i : Nat) (f : Session → Session) : (h.modSession i f).ccl = h.ccl := rfl
@[simp] theorem Hw.modSession_eth (h : Hw) (i : Nat) (f : Session → Session) : (h.modSession i f).eth = h.eth := rfl
@[simp] theorem Hw.modSession_cpx (h : Hw) (i : Nat) (f : Session → Session) : (h.modSession i f).cpx = h.cpx := rfl
@[simp] theorem Hw.modSession_bring (h : Hw) (i : Nat) (f : Session → Session) : (h.modSession i f).bring = h.bring := rfl
@[simp] theorem Hw.modSession_board (h : Hw) (i : Nat) (f : Session → Session) : (h.modSession i f).board = h.board := rfl
@[simp] theorem Hw.modSession_nv (h : Hw) (i : Nat) (f : Session → Session) : (h.modSession i f).nv = h.nv := rfl
@[simp] theorem Hw.modSession_logs (h : Hw) (i : Nat) (f : Session → Session) : (h.modSession i f).logs = h.logs := rfl
@[simp] theorem Hw.modSession_hist (h : Hw) (i : Nat) (f : Session → Session) : (h.modSession i f).hist = h.hist := rfl
@[simp] theorem Hw.modSession_out (h : Hw) (i : Nat) (f : Session → Session) : (h.modSession i f).out = h.out := rfl

@[simp] theorem Hw.endSessions_regs (h : Hw) (f : Session → Bool) : (h.endSessions f).regs = h.regs := rfl
@[simp] theorem Hw.endSessions_tb (h : Hw) (f : Session → Bool) : (h.endSessions f).tb = h.tb := rfl
@[simp] theorem Hw.endSessions_slew (h : Hw) (f : Session → Bool) : (h.endSessions f).slew = h.slew := rfl
@[simp] theorem Hw.endSessions_slewNs (h : Hw) (f : Session → Bool) : (h.endSessions f).slewNs = h.slewNs := rfl
@[simp] theorem Hw.endSessions_free (h : Hw) (f : Session → Bool) : (h.endSessions f).free = h.free := rfl
@[simp] theorem Hw.endSessions_ctxs (h : Hw) (f : Session → Bool) : (h.endSessions f).ctxs = h.ctxs := rfl
@[simp] theorem Hw.endSessions_gens (h : Hw) (f : Session → Bool) : (h.endSessions f).gens = h.gens := rfl
@[simp] theorem Hw.endSessions_cores (h : Hw) (f : Session → Bool) : (h.endSessions f).cores = h.cores := rfl
@[simp] theorem Hw.endSessions_clus (h : Hw) (f : Session → Bool) : (h.endSessions f).clus = h.clus := rfl
@[simp] theorem Hw.endSessions_hbm (h : Hw) (f : Session → Bool) : (h.endSessions f).hbm = h.hbm := rfl
@[simp] theorem Hw.endSessions_xcl (h : Hw) (f : Session → Bool) : (h.endSessions f).xcl = h.xcl := rfl
@[simp] theorem Hw.endSessions_links (h : Hw) (f : Session → Bool) : (h.endSessions f).links = h.links := rfl
@[simp] theorem Hw.endSessions_trainCache (h : Hw) (f : Session → Bool) : (h.endSessions f).trainCache = h.trainCache := rfl
@[simp] theorem Hw.endSessions_rtr (h : Hw) (f : Session → Bool) : (h.endSessions f).rtr = h.rtr := rfl
@[simp] theorem Hw.endSessions_cve (h : Hw) (f : Session → Bool) : (h.endSessions f).cve = h.cve := rfl
@[simp] theorem Hw.endSessions_squall (h : Hw) (f : Session → Bool) : (h.endSessions f).squall = h.squall := rfl
@[simp] theorem Hw.endSessions_plu (h : Hw) (f : Session → Bool) : (h.endSessions f).plu = h.plu := rfl
@[simp] theorem Hw.endSessions_doms (h : Hw) (f : Session → Bool) : (h.endSessions f).doms = h.doms := rfl
@[simp] theorem Hw.endSessions_rdma (h : Hw) (f : Session → Bool) : (h.endSessions f).rdma = h.rdma := rfl
@[simp] theorem Hw.endSessions_pwr (h : Hw) (f : Session → Bool) : (h.endSessions f).pwr = h.pwr := rfl
@[simp] theorem Hw.endSessions_thm (h : Hw) (f : Session → Bool) : (h.endSessions f).thm = h.thm := rfl
@[simp] theorem Hw.endSessions_sep (h : Hw) (f : Session → Bool) : (h.endSessions f).sep = h.sep := rfl
@[simp] theorem Hw.endSessions_fw (h : Hw) (f : Session → Bool) : (h.endSessions f).fw = h.fw := rfl
@[simp] theorem Hw.endSessions_ccl (h : Hw) (f : Session → Bool) : (h.endSessions f).ccl = h.ccl := rfl
@[simp] theorem Hw.endSessions_eth (h : Hw) (f : Session → Bool) : (h.endSessions f).eth = h.eth := rfl
@[simp] theorem Hw.endSessions_cpx (h : Hw) (f : Session → Bool) : (h.endSessions f).cpx = h.cpx := rfl
@[simp] theorem Hw.endSessions_bring (h : Hw) (f : Session → Bool) : (h.endSessions f).bring = h.bring := rfl
@[simp] theorem Hw.endSessions_board (h : Hw) (f : Session → Bool) : (h.endSessions f).board = h.board := rfl
@[simp] theorem Hw.endSessions_nv (h : Hw) (f : Session → Bool) : (h.endSessions f).nv = h.nv := rfl
@[simp] theorem Hw.endSessions_logs (h : Hw) (f : Session → Bool) : (h.endSessions f).logs = h.logs := rfl
@[simp] theorem Hw.endSessions_hist (h : Hw) (f : Session → Bool) : (h.endSessions f).hist = h.hist := rfl
@[simp] theorem Hw.endSessions_out (h : Hw) (f : Session → Bool) : (h.endSessions f).out = h.out := rfl

@[simp] theorem Hw.sendEvent_regs (h : Hw) (o c : Nat) (p : List Nat) (b : List Byte) : (h.sendEvent o c p b).regs = h.regs := rfl
@[simp] theorem Hw.sendEvent_tb (h : Hw) (o c : Nat) (p : List Nat) (b : List Byte) : (h.sendEvent o c p b).tb = h.tb := rfl
@[simp] theorem Hw.sendEvent_slew (h : Hw) (o c : Nat) (p : List Nat) (b : List Byte) : (h.sendEvent o c p b).slew = h.slew := rfl
@[simp] theorem Hw.sendEvent_slewNs (h : Hw) (o c : Nat) (p : List Nat) (b : List Byte) : (h.sendEvent o c p b).slewNs = h.slewNs := rfl
@[simp] theorem Hw.sendEvent_free (h : Hw) (o c : Nat) (p : List Nat) (b : List Byte) : (h.sendEvent o c p b).free = h.free := rfl
@[simp] theorem Hw.sendEvent_ctxs (h : Hw) (o c : Nat) (p : List Nat) (b : List Byte) : (h.sendEvent o c p b).ctxs = h.ctxs := rfl
@[simp] theorem Hw.sendEvent_gens (h : Hw) (o c : Nat) (p : List Nat) (b : List Byte) : (h.sendEvent o c p b).gens = h.gens := rfl
@[simp] theorem Hw.sendEvent_cores (h : Hw) (o c : Nat) (p : List Nat) (b : List Byte) : (h.sendEvent o c p b).cores = h.cores := rfl
@[simp] theorem Hw.sendEvent_clus (h : Hw) (o c : Nat) (p : List Nat) (b : List Byte) : (h.sendEvent o c p b).clus = h.clus := rfl
@[simp] theorem Hw.sendEvent_hbm (h : Hw) (o c : Nat) (p : List Nat) (b : List Byte) : (h.sendEvent o c p b).hbm = h.hbm := rfl
@[simp] theorem Hw.sendEvent_xcl (h : Hw) (o c : Nat) (p : List Nat) (b : List Byte) : (h.sendEvent o c p b).xcl = h.xcl := rfl
@[simp] theorem Hw.sendEvent_links (h : Hw) (o c : Nat) (p : List Nat) (b : List Byte) : (h.sendEvent o c p b).links = h.links := rfl
@[simp] theorem Hw.sendEvent_trainCache (h : Hw) (o c : Nat) (p : List Nat) (b : List Byte) : (h.sendEvent o c p b).trainCache = h.trainCache := rfl
@[simp] theorem Hw.sendEvent_rtr (h : Hw) (o c : Nat) (p : List Nat) (b : List Byte) : (h.sendEvent o c p b).rtr = h.rtr := rfl
@[simp] theorem Hw.sendEvent_cve (h : Hw) (o c : Nat) (p : List Nat) (b : List Byte) : (h.sendEvent o c p b).cve = h.cve := rfl
@[simp] theorem Hw.sendEvent_squall (h : Hw) (o c : Nat) (p : List Nat) (b : List Byte) : (h.sendEvent o c p b).squall = h.squall := rfl
@[simp] theorem Hw.sendEvent_plu (h : Hw) (o c : Nat) (p : List Nat) (b : List Byte) : (h.sendEvent o c p b).plu = h.plu := rfl
@[simp] theorem Hw.sendEvent_doms (h : Hw) (o c : Nat) (p : List Nat) (b : List Byte) : (h.sendEvent o c p b).doms = h.doms := rfl
@[simp] theorem Hw.sendEvent_rdma (h : Hw) (o c : Nat) (p : List Nat) (b : List Byte) : (h.sendEvent o c p b).rdma = h.rdma := rfl
@[simp] theorem Hw.sendEvent_pwr (h : Hw) (o c : Nat) (p : List Nat) (b : List Byte) : (h.sendEvent o c p b).pwr = h.pwr := rfl
@[simp] theorem Hw.sendEvent_thm (h : Hw) (o c : Nat) (p : List Nat) (b : List Byte) : (h.sendEvent o c p b).thm = h.thm := rfl
@[simp] theorem Hw.sendEvent_sep (h : Hw) (o c : Nat) (p : List Nat) (b : List Byte) : (h.sendEvent o c p b).sep = h.sep := rfl
@[simp] theorem Hw.sendEvent_fw (h : Hw) (o c : Nat) (p : List Nat) (b : List Byte) : (h.sendEvent o c p b).fw = h.fw := rfl
@[simp] theorem Hw.sendEvent_ccl (h : Hw) (o c : Nat) (p : List Nat) (b : List Byte) : (h.sendEvent o c p b).ccl = h.ccl := rfl
@[simp] theorem Hw.sendEvent_eth (h : Hw) (o c : Nat) (p : List Nat) (b : List Byte) : (h.sendEvent o c p b).eth = h.eth := rfl
@[simp] theorem Hw.sendEvent_cpx (h : Hw) (o c : Nat) (p : List Nat) (b : List Byte) : (h.sendEvent o c p b).cpx = h.cpx := rfl
@[simp] theorem Hw.sendEvent_bring (h : Hw) (o c : Nat) (p : List Nat) (b : List Byte) : (h.sendEvent o c p b).bring = h.bring := rfl
@[simp] theorem Hw.sendEvent_board (h : Hw) (o c : Nat) (p : List Nat) (b : List Byte) : (h.sendEvent o c p b).board = h.board := rfl
@[simp] theorem Hw.sendEvent_nv (h : Hw) (o c : Nat) (p : List Nat) (b : List Byte) : (h.sendEvent o c p b).nv = h.nv := rfl
@[simp] theorem Hw.sendEvent_logs (h : Hw) (o c : Nat) (p : List Nat) (b : List Byte) : (h.sendEvent o c p b).logs = h.logs := rfl
@[simp] theorem Hw.sendEvent_hist (h : Hw) (o c : Nat) (p : List Nat) (b : List Byte) : (h.sendEvent o c p b).hist = h.hist := rfl

@[simp] theorem Hw.setCtx_regs (h : Hw) (c : Nat) (x : Ctx) : (h.setCtx c x).regs = h.regs := rfl
@[simp] theorem Hw.setCtx_tb (h : Hw) (c : Nat) (x : Ctx) : (h.setCtx c x).tb = h.tb := rfl
@[simp] theorem Hw.setCtx_slew (h : Hw) (c : Nat) (x : Ctx) : (h.setCtx c x).slew = h.slew := rfl
@[simp] theorem Hw.setCtx_slewNs (h : Hw) (c : Nat) (x : Ctx) : (h.setCtx c x).slewNs = h.slewNs := rfl
@[simp] theorem Hw.setCtx_free (h : Hw) (c : Nat) (x : Ctx) : (h.setCtx c x).free = h.free := rfl
@[simp] theorem Hw.setCtx_gens (h : Hw) (c : Nat) (x : Ctx) : (h.setCtx c x).gens = h.gens := rfl
@[simp] theorem Hw.setCtx_cores (h : Hw) (c : Nat) (x : Ctx) : (h.setCtx c x).cores = h.cores := rfl
@[simp] theorem Hw.setCtx_clus (h : Hw) (c : Nat) (x : Ctx) : (h.setCtx c x).clus = h.clus := rfl
@[simp] theorem Hw.setCtx_hbm (h : Hw) (c : Nat) (x : Ctx) : (h.setCtx c x).hbm = h.hbm := rfl
@[simp] theorem Hw.setCtx_xcl (h : Hw) (c : Nat) (x : Ctx) : (h.setCtx c x).xcl = h.xcl := rfl
@[simp] theorem Hw.setCtx_links (h : Hw) (c : Nat) (x : Ctx) : (h.setCtx c x).links = h.links := rfl
@[simp] theorem Hw.setCtx_trainCache (h : Hw) (c : Nat) (x : Ctx) : (h.setCtx c x).trainCache = h.trainCache := rfl
@[simp] theorem Hw.setCtx_rtr (h : Hw) (c : Nat) (x : Ctx) : (h.setCtx c x).rtr = h.rtr := rfl
@[simp] theorem Hw.setCtx_cve (h : Hw) (c : Nat) (x : Ctx) : (h.setCtx c x).cve = h.cve := rfl
@[simp] theorem Hw.setCtx_squall (h : Hw) (c : Nat) (x : Ctx) : (h.setCtx c x).squall = h.squall := rfl
@[simp] theorem Hw.setCtx_plu (h : Hw) (c : Nat) (x : Ctx) : (h.setCtx c x).plu = h.plu := rfl
@[simp] theorem Hw.setCtx_doms (h : Hw) (c : Nat) (x : Ctx) : (h.setCtx c x).doms = h.doms := rfl
@[simp] theorem Hw.setCtx_rdma (h : Hw) (c : Nat) (x : Ctx) : (h.setCtx c x).rdma = h.rdma := rfl
@[simp] theorem Hw.setCtx_pwr (h : Hw) (c : Nat) (x : Ctx) : (h.setCtx c x).pwr = h.pwr := rfl
@[simp] theorem Hw.setCtx_thm (h : Hw) (c : Nat) (x : Ctx) : (h.setCtx c x).thm = h.thm := rfl
@[simp] theorem Hw.setCtx_host (h : Hw) (c : Nat) (x : Ctx) : (h.setCtx c x).host = h.host := rfl
@[simp] theorem Hw.setCtx_sep (h : Hw) (c : Nat) (x : Ctx) : (h.setCtx c x).sep = h.sep := rfl
@[simp] theorem Hw.setCtx_fw (h : Hw) (c : Nat) (x : Ctx) : (h.setCtx c x).fw = h.fw := rfl
@[simp] theorem Hw.setCtx_ccl (h : Hw) (c : Nat) (x : Ctx) : (h.setCtx c x).ccl = h.ccl := rfl
@[simp] theorem Hw.setCtx_eth (h : Hw) (c : Nat) (x : Ctx) : (h.setCtx c x).eth = h.eth := rfl
@[simp] theorem Hw.setCtx_cpx (h : Hw) (c : Nat) (x : Ctx) : (h.setCtx c x).cpx = h.cpx := rfl
@[simp] theorem Hw.setCtx_bring (h : Hw) (c : Nat) (x : Ctx) : (h.setCtx c x).bring = h.bring := rfl
@[simp] theorem Hw.setCtx_board (h : Hw) (c : Nat) (x : Ctx) : (h.setCtx c x).board = h.board := rfl
@[simp] theorem Hw.setCtx_nv (h : Hw) (c : Nat) (x : Ctx) : (h.setCtx c x).nv = h.nv := rfl
@[simp] theorem Hw.setCtx_logs (h : Hw) (c : Nat) (x : Ctx) : (h.setCtx c x).logs = h.logs := rfl
@[simp] theorem Hw.setCtx_hist (h : Hw) (c : Nat) (x : Ctx) : (h.setCtx c x).hist = h.hist := rfl
@[simp] theorem Hw.setCtx_out (h : Hw) (c : Nat) (x : Ctx) : (h.setCtx c x).out = h.out := rfl

@[simp] theorem Hw.modCtx_regs (h : Hw) (c : Nat) (f : Ctx → Ctx) : (h.modCtx c f).regs = h.regs := rfl
@[simp] theorem Hw.modCtx_tb (h : Hw) (c : Nat) (f : Ctx → Ctx) : (h.modCtx c f).tb = h.tb := rfl
@[simp] theorem Hw.modCtx_slew (h : Hw) (c : Nat) (f : Ctx → Ctx) : (h.modCtx c f).slew = h.slew := rfl
@[simp] theorem Hw.modCtx_slewNs (h : Hw) (c : Nat) (f : Ctx → Ctx) : (h.modCtx c f).slewNs = h.slewNs := rfl
@[simp] theorem Hw.modCtx_free (h : Hw) (c : Nat) (f : Ctx → Ctx) : (h.modCtx c f).free = h.free := rfl
@[simp] theorem Hw.modCtx_gens (h : Hw) (c : Nat) (f : Ctx → Ctx) : (h.modCtx c f).gens = h.gens := rfl
@[simp] theorem Hw.modCtx_cores (h : Hw) (c : Nat) (f : Ctx → Ctx) : (h.modCtx c f).cores = h.cores := rfl
@[simp] theorem Hw.modCtx_clus (h : Hw) (c : Nat) (f : Ctx → Ctx) : (h.modCtx c f).clus = h.clus := rfl
@[simp] theorem Hw.modCtx_hbm (h : Hw) (c : Nat) (f : Ctx → Ctx) : (h.modCtx c f).hbm = h.hbm := rfl
@[simp] theorem Hw.modCtx_xcl (h : Hw) (c : Nat) (f : Ctx → Ctx) : (h.modCtx c f).xcl = h.xcl := rfl
@[simp] theorem Hw.modCtx_links (h : Hw) (c : Nat) (f : Ctx → Ctx) : (h.modCtx c f).links = h.links := rfl
@[simp] theorem Hw.modCtx_trainCache (h : Hw) (c : Nat) (f : Ctx → Ctx) : (h.modCtx c f).trainCache = h.trainCache := rfl
@[simp] theorem Hw.modCtx_rtr (h : Hw) (c : Nat) (f : Ctx → Ctx) : (h.modCtx c f).rtr = h.rtr := rfl
@[simp] theorem Hw.modCtx_cve (h : Hw) (c : Nat) (f : Ctx → Ctx) : (h.modCtx c f).cve = h.cve := rfl
@[simp] theorem Hw.modCtx_squall (h : Hw) (c : Nat) (f : Ctx → Ctx) : (h.modCtx c f).squall = h.squall := rfl
@[simp] theorem Hw.modCtx_plu (h : Hw) (c : Nat) (f : Ctx → Ctx) : (h.modCtx c f).plu = h.plu := rfl
@[simp] theorem Hw.modCtx_doms (h : Hw) (c : Nat) (f : Ctx → Ctx) : (h.modCtx c f).doms = h.doms := rfl
@[simp] theorem Hw.modCtx_rdma (h : Hw) (c : Nat) (f : Ctx → Ctx) : (h.modCtx c f).rdma = h.rdma := rfl
@[simp] theorem Hw.modCtx_pwr (h : Hw) (c : Nat) (f : Ctx → Ctx) : (h.modCtx c f).pwr = h.pwr := rfl
@[simp] theorem Hw.modCtx_thm (h : Hw) (c : Nat) (f : Ctx → Ctx) : (h.modCtx c f).thm = h.thm := rfl
@[simp] theorem Hw.modCtx_host (h : Hw) (c : Nat) (f : Ctx → Ctx) : (h.modCtx c f).host = h.host := rfl
@[simp] theorem Hw.modCtx_sep (h : Hw) (c : Nat) (f : Ctx → Ctx) : (h.modCtx c f).sep = h.sep := rfl
@[simp] theorem Hw.modCtx_fw (h : Hw) (c : Nat) (f : Ctx → Ctx) : (h.modCtx c f).fw = h.fw := rfl
@[simp] theorem Hw.modCtx_ccl (h : Hw) (c : Nat) (f : Ctx → Ctx) : (h.modCtx c f).ccl = h.ccl := rfl
@[simp] theorem Hw.modCtx_eth (h : Hw) (c : Nat) (f : Ctx → Ctx) : (h.modCtx c f).eth = h.eth := rfl
@[simp] theorem Hw.modCtx_cpx (h : Hw) (c : Nat) (f : Ctx → Ctx) : (h.modCtx c f).cpx = h.cpx := rfl
@[simp] theorem Hw.modCtx_bring (h : Hw) (c : Nat) (f : Ctx → Ctx) : (h.modCtx c f).bring = h.bring := rfl
@[simp] theorem Hw.modCtx_board (h : Hw) (c : Nat) (f : Ctx → Ctx) : (h.modCtx c f).board = h.board := rfl
@[simp] theorem Hw.modCtx_nv (h : Hw) (c : Nat) (f : Ctx → Ctx) : (h.modCtx c f).nv = h.nv := rfl
@[simp] theorem Hw.modCtx_logs (h : Hw) (c : Nat) (f : Ctx → Ctx) : (h.modCtx c f).logs = h.logs := rfl
@[simp] theorem Hw.modCtx_hist (h : Hw) (c : Nat) (f : Ctx → Ctx) : (h.modCtx c f).hist = h.hist := rfl
@[simp] theorem Hw.modCtx_out (h : Hw) (c : Nat) (f : Ctx → Ctx) : (h.modCtx c f).out = h.out := rfl

@[simp] theorem Hw.modRun_regs (h : Hw) (c : Nat) (f : CtxRun → CtxRun) : (h.modRun c f).regs = h.regs := rfl
@[simp] theorem Hw.modRun_tb (h : Hw) (c : Nat) (f : CtxRun → CtxRun) : (h.modRun c f).tb = h.tb := rfl
@[simp] theorem Hw.modRun_slew (h : Hw) (c : Nat) (f : CtxRun → CtxRun) : (h.modRun c f).slew = h.slew := rfl
@[simp] theorem Hw.modRun_slewNs (h : Hw) (c : Nat) (f : CtxRun → CtxRun) : (h.modRun c f).slewNs = h.slewNs := rfl
@[simp] theorem Hw.modRun_free (h : Hw) (c : Nat) (f : CtxRun → CtxRun) : (h.modRun c f).free = h.free := rfl
@[simp] theorem Hw.modRun_gens (h : Hw) (c : Nat) (f : CtxRun → CtxRun) : (h.modRun c f).gens = h.gens := rfl
@[simp] theorem Hw.modRun_cores (h : Hw) (c : Nat) (f : CtxRun → CtxRun) : (h.modRun c f).cores = h.cores := rfl
@[simp] theorem Hw.modRun_clus (h : Hw) (c : Nat) (f : CtxRun → CtxRun) : (h.modRun c f).clus = h.clus := rfl
@[simp] theorem Hw.modRun_hbm (h : Hw) (c : Nat) (f : CtxRun → CtxRun) : (h.modRun c f).hbm = h.hbm := rfl
@[simp] theorem Hw.modRun_xcl (h : Hw) (c : Nat) (f : CtxRun → CtxRun) : (h.modRun c f).xcl = h.xcl := rfl
@[simp] theorem Hw.modRun_links (h : Hw) (c : Nat) (f : CtxRun → CtxRun) : (h.modRun c f).links = h.links := rfl
@[simp] theorem Hw.modRun_trainCache (h : Hw) (c : Nat) (f : CtxRun → CtxRun) : (h.modRun c f).trainCache = h.trainCache := rfl
@[simp] theorem Hw.modRun_rtr (h : Hw) (c : Nat) (f : CtxRun → CtxRun) : (h.modRun c f).rtr = h.rtr := rfl
@[simp] theorem Hw.modRun_cve (h : Hw) (c : Nat) (f : CtxRun → CtxRun) : (h.modRun c f).cve = h.cve := rfl
@[simp] theorem Hw.modRun_squall (h : Hw) (c : Nat) (f : CtxRun → CtxRun) : (h.modRun c f).squall = h.squall := rfl
@[simp] theorem Hw.modRun_plu (h : Hw) (c : Nat) (f : CtxRun → CtxRun) : (h.modRun c f).plu = h.plu := rfl
@[simp] theorem Hw.modRun_doms (h : Hw) (c : Nat) (f : CtxRun → CtxRun) : (h.modRun c f).doms = h.doms := rfl
@[simp] theorem Hw.modRun_rdma (h : Hw) (c : Nat) (f : CtxRun → CtxRun) : (h.modRun c f).rdma = h.rdma := rfl
@[simp] theorem Hw.modRun_pwr (h : Hw) (c : Nat) (f : CtxRun → CtxRun) : (h.modRun c f).pwr = h.pwr := rfl
@[simp] theorem Hw.modRun_thm (h : Hw) (c : Nat) (f : CtxRun → CtxRun) : (h.modRun c f).thm = h.thm := rfl
@[simp] theorem Hw.modRun_host (h : Hw) (c : Nat) (f : CtxRun → CtxRun) : (h.modRun c f).host = h.host := rfl
@[simp] theorem Hw.modRun_sep (h : Hw) (c : Nat) (f : CtxRun → CtxRun) : (h.modRun c f).sep = h.sep := rfl
@[simp] theorem Hw.modRun_fw (h : Hw) (c : Nat) (f : CtxRun → CtxRun) : (h.modRun c f).fw = h.fw := rfl
@[simp] theorem Hw.modRun_ccl (h : Hw) (c : Nat) (f : CtxRun → CtxRun) : (h.modRun c f).ccl = h.ccl := rfl
@[simp] theorem Hw.modRun_eth (h : Hw) (c : Nat) (f : CtxRun → CtxRun) : (h.modRun c f).eth = h.eth := rfl
@[simp] theorem Hw.modRun_cpx (h : Hw) (c : Nat) (f : CtxRun → CtxRun) : (h.modRun c f).cpx = h.cpx := rfl
@[simp] theorem Hw.modRun_bring (h : Hw) (c : Nat) (f : CtxRun → CtxRun) : (h.modRun c f).bring = h.bring := rfl
@[simp] theorem Hw.modRun_board (h : Hw) (c : Nat) (f : CtxRun → CtxRun) : (h.modRun c f).board = h.board := rfl
@[simp] theorem Hw.modRun_nv (h : Hw) (c : Nat) (f : CtxRun → CtxRun) : (h.modRun c f).nv = h.nv := rfl
@[simp] theorem Hw.modRun_logs (h : Hw) (c : Nat) (f : CtxRun → CtxRun) : (h.modRun c f).logs = h.logs := rfl
@[simp] theorem Hw.modRun_hist (h : Hw) (c : Nat) (f : CtxRun → CtxRun) : (h.modRun c f).hist = h.hist := rfl
@[simp] theorem Hw.modRun_out (h : Hw) (c : Nat) (f : CtxRun → CtxRun) : (h.modRun c f).out = h.out := rfl

@[simp] theorem Hw.modClus_regs (h : Hw) (c : Nat) (f : Clus → Clus) : (h.modClus c f).regs = h.regs := rfl
@[simp] theorem Hw.modClus_tb (h : Hw) (c : Nat) (f : Clus → Clus) : (h.modClus c f).tb = h.tb := rfl
@[simp] theorem Hw.modClus_slew (h : Hw) (c : Nat) (f : Clus → Clus) : (h.modClus c f).slew = h.slew := rfl
@[simp] theorem Hw.modClus_slewNs (h : Hw) (c : Nat) (f : Clus → Clus) : (h.modClus c f).slewNs = h.slewNs := rfl
@[simp] theorem Hw.modClus_free (h : Hw) (c : Nat) (f : Clus → Clus) : (h.modClus c f).free = h.free := rfl
@[simp] theorem Hw.modClus_ctxs (h : Hw) (c : Nat) (f : Clus → Clus) : (h.modClus c f).ctxs = h.ctxs := rfl
@[simp] theorem Hw.modClus_gens (h : Hw) (c : Nat) (f : Clus → Clus) : (h.modClus c f).gens = h.gens := rfl
@[simp] theorem Hw.modClus_cores (h : Hw) (c : Nat) (f : Clus → Clus) : (h.modClus c f).cores = h.cores := rfl
@[simp] theorem Hw.modClus_hbm (h : Hw) (c : Nat) (f : Clus → Clus) : (h.modClus c f).hbm = h.hbm := rfl
@[simp] theorem Hw.modClus_xcl (h : Hw) (c : Nat) (f : Clus → Clus) : (h.modClus c f).xcl = h.xcl := rfl
@[simp] theorem Hw.modClus_links (h : Hw) (c : Nat) (f : Clus → Clus) : (h.modClus c f).links = h.links := rfl
@[simp] theorem Hw.modClus_trainCache (h : Hw) (c : Nat) (f : Clus → Clus) : (h.modClus c f).trainCache = h.trainCache := rfl
@[simp] theorem Hw.modClus_rtr (h : Hw) (c : Nat) (f : Clus → Clus) : (h.modClus c f).rtr = h.rtr := rfl
@[simp] theorem Hw.modClus_cve (h : Hw) (c : Nat) (f : Clus → Clus) : (h.modClus c f).cve = h.cve := rfl
@[simp] theorem Hw.modClus_squall (h : Hw) (c : Nat) (f : Clus → Clus) : (h.modClus c f).squall = h.squall := rfl
@[simp] theorem Hw.modClus_plu (h : Hw) (c : Nat) (f : Clus → Clus) : (h.modClus c f).plu = h.plu := rfl
@[simp] theorem Hw.modClus_doms (h : Hw) (c : Nat) (f : Clus → Clus) : (h.modClus c f).doms = h.doms := rfl
@[simp] theorem Hw.modClus_rdma (h : Hw) (c : Nat) (f : Clus → Clus) : (h.modClus c f).rdma = h.rdma := rfl
@[simp] theorem Hw.modClus_pwr (h : Hw) (c : Nat) (f : Clus → Clus) : (h.modClus c f).pwr = h.pwr := rfl
@[simp] theorem Hw.modClus_thm (h : Hw) (c : Nat) (f : Clus → Clus) : (h.modClus c f).thm = h.thm := rfl
@[simp] theorem Hw.modClus_host (h : Hw) (c : Nat) (f : Clus → Clus) : (h.modClus c f).host = h.host := rfl
@[simp] theorem Hw.modClus_sep (h : Hw) (c : Nat) (f : Clus → Clus) : (h.modClus c f).sep = h.sep := rfl
@[simp] theorem Hw.modClus_fw (h : Hw) (c : Nat) (f : Clus → Clus) : (h.modClus c f).fw = h.fw := rfl
@[simp] theorem Hw.modClus_ccl (h : Hw) (c : Nat) (f : Clus → Clus) : (h.modClus c f).ccl = h.ccl := rfl
@[simp] theorem Hw.modClus_eth (h : Hw) (c : Nat) (f : Clus → Clus) : (h.modClus c f).eth = h.eth := rfl
@[simp] theorem Hw.modClus_cpx (h : Hw) (c : Nat) (f : Clus → Clus) : (h.modClus c f).cpx = h.cpx := rfl
@[simp] theorem Hw.modClus_bring (h : Hw) (c : Nat) (f : Clus → Clus) : (h.modClus c f).bring = h.bring := rfl
@[simp] theorem Hw.modClus_board (h : Hw) (c : Nat) (f : Clus → Clus) : (h.modClus c f).board = h.board := rfl
@[simp] theorem Hw.modClus_nv (h : Hw) (c : Nat) (f : Clus → Clus) : (h.modClus c f).nv = h.nv := rfl
@[simp] theorem Hw.modClus_logs (h : Hw) (c : Nat) (f : Clus → Clus) : (h.modClus c f).logs = h.logs := rfl
@[simp] theorem Hw.modClus_hist (h : Hw) (c : Nat) (f : Clus → Clus) : (h.modClus c f).hist = h.hist := rfl
@[simp] theorem Hw.modClus_out (h : Hw) (c : Nat) (f : Clus → Clus) : (h.modClus c f).out = h.out := rfl

@[simp] theorem Hw.raise_regs (h : Hw) (c : Nat) (d : Cond) (u l i : Nat) : (h.raise c d u l i).regs = h.regs := rfl
@[simp] theorem Hw.raise_tb (h : Hw) (c : Nat) (d : Cond) (u l i : Nat) : (h.raise c d u l i).tb = h.tb := rfl
@[simp] theorem Hw.raise_slew (h : Hw) (c : Nat) (d : Cond) (u l i : Nat) : (h.raise c d u l i).slew = h.slew := rfl
@[simp] theorem Hw.raise_slewNs (h : Hw) (c : Nat) (d : Cond) (u l i : Nat) : (h.raise c d u l i).slewNs = h.slewNs := rfl
@[simp] theorem Hw.raise_free (h : Hw) (c : Nat) (d : Cond) (u l i : Nat) : (h.raise c d u l i).free = h.free := rfl
@[simp] theorem Hw.raise_gens (h : Hw) (c : Nat) (d : Cond) (u l i : Nat) : (h.raise c d u l i).gens = h.gens := rfl
@[simp] theorem Hw.raise_cores (h : Hw) (c : Nat) (d : Cond) (u l i : Nat) : (h.raise c d u l i).cores = h.cores := rfl
@[simp] theorem Hw.raise_clus (h : Hw) (c : Nat) (d : Cond) (u l i : Nat) : (h.raise c d u l i).clus = h.clus := rfl
@[simp] theorem Hw.raise_hbm (h : Hw) (c : Nat) (d : Cond) (u l i : Nat) : (h.raise c d u l i).hbm = h.hbm := rfl
@[simp] theorem Hw.raise_xcl (h : Hw) (c : Nat) (d : Cond) (u l i : Nat) : (h.raise c d u l i).xcl = h.xcl := rfl
@[simp] theorem Hw.raise_links (h : Hw) (c : Nat) (d : Cond) (u l i : Nat) : (h.raise c d u l i).links = h.links := rfl
@[simp] theorem Hw.raise_trainCache (h : Hw) (c : Nat) (d : Cond) (u l i : Nat) : (h.raise c d u l i).trainCache = h.trainCache := rfl
@[simp] theorem Hw.raise_rtr (h : Hw) (c : Nat) (d : Cond) (u l i : Nat) : (h.raise c d u l i).rtr = h.rtr := rfl
@[simp] theorem Hw.raise_cve (h : Hw) (c : Nat) (d : Cond) (u l i : Nat) : (h.raise c d u l i).cve = h.cve := rfl
@[simp] theorem Hw.raise_squall (h : Hw) (c : Nat) (d : Cond) (u l i : Nat) : (h.raise c d u l i).squall = h.squall := rfl
@[simp] theorem Hw.raise_plu (h : Hw) (c : Nat) (d : Cond) (u l i : Nat) : (h.raise c d u l i).plu = h.plu := rfl
@[simp] theorem Hw.raise_doms (h : Hw) (c : Nat) (d : Cond) (u l i : Nat) : (h.raise c d u l i).doms = h.doms := rfl
@[simp] theorem Hw.raise_rdma (h : Hw) (c : Nat) (d : Cond) (u l i : Nat) : (h.raise c d u l i).rdma = h.rdma := rfl
@[simp] theorem Hw.raise_pwr (h : Hw) (c : Nat) (d : Cond) (u l i : Nat) : (h.raise c d u l i).pwr = h.pwr := rfl
@[simp] theorem Hw.raise_thm (h : Hw) (c : Nat) (d : Cond) (u l i : Nat) : (h.raise c d u l i).thm = h.thm := rfl
@[simp] theorem Hw.raise_host (h : Hw) (c : Nat) (d : Cond) (u l i : Nat) : (h.raise c d u l i).host = h.host := rfl
@[simp] theorem Hw.raise_sep (h : Hw) (c : Nat) (d : Cond) (u l i : Nat) : (h.raise c d u l i).sep = h.sep := rfl
@[simp] theorem Hw.raise_fw (h : Hw) (c : Nat) (d : Cond) (u l i : Nat) : (h.raise c d u l i).fw = h.fw := rfl
@[simp] theorem Hw.raise_ccl (h : Hw) (c : Nat) (d : Cond) (u l i : Nat) : (h.raise c d u l i).ccl = h.ccl := rfl
@[simp] theorem Hw.raise_eth (h : Hw) (c : Nat) (d : Cond) (u l i : Nat) : (h.raise c d u l i).eth = h.eth := rfl
@[simp] theorem Hw.raise_cpx (h : Hw) (c : Nat) (d : Cond) (u l i : Nat) : (h.raise c d u l i).cpx = h.cpx := rfl
@[simp] theorem Hw.raise_bring (h : Hw) (c : Nat) (d : Cond) (u l i : Nat) : (h.raise c d u l i).bring = h.bring := rfl
@[simp] theorem Hw.raise_board (h : Hw) (c : Nat) (d : Cond) (u l i : Nat) : (h.raise c d u l i).board = h.board := rfl
@[simp] theorem Hw.raise_nv (h : Hw) (c : Nat) (d : Cond) (u l i : Nat) : (h.raise c d u l i).nv = h.nv := rfl
@[simp] theorem Hw.raise_logs (h : Hw) (c : Nat) (d : Cond) (u l i : Nat) : (h.raise c d u l i).logs = h.logs := rfl
@[simp] theorem Hw.raise_hist (h : Hw) (c : Nat) (d : Cond) (u l i : Nat) : (h.raise c d u l i).hist = h.hist := rfl
@[simp] theorem Hw.raise_out (h : Hw) (c : Nat) (d : Cond) (u l i : Nat) : (h.raise c d u l i).out = h.out := rfl

@[simp] theorem Hw.keepRec_regs (h : Hw) (x : Nat) (hd : Hdr) (o : Nat) (p : List Nat) : (h.keepRec x hd o p).regs = h.regs := rfl
@[simp] theorem Hw.keepRec_tb (h : Hw) (x : Nat) (hd : Hdr) (o : Nat) (p : List Nat) : (h.keepRec x hd o p).tb = h.tb := rfl
@[simp] theorem Hw.keepRec_slew (h : Hw) (x : Nat) (hd : Hdr) (o : Nat) (p : List Nat) : (h.keepRec x hd o p).slew = h.slew := rfl
@[simp] theorem Hw.keepRec_slewNs (h : Hw) (x : Nat) (hd : Hdr) (o : Nat) (p : List Nat) : (h.keepRec x hd o p).slewNs = h.slewNs := rfl
@[simp] theorem Hw.keepRec_free (h : Hw) (x : Nat) (hd : Hdr) (o : Nat) (p : List Nat) : (h.keepRec x hd o p).free = h.free := rfl
@[simp] theorem Hw.keepRec_ctxs (h : Hw) (x : Nat) (hd : Hdr) (o : Nat) (p : List Nat) : (h.keepRec x hd o p).ctxs = h.ctxs := rfl
@[simp] theorem Hw.keepRec_gens (h : Hw) (x : Nat) (hd : Hdr) (o : Nat) (p : List Nat) : (h.keepRec x hd o p).gens = h.gens := rfl
@[simp] theorem Hw.keepRec_cores (h : Hw) (x : Nat) (hd : Hdr) (o : Nat) (p : List Nat) : (h.keepRec x hd o p).cores = h.cores := rfl
@[simp] theorem Hw.keepRec_clus (h : Hw) (x : Nat) (hd : Hdr) (o : Nat) (p : List Nat) : (h.keepRec x hd o p).clus = h.clus := rfl
@[simp] theorem Hw.keepRec_hbm (h : Hw) (x : Nat) (hd : Hdr) (o : Nat) (p : List Nat) : (h.keepRec x hd o p).hbm = h.hbm := rfl
@[simp] theorem Hw.keepRec_xcl (h : Hw) (x : Nat) (hd : Hdr) (o : Nat) (p : List Nat) : (h.keepRec x hd o p).xcl = h.xcl := rfl
@[simp] theorem Hw.keepRec_links (h : Hw) (x : Nat) (hd : Hdr) (o : Nat) (p : List Nat) : (h.keepRec x hd o p).links = h.links := rfl
@[simp] theorem Hw.keepRec_trainCache (h : Hw) (x : Nat) (hd : Hdr) (o : Nat) (p : List Nat) : (h.keepRec x hd o p).trainCache = h.trainCache := rfl
@[simp] theorem Hw.keepRec_rtr (h : Hw) (x : Nat) (hd : Hdr) (o : Nat) (p : List Nat) : (h.keepRec x hd o p).rtr = h.rtr := rfl
@[simp] theorem Hw.keepRec_cve (h : Hw) (x : Nat) (hd : Hdr) (o : Nat) (p : List Nat) : (h.keepRec x hd o p).cve = h.cve := rfl
@[simp] theorem Hw.keepRec_squall (h : Hw) (x : Nat) (hd : Hdr) (o : Nat) (p : List Nat) : (h.keepRec x hd o p).squall = h.squall := rfl
@[simp] theorem Hw.keepRec_plu (h : Hw) (x : Nat) (hd : Hdr) (o : Nat) (p : List Nat) : (h.keepRec x hd o p).plu = h.plu := rfl
@[simp] theorem Hw.keepRec_doms (h : Hw) (x : Nat) (hd : Hdr) (o : Nat) (p : List Nat) : (h.keepRec x hd o p).doms = h.doms := rfl
@[simp] theorem Hw.keepRec_rdma (h : Hw) (x : Nat) (hd : Hdr) (o : Nat) (p : List Nat) : (h.keepRec x hd o p).rdma = h.rdma := rfl
@[simp] theorem Hw.keepRec_pwr (h : Hw) (x : Nat) (hd : Hdr) (o : Nat) (p : List Nat) : (h.keepRec x hd o p).pwr = h.pwr := rfl
@[simp] theorem Hw.keepRec_thm (h : Hw) (x : Nat) (hd : Hdr) (o : Nat) (p : List Nat) : (h.keepRec x hd o p).thm = h.thm := rfl
@[simp] theorem Hw.keepRec_sep (h : Hw) (x : Nat) (hd : Hdr) (o : Nat) (p : List Nat) : (h.keepRec x hd o p).sep = h.sep := rfl
@[simp] theorem Hw.keepRec_fw (h : Hw) (x : Nat) (hd : Hdr) (o : Nat) (p : List Nat) : (h.keepRec x hd o p).fw = h.fw := rfl
@[simp] theorem Hw.keepRec_ccl (h : Hw) (x : Nat) (hd : Hdr) (o : Nat) (p : List Nat) : (h.keepRec x hd o p).ccl = h.ccl := rfl
@[simp] theorem Hw.keepRec_eth (h : Hw) (x : Nat) (hd : Hdr) (o : Nat) (p : List Nat) : (h.keepRec x hd o p).eth = h.eth := rfl
@[simp] theorem Hw.keepRec_cpx (h : Hw) (x : Nat) (hd : Hdr) (o : Nat) (p : List Nat) : (h.keepRec x hd o p).cpx = h.cpx := rfl
@[simp] theorem Hw.keepRec_bring (h : Hw) (x : Nat) (hd : Hdr) (o : Nat) (p : List Nat) : (h.keepRec x hd o p).bring = h.bring := rfl
@[simp] theorem Hw.keepRec_board (h : Hw) (x : Nat) (hd : Hdr) (o : Nat) (p : List Nat) : (h.keepRec x hd o p).board = h.board := rfl
@[simp] theorem Hw.keepRec_nv (h : Hw) (x : Nat) (hd : Hdr) (o : Nat) (p : List Nat) : (h.keepRec x hd o p).nv = h.nv := rfl
@[simp] theorem Hw.keepRec_logs (h : Hw) (x : Nat) (hd : Hdr) (o : Nat) (p : List Nat) : (h.keepRec x hd o p).logs = h.logs := rfl
@[simp] theorem Hw.keepRec_hist (h : Hw) (x : Nat) (hd : Hdr) (o : Nat) (p : List Nat) : (h.keepRec x hd o p).hist = h.hist := rfl
@[simp] theorem Hw.keepRec_out (h : Hw) (x : Nat) (hd : Hdr) (o : Nat) (p : List Nat) : (h.keepRec x hd o p).out = h.out := rfl

/-! ## Frames -/

theorem Hw.Only.refl (ps : List Part) (h : Hw) : h.Only ps h := fun p _ => by cases p <;> rfl

theorem Hw.Only.mono {ps qs : List Part} {h k : Hw} (a : h.Only ps k) (e : ∀ p ∈ ps, p ∈ qs) : h.Only qs k :=
  fun p hp => a p (fun q => hp (e p q))

theorem Part.Same.trans {p : Part} {h k l : Hw} (a : p.Same h k) (b : p.Same k l) : p.Same h l := by
  cases p <;> exact Eq.trans b a

theorem Hw.Only.trans {ps : List Part} {h k l : Hw} (a : h.Only ps k) (b : k.Only ps l) : h.Only ps l :=
  fun p hp => (a p hp).trans (b p hp)

/-- What the registers hold where a frame leaves them alone. -/
theorem Hw.Only.reg {ps : List Part} {h k : Hw} (a : h.Only ps k) (e : Part.regs ∉ ps) (b : Nat) : k.reg b = h.reg b :=
  Hw.reg_of_regs (a .regs e) b
theorem Hw.Only.fld {ps : List Part} {h k : Hw} (a : h.Only ps k) (e : Part.regs ∉ ps) (g : Fld) : k.fld g = h.fld g :=
  Hw.fld_of_regs (a .regs e) g
theorem Hw.Only.flag {ps : List Part} {h k : Hw} (a : h.Only ps k) (e : Part.regs ∉ ps) (g : Fld) : k.flag g = h.flag g :=
  Hw.flag_of_regs (a .regs e) g

theorem Hw.RegsBut.refl (l : List Nat) (h : Hw) : h.RegsBut l h := fun _ _ => rfl
theorem Hw.RegsBut.trans {l : List Nat} {h k m : Hw} (a : h.RegsBut l k) (b : k.RegsBut l m) : h.RegsBut l m :=
  fun q hq => (b q hq).trans (a q hq)
theorem Hw.RegsBut.mono {l m : List Nat} {h k : Hw} (a : h.RegsBut l k) (e : ∀ b ∈ l, b ∈ m) : h.RegsBut m k :=
  fun q hq => a q (fun hl => hq (e q hl))
theorem Hw.RegsBut.of_regs {l : List Nat} {h k : Hw} (e : k.regs = h.regs) : h.RegsBut l k := fun q _ => Hw.reg_of_regs e q
theorem Hw.RegsBut.fld {l : List Nat} {h k : Hw} (a : h.RegsBut l k) {g : Fld} (e : g.addr ∉ l) : k.fld g = h.fld g :=
  Hw.fld_of_reg (a g.addr e)
theorem Hw.RegsBut.flag {l : List Nat} {h k : Hw} (a : h.RegsBut l k) {g : Fld} (e : g.addr ∉ l) : k.flag g = h.flag g :=
  Hw.flag_of_reg (a g.addr e)
theorem Hw.regsBut_setReg {h : Hw} {a : Nat} {v : W32} : h.RegsBut [a] (h.setReg a v) :=
  fun q hq => Hw.reg_setReg_other h v (fun e => hq (by simp [e]))
theorem Hw.regsBut_setFld {h : Hw} {f : Fld} {v : Nat} : h.RegsBut [f.addr] (h.setFld f v) := Hw.regsBut_setReg
theorem Hw.regsBut_setFlag {h : Hw} {f : Fld} {b : Bool} : h.RegsBut [f.addr] (h.setFlag f b) := Hw.regsBut_setReg
theorem Hw.regsBut_satFld {h : Hw} {f : Fld} {n : Nat} : h.RegsBut [f.addr] (h.satFld f n) := Hw.regsBut_setReg
theorem Hw.RegsBut.foldl {α : Type} {l : List Nat} (f : Hw → α → Hw) (xs : List α) (h : Hw)
    (e : ∀ k : Hw, ∀ x ∈ xs, k.RegsBut l (f k x)) : h.RegsBut l (xs.foldl f h) := by
  induction xs generalizing h with
  | nil => exact Hw.RegsBut.refl l h
  | cons x xs ih => exact (e h x (by simp)).trans (ih _ (fun k y hy => e k y (by simp [hy])))

/-- A frame holds of a fold when it holds of each step. -/
theorem Hw.Only.foldl {α : Type} {ps : List Part} (f : Hw → α → Hw) (l : List α) (h : Hw) (e : ∀ k : Hw, ∀ x ∈ l, k.Only ps (f k x)) :
    h.Only ps (l.foldl f h) := by
  induction l generalizing h with
  | nil => exact Hw.Only.refl ps h
  | cons x l ih => exact (e h x (by simp)).trans (ih _ (fun k y hy => e k y (by simp [hy])))

theorem Hw.Only.ite {ps : List Part} {h k l : Hw} {c : Prop} [Decidable c] (a : h.Only ps k) (b : h.Only ps l) :
    h.Only ps (if c then k else l) := by split <;> assumption

theorem Hw.only_setReg {h : Hw} {a : Nat} {v : W32} : h.Only [.regs] (h.setReg a v) := fun p hp => by cases p <;> first | rfl | simp at hp
theorem Hw.only_setFld {h : Hw} {f : Fld} {v : Nat} : h.Only [.regs] (h.setFld f v) := fun p hp => by cases p <;> first | rfl | simp at hp
theorem Hw.only_setFlag {h : Hw} {f : Fld} {b : Bool} : h.Only [.regs] (h.setFlag f b) := fun p hp => by cases p <;> first | rfl | simp at hp
theorem Hw.only_satFld {h : Hw} {f : Fld} {n : Nat} : h.Only [.regs] (h.satFld f n) := fun p hp => by cases p <;> first | rfl | simp at hp
theorem Hw.only_modSession {h : Hw} {i : Nat} {f : Session → Session} : h.Only [.host] (h.modSession i f) := fun p hp => by cases p <;> first | rfl | simp at hp
theorem Hw.only_endSessions {h : Hw} {f : Session → Bool} : h.Only [.host] (h.endSessions f) := fun p hp => by cases p <;> first | rfl | simp at hp
theorem Hw.only_sendEvent {h : Hw} {o c : Nat} {p : List Nat} {b : List Byte} : h.Only [.host, .out] (h.sendEvent o c p b) := fun p hp => by cases p <;> first | rfl | simp at hp
theorem Hw.only_setCtx {h : Hw} {c : Nat} {x : Ctx} : h.Only [.ctxs] (h.setCtx c x) := fun p hp => by cases p <;> first | rfl | simp at hp
theorem Hw.only_modCtx {h : Hw} {c : Nat} {f : Ctx → Ctx} : h.Only [.ctxs] (h.modCtx c f) := fun p hp => by cases p <;> first | rfl | simp at hp
theorem Hw.only_modRun {h : Hw} {c : Nat} {f : CtxRun → CtxRun} : h.Only [.ctxs] (h.modRun c f) := fun p hp => by cases p <;> first | rfl | simp at hp
theorem Hw.only_modClus {h : Hw} {c : Nat} {f : Clus → Clus} : h.Only [.clus] (h.modClus c f) := fun p hp => by cases p <;> first | rfl | simp at hp
theorem Hw.only_raise {h : Hw} {c : Nat} {d : Cond} {u l i : Nat} : h.Only [.ctxs] (h.raise c d u l i) := fun p hp => by cases p <;> first | rfl | simp at hp
theorem Hw.only_keepRec {h : Hw} {x : Nat} {hd : Hdr} {o : Nat} {p : List Nat} : h.Only [.host] (h.keepRec x hd o p) := fun p hp => by cases p <;> first | rfl | simp at hp

/-- The frame of a committed effect that stores nothing and burns nothing. -/
theorem Frame.commit {ps : List Part} {s : State} {e : Eff} (h : s.hw.Only ps e.hw) (he : e.edits = []) (hb : e.burn = []) :
    Frame ps s (s.commit e) := by
  refine ⟨rfl, ?_, ?_, h⟩
  · rw [State.commit_mem, he]; rfl
  · rw [State.commit_fuses, hb]; rfl

/-- The frame of a command that only changes the hardware. -/
theorem Frame.keep {ps : List Part} {s : State} {h : Hw} (a : s.hw.Only ps h) : Frame ps s { s with hw := h } := ⟨rfl, rfl, rfl, a⟩

theorem Hw.only_send {h : Hw} {i : Nat} {u : Bool} {t o c : Nat} {p : List Nat} {b : List Byte} :
    h.Only [.host, .out] (h.send i u t o c p b) := fun q hq => by
  unfold Hw.send; split <;> cases q <;> first | rfl | simp at hq

theorem Hw.only_answer {h : Hw} {hd : Hdr} {o : Nat} {r : Rep} : h.Only [.host, .out] (h.answer hd o r) := Hw.only_send

theorem Hw.only_hostServed {h : Hw} : h.Only [.fw] h.hostServed := fun q hq => by
  unfold Hw.hostServed; split <;> cases q <;> first | rfl | simp at hq

theorem Hw.only_heard {h : Hw} {hd : Hdr} {x : Session} : h.Only [.host, .fw] (h.heard hd x) :=
  (Hw.only_modSession.mono (by simp)).trans (Hw.only_hostServed.mono (by simp))

theorem Hw.only_logSev {h : Hw} {v s k : Nat} {d : List Byte} : h.Only [.regs, .logs, .out, .host] (h.logSev v s k d) := fun q hq => by
  unfold Hw.logSev; dsimp only; split <;> cases q <;> first | rfl | simp at hq

theorem Hw.only_log {h : Hw} {s k w : Nat} {d : List Byte} : h.Only [.regs, .logs, .out, .host] (h.log s k w d) := Hw.only_logSev

theorem Hw.only_logNote {h : Hw} {k w a b : Nat} : h.Only [.regs, .logs, .out, .host] (h.logNote k w a b) := Hw.only_logSev

theorem Hw.only_event {h : Hw} {o c : Nat} {p : List Nat} {b : List Byte} : h.Only [.regs, .logs, .out, .host] (h.event o c p b) :=
  (Hw.only_sendEvent.mono (by simp)).trans Hw.only_log

theorem Hw.only_history {h : Hw} {u e s d j a : Nat} {c m : Bool} :
    h.Only [.regs, .logs, .out, .host, .hist] (h.history u e s d j a c m) := by
  unfold Hw.history
  dsimp only
  have a : ∀ x, h.Only [.regs, .logs, .out, .host, .hist] ({ h with hist := x } : Hw) :=
    fun x q hq => by cases q <;> first | rfl | simp at hq
  exact (((a _).trans (Hw.Only.ite (Hw.only_setFlag.mono (by simp)) (Hw.Only.refl _ _))).trans (Hw.only_setFld.mono (by simp))).trans
    (Hw.only_log.mono (by simp))

theorem Hw.only_suspect {h : Hw} {u e d j a : Nat} : h.Only [.regs, .logs, .out, .host, .hist] (h.suspect u e d j a) :=
  Hw.only_history.trans (fun q hq => by cases q <;> first | rfl | simp at hq)

/-- The fault history after an event is recorded (R389–R392). -/
theorem Hw.hist_history {h : Hw} {u e s d j a : Nat} {c m : Bool} :
    ∃ ents, (h.history u e s d j a c m).hist = { h.hist with
        ents := ⟨h.tb, u, e, s, d, j, min 255 (h.hist.counting h.histNow u + c.toNat), h.histNow, a, c, m⟩ :: ents,
        units := h.hist.units.put u { h.hist.units.getD u {} with state := s, total := satAdd (h.hist.units.getD u {}).total 1 65535 },
        savedHtime := h.histNow } := by
  unfold Hw.history
  dsimp only
  rw [(Hw.only_log : Hw.Only _ _ _) .hist (by simp)]
  rw [Hw.setFld_hist]
  split
  · rw [Hw.setFlag_hist]; exact ⟨_, rfl⟩
  · exact ⟨_, rfl⟩

/-- The state of a unit after an event is recorded: of this one as the entry says, of any other as before. -/
theorem Hw.unitState_history {h : Hw} {u e s d j a : Nat} {c m : Bool} : (h.history u e s d j a c m).unitState u = s := by
  obtain ⟨l, hl⟩ := Hw.hist_history (h := h) (u := u) (e := e) (s := s) (d := d) (j := j) (a := a) (c := c) (m := m)
  rw [Hw.unitState, hl, Tab.getD_put_same]

theorem Hw.unitState_history_other {h : Hw} {u v e s d j a : Nat} {c m : Bool} (n : v ≠ u) :
    (h.history u e s d j a c m).unitState v = h.unitState v := by
  obtain ⟨l, hl⟩ := Hw.hist_history (h := h) (u := u) (e := e) (s := s) (d := d) (j := j) (a := a) (c := c) (m := m)
  rw [Hw.unitState, hl, Tab.getD_put_other _ _ _ n, Hw.unitState]

theorem Hw.only_setErr {h : Hw} {f : Option Fld} : h.Only [.regs] (h.setErr f) := by
  cases f with
  | none => exact Hw.Only.refl _ _
  | some f => exact Hw.only_setFlag

theorem Hw.only_strmFault {h : Hw} {c lc lk s i : Nat} {d : Cond} {eco : Nat} : h.Only [.regs, .ctxs] (h.strmFault c lc lk s i d eco) := by
  unfold Hw.strmFault
  split
  · exact Hw.Only.refl _ _
  · exact ((Hw.only_setErr.mono (by simp)).trans (Hw.only_setErr.mono (by simp))).trans (Hw.only_raise.mono (by simp))

theorem Hw.only_post {h : Hw} {c lc lk s i : Nat} {d : ChanDecl} {t : Nat} : h.Only [.regs, .ctxs] (h.post c lc lk s i d t) := by
  unfold Hw.post
  split
  · exact Hw.Only.refl _ _
  · dsimp only
    split
    · exact Hw.only_strmFault
    · split
      · exact Hw.only_strmFault
      · exact Hw.only_modRun.mono (by simp)

theorem Hw.only_setCtr {h : Hw} {b n v : Nat} : h.Only [.regs] (h.setCtr b n v) := Hw.only_setFld.trans Hw.only_setFld

theorem Hw.only_bump {h : Hw} {b n k : Nat} : h.Only [.regs] (h.bump b n k) := by
  unfold Hw.bump
  dsimp only
  split
  · exact Hw.only_setCtr.trans Hw.only_setCtr
  · exact Hw.only_setCtr

/-- Counting events changes nothing but counter registers. -/
theorem Hw.only_count {h : Hw} {b z : Nat} {f : Bool} {e : Ev} {k : Nat} : h.Only [.regs] (h.count b z f e k) :=
  Hw.Only.foldl _ _ _ (fun h n _ => by split <;> first | exact Hw.only_bump | exact Hw.Only.refl _ _)

theorem Hw.only_moved {h : Hw} {i n : Nat} : h.Only [.ccl] (h.moved i n) := fun q hq => by cases q <;> first | rfl | simp at hq

theorem Hw.only_sectors {h : Hw} {s : Nat} {w : Bool} {n : Nat} : h.Only [.regs, .ccl] (h.sectors s w n) :=
  (Hw.only_count.mono (by simp)).trans (Hw.only_moved.mono (by simp))

theorem Hw.only_finish {h : Hw} {c : Cmd} {st : Nat} {p : List Nat} {b : List Byte} : h.Only [.host, .out] (h.finish c st p b) :=
  Hw.only_send.trans (fun q hq => by cases q <;> first | rfl | simp at hq)

theorem Hw.only_finishAll {h : Hw} {f : Cmd → Bool} {st : Nat} {p : List Nat} {b : List Byte} :
    h.Only [.host, .out] (h.finishAll f st p b) :=
  Hw.Only.foldl _ _ _ (fun _ _ _ => Hw.only_finish)

end Sys2Proof.Machine
end

