-- ==== Sys2Proof/Laws/Exec.lean ====
section
/-!
SUPPORT. What every command can do at most: it commits an effect, so it changes the memories by edits and the fuses by burning, and it
leaves the queue alone.
-/
namespace Sys2Proof.Machine

theorem keep_eq_commit (s : State) (h : Hw) : keep s h = .next (s.commit { hw := h }) := rfl

theorem keep_next {s : State} {h k : Hw} (e : h = k) : keep s h = .next { s with hw := k } := by rw [e]; rfl

theorem done_next {s : State} {e f : Eff} (h : e = f) : done s e = .next (s.commit f) := by rw [h]; rfl

/-- Two effects one after the other are one effect. -/
theorem State.commit_commit (s : State) (e f : Eff) :
    (s.commit e).commit f = s.commit { hw := f.hw, edits := e.edits ++ f.edits, burn := e.burn ++ f.burn } := by
  simp only [State.commit, Mem.edit, Fuses.burn, List.foldl_append]

/-- A packet commits its effect, or waits. -/
theorem unlessCut_commit (c : Instr) {s : State} {r : Res} (h : ∃ e : Eff, r = .next (s.commit e)) :
    ∃ e : Eff, unlessCut c s r = .next (s.commit e) := by
  unfold unlessCut; split
  · exact ⟨_, keep_eq_commit s _⟩
  · exact h

theorem runPacket_commit (s : State) (c : Instr) : ∃ e : Eff, runPacket s c = .next (s.commit e) := by
  cases c <;> first
    | exact ⟨{ hw := s.hw }, rfl⟩
    | exact unlessCut_commit _ ⟨_, rfl⟩
    | exact unlessCut_commit _ ⟨_, keep_eq_commit s _⟩

theorem runWaiting_commit (s : State) (l : List (Instr × Nat)) : ∃ e : Eff, runWaiting s l = s.commit e := by
  induction l generalizing s with
  | nil => exact ⟨{ hw := s.hw }, rfl⟩
  | cons q l ih =>
    obtain ⟨e, he⟩ := runPacket_commit s q.1
    simp only [runWaiting, List.foldl_cons, he] at ih ⊢
    split
    · obtain ⟨f, hf⟩ := ih (s.commit e); exact ⟨_, hf.trans (State.commit_commit s e f)⟩
    · exact ih s

theorem execAuthClaim_commit (hub : Fin 2) (both readable : Bool) (s : State) :
    ∃ e : Eff, execAuthClaim hub both readable s = .next (s.commit e) := by
  simp only [execAuthClaim]
  split
  · obtain ⟨f, hf⟩ := runWaiting_commit (s.commit (claimEff hub both readable s)) s.hw.cpx.rx
    exact ⟨_, congrArg _ (hf.trans (State.commit_commit s _ f))⟩
  · exact ⟨_, rfl⟩

/-- Every command runs to its end and commits one effect. -/
theorem exec_eq_commit (c : Instr) (s : State) : ∃ e : Eff, exec c s = .next (s.commit e) := by
  cases c <;> first
    | exact ⟨_, rfl⟩
    | exact ⟨_, keep_eq_commit s _⟩
    | exact unlessCut_commit _ ⟨_, rfl⟩
    | exact unlessCut_commit _ ⟨_, keep_eq_commit s _⟩
    | exact execAuthClaim_commit _ _ _ s

/-- A package that serves commands is not in a cut, so its packets have their own effect. -/
theorem unlessCut_served (c : Instr) {s : State} (r : Res) (h : s.hw.served = true) : unlessCut c s r = r := by
  simp only [unlessCut, Hw.inCut, Hw.served, Bool.and_eq_true] at *
  simp [h.1.2]

theorem State.commit_memOk {s : State} (e : Eff) (h : s.MemOk) : (s.commit e).MemOk := Mem.wf_edit _ _ h

theorem Fuses.Le.refl (f : Fuses) : f.Le f := fun _ h => h
theorem Fuses.Le.trans {f g h : Fuses} (a : f.Le g) (b : g.Le h) : f.Le h := fun n q => b n (a n q)

theorem mem_foldl_insNat (l k : List Nat) (n : Nat) (h : n ∈ k) : n ∈ l.foldl insNat k := by
  induction l generalizing k with
  | nil => exact h
  | cons a l ih => exact ih _ ((mem_insNat k a).2 (Or.inr h))

/-- Burning leaves no burned fuse clear (R439). -/
theorem Fuses.le_burn (f : Fuses) (l : List Nat) : f.Le (f.burn l) := fun n h => mem_foldl_insNat l f.bits n h

/-- A command that commits no change to the memories leaves every byte of them. -/
theorem Mem.But.refl (l : List (Nat × Nat)) (m : Mem) : m.But l m := fun _ _ => rfl

theorem Mem.But.trans {l : List (Nat × Nat)} {m n o : Mem} (a : m.But l n) (b : n.But l o) : m.But l o :=
  fun q h => (b q h).trans (a q h)

theorem Mem.But.mono {l k : List (Nat × Nat)} {m n : Mem} (a : m.But l n) (e : ∀ r ∈ l, r ∈ k) : m.But k n :=
  fun q h => a q (fun r hr => h r (e r hr))

/-- A store changes the bytes of its own range only. -/
theorem Mem.but_store (m : Mem) (a : Nat) (bs : List Byte) : m.But [(a, bs.length)] (m.edit (storeEdits a bs)) :=
  fun q h => Mem.read_store_out m a bs (h (a, bs.length) (by simp))

/-- Clearing changes the bytes of its own range only. -/
theorem Mem.but_clear (m : Mem) (lo len : Nat) : m.But [(lo, len)] (m.edit [.clear lo len]) :=
  fun _ h => Mem.read_clear_out m (h (lo, len) (by simp))

end Sys2Proof.Machine
end

