-- ==== Sys2Proof/Laws/Host.lean ====
section
/-!
SUPPORT. What every command of the host goes through: an admitted command runs its own effect, and its reply is sent.
-/
namespace Sys2Proof.Machine

@[simp] theorem Hw.modSession_ctxOf (h : Hw) (i : Nat) (f : Session → Session) (a : Nat) : (h.modSession i f).ctxOf a = h.ctxOf a := rfl
@[simp] theorem Hw.modSession_cmds (h : Hw) (i : Nat) (f : Session → Session) : (h.modSession i f).host.cmds = h.host.cmds := rfl
@[simp] theorem Hw.modSession_recs (h : Hw) (i : Nat) (f : Session → Session) : (h.modSession i f).host.recs = h.host.recs := rfl

/-- A search through the sessions after all are changed by a function that keeps their IDs. -/
theorem find?_id_map (l : List Session) (f : Session → Session) (i : Nat) (e : ∀ x, (f x).id = x.id) :
    (l.map f).find? (fun x => x.id == i) = (l.find? (fun x => x.id == i)).map f := by
  rw [List.find?_map]
  congr 1
  congr 1
  funext x
  simp [e]

/-- What is left of the checks for an admitted command: its role, its length and its context (R333, R447). -/
theorem hostCmd_admits {sp : Spec} {hd : Hdr} {s : State} {x : Session} {body : State → Hw → Did} (a : Admits s hd x) :
    hostCmd sp hd s body =
      if !sp.roles.contains x.role then refuse sp hd (s.hw.modSession x.id (fun y => y.accept hd)) stPrivilege
      else if !sp.lenOk then refuse sp hd (s.hw.modSession x.id (fun y => y.accept hd)) stLength
      else if sp.needsCtx && (s.hw.ctxOf hd.ctx.toNat).isNone then refuse sp hd (s.hw.modSession x.id (fun y => y.accept hd)) stHandle
      else runBody sp hd s (s.hw.modSession x.id (fun y => y.accept hd)) body := by
  obtain ⟨a1, a2, a3, a4, a5, a6, a7, a8⟩ := a
  have e1 : (s.hw.host.cmds.any fun c => c.session == hd.session.toNat && c.tag == hd.tag.toNat) = false := by
    simpa using a6
  have e2 : (if hd.retry then s.hw.host.recs.find? (fun r => r.session == hd.session.toNat && r.tag == hd.tag.toNat) else none)
      = none := by
    split
    · rw [List.find?_eq_none]
      intro r hr
      simpa using a7 (by assumption) r hr
    · rfl
  simp only [hostCmd, a1, a2, a3, a4, checked, Hw.modSession_tb, a5, Hw.modSession_cmds, Hw.modSession_recs, Hw.modSession_ctxOf,
    e1, e2, Nat.not_le.2 a8]
  simp

/-- An admitted command whose own conditions hold runs its own effect (R324–R333, R447). -/
theorem hostCmd_admitted {sp : Spec} {hd : Hdr} {s : State} {x : Session} {body : State → Hw → Did} (a : Admits s hd x)
    (hr : sp.roles.contains x.role = true) (hl : sp.lenOk = true) (hc : sp.needsCtx = true → (s.hw.ctxOf hd.ctx.toNat).isSome = true) :
    hostCmd sp hd s body = runBody sp hd s (s.hw.modSession x.id (fun y => y.accept hd)) body := by
  have e3 : (sp.needsCtx && (s.hw.ctxOf hd.ctx.toNat).isNone) = false := by
    cases hn : sp.needsCtx with
    | false => rfl
    | true =>
      have := hc hn
      cases hq : s.hw.ctxOf hd.ctx.toNat <;> simp_all
  rw [hostCmd_admits a, hr, hl, e3]
  simp

/-- A session after one is changed by a function that keeps its ID. -/
theorem Hw.session?_modSession {h : Hw} {i j : Nat} {f : Session → Session} (e : ∀ x, (f x).id = x.id) :
    (h.modSession j f).session? i = (h.session? i).map (fun y => if y.id == j then f y else y) := by
  simp only [Hw.session?, Hw.modSession]
  rw [find?_id_map _ _ _ (fun x => by split <;> simp [e])]

theorem Hw.session?_modSession_same {h : Hw} {i : Nat} {f : Session → Session} (e : ∀ x, (f x).id = x.id) :
    (h.modSession i f).session? i = (h.session? i).map f := by
  rw [Hw.session?_modSession e]
  cases hx : h.session? i with
  | none => rfl
  | some x =>
    have : x.id = i := by simpa using List.find?_some hx
    simp [this]

theorem Hw.session?_id {h : Hw} {i : Nat} {x : Session} (hx : h.session? i = some x) : x.id = i := by
  simpa using List.find?_some hx

/-- The session after a packet of it is sent. -/
theorem Hw.session?_send {h : Hw} {i t o c : Nat} {u : Bool} {p : List Nat} {b : List Byte} :
    (h.send i u t o c p b).session? i = (h.session? i).map (fun y => { y with txSeq := y.txSeq + 1, txCount := y.txCount + 1 }) := by
  unfold Hw.send
  cases hx : h.session? i with
  | none => simp [hx]
  | some x =>
    show (h.modSession i (fun y => { y with txSeq := y.txSeq + 1, txCount := y.txCount + 1 })).session? i = _
    rw [Hw.session?_modSession_same, hx]
    exact fun _ => rfl

theorem Hw.session?_hostServed {h : Hw} {i : Nat} : h.hostServed.session? i = h.session? i := by
  unfold Hw.hostServed; split <;> rfl

theorem Hw.session?_heard {h : Hw} {hd : Hdr} {x : Session} (hx : h.session? hd.session.toNat = some x) :
    (h.heard hd x).session? hd.session.toNat = some (x.accept hd) := by
  rw [Hw.heard, Hw.session?_hostServed, Hw.session?_id hx, Hw.session?_modSession_same, hx]
  · rfl
  · exact fun _ => rfl

/-- No session of an ID is left when those of the ID end. -/
theorem Hw.session?_ended {h : Hw} {i : Nat} : (h.endSessions (fun y => y.id == i)).session? i = none := by
  simp only [Hw.session?, Hw.endSessions, List.find?_eq_none, List.mem_filter]
  rintro x ⟨-, hx⟩
  simpa using hx

/-- What a command's own effect does to what was sent and to a session: it sends more, and the session is still there. -/
def Hw.Talks (i : Nat) (h k : Hw) : Prop := (∃ l, k.out = h.out ++ l) ∧ ((h.session? i).isSome = true → (k.session? i).isSome = true)

theorem Hw.Talks.refl (i : Nat) (h : Hw) : h.Talks i h := ⟨⟨[], by simp⟩, id⟩

theorem Hw.Talks.trans {i : Nat} {h k l : Hw} (a : h.Talks i k) (b : k.Talks i l) : h.Talks i l := by
  obtain ⟨⟨u, hu⟩, a2⟩ := a
  obtain ⟨⟨v, hv⟩, b2⟩ := b
  exact ⟨⟨u ++ v, by rw [hv, hu, List.append_assoc]⟩, fun q => b2 (a2 q)⟩

/-- An effect that touches neither sessions nor outputs. -/
theorem Hw.Talks.of_only {i : Nat} {ps : List Part} {h k : Hw} (a : h.Only ps k) (e1 : Part.host ∉ ps) (e2 : Part.out ∉ ps) :
    h.Talks i k := by
  have b1 : k.host = h.host := a .host e1
  have b2 : k.out = h.out := a .out e2
  exact ⟨⟨[], by simp [b2]⟩, by simp [Hw.session?, b1]⟩

theorem Hw.Talks.foldl {α : Type} {i : Nat} (f : Hw → α → Hw) (l : List α) (h : Hw) (e : ∀ k : Hw, ∀ x ∈ l, k.Talks i (f k x)) :
    h.Talks i (l.foldl f h) := by
  induction l generalizing h with
  | nil => exact Hw.Talks.refl i h
  | cons x l ih => exact (e h x (by simp)).trans (ih _ (fun k y hy => e k y (by simp [hy])))

theorem Hw.talks_modSession {h : Hw} {i j : Nat} {f : Session → Session} (e : ∀ x, (f x).id = x.id) : h.Talks i (h.modSession j f) := by
  refine ⟨⟨[], by simp⟩, ?_⟩
  simp only [Hw.session?, Hw.modSession]
  rw [find?_id_map _ _ _ (fun x => by split <;> simp [e])]
  simp

theorem Hw.talks_sendEvent {h : Hw} {i o c : Nat} {p : List Nat} {b : List Byte} : h.Talks i (h.sendEvent o c p b) := by
  refine ⟨⟨_, rfl⟩, ?_⟩
  simp only [Hw.session?, Hw.sendEvent]
  rw [find?_id_map _ _ _ (fun x => by split <;> rfl)]
  simp

theorem Hw.talks_send {h : Hw} {i j t o c : Nat} {u : Bool} {p : List Nat} {b : List Byte} : h.Talks i (h.send j u t o c p b) := by
  unfold Hw.send
  split
  · exact Hw.Talks.refl i h
  · exact ⟨⟨_, rfl⟩, (Hw.talks_modSession (h := h) (f := fun y => { y with txSeq := y.txSeq + 1, txCount := y.txCount + 1 }) (fun _ => rfl)).2⟩

theorem Hw.talks_logSev {h : Hw} {i v s k : Nat} {d : List Byte} : h.Talks i (h.logSev v s k d) := by
  have a : ∀ g : Hw, g.out = h.out → g.host = h.host → h.Talks i g := fun g e1 e2 =>
    ⟨⟨[], by simp [e1]⟩, by simp [Hw.session?, e2]⟩
  unfold Hw.logSev
  dsimp only
  generalize hg : (if decide (4096 ≤ h.logs.ents.length) = true then h.satFld Fd.CTR_LOG_STATUS.OVERWRITTEN 1 else h) = g
  have h1 : g.out = h.out := by rw [← hg]; split <;> rfl
  have h2 : g.host = h.host := by rw [← hg]; split <;> rfl
  by_cases c : h.fld Fd.CTR_LOG_CTRL.THRESH ≤ v
  · simp only [c, if_true]
    refine ⟨⟨_, by rw [Hw.sendEvent, h1]⟩, ?_⟩
    simp only [Hw.session?, Hw.sendEvent, h2]
    rw [find?_id_map _ _ _ (fun x => by split <;> rfl)]
    simp
  · simp only [c, if_false]
    exact a _ h1 h2

theorem Hw.talks_log {h : Hw} {i s k w : Nat} {d : List Byte} : h.Talks i (h.log s k w d) := Hw.talks_logSev
theorem Hw.talks_logNote {h : Hw} {i k w a b : Nat} : h.Talks i (h.logNote k w a b) := Hw.talks_logSev
theorem Hw.talks_event {h : Hw} {i o c : Nat} {p : List Nat} {b : List Byte} : h.Talks i (h.event o c p b) :=
  Hw.talks_sendEvent.trans Hw.talks_log

theorem Hw.talks_history {h : Hw} {i u e s d j a : Nat} {c m : Bool} : h.Talks i (h.history u e s d j a c m) := by
  unfold Hw.history
  dsimp only
  refine Hw.Talks.trans ?_ Hw.talks_log
  have a : ∀ x, h.Talks i ({ h with hist := x } : Hw) := fun x =>
    Hw.Talks.of_only (ps := [.hist]) (fun q hq => by cases q <;> first | rfl | simp at hq) (by simp) (by simp)
  have b : ∀ (g : Hw) (f : Fld) (v : Nat), g.Talks i (g.setFld f v) := fun g f v => Hw.Talks.of_only Hw.only_setFld (by simp) (by simp)
  exact Hw.Talks.trans (by split; exact (a _).trans (b _ _ _); exact a _) (b _ _ _)

theorem Hw.talks_finish {h : Hw} {i : Nat} {c : Cmd} {st : Nat} {p : List Nat} {b : List Byte} : h.Talks i (h.finish c st p b) :=
  Hw.talks_send.trans ⟨⟨[], by simp [Hw.finish]⟩, fun q => q⟩

theorem Hw.talks_finishAll {h : Hw} {i : Nat} {f : Cmd → Bool} {st : Nat} {p : List Nat} {b : List Byte} :
    h.Talks i (h.finishAll f st p b) := Hw.Talks.foldl _ _ _ (fun _ _ _ => Hw.talks_finish)

theorem Hw.talks_heard {h : Hw} {i : Nat} {hd : Hdr} {x : Session} : h.Talks i (h.heard hd x) :=
  Hw.Talks.trans (k := h.modSession x.id (fun y => y.accept hd)) (Hw.talks_modSession (fun _ => rfl))
    (Hw.Talks.of_only (ps := [.fw]) Hw.only_hostServed (by simp) (by simp))

/-- The copies of a packet are at least one. -/
theorem Hw.copies_pos (h : Hw) : ∃ n, h.copies = n + 1 := by
  unfold Hw.copies; split
  · exact ⟨1, rfl⟩
  · exact ⟨0, rfl⟩

/-- The packet that a reply sends. -/
theorem Hw.out_answer {h : Hw} {hd : Hdr} {o : Nat} {r : Rep} (e : (h.session? hd.session.toNat).isSome = true) :
    ∃ y : YcpOut, y.session = hd.session.toNat ∧ y.unsol = false ∧ y.tag = hd.tag.toNat ∧ y.opcode = o ∧ y.ctx = hd.ctx.toNat ∧
      y.p = r.status :: r.p ∧ y.payload = r.payload ∧ ∃ l, (h.answer hd o r).out = h.out ++ .ycp y :: l := by
  obtain ⟨x, hx⟩ := Option.isSome_iff_exists.1 e
  have hid : x.id = hd.session.toNat := by
    have := List.find?_some hx
    simpa using this
  obtain ⟨n, hn⟩ := h.copies_pos
  refine ⟨x.packet false hd.tag.toNat o hd.ctx.toNat (r.status :: r.p) r.payload, hid, rfl, rfl, rfl, rfl, rfl, rfl,
    List.replicate n (.ycp (x.packet false hd.tag.toNat o hd.ctx.toNat (r.status :: r.p) r.payload)), ?_⟩
  simp [Hw.answer, Hw.send, hx, hn, List.replicate_succ]

/-- A refusal answers its status and changes nothing else (R324). -/
theorem refuse_answered {sp : Spec} {hd : Hdr} {s : State} {x : Session} {st : Nat}
    (hx : s.hw.session? hd.session.toNat = some x) :
    Frame [.host, .out] s (s.commit (refuse sp hd (s.hw.modSession x.id (fun y => y.accept hd)) st)) ∧
      Answered s (s.commit (refuse sp hd (s.hw.modSession x.id (fun y => y.accept hd)) st)) hd sp.opcode [st] [] := by
  constructor
  · exact ⟨rfl, rfl, rfl, (Hw.only_modSession.mono (by simp)).trans Hw.only_answer⟩
  · have t := Hw.talks_modSession (h := s.hw) (i := hd.session.toNat) (j := x.id) (f := fun y => y.accept hd) (fun _ => rfl)
    have hs := t.2 (by rw [hx]; rfl)
    obtain ⟨q, q1, q2, q3, q4, q5, q6, q7, l, hl⟩ := Hw.out_answer (o := sp.opcode) (r := Rep.only st) hs
    exact ⟨q, ⟨[], l, by rw [List.append_nil]; exact hl⟩, q1, q2, q3, q4, q5, q6, q7⟩

/-- The hardware after the reply to a command: an ACCEPTED one is outstanding, any other is kept as a record (R330, R331). -/
def Hw.settled (h : Hw) (sp : Spec) (hd : Hdr) (d : Did) : Hw :=
  if d.rep.status = stAccepted then
    { h with host := { h.host with cmds := h.host.cmds ++
        [(⟨hd.session.toNat, hd.tag.toNat, sp.opcode, hd.ctx.toNat, d.what, d.aux⟩ : Cmd)] } }
  else h.keepRec hd.session.toNat hd sp.opcode (d.rep.status :: d.rep.p)

theorem runBody_eq (sp : Spec) (hd : Hdr) (s : State) (h : Hw) (body : State → Hw → Did) :
    runBody sp hd s h body =
      let d := body s h.hostServed
      let q := d.next ((d.hw.answer hd sp.opcode d.rep).settled sp hd d)
      { hw := q.1, edits := d.edits ++ q.2, burn := d.burn } := rfl

/-- What an admitted command whose own conditions hold does, from the state that has heard its packet. -/
theorem hostCmd_run {sp : Spec} {hd : Hdr} {s : State} {x : Session} {body : State → Hw → Did} (a : Admits s hd x)
    (hr : sp.roles.contains x.role = true) (hl : sp.lenOk = true) (hc : sp.needsCtx = true → (s.hw.ctxOf hd.ctx.toNat).isSome = true) :
    hostCmd sp hd s body =
      { hw := ((body s (s.hw.heard hd x)).next (((body s (s.hw.heard hd x)).hw.answer hd sp.opcode
            (body s (s.hw.heard hd x)).rep).settled sp hd (body s (s.hw.heard hd x)))).1,
        edits := (body s (s.hw.heard hd x)).edits ++ ((body s (s.hw.heard hd x)).next (((body s (s.hw.heard hd x)).hw.answer hd sp.opcode
            (body s (s.hw.heard hd x)).rep).settled sp hd (body s (s.hw.heard hd x)))).2,
        burn := (body s (s.hw.heard hd x)).burn } := by
  rw [hostCmd_admitted a hr hl hc, runBody_eq]; rfl

theorem Hw.session?_settled {h : Hw} {sp : Spec} {hd : Hdr} {d : Did} {i : Nat} : (h.settled sp hd d).session? i = h.session? i := by
  unfold Hw.settled; split <;> rfl

theorem Hw.only_settled {h : Hw} {sp : Spec} {hd : Hdr} {d : Did} : h.Only [.host] (h.settled sp hd d) := fun q hq => by
  unfold Hw.settled; split <;> cases q <;> first | rfl | simp at hq

theorem Hw.talks_settled {h : Hw} {i : Nat} {sp : Spec} {hd : Hdr} {d : Did} : h.Talks i (h.settled sp hd d) := by
  unfold Hw.settled; split <;> exact ⟨⟨[], by simp⟩, fun q => q⟩

theorem Admits.session {s : State} {hd : Hdr} {x : Session} (a : Admits s hd x) : (s.hw.session? hd.session.toNat).isSome = true := by
  rw [a.2.1]; rfl

/-- An admitted command whose effect only sends more is answered as its effect says. -/
theorem hostCmd_answered {sp : Spec} {hd : Hdr} {s : State} {x : Session} {body : State → Hw → Did} (a : Admits s hd x)
    (hr : sp.roles.contains x.role = true) (hl : sp.lenOk = true) (hc : sp.needsCtx = true → (s.hw.ctxOf hd.ctx.toNat).isSome = true)
    (ht : (s.hw.heard hd x).Talks hd.session.toNat (body s (s.hw.heard hd x)).hw)
    (hn : ∀ k, ∃ l, ((body s (s.hw.heard hd x)).next k).1.out = k.out ++ l) :
    Answered s (s.commit (hostCmd sp hd s body)) hd sp.opcode
      ((body s (s.hw.heard hd x)).rep.status :: (body s (s.hw.heard hd x)).rep.p) (body s (s.hw.heard hd x)).rep.payload := by
  rw [hostCmd_run a hr hl hc]
  generalize body s (s.hw.heard hd x) = d at *
  have t := Hw.talks_heard.trans ht
  have hs := t.2 a.session
  obtain ⟨⟨l0, e0⟩, -⟩ := t
  obtain ⟨y, y1, y2, y3, y4, y5, y6, y7, l1, e1⟩ := Hw.out_answer (o := sp.opcode) (r := d.rep) hs
  obtain ⟨⟨l2, e2⟩, -⟩ := Hw.talks_settled (h := d.hw.answer hd sp.opcode d.rep) (i := 0) (sp := sp) (hd := hd) (d := d)
  obtain ⟨l3, e3⟩ := hn ((d.hw.answer hd sp.opcode d.rep).settled sp hd d)
  exact ⟨y, ⟨l0, l1 ++ l2 ++ l3, by
    show ((d.next _).1).out = _
    rw [e3, e2, e1, e0]; simp⟩, y1, y2, y3, y4, y5, y6, y7⟩

/-- An admitted command that is ACCEPTED is outstanding after its reply. -/
theorem hostCmd_outstanding {sp : Spec} {hd : Hdr} {s : State} {x : Session} {body : State → Hw → Did} (a : Admits s hd x)
    (hr : sp.roles.contains x.role = true) (hl : sp.lenOk = true) (hc : sp.needsCtx = true → (s.hw.ctxOf hd.ctx.toNat).isSome = true)
    (ha : (body s (s.hw.heard hd x)).rep.status = stAccepted)
    (hn : ∀ k, ((body s (s.hw.heard hd x)).next k).1.host.cmds = k.host.cmds) :
    Outstanding (s.commit (hostCmd sp hd s body)) hd sp.opcode := by
  rw [hostCmd_run a hr hl hc]
  generalize body s (s.hw.heard hd x) = d at *
  refine ⟨⟨hd.session.toNat, hd.tag.toNat, sp.opcode, hd.ctx.toNat, d.what, d.aux⟩, ?_, rfl, rfl, rfl, rfl⟩
  show _ ∈ ((d.next _).1).host.cmds
  rw [hn]
  simp [Hw.settled, ha]

/-- The frame of an admitted command whose effect stores nothing and burns nothing. -/
theorem hostCmd_frame {sp : Spec} {hd : Hdr} {s : State} {x : Session} {body : State → Hw → Did} {ps : List Part} (a : Admits s hd x)
    (hr : sp.roles.contains x.role = true) (hl : sp.lenOk = true) (hc : sp.needsCtx = true → (s.hw.ctxOf hd.ctx.toNat).isSome = true)
    (hp : ∀ p ∈ [Part.host, .fw, .out], p ∈ ps) (ho : (s.hw.heard hd x).Only ps (body s (s.hw.heard hd x)).hw)
    (hn : ∀ k, k.Only ps ((body s (s.hw.heard hd x)).next k).1 ∧ ((body s (s.hw.heard hd x)).next k).2 = [])
    (he : (body s (s.hw.heard hd x)).edits = []) (hb : (body s (s.hw.heard hd x)).burn = []) :
    Frame ps s (s.commit (hostCmd sp hd s body)) := by
  rw [hostCmd_run a hr hl hc]
  generalize hd0 : body s (s.hw.heard hd x) = d at *
  refine ⟨rfl, ?_, ?_, ?_⟩
  · simp [he, (hn _).2]
  · simp [hb]
  · have h1 : ∀ p ∈ [Part.host, .fw], p ∈ ps := fun p hq => hp p (by simp at hq ⊢; tauto)
    have h2 : ∀ p ∈ [Part.host, .out], p ∈ ps := fun p hq => hp p (by simp at hq ⊢; tauto)
    have h3 : ∀ p ∈ [Part.host], p ∈ ps := fun p hq => hp p (by simp at hq ⊢; tauto)
    exact ((((Hw.only_heard.mono h1).trans ho).trans (Hw.only_answer.mono h2)).trans (Hw.only_settled.mono h3)).trans (hn _).1

/-- An admitted command whose effect is only to answer (a read). -/
theorem hostCmd_reads {sp : Spec} {hd : Hdr} {s : State} {x : Session} {body : State → Hw → Did} {r : Rep} (a : Admits s hd x)
    (hr : sp.roles.contains x.role = true) (hl : sp.lenOk = true) (hc : sp.needsCtx = true → (s.hw.ctxOf hd.ctx.toNat).isSome = true)
    (hb : body s (s.hw.heard hd x) = { hw := s.hw.heard hd x, rep := r }) :
    Frame [.host, .fw, .out] s (s.commit (hostCmd sp hd s body)) ∧
      Answered s (s.commit (hostCmd sp hd s body)) hd sp.opcode (r.status :: r.p) r.payload := by
  constructor
  · exact hostCmd_frame a hr hl hc (fun _ h => h) (by rw [hb]; exact Hw.Only.refl _ _)
      (fun k => by rw [hb]; exact ⟨Hw.Only.refl _ _, rfl⟩) (by rw [hb]) (by rw [hb])
  · have := hostCmd_answered (body := body) a hr hl hc (by rw [hb]; exact Hw.Talks.refl _ _) (fun k => by rw [hb]; exact ⟨[], by simp⟩)
    rwa [hb] at this

/-- Every command of the host waits during a cut, and otherwise goes through the same checks, with its own opcode, roles and context
rule. -/
theorem exec_host {c : Instr} {r : HostRow} (h : hostRow c = some r) (s : State) :
    ∃ (sp : Spec) (body : State → Hw → Did), exec c s = unlessCut c s (done s (hostCmd sp r.hd s body)) ∧ sp.opcode = r.opcode ∧
      sp.roles = rolesOf r.opcode ∧ sp.needsCtx = r.ctx := by
  cases c <;> first
    | (simp only [hostRow, reduceCtorEq] at h; done)
    | (simp only [hostRow, Option.some.injEq] at h; subst h; exact ⟨_, _, rfl, rfl, rfl, rfl⟩)

/-- A command of the host that a package takes while it serves commands. -/
theorem exec_host_served {c : Instr} {r : HostRow} (h : hostRow c = some r) {s : State} (v : s.hw.served = true) :
    ∃ (sp : Spec) (body : State → Hw → Did), exec c s = done s (hostCmd sp r.hd s body) ∧ sp.opcode = r.opcode ∧
      sp.roles = rolesOf r.opcode ∧ sp.needsCtx = r.ctx := by
  obtain ⟨sp, body, e, rest⟩ := exec_host h s
  exact ⟨sp, body, e.trans (unlessCut_served c _ v), rest⟩

/-- The new holder runs a waiting packet as the command that it is (R347). -/
theorem runPacket_host {c : Instr} {r : HostRow} (h : hostRow c = some r) (s : State) : runPacket s c = exec c s := by
  cases c <;> first
    | (simp only [hostRow, reduceCtorEq] at h; done)
    | rfl

end Sys2Proof.Machine
end

