-- ==== Sys2Proof/WellFormed.lean ====
section
/-!
DEFINITION. Which commands the outside world can send: the bounds that the types of Syntax do not carry, from the packet formats
(R316, R319, R322), the codewords (R243) and the numbers of units (R13–R19).
-/
namespace Sys2Proof

/-- A host's address: an IP address of at most 128 bits, a UDP port. -/
def Peer.wf (p : Peer) : Bool := decide (p.ip < 2 ^ 128) && decide (p.udp < 65536)

/-- The header of a YCP packet. -/
def Hdr.wf (h : Hdr) : Bool := h.peer.wf

/-- What the check bits find lies in the machine's memory. -/
def Seen.wf (s : Seen) : Bool := (s.ue ++ s.ce ++ s.ode).all (fun a => decide (a < 2 ^ 48))

/-- Errors hit accumulators that an MXE has (R66, R72). -/
def AbftIn.wf (a : AbftIn) : Bool := (a.flips ++ a.flips2).all (fun e => decide (e.1 < 8384))

/-- A hub has at most 96 reduction-memory slots (R299). -/
def StageIn.wf (r : StageIn) : Bool := decide (r.slots.length ≤ 2) && r.slots.all (fun n => decide (n ≤ 96))

/-- A die has two diodes in each cluster, and eight sensors (R409). -/
def SensorIn.wf (r : SensorIn) : Bool := r.diodes.length == 16 && r.dies.length == 8 && r.power.length == 8

/-- Whether a command is well formed. -/
def Instr.wf : Instr → Bool
  | .nop _ => true
  | .loop _ => true
  | .endloop _ => true
  | .bar _ sn => sn.wf
  | .migrationPageDone _ sn => sn.wf
  | .barrierRelease _ => true
  | .halt _ => true
  | .ctrrd _ sn => sn.wf
  | .setfmt _ => true
  | .loadb _ => true
  | .loadbStagingDone _ => true
  | .mma _ sn => sn.wf
  | .mmaz _ sn => sn.wf
  | .drain _ sn ab => sn.wf && ab.wf
  | .chkrd _ sn => sn.wf
  | .vadd _ sn => sn.wf
  | .vsub _ sn => sn.wf
  | .vmul _ sn => sn.wf
  | .vfma _ sn => sn.wf
  | .vmax _ sn => sn.wf
  | .vmin _ sn => sn.wf
  | .vabs _ sn => sn.wf
  | .vneg _ sn => sn.wf
  | .vmov _ sn => sn.wf
  | .vscl _ sn => sn.wf
  | .vcmp _ sn => sn.wf
  | .vsel _ sn => sn.wf
  | .vred _ sn => sn.wf
  | .vexp _ sn => sn.wf
  | .vrcp _ sn => sn.wf
  | .vrsq _ sn => sn.wf
  | .vcvt _ sn => sn.wf
  | .vsmx _ sn => sn.wf
  | .vrope _ sn => sn.wf
  | .vgather _ sn => sn.wf
  | .move _ sn => sn.wf
  | .fill _ sn => sn.wf
  | .movepg _ sn => sn.wf
  | .tpost _ => true
  | .tokenArrival _ => true
  | .coll _ sn => sn.wf
  | .instructionStart _ => true
  | .instructionRetire _ => true
  | .streamWatchdogExpiry _ => true
  | .translationWalk _ _ _ _ sn => sn.wf
  | .contextFault _ _ => true
  | .squallPass => true
  | .squallReceive => true
  | .domainDrainDone _ => true
  | .drainTimeout _ _ => true
  | .unitCheck _ _ => true
  | .regionTestStart _ sn => sn.wf
  | .regionTestPromote _ => true
  | .regionTestUnlock _ _ => true
  | .hbmTempPoll _ _ => true
  | .patrolScrub _ _ => true
  | .ecsRead _ _ => true
  | .tamperEvent _ _ => true
  | .wipeRequest _ => true
  | .losAssert _ _ _ => true
  | .losClear _ _ _ => true
  | .lolAssert _ _ => true
  | .lolClear _ _ => true
  | .codewordReceive _ _ wrong ctl blocks badHeads => decide (wrong ≤ 544) && decide (ctl < 2 ^ 58) && blocks.length == 77 && blocks.all (fun b => decide (b < 2 ^ 66)) && badHeads.all (fun i => decide (i < 77))
  | .identReceive _ => true
  | .identSend _ => true
  | .trainingStepDone _ res => res.length == 8
  | .trainingTimeout _ => true
  | .fecWindow _ => true
  | .eyeScanStart _ _ _ => true
  | .eyeScanDone _ _ errors => decide (errors < 2 ^ 32)
  | .retrain _ => true
  | .linkEnable _ _ => true
  | .packetReceive _ => true
  | .packetTransmit _ => true
  | .replayTimeout _ => true
  | .nakRepeat _ => true
  | .xtagTimeout _ => true
  | .timeSend _ => true
  | .timeReceive => true
  | .congestionWindow => true
  | .fabricDrained => true
  | .collAdmit _ sn => sn.wf
  | .announceReceive => true
  | .refuseReceive => true
  | .announceRepeat _ _ => true
  | .earlyTimeout _ => true
  | .collAdmitTimeout _ _ => true
  | .segmentTransmit _ sn => sn.wf
  | .reduceSegment _ sn => sn.wf
  | .collDataReceive sn => sn.wf
  | .crcSegmentReceive sn => sn.wf
  | .digestReceive sn => sn.wf
  | .collCreditReceive => true
  | .gustReceive sn => sn.wf
  | .hello hd _ payload => hd.wf && decide (payload.length ≤ 8192)
  | .sessionOpen hd _ payload => hd.wf && decide (payload.length ≤ 8192)
  | .sessionClose hd len => hd.wf && decide (len ≤ 8192)
  | .echo hd p payload => hd.wf && p.length == 6 && decide (payload.length ≤ 8192)
  | .rekey hd payload => hd.wf && decide (payload.length ≤ 8192)
  | .regRead hd len _ => hd.wf && decide (len ≤ 8192)
  | .regWrite hd len _ _ => hd.wf && decide (len ≤ 8192)
  | .regRmw hd len _ _ _ => hd.wf && decide (len ≤ 8192)
  | .regReadBlock hd len _ _ => hd.wf && decide (len ≤ 8192)
  | .registerWrite _ _ => true
  | .readCapture _ _ => true
  | .bringupStep hd len _ _ => hd.wf && decide (len ≤ 8192)
  | .bringupGo _ => true
  | .bringupStatus hd len => hd.wf && decide (len ≤ 8192)
  | .stageEnd r => r.wf
  | .stageTimeout _ => true
  | .resetDomainCore hd len _ => hd.wf && decide (len ≤ 8192)
  | .resetDomainCluster hd len _ => hd.wf && decide (len ≤ 8192)
  | .resetDomainPartition hd len _ => hd.wf && decide (len ≤ 8192)
  | .resetDomainPackage hd len _ => hd.wf && decide (len ≤ 8192)
  | .resetEnd _ _ _ => true
  | .renewalResumeTimeout => true
  | .trainingSave hd len _ _ => hd.wf && decide (len ≤ 8192)
  | .ctxCreate hd len _ _ _ _ => hd.wf && decide (len ≤ 8192)
  | .imageLoad hd _ _ _ payload => hd.wf && decide (payload.length ≤ 8192)
  | .placementBind => true
  | .ctxStart hd len sn => hd.wf && decide (len ≤ 8192) && sn.wf
  | .ctxStop hd len => hd.wf && decide (len ≤ 8192)
  | .ctxAbort hd len _ => hd.wf && decide (len ≤ 8192)
  | .ctxQuery hd len _ => hd.wf && decide (len ≤ 8192)
  | .placementQuery hd len _ _ _ => hd.wf && decide (len ≤ 8192)
  | .pinRecord hd len _ => hd.wf && decide (len ≤ 8192)
  | .pinBind hd len _ => hd.wf && decide (len ≤ 8192)
  | .pinClear hd len _ => hd.wf && decide (len ≤ 8192)
  | .memWrite hd _ _ _ payload sn => hd.wf && decide (payload.length ≤ 8192) && sn.wf
  | .memRead hd len _ _ _ _ sn => hd.wf && decide (len ≤ 8192) && sn.wf
  | .memFill hd len _ _ _ _ _ _ sn => hd.wf && decide (len ≤ 8192) && sn.wf
  | .qpOpen hd _ _ _ payload => hd.wf && decide (payload.length ≤ 8192)
  | .mrBind hd len _ _ _ _ => hd.wf && decide (len ≤ 8192)
  | .ringBind hd len _ _ _ _ => hd.wf && decide (len ≤ 8192)
  | .qpClose hd len _ => hd.wf && decide (len ≤ 8192)
  | .mrUnbind hd len _ => hd.wf && decide (len ≤ 8192)
  | .rdmaSend _ _ _ body sn => decide (body.length ≤ 4096) && sn.wf
  | .rdmaWrite _ _ _ _ _ body sn => decide (body.length ≤ 4096) && sn.wf
  | .rdmaRead _ _ _ _ _ _ sn => sn.wf
  | .rdmaInvalidRequest _ _ _ => true
  | .ceMarkedPacket _ _ => true
  | .groupSet hd _ payload => hd.wf && decide (payload.length ≤ 8192)
  | .groupClear hd len _ => hd.wf && decide (len ≤ 8192)
  | .fabricQuiesceStart hd len => hd.wf && decide (len ≤ 8192)
  | .fabricQuiesceResume hd len => hd.wf && decide (len ≤ 8192)
  | .routeWrite hd _ payload => hd.wf && decide (payload.length ≤ 8192)
  | .routeEntryWrite _ _ => true
  | .congestionRead hd len _ => hd.wf && decide (len ≤ 8192)
  | .linkStateRead hd len _ => hd.wf && decide (len ≤ 8192)
  | .linkStateEnable hd len _ => hd.wf && decide (len ≤ 8192)
  | .linkStateDisable hd len _ => hd.wf && decide (len ≤ 8192)
  | .linkStateRetrain hd len _ => hd.wf && decide (len ≤ 8192)
  | .linkStateSetDead hd len _ => hd.wf && decide (len ≤ 8192)
  | .powerCapSet hd len _ => hd.wf && decide (len ≤ 8192)
  | .paceSet hd len _ _ => hd.wf && decide (len ≤ 8192)
  | .paceModeFree hd len _ => hd.wf && decide (len ≤ 8192)
  | .paceModeFixed hd len _ => hd.wf && decide (len ≤ 8192)
  | .paceAgreementStart hd len _ => hd.wf && decide (len ≤ 8192)
  | .paceAgreementStop hd len _ => hd.wf && decide (len ≤ 8192)
  | .foehnSet hd len _ _ => hd.wf && decide (len ≤ 8192)
  | .thermalQuery hd len => hd.wf && decide (len ≤ 8192)
  | .mainPowerOff hd len => hd.wf && decide (len ≤ 8192)
  | .mainPowerRelease hd len => hd.wf && decide (len ≤ 8192)
  | .setWindow hd len _ => hd.wf && decide (len ≤ 8192)
  | .applyCounterConfig hd payload => hd.wf && decide (payload.length ≤ 8192)
  | .clearBanks hd len => hd.wf && decide (len ≤ 8192)
  | .counterCfgWrite _ _ => true
  | .counterSnapshot hd len _ _ _ _ => hd.wf && decide (len ≤ 8192)
  | .sampleConfig hd len _ _ _ => hd.wf && decide (len ≤ 8192)
  | .logRead hd len _ _ _ _ => hd.wf && decide (len ≤ 8192)
  | .attestReport hd nonce => hd.wf && decide (nonce.length ≤ 8192)
  | .lifecycleSet hd _ payload => hd.wf && decide (payload.length ≤ 8192)
  | .fwDeltaBegin hd len _ _ => hd.wf && decide (len ≤ 8192)
  | .fwDeltaData hd _ _ payload _ => hd.wf && decide (payload.length ≤ 8192)
  | .setRelayChain hd len _ _ => hd.wf && decide (len ≤ 8192)
  | .startForwarding hd len => hd.wf && decide (len ≤ 8192)
  | .stopForwarding hd len => hd.wf && decide (len ≤ 8192)
  | .fwActivate hd len _ => hd.wf && decide (len ≤ 8192)
  | .fwStatus hd len => hd.wf && decide (len ≤ 8192)
  | .cpxStatus hd len => hd.wf && decide (len ≤ 8192)
  | .cpxHandover hd len => hd.wf && decide (len ≤ 8192)
  | .cpxPrefer hd len _ => hd.wf && decide (len ≤ 8192)
  | .ycpDrop peer bytes => peer.wf && decide (bytes.length ≤ 9000)
  | .sessionOpenTimeout _ => true
  | .rekeyLimit _ => true
  | .rekeyCloseTimeout _ => true
  | .oldKeyExpiry _ => true
  | .ptpSync _ _ _ _ => true
  | .ptpFollowUp _ _ _ _ => true
  | .ptpDelayResp _ _ _ _ => true
  | .ptpAnnounce _ _ _ _ => true
  | .ptpSourceLoss => true
  | .arp _ src _ => src.wf
  | .icmpEcho _ src _ _ body => src.wf && decide (body.length ≤ 9000)
  | .neighbourDiscovery _ src _ _ => src.wf
  | .pfcPause _ _ _ => true
  | .frameDrop _ => true
  | .timeSourceSelect _ => true
  | .partitionWrite _ _ _ => true
  | .installationMapWrite _ _ => true
  | .clearUnit _ => true
  | .keyCommit _ => true
  | .keyRemove _ => true
  | .serviceEnWrite _ => true
  | .tripClear => true
  | .authRenew _ => true
  | .authTimeout => true
  | .authClaim _ _ _ => true
  | .degradationTrigger _ => true
  | .selfCheck _ => true
  | .standbyBootDone => true
  | .handoverCut => true
  | .handoverAbandon _ => true
  | .mirrorWriteFail => true
  | .mirrorRecovery => true
  | .revertRequest => true
  | .auxPwrokRise _ _ _ => true
  | .auxPwrokFall => true
  | .mainPwrokRise => true
  | .hbmPwrokRise => true
  | .pwrokFall _ => true
  | .pkgResetN => true
  | .powerSample _ => true
  | .coordinatorTick _ _ => true
  | .sensorSample _ r => r.wf
  | .paceGateTimeout => true
  | .gateSafePaceEnd => true
  | .flowEstimate _ _ _ _ => true
  | .inletWarning => true
  | .foehnControl => true
  | .canaryRead _ _ => true
  | .paceRoundStart _ => true
  | .paceReceive => true
  | .agreeLost _ => true
  | .thermalCycleSample _ => true
  | .cclWindowEnd _ _ ep br => ep.length == 16 && br.length == 28
  | .historyTimeSave => true
  | .relayReceive => true
  | .relayAckReceive => true
  | .relayResend => true
  | .bundleReconstructed _ _ => true
  | .confirmation => true
  | .trialFallBack _ => true
  | .microcodeBroadcast _ miss => decide (miss.length ≤ 72)
  | .microcodeBankSwitch _ => true
  | .microcode _ _ => true
  | .trigIoEdge => true
  | .refclkLoss _ => true
  | .leakLoopMeasure _ => true
  | .platformEventRepeat => true
  | .entdaa _ => true
  | .setnewda _ => true
  | .rstdaa => true
  | .getpid => true
  | .getbcr => true
  | .getdcr => true
  | .getstatus => true
  | .enec _ => true
  | .disec _ => true
  | .setmwl _ => true
  | .setmrl _ => true
  | .getmwl => true
  | .getmrl => true
  | .i3cUnsupported => true
  | .setEndpointId _ _ _ => true
  | .getEndpointId _ => true
  | .getMctpVersionSupport _ _ => true
  | .getMessageTypeSupport _ => true
  | .getEndpointUuid _ => true
  | .mctpDrop _ => true
  | .getTid _ => true
  | .setTid _ _ => true
  | .getPldmVersion _ _ => true
  | .getPldmTypes _ => true
  | .getPldmCommands _ _ => true
  | .setEventReceiver _ _ _ => true
  | .getSensorReading _ _ => true
  | .getStateSensorReadings _ _ => true
  | .setNumericEffecterValue _ _ _ => true
  | .getNumericEffecterValue _ _ => true
  | .setStateEffecterStates _ _ _ => true
  | .getStateEffecterStates _ _ => true
  | .getPdrRepositoryInfo _ => true
  | .getPdr _ _ _ _ => true
  | .errorUnsupportedPldmCmd _ _ _ => true
  | .codewordTransmit _ => true
  | .epLinkDown _ => true
  | .epLinkUp _ => true
  | .pkgResetNRelease => true
  | .complexSelfTestEnd _ _ => true
  | .bootClaimTimeout => true
  | .droopDetect _ => true
  | .droopRecovery _ => true
  | .refclkReturn _ => true
  | .platformEventAck _ => true
  | .historyEventExpiry => true

end Sys2Proof
end

