-- ==== Sys2Proof/Tests/Slice0.lean ====
section
/-!
SUPPORT. The model's own tests: ill-formed commands that the check refuses, a state that meets the hypotheses of each statement, and
single commands with results from the spec.
-/
set_option Elab.async false
namespace Sys2Proof.Tests
open Sys2Proof Sys2Proof.Machine

/-- A served package: auxiliary power, AUTH held, bring-up past S0. -/
def hw0 : Hw := ((({} : Hw).setFlag Fd.PKG_BOARD_STATUS.AUX_PWROK true).setFlag Fd.CPX_AUTH.HELD true).setFld Fd.HUB_BRINGUP_STATUS.STAGE 10

/-- An opened session, and the header of a command in it. -/
def sess : Session := { id := 1, opened := true, role := .oper }
def hdr : Hdr := { peer := ⟨0, 0, 0⟩, session := 1, seq := 1, tag := 7, ctx := 0xFFFF, dual := false, retry := false }

/-- A served package with these sessions. -/
def withSessions (l : List Session) : State := { hw := { hw0 with host := { sessions := l } } }

/-- A served package with one opened session. -/
def live : State := withSessions [sess]

/-- A served package with die 7 powered and one opened session. -/
def powered : State := { live with hw := { live.hw with tb := 20000000, plu := { live.hw.plu with diesUp := [7] } } }

/-- A context of job 9 on cluster 56 of die 7, its logical core 0 on core 504, with an image and a program's state. -/
def ctxOn (st : CtxState) (img : Image) (run : CtxRun) : Ctx :=
  { host := { gen := 1, job := 9, part := 0, countersUser := true, stallMs := 10, seed := 0, st := st, image := some img,
              place := some ⟨[(0, 56)], [(0, 504)], [], [], 0, false, 0⟩ },
    run := run }

/-- `powered` with such a context as context 0. -/
def running (img : Image) (run : CtxRun) : State :=
  { powered with hw := { powered.hw with ctxs := [(0, ctxOn .running img run)] } }

/-- Link 3 in a state, with this link record. -/
def onLink (st : Nat) (l : Link) : Hw := { (({} : Hw).setFld (Fd.FL_STATE.STATE 3) st) with links := [(3, l)], tb := 2000000000 }

/-- Stream `s` of logical core 0 of context 0, and an instruction of it in progress. -/
def strmAt (s : Fin 5) : StreamRef := { ctx := ⟨0, by decide⟩, lc := ⟨0, by decide⟩, lk := ⟨0, by decide⟩, strm := s }
def infl : Infl :=
  { idx := 0, iters := [], startTb := 0, startSteps := 0, waitNs := 0, mStart := 0, mRetire := 0, src := [], dst := [], done := false, coll := none }

/-- `running`, with an instruction of this word in progress on stream `s`, and its effect still to happen. -/
def working (s : Fin 5) (word : Nat) (img : Image) : State :=
  running { img with streams := [(s.val, [word])] } { streams := [(s.val, { inflight := [infl] })] }

/-- An image with one descriptor table for that core, its streams reading and writing scratchpad region 0. -/
def imageOf (ds : List Desc) : Image := { Image.empty with descs := [(0, ds)], regions := [⟨1, 0, 0, 0, 3, 0, 0, 0, 65536, []⟩] }

/-- A descriptor of scratchpad byte `a`, and one of a plain value. -/
def spadAt (a : Int) : Desc := ⟨1, 0, 0, 0, a, 0, []⟩
def valueOf (a : Int) : Desc := ⟨0, 0, 0, 0, a, 0, []⟩

/-- A 4-byte RELAY packet from package 1 to package `dst` with this LSEQ. -/
def pkt (dst lseq : Nat) : Packet :=
  { dst := dst, src := 1, tc := 2, vc := 0, ptype := 0x20, hops := 3, lseq := lseq, xtag := 0, tspec := 0, payload := [1, 2, 3, 4] }
/-! ## The block as a whole -/

theorem wit_front : ({ powered with pending := [.mirrorRecovery, .mirrorRecovery] } : State).pending =
    .mirrorRecovery :: [.mirrorRecovery] := rfl
theorem wit_idle : powered.pending = [] ∧ powered.hw.flag Fd.PKG_BOARD_STATUS.AUX_PWROK = true ∧ powered.hw.slew = 0 ∧
    ({ powered.hw with slew := -3, slewNs := 1999 } : Hw).slew < 0 ∧ State.reset.hw.flag Fd.PKG_BOARD_STATUS.AUX_PWROK = false := by
  decide
theorem wit_units : powered.hw.DiesExist ∧ powered.hw.SavedOk ∧ powered.MemOk := by
  unfold Hw.DiesExist Hw.SavedOk State.MemOk; decide
theorem wit_step : ∃ t, step powered = .next t := ⟨_, rfl⟩
theorem wit_reaches : Reaches State.reset State.reset := .refl _

/-! ## Sessions -/

theorem wit_admits : Admits live hdr sess := by unfold Admits; decide
theorem wit_not_served : State.reset.hw.served = false := by decide
theorem wit_no_session : (withSessions []).hw.served = true ∧ (withSessions []).hw.session? hdr.session.toNat = none := by decide
theorem wit_stale : (withSessions [{ sess with rxHigh := 16385 }]).hw.served = true ∧
    ({ sess with rxHigh := 16385 } : Session).stale hdr.seq.toNat = true ∧
    ({ sess with rxHigh := 16384 } : Session).stale hdr.seq.toNat = false := by decide
theorem wit_half_open : (withSessions [{ sess with opened := false }]).hw.session? hdr.session.toNat = some { sess with opened := false } ∧
    ({ sess with opened := false } : Session).stale hdr.seq.toNat = false := by decide
theorem wit_limited : (({ sess with rxCount := 2 ^ 40 } : Session).limited live.hw.tb = true) ∧
    (({ sess with rxCount := 2 ^ 40 - 1 } : Session).limited live.hw.tb = false) := by decide
theorem wit_tag : ∃ k ∈ [(⟨1, 7, 0x0302, 0, 0, 0⟩ : Cmd)], k.session = hdr.session.toNat ∧ k.tag = hdr.tag.toNat := by decide
theorem wit_full : ∀ n, (∀ k ∈ List.replicate n (⟨1, 8, 0x0302, 0, 0, 0⟩ : Cmd), ¬ (k.session = hdr.session.toNat ∧ k.tag = hdr.tag.toNat)) ∧
    (List.replicate n (⟨1, 8, 0x0302, 0, 0, 0⟩ : Cmd)).length = n := by
  intro n
  refine ⟨fun k hk => ?_, by simp⟩
  rw [List.eq_of_mem_replicate hk]; decide
theorem wit_privilege : Admits live hdr sess ∧ sess.role ∉ rolesOf 0x0805 ∧ hostRow (.fwActivate hdr 0 0) = some ⟨hdr, 0x0805, false⟩ :=
  ⟨wit_admits, by decide, rfl⟩
theorem wit_handle : sess.role ∈ rolesOf 0x0302 ∧ live.hw.ctxOf hdr.ctx.toNat = none ∧
    hostRow (.ctxStart hdr 0 Seen.clean) = some ⟨hdr, 0x0302, true⟩ := ⟨by decide, by decide, rfl⟩
theorem wit_role : sess.role ≠ .none := by decide
theorem wit_hello : (withSessions []).hw.served = true ∧ ({ hdr with session := 0 } : Hdr).session = 0 ∧
    (List.replicate 88 (0 : Byte)).length = 88 ∧ (withSessions []).fuses.lcState ≠ 5 ∧
    (withSessions (List.replicate 15 sess)).hw.host.sessions.length < 16 ∧
    16 ≤ (withSessions (List.replicate 16 sess)).hw.host.sessions.length := by decide
theorem wit_open : (withSessions [{ sess with opened := false }]).hw.served = true ∧ (List.replicate 171 (0 : Byte)).length = 171 ∧
    (126#32).toNat < 128 ∧ (126#32).toNat % 2 = 0 := ⟨by decide, List.length_replicate, by decide, by decide⟩
/-- In SCRAPPED no key opens a session. -/
theorem wit_open_refused (x : Session) (payload : List Byte) : openRole { live with fuses := ⟨[965]⟩ } x payload = none := by
  unfold openRole
  have h : live.hw.admitKey ⟨[965]⟩ (payload.take 57) = none := by
    have : (⟨[965]⟩ : Fuses).lcState = 5 := by decide
    simp [Hw.admitKey, this]
  show (if _ then live.hw.admitKey ⟨[965]⟩ (payload.take 57) else none) = none
  rw [h]; split <;> rfl
theorem wit_timers : ({ sess with opened := false, helloTb := 0 } : Session).helloTb + 10000000000 ≤ 10000000000 ∧
    sess.limitTb = none ∧ (2 ^ 40 ≤ ({ sess with txCount := 2 ^ 40 } : Session).txCount) ∧
    ({ sess with oldUntil := 5 } : Session).oldUntil ≤ 5 := by decide
theorem wit_drop : live.hw.flag Fd.PKG_BOARD_STATUS.AUX_PWROK = true ∧ (List.replicate 63 (0 : Byte)).length < 64 ∧
    beNat ((List.replicate 64 (0 : Byte)).take 2) ≠ 0x5647 := by decide
/-- ECHO answers its words and bytes (R333). -/
theorem test_echo : (match exec (.echo hdr [1, 2, 3] [0xAA]) live with
    | .next t => t.hw.out.map (fun o => match o with | .ycp y => (y.p, y.payload, y.seq) | _ => ([], [], 0))
    | _ => []) = [([0, 2, 3, 0, 0, 0], [0xAA], 1)] := by decide

/-! ## Registers -/

theorem wit_regaddr : (0x00000011 % 4 ≠ 0) ∧ (0x31000000 ≤ 0x31000000) ∧ regFind 0x00002020 = none ∧
    (∀ l, live.hw.regCheck (0x00000020#32).toNat ≠ .ok l ∨ regFind 0x20 ≠ none) := by
  refine ⟨by decide, by decide, by decide, fun l => ?_⟩
  by_cases h : regFind 0x20 = none
  · left; unfold Hw.regCheck; rw [show (0x00000020#32).toNat = 0x20 from rfl, h]; exact fun e => by cases e
  · exact Or.inr h
/-- A register of a die without power: TARGET_RESET; an address in no register of the same die: REG_ADDRESS (R494). -/
theorem test_target_reset : (match live.hw.regCheck (Reg.PWR_DIE_PACE 0) with | .error e => e | .ok _ => 0) = 0x0503 ∧
    (match live.hw.regCheck 0x100FFFFC with | .error e => e | .ok _ => 0) = 0x0104 := by decide
theorem wit_block : ∃ i < (2048#32).toNat, regFind ((0x00000011#32).toNat + 4 * i) = none := ⟨0, by decide, by decide⟩
/-- The location of FL_CTRL of link 0, as the map gives it. -/
def flCtrl : RegLoc := (regFind (Reg.FL_CTRL 0)).getD ⟨⟨"", .hubA, 0, 1, 0, 1, 0, 0, 0, 0, 0, 0, 0⟩, 0, 0, 0, 0⟩
def flStatusLoc : RegLoc := (regFind (Reg.FR_CTRL)).getD flCtrl
theorem wit_reads_plain : ReadsPlain live sess Reg.FR_CTRL flStatusLoc := by
  unfold ReadsPlain; exact ⟨by decide, by decide, by decide, by decide, by decide⟩
theorem wit_captured : Tab.find? sess.captured Reg.PKG_TIMEBASE_LO = none ∧
    Tab.find? ({ sess with captured := [(Reg.PKG_TIMEBASE_HI, 3)] } : Session).captured Reg.PKG_TIMEBASE_HI = some 3 := by decide
theorem wit_map_reg : (regFind Reg.FR_FID).map isMapReg = some true ∧ (∀ n < 24, live.hw.flag (Fd.FL_CTRL.EN n) = false) ∧
    (live.hw.setFlag (Fd.FL_CTRL.EN 23) true).flag (Fd.FL_CTRL.EN 23) = true := by decide
theorem wit_clear_unit : ({ live.hw with host := { sessions := [{ sess with role := .vendor }] } }.setFld Fd.PKG_FH_UNIT_SEL.PUNIT
    0x30000000).fhSelected = some 0x30000000 := by decide
theorem wit_low : isLow Reg.PKG_TIMEBASE_LO = true ∧ (match live.hw.regCheck Reg.PKG_TIMEBASE_LO with | .ok _ => true | _ => false) = true := by
  decide
/-- FL_FEC_CW of link 0 has no behaviour of its own on a write. -/
theorem wit_plain_write : ∀ (h : Hw) (v : Nat), h.ownWrite {} .oper (Reg.FL_PEER 0) ((regFind (Reg.FL_PEER 0)).getD flCtrl) v = none := by
  intro h v
  have e1 : ctrAt (Reg.FL_PEER 0) = none := by decide
  have e2 : (regFind (Reg.FL_PEER 0)).getD flCtrl = ⟨⟨"FL_PEER", .rtr, 0x1000008, 12, 0x10000, 1, 0x0, 0x0, 0x0, 0x0, 0x0, 0x0, 0x0⟩, 0, 0x1000008, 0, 0⟩ := by
    decide
  rw [e2]
  unfold Hw.ownWrite Hw.ctrWrite
  rw [e1]
  rfl

/-! ## The board interface -/

/-- A served package whose I3C target has an address, with what a statement needs beside. -/
def ported (f : Hw → Hw) : State := { hw := f { hw0 with board := { addr := some 9, recv := some 8 } } }
theorem wit_port : PortReady (ported id) ∧ ¬ PortReady live ∧ directCommand .getpid = true := by unfold PortReady; decide
theorem wit_no_address : live.hw.flag Fd.PKG_BOARD_STATUS.AUX_PWROK = true ∧ live.hw.flag Fd.CPX_AUTH.HELD = true ∧
    live.hw.board.addr = none := by decide
theorem wit_hbm_temp : (ported (fun h => h.setFld (Fd.HBM_STATUS.TEMP 3) 100)).hw.hbmTemp 3 = some 36 ∧
    ∀ j < 16, ∀ u, (ported (fun h => h.setFld (Fd.HBM_STATUS.TEMP 3) 100)).hw.hbmTemp j = some u → u ≤ 36 := by
  refine ⟨by decide, fun j hj => ?_⟩
  interval_cases j <;> decide
theorem wit_cap_range : (1500 ≤ (1500#32).toNat ∧ (4800#32).toNat ≤ 4800) ∧ ¬ ((4801#32) = 0 ∨ 1500 ≤ (4801#32).toNat ∧ (4801#32).toNat ≤ 4800) := by
  decide
theorem wit_event : (ported (fun h => { h with tb := 1000000000, board := { h.board with evts := [⟨33, 10, 2, 1, 0⟩] } })).hw.board.evts =
    [] ++ ⟨33, 10, 2, 1, 0⟩ :: [] := rfl
theorem wit_leak : ∀ q ∈ [(none, 4), (some 199, 1), (some 200, 2), (some 1000, 0), (some 5000, 0), (some 5001, 3), (some 20001, 4)],
    leakOf q.1 = q.2 := by decide
theorem wit_leak_due : live.hw.board.leakTb + 100000000 ≤ ({ live.hw with tb := 100000000 } : Hw).tb ∧ 5 ∉ live.hw.board.clkOut := by decide
/-- The provisional ID carries part 0x0E09 (R479). -/
theorem test_port_part (h : Hw) : bitsAt h.pid 16 16 = 0x0E09 := by
  unfold Hw.pid
  rw [bitsAt_setBitsAt_other _ _ _ _ _ _ (by decide), bitsAt_setBitsAt_same]; norm_num
/-- The third reading of 150 Ω in a row makes the loop WET; the second does not. -/
theorem test_leak_third : (ported (fun h => leakHw (some 150) { h with tb := 100000000, board := { h.board with leakBand := 1, leakRun := 2 } })).hw.fld
    Fd.PKG_LEAK.STATE = 1 := by decide

/-! ## Ethernet ports and time -/

/-- Port 5, of plane B, is up with domain 3, and PTP follows plane B. -/
def ethUp : Hw := ((hw0.setFlag (Fd.EP_STATUS.LINK_UP 5) true).setFld (Fd.EP_CFG.PTP_DOMAIN 5) 3).setFld Fd.PKG_TIME_CTRL.SRC 2
theorem wit_port_up : ethUp.portUp 5 = true ∧ ethUp.portUp 4 = false ∧ ethUp.fld (Fd.EP_CFG.PTP_DOMAIN 5) = (3#8).toNat ∧
    ethUp.fld Fd.PKG_TIME_CTRL.SRC = 1 + 1 ∧ ethUp.flag Fd.PKG_BOARD_STATUS.AUX_PWROK = true := by decide
theorem wit_ipv4 : (ethUp.setFld (Fd.EP_IPV4.ADDR 5) 0xFFFFFFFF).fld (Fd.EP_IPV4.ADDR 5) = (0xFFFFFFFF#32).toNat ∧
    (ethUp.setFld (Fd.EP_IPV4.ADDR 5) 0xFFFFFFFF).isIpv4 5 0xFFFFFFFF = true := by decide
theorem wit_ipv6 : (ethUp.setFld (Fd.EP_IPV6_.ADDR 5 3) 1).isIpv6 5 1 = true := by
  unfold Hw.isIpv6; rw [Bool.or_eq_true]; right; decide
/-- A correction of exactly 1 ms slews; one of 1 ms and 1 ns steps. -/
theorem test_step_bound : (hw0.correctTime 1000000).tb = 0 ∧ (hw0.correctTime 1000001).tb = 1000001 := by decide
theorem wit_chosen : ({ ethUp with eth := { chosen := some (5, 9), sync := some (some 7, 7), reqTb := some 7 } } : Hw).eth.sync =
    some (some 7, 7) ∧ 2 * (2 : Int) = ((7 : Nat) : Int) - (7 : Nat) + (((11#64).toNat : Int) - (7 : Nat)) := by decide
theorem wit_source_loss : Tab.getD ethUp.eth.syncTb 1 0 + 3000000000 ≤ ({ ethUp with tb := 3000000000 } : Hw).tb ∧
    ({ ethUp with tb := 2999999999 } : Hw).tb < Tab.getD ethUp.eth.syncTb 1 0 + 3000000000 := by decide
/-- The transmitter of the least rank is chosen, on the selected plane only. -/
theorem test_best_transmitter : ({ ethUp.setFlag (Fd.EP_STATUS.LINK_UP 0) true with
    eth := { heard := [(0, 1, 1), (5, 8, 4), (5, 9, 3)] } } : Hw).bestTransmitter = some (5, 9) := by decide

/-! ## The control complexes -/

/-- CPX-A holds AUTH with CPX-B in a state, with a current mirror. -/
def cpxA (b : Nat) (c : CpxSt) : State :=
  { hw := { (((hw0.setFld Fd.CPX_AUTH.STATE_A 6).setFld Fd.CPX_AUTH.STATE_B b).setFlag Fd.CPX_JOURNAL.MIRROR_OK true) with cpx := c } }
theorem wit_standby : (cpxA 2 {}).hw.cx (cpxA 2 {}).hw.otherHub = 2 ∧ (cpxA 2 {}).hw.flag Fd.CPX_JOURNAL.MIRROR_OK = true ∧
    (cpxA 3 {}).hw.cx (cpxA 3 {}).hw.otherHub ≠ 2 ∧ (2#32).toNat < 3 ∧ 3 ≤ (3#32).toNat := by decide
theorem wit_auth_due : (cpxA 2 {}).hw.flag Fd.CPX_AUTH.HELD = true ∧ (cpxA 2 {}).hw.board.resetPin = none ∧
    ({ (cpxA 2 {}).hw with tb := 20000000 } : Hw).cpx.renewTb + 20000000 ≤ ({ (cpxA 2 {}).hw with tb := 20000000 } : Hw).tb ∧
    (cpxA 2 { suspended := some 5 }).hw.cpx.suspended = some 5 := by decide
/-- AUTH is free and both complexes are awake. -/
def freed : State := { hw := { ((cpxA 5 { cause := 3 }).hw.setFlag Fd.CPX_AUTH.HELD false).setFld Fd.CPX_AUTH.STATE_A 4 with tb := 2000000000 } }
theorem wit_free : freed.hw.flag Fd.CPX_AUTH.HELD = false ∧ freed.hw.flag Fd.PKG_BOARD_STATUS.AUX_PWROK = true ∧
    freed.hw.cx 0 = 4 ∧ freed.hw.cx 1 = 5 ∧ freed.hw.cpx.cause = 3 := by decide
theorem wit_boot_claim : ({ freed.hw.setCx 1 1 with cpx := {} } : Hw).cpx.auxTb + 2000000000 ≤ freed.hw.tb ∧ (freed.hw.setCx 1 1).cx 1 = 1 := by
  decide
theorem wit_hand : (cpxA 4 { hand := some { cause := 1, startTb := 0 } }).hw.cpx.hand = some { cause := 1, startTb := 0 } ∧
    (cpxA 5 { hand := some { cause := 1, startTb := 0, shadowTb := some 9 } }).hw.cpx.hand =
      some { cause := 1, startTb := 0, shadowTb := some 9 } := by decide
theorem wit_revert : ((cpxA 2 {}).hw.setFld Fd.CPX_AUTH.PREFER 1).fld Fd.CPX_AUTH.PREFER = 1 ∧ (cpxA 2 {}).hw.holderHub ≠ 1 ∧
    3 ≤ ((cpxA 2 { reverts := [0, 0, 0] }).hw.cpx.reverts.filter (fun r => decide (0 < r + 86400000000000))).length := by decide
theorem wit_near : (cpxA 2 { wdTb := [(0, [0, 0])] }).hw.wdNear 0 = 2 ∧ (cpxA 2 {}).hw.wdNear 0 < 2 := by decide
/-- Where both claim in the same instant, CPX-A wins unless CPX-B is preferred (R339). -/
theorem test_both_claim : freed.hw.claimant 1 true = 0 ∧ (freed.hw.setFld Fd.CPX_AUTH.PREFER 1).claimant 0 true = 1 := by decide
/-- The third near-miss marks the holder DEGRADED and wakes the standby. -/
theorem test_third_near_miss : (degradationHw none (cpxA 2 { wdTb := [(0, [0, 0])] }).hw).cx 1 = 4 := by decide
/-- AUTH is free after the CUT, and an ECHO waits. -/
def cutFree : State :=
  { hw := { freed.hw with cpx := { hand := some { cause := 1, startTb := 0, shadowTb := some 9, cut := true },
                                   rx := [(.echo hdr [1, 2, 3, 4, 5, 6] [], 1999000000)] } } }
theorem wit_in_cut : cutFree.hw.inCut = true ∧ cutFree.hw.cpx.rx.length < 4096 ∧ (∀ q ∈ cutFree.hw.cpx.rx, isPacket q.1 = true) ∧
    cutFree.hw.flag Fd.CPX_AUTH.HELD = false ∧ freed.hw.cpx.rx = [] ∧ freed.hw.inCut = false ∧ freed.hw.served = false := by decide
theorem wit_rx_full : ∀ n : Nat, (List.replicate n ((.echo hdr [] [], 0) : Instr × Nat)).length = n := fun _ => List.length_replicate

/-! ## Power and pace -/

theorem wit_powered : 7 ∈ powered.hw.plu.diesUp ∧ powered.hw.DiesExist ∧ 63 / 8 ∈ powered.hw.plu.diesUp ∧
    (powered.hw.clusOf 63).canaryTb + 1000 ≤ powered.hw.tb := by unfold Hw.DiesExist; decide
theorem wit_pace_mask : 10 ≤ (10#32).toNat ∧ (2000#32).toNat ≤ 2000 ∧ (128#32).toNat < 256 ∧
    ∀ d < 8, (128#32).getLsbD d = true → d ∈ powered.hw.plu.diesUp := by decide
/-- Group entry 3 is VALID, with two members and ring index 0; agreement 0 runs for it. -/
def agreeing (f : PwrSt → PwrSt) : Hw :=
  { ((powered.hw.setFlag (Fd.CVE_GRP_W1.VALID 3) true).setFld (Fd.CVE_GRP_W2.M 3) 2).setFld (Fd.CVE_GRP_W0.GID 3) 77 with
    pwr := f { agrees := [(0, { grp := 3 })] } }
theorem wit_agree : (agreeing id).groupLive 3 = true ∧ (agreeing id).agreeFor 3 = some (0, { grp := 3 }) ∧
    (agreeing id).fld (Fd.CVE_GRP_W2.MY_INDEX 3) = 0 ∧ (agreeing id).agreeOfPace 77 0 = some (0, { grp := 3 }) ∧
    (agreeing (fun p => { p with agrees := [] })).agreeFor 3 = none := by decide
theorem wit_places_taken : ∀ n < 8, Tab.find? ((List.range 8).map (fun n => (n, ({ grp := n } : Agree)))) n ≠ none := by decide
theorem wit_waits : (agreeing (fun p => { p with waitPace := [(7, 2000)] })).pwr.waitPace = [(7, 2000)] ∧
    (agreeing (fun p => { p with waitAgree := [(0, 1880)] })).pwr.waitAgree = [(0, 1880)] := by decide
theorem wit_pace_packet : (pacePayload 77 0 1 5 1500 0).length = 16 := by decide
theorem wit_sample : powered.hw.pwr.sampleTb + 10000 ≤ powered.hw.tb ∧ powered.hw.pwr.coordTb + 1000000 ≤ powered.hw.tb ∧
    255 ∉ powered.hw.board.droop := by decide
/-- The worked example of the sagging shelf (21_board_interface.md), and the nominal one. -/
theorem test_internal_limit : internalLimit 42000 500 = 4028 ∧ internalLimit 48000 500 = 4500 := by decide
/-- *Pace against voltage*: 1,500 M-steps/s at 60 °C needs 700 mV in FREE mode. -/
theorem test_volt : pickVolt 1500 600 false = 700 := by decide

/-! ## Cooling -/

theorem wit_sample_due : (7 : Fin 8).val ∈ powered.hw.plu.diesUp ∧ Tab.getD powered.hw.thm.sampleTb 7 0 + 1000000 ≤ powered.hw.tb ∧
    (powered.hw.dieSensor 7 0).failed = 0 ∧ powered.hw.inlet = none ∧ powered.hw.flag Fd.THM_STATUS.TRIP = false := by decide
/-- A gate closed since the start, at 30 s, with one running context. -/
def gated : Hw := { (running Image.empty {}).hw.setFlag Fd.THM_STATUS.GATE true with tb := 30000000000 }
theorem wit_gate : gated.flag Fd.THM_STATUS.GATE = true ∧ gated.thm.gateTb + 30000000000 ≤ gated.tb ∧
    ((Tab.find? gated.ctxs 0).map (fun x => x.resident && x.canFault && x.run.fault.isNone)) = some true := by decide
theorem wit_reopened : ({ gated with thm := { gated.thm with reopenTb := some 20000000000 } } : Hw).thm.reopenTb = some 20000000000 := rfl
theorem wit_flow_due : gated.flag Fd.CPX_AUTH.HELD = true ∧ gated.thm.flowTb + 1000000000 ≤ gated.tb ∧
    gated.thm.foehnTb + 100000000 ≤ gated.tb ∧ Tab.getD gated.thm.cycleTb 7 0 + 1000000000 ≤ gated.tb := by decide
/-- The worked example of R415: 4.2 kW, 30.0 °C in and 46.2 °C out are 4.0 L/min. -/
theorem test_flow : 60000 * 4200 / (3890 * ((462 : Int) - 300).toNat) = 399 := by decide
theorem wit_inlet : ({ gated with thm := { gated.thm with inletTb := some (true, 0) } } : Hw).thm.inletTb = some (true, 0) := rfl
theorem wit_floor : 30 ≤ (30#32).toNat ∧ (70#32).toNat ≤ 70 ∧ 70 < (71#32).toNat ∧ (1#32).toNat < 2 := by decide
theorem wit_stack : (powered.hw.setFlag (Fd.HBM_STATUS.IN_SERVICE 15) true).flag (Fd.HBM_STATUS.IN_SERVICE 15) = true ∧
    (Tab.getD powered.hw.hbm 15 {}).pollTb + 1000000 ≤ powered.hw.tb := by decide
/-- One reading of 105 °C throttles; the second holds; 92 °C ends throttling. -/
theorem test_hbm_rows : (({} : HbmSt).next (some 105)).2 = .throttle ∧ (({ hotCount := 1 } : HbmSt).next (some 105)).2 = .hold ∧
    (({ mode := .throttle } : HbmSt).next (some 93)).2 = .throttle ∧ (({ mode := .throttle } : HbmSt).next (some 92)).2 = .x2 := by decide
/-- A pair 6.1 K apart for longer than 1 s is SUSPECT. -/
theorem test_pair_suspect : (({ a := { last := some 600 }, b := { last := some 661 }, diffTb := some 0 } : Pair).judge 1000000001).suspect = true ∧
    (({ a := { last := some 600 }, b := { last := some 660 }, diffTb := some 0 } : Pair).judge 1000000001).suspect = false := by decide

/-! ## Counters -/

theorem wit_cfg : cfgAt 0x17002000 = some ⟨.clus, 0x17002000, 0⟩ ∧ powered.hw.served = true ∧ powered.hw.regPowered 0x17002000 = true ∧
    0x20 ∈ BankKind.clus.events ∧ 0x01 ∉ BankKind.clus.events := by decide
/-- R423: a core event in a cluster bank is stored as 0x00 and sets CFG_REJECT. -/
theorem test_cfg_reject : (counterCfgHw 0x17002000 0x80000001 powered.hw).fld (Fd.CTR_CFG.EVENT 0x17002000 0) = 0 ∧
    (counterCfgHw 0x17002000 0x80000001 powered.hw).flag Fd.CTR_CCL_STATUS.CFG_REJECT = true := by decide
theorem wit_window : 1 ≤ (10000000#32).toNat ∧ (10000000#32).toNat ≤ 10000000 ∧ 10000000 < (10000001#32).toNat := by decide
theorem wit_entries : (∀ e ∈ cfgEntries (beBytes 4 0x17002000 ++ beBytes 8 0), (cfgAt e.1).isSome = true) ∧
    (∃ e ∈ cfgEntries (beBytes 4 0x17002004 ++ beBytes 8 0), cfgAt e.1 = none) ∧
    (beBytes 4 0x17002000 ++ beBytes 8 0).length % 12 = 0 := by decide
theorem wit_record : Tab.getD ({ count := [(3, 1)], rings := [(126, 5, [1])] } : CclSt).count 3 0 = 1 ∧
    Tab.find? ({ count := [(3, 1)], rings := [(126, 5, [1])] } : CclSt).rings (3 * 42 + (1 - 1 - 0) % 42) = some (5, [1]) := by decide
theorem wit_sampling : (63#32).toNat / 8 ∈ powered.hw.plu.diesUp ∧ (0#32).toNat / 8 ∉ powered.hw.plu.diesUp ∧
    (3#32).toNat < 4 ∧ (3#32).getLsbD 1 = true ∧ (24#32).toNat ≤ 24 := by decide
theorem wit_windowEnd : (powered.hw.setFlag Fd.HUB_BRINGUP_STATUS.READY true).flag Fd.HUB_BRINGUP_STATUS.READY = true ∧
    powered.hw.ccl.startTb + powered.hw.fld Fd.CTR_CCL_CTRL.WINDOW_US * 1000 ≤ powered.hw.tb ∧
    powered.hw.flag Fd.CTR_CCL_CTRL.EN = true := by decide
/-- R427: at windows of 300 µs the partition rings record every fourth one; at the default, every one. -/
theorem test_rings : (powered.hw.setFld Fd.CTR_CCL_CTRL.WINDOW_US 300).ringsNow = List.range 16 ∧
    ({ powered.hw.setFld Fd.CTR_CCL_CTRL.WINDOW_US 300 with ccl := { win := 3 } } : Hw).ringsNow = [] ∧
    ({ powered.hw with ccl := { win := 3 } } : Hw).ringsNow = List.range 16 := by decide

/-! ## Firmware -/

/-- The session of a package whose owner holds it, with staging in a state. -/
def firm (st : Nat) (f : FwSt) : State :=
  let s := withSessions [{ sess with role := .service }]
  { s with hw := { (s.hw.setStaging st).setFld Fd.HUB_RELAY_CFG.NEXT_FID 3 with fw := f } }
theorem wit_service : Admits (firm 1 {}) hdr { sess with role := .service } := by unfold Admits; decide
theorem wit_begin : 64 ≤ (67108864#32).toNat ∧ (67108864#32).toNat ≤ 67108864 ∧ (firm 0 {}).hw.staging = 0 ∧ (firm 3 {}).hw.staging = 3 := by
  decide
theorem wit_data : (firm 1 { deltaLen := 64 }).hw.fw.inbound = false ∧ (firm 1 {}).hw.staging = 1 ∧
    crc32c [0x31, 0x32, 0x33, 0x34, 0x35, 0x36, 0x37, 0x38, 0x39] = (0xE3069283#32).toNat ∧ 0 + 9 ≤ 64 := by decide +kernel
/-- Bytes 0–63 by two parts, the newest first, cover a delta of 64 bytes. -/
theorem test_staging_complete : (({ fw := { deltaLen := 64, parts := [(32, List.replicate 32 1)] } } : Hw).stagePart 0
    (List.replicate 32 2)).staging = 2 := by decide
theorem wit_forward : (firm 2 {}).hw.fld Fd.HUB_RELAY_CFG.NEXT_FID ≠ 0xFFFF ∧ (firm 2 {}).hw.staging ≠ 0 := by decide
theorem wit_activate : ((firm 2 { deltaId := 5 }).hw.setFlag Fd.CPX_JOURNAL.MIRROR_OK true).flag Fd.CPX_JOURNAL.MIRROR_OK = true ∧
    (((firm 2 { deltaId := 5 }).hw.setFld Fd.CPX_AUTH.STATE_B 2).cx 1) = 2 ∧ (firm 2 {}).hw.otherHub = 1 ∧
    (firm 2 {}).hw.fw.trial = none ∧ (firm 2 {}).hw.cpx.hand = none := by decide
/-- A delivered RELAY or RELAY_ACK from package 9. -/
def relayPkt (ptype : Nat) (pl : List Byte) : Hw :=
  { rtr := { deliv := [⟨{ dst := 1, src := 9, tc := 2, vc := 0, ptype := ptype, hops := 0, lseq := 0, xtag := 0, tspec := 0,
                          payload := pl }, none, 0⟩] } }
theorem wit_relay : ((relayPkt 0x20 []).delivered (fun p => p.ptype == 0x20)).isSome = true ∧
    ((relayPkt 0x21 []).delivered (fun p => p.ptype == 0x21)).isSome = true := by decide
theorem wit_chunk : List.find? (fun (c : Chunk) => c.off == 4076) [⟨4076, 0, 0, 8⟩] = some ⟨4076, 0, 0, 8⟩ ∧
    ([⟨4076, 0, 0, 8⟩] : List Chunk).find? (fun c => decide (c.sentTb + 1000000 ≤ powered.hw.tb)) = some ⟨4076, 0, 0, 8⟩ := by decide
theorem wit_writing : ((firm 3 {}).hw.setSlot 1 1).slotIn 1 = some 1 ∧ ((firm 3 {}).hw.setSlot 1 1).staging = 3 ∧
    ((firm 3 {}).hw.setSlot 1 2).slotIn 2 = some 1 := by decide
/-- A flash error rejects the slot with reason FLASH and completes staging. -/
theorem test_flash_reason : (match (firm 3 {}).hw.reconstruct {} false true with
    | .error r => some r | .ok _ => none) = some 6 := rfl
theorem wit_trial : ({ trial := some { start := 0, former := 1, served := true, dmps := [7] } } : FwSt).trial =
    some { start := 0, former := 1, served := true, dmps := [7] } := rfl
theorem wit_switch : (({ fw := { ucode := [(3, { ready := true, ver1 := 4 })] } } : Hw).ucode 3).ready = true ∧
    ({ fw := { ucode := [(3, { ready := true, ver1 := 4 })] } } : Hw).occupied (punitCore 3) = false := by decide
/-- Three rounds of resending, and the core keeps its old microcode. -/
theorem test_stale : (({ writing := true, rounds := 2 } : UCode).round 4 [1]).stale = true ∧
    (({ writing := true, rounds := 1 } : UCode).round 4 [1]).stale = false ∧
    (({} : UCode).round 4 []).other = 4 := by decide
theorem wit_coreCtx : (running { Image.empty with masks := [1] } {}).hw.coreCtx 504 = some (0, 0, 0) := by decide

/-! ## Bring-up -/

/-- A package at a stage in a state. -/
def atStage (n st : Nat) : Hw := (powered.hw.setFld Fd.HUB_BRINGUP_STATUS.STAGE n).setFld Fd.HUB_BRINGUP_STATUS.STATE st
theorem wit_stages : (atStage 3 2).stage = 3 ∧ (atStage 3 2).stageState = 2 ∧ (atStage 0 4).stageState = 4 ∧
    ((atStage 3 3).setFlag Fd.HUB_BRINGUP_STATUS.COLD_DONE true).mayStart 6 = true ∧ (atStage 3 3).mayStart 6 = false ∧
    (atStage 3 3).mayStart 3 = true ∧ (atStage 3 2).mayStart 3 = false ∧ (atStage 10 2).mayStart 10 = false := by decide
theorem wit_held : ((atStage 0 2).setFlag Fd.PWR_STATUS.OFF_BOARD true).flag Fd.PWR_STATUS.OFF_BOARD = true ∧
    (atStage 0 2).powerHeld = false := by decide
/-- S10 is next after S9, and starts. -/
theorem test_go : ((atStage 9 3).bringupGo 0x10A).stage = 10 ∧ ((atStage 9 3).bringupGo 0x10A).bring.full = true ∧
    ((atStage 9 3).bringupGo 0x0F).flag Fd.HUB_BRINGUP_STATUS.GO_REJECT = true := by
  simp only [Hw.bringupGo]; decide
theorem wit_domain : (0x7F8#32).toNat < 2048 ∧ (0x778#32).toNat / 128 % 2 = 0 ∧ (0x778#32).toNat % 16 ≤ 8 ∧ 8 < (0x779#32).toNat % 16 ∧
    (0x7F8#32).toNat / 128 % 2 = 1 ∧ (powered.hw.holder (unitClus 0x770)).isNone = true := by decide
theorem wit_kar : (List.find? (fun d => d.kind == 1 && d.unit == 0x770 && d.phase == .kar)
    [({ kind := 1, unit := 0x770, phase := .kar } : Dom)]).isSome = true := by decide
theorem wit_running_stage : ∀ n < 11, (atStage n 1).stageState = 1 ∧ (atStage n 1).stage = n ∧
    ({ atStage n 1 with tb := 10000000 } : Hw).stageLate true = false := by
  decide
theorem wit_late : ({ atStage 9 1 with tb := 1200000001 } : Hw).stageLate true = true ∧
    ({ atStage 9 1 with tb := 1200000000 } : Hw).stageLate true = false := by decide
theorem wit_pwrok : ((atStage 2 2).setFlag Fd.PKG_BOARD_STATUS.MAIN_EN true).pwrPassed 0 = true ∧
    ((atStage 3 1).setFlag Fd.PKG_BOARD_STATUS.HBM_EN true).pwrPassed 1 = false ∧
    (atStage 3 1).flag Fd.PKG_BOARD_STATUS.HBM_PWROK = false ∧ powered.hw.board.resetPin = none := by decide

/-! ## Security -/

theorem wit_fuses : ({} : Fuses).Ok := by
  refine ⟨fun n _ c _ d _ h => ?_, fun n _ h => ?_, fun k _ _ i _ h => ?_⟩
  · exact absurd h (List.not_mem_nil)
  · simp [Fuses.pairState] at h
  · exact absurd h (List.not_mem_nil)
/-- Fuses after BLANK → PROVISIONED → FIELD with an owner, and after a rotation. -/
def fielded : Fuses := { bits := [2, 67, 4096] }
theorem test_life_cycle : ({} : Fuses).lcState = 1 ∧ fielded.lcState = 3 ∧ fielded.lcCount = 2 ∧ fielded.activeOwner = some 0 ∧
    (fielded.burn [132]).lcState = 4 ∧ (fielded.burn [5120, 4097]).activeOwner = some 1 ∧ fielded.newSlot 3 3 = some 1 := by decide
/-- *Life-cycle moves*: who signs. -/
theorem test_signers : lcSigners 3 4 true = some [.service] ∧ lcSigners 3 4 false = some [.vendor] ∧
    lcSigners 4 2 true = some [.vendor] ∧ lcSigners 1 3 true = none ∧ lcSigners 5 5 true = none ∧ lcSigners 2 4 true = none := by
  decide
/-- A record for another target is denied. -/
theorem wit_denied : lcAllowed fielded 4 (List.replicate 306 0) = false ∧ (List.replicate 306 (0 : Byte)).length = 306 := by
  refine ⟨?_, List.length_replicate⟩
  unfold lcAllowed
  have h : (authFld (List.replicate 306 0) 0 1 == 4) = false := by decide +kernel
  simp only [h, Bool.false_and]
theorem wit_idle_firmware : powered.hw.cpx.hand = none ∧ powered.hw.fw.trial = none ∧ powered.hw.staging ≠ 3 := by decide
theorem wit_wipe : (0 : Nat) ∈ ({ wipeReq := [0] } : SepSt).wipeReq ∧ powered.hw.flag Fd.PKG_BOARD_STATUS.AUX_PWROK = true := by decide
/-- R450: a tamper event ends every session and counts, and asks the other hub to wipe. -/
theorem test_tamper : (powered.hw.wipe 1 3).host.sessions = [] ∧ (powered.hw.wipe 1 3).fld (Fd.SEP_SSRAM_STATUS.WIPE_CNT 1) = 1 ∧
    (powered.hw.askWipe 1).sep.wipeReq = [0] := by decide
theorem wit_edit : lcEdits fielded = true ∧ lcEdits {} = false := by decide
theorem wit_nonce : (List.replicate 32 (7 : Byte)).length = 32 := List.length_replicate

/-! ## Contexts and placement -/

/-- A package that is READY and PROVISIONED with one opened session. -/
def ready : State := { powered with hw := powered.hw.setFlag Fd.HUB_BRINGUP_STATUS.READY true, fuses := { bits := [2] } }
theorem wit_create : ready.hw.flag Fd.HUB_BRINGUP_STATUS.READY = true ∧ ready.fuses.lcState = 2 ∧ Tab.find? ready.hw.ctxs 0 = none ∧
    (0x1F0009#32).toNat < 2 ^ 21 ∧ (60000#32).toNat ≤ 60000 := by decide
theorem test_generation : ({ gens := [(5, 1022)] } : Hw).nextGen 5 = 0 ∧ ({ gens := [(5, 7)] } : Hw).nextGen 5 = 8 ∧
    ({} : Hw).nextGen 5 = 0 := by decide
/-- Handle 64 names generation 1 of ID 0. -/
theorem wit_handle_freed : ∀ st ∈ [CtxState.created, .loaded, .running, .stopped, .faulted, .aborting],
    ({ ctxs := [(0, ctxOn st Image.empty {})] } : Hw).ctxOf 64 = some (0, ctxOn st Image.empty {}) ∧
      ({ ctxs := [(0, ctxOn st Image.empty {})] } : Hw).ctxOf 0 = none := by decide
theorem wit_parts : (∀ i < 4, ∃ q ∈ ([(2, [3, 4]), (0, [1, 2])] : List (Nat × List Byte)), q.1 ≤ i ∧ i < q.1 + q.2.length) ∧
    (∀ q ∈ ([(2, [3, 4])] : List (Nat × List Byte)), ¬ (q.1 ≤ 0 ∧ 0 < q.1 + q.2.length)) := by decide
/-- R334: the newest part wins, and the first gap is named. -/
theorem test_assemble : assemble [(1, [9]), (2, [3, 4]), (0, [1, 2])] 4 = [1, 9, 3, 4] ∧
    firstGap [(0, [1, 2]), (3, [4])] 3 0 = 2 := by decide
theorem wit_bad_image : (match checkImage ready false [0, 0, 0, 0] with | .error _ => true | .ok _ => false) = true := by decide
theorem wit_pin : ({ pins := [(7, ⟨[], [], [], [], []⟩)] } : PluSt).pins.find? 7 ≠ none ∧ (7#32).toNat ≤ 7 := by decide
theorem wit_place : (ctxOn .loaded Image.empty {}).host.place.isSome = true ∧
    ({ waiting := [0] } : PluSt).waiting = 0 :: [] := by decide
/-- An admitted command that names a context of each state. -/
def liveIn (st : CtxState) : State := { live with hw := { live.hw with ctxs := [(0, ctxOn st Image.empty {})] } }
theorem wit_admitted_states : ∀ st ∈ [CtxState.created, .loaded, .running, .stopped, .faulted, .aborting],
    Admits (liveIn st) { hdr with ctx := 64 } sess ∧
      (liveIn st).hw.ctxOf (({ hdr with ctx := 64 } : Hdr)).ctx.toNat = some (0, ctxOn st Image.empty {}) := by
  unfold Admits; decide

/-! ## Host memory and RoCEv2 -/

/-- A context with one near page of region 5, at page frame 3, cached by hub 0. -/
def paged : Ctx := ctxOn .loaded { Image.empty with hbm := [⟨5, true, false, false, 1⟩] } {}
def cached : Hw := { ctxs := [(0, paged)], xcl := [(64, { sets := [(5, [⟨0, 0, 5, 0, 3, true, 0⟩])] })] }
/-- The row of a host access inside the region, beyond it, and to a region that is not declared. -/
theorem wit_host_rows : paged.resident = true ∧ cached.ctxOf 64 = some (0, paged) ∧
    (match (cached.hostRow Mem.empty 0 paged 64 true 5 100 8).2 with
      | .ok p => p.segs == [(2 ^ 44 + 3 * 2 ^ 21 + 100, 8)] && Mem.empty.writable p.segs == (p.segs, none) &&
          (⟨[], [2 ^ 44 + 3 * 2 ^ 21 + 96]⟩ : Mem).writable p.segs == ([(2 ^ 44 + 3 * 2 ^ 21 + 100, 0)], some (2 ^ 44 + 3 * 2 ^ 21 + 96)) &&
          (⟨[], [2 ^ 44 + 3 * 2 ^ 21 + 96]⟩ : Mem).rowUe p == some (2 ^ 44 + 3 * 2 ^ 21 + 96)
      | .error _ => false) = true ∧
    (match (cached.hostRow Mem.empty 0 paged 64 true 5 0x1FFFFF 2).2 with
      | .ok _ => false
      | .error e => hostStatus e == 0x0108) = true ∧
    (match (cached.hostRow Mem.empty 0 paged 64 true 4 0 2).2 with
      | .ok _ => false
      | .error e => hostStatus e == 0x0108) = true := by decide
/-- A host access across a page edge uses both frames. -/
theorem test_host_pages : pageSplit 4 0x1FFFFE 4 = [(0, 0x1FFFFE, 2), (1, 0, 2)] := by decide
theorem wit_qp : ({} : RdmaSt).qps.length < 512 ∧ ({} : RdmaSt).mrs.length < 4096 ∧ ({} : Hw).qp? 9 = none ∧
    ((List.replicate 16 0 : List Byte)).length = 16 ∧ (7#32).toNat ≤ 7 := by decide

/-- A queue pair of port 2 that expects packet 5, its link up, with a ring of two slots. -/
def pair : Qp := { num := 9, port := 2, remote := 77, addr := 1, psn := 5, ring := some { ctx := 0, region := 5, off := 0, len := 8192 } }
def paired : Hw :=
  { (({} : Hw).setFlag (Fd.EP_STATUS.LINK_UP 2) true) with
    ctxs := [(0, paged)], rdma := { qps := [pair], mrs := [⟨3, 0, 5, true, false, 64, 64⟩] } }
theorem wit_reach : paired.reach 2 9 = some pair ∧ paired.reach 3 9 = none ∧ ({} : Hw).reach 2 9 = none := by decide +kernel
/-- The next packet, one that was answered, and one past a gap; the numbers wrap. -/
theorem test_packet_numbers : pair.kind 5 = .next ∧ pair.kind 4 = .again ∧ pair.kind 6 = .gap ∧
    ({ pair with psn := 0 }).kind (2 ^ 24 - 1) = .again ∧ ({ pair with psn := 2 ^ 24 - 1 }).kind 0 = .gap := by decide
theorem test_binding : paired.binding 3 64 64 true = some (⟨3, 0, 5, true, false, 64, 64⟩, paged) ∧ paired.binding 3 63 1 true = none ∧
    paired.binding 3 100 29 true = none ∧ paired.binding 3 64 1 false = none := by decide +kernel
theorem test_packets : packetsOf 0 = 1 ∧ packetsOf 4096 = 1 ∧ packetsOf 4097 = 2 := by decide
/-- A request on a link that is down is dropped. -/
theorem test_rdma_dropped : exec (.ceMarkedPacket 3 9) { hw := paired } = .next { hw := paired } := by
  have h : paired.reach 3 9 = none := wit_reach.2.1
  simp [exec, execCeMarkedPacket, keep_next, ceMarkedHw, h]
/-- An admitted command that names a resident context. -/
def liveCtx : State := { live with hw := { live.hw with ctxs := cached.ctxs, xcl := cached.xcl } }
theorem wit_admitted_context : Admits liveCtx { hdr with ctx := 64 } sess ∧ sess.role ≠ .none ∧
    liveCtx.hw.ctxOf (({ hdr with ctx := 64 } : Hdr)).ctx.toNat = some (0, paged) := by
  refine ⟨by unfold Admits; decide, by decide, by decide⟩

/-! ## Groups, routes and links from the host -/

/-- A GROUP_SET of the whole list of a group of two packages, this one's FID 7 at index 1: GID 0x55, weight 1. -/
def pairPart : List Byte := [0, 0x55, 0, 9] ++ [0, 0, 0x10, 0] ++ [0, 2, 0, 0] ++ [0, 0, 0, 8, 0, 7]
theorem wit_group : (groupPart pairPart).fieldsOk = true ∧ (groupPart pairPart).w0 = 0x550009 ∧ (groupPart pairPart).m = 2 ∧
    (groupPart pairPart).fids = [8, 7] ∧ membersOk 7 [8, 7] = true ∧ membersOk 7 [8, 8] = false ∧ membersOk 6 [8, 7] = false ∧
    ({} : Hw).freeRun 3 2 = some 0 ∧ ({} : Hw).freeRun 3 524289 = none ∧ ({} : Hw).flag (Fd.CVE_GRP_W1.BOUND 3) = false ∧
    (({} : Hw).grp 3).words ≠ some (0x550009, 0x1000, 2) ∧ pairPart.length = 18 := by decide +kernel
/-- A weight of 0 and a list past M are GROUP_FIELD. -/
theorem wit_group_fields : (groupPart ([0, 0x55, 0, 9, 0, 0, 0, 0, 0, 2, 0, 0, 0, 0] : List Byte)).fieldsOk = false ∧
    (groupPart ([0, 0x55, 0, 9, 0, 0, 0x10, 0, 0, 2, 0, 0, 0, 1] ++ [0, 8, 0, 7] : List Byte)).fieldsOk = false := by decide
/-- Places are taken between other entries where they fit. -/
theorem test_free_run : ({ cve := { grps := [(0, { place := some (0, 4) }), (1, { place := some (6, 4) })] } } : Hw).freeRun 3 2 = some 4 ∧
    ({ cve := { grps := [(0, { place := some (0, 4) }), (1, { place := some (6, 4) })] } } : Hw).freeRun 3 3 = some 10 := by decide
theorem wit_bound : (({} : Hw).setFlag (Fd.CVE_GRP_W1.BOUND 3) true).flag (Fd.CVE_GRP_W1.BOUND 3) = true ∧
    (({} : Hw).setFlag (Fd.CVE_GRP_W1.VALID 1023) true).flag (Fd.CVE_GRP_W1.VALID 1023) = true ∧
    ((({} : Hw).setFlag (Fd.CVE_GRP_W1.VALID 1023) true).setFld (Fd.CVE_GRP_W0.GID 1023) 0x55).fld (Fd.CVE_GRP_W0.GID 1023) =
      bitsAt 0x550009 16 16 := by decide +kernel
theorem wit_quiesced : (({} : Hw).setFlag Fd.FR_STATUS.QUIESCED true).flag Fd.FR_STATUS.QUIESCED = true ∧
    (({} : Hw).setFlag Fd.FR_STATUS.DRAINED true).flag Fd.FR_STATUS.DRAINED = true ∧ ({} : Hw).flag Fd.FR_STATUS.QUIESCED = false ∧
    ({} : Hw).rtr.inj = [] := by decide
/-- The last entry of the table: a write of every bit keeps LOCAL and PORTS. -/
theorem test_route : ((({} : Hw).setFlag Fd.FR_STATUS.QUIESCED true).setRoute 65535 0xFFFFFFFF).reg (Reg.FR_ROUTE 65535) = 0x80FFFFFF ∧
    (({} : Hw).setRoute 65535 0xFFFFFFFF).reg (Reg.FR_ROUTE 65535) = 0 := by decide
theorem wit_congestion_window : ({ windows := [(100000, 0, [])] } : Router).windows[0]? = some (100000, 0, []) ∧ (0#32).toNat < 16 := by decide
theorem wit_link_sets : linkSet 23 = some [23] ∧ linkSet 24 = none ∧ linkSet 255 = some (List.range 24) ∧
    (255#32).toNat = 0xFF ∧ ({} : Hw).isUp 23 = false ∧ ({} : Hw).flag (Fd.FL_CTRL.EN 23) = false ∧
    ({} : Hw).flag (Fd.FR_PORT_CFG.UNUSED 23) = true ∧
    ((({} : Hw).setFlag (Fd.FL_CTRL.EN 23) true).setFlag (Fd.FR_PORT_CFG.UNUSED 23) false).flag (Fd.FR_PORT_CFG.UNUSED 23) = false := by
  decide

/-! ## Fabric links -/

theorem wit_link_up : (onLink 4 {}).isUp 3 = true ∧ (onLink 5 {}).isUp 3 = false ∧
    ({} : Hw).flag (Fd.FL_CTRL.AUTO_RETRAIN 3) = true ∧ (({} : Hw).setFlag (Fd.FL_CTRL.AUTO_RETRAIN 3) false).flag
      (Fd.FL_CTRL.AUTO_RETRAIN 3) = false := by decide
/-- R249: −12.0 dBm is not below −12 dBm, and −10.0 dBm is not above −10 dBm. -/
theorem test_detector_bounds : signedOf 8 (0x88#8).toNat = -120 ∧ signedOf 8 (0x87#8).toNat = -121 ∧
    signedOf 8 (0x9C#8).toNat = -100 ∧
    signedOf 8 (0x9D#8).toNat = -99 := by decide
theorem wit_training_steps : ∀ k < 9, ((onLink 2 { step := k }).link 3).step = k ∧
    (onLink 2 { step := k }).isUp 3 = false := by decide
theorem wit_lanes : (∀ i < 8, i ≠ 5 → ({} : Hw).flag (Fd.FL_LANE_STATUS.LOS 3 i) = false ∧
    ({} : Hw).flag (Fd.FL_LANE_STATUS.LOL 3 i) = false) ∧
    (({} : Hw).setFlag (Fd.FL_LANE_STATUS.LOS 3 2) true).flag (Fd.FL_LANE_STATUS.LOS 3 2) = true ∧
    (({} : Hw).setFlag (Fd.FL_LANE_STATUS.LOL 3 2) true).flag (Fd.FL_LANE_STATUS.LOL 3 2) = true ∧
    ({} : Hw).laneLocked 3 2 = false ∧ (({} : Hw).setLock 3 2 true).laneLocked 3 2 = true := by decide
/-- R246: a lane locks at the 64th valid header in a row; R247: it loses lock at the 16th invalid one of 64. -/
theorem test_block_lock : (({ hunt := 62 } : Lane).headers false [true]).2.1 = false ∧
    (({ hunt := 63 } : Lane).headers false [true]).2.1 = true ∧
    (({} : Lane).headers true (List.replicate 15 false ++ List.replicate 49 true)).2.1 = true ∧
    (({} : Lane).headers true (List.replicate 15 false ++ List.replicate 48 true ++ [false])).2 = (false, true) ∧
    (({} : Lane).headers true (List.replicate 15 false ++ List.replicate 49 true ++ [false])).2 = (true, false) := by decide +kernel
theorem wit_control : bitsAt (3 * 2 ^ 55 + 2 * 2 ^ 37) 55 3 = 3 ∧ bitsAt (3 * 2 ^ 55 + 2 * 2 ^ 37) 37 2 = 2 ∧
    bitsAt (2 ^ 37) 37 2 = 1 ∧
    ([] : List Bool).count false < 16 := by decide
theorem wit_codeword_counts : 15 ≤ (((List.replicate 15 1999999999) : List Nat).filter (fun a => decide (2000000000 < a + 1000000))).length ∧
    (([] : List Nat).filter (fun a => decide (2000000000 < a + 1000000))).length < 15 := by decide
/-- R252: 77 slots with nothing to send are FILLERs; with enough blocks every 40th slot is one. -/
theorem test_fillers : ({} : Link).fillSlots.2.1 = List.replicate 77 fillerBlock ∧
    ((({ blocks := List.replicate 80 (false, 2 ^ 64) } : Link).fillSlots.2.1.take 40).filter (fun b => b == fillerBlock)).length = 1 := by
  decide +kernel
/-- R256: the bounds of step 4, full and fast, and of the wait for IDENT, with their reasons. -/
theorem test_step_bounds : stepBound 3 false = (15000000000, 9) ∧ stepBound 3 true = (20000000, 9) ∧ stepBound 6 false = (100000000,
    5) ∧
    stepBound 5 true = (1000000, 4) := by decide
theorem wit_timeout : ((onLink 2 { step := 3, stepTb := 0, fast := true }).link 3).stepTb + 20000000 < (onLink 2 {}).tb ∧
    (onLink 2 {}).linkState 3 = 2 ∧ (onLink 3 { step := 6 }).linkState 3 = 3 ∧
    ((onLink 3 { step := 6, identIn := some (7, 23) }).link 3).identIn = some (7, 23) ∧
    (((onLink 3 {}).setFld (Fd.FR_PORT_CFG.PEER_FID 3) 7).setFld (Fd.FR_PORT_CFG.PEER_LINK 3) 23).fld (Fd.FR_PORT_CFG.PEER_FID 3) = 7 ∧
    (((onLink 3 {}).setFld (Fd.FR_PORT_CFG.PEER_FID 3) 7).setFld (Fd.FR_PORT_CFG.PEER_LINK 3) 23).fld (Fd.FR_PORT_CFG.PEER_LINK 3) = 23 ∧
    ({} : Hw).fld (Fd.FR_PORT_CFG.PEER_FID 3) ≠ 7 := by decide
theorem wit_skew : (∃ i < 8, 48 < (([(0, [], 49)] : List (Nat × List Int × Nat)).getD i (0, [], 0)).2.2) ∧
    (∀ i < 8, (([(0, [], 48)] : List (Nat × List Int × Nat)).getD i (0, [], 0)).2.2 ≤ 48) ∧
    (onLink 2 { step := 5 }).fld (Fd.FL_STATE.LANES_LOCKED 3) ≠ 0xFF ∧
    ((onLink 2 {}).setFld (Fd.FL_STATE.LANES_LOCKED 3) 0xFF).fld (Fd.FL_STATE.LANES_LOCKED 3) = 0xFF := by decide
theorem wit_window_quality : ((onLink 4 { symWin := 17000001, symTb := 0 }).link 3).symTb + 1000000000 ≤ (onLink 4 {}).tb ∧
    (17000000 < (17000001 : Nat)) ∧ ((onLink 4 { degGood := 9 }).link 3).degGood = 9 := by decide
theorem wit_scan : ((0x80000000 : W32).getLsbD 31) = true ∧
    (((onLink 4 { lanes := [(2, { scanEnd := some 5 })] }).link 3).lane 2).scanEnd = some 5 ∧
    (5 ≤ (onLink 4 {}).tb) := by decide
/-- *FL_SCAN_CTRL*: offsets are clamped to −63 and 31. -/
theorem test_scan_clamp : signedOf 8 ((scanWriteHw 3 2 0x00008040 {}).fld (Fd.FL_SCAN_CTRL.VOFF 3 2)) = -63 ∧
    signedOf 8 ((scanWriteHw 3 2 0x00008040 {}).fld (Fd.FL_SCAN_CTRL.HOFF 3 2)) = 31 ∧
    (scanWriteHw 3 2 0x30000000 {}).fld (Fd.FL_SCAN_CTRL.EYE 3 2) = 0 := by decide

/-! ## The router -/

/-- Link 3 of package 9 with these packets received. -/
def onPort (rxq : List Packet) : Hw := (onLink 4 { rxq := rxq, rxExp := 5 }).setFld Fd.FR_FID.FID 9
theorem wit_received : ((onPort [pkt 9 5]).link 3).rxq = pkt 9 5 :: [] ∧ ((onPort []).link 3).rxq = [] ∧ (pkt 9 5).typeOk = true ∧
    (pkt 9 5).trail ≠ .bad ∧ (pkt 9 5).dst = (onPort []).fld Fd.FR_FID.FID ∧ (onPort []).isLocal 8 = false ∧
    (onPort []).candidates 8 = [] ∧ (onPort []).fld Fd.FR_CTRL.HOP_LIMIT = 64 ∧ (pkt 9 5).hops < 64 := by decide
/-- R268: a packet behind the expected one by up to half the range is old; any other number is ahead. -/
theorem test_acceptance : ((onPort []).link 3).judge (pkt 9 5) = .accept ∧ ((onPort []).link 3).judge (pkt 9 4) = .old ∧
    ((onPort []).link 3).judge (pkt 9 6) = .ahead ∧ ((onPort []).link 3).judge (pkt 9 (2 ^ 24 - 1)) = .old ∧
    ((onPort []).link 3).judge { pkt 9 5 with trail := .stomped } = .stomp ∧
    ((onPort []).link 3).judge { pkt 9 5 with trail := .bad } = .damaged ∧
    ((onPort []).link 3).judge { pkt 9 4 with hcrcOk := false } = .damaged := by decide
/-- R264: 5 blocks without payload, 517 with 4,096 bytes; R271: a class other than the type's. -/
theorem test_packet_size : ({ pkt 9 5 with payload := [] } : Packet).blockCount = 5 ∧
    ({ pkt 9 5 with payload := List.replicate 4096 0 } : Packet).blockCount = 517 ∧
        ({ pkt 9 5 with tc := 1 } : Packet).typeOk = false ∧
    ({ pkt 9 5 with ptype := 0x31 } : Packet).typeOk = false := by decide +kernel
/-- R274: fewest units in use, then a port of the hub, then the lowest number; and the route of an entry. -/
def routed : Hw := (onLink 4 {}).setFld (Fd.FR_ROUTE.PORTS 8) 0x8
theorem wit_route : routed.choosePort 0 (some (3, 0)) (pkt 8 5) = some (3, 0) ∧ routed.candidates 8 = [3] ∧
    routed.flag (Fd.FR_ROUTE.LOCAL 8) = false := by decide
theorem wit_send : (onLink 4 {}).isUp 3 = true ∧
    ((onLink 4 { queue := [⟨pkt 8 5, 0, none⟩] }).nextNew 3) = some ⟨pkt 8 5, 0, none⟩ ∧ ((onLink 4 {}).nextNew 3) = none ∧
    ((onLink 4 {}).link 3).keptBytes = 0 ∧ (onLink 4 {}).rtr.inj = [] ∧
    ((onLink 4 { again := [7], kept := [⟨7, pkt 8 7, 1, 0⟩] }).link 3).kept.find? (fun k => k.lseq == 7) = some ⟨7, pkt 8 7, 1,
        0⟩ := by
  decide
/-- R278: a full bucket holds 2,048 bytes, and 2,048 bytes come in 546.1 ns. -/
theorem test_bucket : (({ bucket := 0 } : Link).refill 546).bucket = 8190 ∧ (({ bucket := 0 } : Link).refill 600).bucket = 8192 := by
  decide
theorem wit_nak : ((onLink 4 { nakTb := some 5 }).link 3).nakTb = some 5 ∧ 5 ≤ (onLink 4 {}).tb ∧
    ((onLink 4 { replayFrom := some (7, 8) }).link 3).replayFrom = some (7, 8) := by decide
theorem wit_xtag : (∃ x ∈ ({ xtags := [(16383, 5)] } : Router).xtags, x.1 = 16383 ∧ x.2 ≤ (onLink 4 {}).tb) ∧
    ({} : Hw).flag Fd.FR_TIME_CTRL.EN = true ∧ ({} : Hw).rtr.timeTb.getD 1 0 ≤ ({} : Hw).tb := by decide
/-- A TIME packet in order from link 3, sent at 1,000 with echo (200, 400). -/
def timePkt : Packet :=
  { pkt 9 0 with ptype := 0x01, tc := 0, payload := beBytes 8 1000 ++ beBytes 8 200 ++ beBytes 8 400 ++ [1, 2] ++ List.replicate 6 0 }
def timed : Hw := (({ rtr := { deliv := [⟨timePkt, some 3, 1500⟩] } } : Hw).setFld Fd.PKG_TIME_CTRL.SRC 3).setFld Fd.FR_TIME_CTRL.UP_LINK 3
theorem wit_time : timed.delivered (fun p => p.ptype == 0x01) = some ⟨timePkt, some 3, 1500⟩ ∧ timed.fld Fd.PKG_TIME_CTRL.SRC = 3 ∧
    timed.fld Fd.FR_TIME_CTRL.UP_LINK = 3 ∧ bitAt (beNat ((timePkt.payload.drop 24).take 1)) 0 = true := by decide
/-- R281: delay 350, offset 1,500 − 1,000 − 350 = 150; the stratum is one more. -/
theorem test_time_offset : (timeReceiveHw timed).slew = -150 ∧
    (timeReceiveHw timed).fld Fd.FR_TIME_CTRL.STRATUM = 3 := by decide +kernel
theorem wit_congestion : ({ tb := 100000 } : Hw).rtr.winTb + 100000 ≤ ({ tb := 100000 } : Hw).tb ∧
    (({} : Hw).setFlag Fd.FR_STATUS.QUIESCED true).fabricEmpty = true := by decide

/-! ## Collectives -/

/-- COLL of declaration 1: contribution by descriptor 0, result by descriptor 1, SEQ by descriptor 2. -/
def collWord : Nat := 0x43 * 2 ^ 120 + 0 * 2 ^ 80 + 1 * 2 ^ 68 + 2 * 2 ^ 56 + 1 * 2 ^ 44
def collImage (a : Int) : Image :=
  { imageOf [spadAt a, spadAt 4096, valueOf 5] with colls := [⟨1, 3, 0, 8, 0, true, 64, 0⟩] }
theorem wit_coll_work : ((working 3 collWord (collImage 0)).hw.work (strmAt 3) 0x43).isSome = true ∧
    ((working 3 collWord (collImage 0)).hw.work (strmAt 3) 0x42).isSome = false ∧
    (collImage 0).colls.find? (fun c => c.id == bitsAt collWord 44 12) = some ⟨1, 3, 0, 8, 0, true, 64, 0⟩ ∧
    (spadAt 0).value [] % 4 = 0 ∧ (spadAt 2).value [] % 4 ≠ 0 ∧
    (collImage 0).valueOf 0 0 (bitsAt collWord 56 12) [] 16 = 5 := by decide +kernel
/-- Entry 3 of job 9 with two members, live and free. -/
def grouped (h : Hw) : Hw :=
  ((h.setReg (Reg.CVE_GRP_W0 3) 0x00550009).setReg (Reg.CVE_GRP_W1 3) 0x80001007).setReg (Reg.CVE_GRP_W2 3) 0x00020000
theorem wit_group_entry : (grouped {}).groupLive 3 = true ∧ ({} : Hw).groupLive 3 = false ∧
    (grouped {}).fld (Fd.CVE_GRP_W0.JOB 3) = 9 ∧
    (grouped {}).flag (Fd.CVE_GRP_W1.BOUND 3) = false ∧ (grouped {}).fld (Fd.CVE_GRP_W2.M 3) = 2 ∧
        (grouped {}).groupOf 0x55 7 = some 3 ∧
    (grouped {}).groupOf 0x55 8 = none ∧ (grouped {}).seqCurrent 3 5 = true ∧ (grouped {}).seqCurrent 3 32768 = false := by
  decide +kernel
/-- R291: 64 bytes fit groups of 2, 4 and 8, not of 3; R296: the base is the oldest SEQ in progress, across the wrap. -/
theorem test_sizes : sizeOk 0 64 2 = true ∧ sizeOk 0 64 8 = true ∧ sizeOk 0 64 3 = false ∧ sizeOk 2 64 3 = true ∧
    sizeOk 2 60 3 = false := by
  decide
/-- A ring collective of two members, of 64 bytes of INT32, and a gust one. -/
def ring2 : Coll :=
  { ctx := 0, lc := 0, lk := 0, idx := 0, grp := 3, gid := 0x55, seq := 5, gen := 7, op := 0, dtype := 0, redop := 0, collId := 1,
    stageOk := true, bytes := 64, m := 2, me := 0, gust := false, src := (1, 0, 0), srcV := 0, dst := (1, 0, 0), dstV := 4096,
    startTb := 0 }
def withColl (c : Coll) : Hw := { grouped powered.hw with cve := { colls := [c] }, tb := 200000000 }
theorem test_base : ({ cve := { colls := [{ ring2 with seq := 1 }, { ring2 with seq := 65535 }] } } : Hw).groupBase 3 = 65535 ∧
    ({ cve := { grps := [(3, { last := some 65535 })] } } : Hw).groupBase 3 = 0 ∧ (withColl ring2).groupBase 3 = 5 := by decide
/-- R299, R300: slots for 1 MiB, 128 KiB and 64 KiB chunks; with 7 slots free a 1 MiB collective gets 512 KiB. -/
theorem test_slots : collSlots 1048576 = 8 ∧ collSlots 131072 = 1 ∧ collSlots 65536 = 1 ∧ fitChunk 4 7 1048576 = 524288 ∧
    fitChunk 4 0 1048576 = 65536 := by decide
theorem wit_admit : (withColl ring2).admitQueue 0 = [ring2] ∧ (withColl ring2).admitQueue 1 = [] ∧ (withColl ring2).channels 0 = 0 ∧
    (withColl ring2).slotsFree 0 < collSlots 65536 ∧
        ((withColl ring2).setFld (Fd.HUB_PRIVMEM_STATUS.CVE_SLOTS_GOOD 0) 96).slotsFree 0 = 96 ∧
    (withColl ring2).coll? 3 5 = some ring2 ∧ (withColl ring2).coll? 3 6 = none ∧
        ring2.startTb + 100000000 ≤ (withColl ring2).tb := by
  decide +kernel
/-- A delivered collective packet of GID 0x55, SEQ 5, GEN 7, with the rest of its TSPEC and a payload. -/
def collPkt (ty rest : Nat) (pl : List Byte) : Packet :=
  { pkt 9 0 with ptype := ty, tc := 1, tspec := 0x55 * 2 ^ 80 + 5 * 2 ^ 64 + 7 * 2 ^ 56 + rest, payload := pl }
/-- An ANNOUNCE of member 1 of an all-reduce as `ring2`, granting windward credit with chunks of 128 KiB. -/
def announce : Packet := collPkt 0x11 (1 * 2 ^ 52) ([0, 0, 0, 1, 0, 2, 0, 1, 0, 0, 0, 0, 0, 0, 0, 64, 0, 0] ++ List.replicate 14 0)
theorem wit_announce : isCtrl 1 announce = true ∧ isCtrl 2 announce = false ∧ announce.payload.length = 32 ∧
    beNat (announce.payload.take 1) = ring2.op ∧ beNat ((announce.payload.drop 1).take 1) = ring2.dtype ∧
    beNat ((announce.payload.drop 4).take 2) = ring2.m ∧ beNat ((announce.payload.drop 6).take 2) = ring2.next 0 ∧
    beNat ((announce.payload.drop 8).take 8) = ring2.bytes ∧ (ring2.dir 0).nbChunk = none ∧
    ({ rtr := { deliv := [⟨announce, some 3, 5⟩] } } : Hw).delivered (isCtrl 1) = some ⟨announce, some 3, 5⟩ := by decide
theorem wit_pool : ({ pool := List.replicate 8 ⟨4, 0, [], none⟩ } : Grp).pool.length = 8 ∧ ({} : Grp).pool.length < 8 ∧
    (∀ e ∈ ({ pool := List.replicate 8 ⟨4, 0, [], none⟩ } : Grp).pool, e.seq ≠ 5) ∧ ({} : Hw).fld Fd.CVE_CTRL.EARLY_TO_MS = 2000 := by
  decide
/-- R294: in a group of 4, what member 0 sends at each step of an all-reduce and of an all-gather, windward. -/
theorem test_steps : (List.range 6).map (fun s => { ring2 with m := 4 }.sentBlock 0 s 0) = [3, 2, 1, 0, 3, 2] ∧
    (List.range 3).map (fun s => { ring2 with m := 4, op := 2 }.sentBlock 0 s 0) = [0, 3, 2] ∧
    (List.range 3).map (fun s => { ring2 with m := 4 }.sentBlock 0 s 1) = [1, 2, 3] := by decide
/-- R304: ascending c + s, ties to the smaller s. -/
theorem test_order : { ring2 with m := 3, op := 2 }.order 2 = [(0, 0), (0, 1), (1, 0), (1, 1)] := by decide
/-- R306, the worked example: the digest of (14, 9) is 23, 32 and passes; that of (14, 25) is 39, 64 and does not. -/
def int2 (a b : Nat) : List Byte := leBytes 4 a ++ leBytes 4 b
theorem test_digest : digestOf .int32 (int2 14 9) = ⟨23, 32, 23, false, false⟩ ∧ digestOf .int32 (int2 14 25) = ⟨39, 64, 39, false,
    false⟩ ∧
    compareDigest .int32 true 4 2 ⟨23, 32, 0, false, false⟩ ⟨23, 32, 0, false, false⟩ = .exact ∧
    compareDigest .int32 true 4 2 ⟨23, 32, 0, false, false⟩ ⟨39, 64, 0, false, false⟩ = .fails ∧
    combineBytes .int32 0 (int2 9 7) (int2 5 2) = (int2 14 9, false, false) := by decide +kernel
/-- `ring2` with both neighbours announced at 64 KiB. -/
def ringOn : Coll := { ring2 with phase := .running, chunk := 65536, wind := { nbChunk := some 65536, credit := 2 },
                                  lee := { nbChunk := some 65536, credit := 2 } }
theorem wit_segments : ringOn.recvStep 0 0 0 = some 0 ∧ ringOn.recvChunk 0 = some 65536 ∧ ringOn.sendChunk 0 = some 65536 ∧
    ringOn.chunkLen 65536 0 = 16 ∧ ringOn.reduces 0 = true ∧ ringOn.reduces 1 = false ∧
    ({ segs := [(0, List.replicate 16 1)] } : RxChunk).whole 16 = some (List.replicate 16 1) ∧ ({} : RxChunk).whole 16 = none ∧
    crc64 (List.replicate 16 1) ≠ 0 ∧ (withColl ringOn).nextSend 0 = some (ringOn, 0, .data 0 0) ∧
        (withColl ringOn).nextSend 1 = none ∧
    ringOn.toReduce = none := by decide +kernel
theorem wit_reduce : { ringOn with wind := { ringOn.wind with rx := [(rxKey 0 0, { segs := [(0, List.replicate 16 1)], checked := true })] } }.toReduce =
    some (0, 0, 0) := by decide +kernel
/-- CRC-64 (R305) of the nine digits, the published check value. -/
theorem test_crc64 : crc64 [0x31, 0x32, 0x33, 0x34, 0x35, 0x36, 0x37, 0x38, 0x39] = 0x6C40DF5F0B497347 := by decide +kernel
theorem wit_gust : (({ ring2 with gust := true, bytes := 8 } : Coll).bytes / 4 = 2) ∧
    bitsAt (collPkt 0x04 (2 ^ 54 + 2 ^ 49) []).tspec 54 1 = 1 ∧
    bitsAt (collPkt 0x04 (2 ^ 54 + 2 ^ 49) []).tspec 52 2 = 0 ∧ bitsAt (collPkt 0x04 (2 ^ 54 + 2 ^ 49) []).tspec 49 3 + 1 = 2 ∧
    gustSums { ring2 with bytes := 8 } (int2 14 9) = (23, 32) := by decide +kernel

/-! ## Faults and memory tests -/

/-- A context whose fault has been detected. -/
def faultRec : FaultRec := ⟨5, 9, 0, 1, dAlign, 0, 0, 0, 0, 0, 0, []⟩
def faulty (st : CtxState) (step : FaultStep) : Ctx := ctxOn st Image.empty { fault := some faultRec, faultStep := step, drainTb := 5 }
def faultHw (st : CtxState) (step : FaultStep) : Hw := { powered.hw with ctxs := [(0, faulty st step)] }
theorem wit_fault : (faultHw .faulted .detected).flag Fd.CPX_AUTH.HELD = true ∧
    (faulty .faulted .detected).run.fault = some faultRec ∧
    (faulty .faulted .detected).transfers = 0 ∧ (faultHw .faulted .detected).captureLocked 56 = false ∧
    56 / 8 ∈ (faultHw .faulted .detected).plu.diesUp ∧ ({} : Hw).flag Fd.CPX_AUTH.HELD = false ∧
    (ctxOn .running Image.empty {}).canFault = true := by decide
theorem wit_drains : Tab.find? (faultHw .aborting .draining).ctxs 0 = some (faulty .aborting .draining) ∧
    (faulty .aborting .draining).run.drainTb + 100000 ≤ (faultHw .aborting .draining).tb ∧ Tab.find? ({} : Hw).ctxs 0 = none := by
  decide
/-- A detection: the record has the detail's class, the job and the time (R380, R381). -/
theorem test_raise : ((running Image.empty {}).hw.raise 0 ⟨dAlign, []⟩ 1 2 3).ctxs.map (fun q => q.2.run.fault.map (fun r =>
    [r.tb, r.job, r.cls, r.detail, r.punit, r.lunit, r.index])) = [some [20000000, 9, 1, 0x10A, 1, 2, 3]] := by decide
theorem wit_squall : ({ active := [⟨[], [], 2, 100⟩] } : SquallSt).active = ⟨[], [], 2, 100⟩ :: [] ∧
    squallHits true 9 5 (ctxOn .running Image.empty {}) = true ∧ squallHits true 9 0 (ctxOn .running Image.empty {}) = false ∧
    squallHits false 9 0 (ctxOn .running Image.empty {}) = true ∧ squallHits false 8 0 (ctxOn .running Image.empty {}) = false ∧
    squallHits false 9 0 (ctxOn .loaded Image.empty {}) = false := by decide
def squallPkt : Packet := { pkt 9 0 with ptype := 0x03, tc := 0, payload := List.replicate 84 0 }
theorem wit_squall_packet : ({ rtr := { deliv := [⟨squallPkt, some 3, 5⟩] } } : Hw).delivered (fun p => p.ptype == 0x03) =
    some ⟨squallPkt, some 3, 5⟩ := by decide
/-- A unit with two counting events is checked: a pass makes it GOOD, a third event PERMANENT (R390). -/
def unitHist (n : Nat) : Hw :=
  { hist := { ents := List.replicate n ⟨0, punitClus 3, 4, 1, 0, 0, 1, 0, 0, true, false⟩,
              units := [(punitClus 3, { state := 1, checking := true })] } }
theorem wit_unit : ((unitHist 2).hist.units.getD (punitClus 3) {}).checking = true ∧ (unitHist 2).unitState (punitClus 3) = 1 ∧
    (unitHist 2).occupied (punitClus 3) = false ∧ (unitHist 2).hist.counting (unitHist 2).histNow (punitClus 3) = 2 ∧
    (unitHist 3).hist.counting (unitHist 3).histNow (punitClus 3) = 3 := by decide
/-- A cluster under test: region 5 of core 504 is next, of a bank that is ON. -/
def testing (b : Bgt) : Hw := { powered.hw with clus := [(56, { bgt := b })] }
theorem wit_test : (testing {}).flag (Fd.CD_MEMTEST_CTRL.EN 7) = true ∧ 56 / 8 ∈ (testing {}).plu.diesUp ∧
    ((testing { locked := true, lockTb := 5 }).clusOf 56).bgt.lockTb + 10000 ≤ (testing {}).tb ∧
    (testing {}).nextRegion 56 17408 = some (17408, false, false) := by decide +kernel
/-- R107: 17,472 regions in PERIOD_MIN minutes; the trace SRAM is the last part of a cluster. -/
theorem test_regions : regionAddr 56 0 = spadBase 504 ∧ regionAddr 56 9216 = cmemBase 56 ∧ regionAddr 56 17408 = traceBase 56 ∧
    regionAddr 56 17471 = captureAt 56 := by decide
theorem wit_scrub : (({} : Hw).setFlag (Fd.HBM_STATUS.IN_SERVICE 15) true).flag (Fd.HBM_STATUS.IN_SERVICE 15) = true ∧
    ({} : Hw).flag (Fd.HBM_STATUS.HOLD 15) = false ∧
    (({} : Hw).setFlag (Fd.HBM_SCRUB_CTRL.EN 15) true).flag (Fd.HBM_SCRUB_CTRL.EN 15) = true ∧
    ({ hbm := [(15, { scrubPos := 2684354559 })] } : Hw).hbmOf 15 = { scrubPos := 2684354559 } ∧
    (⟨[], [2 ^ 44 + 15 * 2 ^ 37]⟩ : Mem).ueIn (2 ^ 44 + 15 * 2 ^ 37) 32 ≠ none := by decide

/-! ## Streams and barriers -/

/-- An image of one logical core with stream words, channel 1 from SEQ to MXE0 of depth 2, and region 0 handed off by it. -/
def chan1 : ChanDecl := ⟨0, 0, 1, 2, 0, 0, 4, 255, 0, 255, 0⟩
def prog (ws : Tab (List Nat)) : Image :=
  { Image.empty with masks := [1], streams := ws, chans := [chan1], regions := [⟨1, 0, 0, 0, 4, 0, 0, 0, 4096, [(0, 0, 1)]⟩],
                     epochs := [⟨0, 100, 0, 0⟩, ⟨0, 100, 0, 0⟩], banksets := [[0, 0]] }
/-- NOP that waits on channel 1, NOP that posts to it, BAR of epoch 1, HALT. -/
def nopWait : Nat := 1 * 2 ^ 118 + 1 * 2 ^ 110
def nopPost : Nat := 1 * 2 ^ 116 + 1 * 2 ^ 98
def barWord : Nat := 3 * 2 ^ 120 + 1 * 2 ^ 82
def haltWord : Nat := 4 * 2 ^ 120
def ctxWith (img : Image) (run : CtxRun) : Ctx := ctxOn .running img run
theorem test_words : opcOf nopWait = 0 ∧ waitsOf nopWait = [1] ∧ postsOf nopWait = [] ∧ postsOf nopPost = [1] ∧
    opcOf barWord = 3 := by
  decide
theorem wit_start : (running (prog [(0, [nopWait])]) {}).hw.gateOpen = true ∧
    (running (prog [(0, [nopWait])]) {}).hw.admits (ctxWith (prog [(0, [nopWait])]) {}) 0 0 0 = true ∧
    (ctxWith (prog [(0, [nopWait])]) {}).tokensReady 0 0 (waitsOf nopWait) = false ∧
    (ctxWith (prog [(0, [nopWait])]) { chans := [(1, { tokens := [7] })] }).tokensReady 0 0 (waitsOf nopWait) = true ∧
    (ctxWith (prog [(0, [nopWait])]) {}).nextWord (strmKey 0 0 0) = some nopWait ∧
    (ctxWith (prog [(0, [nopWait])]) {}).lacking 0 0 [1] = some chan1 ∧
    (ctxWith (prog [(0, [nopWait])]) { streams := [(4, { arrival := .halt })] }).hasArrived chan1.producerOf = true ∧
    (running (prog [(0, [nopWait])]) {}).hw.admits (ctxWith (prog [(0, [nopWait])]) {}) 0 0 1 = false := by decide +kernel
theorem wit_placed : (ctxWith (prog []) {}).Placed ∧ (ctxWith (prog []) {}).allStreams.length = 5 := by
  unfold Ctx.Placed; decide +kernel
/-- Tokens wait in a channel, oldest first: a start takes one, a retirement posts one (R143, R167). -/
theorem test_tokens : (({} : CtxRun).putChan chan1 { tokens := [5, 9] }).take (prog []) chan1 =
    ({ ({} : CtxRun).putChan chan1 { tokens := [9] } with owners := [(65536 * 2, .strm 0 0 0)] }, 5) := by decide +kernel
/-- LOOP of 3, NOP, ENDLOOP, on the VXE stream; a bounded LOOP by length register 2. -/
def loop3 : Nat := 1 * 2 ^ 120 + 3 * 2 ^ 67
def loopLen : Nat := 1 * 2 ^ 120 + 2 ^ 91 + 3 * 2 ^ 67 + 2 * 2 ^ 63
def loopProg (w : Nat) : Image := prog [(2, [w, 0, 2 * 2 ^ 120, 0])]
def loopAt (w : Nat) (st : Stream) (lens : List W32) : State := running (loopProg w) { streams := [(2, st)], lens := lens }
theorem wit_loop : ((loopAt loop3 { pc := 1, inflight := [infl] } []).hw.work (strmAt 2) 0x01).isSome = true ∧
    ((loopAt loop3 { pc := 1, inflight := [infl] } []).hw.work (strmAt 2) 0x02).isSome = false ∧
    bitAt loop3 91 = false ∧ bitsAt loop3 67 24 = 3 ∧ bitAt loopLen 91 = true ∧ bitsAt loopLen 63 4 = 2 ∧
    ((loopAt loopLen { pc := 1, inflight := [infl] } [0, 0, 4]).hw.work (strmAt 2) 0x01).isSome = true ∧
    afterLoop [0, 2 * 2 ^ 120, 0] 0 1 = 3 := by decide +kernel
theorem wit_endloop : ((loopAt loop3 { pc := 3, loops := [⟨0, 3, 1⟩], inflight := [{ infl with idx := 2 }] } []).hw.work (strmAt 2)
    0x02).isSome = true ∧ ((running (prog [(1,
        [nopPost])]) { streams := [(1, { inflight := [infl] })] }).hw.work (strmAt 1) 0).isSome = true := by
  decide +kernel
/-- ENDLOOP goes back while iterations remain, and on after the last (R141). -/
theorem test_endloop : ((endloopHw (strmAt 2) (loopAt loop3 { pc := 3, loops := [⟨0, 3, 1⟩], inflight := [{ infl with idx := 2 }] }
      [])).ctxs.map (fun q => (q.2.run.strm 2).loops)) = [[⟨0, 3, 2⟩]] ∧
    ((endloopHw (strmAt 2) (loopAt loop3 { pc := 3, loops := [⟨0, 3, 2⟩], inflight := [{ infl with idx := 2 }] }
      [])).ctxs.map (fun q => ((q.2.run.strm 2).loops, (q.2.run.strm 2).pc))) = [([], 3)] := by decide +kernel
/-- CTRRD of the timebase to scratchpad byte 16. -/
def ctrWord : Nat := 5 * 2 ^ 120 + 0 * 2 ^ 80 + 0xC000 * 2 ^ 64
theorem wit_ctrrd : ((working 4 ctrWord (imageOf [spadAt 16])).hw.work (strmAt 4) 0x05).isSome = true ∧ bitsAt ctrWord 78 2 = 3 ∧
    (spadAt 16).value [] % 8 = 0 ∧ (spadAt 12).value [] % 8 ≠ 0 ∧
    (∀ w, (working 4 ctrWord (imageOf [spadAt 16])).hw.work (strmAt 4) 0x05 = some w → w.vop 80 = ⟨spadAt 16, 16⟩) ∧
    (({} : Hw).ctrVal (bankCore 0) 1 = 0) := by
  refine ⟨by decide +kernel, by decide, by decide, by decide, ?_, by decide⟩
  intro w h
  cases h
  rfl
/-- A TPOST whose token is on its way to channel 1 (a remote producer), and its arrival. -/
def tpostWord : Nat := 0x42 * 2 ^ 120 + 1 * 2 ^ 77
def tokenCtx (toks : List Nat) (pay : List (Nat × Nat)) : Ctx :=
  ctxWith { prog [(3, [tpostWord])] with chans := [{ chan1 with plc := 0, payLocal := 0, paySize := 64 }] }
    { streams := [(3, { inflight := [{ infl with done := true, landed := false }] })],
      chans := [(1, { tokens := toks, pay := pay })], owners := [(131072, .strm 0 0 3)] }
theorem wit_token : (tokenCtx [] [(0, 64)]).tokenOnWay (strmKey 0 0 3) = some (0, { infl with done := true, landed := false },
    tpostWord) ∧
    (tokenCtx [] []).img.tpostChan tpostWord = some { chan1 with plc := 0, payLocal := 0, paySize := 64 } ∧
    (tokenCtx [] []).executes 3 = true ∧ (tokenCtx [] []).core? 0 0 = some 504 ∧
    ((tokenCtx [] []).img.handoffs 0 0 1).all (fun g => (tokenCtx [] []).owner g == .strm 0 0 3) = true ∧
    (tokenCtx [1, 2] []).img.chans.map (fun d => decide (d.depth ≤ ((tokenCtx [1, 2] []).chan d).tokens.length)) = [true] ∧
    (ctxWith (prog []) {}).tokenOnWay 3 = none := by decide +kernel
theorem wit_retire : (running (prog [(4, [nopPost])]) {}).hw.retirable 504 { infl with done := true } = true ∧
    (running (prog [(4, [nopPost])]) {}).hw.retirable 504 infl = false ∧ (prog []).chan? 0 0 1 = some chan1 ∧
    ((prog []).handoffs 0 0 1).all (fun g => (ctxWith (prog []) {}).owner g == .strm 0 0 4) = true ∧
    ((prog []).handoffs 0 0 1).all (fun g => (ctxWith (prog []) {}).owner g == .strm 0 0 3) = false ∧
    (({} : Hw).clusOf 56).samp.armed = false := by decide +kernel
/-- A sample record is 32 bytes long (R432). -/
theorem test_sample : (sampleRec (ctxWith (prog []) {}) 504 0 0 4 9 infl nopPost).length = 32 := by decide +kernel
theorem wit_watchdog : (ctxWith (prog []) {}).host.stallMs * 1000000 ≤ (running (prog []) {}).hw.tb - ((ctxWith (prog []) {}).run.strm 0).lastTb ∧
    (ctxWith (prog []) {}).img.hasCore 0 0 = true ∧ (ctxWith (prog []) {}).img.hasCore 1 0 = false ∧
    ((ctxWith (prog []) { streams := [(2, { arrival := .halt })] }).run.strm 2).arrival ≠ .none := by decide +kernel
/-- All streams but MXE0 have arrived at a BAR of epoch 1, or at HALT. -/
def barCtx (a b : Arrival) (w : Nat) (toks : List Nat) : Ctx :=
  ctxWith (prog [(0, [w])])
    { streams := [(1, { arrival := a }), (2, { arrival := a }), (3, { arrival := a }), (4, { arrival := b })],
      chans := [(1, { tokens := toks })] }
theorem wit_bar : (barCtx (.bar 1) (.bar 1) barWord []).nextWord 0 = some barWord ∧
    powered.hw.admits (barCtx (.bar 1) (.bar 1) barWord []) 0 0 0 = true ∧
        powered.hw.admits (barCtx .halt .halt haltWord []) 0 0 0 = true ∧
    (barCtx (.bar 1) (.bar 1) barWord []).leftover = none ∧ (barCtx (.bar 1) (.bar 1) barWord [4]).leftover = some chan1 ∧
    ((barCtx (.bar 1) (.bar 2) barWord []).run.strm (strmKey 0 0 4)).arrival ≠ .bar (bitsAt barWord 82 10) ∧
    ((barCtx (.bar 1) .none barWord []).run.strm (strmKey 0 0 4)).arrival = .none ∧
    ((barCtx (.bar 1) .halt barWord []).run.strm (strmKey 0 0 4)).arrival = .halt := by decide +kernel
theorem wit_bank_plan : (∀ b ∈ (barCtx (.bar 1) (.bar 1) barWord []).bankPlan 1, b.2 ≠ 2) ∧
    (∀ b ∈ (barCtx (.bar 1) (.bar 1) barWord []).bankPlan 1, Tab.find? (powered.hw.clusOf (bankOwner b.1)).bgt.pend b.1 = none) ∧
    ((barCtx (.bar 1) (.bar 1) barWord []).bankPlan 1).length = 64 := by decide +kernel
theorem wit_move : (Mem.empty.seen Seen.clean).ueIn (hbmAddr (5 * pageBytes)) pageBytes = none ∧
    ((⟨[], [hbmAddr (5 * pageBytes)]⟩ : Mem).seen Seen.clean).ueIn (hbmAddr (5 * pageBytes)) pageBytes ≠ none ∧
    (ctxWith (prog []) { bar := .migrating, moves := [⟨3, 0, 5, 6⟩] }).run.moves = ⟨3, 0, 5, 6⟩ :: [] ∧ Mem.empty.wf = true := by
  decide +kernel

/-! ## Engines -/

/-- SETFMT of MXE0: A and B E4M3, output FP32, TOL 8. -/
def setfmtWord : Nat := 0x10 * 2 ^ 120 + 2 * 2 ^ 88 + 2 * 2 ^ 84 + 0 * 2 ^ 80 + 8 * 2 ^ 72
/-- MMA by descriptors 0 and 1, no scales, K = 32. -/
def mmaWord (o : Nat) : Nat := o * 2 ^ 120 + 0 * 2 ^ 80 + 1 * 2 ^ 68 + 0xFFF * 2 ^ 56 + 0xFFF * 2 ^ 44
def spadRows (a : Int) (stride : Nat) : Desc := ⟨1, 0, 0, 0, a, stride, []⟩
def mmaImg (a : Int) : Image := imageOf [spadRows a 64, spadRows 16384 64]
/-- The same with scratchpad bank 0 of the core ON. -/
def bankOn (s : State) : State := { s with hw := s.hw.setBank (spadBankAt 504 0) 0 }
theorem wit_mxe_work : ((working 0 setfmtWord Image.empty).hw.work (strmAt 0) 0x10).isSome = true ∧
    ((working 0 (mmaWord 0x11) (mmaImg 0)).hw.work (strmAt 0) 0x11).isSome = true ∧
    ((working 0 (mmaWord 0x12) (mmaImg 0)).hw.work (strmAt 0) 0x12).isSome = true ∧
    ((working 0 (mmaWord 0x13) (mmaImg 0)).hw.work (strmAt 0) 0x13).isSome = true ∧
    ((working 0 (mmaWord 0x12) (mmaImg 0)).hw.work (strmAt 0) 0x13).isSome = false := by decide +kernel
theorem wit_mma_align : ((working 0 (mmaWord 0x12) (mmaImg 0)).hw.work (strmAt 0) 0x12).map (fun w => w.mmaOps.misaligned) = some none ∧
    ((working 0 (mmaWord 0x12) (mmaImg 4)).hw.work (strmAt 0) 0x12).map (fun w => (w.mmaOps.misaligned).isSome) = some true ∧
    ((working 0 (mmaWord 0x12) (mmaImg 0)).hw.work (strmAt 0) 0x12).map (fun w =>
      match Hw.srcRow Mem.empty w.x w.w ((spadRows 0 64).unit 0 0) (bankOn (working 0 (mmaWord 0x12) (mmaImg 0))).hw (64, 128) with
      | (_, .ok p) => p.segs
      | _ => []) = some [(spadBase 504 + 64, 128)] := by decide +kernel
/-- LOADB's staging serves the MMA that names the same operands; its completion is due 64 steps after its issue. -/
theorem wit_staged : ((working 0 (mmaWord 0x12) (mmaImg 0)).hw.work (strmAt 0) 0x12).map (fun w =>
      ((w.mmaOps.staged {} 5).serves w.mmaOps {}, (w.mmaOps.staged {} 5).serves w.mmaOps { aFmt := 1 },
        (w.mmaOps.staged {} 5).issueSteps)) = some (true, false, 5) := by decide +kernel
/-- The spec's worked example of a checksum (R74): products, checksum row and checksum column; with 16 added to row 1, column 1 those
two lines fail, and the others pass. -/
def fp (n : Int) : Val := if n = 0 then .fin false 0 0 else .fin (decide (n < 0)) n.natAbs 0
def exA : List (List Val) := [[2, 1], [3, -1], [1, 4]].map (List.map fp)
def exB : List (List Val) := [[1, 3], [2, -2]].map (List.map fp)
def lineSums (l : List (List Val)) : List Val := (columns 2 l).map (fun c => (round48 (sumVals c)).1)
def holdsInt (x : Ewa) (n : Int) : Bool := decide (x.exact.2 ≤ 0) && x.exact.1 == n * 2 ^ (-x.exact.2).toNat
def exAcc (i j : Nat) : Ewa := Ewa.clear.dot (exA.getD i []) (exB.getD j [])
def exRow (j : Nat) : Ewa := Ewa.clear.dot (lineSums exA) (exB.getD j [])
def exCol (i : Nat) : Ewa := Ewa.clear.dot (exA.getD i []) (lineSums exB)
theorem test_products : holdsInt (exAcc 0 0) 5 = true ∧ holdsInt (exAcc 0 1) 2 = true ∧ holdsInt (exAcc 1 0) 0 = true ∧
    holdsInt (exAcc 1 1) 8 = true ∧ holdsInt (exAcc 2 0) 13 = true ∧ holdsInt (exAcc 2 1) (-6) = true := by decide +kernel
theorem test_checksums : holdsInt (exRow 0) 18 = true ∧ holdsInt (exRow 1) 4 = true ∧
    (List.range 3).map (fun i => holdsInt (exCol i) ([7, 8, 7].getD i 0)) = [true, true, true] := by
  decide +kernel
def flipped (x : Ewa) : Ewa := { x with a := x.a + 16 * 2 ^ (-x.l).toNat }
theorem test_compare :
    compareLine none [exAcc 0 0, exAcc 1 0, exAcc 2 0] (exRow 0) = some true ∧
    compareLine none [exAcc 0 1, exAcc 1 1, exAcc 2 1] (exRow 1) = some true ∧
    compareLine none [exAcc 0 1, flipped (exAcc 1 1), exAcc 2 1] (exRow 1) = some false ∧
    compareLine none [exAcc 1 0, flipped (exAcc 1 1)] (exCol 1) = some false := by decide +kernel
/-- A DRAIN costs 72 + (32 + 64) + 72 steps with the retry of one MMAZ of K = 32 (R75). -/
theorem test_retry_cost : 72 + retryCost { replay := [⟨0, 0, 0, 0, 0, 0, 0, 0, 4, 4, 32⟩] } = 240 := by decide +kernel
/-- An image whose region 0 belongs to the MXE1 stream. -/
def chkrdImg (a : Int) : Image := { imageOf [spadAt a] with regions := [⟨1, 0, 0, 0, 1, 0, 0, 0, 65536, []⟩] }
theorem wit_replay : ({ replay := List.replicate 64 ⟨0, 0, 0, 0, 0, 0, 0, 0, 0, 0, 32⟩ } : Mxe).replay.length = 64 ∧
    (({ replay := List.replicate 64 ⟨0, 0, 0, 0, 0, 0, 0, 0, 0, 0, 32⟩ } : Mxe).appendReplay ⟨0, 0, 0, 0, 0, 0, 0, 0, 0, 0,
        32⟩).replayOvf =
      true := by decide +kernel
/-- DRAIN to descriptor 0; the empty accumulation passes its check, in exact mode. -/
def drainWord : Nat := 0x14 * 2 ^ 120 + 0 * 2 ^ 80 + 0xFFF * 2 ^ 68 + 0xFFF * 2 ^ 56
theorem wit_drain : ((working 0 drainWord (imageOf [spadRows 0 256])).hw.work (strmAt 0) 0x14).map (fun w =>
      (drainMisaligned w .fp32).isNone) = some true ∧
    ((working 0 drainWord (imageOf [spadRows 4 256])).hw.work (strmAt 0) 0x14).map (fun w => (drainMisaligned w .fp32).isNone) =
      some false ∧
    ((working 0 drainWord (imageOf [spadRows 0 256])).hw.work (strmAt 0) 0x14).map (fun w => (drainDests w .fp32).2.2.isNone) =
      some true := by decide +kernel
theorem wit_chkrd : ((working 1 (0x15 * 2 ^ 120) (chkrdImg 64)).hw.work (strmAt 1) 0x15).map (fun w =>
    match Hw.dstRow Mem.empty w.x w.w ((spadAt 64).unit 0 0) (bankOn (working 1 (0x15 * 2 ^ 120) (chkrdImg 64))).hw (64, 32) with
    | (_, .ok p) => p.segs
    | _ => []) = some [(spadBase 504 + 64, 32)] ∧ (spadAt 64).value [] % 32 = 0 ∧ (spadAt 4).value [] % 32 ≠ 0 := by decide +kernel
/-- R78: with no DRAIN retired the record is 32 zero bytes. -/
theorem test_tile_none : tileBytes none = List.replicate 32 0 := by decide
/-- The word of the spec's worked example of an encoding (R193): MMAZ of descriptors 0 and 2, no scales, K = 1,024,
    waiting on channel 0. -/
def exampleWord : Nat := 0x134000000000002FFFFFF03E00000000
theorem test_example_word : opcOf exampleWord = 0x13 ∧ waitsOf exampleWord = [0] ∧ postsOf exampleWord = [] ∧
    bitsAt exampleWord 80 12 = 0 ∧ bitsAt exampleWord 68 12 = 2 ∧ bitsAt exampleWord 56 12 = 0xFFF ∧
        bitsAt exampleWord 44 12 = 0xFFF ∧
    32 * (bitsAt exampleWord 33 11 + 1) = 1024 ∧
    leBytes 16 exampleWord = [0, 0, 0, 0, 0x3E, 0xF0, 0xFF, 0xFF, 0x2F, 0, 0, 0, 0, 0, 0x40, 0x13] := by decide +kernel
/-- R46–R48, *Window loss in BF16*: three products leave 2 × 2^−74 with LOST set. -/
theorem test_window_loss : (([(Val.fin false 1 60), .fin false 3 (-75), .fin true 1 60] : List Val).foldl Ewa.add Ewa.clear) =
    { Ewa.clear with a := 2, l := -74, empty := false, lost := true } := by decide +kernel
/-- R56, *Draining to MXFP8 E4M3*: scale 0x80; 1,000, 3.3 (as 33/10 to 40 bits) and 0.001 (as 2^−10, rounded) give 0x7E, 0x3D,
    0x00. -/
theorem test_mx_drain : ((mxBlock .mxe4m3 false (.fin false 1000 0 :: .fin false 3628360341094 (-40) :: .fin false 1099511 (-50) ::
      List.replicate 29 (.fin false 0 0)) (List.replicate 32 .rne)).1,
    ((mxBlock .mxe4m3 false (.fin false 1000 0 :: .fin false 3628360341094 (-40) :: .fin false 1125899906 (-60) ::
      List.replicate 29 (.fin false 0 0)) (List.replicate 32 .rne)).2.1).take 3) = (0x80, [0x7E, 0x3D, 0x00]) := by decide +kernel
/-- R55: E4M3 overflows above 464, which ties to 448; E5M2 at 61,440, which ties to 65,536. -/
theorem test_overflow : ((Fmt.par .e4m3).convert .rne true (.fin false 464 0)).1 = 0x7E ∧
    ((Fmt.par .e4m3).convert .rne true (.fin false 465 0)).1 = 0x7F ∧
        ((Fmt.par .e4m3).convert .rne false (.fin true 500 0)).1 = 0xFE ∧
    ((Fmt.par .e5m2).convert .rne false (.fin false 61440 0)).1 = 0x7B ∧
        ((Fmt.par .e5m2).convert .rne true (.fin false 61440 0)).1 = 0x7C := by
  decide +kernel

/-! ## The vector engine -/

/-- A vector word of layout V1: `n` elements, `r` rows, format code, SUB, with descriptors 0, 1, 2, 3 as DDESC, S1, S2, S3. -/
def v1 (o n r fmt sub : Nat) : Nat :=
  o * 2 ^ 120 + 0 * 2 ^ 80 + 1 * 2 ^ 68 + 2 * 2 ^ 56 + 3 * 2 ^ 44 + fmt * 2 ^ 40 + (n - 1) * 2 ^ 27 + (r - 1) * 2 ^ 20 + sub * 2 ^ 16
def vecImage : Image :=
  { imageOf [spadAt 0, spadAt 64, spadAt 128, spadAt 192] with regions := [⟨1, 0, 0, 0, 2, 0, 0, 0, 65536, []⟩] }
def vec (o fmt sub : Nat) : State := bankOn (working 2 (v1 o 2 1 fmt sub) vecImage)
theorem wit_vector_work : [0x20, 0x21, 0x22, 0x23, 0x24, 0x25, 0x26, 0x27, 0x28, 0x29, 0x2A, 0x2B, 0x30, 0x31, 0x32, 0x33, 0x34, 0x35,
    0x36, 0x37].all (fun o => ((vec o 0 0).hw.work (strmAt 2) o).isSome && !((vec o 0 0).hw.work (strmAt 2) 0x10).isSome) = true := by
  decide +kernel
/-- Its operands can be read and written: two FP32 elements at byte 64, and a destination at byte 0. -/
theorem wit_vector_rows : ((vec 0x20 0 0).hw.work (strmAt 2) 0x20).map (fun w =>
    match ((vec 0x20 0 0).hw.vread Mem.empty w (w.vop 68) 1 8 4),
        ((vec 0x20 0 0).hw.dstRows Mem.empty w.x w.w ((w.vop 80).d.unit 0 0) [(0, 8)]) with
    | (_, .ok xs), (_, .ok ps) => (xs, ps.map (·.segs))
    | _, _ => ([], [])) = some ([0], [[(spadBase 504, 8)]]) := by decide +kernel
theorem wit_in_range : (ctxOn .running vecImage {}).InRange := by
  intro p h
  cases h
  decide
/-- 1 + 2 = 3, 3 − 1 = 2, 1.5 × 2 = 3, 2 × 3 + 1 = 7 in FP32; INT32 wraps (R59, R487). -/
theorem test_arith : fpAdd .fp32 0x3F800000 0x40000000 = (0x40400000, .none) ∧ fpSub .fp32 0x40400000 0x3F800000 = (0x40000000,
    .none) ∧
    fpMul .fp32 0x3FC00000 0x40000000 = (0x40400000, .none) ∧ fpFma .fp32 0x40000000 0x40400000 0x3F800000 = (0x40E00000, .none) ∧
    intAdd 0xFFFFFFFF 2 = (1, .none) ∧ intSub 0 1 = (0xFFFFFFFF, .none) := by decide +kernel
/-- R59: 1 + 2^−24 is inexact and ties to 1; the largest finite number doubled overflows; ∞ − ∞ is invalid; a NaN passes VMOV, VABS
and VNEG with its payload. -/
theorem test_flags : fpAdd .fp32 0x3F800000 0x33800000 = (0x3F800000, { inx := true }) ∧
    fpMul .fp32 0x7F7FFFFF 0x40000000 = (0x7F800000, { ovf := true, inx := true }) ∧
    fpSub .fp32 0x7F800000 0x7F800000 = (0x7FC00000, { inv := true }) ∧
    fpMul .fp32 0x00800001 0x3F000000 = (0x00400000, { unf := true, inx := true }) ∧
    absEl .fp32 0xFF800001 = 0x7F800001 ∧ negEl .fp32 0x7FC00055 = 0xFFC00055 := by decide +kernel
/-- R487: maximum and minimum, signed for INT32; the six comparisons of 1 and 2; a NaN is unordered. -/
theorem test_order_ops : (fpMax .fp32 0xBF800000 0x3F800000).1 = 0x3F800000 ∧ (fpMin .fp32 0xBF800000 0x3F800000).1 = 0xBF800000 ∧
    (intMax 0xFFFFFFFF 1).1 = 1 ∧ (intMin 0xFFFFFFFF 1).1 = 0xFFFFFFFF ∧
    (List.range 6).map (fun c => (cmpEl .fp32 c 0x3F800000 0x40000000).1) = [false, true, true, true, false, false] ∧
    (cmpEl .fp32 0 0x7FC00000 0x7FC00000).1 = false ∧ (cmpEl .fp32 1 0x7FC00000 0x7FC00000).1 = true := by decide +kernel
/-- R85: 1/0 is ∞ with overflow, 1/−∞ is −0; 1/√−0 is −∞ and 1/√−1 is invalid; e^89 overflows and e^−∞ is 0. -/
theorem test_function_edges : rcpEl 0 = (0x7F800000, { ovf := true }) ∧ (rcpEl 0xFF800000).1 = 0x80000000 ∧
    (rcpEl 0x40000000).1 = 0x3F000000 ∧
    rsqEl 0x80000000 = (0xFF800000, { ovf := true }) ∧ rsqEl 0xBF800000 = (0x7FC00000, { inv := true }) ∧
    (expEl 0x42B20000).1 = 0x7F800000 ∧ (expEl 0x42B20000).2.ovf = true ∧ (expEl 0xFF800000).1 = 0 := by decide +kernel
/-- R80, R487: sum, sum of squares, maximum and minimum of 1, 2, 3 in FP32. -/
theorem test_reduce : (List.range 4).map (fun sub => (redRow .fp32 sub [0x3F800000, 0x40000000, 0x40400000]).1) =
    [0x40C00000, 0x41600000, 0x40400000, 0x3F800000] := by decide +kernel
/-- R54–R57: FP32 to INT8 rounds to even and saturates with the invalid flag; 2^128 in MX becomes ∞ with overflow and inexact. -/
theorem test_convert : cvtEl .fp32 .int8 .rne false (Fmt.decode .fp32 0x40200000) = (2, { inx := true }) ∧
    cvtEl .fp32 .int8 .rne false (Fmt.decode .fp32 0x43800000) = (127, { inv := true }) ∧
    cvtEl .fp32 .int8 .rne false (Fmt.decode .fp32 0x7FC00000) = (0, { inv := true }) ∧
    cvtEl .mxe4m3 .fp32 .rne false (.fin false 1 128) = (0x7F800000, { ovf := true, inx := true }) ∧
    (cvtEl .fp32 .bf16 .rne false (Fmt.decode .fp32 0x3F808000)).1 = 0x3F80 := by decide +kernel
/-- R81: causal masks the keys beyond the query, a window of 2 those at or before query − 2; R82: a row of masked scores keeps its
state. -/
theorem test_softmax : (List.range 4).map (fun k => smxMasked 1 2 k 0) = [false, false, false, true] ∧
    (List.range 4).map (fun k => smxMasked 2 2 k 2) = [true, false, false, true] ∧
    smxRow 0 1 0 0 1 0x3F800000 0xFF800000 0x40000000 [0x3F800000, 0x3F800000] = ([0, 0], 0xFF800000, 0x40000000, 0x3F800000,
        .none) := by
  decide +kernel
/-- R83: a quarter turn (cos 0, sin 1) takes (1, 2) to (−2, 1), in both pairings. -/
theorem test_rope : (ropeRow .fp32 false 2 (0x3F800000 + 0x40000000 * 2 ^ 32) (fun _ => (0, 0x3F800000))).map Prod.fst =
      [0xC0000000, 0x3F800000] ∧
    (ropeRow .fp32 true 4 (0x3F800000 + 0x3F800000 * 2 ^ 32 + 0x40000000 * 2 ^ 64 + 0x40000000 * 2 ^ 96)
      (fun _ => (0, 0x3F800000))).map Prod.fst = [0xC0000000, 0xC0000000, 0x3F800000, 0x3F800000] := by decide +kernel
/-- R84: the first index at or above the declared source rows is out of range; an empty slot is not. -/
theorem test_slots_range : badSlot ⟨0, 1, 0, 0, 0, 3, 10, 0⟩ [9, 0xFFFFFFFF, 10] = some 2 ∧
    badSlot ⟨0, 1, 0, 0, 0, 3, 10, 0⟩ [9, 0xFFFFFFFF, 0] = none := by decide
def slotImage : Image := { vecImage with slots := [⟨2, 1, 0, 0, 0, 2, 4, 512⟩] }
theorem wit_slots : ((bankOn (working 2 (v1 0x37 1 1 0 0) slotImage)).hw.work (strmAt 2) 0x37).map (fun w =>
    (w.x.img.slot? (bitsAt w.word 56 12)).map (fun d =>
      match (bankOn (working 2 (v1 0x37 1 1 0 0) slotImage)).hw.readSlots Mem.empty w d with
      | (_, .ok idx) => idx
      | _ => [])) = some (some [0, 0]) := by decide +kernel

/-! ## The transfer engine -/

/-- MOVE of 2 rows of 8 bytes and FILL of 1 row of 4 bytes, from scratchpad byte 64 to byte 0. -/
def moveWord : Nat := 0x40 * 2 ^ 120 + 0 * 2 ^ 80 + 1 * 2 ^ 68 + 0xFFF * 2 ^ 56 + 1 * 2 ^ 40 + 1 * 2 ^ 22
def fillWord : Nat := 0x44 * 2 ^ 120 + 0 * 2 ^ 80 + 0x11223344 * 2 ^ 48
def txImage (a b : Int) : Image := imageOf [spadRows a 16, spadRows b 16]
def tx (w : Nat) (a b : Int) : State := bankOn (working 3 w (txImage a b))
theorem wit_transfer : ((tx moveWord 0 64).hw.work (strmAt 3) 0x40).map (fun w => (moveWork w Mem.empty (tx moveWord 0 64).hw).rows.map
      (fun q => (q.1.segs, q.2.length))) = some [([(spadBase 504, 8)], 8), ([(spadBase 504 + 16, 8)], 8)] ∧
    ((tx moveWord 0 66).hw.work (strmAt 3) 0x40).map (fun w => (moveWork w Mem.empty (tx moveWord 0 66).hw).stop.map (·.detail)) =
      some (some dAlign) ∧
    ((tx fillWord 0 64).hw.work (strmAt 3) 0x44).map (fun w => (fillWork w Mem.empty (tx fillWord 0 64).hw).rows.map Prod.snd) =
      some [[0x44, 0x33, 0x22, 0x11]] ∧
    ((tx fillWord 2 64).hw.work (strmAt 3) 0x44).map (fun w => (fillWork w Mem.empty (tx fillWord 2 64).hw).stop.map (·.detail)) =
      some (some dAlign) := by decide +kernel
/-- The spec's page-map entry of page 5 (R230): MXFP4, 8 heads, d = 128, region 7, at 1,392,640; its page is 278,528 bytes. -/
def entry5 : Nat := 0xC39070000000AA00
theorem test_page_entry : pageLen entry5 = some 278528 ∧ bitsAt entry5 44 8 = 7 ∧ 32 * bitsAt entry5 0 36 = 1392640 ∧
    entryOk entry5 entry5 (32 * 3264) (32 * 544) = true ∧ entryOk (entry5 - 2 ^ 63) entry5 0 32 = false ∧
        pageLen (entry5 + 2 ^ 60) = none := by
  decide +kernel
def pageWord : Nat := 0x41 * 2 ^ 120 + 0 * 2 ^ 80 + 1 * 2 ^ 68 + 0 * 2 ^ 54 + 0 * 2 ^ 38 + 0 * 2 ^ 22
theorem wit_pages : ((tx pageWord 0 64).hw.work (strmAt 3) 0x41).map (fun w => (pgCount w.word, pgBytes w.word,
      (movepgWork w Mem.empty (tx pageWord 0 64).hw).stop.map (·.detail))) = some (1, 32, some dPageInvalid) ∧
    ((tx pageWord 0 68).hw.work (strmAt 3) 0x41).map (fun w => (movepgWork w Mem.empty (tx pageWord 0 68).hw).stop.map (·.detail)) =
      some (some dAlign) := by decide +kernel
/-- A TPOST to channel 1 of the same core's number, whose core stands; and one to a core the context does not hold. -/
theorem wit_tpost : ((tx (0x42 * 2 ^ 120) 0 0).hw.work (strmAt 3) 0x42).map (fun w => (w.x.core? 0 0, w.w.n)) = some (some 504, 0) ∧
    ((tx (0x42 * 2 ^ 120 + 1 * 2 ^ 86) 0 0).hw.work (strmAt 3) 0x42).map (fun w => w.x.core? 1 0) = some none ∧
    (tx 0 0 0).hw.coreInReset 504 = false ∧
        ({ doms := [{ kind := 0, unit := 0x700, phase := .waits, drainTb := 0 }] } : Hw).coreInReset 504 = true := by decide +kernel
/-- *One translation*: offset 0x1234_5678 is page 0x91 at 0x14_5678; frame 0xB_2A3C puts it at PMA 0x165_4794_5678 (R128, R130). -/
theorem test_translation : pageSplit 2 0x12345678 4 = [(0x91, 0x145678, 4)] ∧ 0xB2A3C * pageBytes + 0x145678 = 0x16547945678 ∧
    bitsAt 0xB2A3C 16 4 = 11 := by decide +kernel
/-- A map entry of region 3, page 145 names its frame; entries of other pages, of no page and beyond the stacks do not. -/
def mapMem (e : Nat) : Mem := Mem.empty.edit (storeEdits (mapAddr 0 3 0x91 0) (leBytes 8 e) ++
    storeEdits (mapAddr 0 3 0x91 1) (leBytes 8 e))
def mapEnt (pfn lpn : Nat) : Nat := 2 ^ 63 + 2 ^ 62 + 3 * 2 ^ 48 + lpn * 2 ^ 24 + pfn
theorem wit_walk : leNat (leBytes 8 (mapEnt 0xB2A3C 0x91)) = mapEnt 0xB2A3C 0x91 ∧ bitsAt (mapEnt 0xB2A3C 0x91) 0 20 = 0xB2A3C ∧
    bitsAt (mapEnt 0xB2A3C 0x91) 48 8 = 3 ∧ bitsAt (mapEnt 0xB2A3C 0x91) 24 24 = 0x91 ∧ bitsAt (mapEnt 0xB2A3C 0x91) 0 16 < 40960 ∧
    40960 ≤ bitsAt (mapEnt 0xBA000 0x91) 0 16 ∧ (mapMem (mapEnt 0xB2A3C 0x91)).readLe (mapAddr 0 3 0x91 0) 8 = mapEnt 0xB2A3C 0x91 ∧
    (({} : Hw).cache 56).look 56 0 3 0x91 = none := by decide +kernel
/-- R134: an installed entry is found, by its own page only. -/
theorem test_fill : ((({} : XCache).fill 56 0 3 0x91 0xB2A3C true).look 56 0 3 0x91).map (·.pfn) = some 0xB2A3C ∧
    (({} : XCache).fill 56 0 3 0x91 0xB2A3C true).look 56 0 3 0x191 = none := by decide +kernel



/-! The check of well-formedness refuses one ill-formed command for each of its bounds, and accepts the largest one within it. -/
def okPeer : Peer := ⟨0, 4, 0⟩
def seenAt (a : Nat) : Seen := ⟨[a], [], []⟩
theorem test_wf_udp : (Instr.hello { hdr with peer := ⟨0, 65536, 0⟩ } 1 []).wf = false ∧ (Instr.hello hdr 1 []).wf = true := by decide
theorem test_wf_ip : (Instr.arp 0 ⟨2 ^ 128, 4, 0⟩ 0).wf = false ∧ (Instr.arp 0 ⟨2 ^ 128 - 1, 4, 0⟩ 0).wf = true := by decide
theorem test_wf_seen : (Instr.mma (strmAt 0) (seenAt (2 ^ 48))).wf = false ∧ (Instr.mma (strmAt 0) (seenAt (2 ^ 48 - 1))).wf = true := by decide
theorem test_wf_flips : (Instr.drain (strmAt 0) Seen.clean { flips := [(8384, 1)] }).wf = false ∧
    (Instr.drain (strmAt 0) Seen.clean { flips2 := [(8383, 1)] }).wf = true := by decide
theorem test_wf_slots : (Instr.stageEnd { slots := [97, 0] }).wf = false ∧ (Instr.stageEnd { slots := [96, 0] }).wf = true := by decide
theorem test_wf_hubs : (Instr.stageEnd { slots := [1, 1, 1] }).wf = false := by decide
theorem test_wf_sensors : (Instr.sensorSample 0 {}).wf = false ∧
    (Instr.sensorSample 0 ⟨List.replicate 16 none, List.replicate 8 none, List.replicate 8 0⟩).wf = true := by decide
theorem test_wf_wrong : (Instr.codewordReceive 0 0 545 0 (List.replicate 77 0) []).wf = false ∧
    (Instr.codewordReceive 0 0 544 0 (List.replicate 77 0) []).wf = true := by decide
theorem test_wf_ctl : (Instr.codewordReceive 0 0 0 (2 ^ 58) (List.replicate 77 0) []).wf = false := by decide
theorem test_wf_blocks : (Instr.codewordReceive 0 0 0 0 (List.replicate 76 0) []).wf = false := by decide
theorem test_wf_block : (Instr.codewordReceive 0 0 0 0 (List.replicate 77 (2 ^ 66)) []).wf = false := by decide
theorem test_wf_bad_head : (Instr.codewordReceive 0 0 0 0 (List.replicate 77 0) [77]).wf = false := by decide
theorem test_wf_training : (Instr.trainingStepDone 0 []).wf = false ∧ (Instr.trainingStepDone 0 (List.replicate 8 (0, [], 0))).wf = true := by
  decide
theorem test_wf_eye : (Instr.eyeScanDone 0 0 (2 ^ 32)).wf = false ∧ (Instr.eyeScanDone 0 0 (2 ^ 32 - 1)).wf = true := by decide
theorem test_wf_len : (Instr.regRead hdr 8193 0).wf = false ∧ (Instr.regRead hdr 8192 0).wf = true := by decide
theorem test_wf_payload : (Instr.rekey hdr (List.replicate 8193 0)).wf = false := by rw [Instr.wf, List.length_replicate]; decide
theorem test_wf_echo : (Instr.echo hdr [1] []).wf = false ∧ (Instr.echo hdr [1, 2, 3, 4, 5, 6] []).wf = true := by decide
theorem test_wf_rdma : (Instr.rdmaSend 0 0 0 (List.replicate 4097 0) Seen.clean).wf = false := by rw [Instr.wf, List.length_replicate]; decide
theorem test_wf_ycp_drop : (Instr.ycpDrop okPeer (List.replicate 9001 0)).wf = false := by rw [Instr.wf, List.length_replicate]; decide
theorem test_wf_icmp : (Instr.icmpEcho 0 okPeer false 0 (List.replicate 9001 0)).wf = false := by rw [Instr.wf, List.length_replicate]; decide
theorem test_wf_ccl : (Instr.cclWindowEnd false false (List.replicate 15 0) (List.replicate 28 0)).wf = false ∧
    (Instr.cclWindowEnd false false (List.replicate 16 0) (List.replicate 28 0)).wf = true := by decide
theorem test_wf_microcode : (Instr.microcodeBroadcast 0 (List.replicate 73 (0, []))).wf = false ∧
    (Instr.microcodeBroadcast 0 (List.replicate 72 (0, []))).wf = true := by decide

end Sys2Proof.Tests
end

section
/-!
PROOFS. The access types of register bits (R10): O12.
-/
namespace Sys2Proof.Machine

/-! ## Writes by access types (R10) -/

/-- One bit of a register after a write, from the types of the bit. -/
theorem RegRow.getLsbD_written (r : RegRow) (old v : W32) {i : Nat} (h : i < 32) :
    (r.written old v).getLsbD i =
      (((old.getLsbD i && !r.rw.testBit i) || (v.getLsbD i && r.rw.testBit i)) && !(v.getLsbD i && r.w1c.testBit i) ||
        (v.getLsbD i && r.w1s.testBit i)) := by
  simp only [RegRow.written, BitVec.getLsbD_or, BitVec.getLsbD_and, BitVec.getLsbD_not, BitVec.getLsbD_ofNat, h, decide_true,
    Bool.true_and]

/-- No bit of the row has two of the access types RW, W1C, W1S, WO and RC. -/
def RegRow.OneType (r : RegRow) : Prop :=
  r.rw &&& r.w1c = 0 ∧ r.rw &&& r.w1s = 0 ∧ r.w1c &&& r.w1s = 0 ∧ (r.rw ||| r.w1c ||| r.w1s) &&& (r.wo ||| r.rc) = 0 ∧
    r.wo &&& r.rc = 0

/-- The register tables of the spec give every bit at most one type. -/
theorem regRows_oneType (b : Blk) : ∀ r ∈ regRows b, r.OneType := by
  unfold RegRow.OneType
  cases b <;> decide +kernel

/-- Settles O12: a bit of one type reduces the rule of `getLsbD_written` to that type's, and the tables are finite data. -/
theorem writeFollowsAccessTypes : Obligations.WriteFollowsAccessTypes := by
  refine ⟨fun r old v i hi => ?_, regRows_oneType⟩
  rw [RegRow.getLsbD_written r old v hi]
  refine ⟨?_, ?_, ?_, ?_⟩ <;> intro rw w1c w1s <;> simp [rw, w1c, w1s]

end Sys2Proof.Machine
end

section
/-!
PROOFS. Reads and writes of registers, and the register commands of the host (R10, R34, R333): O13.
-/
namespace Sys2Proof.Machine

/-! ## Register accesses, one rule for each operation (R10, R34, R494) -/

/-- The checks of an access look neither at sessions nor at the firmware, which is all that hearing a packet changes. -/
theorem Hw.regCheck_heard (h : Hw) (hd : Hdr) (x : Session) (a : Nat) : (h.heard hd x).regCheck a = h.regCheck a := by
  unfold Hw.heard Hw.hostServed
  split <;> rfl

/-- What a session has captured is still captured when its packet has been accepted. -/
theorem Hw.captured?_heard {h : Hw} {hd : Hdr} {x : Session} (hx : h.session? hd.session.toNat = some x) (a : Nat) :
    (h.heard hd x).captured? hd.session.toNat a = Tab.find? x.captured a := by
  rw [Hw.captured?, Hw.session?_heard hx]
  rfl

theorem Hw.roleOf_heard {h : Hw} {hd : Hdr} {x : Session} (hx : h.session? hd.session.toNat = some x) :
    (h.heard hd x).roleOf hd.session.toNat = x.role := by
  rw [Hw.roleOf, Hw.session?_heard hx]
  rfl

theorem Hw.reg_heard (h : Hw) (hd : Hdr) (x : Session) (a : Nat) : (h.heard hd x).reg a = h.reg a :=
  Hw.only_heard.reg (by simp) a

/-- A read of a register that is no view of other state, that no read clears or captures, answers what it holds. -/
theorem Hw.regRead_plain {h : Hw} {m : Mem} {id a : Nat} {l : RegLoc}
    (hb : l.row.blk = .die ∨ l.row.blk = .rtr ∨ l.row.blk = .hbm) (hr : l.row.rc = 0) (hl : isLow a = false)
    (hc : h.captured? id a = none) : h.regRead m id a l = ((h.reg (canonReg a l)).toNat, h) := by
  have hv : h.view m a l = ((h.reg (canonReg a l)).toNat, h) := by
    rcases hb with e | e | e <;> simp only [Hw.view, e]
  simp only [Hw.regRead, hc, hv, Hw.capturePair, hl, hr, if_true, Bool.false_eq_true, if_false]

/-- A read of a captured high half answers the capture, whatever the register holds. -/
theorem Hw.regRead_captured {h : Hw} {m : Mem} {id a v : Nat} {l : RegLoc} (hr : l.row.rc = 0) (hl : isLow a = false)
    (hc : h.captured? id a = some v) : h.regRead m id a l = (v, h) := by
  simp only [Hw.regRead, hc, Hw.capturePair, hl, hr, if_true, Bool.false_eq_true, if_false]

theorem Hw.capturePair_low {h : Hw} {id a : Nat} (hl : isLow a = true) :
    h.capturePair id a = h.modSession id (fun x => { x with captured := Tab.put x.captured (a + 4) (h.highHalf (a + 4)) }) := by
  rw [Hw.capturePair, if_pos hl]

/-- A read of a low half leaves the high half, as it is now, captured for the session. -/
theorem Hw.session?_capturePair {h : Hw} {id a : Nat} {x : Session} (hl : isLow a = true) (hx : h.session? id = some x) :
    ∃ y, (h.capturePair id a).session? id = some y ∧ Tab.find? y.captured (a + 4) = some (h.highHalf (a + 4)) := by
  rw [Hw.capturePair_low hl, Hw.session?_modSession_same, hx]
  · exact ⟨_, rfl, Tab.find?_put_same _ _ _⟩
  · exact fun _ => rfl

theorem Hw.only_capturePair {h : Hw} {id a : Nat} : h.Only [.host] (h.capturePair id a) := by
  unfold Hw.capturePair
  exact Hw.Only.ite Hw.only_modSession (Hw.Only.refl _ _)

theorem Hw.talks_capturePair {h : Hw} {i id a : Nat} : h.Talks i (h.capturePair id a) := by
  unfold Hw.capturePair
  split
  · exact Hw.talks_modSession (fun _ => rfl)
  · exact Hw.Talks.refl _ _

/-! ### The registers of the timebase -/

/-- The place of PKG_TIMEBASE_LO and of PKG_TIMEBASE_HI in the map (R31, R34). -/
def timebaseLo : RegLoc := ⟨⟨"PKG_TIMEBASE_LO", .hubA, 0x10, 1, 0x0, 1, 0x0, 0x0, 0x0, 0x0, 0x0, 0x0, 0x0⟩, 0, 0x10, 0, 0⟩
def timebaseHi : RegLoc := ⟨⟨"PKG_TIMEBASE_HI", .hubA, 0x14, 1, 0x0, 1, 0x0, 0x0, 0x0, 0x0, 0x0, 0x0, 0x0⟩, 0, 0x14, 0, 0⟩

theorem Hw.regCheck_timebaseLo (h : Hw) : h.regCheck Reg.PKG_TIMEBASE_LO = .ok timebaseLo := by
  have e : regFind Reg.PKG_TIMEBASE_LO = some timebaseLo := by decide
  rw [Hw.regCheck, e]
  rfl
theorem Hw.regCheck_timebaseHi (h : Hw) : h.regCheck Reg.PKG_TIMEBASE_HI = .ok timebaseHi := by
  have e : regFind Reg.PKG_TIMEBASE_HI = some timebaseHi := by decide
  rw [Hw.regCheck, e]
  rfl

theorem Hw.regRead_timebaseLo {h : Hw} {m : Mem} {id : Nat} (hc : h.captured? id Reg.PKG_TIMEBASE_LO = none) :
    h.regRead m id Reg.PKG_TIMEBASE_LO timebaseLo = (h.tb % 2 ^ 32, h.capturePair id Reg.PKG_TIMEBASE_LO) := by
  have hv : h.view m Reg.PKG_TIMEBASE_LO timebaseLo = (h.tb % 2 ^ 32, h) := rfl
  have hr : timebaseLo.row.rc = 0 := rfl
  simp only [Hw.regRead, hc, hv, hr, if_true]

/-! ### Writes by access types alone -/

theorem Hw.only_plainWrite {h : Hw} {a : Nat} {l : RegLoc} {v : Nat} : h.Only [.regs] (h.plainWrite a l v) := Hw.only_setReg
theorem Hw.regsBut_plainWrite {h : Hw} {a : Nat} {l : RegLoc} {v : Nat} : h.RegsBut [canonReg a l] (h.plainWrite a l v) :=
  Hw.regsBut_setReg
theorem Hw.reg_plainWrite {h : Hw} {a : Nat} {l : RegLoc} (v : W32) :
    (h.plainWrite a l v.toNat).reg (canonReg a l) = l.row.written (h.reg (canonReg a l)) v := by
  simp [Hw.plainWrite]

theorem Hw.regWrite_plain {h : Hw} {f : Fuses} {role : Role} {a v : Nat} {l : RegLoc} (ho : h.ownWrite f role a l v = none) :
    h.regWrite f role a l v = (stOk, h.plainWrite a l v) := by
  rw [Hw.regWrite, ho]
  rfl

/-! ### Blocks of registers -/

theorem Hw.regReads_concat (h : Hw) (m : Mem) (id : Nat) (ls : List (Nat × RegLoc)) (q : Nat × RegLoc) :
    h.regReads m id (ls ++ [q]) = ((h.regReads m id ls).1 ++ [((h.regReads m id ls).2.regRead m id q.1 q.2).1],
      ((h.regReads m id ls).2.regRead m id q.1 q.2).2) := by
  rw [Hw.regReads, List.foldl_append]
  rfl

/-- Reads that leave the machine as it is answer their values in order. -/
theorem Hw.regReads_still {h : Hw} {m : Mem} {id : Nat} (v : Nat × RegLoc → Nat) (ls : List (Nat × RegLoc))
    (e : ∀ q ∈ ls, h.regRead m id q.1 q.2 = (v q, h)) : h.regReads m id ls = (ls.map v, h) := by
  induction ls using List.reverseRecOn with
  | nil => rfl
  | append_singleton ls q ih =>
    rw [Hw.regReads_concat, ih (fun p hp => e p (by simp [hp])), e q (by simp), List.map_append]
    rfl

theorem regFind_of_regCheck {h : Hw} {a : Nat} {l : RegLoc} (hc : h.regCheck a = .ok l) : regFind a = some l := by
  unfold Hw.regCheck at hc
  cases hk : regFind a with
  | none => rw [hk] at hc; cases hc
  | some k =>
    rw [hk] at hc
    dsimp only at hc
    split_ifs at hc
    exact congrArg some (Except.ok.inj hc)

/-- A block whose registers are all there. -/
theorem Hw.blockCheck_ok {h : Hw} {a n : Nat} {ls : Nat → RegLoc} (e : ∀ i < n, h.regCheck (a + 4 * i) = .ok (ls i)) :
    h.blockCheck a n = .ok ((List.range n).map (fun i => (a + 4 * i, ls i))) := by
  have hm : (List.range n).map (fun i => (a + 4 * i, h.regCheck (a + 4 * i))) =
      (List.range n).map (fun i => (a + 4 * i, (.ok (ls i) : Except Nat RegLoc))) :=
    List.map_congr_left (fun i hi => by rw [e i (List.mem_range.1 hi)])
  have hf : ∀ i < n, regFind (a + 4 * i) ≠ none := fun i hi => by simp [regFind_of_regCheck (e i hi)]
  unfold Hw.blockCheck
  rw [hm]
  rw [if_neg (by simpa using hf), if_neg (by simp [Except.toBool])]
  simp [List.filterMap_map]

/-! ## REG_READ, REG_WRITE, REG_RMW and REG_READ_BLOCK (R333) -/

/-- A session with a role may send every command that its opcode's list does not restrict (R447). -/
theorem contains_allRoles {r : Role} (h : r ≠ .none) : [Role.oper, .service, .vendor].contains r = true := by
  cases r
  case none => exact absurd rfl h
  all_goals rfl

/-- A served command of the host commits the effect of its checks and its body. -/
theorem commit_served {c : Instr} {s : State} {e : Eff} (v : s.hw.served = true) (h : exec c s = unlessCut c s (done s e)) :
    exec c s = .next (s.commit e) := h.trans (unlessCut_served c _ v)

/-- An admitted command whose effect is the hardware `g` and the reply `r`: it is answered, the parts that `g` leaves alone stay, and the
registers and the session's captures are those of `g`. -/
theorem hostCmd_did {sp : Spec} {hd : Hdr} {s : State} {x : Session} {body : State → Hw → Did} {g : Hw} {r : Rep} {ps : List Part}
    (a : Admits s hd x) (hr : sp.roles.contains x.role = true) (hl : sp.lenOk = true) (hc : sp.needsCtx = false)
    (hb : body s (s.hw.heard hd x) = { hw := g, rep := r }) (hp : ∀ p ∈ [Part.host, .fw, .out], p ∈ ps)
    (ho : (s.hw.heard hd x).Only ps g) (ht : (s.hw.heard hd x).Talks hd.session.toNat g) :
    Frame ps s (s.commit (hostCmd sp hd s body)) ∧
      Answered s (s.commit (hostCmd sp hd s body)) hd sp.opcode (r.status :: r.p) r.payload ∧
      (hostCmd sp hd s body).hw.regs = g.regs ∧
      (hostCmd sp hd s body).hw.session? hd.session.toNat =
        (g.session? hd.session.toNat).map (fun y => { y with txSeq := y.txSeq + 1, txCount := y.txCount + 1 }) := by
  have hc' : sp.needsCtx = true → (s.hw.ctxOf hd.ctx.toNat).isSome = true := fun e => by simp [hc] at e
  refine ⟨?_, ?_, ?_, ?_⟩
  · exact hostCmd_frame a hr hl hc' hp (by rw [hb]; exact ho) (fun k => by rw [hb]; exact ⟨Hw.Only.refl _ _, rfl⟩)
      (by rw [hb]) (by rw [hb])
  · have := hostCmd_answered (body := body) a hr hl hc' (by rw [hb]; exact ht) (fun k => by rw [hb]; exact ⟨[], by simp⟩)
    rwa [hb] at this
  · rw [hostCmd_run a hr hl hc', hb]
    exact ((Hw.only_answer.mono (by simp)).trans (Hw.only_settled.mono (by simp)) : g.Only [.host, .out] _) .regs (by simp)
  · rw [hostCmd_run a hr hl hc', hb]
    exact Hw.session?_settled.trans Hw.session?_send

theorem ReadsPlain.regCheck {s : State} {x : Session} {b : Nat} {l : RegLoc} (p : ReadsPlain s x b l) : s.hw.regCheck b = .ok l := p.1

/-- What an admitted session reads of a register that is no view of other state. -/
theorem ReadsPlain.regRead_heard {hd : Hdr} {s : State} {x : Session} {b : Nat} {l : RegLoc} (p : ReadsPlain s x b l)
    (a : Admits s hd x) : (s.hw.heard hd x).regRead s.mem hd.session.toNat b l =
      ((s.hw.reg (canonReg b l)).toNat, s.hw.heard hd x) := by
  obtain ⟨-, hblk, hrc, hlow, hcap⟩ := p
  rw [Hw.regRead_plain hblk hrc hlow ((Hw.captured?_heard a.2.1 b).trans hcap), Hw.reg_heard]

/-- Where the registers are those that a write by access types leaves, the written one holds its value and no other changed. -/
theorem written_of_regs {h k : Hw} {hd : Hdr} {x : Session} {b : Nat} {l : RegLoc} {v : W32}
    (e : k.regs = ((h.heard hd x).plainWrite b l v.toNat).regs) :
    h.RegsBut [canonReg b l] k ∧ k.reg (canonReg b l) = l.row.written (h.reg (canonReg b l)) v := by
  constructor
  · intro q hq
    rw [Hw.reg_of_regs e, Hw.regsBut_plainWrite q hq, Hw.reg_heard]
  · rw [Hw.reg_of_regs e, Hw.reg_plainWrite, Hw.reg_heard]

section
variable {hd : Hdr} {s : State} {x : Session} (a : Admits s hd x) (hr : x.role ≠ .none)
include a hr

theorem regRead_completes {p0 : BitVec 32} {l : RegLoc} {v : Nat} {g : Hw} (hc : s.hw.regCheck p0.toNat = .ok l)
    (hv : (s.hw.heard hd x).regRead s.mem hd.session.toNat p0.toNat l = (v, g)) (ho : (s.hw.heard hd x).Only [.host] g)
    (ht : (s.hw.heard hd x).Talks hd.session.toNat g) :
    ∃ t, exec (.regRead hd 0 p0) s = .next t ∧ Frame [.host, .fw, .out] s t ∧ Answered s t hd 0x0100 [0, v] [] ∧
      t.hw.session? hd.session.toNat =
        (g.session? hd.session.toNat).map (fun y => { y with txSeq := y.txSeq + 1, txCount := y.txCount + 1 }) := by
  have hb : regReadBody hd.session.toNat p0 s (s.hw.heard hd x) = { hw := g, rep := { status := stOk, p := [v] } } := by
    simp only [regReadBody, Hw.regCheck_heard, hc, hv]
  obtain ⟨f, ans, -, y⟩ := hostCmd_did (sp := { opcode := 0x0100, reads := true, lenOk := true }) (ps := [.host, .fw, .out]) a
    (contains_allRoles hr) rfl rfl hb (fun _ h => h) (ho.mono (by simp)) ht
  exact ⟨_, commit_served a.1 rfl, f, ans, y⟩

theorem regWrite_completes {p0 p1 : BitVec 32} {l : RegLoc} (hc : s.hw.regCheck p0.toNat = .ok l)
    (hw : ∀ h : Hw, h.ownWrite s.fuses x.role p0.toNat l p1.toNat = none) :
    ∃ t, exec (.regWrite hd 0 p0 p1) s = .next t ∧ Frame [.regs, .host, .fw, .out] s t ∧
      t.hw.regs = ((s.hw.heard hd x).plainWrite p0.toNat l p1.toNat).regs ∧ Answered s t hd 0x0101 [0] [] := by
  have hb : regWriteBody hd.session.toNat p0 p1 s (s.hw.heard hd x) =
      { hw := (s.hw.heard hd x).plainWrite p0.toNat l p1.toNat, rep := Rep.only stOk } := by
    simp only [regWriteBody, Hw.regCheck_heard, hc, Hw.roleOf_heard a.2.1, Hw.regWrite_plain (hw _)]
  obtain ⟨f, ans, regs, -⟩ := hostCmd_did (sp := { opcode := 0x0101, lenOk := true }) (ps := [.regs, .host, .fw, .out]) a
    (contains_allRoles hr) rfl rfl hb (by simp) (Hw.only_plainWrite.mono (by simp))
    (Hw.Talks.of_only Hw.only_plainWrite (by simp) (by simp))
  exact ⟨_, commit_served a.1 rfl, f, regs, ans⟩

theorem regRmw_completes {p0 p1 p2 : BitVec 32} {l : RegLoc} (hc : s.hw.regCheck p0.toNat = .ok l) {v : W32}
    (hv : (s.hw.heard hd x).regRead s.mem hd.session.toNat p0.toNat l = (v.toNat, s.hw.heard hd x))
    (hw : ∀ (h : Hw) (v : Nat), h.ownWrite s.fuses x.role p0.toNat l v = none) :
    ∃ t, exec (.regRmw hd 0 p0 p1 p2) s = .next t ∧ Frame [.regs, .host, .fw, .out] s t ∧
      t.hw.regs = ((s.hw.heard hd x).plainWrite p0.toNat l (rmwValue v p1 p2).toNat).regs ∧
      Answered s t hd 0x0102 [0, v.toNat] [] := by
  have hb : regRmwBody hd.session.toNat p0 p1 p2 s (s.hw.heard hd x) =
      { hw := (s.hw.heard hd x).plainWrite p0.toNat l (rmwValue v p1 p2).toNat, rep := { status := stOk, p := [v.toNat] } } := by
    simp only [regRmwBody, Hw.regCheck_heard, hc, hv, Hw.roleOf_heard a.2.1, Hw.regWrite_plain (hw _ _), BitVec.ofNat_toNat,
      BitVec.setWidth_eq, if_true]
  obtain ⟨f, ans, regs, -⟩ := hostCmd_did (sp := { opcode := 0x0102, lenOk := true }) (ps := [.regs, .host, .fw, .out]) a
    (contains_allRoles hr) rfl rfl hb (by simp) (Hw.only_plainWrite.mono (by simp))
    (Hw.Talks.of_only Hw.only_plainWrite (by simp) (by simp))
  exact ⟨_, commit_served a.1 rfl, f, regs, ans⟩

theorem regReadBlock_completes {p0 p1 : BitVec 32} {ls : Nat → RegLoc} (h1 : 1 ≤ p1.toNat) (h2 : p1.toNat ≤ 2048)
    (hp : ∀ i < p1.toNat, ReadsPlain s x (p0.toNat + 4 * i) (ls i)) :
    ∃ t, exec (.regReadBlock hd 0 p0 p1) s = .next t ∧ Frame [.host, .fw, .out] s t ∧
      Answered s t hd 0x0103 [0] ((List.range p1.toNat).flatMap (fun i =>
        beBytes 4 (s.hw.reg (canonReg (p0.toNat + 4 * i) (ls i))).toNat)) := by
  have hk : (s.hw.heard hd x).blockCheck p0.toNat p1.toNat =
      .ok ((List.range p1.toNat).map (fun i => (p0.toNat + 4 * i, ls i))) :=
    Hw.blockCheck_ok (fun i hi => by rw [Hw.regCheck_heard]; exact (hp i hi).regCheck)
  have hv := Hw.regReads_still (h := s.hw.heard hd x) (m := s.mem) (id := hd.session.toNat)
    (fun q => (s.hw.reg (canonReg q.1 q.2)).toNat) ((List.range p1.toNat).map (fun i => (p0.toNat + 4 * i, ls i)))
    (fun q hq => by
      obtain ⟨i, hi, rfl⟩ := List.mem_map.1 hq
      exact (hp i (List.mem_range.1 hi)).regRead_heard a)
  have hn : ¬ (p1.toNat = 0 ∨ 2048 < p1.toNat) := by omega
  refine ⟨_, commit_served a.1 rfl, ?_⟩
  refine hostCmd_reads (sp := { opcode := 0x0103, reads := true, lenOk := true }) (body := regBlockBody hd.session.toNat p0 p1)
    (r := ⟨stOk, [], _⟩) a (contains_allRoles hr) rfl (fun e => by cases e) ?_
  simp only [regBlockBody, if_neg hn, hk, hv, List.flatMap_def, List.map_map, Function.comp_def]

end

/-- Settles O13: each of the commands by its lemma above, with the read and the write that the hypotheses of its clause allow. -/
theorem registerCommandsComplete : Obligations.RegisterCommandsComplete := by
  intro hd s x a hr
  refine ⟨?_, ?_, ?_, ?_, ?_, ?_⟩
  · intro p0 l p
    obtain ⟨t, e, f, ans, -⟩ := regRead_completes a hr p.regCheck (p.regRead_heard a) (Hw.Only.refl _ _) (Hw.Talks.refl _ _)
    exact ⟨t, e, f, ans⟩
  · intro p0 p1 l hc hw
    obtain ⟨t, e, f, regs, ans⟩ := regWrite_completes a hr hc hw
    obtain ⟨but, val⟩ := written_of_regs regs
    exact ⟨t, e, f, but, val, ans⟩
  · intro p0 p1 p2 l p hw
    obtain ⟨t, e, f, regs, ans⟩ := regRmw_completes a hr p.regCheck (p.regRead_heard a) hw (p1 := p1) (p2 := p2)
    obtain ⟨but, val⟩ := written_of_regs regs
    exact ⟨t, e, f, but, val, ans⟩
  · intro p0 p1 ls h1 h2 hp
    exact regReadBlock_completes a hr h1 h2 hp
  · intro hc
    have hn := (Hw.captured?_heard a.2.1 Reg.PKG_TIMEBASE_LO).trans hc
    have hlow : isLow Reg.PKG_TIMEBASE_LO = true := by decide
    obtain ⟨t, e, f, ans, hy⟩ := regRead_completes a hr (p0 := BitVec.ofNat 32 Reg.PKG_TIMEBASE_LO) s.hw.regCheck_timebaseLo
      (Hw.regRead_timebaseLo hn) Hw.only_capturePair Hw.talks_capturePair
    obtain ⟨y, hs, hcap⟩ := Hw.session?_capturePair hlow (Hw.session?_heard a.2.1)
    have ht : (s.hw.heard hd x).tb = s.hw.tb := Hw.only_heard .tb (by simp)
    rw [hs] at hy
    refine ⟨t, e, f, ht ▸ ans, _, hy, ?_⟩
    rw [← ht]
    exact hcap
  · intro v hc
    have hn := (Hw.captured?_heard a.2.1 Reg.PKG_TIMEBASE_HI).trans hc
    obtain ⟨t, e, f, ans, -⟩ := regRead_completes a hr (p0 := BitVec.ofNat 32 Reg.PKG_TIMEBASE_HI) s.hw.regCheck_timebaseHi
      (Hw.regRead_captured rfl (by decide) hn) (Hw.Only.refl _ _) (Hw.Talks.refl _ _)
    exact ⟨t, e, f, ans⟩

end Sys2Proof.Machine
end

section
/-!
PROOFS. The register writes with an effect of their own (R32, R202, R263, R391), READ_CAPTURE and REGISTER_WRITE: O14.
-/
namespace Sys2Proof.Machine

/-! ## Register writes with an effect of their own -/

/-! ### Frames of updates of one part -/

theorem Hw.only_nvField {h : Hw} {x : Tab W32} : h.Only [.nv] { h with nv := x } := fun q hq => by
  cases q
  case nv => simp at hq
  all_goals rfl
theorem Hw.only_slewField {h : Hw} {x : Int} : h.Only [.slew] { h with slew := x } := fun q hq => by
  cases q
  case slew => simp at hq
  all_goals rfl
theorem Hw.only_ethField {h : Hw} {x : EthSt} : h.Only [.eth] { h with eth := x } := fun q hq => by
  cases q
  case eth => simp at hq
  all_goals rfl
theorem Hw.only_histField {h : Hw} {x : HistSt} : h.Only [.hist] { h with hist := x } := fun q hq => by
  cases q
  case hist => simp at hq
  all_goals rfl

/-! ### Partitions (R202) -/

/-- The field that holds half of a partition's membership. -/
def memberFld (hi : Bool) (p : Nat) : Fld := if hi then Fd.PLU_PART_HI.MEMBER p else Fd.PLU_PART_LO.MEMBER p

/-- Bit `i` of a written half is refused: it removes a cluster that holds a context, or adds one that another partition holds. -/
def Hw.memberClash (h : Hw) (p : Nat) (hi : Bool) (v i : Nat) : Bool :=
  (bitAt (h.fld (memberFld hi p)) i && !bitAt v i && (h.holder ((if hi then 32 else 0) + i)).isSome) ||
    (bitAt v i && !bitAt (h.fld (memberFld hi p)) i &&
      (List.range 16).any (fun q => q != p && bitAt (h.fld (memberFld hi q)) i))

/-- A write of half of a partition's membership: a clash in any of its bits refuses the whole. -/
theorem Hw.partWrite_eq (h : Hw) (p : Nat) (hi : Bool) (v : Nat) :
    h.partWrite p hi v = if (List.range 32).any (h.memberClash p hi v) then h.setFlag Fd.PLU_STATUS.PART_REJECT true
      else h.setFld (memberFld hi p) v := rfl
theorem Hw.partWrite_clash {h : Hw} {p : Nat} {hi : Bool} {v : Nat} (e : ∃ i < 32, h.memberClash p hi v i = true) :
    h.partWrite p hi v = h.setFlag Fd.PLU_STATUS.PART_REJECT true := by
  rw [Hw.partWrite_eq, if_pos (by simpa using e)]
theorem Hw.partWrite_clear {h : Hw} {p : Nat} {hi : Bool} {v : Nat} (e : ∀ i < 32, h.memberClash p hi v i = false) :
    h.partWrite p hi v = h.setFld (memberFld hi p) v := by
  rw [Hw.partWrite_eq, if_neg (by simpa using e)]

theorem Hw.memberClash_iff {h : Hw} {p : Fin 16} {hi : Bool} {w : W32} {i : Nat} :
    h.memberClash p hi w.toNat i = true ↔
      (bitAt (h.fld (memberFld hi p)) i = true ∧ w.getLsbD i = false ∧ h.holder ((if hi then 32 else 0) + i) ≠ none) ∨
      (bitAt (h.fld (memberFld hi p)) i = false ∧ w.getLsbD i = true ∧
        ∃ q : Fin 16, q ≠ p ∧ bitAt (h.fld (memberFld hi q)) i = true) := by
  have hq : ((List.range 16).any fun q => q != p && bitAt (h.fld (memberFld hi q)) i) = true ↔
      ∃ q : Fin 16, q ≠ p ∧ bitAt (h.fld (memberFld hi q)) i = true := by
    simp only [List.any_eq_true, List.mem_range, Bool.and_eq_true, bne_iff_ne]
    constructor
    · rintro ⟨q, hlt, hne, hb⟩
      exact ⟨⟨q, hlt⟩, fun e => hne (congrArg Fin.val e), hb⟩
    · rintro ⟨q, hne, hb⟩
      exact ⟨q, q.isLt, fun e => hne (Fin.ext e), hb⟩
  have hw : bitAt w.toNat i = w.getLsbD i := rfl
  simp only [Hw.memberClash, hw, Bool.or_eq_true, Bool.and_eq_true, hq, Bool.not_eq_true', Option.isSome_iff_ne_none, and_assoc]
  exact or_congr Iff.rfl and_left_comm

/-- A field of 32 bits is its whole register. -/
theorem Hw.reg_setFld_word {h : Hw} {f : Fld} (v : W32) (hlo : f.lo = 0) (hw : f.w = 32) :
    (h.setFld f v.toNat).reg f.addr = v := by
  have hv : bitsAt ((h.setFld f v.toNat).reg f.addr).toNat 0 32 = v.toNat := by
    have := Hw.fld_setFld_same h f v.toNat (by omega)
    rwa [Hw.fld, hlo, hw, Nat.mod_eq_of_lt v.isLt] at this
  rw [bitsAt_eq, Nat.pow_zero, Nat.div_one, Nat.mod_eq_of_lt (BitVec.isLt _)] at hv
  exact BitVec.eq_of_toNat_eq hv

/-! ### The installation map (R263) -/

theorem Hw.only_savedWrite {h : Hw} {a : Nat} {l : RegLoc} {v : Nat} : h.Only [.regs, .nv] (h.savedWrite a l v) :=
  (Hw.only_plainWrite.mono (by simp)).trans (Hw.only_nvField.mono (by simp))
theorem Hw.regs_savedWrite {h : Hw} {a : Nat} {l : RegLoc} {v : Nat} : (h.savedWrite a l v).regs = (h.plainWrite a l v).regs := rfl
/-- A saved register stands in the NV store as it was written. -/
theorem Hw.find?_nv_savedWrite {h : Hw} {a : Nat} {l : RegLoc} {v : Nat} :
    Tab.find? (h.savedWrite a l v).nv (canonReg a l) = some ((h.plainWrite a l v).reg (canonReg a l)) :=
  Tab.find?_put_same _ _ _

/-- A write of the installation map is refused while a link is enabled, and saved while none is. -/
theorem Hw.mapWrite_enabled {h : Hw} {a : Nat} {l : RegLoc} {v : Nat} (e : ∃ n < 24, h.flag (Fd.FL_CTRL.EN n) = true) :
    h.mapWrite a l v = h.setFlag Fd.FR_STATUS.CFG_REJECT true := by
  rw [Hw.mapWrite, if_pos (by simpa using e)]
theorem Hw.mapWrite_idle {h : Hw} {a : Nat} {l : RegLoc} {v : Nat} (e : ∀ n < 24, h.flag (Fd.FL_CTRL.EN n) = false) :
    h.mapWrite a l v = h.savedWrite a l v := by
  rw [Hw.mapWrite, if_neg (by simpa using e)]

/-! ### The time source (R32) -/

/-- The registers of the ports show the transmitter that is chosen. -/
def Hw.showTransmitter (h : Hw) (b : Option (Nat × Nat)) : Hw :=
  (List.range 8).foldl (fun h p => h.setFlag (Fd.EP_STATUS.PTP_SEL p) ((b.map Prod.fst) == some p)) h

theorem Hw.chooseTime_eq (h : Hw) : h.chooseTime =
    if h.bestTransmitter = (h.showTransmitter h.bestTransmitter).eth.chosen then h.showTransmitter h.bestTransmitter
    else { h.showTransmitter h.bestTransmitter with
      eth := { (h.showTransmitter h.bestTransmitter).eth with chosen := h.bestTransmitter, sync := none, reqTb := none } } := rfl

theorem Hw.only_showTransmitter {h : Hw} {b : Option (Nat × Nat)} : h.Only [.regs] (h.showTransmitter b) :=
  Hw.Only.foldl _ _ _ (fun _ _ _ => Hw.only_setFlag)
theorem Hw.only_chooseTime {h : Hw} : h.Only [.regs, .eth] h.chooseTime := by
  have e : h.Only [.regs, .eth] (h.showTransmitter h.bestTransmitter) := Hw.only_showTransmitter.mono (by simp)
  rw [Hw.chooseTime_eq]
  exact Hw.Only.ite e (e.trans (Hw.only_ethField.mono (by simp)))

/-- The registers of the ports stand from 0x10000 on: no register below them changes. -/
theorem Hw.reg_showTransmitter {h : Hw} {b : Option (Nat × Nat)} {a : Nat} (ha : a < 0x10000) :
    (h.showTransmitter b).reg a = h.reg a := by
  have r : h.RegsBut ((List.range 8).map Reg.EP_STATUS) (h.showTransmitter b) :=
    Hw.RegsBut.foldl _ _ _ (fun _ p hp => Hw.regsBut_setFlag.mono (fun q hq =>
      List.mem_map.2 ⟨p, hp, (List.mem_singleton.1 hq).symm⟩))
  refine r a (fun hm => ?_)
  obtain ⟨p, -, rfl⟩ := List.mem_map.1 hm
  simp only [Reg.EP_STATUS, portBase, hubBase] at ha
  omega
theorem Hw.reg_chooseTime {h : Hw} {a : Nat} (ha : a < 0x10000) : h.chooseTime.reg a = h.reg a := by
  rw [Hw.chooseTime_eq]
  split
  · exact Hw.reg_showTransmitter ha
  · exact (Hw.only_ethField.reg (by simp) a).trans (Hw.reg_showTransmitter ha)

/-- What the time source's registers are set to before the transmitter is chosen again. -/
def Hw.timeRegs (h : Hw) (src : Nat) : Hw :=
  let h := (h.setFld Fd.PKG_TIME_CTRL.SRC src).setFlag Fd.PKG_TIME_STATUS.LOCKED false
  if src = 0 then h.setFld Fd.PKG_TIME_STATUS.OFFSET_NS 0 else h

theorem Hw.selectTime_eq (h : Hw) (src : Nat) : h.selectTime src = ({ h.timeRegs src with slew := 0 } : Hw).chooseTime := rfl

theorem Hw.only_timeRegs {h : Hw} {src : Nat} : h.Only [.regs] (h.timeRegs src) :=
  Hw.Only.trans (k := (h.setFld Fd.PKG_TIME_CTRL.SRC src).setFlag Fd.PKG_TIME_STATUS.LOCKED false)
    (Hw.only_setFld.trans Hw.only_setFlag) (Hw.Only.ite Hw.only_setFld (Hw.Only.refl _ _))

theorem Hw.only_selectTime {h : Hw} {src : Nat} : h.Only [.regs, .slew, .eth] (h.selectTime src) := by
  rw [Hw.selectTime_eq]
  exact ((Hw.only_timeRegs.mono (by simp)).trans (Hw.only_slewField.mono (by simp))).trans (Hw.only_chooseTime.mono (by simp))

/-- A field below the registers of the ports, after a source is selected. -/
theorem Hw.fld_selectTime {h : Hw} {src : Nat} {g : Fld} (hg : g.addr < 0x10000) :
    (h.selectTime src).fld g = (h.timeRegs src).fld g := by
  rw [Hw.selectTime_eq, Hw.fld_of_reg (Hw.reg_chooseTime hg)]
  exact Hw.fld_of_regs rfl g
theorem Hw.flag_selectTime {h : Hw} {src : Nat} {g : Fld} (hg : g.addr < 0x10000) :
    (h.selectTime src).flag g = (h.timeRegs src).flag g := by
  rw [Hw.flag, Hw.fld_selectTime hg, Hw.flag]

/-- Where the source is 0 the reported offset, which stands above the flags of PKG_TIME_STATUS, is cleared too. -/
theorem Hw.fld_timeRegs {h : Hw} {src : Nat} {g : Fld} (e : g.addr ≠ Reg.PKG_TIME_STATUS ∨ g.lo + g.w ≤ 16) :
    (h.timeRegs src).fld g =
      ((h.setFld Fd.PKG_TIME_CTRL.SRC src).setFlag Fd.PKG_TIME_STATUS.LOCKED false).fld g := by
  unfold Hw.timeRegs
  dsimp only
  split
  · exact Hw.fld_setFld_other _ Fd.PKG_TIME_STATUS.OFFSET_NS g _ (by decide) (e.imp id .inl)
  · rfl
theorem Hw.fld_timeRegs_src {h : Hw} {src : Nat} (hs : src < 4) : (h.timeRegs src).fld Fd.PKG_TIME_CTRL.SRC = src := by
  rw [Hw.fld_timeRegs (by decide), Hw.fld_setFlag_other _ _ _ _ (by decide) (by decide), Hw.fld_setFld_same _ _ _ (by decide)]
  exact Nat.mod_eq_of_lt hs
theorem Hw.flag_timeRegs_locked {h : Hw} {src : Nat} : (h.timeRegs src).flag Fd.PKG_TIME_STATUS.LOCKED = false := by
  rw [Hw.flag, Hw.fld_timeRegs (by decide)]
  exact Hw.flag_setFlag_same _ _ _ rfl (by decide)
/-- PKG_TIME_STATUS keeps what stands between LOCKED and the offset. -/
theorem Hw.flag_timeRegs_status {h : Hw} {src : Nat} {g : Fld} (ha : g.addr = Reg.PKG_TIME_STATUS) (h1 : 1 ≤ g.lo)
    (h2 : g.lo + g.w ≤ 16) : (h.timeRegs src).flag g = h.flag g := by
  rw [Hw.flag, Hw.fld_timeRegs (.inr h2), Hw.fld_setFlag_other _ Fd.PKG_TIME_STATUS.LOCKED g _ (by decide) (.inr (.inr h1)),
    Hw.fld_setFld_other _ Fd.PKG_TIME_CTRL.SRC g _ (by decide) (.inl (by rw [ha]; decide)), Hw.flag]

/-! ### The fault history (R391) -/

theorem Hw.only_resources {h : Hw} : h.Only [.regs] h.resources := by
  unfold Hw.resources
  dsimp only
  have fields : ∀ (b c d e : Nat) (f : Bool), h.Only [.regs] (((((h.setFld Fd.PKG_RESOURCES.GOOD_DIES b).setFld Fd.PKG_RESOURCES.GOOD_HBM
      c).setFld Fd.PKG_RESOURCES.PLACEABLE_CL d).setFlag Fd.PKG_RESOURCES.DEGRADED f).setFld Fd.PKG_RESOURCES.SPARES_FREE e) :=
    fun _ _ _ _ _ => (((Hw.only_setFld.trans Hw.only_setFld).trans Hw.only_setFld).trans Hw.only_setFlag).trans Hw.only_setFld
  exact Hw.Only.ite (Hw.Only.ite (fields _ _ _ _ _) ((fields _ _ _ _ _).trans Hw.only_setFlag)) (Hw.Only.refl _ _)

theorem Tab.getD_mod_same {α : Type} {t : Tab α} {k : Nat} {d v : α} {f : α → α} (h : t.find? k = some v) :
    (t.mod k f).getD k d = f v := by
  rw [Tab.mod, h]
  exact Tab.getD_put_same _ _ _ _

theorem Hw.only_clearUnit {h : Hw} : h.Only [.regs, .logs, .out, .host, .hist] h.clearUnit := by
  unfold Hw.clearUnit
  split
  · exact Hw.Only.refl _ _
  · exact (Hw.only_history.trans (Hw.only_histField.mono (by simp))).trans (Hw.only_resources.mono (by simp))

/-- The history that CLEAR_UNIT leaves: the newest entry is a HOST_CLEAR of the unit, which is GOOD. -/
theorem Hw.hist_clearUnit {h : Hw} {p : Nat} (e : h.fhSelected = some p) :
    h.clearUnit.unitState p = 0 ∧
      ∃ x, h.clearUnit.hist.ents.head? = some x ∧ x.punit = p ∧ x.event = 0xB ∧ x.state = 0 ∧ x.tb = h.tb := by
  have hk : h.clearUnit.hist = { (h.history p 0xB 0 0 0 0 false false).hist with
      units := (h.history p 0xB 0 0 0 0 false false).hist.units.mod p (fun u => { u with checking := false }) } := by
    rw [Hw.clearUnit, e]
    exact Hw.only_resources .hist (by simp)
  obtain ⟨ents, hh⟩ := Hw.hist_history (h := h) (u := p) (e := 0xB) (s := 0) (d := 0) (j := 0) (a := 0) (c := false) (m := false)
  rw [hh] at hk
  constructor
  · rw [Hw.unitState, hk, Tab.getD_mod_same (Tab.find?_put_same _ _ _)]
  · exact ⟨_, by rw [hk]; rfl, rfl, rfl, rfl, rfl⟩

section
variable {s : State} (v : s.hw.served = true)
include v

theorem exec_partitionWrite_served (p : Fin 16) (hi : Bool) (w : W32) :
    exec (.partitionWrite p hi w) s = .next { s with hw := s.hw.partWrite p hi w.toNat } := keep_next (if_pos v)

theorem exec_installationMapWrite_served {a : BitVec 32} {w : W32} {l : RegLoc} (hf : regFind a.toNat = some l)
    (hm : isMapReg l = true) :
    exec (.installationMapWrite a w) s = .next { s with hw := s.hw.mapWrite a.toNat l w.toNat } := by
  refine keep_next ?_
  simp only [mapWriteHw, hf, v, hm, Bool.and_self, if_true]

theorem exec_timeSourceSelect_served (src : Fin 4) :
    exec (.timeSourceSelect src) s = .next { s with hw := s.hw.selectTime src } := keep_next (if_pos v)

theorem exec_clearUnit_served {session : BitVec 32} {x : Session} (hs : s.hw.session? session.toNat = some x) (ho : x.opened = true)
    (hr : x.role = .vendor) : exec (.clearUnit session) s = .next { s with hw := s.hw.clearUnit } := by
  refine keep_next ?_
  simp only [clearUnitHw, hs, v, ho, hr, beq_self_eq_true, Bool.and_self, if_true]

theorem exec_readCapture_served {session a : BitVec 32} {l : RegLoc} (hc : s.hw.regCheck a.toNat = .ok l) :
    exec (.readCapture session a) s = .next { s with hw := s.hw.capturePair session.toNat a.toNat } := by
  refine keep_next ?_
  simp only [readCaptureHw, hc, v, if_true]

theorem exec_registerWrite_served {a : BitVec 32} {w : W32} {l : RegLoc} (hc : s.hw.regCheck a.toNat = .ok l)
    (hw : s.hw.ownWrite s.fuses .none a.toNat l w.toNat = none) :
    exec (.registerWrite a w) s = .next { s with hw := s.hw.plainWrite a.toNat l w.toNat } := by
  refine keep_next ?_
  simp only [registerWriteHw, hc, v, hw, Option.isNone_none, Bool.and_self, if_true]

end

/-- Settles O14: each event by the equation of its effect and the frames and fields of that effect. -/
theorem registerEventsComplete : Obligations.RegisterEventsComplete := by
  intro s v
  refine ⟨?_, ?_, ?_, ?_, ?_, ?_⟩
  · intro p hi w f bad hf hbad
    obtain rfl : f = memberFld hi := funext hf
    have hb : ∀ i, bad i ↔ s.hw.memberClash p hi w.toNat i = true := fun i => (hbad i).trans Hw.memberClash_iff.symm
    refine ⟨_, exec_partitionWrite_served v p hi w, ?_⟩
    by_cases hc : ∃ i < 32, s.hw.memberClash p hi w.toNat i = true
    · rw [Hw.partWrite_clash hc]
      refine ⟨Frame.keep Hw.only_setFlag, fun _ => ?_, fun hn => ?_⟩
      · exact ⟨Hw.flag_setFlag_same _ _ _ rfl (by decide), Hw.regsBut_setFlag (f := Fd.PLU_STATUS.PART_REJECT)⟩
      · obtain ⟨i, hlt, clash⟩ := hc
        exact absurd ((hb i).2 clash) (hn i hlt)
    · rw [Hw.partWrite_clear (by simpa using hc)]
      refine ⟨Frame.keep Hw.only_setFld, fun ⟨i, hlt, clash⟩ => ?_, fun _ => ⟨?_, Hw.regsBut_setFld⟩⟩
      · exact absurd ⟨i, hlt, (hb i).1 clash⟩ hc
      · cases hi <;> exact Hw.reg_setFld_word w rfl rfl
  · intro a w l hf hm
    refine ⟨_, exec_installationMapWrite_served v hf hm, fun e => ?_, fun e => ?_⟩
    · rw [Hw.mapWrite_enabled e]
      exact ⟨Frame.keep Hw.only_setFlag, Hw.regsBut_setFlag (f := Fd.FR_STATUS.CFG_REJECT),
        Hw.flag_setFlag_same _ _ _ rfl (by decide)⟩
    · rw [Hw.mapWrite_idle e]
      refine ⟨Frame.keep Hw.only_savedWrite, ?_, ?_, ?_⟩
      · exact Hw.regsBut_plainWrite.trans (Hw.RegsBut.of_regs Hw.regs_savedWrite)
      · exact (Hw.reg_of_regs Hw.regs_savedWrite _).trans (Hw.reg_plainWrite w)
      · exact Hw.find?_nv_savedWrite.trans (congrArg some (Hw.reg_plainWrite w))
  · intro src
    refine ⟨_, exec_timeSourceSelect_served v src, Frame.keep Hw.only_selectTime, ?_, ?_, ?_, ?_⟩
    · exact (Hw.fld_selectTime (by decide)).trans (Hw.fld_timeRegs_src src.isLt)
    · exact (Hw.flag_selectTime (by decide)).trans Hw.flag_timeRegs_locked
    · exact (Hw.flag_selectTime (by decide)).trans (Hw.flag_timeRegs_status rfl (by decide) (by decide))
    · exact (Hw.flag_selectTime (by decide)).trans (Hw.flag_timeRegs_status rfl (by decide) (by decide))
  · intro session x p hs ho hr hp
    obtain ⟨good, ent⟩ := Hw.hist_clearUnit hp
    exact ⟨_, exec_clearUnit_served v hs ho hr, Frame.keep Hw.only_clearUnit, good, ent⟩
  · intro session a x l hs hc hl
    exact ⟨_, exec_readCapture_served v hc, Frame.keep Hw.only_capturePair, Hw.session?_capturePair hl hs⟩
  · intro a w l hc hw
    exact ⟨_, exec_registerWrite_served v hc hw, Frame.keep Hw.only_plainWrite, Hw.regsBut_plainWrite, Hw.reg_plainWrite w⟩

end Sys2Proof.Machine
end

section
/-!
PROOFS. The machine at reset: O5.
-/
namespace Sys2Proof.Machine

/-! ## The machine at reset (R30, assumptions 2 and 10) -/

theorem Fuses.pairState_blank (n : Nat) : ({} : Fuses).pairState n = none := by
  simp [Fuses.pairState]

/-- A package with no fuse burned is as burns leave one: no pair is burned, no slot programmed. -/
theorem Fuses.ok_blank : ({} : Fuses).Ok := by
  refine ⟨fun n _ c _ d _ hc => ?_, fun n _ hn => ?_, fun k _ _ i _ => ?_⟩
  · exact absurd hc List.not_mem_nil
  · rw [Fuses.pairState_blank] at hn
    cases hn
  · exact List.not_mem_nil

/-- A machine that lists no register holds the reset value of each. -/
theorem Hw.reg_unlisted {h : Hw} (e : h.regs = []) (a : Nat) : h.reg a = regReset a := by
  rw [Hw.reg, e]
  rfl

/-- The reset values that the statement writes out, read off the register tables. -/
theorem regReset_values :
    regReset Reg.PKG_ID = 0x0E091000 ∧ regReset Reg.PLU_CTRL = 0x00005803 ∧ regReset Reg.CVE_CTRL = 0x000007D0 ∧
      regReset (Reg.PLU_PART_LO 0) = 0xFFFFFFFF ∧ regReset (Reg.PLU_PART_LO 15) = 0 ∧ regReset (Reg.MXE_ERR 575 1) = 0 := by
  decide

/-- Settles O5: at reset nothing is listed, so each table reads its default and each register its reset value. -/
theorem resetMeetsInvariants : Obligations.ResetMeetsInvariants := by
  have reg : ∀ a, State.reset.hw.reg a = regReset a := Hw.reg_unlisted rfl
  obtain ⟨id, pluCtrl, cveCtrl, partLo, partHi, mxeErr⟩ := regReset_values
  refine ⟨Mem.wf_empty, rfl, rfl, Fuses.ok_blank, rfl, rfl, rfl, rfl, ?_, ?_, fun _ => rfl, reg, ?_⟩
  · exact fun d hd => absurd hd List.not_mem_nil
  · exact fun p hp => absurd hp List.not_mem_nil
  · simp only [reg]
    exact ⟨id, pluCtrl, cveCtrl, partLo, partHi, mxeErr⟩

end Sys2Proof.Machine
end

section
/-!
PROOFS. A nanosecond of the timebase on an empty queue (R30, R31): O2.
-/
namespace Sys2Proof.Machine

/-! ## One nanosecond (R31, R420) -/

/-- One counter that counts with time changes nothing but counter registers. -/
theorem Hw.only_countTime {h0 h : Hw} {k : CtrAt} : h.Only [.regs] (h0.countTime h k) := by
  have same : h.Only [.regs] h := Hw.Only.refl _ _
  unfold Hw.countTime
  dsimp only
  exact .ite same (.ite (.ite same Hw.only_bump) (.ite Hw.only_bump same))

theorem Hw.only_timeCounts {h0 h : Hw} : h.Only [.regs] (h0.timeCounts h) :=
  Hw.Only.foldl _ _ _ (fun _ _ _ => Hw.only_countTime)

/-- What counts with time leaves the timebase and its correction as they advanced. -/
theorem Hw.tick_powered {h : Hw} (v : h.flag Fd.PKG_BOARD_STATUS.AUX_PWROK = true) :
    h.tick.tb = h.advance.tb ∧ h.tick.slew = h.advance.slew ∧ h.tick.slewNs = h.advance.slewNs := by
  have a : h.advance.Only [.regs] h.tick := by
    rw [Hw.tick, if_pos v]
    exact Hw.only_timeCounts
  exact ⟨a .tb (by decide), a .slew (by decide), a .slewNs (by decide)⟩

theorem Hw.tick_unpowered {h : Hw} (v : h.flag Fd.PKG_BOARD_STATUS.AUX_PWROK = false) : h.tick = h := by
  rw [Hw.tick, v]
  rfl

/-! ### The cases of a nanosecond's correction -/

theorem Hw.advance_steady {h : Hw} (e : h.slew = 0) : h.advance = { h with tb := h.tb + 1, slewNs := 0 } := if_pos e
theorem Hw.advance_between {h : Hw} (e : h.slew ≠ 0) (n : h.slewNs + 1 < 2000) :
    h.advance = { h with tb := h.tb + 1, slewNs := h.slewNs + 1 } := by
  rw [Hw.advance, if_neg e, if_pos n]
theorem Hw.advance_forward {h : Hw} (e : 0 < h.slew) (n : 2000 ≤ h.slewNs + 1) :
    h.advance = { h with tb := h.tb + 2, slew := h.slew - 1, slewNs := 0 } := by
  rw [Hw.advance, if_neg (ne_of_gt e), if_neg (Nat.not_lt.2 n), if_pos e]
theorem Hw.advance_backward {h : Hw} (e : h.slew < 0) (n : 2000 ≤ h.slewNs + 1) :
    h.advance = { h with slew := h.slew + 1, slewNs := 0 } := by
  rw [Hw.advance, if_neg (ne_of_lt e), if_neg (Nat.not_lt.2 n), if_neg (not_lt_of_gt e)]

/-- R31: the timebase never decreases, whichever way it is corrected. -/
theorem Hw.tb_le_advance (h : Hw) : h.tb ≤ h.advance.tb := by
  unfold Hw.advance
  split_ifs
  · exact Nat.le_add_right _ _
  · exact Nat.le_add_right _ _
  · exact Nat.le_add_right _ _
  · exact Nat.le_refl _

theorem Hw.tb_le_tick (h : Hw) : h.tb ≤ h.tick.tb := by
  cases v : h.flag Fd.PKG_BOARD_STATUS.AUX_PWROK with
  | true => rw [(Hw.tick_powered v).1]; exact h.tb_le_advance
  | false => rw [Hw.tick_unpowered v]

theorem step_idle {s : State} (e : s.pending = []) : step s = .next { s with hw := s.hw.tick } := by
  rw [step, e]

/-- Settles O2: with power the step advances as the equations of `Hw.advance` say; without power it does nothing. -/
theorem idleStepAdvancesTimebase : Obligations.IdleStepAdvancesTimebase := by
  intro s empty
  refine ⟨_, step_idle empty, empty, rfl, rfl, s.hw.tb_le_tick, fun v => ?_, fun v => ?_⟩
  · rw [Hw.tick_unpowered v]
  · obtain ⟨tb, slew, slewNs⟩ := Hw.tick_powered v
    simp only [tb, slew, slewNs]
    refine ⟨fun e => ?_, fun e n => ?_, fun e n => ?_, fun e n => ?_⟩
    · rw [Hw.advance_steady e]
      exact ⟨rfl, e⟩
    · rw [Hw.advance_between e n]
      exact ⟨rfl, rfl, rfl⟩
    · rw [Hw.advance_forward e n]
      exact ⟨rfl, rfl, rfl⟩
    · rw [Hw.advance_backward e n]
      exact ⟨rfl, rfl, rfl⟩

end Sys2Proof.Machine
end

section
/-!
PROOFS. Accesses that the register map refuses (R494): O11.
-/
namespace Sys2Proof.Machine

/-! ## The check of an access (R11, R494) -/

theorem regPlace_beyond {a : Nat} (h : 0x31000000 ≤ a) : regPlace a = none := by
  unfold regPlace
  repeat rw [if_neg (by omega)]

/-- No register stands at a misaligned address or beyond the map. -/
theorem regFind_outside {a : Nat} (h : a % 4 ≠ 0 ∨ 0x31000000 ≤ a) : regFind a = none := by
  unfold regFind
  split_ifs with e
  · rfl
  · rw [regPlace_beyond (h.resolve_left e)]

/-- A status that refuses an access: REG_ADDRESS where and only where `outside` holds, and otherwise TARGET_RESET. -/
def RefusesAccess (st : Nat) (outside : Prop) : Prop := (st = stRegAddr ∨ st = stReset) ∧ (st = stRegAddr ↔ outside)

theorem RefusesAccess.outside {p : Prop} (h : p) : RefusesAccess stRegAddr p := ⟨.inl rfl, iff_of_true rfl h⟩
theorem RefusesAccess.inside {p : Prop} (h : ¬ p) : RefusesAccess stReset p := ⟨.inr rfl, iff_of_false (by decide) h⟩

/-- The check of an access either finds a register or refuses it. -/
theorem Hw.regCheck_failed {h : Hw} {a : Nat} (e : ∀ l, h.regCheck a ≠ .ok l) :
    ∃ st, h.regCheck a = .error st ∧ RefusesAccess st (regFind a = none) := by
  unfold Hw.regCheck at e ⊢
  cases hf : regFind a with
  | none => exact ⟨_, rfl, .outside rfl⟩
  | some l =>
    simp only [hf] at e ⊢
    split_ifs at e ⊢
    · exact absurd rfl (e l)
    · exact ⟨_, rfl, .inside (by simp)⟩

/-- A block with an access that fails its check is refused whole. -/
theorem Hw.blockCheck_failed {h : Hw} {a n : Nat} (e : ∃ i < n, ∀ l, h.regCheck (a + 4 * i) ≠ .ok l) :
    ∃ st, h.blockCheck a n = .error st ∧ RefusesAccess st (∃ i < n, regFind (a + 4 * i) = none) := by
  obtain ⟨i, hi, hfail⟩ := e
  by_cases gap : ∃ i < n, regFind (a + 4 * i) = none
  · refine ⟨_, if_pos ?_, .outside gap⟩
    simpa using gap
  · obtain ⟨st, hst, -⟩ := Hw.regCheck_failed hfail
    refine ⟨stReset, ?_, .inside gap⟩
    unfold Hw.blockCheck
    dsimp only
    rw [if_neg (by simpa using gap), if_pos]
    simp only [List.any_map, List.any_eq_true, List.mem_range]
    exact ⟨i, hi, by simp [hst, Except.toBool]⟩

/-! ## What a refused access answers -/

/-- An admitted command whose own effect is to fail answers its status alone. -/
theorem hostCmd_fails {sp : Spec} {hd : Hdr} {s : State} {x : Session} {body : State → Hw → Did} {st : Nat} (a : Admits s hd x)
    (hr : sp.roles.contains x.role = true) (hl : sp.lenOk = true) (hc : sp.needsCtx = false)
    (hb : body s (s.hw.heard hd x) = Did.fail (s.hw.heard hd x) st) :
    Frame [.host, .fw, .out] s (s.commit (hostCmd sp hd s body)) ∧
      Answered s (s.commit (hostCmd sp hd s body)) hd sp.opcode [st] [] :=
  hostCmd_reads (r := Rep.only st) a hr hl (fun e => by simp [hc] at e) hb

section
variable {hd : Hdr} {s : State} {x : Session} (a : Admits s hd x) (hr : x.role ≠ .none)
include a hr

/-- REG_READ, REG_WRITE and REG_RMW of an address whose check fails answer the status of the check. -/
theorem registerAccess_refused {c : Instr} {p0 p1 p2 : BitVec 32} {st : Nat}
    (hc : c = .regRead hd 0 p0 ∨ c = .regWrite hd 0 p0 p1 ∨ c = .regRmw hd 0 p0 p1 p2)
    (e : s.hw.regCheck p0.toNat = .error st) :
    ∃ r t, hostRow c = some r ∧ exec c s = .next t ∧ Frame [.host, .fw, .out] s t ∧ Answered s t hd r.opcode [st] [] := by
  have he : (s.hw.heard hd x).regCheck p0.toNat = .error st := (Hw.regCheck_heard _ _ _ _).trans e
  rcases hc with rfl | rfl | rfl
  · exact ⟨_, _, rfl, commit_served a.1 rfl, hostCmd_fails (sp := { opcode := 0x0100, reads := true, lenOk := true })
      (body := regReadBody hd.session.toNat p0) a (contains_allRoles hr) rfl rfl (by rw [regReadBody, he])⟩
  · exact ⟨_, _, rfl, commit_served a.1 rfl, hostCmd_fails (sp := { opcode := 0x0101, lenOk := true })
      (body := regWriteBody hd.session.toNat p0 p1) a (contains_allRoles hr) rfl rfl (by rw [regWriteBody, he])⟩
  · exact ⟨_, _, rfl, commit_served a.1 rfl, hostCmd_fails (sp := { opcode := 0x0102, lenOk := true })
      (body := regRmwBody hd.session.toNat p0 p1 p2) a (contains_allRoles hr) rfl rfl (by rw [regRmwBody, he])⟩

theorem regReadBlock_refused {p0 p1 : BitVec 32} {st : Nat} (h1 : 1 ≤ p1.toNat) (h2 : p1.toNat ≤ 2048)
    (e : (s.hw.heard hd x).blockCheck p0.toNat p1.toNat = .error st) :
    ∃ t, exec (.regReadBlock hd 0 p0 p1) s = .next t ∧ Frame [.host, .fw, .out] s t ∧ Answered s t hd 0x0103 [st] [] := by
  have hn : ¬ (p1.toNat = 0 ∨ 2048 < p1.toNat) := by omega
  exact ⟨_, commit_served a.1 rfl, hostCmd_fails (sp := { opcode := 0x0103, reads := true, lenOk := true })
    (body := regBlockBody hd.session.toNat p0 p1) a (contains_allRoles hr) rfl rfl (by rw [regBlockBody, if_neg hn, e])⟩

end

/-- Settles O11: a check that fails has one of the two statuses, and each command answers the status of its check. -/
theorem registerAddressIsCheckedFirst : Obligations.RegisterAddressIsCheckedFirst := by
  refine ⟨fun _ h => regFind_outside h, fun hd s x a hr => ⟨fun c p0 p1 p2 hc => ⟨fun e => ?_, ?_⟩, ?_⟩⟩
  · obtain ⟨st, hst, either, outside⟩ := Hw.regCheck_failed e
    obtain ⟨r, t, row, next, frame, ans⟩ := registerAccess_refused a hr hc hst
    exact ⟨r, st, t, row, outside, either, hst, next, frame, ans⟩
  · rintro ⟨r, st, t, -, -, -, hst, -⟩ l hl
    rw [hst] at hl
    cases hl
  · rintro p0 p1 h1 h2 ⟨i, hi, hfail⟩
    obtain ⟨st, hst, either, outside⟩ := Hw.blockCheck_failed (h := s.hw.heard hd x)
      ⟨i, hi, fun l => by rw [Hw.regCheck_heard]; exact hfail l⟩
    obtain ⟨t, next, frame, ans⟩ := regReadBlock_refused a hr h1 h2 hst
    exact ⟨st, t, next, frame, ans, either, outside⟩

end Sys2Proof.Machine
end

section
/-!
PROOFS. Time from the host networks (R31, R32, R321): O21.
-/
namespace Sys2Proof.Machine

/-! ## The best time transmitter (R321) -/

/-- The plane that SRC 1 or 2 selects. -/
theorem Hw.ptpPlane_of_src {h : Hw} {pl : Nat} (hpl : pl < 2) (hs : h.fld Fd.PKG_TIME_CTRL.SRC = pl + 1) :
    h.ptpPlane = some pl := by
  unfold Hw.ptpPlane
  rw [hs]
  interval_cases pl <;> rfl

/-- One comparison of the search: the better of the best so far and the next transmitter, ties to the lower port. -/
def betterTransmitter (b : Option (Nat × Nat × Nat)) (e : Nat × Nat × Nat) : Option (Nat × Nat × Nat) :=
  match b with
  | none => some e
  | some a => if e.2.2 < a.2.2 ∨ (e.2.2 = a.2.2 ∧ e.1 < a.1) then some e else some a

/-- The transmitters heard on the UP ports of a plane. -/
def Hw.heardOn (h : Hw) (pl : Nat) : List (Nat × Nat × Nat) := h.eth.heard.filter (fun e => e.1 / 4 == pl && h.portUp e.1)

theorem Hw.mem_heardOn {h : Hw} {pl : Nat} {e : Nat × Nat × Nat} :
    e ∈ h.heardOn pl ↔ e ∈ h.eth.heard ∧ e.1 / 4 = pl ∧ h.portUp e.1 = true := by
  simp [Hw.heardOn]

theorem Hw.bestTransmitter_on {h : Hw} {pl : Nat} (hp : h.ptpPlane = some pl) :
    h.bestTransmitter = ((h.heardOn pl).foldl betterTransmitter none).map (fun e => (e.1, e.2.1)) := by
  rw [Hw.bestTransmitter, hp]
  rfl

/-- The search ends with a transmitter of least rank, once it has one. -/
theorem foldl_betterTransmitter_some (l : List (Nat × Nat × Nat)) (a : Nat × Nat × Nat) :
    ∃ c ∈ a :: l, l.foldl betterTransmitter (some a) = some c ∧ ∀ e ∈ a :: l, c.2.2 ≤ e.2.2 := by
  induction l generalizing a with
  | nil => exact ⟨a, by simp, rfl, by simp⟩
  | cons b l ih =>
    rw [List.foldl_cons]
    unfold betterTransmitter
    dsimp only
    split_ifs with better
    · obtain ⟨c, hc, he, least⟩ := ih b
      refine ⟨c, List.mem_cons_of_mem a hc, he, List.forall_mem_cons.2 ⟨?_, least⟩⟩
      have := least b List.mem_cons_self
      omega
    · obtain ⟨c, hc, he, least⟩ := ih a
      obtain ⟨la, ll⟩ := List.forall_mem_cons.1 least
      refine ⟨c, ?_, he, List.forall_mem_cons.2 ⟨la, List.forall_mem_cons.2 ⟨by omega, ll⟩⟩⟩
      rcases List.mem_cons.1 hc with rfl | hc
      · exact List.mem_cons_self
      · exact List.mem_cons_of_mem a (List.mem_cons_of_mem b hc)

theorem foldl_betterTransmitter_none {l : List (Nat × Nat × Nat)} (h : ∃ e, e ∈ l) :
    ∃ c ∈ l, l.foldl betterTransmitter none = some c ∧ ∀ e ∈ l, c.2.2 ≤ e.2.2 := by
  cases l with
  | nil => exact absurd h (by simp)
  | cons a l => exact foldl_betterTransmitter_some l a

/-- Where a transmitter is heard on the selected plane, the best one is a heard one of least rank. -/
theorem Hw.bestTransmitter_least {h : Hw} {pl : Nat} (hp : h.ptpPlane = some pl)
    (he : ∃ e ∈ h.eth.heard, e.1 / 4 = pl ∧ h.portUp e.1 = true) :
    ∃ c ∈ h.eth.heard, h.bestTransmitter = some (c.1, c.2.1) ∧ c.1 / 4 = pl ∧ h.portUp c.1 = true ∧
      ∀ e ∈ h.eth.heard, e.1 / 4 = pl → h.portUp e.1 = true → c.2.2 ≤ e.2.2 := by
  obtain ⟨e, hm, hpl, hup⟩ := he
  obtain ⟨c, hc, hf, least⟩ := foldl_betterTransmitter_none ⟨e, Hw.mem_heardOn.2 ⟨hm, hpl, hup⟩⟩
  obtain ⟨cm, cpl, cup⟩ := Hw.mem_heardOn.1 hc
  refine ⟨c, cm, ?_, cpl, cup, fun e m p u => least e (Hw.mem_heardOn.2 ⟨m, p, u⟩)⟩
  rw [Hw.bestTransmitter_on hp, hf]
  rfl

/-! ## The choice and what the ports show -/

theorem Hw.chosen_chooseTime (h : Hw) : h.chooseTime.eth.chosen = h.bestTransmitter := by
  rw [Hw.chooseTime_eq]
  split_ifs with e
  · exact e.symm
  · rfl

theorem Hw.heard_chooseTime (h : Hw) : h.chooseTime.eth.heard = h.eth.heard := by
  have e : (h.showTransmitter h.bestTransmitter).eth = h.eth := Hw.only_showTransmitter .eth (by decide)
  rw [Hw.chooseTime_eq]
  split_ifs
  · rw [e]
  · show (h.showTransmitter h.bestTransmitter).eth.heard = _
    rw [e]

theorem Hw.regs_chooseTime (h : Hw) : h.chooseTime.regs = (h.showTransmitter h.bestTransmitter).regs := by
  rw [Hw.chooseTime_eq]
  split_ifs <;> rfl

/-- The registers of two ports are different ones. -/
theorem Reg.epStatus_injective {p q : Nat} (h : Reg.EP_STATUS p = Reg.EP_STATUS q) : p = q := by
  simp only [Reg.EP_STATUS, portBase, hubBase] at h
  omega

/-- One-bit fields of different registers, each set once: each holds what it was set to. -/
theorem Hw.flag_foldl_setFlag {f : Nat → Fld} {v : Nat → Bool} (hf : ∀ p, (f p).w = 1 ∧ (f p).lo < 32)
    (inj : ∀ p q, (f p).addr = (f q).addr → p = q) (l : List Nat) (h : Hw) {q : Nat} (hq : q ∈ l) :
    (l.foldl (fun h p => h.setFlag (f p) (v p)) h).flag (f q) = v q := by
  induction l using List.reverseRecOn with
  | nil => cases hq
  | append_singleton l p ih =>
    rw [List.foldl_append]
    by_cases e : q = p
    · subst e
      exact Hw.flag_setFlag_same _ _ _ (hf q).1 (hf q).2
    · have hl : q ∈ l := by simpa [e] using hq
      rw [List.foldl_cons, List.foldl_nil,
        Hw.flag_setFlag_other _ _ _ _ (by have := hf p; omega) (.inl fun ha => e (inj _ _ ha)), ih hl]

theorem Hw.flag_ptpSel_chooseTime (h : Hw) {q : Nat} (hq : q < 8) :
    h.chooseTime.flag (Fd.EP_STATUS.PTP_SEL q) = decide (h.chooseTime.eth.chosen.map Prod.fst = some q) := by
  rw [Hw.flag_of_regs h.regs_chooseTime, Hw.chosen_chooseTime, ← beq_eq_decide]
  exact Hw.flag_foldl_setFlag (f := Fd.EP_STATUS.PTP_SEL) (v := fun p => h.bestTransmitter.map Prod.fst == some p)
    (fun _ => ⟨rfl, (by decide : 30 < 32)⟩) (fun _ _ => Reg.epStatus_injective) _ _ (List.mem_range.2 hq)

/-! ## An Announce (R321) -/

/-- What is heard once a transmitter has announced itself. -/
def Hw.hear (h : Hw) (port ident rank : Nat) : Hw :=
  { h with eth := { h.eth with heard := (port, ident, rank) :: h.eth.heard.filter (fun e => !(e.1 == port && e.2.1 == ident)) } }

theorem Hw.mem_heard_hear {h : Hw} {port ident rank : Nat} {e : Nat × Nat × Nat} :
    e ∈ (h.hear port ident rank).eth.heard ↔
      e = (port, ident, rank) ∨ (e ∈ h.eth.heard ∧ ¬ (e.1 = port ∧ e.2.1 = ident)) := by
  simp [Hw.hear, imp_iff_not_or]

theorem Hw.only_hear {h : Hw} {port ident rank : Nat} : h.Only [.eth] (h.hear port ident rank) := Hw.only_ethField

/-! ## Corrections of the timebase (R31) -/

theorem Hw.only_tbField {h : Hw} {x : Nat} : h.Only [.tb] { h with tb := x } := fun q hq => by
  cases q
  case tb => simp at hq
  all_goals rfl

/-- PKG_TIME_STATUS as a correction shows it. -/
def Hw.showOffset (h : Hw) (off : Int) : Hw :=
  (h.setFld Fd.PKG_TIME_STATUS.OFFSET_NS (toSigned 16 (max (-32767) (min 32767 (-off))))).setFlag Fd.PKG_TIME_STATUS.LOCKED
    (decide (off.natAbs ≤ 1000))

theorem Hw.correctTime_step {h : Hw} {off : Int} (e : 1000000 < off) :
    h.correctTime off =
      { (h.showOffset off).setFlag Fd.PKG_TIME_STATUS.STEPPED true with tb := h.tb + off.toNat, slew := 0 } := if_pos e
theorem Hw.correctTime_slew {h : Hw} {off : Int} (e : off ≤ 1000000) :
    h.correctTime off = { h.showOffset off with slew := off } := if_neg (not_lt.2 e)

theorem Hw.only_showOffset {h : Hw} {off : Int} : h.Only [.regs] (h.showOffset off) := Hw.only_setFld.trans Hw.only_setFlag
theorem Hw.regsBut_showOffset {h : Hw} {off : Int} : h.RegsBut [Reg.PKG_TIME_STATUS] (h.showOffset off) :=
  Hw.RegsBut.trans (k := h.setFld Fd.PKG_TIME_STATUS.OFFSET_NS _) (Hw.regsBut_setFld (f := Fd.PKG_TIME_STATUS.OFFSET_NS))
    (Hw.regsBut_setFlag (f := Fd.PKG_TIME_STATUS.LOCKED))
theorem Hw.locked_showOffset {h : Hw} {off : Int} :
    (h.showOffset off).flag Fd.PKG_TIME_STATUS.LOCKED = decide (off.natAbs ≤ 1000) := Hw.flag_setFlag_same _ _ _ rfl (by decide)
theorem Hw.stepped_showOffset {h : Hw} {off : Int} :
    (h.showOffset off).flag Fd.PKG_TIME_STATUS.STEPPED = h.flag Fd.PKG_TIME_STATUS.STEPPED := by
  rw [Hw.showOffset, Hw.flag_setFlag_other _ _ _ _ (by decide) (by decide), Hw.flag_setFld_other _ _ _ _ (by decide) (by decide)]

/-- The frame of a correction, and what PKG_TIME_STATUS says of it, whether it steps or slews. -/
theorem Hw.correctTime_keeps (h : Hw) (off : Int) :
    h.Only [.regs, .tb, .slew] (h.correctTime off) ∧ h.RegsBut [Reg.PKG_TIME_STATUS] (h.correctTime off) ∧
      (h.correctTime off).flag Fd.PKG_TIME_STATUS.LOCKED = decide (off.natAbs ≤ 1000) := by
  rcases lt_or_ge 1000000 off with e | e
  · rw [Hw.correctTime_step e]
    refine ⟨?_, ?_, ?_⟩
    · have regs : h.Only [.regs] ((h.showOffset off).setFlag Fd.PKG_TIME_STATUS.STEPPED true) :=
        Hw.only_showOffset.trans Hw.only_setFlag
      have tb : h.Only [.regs, .tb, .slew] { (h.showOffset off).setFlag Fd.PKG_TIME_STATUS.STEPPED true with
          tb := h.tb + off.toNat } := (regs.mono (by simp)).trans (Hw.only_tbField.mono (by simp))
      exact tb.trans (Hw.only_slewField.mono (by simp))
    · exact Hw.regsBut_showOffset.trans (Hw.regsBut_setFlag (f := Fd.PKG_TIME_STATUS.STEPPED))
    · exact (Hw.flag_setFlag_other _ Fd.PKG_TIME_STATUS.STEPPED _ _ (by decide) (by decide)).trans Hw.locked_showOffset
  · rw [Hw.correctTime_slew e]
    exact ⟨(Hw.only_showOffset.mono (by simp)).trans (Hw.only_slewField.mono (by simp)), Hw.regsBut_showOffset,
      Hw.locked_showOffset⟩

/-- A correction of more than 1 ms forward is one step. -/
theorem Hw.correctTime_forward {h : Hw} {off : Int} (e : 1000000 < off) :
    ((h.correctTime off).tb : Int) = h.tb + off ∧ (h.correctTime off).flag Fd.PKG_TIME_STATUS.STEPPED = true := by
  rw [Hw.correctTime_step e]
  refine ⟨?_, Hw.flag_setFlag_same _ Fd.PKG_TIME_STATUS.STEPPED _ rfl (by decide)⟩
  show ((h.tb + off.toNat : Nat) : Int) = _
  omega

/-- Any other correction is slewed. -/
theorem Hw.correctTime_slewed {h : Hw} {off : Int} (e : off ≤ 1000000) :
    (h.correctTime off).tb = h.tb ∧ (h.correctTime off).slew = off ∧
      (h.correctTime off).flag Fd.PKG_TIME_STATUS.STEPPED = h.flag Fd.PKG_TIME_STATUS.STEPPED := by
  rw [Hw.correctTime_slew e]
  exact ⟨rfl, rfl, Hw.stepped_showOffset⟩

theorem Hw.only_holdover {h : Hw} : h.Only [.regs, .slew] h.holdover :=
  ((Hw.only_setFlag.trans Hw.only_setFlag).mono (by simp)).trans (Hw.only_slewField.mono (by simp))
theorem Hw.regsBut_holdover {h : Hw} : h.RegsBut [Reg.PKG_TIME_STATUS] h.holdover :=
  (Hw.regsBut_setFlag (f := Fd.PKG_TIME_STATUS.SRC_LOST)).trans (Hw.regsBut_setFlag (f := Fd.PKG_TIME_STATUS.LOCKED))
theorem Hw.status_holdover {h : Hw} : h.holdover.flag Fd.PKG_TIME_STATUS.SRC_LOST = true ∧
    h.holdover.flag Fd.PKG_TIME_STATUS.LOCKED = false ∧ h.holdover.slew = 0 := by
  refine ⟨?_, Hw.flag_setFlag_same _ Fd.PKG_TIME_STATUS.LOCKED _ rfl (by decide), rfl⟩
  exact (Hw.flag_setFlag_other _ Fd.PKG_TIME_STATUS.LOCKED _ _ (by decide) (by decide)).trans
    (Hw.flag_setFlag_same _ _ _ rfl (by decide))

/-! ## The messages -/

theorem Hw.only_outField {h : Hw} {x : List Out} : h.Only [.out] { h with out := x } := fun q hq => by
  cases q
  case out => simp at hq
  all_goals rfl

/-- The Delay_Req that went out has its answer. -/
def Hw.delayAnswered (h : Hw) : Hw := { h with eth := { h.eth with reqTb := none } }

theorem Hw.only_delayAnswered {h : Hw} : h.Only [.eth] h.delayAnswered := Hw.only_ethField

theorem Hw.only_usableSync {h : Hw} {port t1 t2 : Nat} : h.Only [.eth, .out] (h.usableSync port t1 t2) :=
  (Hw.only_ethField.mono (by simp)).trans (Hw.only_outField.mono (by simp))

section
variable {s : State} {p : Fin 8} {dom : Byte} {ident : BitVec 64}

theorem exec_ptpAnnounce (up : s.hw.portUp p.val = true) (hd : s.hw.fld (Fd.EP_CFG.PTP_DOMAIN p.val) = dom.toNat)
    (rank : BitVec 128) :
    exec (.ptpAnnounce p dom ident rank) s = .next { s with hw := (s.hw.hear p.val ident.toNat rank.toNat).chooseTime } := by
  refine keep_next ?_
  unfold announceHw
  exact if_pos (by rw [up, decide_eq_true hd]; rfl)

theorem Hw.fromChosen_eq {h : Hw} (up : h.portUp p.val = true) (hd : h.fld (Fd.EP_CFG.PTP_DOMAIN p.val) = dom.toNat) :
    h.fromChosen p.val dom ident.toNat = decide (h.eth.chosen = some (p.val, ident.toNat)) := by
  rw [Hw.fromChosen, up, decide_eq_true hd, Bool.true_and, Bool.true_and]
  exact beq_eq_decide _ _

/-- The messages of a transmitter that is not the chosen one change nothing. -/
theorem exec_ptp_unchosen (e : s.hw.fromChosen p.val dom ident.toNat = false) (o : Option (BitVec 64)) (t1 : BitVec 64) :
    exec (.ptpSync p dom ident o) s = .next s ∧ exec (.ptpFollowUp p dom ident t1) s = .next s ∧
      exec (.ptpDelayResp p dom ident t1) s = .next s := by
  refine ⟨keep_next ?_, keep_next ?_, keep_next ?_⟩
  · unfold syncHw; exact if_neg (by simp [e])
  · unfold followUpHw; exact if_neg (by simp [e])
  · unfold delayRespHw; exact if_neg (by simp [e])

section
variable (e : s.hw.fromChosen p.val dom ident.toNat = true)
include e

theorem exec_ptpSync_oneStep (t1 : BitVec 64) :
    exec (.ptpSync p dom ident (some t1)) s = .next { s with hw := s.hw.usableSync p.val t1.toNat s.hw.tb } := by
  refine keep_next ?_
  rw [syncHw, if_pos e]

theorem exec_ptpSync_twoStep :
    exec (.ptpSync p dom ident none) s =
      .next { s with hw := { s.hw with eth := { s.hw.eth with sync := some (none, s.hw.tb), reqTb := none } } } := by
  refine keep_next ?_
  rw [syncHw, if_pos e]

theorem exec_ptpFollowUp {t1 : BitVec 64} {t2 : Nat} (hs : s.hw.eth.sync = some (none, t2)) :
    exec (.ptpFollowUp p dom ident t1) s = .next { s with hw := s.hw.usableSync p.val t1.toNat t2 } := by
  refine keep_next ?_
  rw [followUpHw, if_pos e, hs]

theorem exec_ptpDelayResp {t4 : BitVec 64} {t1 t2 t3 : Nat} {off : Int} (hs : s.hw.eth.sync = some (some t1, t2))
    (hr : s.hw.eth.reqTb = some t3) (ho : 2 * off = ((t1 : Int) - t2) + ((t4.toNat : Int) - t3)) :
    exec (.ptpDelayResp p dom ident t4) s =
      .next { s with hw := s.hw.delayAnswered.correctTime off } := by
  refine keep_next ?_
  have half : (((t1 : Int) - t2) + ((t4.toNat : Int) - t3)) / 2 = off := by omega
  rw [delayRespHw, if_pos e, hs, hr]
  dsimp only
  rw [half]
  rfl

end

theorem exec_ptpSourceLoss {pl : Nat} (hp : s.hw.ptpPlane = some pl) :
    exec .ptpSourceLoss s =
      .next { s with hw := if Tab.getD s.hw.eth.syncTb pl 0 + 3000000000 ≤ s.hw.tb then s.hw.holdover else s.hw } := by
  refine keep_next ?_
  rw [sourceLossHw, hp]

end

/-- Settles O21: the choice by `Hw.bestTransmitter_least`, the corrections by the two cases of `Hw.correctTime`. -/
theorem ptpDisciplinesTimebase : Obligations.PtpDisciplinesTimebase := by
  intro s p dom ident
  refine ⟨fun up hd => ⟨fun rank => ?_, fun hc => ?_, fun hc o t1 => ?_⟩, fun pl hpl hs due => ?_,
    fun pl hpl hs early => ?_⟩
  · have heard := Hw.heard_chooseTime (s.hw.hear p.val ident.toNat rank.toNat)
    refine ⟨_, exec_ptpAnnounce up hd rank, Frame.keep ((Hw.only_hear.mono (by simp)).trans Hw.only_chooseTime), ?_, ?_, ?_, ?_⟩
    · intro e
      rw [heard]
      exact Hw.mem_heard_hear
    · intro pl hpl hs hex
      simp only [heard, Hw.chosen_chooseTime] at hex ⊢
      exact Hw.bestTransmitter_least (Hw.ptpPlane_of_src hpl hs) hex
    · exact fun q hq => Hw.flag_ptpSel_chooseTime _ hq
    · exact Hw.flag_of_reg (Hw.reg_chooseTime (by decide))
  · have e : s.hw.fromChosen p.val dom ident.toNat = true := by rw [Hw.fromChosen_eq up hd, decide_eq_true hc]
    have peer : (⟨0, 319, Fin.ofNat 8 p.val⟩ : Peer) = ⟨0, 319, p⟩ := by rw [Fin.ofNat_val_eq_self]
    refine ⟨fun t1 => ?_, ?_, fun t1 t2 hs => ?_, fun t4 t1 t2 t3 off hs hr ho => ?_⟩
    · refine ⟨_, exec_ptpSync_oneStep e t1, Frame.keep Hw.only_usableSync, rfl, rfl, Tab.getD_put_same _ _ _ _, ?_⟩
      rw [← peer]
      rfl
    · exact ⟨_, exec_ptpSync_twoStep e, Frame.keep Hw.only_ethField, rfl⟩
    · refine ⟨_, exec_ptpFollowUp e hs, Frame.keep Hw.only_usableSync, rfl, rfl, ?_⟩
      rw [← peer]
      rfl
    · obtain ⟨only, but, locked⟩ := s.hw.delayAnswered.correctTime_keeps off
      have frame : s.hw.Only [.regs, .tb, .slew, .eth] (s.hw.delayAnswered.correctTime off) :=
        (Hw.only_delayAnswered.mono (by simp)).trans (only.mono (by simp))
      refine ⟨_, exec_ptpDelayResp e hs hr ho, Frame.keep frame, but, ?_, locked,
        fun fwd => Hw.correctTime_forward fwd, fun slow => Hw.correctTime_slewed slow⟩
      exact congrArg EthSt.reqTb (only .eth (by decide))
  · exact exec_ptp_unchosen (by rw [Hw.fromChosen_eq up hd, decide_eq_false hc]) o t1
  · obtain ⟨lost, locked, slew⟩ := Hw.status_holdover (h := s.hw)
    refine ⟨_, exec_ptpSourceLoss (Hw.ptpPlane_of_src hpl hs), ?_⟩
    rw [if_pos due]
    exact ⟨Frame.keep Hw.only_holdover, Hw.regsBut_holdover, lost, locked, slew⟩
  · rw [exec_ptpSourceLoss (Hw.ptpPlane_of_src hpl hs), if_neg (Nat.not_le.2 early)]

end Sys2Proof.Machine
end

section
/-!
PROOFS. What a change of pace, an entry of the log and a message leave alone (R28, R400, R434).
-/
namespace Sys2Proof.Machine

/-! ## Updates of one part -/

theorem Hw.only_pwrField {h : Hw} {x : PwrSt} : h.Only [.pwr] { h with pwr := x } := fun q hq => by
  cases q
  case pwr => simp at hq
  all_goals rfl
theorem Hw.only_thmField {h : Hw} {x : ThmSt} : h.Only [.thm] { h with thm := x } := fun q hq => by
  cases q
  case thm => simp at hq
  all_goals rfl
theorem Hw.only_boardField {h : Hw} {x : BoardSt} : h.Only [.board] { h with board := x } := fun q hq => by
  cases q
  case board => simp at hq
  all_goals rfl

/-! ## Registers of the hubs -/

/-- Every register of the hubs, which lie below the dies, holds in `k` what it holds in `h`, but for the listed ones. -/
def Hw.HubBut (l : List Nat) (h k : Hw) : Prop := ∀ a < 0x10000000, a ∉ l → k.reg a = h.reg a

theorem Hw.HubBut.refl (l : List Nat) (h : Hw) : h.HubBut l h := fun _ _ _ => rfl
theorem Hw.HubBut.trans {l : List Nat} {h k m : Hw} (a : h.HubBut l k) (b : k.HubBut l m) : h.HubBut l m :=
  fun q hub hq => (b q hub hq).trans (a q hub hq)
theorem Hw.HubBut.mono {l m : List Nat} {h k : Hw} (a : h.HubBut l k) (e : ∀ b ∈ l, b ∈ m) : h.HubBut m k :=
  fun q hub hq => a q hub (fun hl => hq (e q hl))
theorem Hw.RegsBut.hub {l : List Nat} {h k : Hw} (a : h.RegsBut l k) : h.HubBut l k := fun q _ hq => a q hq
/-- A register of a die is none of the hubs'. -/
theorem Hw.RegsBut.hub_of_die {l : List Nat} {h k : Hw} (a : h.RegsBut l k) (e : ∀ b ∈ l, 0x10000000 ≤ b) : h.HubBut [] k :=
  fun q hub _ => a q (fun hl => absurd hub (Nat.not_lt.2 (e q hl)))
theorem Hw.HubBut.of_regs {l : List Nat} {h k : Hw} (e : k.regs = h.regs) : h.HubBut l k := fun q _ _ => Hw.reg_of_regs e q
theorem Hw.HubBut.fld {l : List Nat} {h k : Hw} (a : h.HubBut l k) {g : Fld} (hub : g.addr < 0x10000000) (e : g.addr ∉ l) :
    k.fld g = h.fld g := Hw.fld_of_reg (a g.addr hub e)
theorem Hw.HubBut.flag {l : List Nat} {h k : Hw} (a : h.HubBut l k) {g : Fld} (hub : g.addr < 0x10000000) (e : g.addr ∉ l) :
    k.flag g = h.flag g := Hw.flag_of_reg (a g.addr hub e)
theorem Hw.HubBut.foldl {α : Type} {l : List Nat} (f : Hw → α → Hw) (xs : List α) (h : Hw)
    (e : ∀ k : Hw, ∀ x ∈ xs, k.HubBut l (f k x)) : h.HubBut l (xs.foldl f h) := by
  induction xs generalizing h with
  | nil => exact Hw.HubBut.refl l h
  | cons x xs ih => exact (e h x (by simp)).trans (ih _ (fun k y hy => e k y (by simp [hy])))

/-! ## The log and events (R336, R434) -/

theorem Hw.regsBut_logSev {h : Hw} {v s k : Nat} {d : List Byte} : h.RegsBut [Reg.CTR_LOG_STATUS] (h.logSev v s k d) := by
  unfold Hw.logSev
  dsimp only
  refine Hw.RegsBut.trans
    (k := if decide (4096 ≤ h.logs.ents.length) = true then h.satFld Fd.CTR_LOG_STATUS.OVERWRITTEN 1 else h) ?_
    (Hw.RegsBut.of_regs rfl)
  split_ifs
  · exact Hw.regsBut_satFld (f := Fd.CTR_LOG_STATUS.OVERWRITTEN)
  · exact Hw.RegsBut.refl _ _
theorem Hw.regsBut_log {h : Hw} {s k w : Nat} {d : List Byte} : h.RegsBut [Reg.CTR_LOG_STATUS] (h.log s k w d) :=
  Hw.regsBut_logSev
theorem Hw.regsBut_event {h : Hw} {o c : Nat} {p : List Nat} {b : List Byte} :
    h.RegsBut [Reg.CTR_LOG_STATUS] (h.event o c p b) :=
  (Hw.RegsBut.of_regs (k := h.sendEvent o c p b) rfl).trans Hw.regsBut_log
theorem Hw.only_thermal {h : Hw} {c u : Nat} {r : Int} : h.Only [.regs, .logs, .out, .host] (h.thermal c u r) := Hw.only_event
theorem Hw.regsBut_thermal {h : Hw} {c u : Nat} {r : Int} : h.RegsBut [Reg.CTR_LOG_STATUS] (h.thermal c u r) := Hw.regsBut_event

theorem Hw.only_protect {h h0 : Hw} {a u : Nat} : h.Only [.thm] (h.protect h0 a u) := Hw.only_thmField

theorem Hw.only_protLog {h : Hw} : h.Only [.regs, .thm, .logs, .out, .host] h.protLog :=
  (Hw.only_thmField.mono (by simp)).trans (Hw.Only.foldl _ _ _ (fun _ _ _ => Hw.only_log.mono (by simp)))
theorem Hw.regsBut_protLog {h : Hw} : h.RegsBut [Reg.CTR_LOG_STATUS] h.protLog :=
  (Hw.RegsBut.of_regs rfl).trans (Hw.RegsBut.foldl _ _ _ (fun _ _ _ => Hw.regsBut_log))

theorem Hw.only_foehnStop {h : Hw} : h.Only [.regs, .thm] h.foehnStop :=
  (Hw.only_thmField.mono (by simp)).trans (Hw.only_setFlag.mono (by simp))
theorem Hw.regsBut_foehnStop {h : Hw} : h.RegsBut [Reg.THM_STATUS] h.foehnStop :=
  (Hw.RegsBut.of_regs rfl).trans (Hw.regsBut_setFlag (f := Fd.THM_STATUS.FOEHN_ACTIVE))

/-! ## The issued rate of a cluster (R27) -/

theorem Hw.only_noteEpoch {h : Hw} {c : Nat} {f : CtxRun → Nat → CtxRun} : h.Only [.ctxs] (h.noteEpoch c f) := by
  unfold Hw.noteEpoch
  split
  · exact Hw.Only.refl _ _
  · split
    · exact Hw.only_modRun
    · exact Hw.Only.refl _ _

theorem Hw.only_setIssued {h : Hw} {c m : Nat} : h.Only [.regs, .clus] (h.setIssued c m) :=
  (Hw.only_modClus.mono (by simp)).trans (Hw.only_setFld.mono (by simp))
theorem Hw.regsBut_setIssued {h : Hw} {c m : Nat} : h.RegsBut [Reg.PWR_CL_PACE c] (h.setIssued c m) :=
  (Hw.RegsBut.of_regs rfl).trans (Hw.regsBut_setFld (f := Fd.PWR_CL_PACE.ISSUED_MSTEPS c))

/-- PWR_CL_PACE of a cluster that issues steps: the lower of its pace and its natural speed, and which of them it is. -/
def Hw.showIssue (h : Hw) (c : Nat) : Hw :=
  (h.setIssued c (min (h.progOf c) (h.fld (Fd.PWR_CL_PACE.NATURAL_MSTEPS c)))).setFlag (Fd.PWR_CL_PACE.NAT_LIMITED c)
    (decide (h.fld (Fd.PWR_CL_PACE.NATURAL_MSTEPS c) < h.progOf c))

theorem Hw.only_showIssue {h : Hw} {c : Nat} : h.Only [.regs, .clus] (h.showIssue c) :=
  Hw.only_setIssued.trans (Hw.only_setFlag.mono (by simp))

/-- Beyond what PWR_CL_PACE shows, a live cluster's rate is only noted in the epoch of its context. -/
theorem Hw.reissue_live {h : Hw} {c : Nat} (live : c / 8 ∈ h.plu.diesUp) : (h.showIssue c).Only [.ctxs] (h.reissue c) := by
  unfold Hw.reissue
  rw [if_pos (List.contains_iff_mem.2 live)]
  dsimp only
  split_ifs
  · exact Hw.only_noteEpoch
  · exact Hw.Only.refl _ _
theorem Hw.reissue_dead {h : Hw} {c : Nat} (dead : c / 8 ∉ h.plu.diesUp) : h.reissue c = h.setIssued c 0 :=
  if_neg (by simpa using dead)

theorem Hw.only_reissue {h : Hw} {c : Nat} : h.Only [.regs, .ctxs, .clus] (h.reissue c) := by
  by_cases live : c / 8 ∈ h.plu.diesUp
  · exact (Hw.only_showIssue.mono (by simp)).trans ((Hw.reissue_live live).mono (by simp))
  · rw [Hw.reissue_dead live]
    exact Hw.only_setIssued.mono (by simp)
theorem Hw.regsBut_reissue {h : Hw} {c : Nat} : h.RegsBut [Reg.PWR_CL_PACE c] (h.reissue c) := by
  by_cases live : c / 8 ∈ h.plu.diesUp
  · have shown : h.RegsBut [Reg.PWR_CL_PACE c] (h.showIssue c) :=
      Hw.regsBut_setIssued.trans (Hw.regsBut_setFlag (f := Fd.PWR_CL_PACE.NAT_LIMITED c))
    exact shown.trans (Hw.RegsBut.of_regs (Hw.reissue_live live .regs (by decide)))
  · rw [Hw.reissue_dead live]
    exact Hw.regsBut_setIssued

/-! ## Paces (R400) -/

/-- Only the paces of clusters and what shows them changed: the registers of the dies, notes in contexts, and the step counts. -/
structure Hw.Repaced (h k : Hw) : Prop where
  only : h.Only [.regs, .ctxs, .clus, .pwr] k
  pwr : k.pwr = { h.pwr with prog := k.pwr.prog }
  hub : h.HubBut [] k

theorem Hw.Repaced.refl (h : Hw) : h.Repaced h := ⟨Hw.Only.refl _ _, rfl, Hw.HubBut.refl _ _⟩
theorem Hw.Repaced.trans {h k m : Hw} (a : h.Repaced k) (b : k.Repaced m) : h.Repaced m :=
  ⟨a.only.trans b.only, by rw [b.pwr, a.pwr], a.hub.trans b.hub⟩
theorem Hw.Repaced.foldl {f : Hw → Nat → Hw} (e : ∀ (k : Hw) (x : Nat), k.Repaced (f k x)) (xs : List Nat) (h : Hw) :
    h.Repaced (xs.foldl f h) := by
  induction xs generalizing h with
  | nil => exact Hw.Repaced.refl h
  | cons x xs ih => exact (e h x).trans (ih _)
/-- What changes neither the power part nor a hub's register. -/
theorem Hw.Repaced.of_only {h k : Hw} (a : h.Only [.regs, .ctxs, .clus] k) (hub : h.HubBut [] k) : h.Repaced k :=
  ⟨a.mono (by simp), by rw [a .pwr (by decide)], hub⟩

theorem Reg.die_le_clPace (c : Nat) : 0x10000000 ≤ Reg.PWR_CL_PACE c := by
  simp only [Reg.PWR_CL_PACE, clusBase, dieBase]
  omega
theorem Reg.die_le_dieStatus (d : Nat) : 0x10000000 ≤ Reg.PWR_DIE_STATUS d := by
  simp only [Reg.PWR_DIE_STATUS, dieBase]
  omega

theorem Hw.repaced_reissue {h : Hw} {c : Nat} : h.Repaced (h.reissue c) :=
  .of_only Hw.only_reissue (Hw.regsBut_reissue.hub_of_die (by simpa using Reg.die_le_clPace c))

/-- The pace that a cluster's limits give it (R398, R400). -/
def Hw.paceFor (h : Hw) (c : Nat) : Nat := lowest (h.limits c) / 10 * 10

theorem Hw.repaceClus_same {h : Hw} {c : Nat} (e : h.paceFor c = h.progOf c) : h.repaceClus c = h := if_pos e
theorem Hw.repaceClus_new {h : Hw} {c : Nat} (e : h.paceFor c ≠ h.progOf c) :
    ∃ g, ({ h with pwr := { h.pwr with prog := Tab.set h.pwr.prog c 1500 (h.paceFor c) } } : Hw).Only [.ctxs] g ∧
      h.repaceClus c = g.reissue c := ⟨_, Hw.only_noteEpoch, if_neg e⟩

theorem Hw.repaced_repaceClus (h : Hw) (c : Nat) : h.Repaced (h.repaceClus c) := by
  by_cases e : h.paceFor c = h.progOf c
  · rw [Hw.repaceClus_same e]
    exact .refl h
  · obtain ⟨g, only, eq⟩ := Hw.repaceClus_new e
    have noted : h.Repaced g := by
      refine ⟨(Hw.only_pwrField.mono (by simp)).trans (only.mono (by simp)), ?_, .of_regs (only .regs (by decide))⟩
      rw [only .pwr (by decide)]
    rw [eq]
    exact noted.trans Hw.repaced_reissue

/-- The paces after a cluster is given its pace: its own as its limits say, any other as before. -/
theorem Hw.progOf_repaceClus (h : Hw) (c : Nat) : (h.repaceClus c).progOf c = h.paceFor c := by
  by_cases e : h.paceFor c = h.progOf c
  · rw [Hw.repaceClus_same e, e]
  · obtain ⟨g, only, eq⟩ := Hw.repaceClus_new e
    rw [eq, Hw.progOf, Hw.only_reissue .pwr (by decide), only .pwr (by decide)]
    exact Tab.getD_set_same _ _ _ _
theorem Hw.progOf_repaceClus_other (h : Hw) {c d : Nat} (n : c ≠ d) : (h.repaceClus d).progOf c = h.progOf c := by
  by_cases e : h.paceFor d = h.progOf d
  · rw [Hw.repaceClus_same e]
  · obtain ⟨g, only, eq⟩ := Hw.repaceClus_new e
    rw [eq, Hw.progOf, Hw.only_reissue .pwr (by decide), only .pwr (by decide)]
    exact Tab.getD_set_other _ _ _ _ n

/-- The status of a die is one register of it. -/
theorem Hw.only_repaceDie {h : Hw} {d : Nat} : h.Only [.regs] (h.repaceDie d) :=
  ((Hw.only_setFld.trans Hw.only_setFld).trans Hw.only_setFld).trans Hw.only_setFld
theorem Hw.regsBut_repaceDie {h : Hw} {d : Nat} : h.RegsBut [Reg.PWR_DIE_STATUS d] (h.repaceDie d) :=
  (((Hw.regsBut_setFld (f := Fd.PWR_DIE_STATUS.PACE_MSTEPS d)).trans (Hw.regsBut_setFld (f := Fd.PWR_DIE_STATUS.LIMIT d))).trans
    (Hw.regsBut_setFld (f := Fd.PWR_DIE_STATUS.VDD_MV d))).trans (Hw.regsBut_setFld (f := Fd.PWR_DIE_STATUS.MODE d))
theorem Hw.repaced_repaceDie (h : Hw) (d : Nat) : h.Repaced (h.repaceDie d) :=
  .of_only (Hw.only_repaceDie.mono (by simp)) (Hw.regsBut_repaceDie.hub_of_die (by simpa using Reg.die_le_dieStatus d))

theorem Hw.repaced_repace (h : Hw) : h.Repaced h.repace :=
  (Hw.Repaced.foldl Hw.repaced_repaceClus _ h).trans (Hw.Repaced.foldl Hw.repaced_repaceDie _ _)

/-! ### A limit holds a cluster's pace down -/

theorem foldl_min_le (l : List Nat) (a : Nat) : l.foldl min a ≤ a ∧ ∀ x ∈ l, l.foldl min a ≤ x := by
  induction l generalizing a with
  | nil => simp
  | cons b l ih =>
    obtain ⟨start, each⟩ := ih (min a b)
    exact ⟨start.trans (min_le_left a b), List.forall_mem_cons.2 ⟨start.trans (min_le_right a b), each⟩⟩

theorem lowest_le {l : List (Nat × Nat)} {p : Nat × Nat} (h : p ∈ l) : lowest l ≤ p.2 :=
  (foldl_min_le _ _).2 _ (List.mem_map_of_mem h)

/-- The fast limiter's limit of a cluster is one of its limits (*Pace limits*, 0x7). -/
theorem Hw.fast_mem_limits {h : Hw} {c : Nat} {q : Nat × Nat} (e : Tab.find? h.pwr.fast c = some q) : (7, q.1) ∈ h.limits c := by
  simp [Hw.limits, Hw.baseLimits, e]

theorem Hw.paceFor_le_fast {h : Hw} {c : Nat} {q : Nat × Nat} (e : Tab.find? h.pwr.fast c = some q) : h.paceFor c ≤ q.1 :=
  (Nat.div_mul_le_self _ _).trans (lowest_le (Hw.fast_mem_limits e))

/-- The clusters given their paces one after the other: each that the fast limiter holds stays at or below its limit. -/
theorem Hw.progOf_foldl_repaceClus_le {h : Hw} {c : Nat} {q : Nat × Nat} (e : Tab.find? h.pwr.fast c = some q) (l : List Nat)
    (hc : c ∈ l) : (l.foldl Hw.repaceClus h).progOf c ≤ q.1 := by
  induction l using List.reverseRecOn with
  | nil => cases hc
  | append_singleton l d ih =>
    rw [List.foldl_append, List.foldl_cons, List.foldl_nil]
    by_cases n : c = d
    · subst n
      rw [Hw.progOf_repaceClus]
      refine Hw.paceFor_le_fast ?_
      rw [(Hw.Repaced.foldl Hw.repaced_repaceClus l h).pwr]
      exact e
    · rw [Hw.progOf_repaceClus_other _ n]
      exact ih (by simpa [n] using hc)

theorem Hw.progOf_repace_le {h : Hw} {c : Nat} {q : Nat × Nat} (e : Tab.find? h.pwr.fast c = some q) (hc : c < 64)
    (live : c / 8 ∈ h.plu.diesUp) : h.repace.progOf c ≤ q.1 := by
  have dies : ∀ k : Hw, k.Only [.regs] (h.plu.diesUp.foldl Hw.repaceDie k) := fun k =>
    Hw.Only.foldl _ _ _ (fun _ _ _ => Hw.only_repaceDie)
  rw [Hw.repace, Hw.progOf, dies _ .pwr (by decide)]
  exact Hw.progOf_foldl_repaceClus_le e _ (by simp [hc, live])

end Sys2Proof.Machine
end

section
/-!
PROOFS. Power samples, the fast limiter, the coordinator, the canary and droop (R26, R27, R397, R404, R405, R408, R471): O27.
-/
namespace Sys2Proof.Machine

/-! ## The fast limiter (R405) -/

/-- The fast limiter's table while it limits: each live cluster at three quarters of its pace, for 1 ms. -/
def Hw.fastTable (h : Hw) : Tab (Nat × Nat) :=
  h.liveClusters.map (fun c => (c, h.progOf c * 3 / 4 / 10 * 10, h.tb + 1000000))

/-- The limiter's table and FAST_LIMIT stand; the paces have yet to follow. -/
def Hw.fastSet (h : Hw) : Hw :=
  ({ h with pwr := { h.pwr with fast := h.fastTable } } : Hw).setFlag Fd.PWR_STATUS.FAST_LIMIT true

theorem Hw.only_fastSet {h : Hw} : h.Only [.regs, .pwr] h.fastSet :=
  (Hw.only_pwrField.mono (by simp)).trans (Hw.only_setFlag.mono (by simp))
theorem Hw.pwr_fastSet (h : Hw) : h.fastSet.pwr = { h.pwr with fast := h.fastTable } := Hw.setFlag_pwr _ _ _
theorem Hw.regsBut_fastSet {h : Hw} : h.RegsBut [Reg.PWR_STATUS] h.fastSet :=
  Hw.RegsBut.trans (k := { h with pwr := { h.pwr with fast := h.fastTable } }) (.of_regs rfl)
    (Hw.regsBut_setFlag (f := Fd.PWR_STATUS.FAST_LIMIT))
theorem Hw.power_fastSet (h : Hw) : h.fastSet.fld Fd.PWR_STATUS.POWER_W = h.fld Fd.PWR_STATUS.POWER_W := by
  rw [Hw.fastSet, Hw.fld_setFlag_other _ _ _ _ (by decide) (by decide)]
  exact Hw.fld_of_regs rfl _
theorem Hw.flag_fastSet (h : Hw) : h.fastSet.flag Fd.PWR_STATUS.FAST_LIMIT = true :=
  Hw.flag_setFlag_same _ _ _ rfl (by decide)

/-- What a run of the fast limiter leaves alone: of the power part all but paces and its own table, and of the registers of the
hubs all but PWR_STATUS, whose POWER_W stays too. -/
structure Hw.FastKept (h k : Hw) : Prop where
  only : h.Only [.regs, .ctxs, .clus, .pwr, .thm] k
  pwr : k.pwr = { h.pwr with prog := k.pwr.prog, fast := k.pwr.fast }
  hub : h.HubBut [Reg.PWR_STATUS] k
  power : k.fld Fd.PWR_STATUS.POWER_W = h.fld Fd.PWR_STATUS.POWER_W

/-- A new table of the limiter and the paces that follow from it. -/
theorem Hw.fastKept_repace {h g : Hw} (only : h.Only [.regs, .pwr] g) (pwr : g.pwr = { h.pwr with fast := g.pwr.fast })
    (hub : h.HubBut [Reg.PWR_STATUS] g) (power : g.fld Fd.PWR_STATUS.POWER_W = h.fld Fd.PWR_STATUS.POWER_W) :
    h.FastKept g.repace := by
  have r := g.repaced_repace
  refine ⟨(only.mono (by simp)).trans (r.only.mono (by simp)), ?_, hub.trans (r.hub.mono (by simp)), ?_⟩
  · rw [r.pwr, pwr]
  · rw [r.hub.fld (by decide) (by simp), power]

theorem Hw.fastKept_fastSet (h : Hw) : h.FastKept h.fastSet.repace :=
  Hw.fastKept_repace Hw.only_fastSet (by rw [Hw.pwr_fastSet]) Hw.regsBut_fastSet.hub h.power_fastSet

theorem Hw.FastKept.thm {h k m : Hw} (a : h.FastKept k) (e : k.Only [.thm] m) : h.FastKept m := by
  refine ⟨a.only.trans (e.mono (by simp)), ?_, a.hub.trans (.of_regs (e .regs (by decide))), ?_⟩
  · rw [e .pwr (by decide)]
    exact a.pwr
  · rw [e.fld (by decide)]
    exact a.power

/-- The limiter begins where the excess is there and no limit of it runs. -/
theorem Hw.fastLimit_excess {h : Hw} (idle : h.pwr.fast = []) (e : 11 * h.fld Fd.PWR_CAP.EFF_CAP_W < 10 * h.avgPower 10) :
    h.fastSet.repace.Only [.thm] h.fastLimit := by
  unfold Hw.fastLimit
  rw [idle]
  dsimp only [List.filter_nil]
  rw [if_pos (by simpa using e)]
  split_ifs
  · exact Hw.Only.refl _ _
  · exact Hw.only_protect

theorem Hw.fastKept_fastLimit (h : Hw) : h.FastKept h.fastLimit := by
  unfold Hw.fastLimit
  dsimp only
  split_ifs
  · exact h.fastKept_fastSet
  · exact h.fastKept_fastSet.thm Hw.only_protect
  · exact ⟨Hw.Only.refl _ _, rfl, Hw.HubBut.refl _ _, rfl⟩
  · exact Hw.fastKept_repace (Hw.only_pwrField.mono (by simp)) rfl (.of_regs rfl) (Hw.fld_of_regs rfl _)

theorem Tab.find?_map_key {α : Type} (f : Nat → α) {l : List Nat} {c : Nat} (h : c ∈ l) :
    Tab.find? (l.map (fun c => (c, f c))) c = some (f c) := by
  induction l with
  | nil => cases h
  | cons d l ih =>
    rw [List.map_cons, Tab.find?]
    split_ifs with e
    · rw [e]
    · exact ih (by simpa [e] using h)

theorem Hw.mem_liveClusters {h : Hw} {c : Nat} : c ∈ h.liveClusters ↔ c < 64 ∧ c / 8 ∈ h.plu.diesUp := by
  simp [Hw.liveClusters]

/-- While it limits, every live cluster's pace is at least a quarter lower, and FAST_LIMIT shows it. -/
theorem Hw.fastSet_limits (h : Hw) : h.fastSet.repace.flag Fd.PWR_STATUS.FAST_LIMIT = true ∧
    ∀ c < 64, c / 8 ∈ h.plu.diesUp → h.fastSet.repace.progOf c ≤ h.progOf c * 3 / 4 := by
  refine ⟨(h.fastSet.repaced_repace.hub.flag (by decide) (by simp)).trans h.flag_fastSet, fun c hc live => ?_⟩
  have entry : Tab.find? h.fastSet.pwr.fast c = some (h.progOf c * 3 / 4 / 10 * 10, h.tb + 1000000) := by
    rw [Hw.pwr_fastSet]
    exact Tab.find?_map_key (fun c => (h.progOf c * 3 / 4 / 10 * 10, h.tb + 1000000)) (Hw.mem_liveClusters.2 ⟨hc, live⟩)
  have bound := Hw.progOf_repace_le entry hc (by rw [Hw.only_fastSet .plu (by decide)]; exact live)
  exact bound.trans (Nat.div_mul_le_self _ _)

/-! ## A sample of power (R397, R408) -/

/-- The energy that the two registers hold, in µJ. -/
def Hw.energy (h : Hw) : Nat := h.fld Fd.PWR_ENERGY_LO.UJ_LO + 2 ^ 32 * h.fld Fd.PWR_ENERGY_HI.UJ_HI

/-- The sample joins those of the last second. -/
def Hw.addSample (h : Hw) (w : Nat) : Hw :=
  { h with pwr := { h.pwr with samples := (w :: h.pwr.samples).take 100000, sampleTb := h.tb } }

/-- The energy registers take a count of µJ. -/
def Hw.setEnergy (h : Hw) (e : Nat) : Hw := (h.setFld Fd.PWR_ENERGY_LO.UJ_LO e).setFld Fd.PWR_ENERGY_HI.UJ_HI (e / 2 ^ 32)

/-- What a sample shows before the limiter runs: the samples, the energy and the 10 ms average. -/
def Hw.sampled (h : Hw) (w : Nat) : Hw :=
  ((h.addSample w).setEnergy (h.energy + 10 * w)).setFld Fd.PWR_STATUS.POWER_W (min 65535 ((h.addSample w).avgPower 1000))

theorem Hw.only_setEnergy {h : Hw} {e : Nat} : h.Only [.regs] (h.setEnergy e) := Hw.only_setFld.trans Hw.only_setFld
theorem Hw.regsBut_setEnergy {h : Hw} {e : Nat} : h.RegsBut [Reg.PWR_ENERGY_LO, Reg.PWR_ENERGY_HI] (h.setEnergy e) :=
  ((Hw.regsBut_setFld (f := Fd.PWR_ENERGY_LO.UJ_LO)).mono (by decide)).trans
    ((Hw.regsBut_setFld (f := Fd.PWR_ENERGY_HI.UJ_HI)).mono (by decide))

/-- The registers hold the energy modulo 2^64. -/
theorem Hw.energy_setEnergy (h : Hw) (e : Nat) : (h.setEnergy e).energy = e % 2 ^ 64 := by
  rw [Hw.energy, Hw.setEnergy, Hw.fld_setFld_other _ _ _ _ (by decide) (by decide), Hw.fld_setFld_same _ _ _ (by decide),
    Hw.fld_setFld_same _ _ _ (by decide)]
  exact (Nat.mod_mul (x := e) (a := 2 ^ 32) (b := 2 ^ 32)).symm

theorem Hw.energy_of_hub {l : List Nat} {h k : Hw} (a : h.HubBut l k) (lo : Reg.PWR_ENERGY_LO ∉ l)
    (hi : Reg.PWR_ENERGY_HI ∉ l) : k.energy = h.energy := by
  rw [Hw.energy, Hw.energy, a.fld (g := Fd.PWR_ENERGY_LO.UJ_LO) (by decide) lo, a.fld (g := Fd.PWR_ENERGY_HI.UJ_HI) (by decide) hi]

theorem Hw.only_sampled {h : Hw} {w : Nat} : h.Only [.regs, .pwr] (h.sampled w) :=
  ((Hw.only_pwrField.mono (by simp)).trans (Hw.only_setEnergy.mono (by simp))).trans (Hw.only_setFld.mono (by simp))
theorem Hw.regsBut_sampled {h : Hw} {w : Nat} :
    h.RegsBut [Reg.PWR_ENERGY_LO, Reg.PWR_ENERGY_HI, Reg.PWR_STATUS] (h.sampled w) :=
  (Hw.RegsBut.trans (k := h.addSample w) (.of_regs rfl) (Hw.regsBut_setEnergy.mono (by decide))).trans
    ((Hw.regsBut_setFld (f := Fd.PWR_STATUS.POWER_W)).mono (by decide))
theorem Hw.energy_sampled (h : Hw) (w : Nat) : (h.sampled w).energy = (h.energy + 10 * w) % 2 ^ 64 := by
  rw [Hw.sampled, Hw.energy_of_hub (Hw.regsBut_setFld (f := Fd.PWR_STATUS.POWER_W)).hub (by decide) (by decide),
    Hw.energy_setEnergy]
theorem Hw.power_sampled (h : Hw) (w : Nat) :
    (h.sampled w).fld Fd.PWR_STATUS.POWER_W = min 65535 ((h.addSample w).avgPower 1000) := by
  rw [Hw.sampled, Hw.fld_setFld_same _ _ _ (by decide)]
  exact Nat.mod_eq_of_lt (Nat.lt_of_le_of_lt (min_le_left _ _) (by decide))

theorem Hw.avgPower_of_samples {h k : Hw} (e : k.pwr.samples = h.pwr.samples) (n : Nat) : k.avgPower n = h.avgPower n := by
  rw [Hw.avgPower, Hw.avgPower, e]
theorem Hw.progOf_of_prog {h k : Hw} (e : k.pwr.prog = h.pwr.prog) (c : Nat) : k.progOf c = h.progOf c := by
  rw [Hw.progOf, Hw.progOf, e]

theorem exec_powerSample_early {s : State} {w : BitVec 16} (e : s.hw.tb < s.hw.pwr.sampleTb + 10000) :
    exec (.powerSample w) s = .next s := keep_next (if_pos (.inr e))
theorem exec_powerSample_due {s : State} {w : BitVec 16} (v : s.hw.flag Fd.PKG_BOARD_STATUS.AUX_PWROK = true)
    (e : s.hw.pwr.sampleTb + 10000 ≤ s.hw.tb) :
    exec (.powerSample w) s = .next { s with hw := (s.hw.sampled w.toNat).protLog.fastLimit } := by
  refine keep_next (if_neg ?_)
  rw [v]
  simpa using e

/-- A due sample: what it joins and shows, and the limiter where the 100 µs average is 10% above the cap. -/
theorem powerSample_completes {s : State} {w : BitVec 16} (v : s.hw.flag Fd.PKG_BOARD_STATUS.AUX_PWROK = true)
    (e : s.hw.pwr.sampleTb + 10000 ≤ s.hw.tb) :
    ∃ t, exec (.powerSample w) s = .next t ∧ Frame [.regs, .ctxs, .clus, .pwr, .thm, .host, .logs, .out] s t ∧
      t.hw.pwr.samples = (w.toNat :: s.hw.pwr.samples).take 100000 ∧ t.hw.pwr.sampleTb = s.hw.tb ∧
      t.hw.energy = (s.hw.energy + 10 * w.toNat) % 2 ^ 64 ∧
      t.hw.fld Fd.PWR_STATUS.POWER_W = min 65535 (t.hw.avgPower 1000) ∧
      (s.hw.pwr.fast = [] → 11 * s.hw.fld Fd.PWR_CAP.EFF_CAP_W < 10 * t.hw.avgPower 10 →
        t.hw.flag Fd.PWR_STATUS.FAST_LIMIT = true ∧
        ∀ c < 64, c / 8 ∈ s.hw.plu.diesUp → t.hw.progOf c ≤ s.hw.progOf c * 3 / 4) := by
  have logged : (s.hw.sampled w.toNat).Only [.regs, .thm, .logs, .out, .host] (s.hw.sampled w.toNat).protLog := Hw.only_protLog
  have before : s.hw.Only [.regs, .pwr, .thm, .logs, .out, .host] (s.hw.sampled w.toNat).protLog :=
    (Hw.only_sampled.mono (by simp)).trans (logged.mono (by simp))
  have kept := (s.hw.sampled w.toNat).protLog.fastKept_fastLimit
  have quiet : (s.hw.sampled w.toNat).HubBut [Reg.CTR_LOG_STATUS] (s.hw.sampled w.toNat).protLog := Hw.regsBut_protLog.hub
  have pwr : (s.hw.sampled w.toNat).protLog.pwr = (s.hw.addSample w.toNat).pwr := logged .pwr (by decide)
  have samples : (s.hw.sampled w.toNat).protLog.fastLimit.pwr.samples = (s.hw.addSample w.toNat).pwr.samples := by
    rw [kept.pwr, ← pwr]
  refine ⟨_, exec_powerSample_due v e, Frame.keep ((before.mono (by simp)).trans (kept.only.mono (by simp))), samples,
    ?_, ?_, ?_, ?_⟩
  · rw [kept.pwr, pwr]
    rfl
  · rw [Hw.energy_of_hub kept.hub (by decide) (by decide), Hw.energy_of_hub quiet (by decide) (by decide), Hw.energy_sampled]
  · rw [kept.power, quiet.fld (by decide) (by decide), Hw.power_sampled, Hw.avgPower_of_samples samples]
  · intro idle excess
    have cap : (s.hw.sampled w.toNat).protLog.fld Fd.PWR_CAP.EFF_CAP_W = s.hw.fld Fd.PWR_CAP.EFF_CAP_W := by
      rw [quiet.fld (by decide) (by decide), Hw.regsBut_sampled.fld (by decide)]
    rw [Hw.avgPower_of_samples samples, ← cap, ← Hw.avgPower_of_samples (congrArg PwrSt.samples pwr)] at excess
    have began := Hw.fastLimit_excess (by rw [pwr]; exact idle) excess
    obtain ⟨flag, paces⟩ := (s.hw.sampled w.toNat).protLog.fastSet_limits
    refine ⟨(began.flag (by decide) _).trans flag, fun c hc live => ?_⟩
    have pace := paces c hc (by rw [before .plu (by decide)]; exact live)
    rwa [← Hw.progOf_of_prog (congrArg PwrSt.prog (began .pwr (by decide))),
      Hw.progOf_of_prog (h := s.hw) (k := (s.hw.sampled w.toNat).protLog) (by rw [pwr]; rfl)] at pace

/-! ## The coordinator's cuts (R404) -/

/-- What an action of the coordinator leaves alone: the time of its tick, and of the registers of the hubs all but the status of
power, of cooling and of the log. -/
structure Hw.CutKept (h k : Hw) : Prop where
  only : h.Only [.regs, .ctxs, .clus, .pwr, .thm, .host, .logs, .out] k
  coordTb : k.pwr.coordTb = h.pwr.coordTb
  hub : h.HubBut [Reg.PWR_STATUS, Reg.THM_STATUS, Reg.CTR_LOG_STATUS] k

theorem Hw.CutKept.trans {h k m : Hw} (a : h.CutKept k) (b : k.CutKept m) : h.CutKept m :=
  ⟨a.only.trans b.only, b.coordTb.trans a.coordTb, a.hub.trans b.hub⟩
theorem Hw.Repaced.cutKept {h k : Hw} (a : h.Repaced k) : h.CutKept k :=
  ⟨a.only.mono (by simp), by rw [a.pwr], a.hub.mono (by simp)⟩
/-- What does not change the power part. -/
theorem Hw.CutKept.of_only {h k : Hw} (a : h.Only [.regs, .thm, .host, .logs, .out] k)
    (hub : h.HubBut [Reg.PWR_STATUS, Reg.THM_STATUS, Reg.CTR_LOG_STATUS] k) : h.CutKept k :=
  ⟨a.mono (by simp), by rw [a .pwr (by decide)], hub⟩

theorem Hw.only_showCuts {h : Hw} : h.Only [.regs] h.showCuts := (Hw.only_setFlag.trans Hw.only_setFlag).trans Hw.only_setFlag
theorem Hw.regsBut_showCuts {h : Hw} : h.RegsBut [Reg.PWR_STATUS] h.showCuts :=
  ((Hw.regsBut_setFlag (f := Fd.PWR_STATUS.COMPUTE_CUT)).trans (Hw.regsBut_setFlag (f := Fd.PWR_STATUS.MEMORY_CUT))).trans
    (Hw.regsBut_setFlag (f := Fd.PWR_STATUS.LINKS_CUT))
/-- Showing the cuts leaves CAP_UNMET, another bit of PWR_STATUS. -/
theorem Hw.unmet_showCuts (h : Hw) : h.showCuts.flag Fd.PWR_STATUS.CAP_UNMET = h.flag Fd.PWR_STATUS.CAP_UNMET := by
  rw [Hw.showCuts, Hw.flag_setFlag_other _ _ _ _ (by decide) (by decide), Hw.flag_setFlag_other _ _ _ _ (by decide) (by decide),
    Hw.flag_setFlag_other _ _ _ _ (by decide) (by decide)]

/-- New limits give new paces, and PWR_STATUS shows what is cut. -/
theorem Hw.cutKept_repace_showCuts (h : Hw) : h.CutKept h.repace.showCuts :=
  h.repaced_repace.cutKept.trans (.of_only (Hw.only_showCuts.mono (by simp)) (Hw.regsBut_showCuts.hub.mono (by simp)))
theorem Hw.steps_repace_showCuts (h : Hw) : h.repace.showCuts.pwr.steps = h.pwr.steps := by
  rw [Hw.only_showCuts .pwr (by decide), h.repaced_repace.pwr]

/-- The limits of clusters after one more step of a class (*Class reductions*). -/
def Hw.cutLimits (h : Hw) (cls : Nat) : Tab Nat :=
  if cls = 0 then
    h.boundClusters.foldl (fun (t : Tab Nat) c =>
      if h.fld Fd.PWR_PRIO.COMPUTE_FLOOR < h.progOf c then
        t.put c (max (h.fld Fd.PWR_PRIO.COMPUTE_FLOOR) (h.progOf c - 10))
      else t) h.pwr.capLim
  else h.pwr.capLim

/-- A step of a class is counted, with its limits. -/
def Hw.stepped (h : Hw) (cls : Nat) : Hw :=
  { h with pwr := { h.pwr with steps := cls :: h.pwr.steps, capLim := h.cutLimits cls } }

/-- Beyond the step, the heat load's end, the paces and what shows them, a cut only marks the first of its kind for the log. -/
theorem Hw.cut_only (h : Hw) (cls : Nat) : (h.stepped cls).foehnStop.repace.showCuts.Only [.thm] (h.cut cls) :=
  Hw.Only.ite Hw.only_protect (Hw.Only.refl _ _)

theorem Hw.cutKept_cut (h : Hw) (cls : Nat) : h.CutKept (h.cut cls) := by
  have counted : h.CutKept (h.stepped cls) := ⟨Hw.only_pwrField.mono (by simp), rfl, .of_regs rfl⟩
  have stopped : (h.stepped cls).CutKept (h.stepped cls).foehnStop :=
    .of_only (Hw.only_foehnStop.mono (by simp)) (Hw.regsBut_foehnStop.hub.mono (by simp))
  have marked := h.cut_only cls
  exact ((counted.trans stopped).trans (Hw.cutKept_repace_showCuts _)).trans
    (.of_only (marked.mono (by simp)) (.of_regs (marked .regs (by decide))))
theorem Hw.steps_cut (h : Hw) (cls : Nat) : (h.cut cls).pwr.steps = cls :: h.pwr.steps := by
  rw [h.cut_only cls .pwr (by decide), Hw.steps_repace_showCuts, Hw.only_foehnStop .pwr (by decide)]
  rfl

/-- Undoing the newest step, where there is one, takes it off. -/
theorem Hw.uncut_eq (h : Hw) : h.uncut = h ∨ ∃ cls rest lim, h.pwr.steps = cls :: rest ∧
    h.uncut = ({ h with pwr := { h.pwr with steps := rest, capLim := lim, undoTb := h.tb } } : Hw).repace.showCuts := by
  unfold Hw.uncut
  split
  · exact .inl rfl
  · exact .inr ⟨_, _, _, ‹_›, rfl⟩

theorem Hw.cutKept_uncut (h : Hw) : h.CutKept h.uncut := by
  rcases h.uncut_eq with e | ⟨cls, rest, lim, -, e⟩
  · rw [e]
    exact (Hw.Repaced.refl h).cutKept
  · rw [e]
    have taken : h.CutKept { h with pwr := { h.pwr with steps := rest, capLim := lim, undoTb := h.tb } } :=
      ⟨Hw.only_pwrField.mono (by simp), rfl, .of_regs rfl⟩
    exact taken.trans (Hw.cutKept_repace_showCuts _)
theorem Hw.steps_uncut_le (h : Hw) : h.uncut.pwr.steps.length ≤ h.pwr.steps.length := by
  rcases h.uncut_eq with e | ⟨cls, rest, lim, steps, e⟩
  · rw [e]
  · rw [e, Hw.steps_repace_showCuts, steps]
    exact Nat.le_succ _
theorem Hw.unmet_uncut (h : Hw) : h.uncut.flag Fd.PWR_STATUS.CAP_UNMET = h.flag Fd.PWR_STATUS.CAP_UNMET := by
  rcases h.uncut_eq with e | ⟨cls, rest, lim, -, e⟩
  · rw [e]
  · rw [e, Hw.unmet_showCuts, (Hw.repaced_repace _).hub.flag (by decide) (by simp)]
    exact Hw.flag_of_regs rfl _

/-! ## The coordinator against the cap (R404) -/

section
variable {h : Hw}

/-- Above the cap with a class that can be cut: one step of the first such class. -/
theorem Hw.coordinate_cut {cls : Nat} (above : h.fld Fd.PWR_CAP.EFF_CAP_W < h.avgPower 1000)
    (e : h.cutOrder.find? h.canCut = some cls) : h.coordinate = h.cut cls := by
  rw [Hw.coordinate, if_pos above, e]

/-- Above the cap with nothing to cut: CAP_UNMET, with an event where it is new. -/
theorem Hw.coordinate_unmet (above : h.fld Fd.PWR_CAP.EFF_CAP_W < h.avgPower 1000) (e : h.cutOrder.find? h.canCut = none) :
    h.coordinate = if h.flag Fd.PWR_STATUS.CAP_UNMET then h else (h.setFlag Fd.PWR_STATUS.CAP_UNMET true).thermal 0x0A 0xFF 0 := by
  rw [Hw.coordinate, if_pos above, e]

/-- At or below the cap: CAP_UNMET is cleared, and the newest step may be undone. -/
theorem Hw.coordinate_met (met : h.avgPower 1000 ≤ h.fld Fd.PWR_CAP.EFF_CAP_W) :
    h.coordinate = h.setFlag Fd.PWR_STATUS.CAP_UNMET false ∨ h.coordinate = (h.setFlag Fd.PWR_STATUS.CAP_UNMET false).uncut := by
  rw [Hw.coordinate, if_neg (Nat.not_lt.2 met)]
  dsimp only
  split_ifs
  · exact .inr rfl
  · exact .inl rfl

theorem Hw.cutKept_setUnmet (b : Bool) : h.CutKept (h.setFlag Fd.PWR_STATUS.CAP_UNMET b) :=
  .of_only (Hw.only_setFlag.mono (by simp)) ((Hw.regsBut_setFlag (f := Fd.PWR_STATUS.CAP_UNMET)).hub.mono (by decide))

theorem Hw.cutKept_coordinate (h : Hw) : h.CutKept h.coordinate := by
  rcases lt_or_ge (h.fld Fd.PWR_CAP.EFF_CAP_W) (h.avgPower 1000) with above | met
  · cases e : h.cutOrder.find? h.canCut with
    | some cls =>
      rw [Hw.coordinate_cut above e]
      exact h.cutKept_cut cls
    | none =>
      rw [Hw.coordinate_unmet above e]
      split_ifs
      · exact (Hw.Repaced.refl h).cutKept
      · exact (Hw.cutKept_setUnmet true).trans
          (.of_only (Hw.only_thermal.mono (by simp)) (Hw.regsBut_thermal.hub.mono (by simp)))
  · rcases Hw.coordinate_met met with e | e
    · rw [e]
      exact Hw.cutKept_setUnmet false
    · rw [e]
      exact (Hw.cutKept_setUnmet false).trans (Hw.cutKept_uncut _)

theorem Hw.coordinate_met_status (met : h.avgPower 1000 ≤ h.fld Fd.PWR_CAP.EFF_CAP_W) :
    h.coordinate.flag Fd.PWR_STATUS.CAP_UNMET = false ∧ h.coordinate.pwr.steps.length ≤ h.pwr.steps.length := by
  have cleared : (h.setFlag Fd.PWR_STATUS.CAP_UNMET false).flag Fd.PWR_STATUS.CAP_UNMET = false :=
    Hw.flag_setFlag_same _ _ _ rfl (by decide)
  rcases Hw.coordinate_met met with e | e
  · rw [e]
    exact ⟨cleared, by rw [Hw.setFlag_pwr]⟩
  · rw [e]
    exact ⟨(Hw.unmet_uncut _).trans cleared, (Hw.steps_uncut_le _).trans_eq (by rw [Hw.setFlag_pwr])⟩

theorem Hw.coordinate_unmet_status (above : h.fld Fd.PWR_CAP.EFF_CAP_W < h.avgPower 1000)
    (e : h.cutOrder.find? h.canCut = none) :
    h.coordinate.pwr.steps = h.pwr.steps ∧ h.coordinate.flag Fd.PWR_STATUS.CAP_UNMET = true := by
  rw [Hw.coordinate_unmet above e]
  split_ifs with shown
  · exact ⟨rfl, shown⟩
  · constructor
    · rw [Hw.only_thermal .pwr (by decide), Hw.setFlag_pwr]
    · rw [Hw.regsBut_thermal.flag (by decide)]
      exact Hw.flag_setFlag_same _ _ _ rfl (by decide)

end

/-! ## The coordinator's tick (R404, R471) -/

/-- The internal limit is formed anew, and the effective cap with it. -/
def Hw.reformCaps (h : Hw) (mv hbm : Nat) : Hw :=
  (({ h with pwr := { h.pwr with intTb := h.tb } } : Hw).setFld Fd.PWR_BOARD.INTERNAL_W (internalLimit mv hbm)).setEff

/-- The machine as the coordinator finds it: its time noted, and every 10 ms the caps formed anew. -/
def Hw.ticked (h : Hw) (mv hbm : Nat) : Hw :=
  let g : Hw := { h with pwr := { h.pwr with coordTb := h.tb } }
  if h.pwr.intTb + 10000000 ≤ h.tb then g.reformCaps mv hbm else g

theorem Hw.only_reformCaps {h : Hw} {mv hbm : Nat} : h.Only [.regs, .pwr] (h.reformCaps mv hbm) :=
  ((Hw.only_pwrField.mono (by simp)).trans (Hw.only_setFld.mono (by simp))).trans (Hw.only_setFld.mono (by simp))
theorem Hw.pwr_reformCaps (h : Hw) (mv hbm : Nat) : (h.reformCaps mv hbm).pwr = { h.pwr with intTb := h.tb } := rfl
theorem Hw.regsBut_reformCaps {h : Hw} {mv hbm : Nat} : h.RegsBut [Reg.PWR_BOARD, Reg.PWR_CAP] (h.reformCaps mv hbm) :=
  (Hw.RegsBut.trans (k := { h with pwr := { h.pwr with intTb := h.tb } }) (.of_regs rfl)
    ((Hw.regsBut_setFld (f := Fd.PWR_BOARD.INTERNAL_W)).mono (by decide))).trans
      ((Hw.regsBut_setFld (f := Fd.PWR_CAP.EFF_CAP_W)).mono (by decide))

theorem internalLimit_le (mv hbm : Nat) : internalLimit mv hbm ≤ 4800 := min_le_left _ _

/-- R471: the internal limit as formed, and the effective cap as the lowest of the three. -/
theorem Hw.caps_reformCaps (h : Hw) (mv hbm : Nat) :
    (h.reformCaps mv hbm).fld Fd.PWR_BOARD.INTERNAL_W = internalLimit mv hbm ∧
      (h.reformCaps mv hbm).fld Fd.PWR_CAP.EFF_CAP_W = min (h.fld Fd.PWR_CAP.HOST_CAP_W)
        (min (h.fld Fd.PWR_BOARD.BOARD_CAP_W) (internalLimit mv hbm)) := by
  have fits : internalLimit mv hbm < 2 ^ Fd.PWR_BOARD.INTERNAL_W.w := Nat.lt_of_le_of_lt (internalLimit_le mv hbm) (by decide)
  have cap : min (h.fld Fd.PWR_CAP.HOST_CAP_W) (min (h.fld Fd.PWR_BOARD.BOARD_CAP_W) (internalLimit mv hbm)) <
      2 ^ Fd.PWR_CAP.EFF_CAP_W.w :=
    Nat.lt_of_le_of_lt ((min_le_right _ _).trans ((min_le_right _ _).trans (internalLimit_le mv hbm))) (by decide)
  have limit : ∀ g : Hw, (g.setFld Fd.PWR_BOARD.INTERNAL_W (internalLimit mv hbm)).fld Fd.PWR_BOARD.INTERNAL_W =
      internalLimit mv hbm := fun g => (Hw.fld_setFld_same g _ _ (by decide)).trans (Nat.mod_eq_of_lt fits)
  constructor
  · rw [Hw.reformCaps, Hw.setEff, Hw.fld_setFld_other _ _ _ _ (by decide) (by decide), limit]
  · rw [Hw.reformCaps, Hw.setEff, Hw.fld_setFld_same _ _ _ (by decide), limit,
      Hw.fld_setFld_other _ _ Fd.PWR_CAP.HOST_CAP_W _ (by decide) (by decide),
      Hw.fld_setFld_other _ _ Fd.PWR_BOARD.BOARD_CAP_W _ (by decide) (by decide)]
    exact Nat.mod_eq_of_lt cap

section
variable (h : Hw) (mv hbm : Nat)

theorem Hw.ticked_due (e : h.pwr.intTb + 10000000 ≤ h.tb) :
    h.ticked mv hbm = ({ h with pwr := { h.pwr with coordTb := h.tb } } : Hw).reformCaps mv hbm := if_pos e
theorem Hw.ticked_early (e : h.tb < h.pwr.intTb + 10000000) :
    h.ticked mv hbm = { h with pwr := { h.pwr with coordTb := h.tb } } := if_neg (Nat.not_le.2 e)

theorem Hw.only_ticked : h.Only [.regs, .pwr] (h.ticked mv hbm) :=
  Hw.Only.ite ((Hw.only_pwrField.mono (by simp)).trans Hw.only_reformCaps) (Hw.only_pwrField.mono (by simp))
theorem Hw.regsBut_ticked : h.RegsBut [Reg.PWR_BOARD, Reg.PWR_CAP] (h.ticked mv hbm) := by
  rcases lt_or_ge h.tb (h.pwr.intTb + 10000000) with e | e
  · rw [Hw.ticked_early h mv hbm e]
    exact .of_regs rfl
  · rw [Hw.ticked_due h mv hbm e]
    exact Hw.RegsBut.trans (k := { h with pwr := { h.pwr with coordTb := h.tb } }) (.of_regs rfl) Hw.regsBut_reformCaps
/-- Of the power part only two times change before the coordinator acts. -/
theorem Hw.pwr_ticked : (h.ticked mv hbm).pwr = { h.pwr with coordTb := h.tb, intTb := (h.ticked mv hbm).pwr.intTb } := by
  rcases lt_or_ge h.tb (h.pwr.intTb + 10000000) with e | e
  · rw [Hw.ticked_early h mv hbm e]
  · rw [Hw.ticked_due h mv hbm e, Hw.pwr_reformCaps]

theorem Hw.steps_ticked : (h.ticked mv hbm).pwr.steps = h.pwr.steps := by rw [Hw.pwr_ticked]

/-- What the coordinator weighs is as it was before the tick. -/
theorem Hw.canCut_ticked : (h.ticked mv hbm).canCut = h.canCut := by
  have only := h.only_ticked mv hbm
  have thm : (h.ticked mv hbm).thm = h.thm := only .thm (by decide)
  have bound : (h.ticked mv hbm).boundClusters = h.boundClusters := by
    have plu : (h.ticked mv hbm).plu = h.plu := only .plu (by decide)
    have ctxs : (h.ticked mv hbm).ctxs = h.ctxs := only .ctxs (by decide)
    simp only [Hw.boundClusters, Hw.liveClusters, Hw.holder, plu, ctxs]
  have paces : (h.ticked mv hbm).progOf = h.progOf := funext (Hw.progOf_of_prog (by rw [Hw.pwr_ticked]))
  have floor : (h.ticked mv hbm).fld Fd.PWR_PRIO.COMPUTE_FLOOR = h.fld Fd.PWR_PRIO.COMPUTE_FLOOR :=
    (h.regsBut_ticked mv hbm).fld (by decide)
  funext cls
  rw [Hw.canCut, Hw.canCut, thm, bound, paces, floor, Hw.steps_ticked]
theorem Hw.cutOrder_ticked : (h.ticked mv hbm).cutOrder = h.cutOrder := by
  have but := h.regsBut_ticked mv hbm
  rw [Hw.cutOrder, Hw.cutOrder, but.fld (g := Fd.PWR_PRIO.FIRST) (by decide), but.fld (g := Fd.PWR_PRIO.SECOND) (by decide),
    but.fld (g := Fd.PWR_PRIO.THIRD) (by decide)]
theorem Hw.avgPower_ticked (n : Nat) : (h.ticked mv hbm).avgPower n = h.avgPower n :=
  Hw.avgPower_of_samples (by rw [Hw.pwr_ticked]) n

end

theorem exec_coordinatorTick {s : State} {mv hbm : BitVec 16} (held : s.hw.flag Fd.CPX_AUTH.HELD = true)
    (due : s.hw.pwr.coordTb + 1000000 ≤ s.hw.tb) :
    exec (.coordinatorTick mv hbm) s = .next { s with hw := (s.hw.ticked mv.toNat hbm.toNat).coordinate } := by
  refine keep_next (if_neg ?_)
  rw [Hw.held, held]
  simpa using due

/-- A due tick: the caps every 10 ms, and one action against the effective cap. -/
theorem coordinatorTick_completes {s : State} {mv hbm : BitVec 16} (held : s.hw.flag Fd.CPX_AUTH.HELD = true)
    (due : s.hw.pwr.coordTb + 1000000 ≤ s.hw.tb) :
    ∃ t, exec (.coordinatorTick mv hbm) s = .next t ∧ Frame [.regs, .ctxs, .clus, .pwr, .thm, .host, .logs, .out] s t ∧
      t.hw.pwr.coordTb = s.hw.tb ∧
      (s.hw.pwr.intTb + 10000000 ≤ s.hw.tb →
        t.hw.fld Fd.PWR_BOARD.INTERNAL_W = min 4800 (min 4000 (84 * mv.toNat / 1000) + hbm.toNat) ∧
        t.hw.fld Fd.PWR_CAP.EFF_CAP_W = min (s.hw.fld Fd.PWR_CAP.HOST_CAP_W)
          (min (s.hw.fld Fd.PWR_BOARD.BOARD_CAP_W) (t.hw.fld Fd.PWR_BOARD.INTERNAL_W))) ∧
      (s.hw.tb < s.hw.pwr.intTb + 10000000 → t.hw.reg Reg.PWR_BOARD = s.hw.reg Reg.PWR_BOARD ∧
        t.hw.reg Reg.PWR_CAP = s.hw.reg Reg.PWR_CAP) ∧
      (s.hw.avgPower 1000 ≤ t.hw.fld Fd.PWR_CAP.EFF_CAP_W → t.hw.flag Fd.PWR_STATUS.CAP_UNMET = false ∧
        t.hw.pwr.steps.length ≤ s.hw.pwr.steps.length) ∧
      (∀ cls, t.hw.fld Fd.PWR_CAP.EFF_CAP_W < s.hw.avgPower 1000 → s.hw.cutOrder.find? s.hw.canCut = some cls →
        t.hw.pwr.steps = cls :: s.hw.pwr.steps) ∧
      (t.hw.fld Fd.PWR_CAP.EFF_CAP_W < s.hw.avgPower 1000 → s.hw.cutOrder.find? s.hw.canCut = none →
        t.hw.pwr.steps = s.hw.pwr.steps ∧ t.hw.flag Fd.PWR_STATUS.CAP_UNMET = true) := by
  have kept := (s.hw.ticked mv.toNat hbm.toNat).cutKept_coordinate
  have limit := kept.hub.fld (g := Fd.PWR_BOARD.INTERNAL_W) (by decide) (by decide)
  have cap := kept.hub.fld (g := Fd.PWR_CAP.EFF_CAP_W) (by decide) (by decide)
  have avg := s.hw.avgPower_ticked mv.toNat hbm.toNat 1000
  have steps := s.hw.steps_ticked mv.toNat hbm.toNat
  have order : ∀ o, s.hw.cutOrder.find? s.hw.canCut = o →
      (s.hw.ticked mv.toNat hbm.toNat).cutOrder.find? (s.hw.ticked mv.toNat hbm.toNat).canCut = o := fun o e => by
    rw [Hw.cutOrder_ticked, Hw.canCut_ticked, e]
  refine ⟨_, exec_coordinatorTick held due, Frame.keep (((s.hw.only_ticked _ _).mono (by simp)).trans kept.only), ?_, fun e => ?_,
    fun e => ?_, fun met => ?_, fun cls above e => ?_, fun above e => ?_⟩
  · rw [kept.coordTb, Hw.pwr_ticked]
  · obtain ⟨formed, lowest⟩ := Hw.caps_reformCaps { s.hw with pwr := { s.hw.pwr with coordTb := s.hw.tb } } mv.toNat hbm.toNat
    rw [← Hw.ticked_due _ _ _ e] at formed lowest
    rw [limit, cap, formed, lowest]
    exact ⟨rfl, rfl⟩
  · rw [kept.hub _ (by decide) (by decide), kept.hub _ (by decide) (by decide), Hw.ticked_early _ _ _ e]
    exact ⟨rfl, rfl⟩
  · rw [cap, ← avg] at met
    rw [← steps]
    exact Hw.coordinate_met_status met
  · rw [cap, ← avg] at above
    rw [Hw.coordinate_cut above (order _ e), Hw.steps_cut, steps]
  · rw [cap, ← avg] at above
    rw [← steps]
    exact Hw.coordinate_unmet_status above (order _ e)

/-! ## The canary (R27) -/

/-- The natural speed that the canary reads stands in its cluster's register, with the time of the reading. -/
def Hw.canaryShown (h : Hw) (c v : Nat) : Hw :=
  (h.modClus c (fun x => { x with canaryTb := h.tb })).setFld (Fd.PWR_CL_PACE.NATURAL_MSTEPS c) (min 2047 v)

theorem Hw.only_canaryShown {h : Hw} {c v : Nat} : h.Only [.regs, .clus] (h.canaryShown c v) :=
  (Hw.only_modClus.mono (by simp)).trans (Hw.only_setFld.mono (by simp))
theorem Hw.regsBut_canaryShown {h : Hw} {c v : Nat} : h.RegsBut [Reg.PWR_CL_PACE c] (h.canaryShown c v) :=
  Hw.RegsBut.trans (k := h.modClus c (fun x => { x with canaryTb := h.tb })) (.of_regs rfl)
    (Hw.regsBut_setFld (f := Fd.PWR_CL_PACE.NATURAL_MSTEPS c))
theorem Hw.natural_canaryShown (h : Hw) (c v : Nat) :
    (h.canaryShown c v).fld (Fd.PWR_CL_PACE.NATURAL_MSTEPS c) = min 2047 v :=
  (Hw.fld_setFld_same _ (Fd.PWR_CL_PACE.NATURAL_MSTEPS c) _ (by decide : 0 + 11 ≤ 32)).trans
    (Nat.mod_eq_of_lt (Nat.lt_of_le_of_lt (min_le_left _ _) (by decide : 2047 < 2 ^ 11)))

/-- The three fields of PWR_CL_PACE of a cluster that issues steps. -/
theorem Hw.showIssue_fields (h : Hw) (c : Nat) :
    (h.showIssue c).fld (Fd.PWR_CL_PACE.NATURAL_MSTEPS c) = h.fld (Fd.PWR_CL_PACE.NATURAL_MSTEPS c) ∧
      (h.showIssue c).fld (Fd.PWR_CL_PACE.ISSUED_MSTEPS c) =
        min (h.progOf c) (h.fld (Fd.PWR_CL_PACE.NATURAL_MSTEPS c)) % 2 ^ 11 ∧
      (h.showIssue c).flag (Fd.PWR_CL_PACE.NAT_LIMITED c) = decide (h.fld (Fd.PWR_CL_PACE.NATURAL_MSTEPS c) < h.progOf c) := by
  have limited : (Fd.PWR_CL_PACE.NAT_LIMITED c).lo + (Fd.PWR_CL_PACE.NAT_LIMITED c).w ≤ 32 := (by decide : 31 + 1 ≤ 32)
  have issued : (Fd.PWR_CL_PACE.ISSUED_MSTEPS c).lo + (Fd.PWR_CL_PACE.ISSUED_MSTEPS c).w ≤ 32 := (by decide : 16 + 11 ≤ 32)
  refine ⟨?_, ?_, Hw.flag_setFlag_same _ _ _ rfl (by decide : 31 < 32)⟩
  · rw [Hw.showIssue, Hw.setIssued, Hw.fld_setFlag_other _ _ _ _ limited (.inr (.inl (by decide : 0 + 11 ≤ 31))),
      Hw.fld_setFld_other _ _ _ _ issued (.inr (.inl (by decide : 0 + 11 ≤ 16)))]
    exact Hw.fld_of_regs rfl _
  · rw [Hw.showIssue, Hw.setIssued, Hw.fld_setFlag_other _ _ _ _ limited (.inr (.inl (by decide : 16 + 11 ≤ 31))),
      Hw.fld_setFld_same _ _ _ issued]
    rfl

theorem exec_canaryRead {s : State} {c : Fin 64} {v : BitVec 16} (live : c.val / 8 ∈ s.hw.plu.diesUp)
    (due : (s.hw.clusOf c.val).canaryTb + 1000 ≤ s.hw.tb) :
    exec (.canaryRead c v) s = .next { s with hw := (s.hw.canaryShown c.val v.toNat).reissue c.val } :=
  keep_next (if_neg (by simp [live, due]))

theorem canaryRead_completes {s : State} {c : Fin 64} {v : BitVec 16} (live : c.val / 8 ∈ s.hw.plu.diesUp)
    (due : (s.hw.clusOf c.val).canaryTb + 1000 ≤ s.hw.tb) :
    ∃ t, exec (.canaryRead c v) s = .next t ∧ Frame [.regs, .ctxs, .clus] s t ∧ s.hw.RegsBut [Reg.PWR_CL_PACE c.val] t.hw ∧
      t.hw.fld (Fd.PWR_CL_PACE.NATURAL_MSTEPS c.val) = min 2047 v.toNat ∧
      t.hw.fld (Fd.PWR_CL_PACE.ISSUED_MSTEPS c.val) = min (s.hw.progOf c.val) (min 2047 v.toNat) % 2 ^ 11 ∧
      t.hw.flag (Fd.PWR_CL_PACE.NAT_LIMITED c.val) = decide (min 2047 v.toNat < s.hw.progOf c.val) := by
  have shown : s.hw.Only [.regs, .clus] (s.hw.canaryShown c.val v.toNat) := Hw.only_canaryShown
  have regs := Hw.reissue_live (h := s.hw.canaryShown c.val v.toNat) (c := c.val) (by rw [shown .plu (by decide)]; exact live)
    .regs (by decide)
  have prog := Hw.progOf_of_prog (congrArg PwrSt.prog (shown .pwr (by decide))) c.val
  obtain ⟨natural, issued, limited⟩ := (s.hw.canaryShown c.val v.toNat).showIssue_fields c.val
  rw [Hw.natural_canaryShown] at natural issued limited
  rw [prog] at issued limited
  refine ⟨_, exec_canaryRead live due, Frame.keep ((shown.mono (by simp)).trans Hw.only_reissue),
    Hw.regsBut_canaryShown.trans Hw.regsBut_reissue, ?_, ?_, ?_⟩
  · exact (Hw.fld_of_regs regs _).trans natural
  · exact (Hw.fld_of_regs regs _).trans issued
  · exact (Hw.flag_of_regs regs _).trans limited

/-! ## Droop (R26) -/

/-- An island's clock is stretched, and the stretch is counted. -/
def Hw.stretched (h : Hw) (i : Nat) : Hw :=
  ({ h with board := { h.board with droop := insNat h.board.droop i } } : Hw).satFld Fd.PWR_DROOP.STRETCH_CNT 1

theorem Hw.only_stretched {h : Hw} {i : Nat} : h.Only [.regs, .board] (h.stretched i) :=
  (Hw.only_boardField.mono (by simp)).trans (Hw.only_satFld.mono (by simp))
theorem Hw.regsBut_stretched {h : Hw} {i : Nat} : h.RegsBut [Reg.PWR_DROOP] (h.stretched i) :=
  Hw.RegsBut.trans (k := { h with board := { h.board with droop := insNat h.board.droop i } }) (.of_regs rfl)
    (Hw.regsBut_satFld (f := Fd.PWR_DROOP.STRETCH_CNT))
theorem Hw.droop_stretched (h : Hw) (i : Nat) : (h.stretched i).board.droop = insNat h.board.droop i := by
  rw [Hw.stretched, Hw.satFld_board]
theorem Hw.count_stretched (h : Hw) (i : Nat) : (h.stretched i).fld Fd.PWR_DROOP.STRETCH_CNT =
    min (h.fld Fd.PWR_DROOP.STRETCH_CNT + 1) (2 ^ Fd.PWR_DROOP.STRETCH_CNT.w - 1) := by
  rw [Hw.stretched, Hw.fld_satFld_same _ _ _ (by decide)]
  exact congrArg (fun n => min (n + 1) (2 ^ Fd.PWR_DROOP.STRETCH_CNT.w - 1)) (Hw.fld_of_regs rfl _)

theorem exec_droopDetect {s : State} {i : BitVec 8} (v : s.hw.flag Fd.PKG_BOARD_STATUS.AUX_PWROK = true)
    (fresh : i.toNat ∉ s.hw.board.droop) :
    exec (.droopDetect i) s = .next { s with hw := s.hw.stretched i.toNat } :=
  keep_next (if_neg (by simp [v, fresh]))

/-- Settles O27: each command by its lemma above. -/
theorem powerSamplesAndCoordinator : Obligations.PowerSamplesAndCoordinator := by
  intro s _
  refine ⟨fun w v due => powerSample_completes v due, fun w early => exec_powerSample_early early,
    fun mv hbm held due => coordinatorTick_completes held due, fun c v live due => canaryRead_completes live due,
    fun i v fresh => ?_, fun i => ?_⟩
  · refine ⟨_, exec_droopDetect v fresh, Frame.keep Hw.only_stretched, Hw.regsBut_stretched, ?_, Hw.count_stretched _ _⟩
    rw [Hw.droop_stretched]
    exact (mem_insNat _ _).2 (.inl rfl)
  · refine ⟨_, keep_next rfl, Frame.keep Hw.only_boardField, fun j => ?_⟩
    simp [droopEndHw]

end Sys2Proof.Machine
end

section
/-!
PROOFS. What memory holds after rows of bytes are stored in it (R98, R105).
-/
namespace Sys2Proof.Machine

/-! ## Rows stored in order -/

/-- Changes that store these rows one after another. The first row is combined with what memory `m` holds, a later one with what some
memory held. -/
inductive StoresRows : Mem → List (Place × List Byte) → List Edit → Prop where
  | nil (m : Mem) : StoresRows m [] []
  | cons (m : Mem) {n : Mem} (p : Place) (bs : List Byte) {rs : List (Place × List Byte)} {es : List Edit} (h : StoresRows n rs es) :
      StoresRows m ((p, bs) :: rs) (rowEdits m p bs ++ es)

theorem storesRows_storeRows (m : Mem) (rs : List (Place × List Byte)) : StoresRows m rs (storeRows m rs) := by
  induction rs generalizing m with
  | nil => exact .nil m
  | cons r rs ih => exact .cons m r.1 r.2 (ih _)

theorem storesRows_rowEdits (m : Mem) (p : Place) (bs : List Byte) : StoresRows m [(p, bs)] (rowEdits m p bs) := by
  simpa using StoresRows.cons m p bs (.nil m)

/-- Rows stored after no row at all are combined with the same memory. -/
theorem StoresRows.append {m n : Mem} {rs qs : List (Place × List Byte)} {es fs : List Edit} (a : StoresRows n rs es)
    (b : StoresRows m qs fs) (e : rs = [] → n = m) : StoresRows n (rs ++ qs) (es ++ fs) := by
  induction a with
  | nil n => exact e rfl ▸ b
  | @cons n k p bs rs es a ih =>
    rw [List.cons_append, List.append_assoc]
    cases rs with
    | nil =>
      cases a
      exact .cons n p bs b
    | cons r rs => exact .cons n p bs (ih (fun h => absurd h (by simp)))

theorem StoresRows.eq_rowEdits {m : Mem} {p : Place} {bs : List Byte} {es : List Edit} (a : StoresRows m [(p, bs)] es) :
    es = rowEdits m p bs := by
  cases a with
  | cons _ _ _ a =>
    cases a
    rw [List.append_nil]

/-! ## The bytes that no row touches -/

theorem spares_storeEdits {a q : Nat} {bs : List Byte} (h : ¬ (a ≤ q ∧ q < a + bs.length)) :
    ∀ e ∈ storeEdits a bs, e.spares q := by
  intro e he
  simp only [storeEdits, List.mem_append, List.mem_map, List.mem_filterMap] at he
  rcases he with ⟨⟨b, i⟩, hi, rfl⟩ | ⟨i, -, hi⟩
  · have := (List.mem_zipIdx hi).2.1
    simp only [Edit.spares]
    omega
  · split_ifs at hi
    cases hi
    trivial

theorem spares_segEdits {q : Nat} (segs : List (Nat × Nat)) (bs : List Byte) (h : ∀ r ∈ segs, ¬ (r.1 ≤ q ∧ q < r.1 + r.2)) :
    ∀ e ∈ segEdits segs bs, e.spares q := by
  induction segs generalizing bs with
  | nil => simp [segEdits]
  | cons r segs ih =>
    intro e he
    rcases List.mem_append.1 he with he | he
    · refine spares_storeEdits (fun hq => h r (by simp) ⟨hq.1, ?_⟩) e he
      have := List.length_take_le r.2 bs
      omega
    · exact ih _ (fun s hs => h s (by simp [hs])) e he

theorem StoresRows.spares {m : Mem} {q : Nat} {rs : List (Place × List Byte)} {es : List Edit} (a : StoresRows m rs es)
    (h : ∀ r ∈ rs.flatMap (fun x => x.1.segs), ¬ (r.1 ≤ q ∧ q < r.1 + r.2)) : ∀ e ∈ es, e.spares q := by
  induction a with
  | nil => simp
  | cons m p bs a ih =>
    intro e he
    rcases List.mem_append.1 he with he | he
    · exact spares_segEdits p.segs _ (fun r hr => h r (by simp [hr])) e he
    · exact ih (fun r hr => h r (by simp only [List.flatMap_cons, List.mem_append]; exact .inr hr)) e he

/-! ## What a row reads as after it is stored -/

theorem reads_edit_spared {m : Mem} {es : List Edit} {a k : Nat} (h : ∀ i < k, ∀ e ∈ es, e.spares (a + i)) :
    (m.edit es).reads a k = m.reads a k := Mem.reads_congr (fun i hi => Mem.read_edit_spared m es _ (h i hi))

theorem aliasBytes_length {win : Nat} {old new : List Byte} (h : old.length = new.length) :
    (aliasBytes win old new).length = new.length := by
  unfold aliasBytes
  split <;> simp [h]

/-- A row that lies in one piece of memory is stored as its window combines it with what was there. -/
theorem rowEdits_onePiece {m : Mem} {p : Place} {bs : List Byte} {a : Nat} (h : p.segs = [(a, bs.length)]) :
    rowEdits m p bs = storeEdits a (aliasBytes p.win (m.reads a bs.length) bs) := by
  have hl : (aliasBytes p.win (m.reads a bs.length) bs).length = bs.length := aliasBytes_length (by simp [Mem.reads])
  simp [rowEdits, Mem.row, h, segEdits, List.take_of_length_le hl.le]

theorem reads_rowEdits {m n : Mem} {p : Place} {bs : List Byte} {a : Nat} (h : p.segs = [(a, bs.length)]) :
    (n.edit (rowEdits m p bs)).reads a bs.length = aliasBytes p.win (m.reads a bs.length) bs := by
  have hl : (aliasBytes p.win (m.reads a bs.length) bs).length = bs.length := aliasBytes_length (by simp [Mem.reads])
  rw [rowEdits_onePiece h]
  have := Mem.reads_store_same n a (aliasBytes p.win (m.reads a bs.length) bs)
  rwa [hl] at this

/-- A row of a plain window that no later row overlaps reads as it was stored. -/
theorem StoresRows.reads {m : Mem} {rs : List (Place × List Byte)} {es : List Edit} (s : StoresRows m rs es) {n : Mem} {i a : Nat}
    {p : Place} {bs : List Byte} (hi : rs[i]? = some (p, bs)) (hw : p.win = 0) (hs : p.segs = [(a, bs.length)])
    (later : ∀ (j : Nat) (q : Place × List Byte), i < j → rs[j]? = some q →
      ∀ b ∈ q.1.segs, a + bs.length ≤ b.1 ∨ b.1 + b.2 ≤ a) : (n.edit es).reads a bs.length = bs := by
  induction s generalizing n i with
  | nil => simp at hi
  | @cons m k p' bs' rs es s ih =>
    rw [Mem.edit_append]
    cases i with
    | succ i => exact ih hi (fun j q hj hq => later (j + 1) q (by omega) hq)
    | zero =>
      obtain ⟨rfl, rfl⟩ : p' = p ∧ bs' = bs := by simpa using hi
      rw [reads_edit_spared, reads_rowEdits hs, hw]
      · rfl
      · refine fun o ho => s.spares (fun r hr => ?_)
        obtain ⟨q, hq, hr⟩ := List.mem_flatMap.1 hr
        obtain ⟨j, hj⟩ := List.getElem?_of_mem hq
        have := later (j + 1) q (by omega) hj r hr
        omega

/-- What is stored, seen from a memory that reads the same as the one it is stored in. -/
theorem StoresRows.stored {m k : Mem} {rs : List (Place × List Byte)} {es : List Edit} (s : StoresRows m rs es)
    (same : ∀ q, m.read q = k.read q) : Stored k (m.edit es) rs := by
  refine ⟨fun q hq => ?_, fun i p bs a hi hw hs later => s.reads hi hw hs later, fun p bs a hr hs => ?_⟩
  · rw [Mem.read_edit_spared m es q (s.spares hq), same]
  · subst hr
    rw [s.eq_rowEdits, reads_rowEdits hs, Mem.reads_congr (fun i _ => same (a + i))]

/-! ## What a command's reads find -/

theorem Mem.edit_seenEdits (m : Mem) (sn : Seen) : m.edit (seenEdits sn) = m.seen sn := by
  unfold Mem.seen seenEdits
  induction sn.ue generalizing m with
  | nil => rfl
  | cons a l ih =>
    rw [List.map_cons, Mem.edit_cons, ih]
    rfl

@[simp] theorem Mem.read_seen (m : Mem) (sn : Seen) (q : Nat) : (m.seen sn).read q = m.read q := rfl

end Sys2Proof.Machine
end

section
/-!
PROOFS. What reading and writing operands leaves alone (R92, R100, R119–R124, R130–R136, R421–R423).
-/
namespace Sys2Proof.Machine

/-! ## Accesses -/

/-- A register of an engine: on a die, at 0x1000–0x1FFF of a core. -/
def EngineReg (a : Nat) : Prop := 0x10000000 ≤ a ∧ a < 0x30000000 ∧ 0x1000 ≤ a % 0x10000 ∧ a % 0x10000 < 0x2000

/-- The parts of the hardware that accesses to operands count and record in. -/
def accessParts : List Part := [.regs, .hbm, .xcl, .host, .ccl, .logs, .hist, .out]

/-- `k` is `h` after accesses: no other part has changed, and no register of an engine. -/
structure Hw.Accessed (h k : Hw) : Prop where
  only : h.Only accessParts k
  engines : ∀ a, EngineReg a → k.reg a = h.reg a

theorem Hw.Accessed.refl (h : Hw) : h.Accessed h := ⟨Hw.Only.refl _ _, fun _ _ => rfl⟩
theorem Hw.Accessed.trans {h k m : Hw} (a : h.Accessed k) (b : k.Accessed m) : h.Accessed m :=
  ⟨a.only.trans b.only, fun q hq => (b.engines q hq).trans (a.engines q hq)⟩
theorem Hw.Accessed.ite {h k m : Hw} {c : Prop} [Decidable c] (a : h.Accessed k) (b : h.Accessed m) :
    h.Accessed (if c then k else m) := by split <;> assumption
theorem Hw.Accessed.foldl {α : Type} (f : Hw → α → Hw) (l : List α) (h : Hw) (e : ∀ (k : Hw) (x : α), k.Accessed (f k x)) :
    h.Accessed (l.foldl f h) := by
  induction l generalizing h with
  | nil => exact .refl h
  | cons x l ih => exact (e h x).trans (ih _)
/-- A change of parts other than the registers. -/
theorem Hw.Accessed.of_only {ps : List Part} {h k : Hw} (a : h.Only ps k) (sub : ∀ p ∈ ps, p ∈ accessParts) (e : Part.regs ∉ ps) :
    h.Accessed k := ⟨a.mono sub, fun q _ => a.reg e q⟩
/-- A change of listed registers, none of them an engine's. -/
theorem Hw.Accessed.of_regsBut {ps : List Part} {l : List Nat} {h k : Hw} (a : h.Only ps k) (sub : ∀ p ∈ ps, p ∈ accessParts)
    (b : h.RegsBut l k) (e : ∀ q ∈ l, ¬ EngineReg q) : h.Accessed k := ⟨a.mono sub, fun q hq => b q (fun hl => e q hl hq)⟩
theorem Hw.Accessed.setReg {h : Hw} {a : Nat} {v : W32} (e : ¬ EngineReg a) : h.Accessed (h.setReg a v) :=
  .of_regsBut Hw.only_setReg (by decide) Hw.regsBut_setReg (by simpa using e)
theorem Hw.Accessed.setFld {h : Hw} {f : Fld} {v : Nat} (e : ¬ EngineReg f.addr) : h.Accessed (h.setFld f v) := .setReg e
theorem Hw.Accessed.setFlag {h : Hw} {f : Fld} {b : Bool} (e : ¬ EngineReg f.addr) : h.Accessed (h.setFlag f b) := .setReg e
theorem Hw.Accessed.satFld {h : Hw} {f : Fld} {n : Nat} (e : ¬ EngineReg f.addr) : h.Accessed (h.satFld f n) := .setReg e

/-! ## Registers that are no engine's -/

theorem coreBase_mod (k : Nat) : coreBase k % 0x10000 = 0 := by unfold coreBase clusBase dieBase; omega
theorem clusBase_mod (c : Nat) : clusBase c % 0x10000 = 0 := by unfold clusBase dieBase; omega
theorem le_hbmBase (s : Nat) : 0x30000000 ≤ hbmBase s := by unfold hbmBase; omega

theorem not_engineReg_hub {a : Nat} (h : a < 0x10000000) : ¬ EngineReg a := fun e => absurd e.1 (Nat.not_le.2 h)
theorem not_engineReg_core {k o : Nat} (h : o < 0x1000 ∨ 0x2000 ≤ o ∧ o < 0x10000) : ¬ EngineReg (coreBase k + o) := by
  have := coreBase_mod k
  unfold EngineReg
  omega
theorem not_engineReg_clus {c o : Nat} (h : o < 0x1000 ∨ 0x2000 ≤ o ∧ o < 0x10000) : ¬ EngineReg (clusBase c + o) := by
  have := clusBase_mod c
  unfold EngineReg
  omega
theorem not_engineReg_hbm {s o : Nat} : ¬ EngineReg (hbmBase s + o) := by
  have := le_hbmBase s
  unfold EngineReg
  omega
theorem engineReg_core {k o : Nat} (hk : k < 576) (h1 : 0x1000 ≤ o) (h2 : o < 0x2000) : EngineReg (coreBase k + o) := by
  have := coreBase_mod k
  have : coreBase k < 0x20000000 ∧ 0x10000000 ≤ coreBase k := by unfold coreBase clusBase dieBase; omega
  unfold EngineReg
  omega

/-! ## The fault history and the counters -/

theorem Hw.regsBut_history {h : Hw} {u e s d j a : Nat} {c m : Bool} :
    h.RegsBut [Reg.PKG_FH_STATUS, Reg.CTR_LOG_STATUS] (h.history u e s d j a c m) := by
  unfold Hw.history
  dsimp only
  refine Hw.RegsBut.trans ?_ (Hw.regsBut_log.mono (by simp))
  refine Hw.RegsBut.trans ?_ ((Hw.regsBut_setFld (f := Fd.PKG_FH_STATUS.ENTRIES)).mono (by decide))
  split
  · exact (Hw.RegsBut.of_regs rfl).trans ((Hw.regsBut_setFlag (f := Fd.PKG_FH_STATUS.OVERFLOW)).mono (by decide))
  · exact Hw.RegsBut.of_regs rfl

theorem Hw.accessed_history {h : Hw} {u e s d j a : Nat} {c m : Bool} : h.Accessed (h.history u e s d j a c m) :=
  .of_regsBut Hw.only_history (by decide) Hw.regsBut_history (by
    simp only [List.forall_mem_cons, List.not_mem_nil, false_implies, implies_true, and_true]
    exact ⟨not_engineReg_hub (by decide), not_engineReg_hub (by decide)⟩)

/-- The registers of a bank of counters are no engine's. -/
def QuietBank (b size : Nat) : Prop := ∀ o ≤ 0x10 * size + 8, ¬ EngineReg (b + o)

theorem Hw.accessed_setCtr {h : Hw} {b size n v : Nat} (q : QuietBank b size) (hn : n ≤ size) : h.Accessed (h.setCtr b n v) := by
  refine Hw.Accessed.trans (k := h.setFld (Fd.CTR_VAL_LO.VAL_LO b n) v) (.setFld ?_) (.setFld ?_)
  · exact (by rw [Nat.add_assoc]; exact q _ (by omega) : ¬ EngineReg (b + 0x10 * n + 4))
  · exact (by rw [Nat.add_assoc]; exact q _ (by omega) : ¬ EngineReg (b + 0x10 * n + 8))

theorem Hw.accessed_bump {h : Hw} {b size n k : Nat} (q : QuietBank b size) (hn : n < size) : h.Accessed (h.bump b n k) := by
  unfold Hw.bump
  dsimp only
  split
  · exact (Hw.accessed_setCtr q hn.le).trans (Hw.accessed_setCtr q hn)
  · exact Hw.accessed_setCtr q hn.le

theorem Hw.accessed_count {h : Hw} {b size : Nat} {f : Bool} {e : Ev} {k : Nat} (q : QuietBank b size) :
    h.Accessed (h.count b size f e k) := by
  have all : ∀ (l : List Nat) (h : Hw), (∀ n ∈ l, n < size) → h.Accessed (l.foldl (fun h n =>
      if h.flag (Fd.CTR_CFG.EN b n) && h.fld (Fd.CTR_CFG.EVENT b n) == e.code && !h.ctrChained b n &&
        (!f || h.passes b n e) then h.bump b n k else h) h) := by
    intro l
    induction l with
    | nil => exact fun h _ => .refl h
    | cons n l ih =>
      exact fun h hl => (Hw.Accessed.ite (Hw.accessed_bump q (hl n (by simp))) (.refl h)).trans
        (ih _ (fun m hm => hl m (by simp [hm])))
  exact all _ h (fun n hn => List.mem_range.1 hn)

theorem quietBank_core (k : Nat) : QuietBank (bankCore k) 16 := fun o ho => by
  rw [bankCore, Nat.add_assoc]
  exact not_engineReg_core (by omega)
theorem quietBank_clus (c : Nat) : QuietBank (bankClus c) 32 := fun o ho => by
  rw [bankClus, Nat.add_assoc]
  exact not_engineReg_clus (by omega)
theorem quietBank_hbm (s : Nat) : QuietBank (bankHbm s) 64 := fun o _ => by
  rw [bankHbm, Nat.add_assoc]
  exact not_engineReg_hbm

theorem Hw.accessed_countCore {h : Hw} {k n : Nat} {e : Ev} : h.Accessed (h.countCore k e n) := Hw.accessed_count (quietBank_core k)
theorem Hw.accessed_countClus {h : Hw} {c n : Nat} {e : Ev} : h.Accessed (h.countClus c e n) := Hw.accessed_count (quietBank_clus c)
theorem Hw.accessed_sectors {h : Hw} {s n : Nat} {w : Bool} : h.Accessed (h.sectors s w n) :=
  (Hw.accessed_count (quietBank_hbm s)).trans (.of_only Hw.only_moved (by decide) (by decide))

/-! ## Uncorrectable and corrected pieces (R100, R119–R124) -/

theorem Hw.only_hbmField {h : Hw} {x : Tab HbmSt} : h.Only [.hbm] { h with hbm := x } := fun q hq => by
  cases q
  case hbm => simp at hq
  all_goals rfl
theorem Hw.only_xclField {h : Hw} {x : Tab XCache} : h.Only [.xcl] { h with xcl := x } := fun q hq => by
  cases q
  case xcl => simp at hq
  all_goals rfl
theorem Hw.accessed_hbmField {h : Hw} {x : Tab HbmSt} : h.Accessed { h with hbm := x } :=
  .of_only Hw.only_hbmField (by decide) (by decide)
theorem Hw.accessed_xclField {h : Hw} {x : Tab XCache} : h.Accessed { h with xcl := x } :=
  .of_only Hw.only_xclField (by decide) (by decide)

/-- A page of a stack is retired: its list, PAGES_RETIRED and the entry of the fault history (R124). -/
def Hw.retirePage (h : Hw) (s pfn pma : Nat) : Hw :=
  let k : Hw := { h with hbm := h.hbm.upd s {} (fun x => { x with retired := insNat x.retired pfn }) }
  (k.setFld (Fd.HBM_STATUS.PAGES_RETIRED s) (k.hbmOf s).retired.length).history (punitHbm pma) 10 0 0 0 pma false false

/-- An uncorrectable sector is counted, its address kept if it is the first, and recorded in the fault history (R121). -/
def Hw.recordUe (h : Hw) (pma detail job : Nat) : Hw :=
  let s := bitsAt pma 37 4
  let k := h.satFld (Fd.HBM_ECC.UE_CNT s) 1
  (if k.flag (Fd.HBM_UE_ADDR_HI.VALID s) then k
    else ((k.setFld (Fd.HBM_UE_ADDR_LO.PMA_LO s) (pma / 32)).setFld (Fd.HBM_UE_ADDR_HI.PMA_HI s) (pma / 2 ^ 32)).setFlag
      (Fd.HBM_UE_ADDR_HI.VALID s) true).history (punitHbm pma) 9 0 detail job pma true false

theorem Hw.hbmUe_eq (h : Hw) (pma detail job : Nat) : h.hbmUe pma detail job =
    if ((h.recordUe pma detail job).hbmOf (bitsAt pma 37 4)).retired.contains (pma / pageBytes) then h.recordUe pma detail job
    else (h.recordUe pma detail job).retirePage (bitsAt pma 37 4) (pma / pageBytes) pma := rfl

theorem Hw.accessed_retirePage {h : Hw} {s pfn pma : Nat} : h.Accessed (h.retirePage s pfn pma) :=
  (Hw.accessed_hbmField.trans (.setFld not_engineReg_hbm)).trans Hw.accessed_history
theorem Hw.accessed_recordUe {h : Hw} {pma detail job : Nat} : h.Accessed (h.recordUe pma detail job) :=
  ((Hw.Accessed.satFld not_engineReg_hbm).trans (.ite (.refl _) (((Hw.Accessed.setFld not_engineReg_hbm).trans
    (.setFld not_engineReg_hbm)).trans (.setFlag not_engineReg_hbm)))).trans Hw.accessed_history
theorem Hw.accessed_hbmUe {h : Hw} {pma d j : Nat} : h.Accessed (h.hbmUe pma d j) := by
  rw [Hw.hbmUe_eq]
  exact .ite Hw.accessed_recordUe (Hw.accessed_recordUe.trans Hw.accessed_retirePage)

/-- A corrected sector joins those of its stack within the last 24 hours (R119). -/
def Hw.recordCe (h : Hw) (pma : Nat) : Hw :=
  let s := bitsAt pma 37 4
  let k := h.satFld (Fd.HBM_ECC.CE_CNT s) 1
  { k with hbm := k.hbm.put s { k.hbmOf s with
      corrected := (pma / pageBytes, k.tb) :: (k.hbmOf s).corrected.filter (fun (_, t) => decide (k.tb - t < 86400000000000)) } }

theorem Hw.accessed_recordCe {h : Hw} {pma : Nat} : h.Accessed (h.recordCe pma) :=
  (Hw.Accessed.satFld not_engineReg_hbm).trans Hw.accessed_hbmField

/-- A corrected piece of HBM is recorded, and its page may be retired. -/
theorem Hw.corrected_hbm {h : Hw} {a : Nat} (e : 2 ^ 44 ≤ a) : ∃ c : Bool, h.corrected a =
    if c then (h.recordCe (pmaOf a)).retirePage (bitsAt (pmaOf a) 37 4) (pmaOf a / pageBytes) (pmaOf a)
    else h.recordCe (pmaOf a) := by
  unfold Hw.corrected
  rw [if_neg (by omega), if_neg (by omega), if_neg (by omega)]
  exact ⟨decide _, (if_congr decide_eq_true_iff rfl rfl).symm⟩

theorem Hw.accessed_corrected {h : Hw} {a : Nat} : h.Accessed (h.corrected a) := by
  rcases Nat.lt_or_ge a (2 ^ 44) with lt | ge
  · unfold Hw.corrected
    refine .ite ?_ (.ite ?_ ?_)
    · exact (Hw.Accessed.satFld (not_engineReg_core (.inl (by decide)))).trans Hw.accessed_countCore
    · exact .satFld (not_engineReg_clus (.inl (by decide)))
    · rw [if_pos lt]
      exact .refl h
  · obtain ⟨c, e⟩ := Hw.corrected_hbm (h := h) ge
    rw [e]
    exact .ite (Hw.accessed_recordCe.trans Hw.accessed_retirePage) Hw.accessed_recordCe

theorem Hw.accessed_seen (h : Hw) (sn : Seen) : h.Accessed (h.seen sn) :=
  (Hw.Accessed.foldl _ _ _ (fun _ _ => Hw.accessed_corrected)).trans
    (Hw.Accessed.foldl _ _ _ (fun _ _ => .ite (.refl _) (.satFld not_engineReg_hbm)))

/-- The counter of a memory's uncorrectable pieces, and the address of the first. -/
theorem Hw.accessed_ueAddr {h : Hw} {cnt adr vld : Fld} {v : Nat} (e1 : ¬ EngineReg cnt.addr) (e2 : ¬ EngineReg adr.addr)
    (e3 : ¬ EngineReg vld.addr) :
    h.Accessed (if (h.satFld cnt 1).flag vld then h.satFld cnt 1 else ((h.satFld cnt 1).setFld adr v).setFlag vld true) :=
  .ite (.satFld e1) (((Hw.Accessed.satFld e1).trans (.setFld e2)).trans (.setFlag e3))

theorem Hw.accessed_pieceUe {h : Hw} {x : Ctx} {p : Place} {a : Nat} : h.Accessed (h.pieceUe x p a).1 := by
  unfold Hw.pieceUe
  split
  · exact Hw.accessed_ueAddr (not_engineReg_core (.inl (by decide))) (not_engineReg_core (.inl (by decide)))
      (not_engineReg_core (.inl (by decide)))
  · exact Hw.accessed_ueAddr (not_engineReg_clus (.inl (by decide))) (not_engineReg_clus (.inl (by decide)))
      (not_engineReg_clus (.inl (by decide)))
  · exact Hw.accessed_hbmUe

/-! ## Translation (R130–R136) -/

/-- The copies of a map entry that a walk finds uncorrectable are recorded: the nearer, and then the other (R135). -/
def Hw.recordCopies (h : Hw) (m : Mem) (job ctx region lpn near : Nat) : Hw :=
  let u0 := (m.ueIn (mapAddr ctx region lpn near) 8).isSome
  let u1 := (m.ueIn (mapAddr ctx region lpn (1 - near)) 8).isSome
  let k := if u0 then h.hbmUe (Config.mapPma ctx region lpn near) dMapUe job else h
  if u0 && u1 then k.hbmUe (Config.mapPma ctx region lpn (1 - near)) dMapUe job else k

theorem Hw.walk_fst (h : Hw) (m : Mem) (job ctx region lpn w : Nat) :
    (h.walk m job ctx region lpn w).1 = h.recordCopies m job ctx region lpn (Config.nearCopy ctx region lpn w).val := by
  unfold Hw.walk Hw.recordCopies
  simp only [apply_ite Prod.fst, ite_self]

theorem Hw.accessed_walk {h : Hw} {m : Mem} {job ctx region lpn w : Nat} : h.Accessed (h.walk m job ctx region lpn w).1 := by
  rw [Hw.walk_fst]
  have near : h.Accessed (if (m.ueIn (mapAddr ctx region lpn (Config.nearCopy ctx region lpn w).val) 8).isSome
      then h.hbmUe (Config.mapPma ctx region lpn (Config.nearCopy ctx region lpn w).val) dMapUe job else h) :=
    .ite Hw.accessed_hbmUe (.refl h)
  exact .ite (near.trans Hw.accessed_hbmUe) near

/-- A cache's hit or miss, where the cache is a cluster's, is counted (R423). -/
theorem Hw.accessed_translate {h : Hw} {m : Mem} {job ctx region lpn w master : Nat} :
    h.Accessed (h.translate m job ctx region lpn w master).1 := by
  have ev : ∀ (k : Hw) (code : Nat), k.Accessed
      (if w < 64 then k.countClus w { code := code, masters := if master = 0 then [] else [master] } 1 else k) :=
    fun k _ => .ite Hw.accessed_countClus (.refl k)
  unfold Hw.translate
  dsimp only
  split
  · exact Hw.accessed_xclField.trans (ev _ _)
  · have walked := (ev h 0x24).trans (Hw.accessed_walk (m := m) (job := job) (ctx := ctx) (region := region) (lpn := lpn) (w := w))
    split <;> rename_i e <;> rw [e] at walked
    · exact walked
    · exact walked.trans Hw.accessed_xclField

end Sys2Proof.Machine
end

section
/-!
PROOFS. Checks that may meet a condition, one after the other, and what a whole operand leaves alone (R79, R92, R100).
-/
namespace Sys2Proof.Machine

/-! ## Checks one after the other -/

/-- What follows a check, where it meets no condition. -/
def andThen {α β : Type} (q : Hw × Except Cond α) (k : Hw → α → Hw × Except Cond β) : Hw × Except Cond β :=
  match q with
  | (h, .error e) => (h, .error e)
  | (h, .ok a) => k h a

@[simp] theorem andThen_error {α β : Type} (h : Hw) (e : Cond) (k : Hw → α → Hw × Except Cond β) :
    andThen (h, .error e) k = (h, .error e) := rfl
@[simp] theorem andThen_ok {α β : Type} (h : Hw) (a : α) (k : Hw → α → Hw × Except Cond β) : andThen (h, .ok a) k = k h a := rfl

theorem andThen_eq_error {α β : Type} {q : Hw × Except Cond α} {f : Hw → α → Hw × Except Cond β} {h : Hw} {e : Cond}
    (eq : q = (h, .error e)) : andThen q f = (h, .error e) := by
  rw [eq]
  rfl
theorem andThen_eq_ok {α β : Type} {q : Hw × Except Cond α} {f : Hw → α → Hw × Except Cond β} {h : Hw} {a : α}
    (eq : q = (h, .ok a)) : andThen q f = f h a := by
  rw [eq]
  rfl

theorem andThen_pure {α : Type} (q : Hw × Except Cond α) : andThen q (fun h a => (h, .ok a)) = q := by
  obtain ⟨h, e | a⟩ := q <;> rfl

theorem andThen_assoc {α β γ : Type} (q : Hw × Except Cond α) (k : Hw → α → Hw × Except Cond β) (l : Hw → β → Hw × Except Cond γ) :
    andThen (andThen q k) l = andThen q (fun h a => andThen (k h a) l) := by
  obtain ⟨h, e | a⟩ := q <;> rfl

theorem andThen_congr {α β : Type} {q : Hw × Except Cond α} {k l : Hw → α → Hw × Except Cond β} (e : ∀ h a, k h a = l h a) :
    andThen q k = andThen q l := congrArg _ (funext fun h => funext fun a => e h a)

/-- What holds of the hardware after a check and after what follows it holds in the end. -/
theorem andThen_fst {α β : Type} {P : Hw → Prop} {q : Hw × Except Cond α} {k : Hw → α → Hw × Except Cond β} (a : P q.1)
    (b : ∀ h x, P h → P (k h x).1) : P (andThen q k).1 := by
  obtain ⟨h, e | x⟩ := q
  · exact a
  · exact b h x a

/-! ## Rows (R92, R100, R130–R136, R421–R423) -/

theorem foldl_fst {α σ : Type} {P : Hw → Prop} {f : Hw × σ → α → Hw × σ} {l : List α} {q : Hw × σ} {g : Hw} {r : σ}
    (e : l.foldl f q = (g, r)) (a : P q.1) (b : ∀ q x, P q.1 → P (f q x).1) : P g := by
  induction l generalizing q with
  | nil =>
    obtain rfl : q = (g, r) := e
    exact a
  | cons x l ih => exact ih e (b q x a)

theorem Hw.accessed_xlatRow {h : Hw} {m : Mem} {job ctx w : Nat} {write : Bool} {p : Place} {master : Nat} :
    h.Accessed (h.xlatRow m job ctx w write p master).1 := by
  unfold Hw.xlatRow
  dsimp only
  split
  · exact .refl h
  · split <;> (
      refine foldl_fst (P := h.Accessed) ‹_› (.refl h) ?_
      rintro ⟨k, e | l⟩ ⟨lpn, o, n⟩ a
      · exact a
      have t := a.trans (Hw.accessed_translate (m := m) (job := job) (ctx := ctx) (region := p.lc) (lpn := lpn) (w := w)
        (master := master))
      dsimp only
      split <;> rename_i e <;> rw [e] at t
      · exact t
      · split <;> exact t)

theorem Hw.accessed_countAccess {h : Hw} {x : Ctx} {w : Who} {p : Place} {write : Bool} :
    h.Accessed (h.countAccess x w p write) := by
  have ni : ∀ (k : Hw) (t n c : Nat) (b : Bool) (e f : Ev), k.Accessed
      (if t < 64 then (if b then k else k.countClus c e n).countClus t f n else if b then k else k.countClus c e n) := by
    intro k t n c b e f
    have own : k.Accessed (if b then k else k.countClus c e n) := .ite (.refl k) Hw.accessed_countClus
    exact .ite (own.trans Hw.accessed_countClus) own
  unfold Hw.countAccess
  dsimp only
  split
  · exact .ite Hw.accessed_countCore (Hw.accessed_countCore.trans (ni ..))
  · have row := fun (c : Prop) [Decidable c] (t n : Nat) (e f : Ev) => (Hw.accessed_countClus (h := h) (c := t) (n := n) (e := e)).trans
      (.ite (c := c) (Hw.accessed_countClus (c := t) (n := 1) (e := f)) (.refl _))
    exact .ite (row _ _ _ _ _) ((row _ _ _ _ _).trans (ni ..))
  · exact (Hw.Accessed.foldl _ _ _ (fun _ _ => Hw.accessed_sectors)).trans (ni ..)

theorem Hw.accessed_srcRow {m : Mem} {x : Ctx} {w : Who} {u : Nat × Nat × Nat} {h : Hw} {r : Int × Nat} :
    h.Accessed (Hw.srcRow m x w u h r).1 := by
  unfold Hw.srcRow
  split
  · exact .refl h
  split
  · exact .refl h
  split
  · exact .refl h
  split <;> rename_i e <;> have t := congrArg Prod.fst e ▸ Hw.accessed_xlatRow (h := h)
  · exact t
  split
  · exact t.trans Hw.accessed_pieceUe
  · exact t.trans Hw.accessed_countAccess

theorem Hw.accessed_dstRow {m : Mem} {x : Ctx} {w : Who} {u : Nat × Nat × Nat} {h : Hw} {r : Int × Nat} :
    h.Accessed (Hw.dstRow m x w u h r).1 := by
  unfold Hw.dstRow
  split
  · exact .refl h
  split
  · exact .refl h
  split
  · exact .refl h
  split
  · exact .refl h
  split
  · exact .refl h
  split <;> rename_i e <;> have t := congrArg Prod.fst e ▸ Hw.accessed_xlatRow (h := h)
  · exact t
  split
  · exact t.trans Hw.accessed_pieceUe
  · exact t.trans Hw.accessed_countAccess

theorem checkRows_cons (f : Hw → Int × Nat → Hw × Except Cond Place) (h : Hw) (r : Int × Nat) (rs : List (Int × Nat)) :
    checkRows f h (r :: rs) = andThen (f h r) (fun h p => andThen (checkRows f h rs) (fun h ps => (h, .ok (p :: ps)))) := by
  rw [checkRows]
  rcases f h r with ⟨g, e | p⟩
  · rfl
  · dsimp only [andThen_ok]
    rcases checkRows f g rs with ⟨k, e | ps⟩ <;> rfl

theorem Hw.accessed_checkRows {f : Hw → Int × Nat → Hw × Except Cond Place}
    (a : ∀ (h : Hw) (r : Int × Nat), h.Accessed (f h r).1) (h : Hw) (rs : List (Int × Nat)) : h.Accessed (checkRows f h rs).1 := by
  induction rs generalizing h with
  | nil => exact .refl h
  | cons r rs ih =>
    rw [checkRows_cons]
    exact andThen_fst (P := h.Accessed) (a h r) (fun k p b => andThen_fst (P := h.Accessed) (b.trans (ih k)) (fun _ _ c => c))

theorem Hw.accessed_srcRows {h : Hw} {m : Mem} {x : Ctx} {w : Who} {u : Nat × Nat × Nat} {rs : List (Int × Nat)} :
    h.Accessed (h.srcRows m x w u rs).1 := Hw.accessed_checkRows (fun _ _ => Hw.accessed_srcRow) h rs
theorem Hw.accessed_dstRows {h : Hw} {m : Mem} {x : Ctx} {w : Who} {u : Nat × Nat × Nat} {rs : List (Int × Nat)} :
    h.Accessed (h.dstRows m x w u rs).1 := Hw.accessed_checkRows (fun _ _ => Hw.accessed_dstRow) h rs

/-! ## Vector operands (R79) -/

theorem Hw.vread_misaligned {h : Hw} {m : Mem} {w : Work} {o : VOp} {n len al : Nat}
    (e : o.v % al ≠ 0 ∨ (1 < n ∧ o.d.stride % al ≠ 0)) :
    h.vread m w o n len al = (h, .error (alignCond o.d w.w.lc w.w.lk o.v)) := if_pos e
theorem Hw.vread_aligned {h : Hw} {m : Mem} {w : Work} {o : VOp} {n len al : Nat}
    (e : ¬ (o.v % al ≠ 0 ∨ (1 < n ∧ o.d.stride % al ≠ 0))) : h.vread m w o n len al =
      andThen (h.srcRows m w.x w.w (o.d.unit w.w.lc w.w.lk) (rowAddrs o.v n o.d.stride len))
        (fun h ps => (h, .ok (ps.map (fun p => leNat (m.row p))))) := by
  rw [Hw.vread, if_neg e]
  rcases h.srcRows m w.x w.w (o.d.unit w.w.lc w.w.lk) (rowAddrs o.v n o.d.stride len) with ⟨g, e | ps⟩ <;> rfl

/-- The rows of bytes of a destination operand, as addresses and lengths. -/
def VOp.rows (o : VOp) (rows : List (List Byte)) : List (Int × Nat) :=
  rows.zipIdx.map (fun (b, i) => (o.v + (i * o.d.stride : Nat), b.length))

theorem Hw.vwrite_misaligned {h : Hw} {m : Mem} {w : Work} {o : VOp} {al : Nat} {rows : List (List Byte)}
    (e : o.v % al ≠ 0 ∨ (1 < rows.length ∧ o.d.stride % al ≠ 0)) :
    h.vwrite m w o al rows = (h, .error (alignCond o.d w.w.lc w.w.lk o.v)) := if_pos e
theorem Hw.vwrite_aligned {h : Hw} {m : Mem} {w : Work} {o : VOp} {al : Nat} {rows : List (List Byte)}
    (e : ¬ (o.v % al ≠ 0 ∨ (1 < rows.length ∧ o.d.stride % al ≠ 0))) : h.vwrite m w o al rows =
      andThen (h.dstRows m w.x w.w (o.d.unit w.w.lc w.w.lk) (o.rows rows))
        (fun h ps => (h, .ok (storeRows m (ps.zip rows)))) := by
  rw [Hw.vwrite, if_neg e, ← VOp.rows]
  rcases h.dstRows m w.x w.w (o.d.unit w.w.lc w.w.lk) (o.rows rows) with ⟨g, e | ps⟩ <;> rfl

theorem Hw.accessed_vread {h : Hw} {m : Mem} {w : Work} {o : VOp} {n len al : Nat} :
    h.Accessed (h.vread m w o n len al).1 := by
  by_cases e : o.v % al ≠ 0 ∨ (1 < n ∧ o.d.stride % al ≠ 0)
  · rw [Hw.vread_misaligned e]
    exact .refl h
  · rw [Hw.vread_aligned e]
    exact andThen_fst (P := h.Accessed) Hw.accessed_srcRows (fun _ _ a => a)
theorem Hw.accessed_vwrite {h : Hw} {m : Mem} {w : Work} {o : VOp} {al : Nat} {rows : List (List Byte)} :
    h.Accessed (h.vwrite m w o al rows).1 := by
  by_cases e : o.v % al ≠ 0 ∨ (1 < rows.length ∧ o.d.stride % al ≠ 0)
  · rw [Hw.vwrite_misaligned e]
    exact .refl h
  · rw [Hw.vwrite_aligned e]
    exact andThen_fst (P := h.Accessed) Hw.accessed_dstRows (fun _ _ a => a)

end Sys2Proof.Machine
end

section
/-!
PROOFS. What the row of an engine instruction does around the instruction's own effect (R92, R139, R381, R382).
-/
namespace Sys2Proof.Machine

/-! ## The instruction that is due -/

/-- The key of the stream of an instruction. -/
def Work.key (w : Work) : Nat := strmKey w.w.lc w.w.lk w.w.s

/-- An instruction is due: it is in progress on its core, and its effect has not happened. -/
structure Work.Due (w : Work) (h : Hw) : Prop where
  ctx : Tab.find? h.ctxs w.w.c = some w.x
  core : w.x.core? w.w.lc w.w.lk = some w.k
  infl : (w.x.run.strm w.key).inflight[w.w.n]? = some w.fl
  fresh : w.fl.done = false

/-- The instruction that a row acts on is due, and its stream is the row's. -/
theorem Hw.work_due {h : Hw} {r : StreamRef} {opc : Nat} {w : Work} (e : h.work r opc = some w) :
    w.Due h ∧ w.w.c = r.ctx ∧ w.w.lc = r.lc ∧ w.w.lk = r.lk ∧ w.w.s = r.strm := by
  unfold Hw.work at e
  split at e
  · cases e
  rename_i x hx
  split at e
  · cases e
  rename_i k hk
  dsimp only at e
  split at e
  · cases e
  rename_i n hn
  split at e
  · cases e
  rename_i fl hfl
  split at e
  · obtain rfl := Option.some.inj e
    obtain ⟨hlt, fresh, -⟩ := List.findIdx?_eq_some_iff_getElem.1 hn
    obtain ⟨hlt', rfl⟩ := List.getElem?_eq_some_iff.1 hfl
    exact ⟨⟨hx, hk, hfl, by simpa using fresh⟩, rfl, rfl, rfl, rfl⟩
  · cases e

theorem Hw.work_key {h : Hw} {r : StreamRef} {opc : Nat} {w : Work} (e : h.work r opc = some w) : w.key = keyOf r := by
  obtain ⟨-, -, lc, lk, s⟩ := Hw.work_due e
  rw [Work.key, keyOf, lc, lk, s]

/-! ## Contexts after a change -/

theorem Tab.find?_mod_same {α : Type} {t : Tab α} {k : Nat} {v : α} (f : α → α) (h : t.find? k = some v) :
    (t.mod k f).find? k = some (f v) := by
  rw [Tab.mod, h]
  exact Tab.find?_put_same _ _ _
theorem Tab.find?_mod_other {α : Type} (t : Tab α) {k q : Nat} (f : α → α) (h : q ≠ k) : (t.mod k f).find? q = t.find? q := by
  unfold Tab.mod
  split
  · exact Tab.find?_put_other _ _ h
  · rfl

theorem Hw.find?_modCtx_same {h : Hw} {c : Nat} {x : Ctx} (f : Ctx → Ctx) (e : Tab.find? h.ctxs c = some x) :
    Tab.find? (h.modCtx c f).ctxs c = some (f x) := Tab.find?_mod_same f e
theorem Hw.find?_modCtx_other {h : Hw} {c d : Nat} (f : Ctx → Ctx) (e : d ≠ c) :
    Tab.find? (h.modCtx c f).ctxs d = Tab.find? h.ctxs d := Tab.find?_mod_other _ f e

theorem CtxRun.strm_modStrm_same (r : CtxRun) (k : Nat) (f : Stream → Stream) : (r.modStrm k f).strm k = f (r.strm k) :=
  Tab.getD_put_same _ _ _ _
theorem CtxRun.strm_modStrm_other (r : CtxRun) {k q : Nat} (f : Stream → Stream) (e : q ≠ k) :
    (r.modStrm k f).strm q = r.strm q := Tab.getD_put_other _ _ _ e

/-! ## An instruction whose effect is under way -/

/-- `k` is `h` while the effect of `w` is under way: of the contexts only its own may have changed, and there its place among the
instructions in progress of its stream and the ranges that are read-held. -/
structure Work.Going (w : Work) (h k : Hw) : Prop where
  tb : k.tb = h.tb
  others : ∀ d, d ≠ w.w.c → Tab.find? k.ctxs d = Tab.find? h.ctxs d
  ctx : ∃ y f, Tab.find? k.ctxs w.w.c = some y ∧ y.host = w.x.host ∧ y.run.fault = w.x.run.fault ∧
    (∀ q, q ≠ w.key → y.run.strm q = w.x.run.strm q) ∧ (y.run.strm w.key).inflight[w.w.n]? = some f ∧ f.idx = w.fl.idx ∧
    f.startTb = w.fl.startTb

theorem Work.Due.going {w : Work} {h : Hw} (d : w.Due h) : w.Going h h :=
  ⟨rfl, fun _ _ => rfl, w.x, w.fl, d.ctx, rfl, rfl, fun _ _ => rfl, d.infl, rfl, rfl⟩

theorem Work.Going.of_only {w : Work} {h k l : Hw} {ps : List Part} (g : w.Going h k) (a : k.Only ps l) (c : Part.ctxs ∉ ps)
    (t : Part.tb ∉ ps) : w.Going h l := by
  have hc : l.ctxs = k.ctxs := a .ctxs c
  have ht : l.tb = k.tb := a .tb t
  exact ⟨ht.trans g.tb, by rw [hc]; exact g.others, by rw [hc]; exact g.ctx⟩

theorem Work.Going.accessed {w : Work} {h k l : Hw} (g : w.Going h k) (a : k.Accessed l) : w.Going h l :=
  g.of_only a.only (by decide) (by decide)

/-- The bytes that an instruction holds for reading change nothing else of its context. -/
theorem Work.Going.hold {w : Work} {h k : Hw} (g : w.Going h k) (f : Tab (List Rng) → Tab (List Rng)) :
    w.Going h (k.modRun w.w.c (fun r => { r with holds := f r.holds })) := by
  obtain ⟨y, fl, hy, host, fault, strm, rest⟩ := g.ctx
  exact ⟨g.tb, fun d hd => (Hw.find?_modCtx_other _ hd).trans (g.others d hd),
    _, fl, Hw.find?_modCtx_same _ hy, host, fault, strm, rest⟩

theorem Hw.find?_markDone {k : Hw} {w : Work} {y : Ctx} (f : Infl → Infl) (e : Tab.find? k.ctxs w.w.c = some y) :
    Tab.find? (k.markDone w.w f).ctxs w.w.c = some { y with run := y.run.modStrm w.key (fun st =>
      { st with inflight := modAt st.inflight w.w.n (fun x => f { x with done := true }) }) } := Hw.find?_modCtx_same _ e

theorem Hw.only_markDone {k : Hw} {w : Who} {f : Infl → Infl} : k.Only [.ctxs] (k.markDone w f) := Hw.only_modRun

/-- The instruction's own entry after it is marked. -/
theorem Work.Going.marked {w : Work} {h k : Hw} (g : w.Going h k) (f : Infl → Infl) :
    ∃ (y : Ctx) (fl : Infl), Tab.find? (k.markDone w.w f).ctxs w.w.c = some y ∧ y.host = w.x.host ∧ y.run.fault = w.x.run.fault ∧
      (∀ q, q ≠ w.key → y.run.strm q = w.x.run.strm q) ∧ fl.idx = w.fl.idx ∧ fl.startTb = w.fl.startTb ∧
      (y.run.strm w.key).inflight[w.w.n]? = some (f { fl with done := true }) := by
  obtain ⟨y, fl, hy, host, fault, strm, infl, idx, tb⟩ := g.ctx
  refine ⟨_, fl, Hw.find?_markDone f hy, host, fault, fun q hq => ?_, idx, tb, ?_⟩
  · exact (CtxRun.strm_modStrm_other _ _ hq).trans (strm q hq)
  · show ((CtxRun.modStrm _ _ _).strm _).inflight[_]? = _
    rw [CtxRun.strm_modStrm_same]
    simp [modAt, infl]

theorem Work.Going.markDone {w : Work} {h k : Hw} (g : w.Going h k) (f : Infl → Infl)
    (same : ∀ x, (f x).idx = x.idx ∧ (f x).startTb = x.startTb) : w.Going h (k.markDone w.w f) := by
  obtain ⟨y, fl, hy, host, fault, strm, idx, tb, infl⟩ := g.marked f
  exact ⟨g.tb, fun d hd => (Hw.find?_modCtx_other _ hd).trans (g.others d hd),
    y, _, hy, host, fault, strm, infl, (same _).1.trans idx, (same _).2.trans tb⟩

/-- The context of a due instruction keeps its image and placement, and its other streams (R139). -/
theorem Work.Going.alone {w : Work} {s t : State} {k : Hw} (d : w.Due s.hw) (g : w.Going s.hw k) (e : t.hw.ctxs = k.ctxs) :
    StreamAlone s t w.w.c w.key := by
  obtain ⟨y, fl, hy, host, -, strm, -⟩ := g.ctx
  refine ⟨fun c hc => by rw [e]; exact g.others c hc, fun x hx => ?_⟩
  obtain rfl := Option.some.inj (d.ctx.symm.trans hx)
  exact ⟨y, by rw [e]; exact hy, by rw [host], by rw [host], strm⟩

theorem Work.Going.executed {w : Work} {h : Hw} {t : State} {k : Hw} (g : w.Going h k) (e : t.hw = k.markDone w.w id) :
    Executed t w := by
  obtain ⟨y, fl, hy, host, fault, -, idx, tb, infl⟩ := g.marked id
  exact ⟨y, _, by rw [e]; exact hy, host, fault, infl, rfl, idx, tb⟩

/-! ## An instruction that meets a condition -/

theorem Hw.only_workFault {h : Hw} {w : Work} {e : Cond} : h.Only [.regs, .ctxs] (h.workFault w e) := Hw.only_strmFault

/-- The detection of a condition changes the context's state and its fault record, and no stream (R381, R382). -/
theorem Hw.find?_raise {h : Hw} {c u l i : Nat} {d : Cond} {y : Ctx} (e : Tab.find? h.ctxs c = some y) :
    ∃ z, Tab.find? (h.raise c d u l i).ctxs c = some z ∧ z.host.image = y.host.image ∧ z.host.place = y.host.place ∧
      (∀ q, z.run.strm q = y.run.strm q) ∧
      (y.canFault = true → y.run.fault = none → z.host = { y.host with st := .faulted } ∧ z.run.faultStep = .detected ∧
        ∃ r, z.run.fault = some r ∧ r.detail = d.detail ∧ r.cls = d.detail / 256 ∧ r.tb = h.tb ∧ r.job = y.host.job ∧ r.more = 0) := by
  refine ⟨_, Hw.find?_modCtx_same _ e, ?_⟩
  cases hf : y.run.fault with
  | some r => exact ⟨rfl, rfl, fun _ => rfl, fun _ hn => nomatch hn⟩
  | none =>
    dsimp only
    split
    · exact ⟨rfl, rfl, fun _ => rfl, fun _ _ => ⟨rfl, rfl, _, rfl, rfl, rfl, rfl, rfl, rfl⟩⟩
    · rename_i hc
      exact ⟨rfl, rfl, fun _ => rfl, fun ht => absurd ht hc⟩

/-- A due instruction's condition is detected on the core that it runs on. -/
theorem Work.Going.workFault_eq {w : Work} {h k : Hw} (d : w.Due h) (g : w.Going h k) (e : Cond) :
    k.workFault w e = ((k.setErr (engineErr w.k w.w.s e.detail)).setErr (contractErr (w.condCore e) e.detail)).raise w.w.c e
      (strmUnit w.k w.w.s) (lunitOf w.w.lc w.w.lk w.w.s) (indexOf w.fl.idx) := by
  obtain ⟨y, fl, hy, host, -⟩ := g.ctx
  have core : (k.ctx? w.w.c).bind (fun x => x.core? w.w.lc w.w.lk) = some w.k := by
    rw [Hw.ctx?, hy, Option.bind_some, Ctx.core?, host, ← Ctx.core?, d.core]
  rw [Hw.workFault, Hw.strmFault, core]

theorem Work.Going.raised {w : Work} {s t : State} {k : Hw} {e : Cond} (d : w.Due s.hw) (g : w.Going s.hw k)
    (eq : t.hw = k.workFault w e) : Raised s t w.w.c e.detail ∧ StreamAlone s t w.w.c w.key := by
  have err : k.Only [.regs] ((k.setErr (engineErr w.k w.w.s e.detail)).setErr (contractErr (w.condCore e) e.detail)) :=
    Hw.only_setErr.trans Hw.only_setErr
  obtain ⟨tb, others, y, fl, hy, host, fault, strm, -⟩ := g.of_only err (by decide) (by decide)
  rw [g.workFault_eq d] at eq
  obtain ⟨z, hz, image, place, zstrm, record⟩ := Hw.find?_raise (d := e) (u := strmUnit w.k w.w.s)
    (l := lunitOf w.w.lc w.w.lk w.w.s) (i := indexOf w.fl.idx) hy
  rw [← eq] at hz
  have canFault : y.canFault = w.x.canFault := by rw [Ctx.canFault, host, ← Ctx.canFault]
  refine ⟨fun x hx live none => ?_, fun c hc => ?_, fun x hx => ?_⟩
  · obtain rfl := Option.some.inj (d.ctx.symm.trans hx)
    obtain ⟨zhost, step, r, zfault, detail, cls, rtb, job, more⟩ := record (canFault.trans live) (fault.trans none)
    exact ⟨z, r, hz, by rw [zhost, host], zfault, step, detail, cls, rtb.trans tb, by rw [job, host], more⟩
  · rw [eq]
    exact (Hw.find?_modCtx_other _ hc).trans (others c hc)
  · obtain rfl := Option.some.inj (d.ctx.symm.trans hx)
    exact ⟨z, hz, by rw [image, host], by rw [place, host], fun q hq => (zstrm q).trans (strm q hq)⟩

/-! ## The effect of a row -/

/-- What the row of an instruction does when the instruction's own effect answers `q`. -/
def Work.outcome (w : Work) (sn : Seen) (q : Hw × Except Cond (List Edit)) : Eff :=
  match q with
  | (h, .error e) => { hw := h.workFault w e, edits := seenEdits sn }
  | (h, .ok es) => { hw := h.markDone w.w id, edits := seenEdits sn ++ es }

theorem engineEff_due {r : StreamRef} {opc : Nat} {sn : Seen} {s : State} {f : Work → Mem → Hw → Hw × Except Cond (List Edit)}
    {w : Work} (e : s.hw.work r opc = some w) : engineEff r opc sn s f = w.outcome sn (f w (s.mem.seen sn) (s.hw.seen sn)) := by
  unfold engineEff
  rw [e]
  dsimp only
  rcases f w (s.mem.seen sn) (s.hw.seen sn) with ⟨g, e | es⟩ <;> rfl
theorem engineEff_idle {r : StreamRef} {opc : Nat} {sn : Seen} {s : State} {f : Work → Mem → Hw → Hw × Except Cond (List Edit)}
    (e : s.hw.work r opc = none) : engineEff r opc sn s f = { hw := s.hw } := by
  unfold engineEff
  rw [e]
theorem engineEff_burn {r : StreamRef} {opc : Nat} {sn : Seen} {s : State} {f : Work → Mem → Hw → Hw × Except Cond (List Edit)} :
    (engineEff r opc sn s f).burn = [] := by
  cases e : s.hw.work r opc with
  | none => rw [engineEff_idle e]
  | some w =>
    rw [engineEff_due e]
    rcases f w (s.mem.seen sn) (s.hw.seen sn) with ⟨g, e | es⟩ <;> rfl

/-- `t` is `s` after the due instruction `w`, whose own effect answers `q`. -/
structure Run (s t : State) (sn : Seen) (w : Work) (q : Hw × Except Cond (List Edit)) : Prop where
  due : w.Due s.hw
  eq : t = s.commit (w.outcome sn q)

theorem run_engineEff {r : StreamRef} {opc : Nat} {sn : Seen} {s : State} {f : Work → Mem → Hw → Hw × Except Cond (List Edit)}
    {w : Work} (e : s.hw.work r opc = some w) :
    Run s (s.commit (engineEff r opc sn s f)) sn w (f w (s.mem.seen sn) (s.hw.seen sn)) :=
  ⟨(Hw.work_due e).1, by rw [engineEff_due e]⟩

section
variable {s t : State} {sn : Seen} {w : Work}

theorem Run.stops {g : Hw} {e : Cond} (run : Run s t sn w (g, .error e)) (going : w.Going s.hw g) : Stops s t w e.detail := by
  obtain ⟨due, rfl⟩ := run
  refine ⟨(going.raised due rfl).1, fun q _ => ?_⟩
  show (s.mem.edit (seenEdits sn)).read q = _
  rw [Mem.edit_seenEdits, Mem.read_seen]

theorem Run.executed {g : Hw} {es : List Edit} (run : Run s t sn w (g, .ok es)) (going : w.Going s.hw g) : Executed t w := by
  obtain ⟨-, rfl⟩ := run
  exact going.executed rfl

theorem Run.stored {g : Hw} {es : List Edit} {rs : List (Place × List Byte)} (run : Run s t sn w (g, .ok es))
    (h : StoresRows (s.mem.seen sn) rs es) : Stored s.mem t.mem rs := by
  obtain ⟨-, rfl⟩ := run
  show Stored s.mem (s.mem.edit (seenEdits sn ++ es)) rs
  rw [Mem.edit_append, Mem.edit_seenEdits]
  exact h.stored (fun q => Mem.read_seen _ _ q)

/-- Marking the instruction or faulting its context is all that is done around its own effect. -/
theorem Run.kept {q : Hw × Except Cond (List Edit)} (run : Run s t sn w q) : q.1.Only [.regs, .ctxs] t.hw := by
  obtain ⟨-, rfl⟩ := run
  obtain ⟨g, e | es⟩ := q
  · exact Hw.only_workFault
  · exact Hw.only_markDone.mono (by simp)
theorem Run.cores {q : Hw × Except Cond (List Edit)} (run : Run s t sn w q) : t.hw.cores = q.1.cores := run.kept .cores (by simp)
theorem Run.regs {g : Hw} {es : List Edit} (run : Run s t sn w (g, .ok es)) : t.hw.regs = g.regs := by
  obtain ⟨-, rfl⟩ := run
  rfl

theorem Run.ends {q : Hw × Except Cond (List Edit)} (run : Run s t sn w q) (going : w.Going s.hw q.1) :
    StreamAlone s t w.w.c w.key ∧ (Executed t w ∨ ∃ d, Raised s t w.w.c d) := by
  obtain ⟨g, e | es⟩ := q
  · obtain ⟨raised, alone⟩ := going.raised run.due (congrArg State.hw run.eq)
    exact ⟨alone, .inr ⟨_, raised⟩⟩
  · exact ⟨(going.markDone id (fun _ => ⟨rfl, rfl⟩)).alone run.due (by rw [run.eq]; rfl), .inl (run.executed going)⟩

/-! ## Operands that are read and written -/

theorem Run.loaded {o : VOp} {n len al : Nat} {h : Hw} {K : Hw → List Nat → Hw × Except Cond (List Edit)}
    {k : Hw → List Nat → Prop} (run : Run s t sn w (andThen (h.vread (s.mem.seen sn) w o n len al) K)) (going : w.Going s.hw h)
    (next : ∀ g xs, h.Accessed g → w.Going s.hw g → Run s t sn w (K g xs) → k g xs) : Loaded s t sn w h o n len al k := by
  intro g
  have acc := Hw.accessed_vread (h := h) (m := s.mem.seen sn) (w := w) (o := o) (n := n) (len := len) (al := al)
  refine ⟨fun e hq => ?_, fun xs hq => ?_⟩ <;> rw [hq] at run acc
  · exact run.stops (going.accessed acc)
  · exact next g xs acc (going.accessed acc) run

/-- The operands that fields of the word name, read in order. -/
def Hw.vreadAll (m : Mem) (w : Work) (n len al : Nat) : List Nat → Hw → Hw × Except Cond (List (List Nat))
  | [], h => (h, .ok [])
  | lo :: los, h => andThen (h.vread m w (w.vop lo) n len al) (fun g xs =>
      andThen (Hw.vreadAll m w n len al los g) (fun g ys => (g, .ok (xs :: ys))))

theorem Hw.accessed_vreadAll {m : Mem} {n len al : Nat} (los : List Nat) (h : Hw) :
    h.Accessed (Hw.vreadAll m w n len al los h).1 := by
  induction los generalizing h with
  | nil => exact .refl h
  | cons lo los ih =>
    exact andThen_fst (P := h.Accessed) Hw.accessed_vread (fun g xs a => andThen_fst (P := h.Accessed) (a.trans (ih g)) (fun _ _ b => b))

theorem Run.loadedAll {n len al : Nat} {los : List Nat} {h : Hw} {K : Hw → List (List Nat) → Hw × Except Cond (List Edit)}
    {k : Hw → List (List Nat) → Prop} (run : Run s t sn w (andThen (Hw.vreadAll (s.mem.seen sn) w n len al los h) K))
    (going : w.Going s.hw h) (next : ∀ g xs, h.Accessed g → w.Going s.hw g → Run s t sn w (K g xs) → k g xs) :
    LoadedAll s t sn w n len al los h k := by
  induction los generalizing h K k with
  | nil => exact next h [] (.refl h) going run
  | cons lo los ih =>
    rw [Hw.vreadAll, andThen_assoc] at run
    refine run.loaded going (fun g xs acc going run => ?_)
    rw [andThen_assoc] at run
    exact ih run going (fun g' ys acc' going' run' => next g' (xs :: ys) (acc.trans acc') going' run')

theorem Run.written_nil {g : Hw} {es : List Edit} {rs : List (Place × List Byte)} (run : Run s t sn w (g, .ok es))
    (going : w.Going s.hw g) (h : StoresRows (s.mem.seen sn) rs es) : Written s t sn w g [] rs :=
  ⟨run.executed going, run.stored h⟩

theorem Run.written_cons {g : Hw} {o : VOp} {al : Nat} {rows : List (List Byte)} {rest : List (VOp × Nat × List (List Byte))}
    {rs : List (Place × List Byte)} {K : Hw → List Edit → Hw × Except Cond (List Edit)}
    (run : Run s t sn w (andThen (g.vwrite (s.mem.seen sn) w o al rows) K)) (going : w.Going s.hw g)
    (next : ∀ (g' : Hw) (ps : List Place), w.Going s.hw g' → Run s t sn w (K g' (storeRows (s.mem.seen sn) (ps.zip rows))) →
      Written s t sn w g' rest (rs ++ ps.zip rows)) : Written s t sn w g ((o, al, rows) :: rest) rs := by
  refine ⟨fun bad => ?_, fun hv hst g' => ?_⟩
  · rw [Hw.vwrite_misaligned bad] at run
    exact run.stops going
  · rw [Hw.vwrite_aligned (by rintro (h | ⟨h1, h2⟩); exacts [h hv, h2 (hst h1)]), andThen_assoc] at run
    have acc := Hw.accessed_dstRows (h := g) (m := s.mem.seen sn) (x := w.x) (w := w.w) (u := o.d.unit w.w.lc w.w.lk)
      (rs := o.rows rows)
    refine ⟨fun e hq => ?_, fun ps hq => ?_⟩ <;>
      (have hq : g.dstRows (s.mem.seen sn) w.x w.w (o.d.unit w.w.lc w.w.lk) (o.rows rows) = _ := hq) <;> rw [hq] at run acc
    · exact run.stops (going.accessed acc)
    · exact next g' ps (going.accessed acc) run

/-- One operand is written. -/
theorem Run.written_one {g : Hw} {o : VOp} {al : Nat} {rows : List (List Byte)}
    (run : Run s t sn w (g.vwrite (s.mem.seen sn) w o al rows)) (going : w.Going s.hw g) : Written s t sn w g [(o, al, rows)] [] := by
  rw [← andThen_pure (g.vwrite _ _ _ _ _)] at run
  exact run.written_cons going (fun g' ps going run => run.written_nil going (storesRows_storeRows _ _))

/-- Two operands are written, one after the other. -/
theorem Run.written_two {g : Hw} {o o' : VOp} {al al' : Nat} {rows rows' : List (List Byte)}
    (run : Run s t sn w (andThen (g.vwrite (s.mem.seen sn) w o al rows) (fun h es =>
      andThen (h.vwrite (s.mem.seen sn) w o' al' rows') (fun h fs => (h, .ok (es ++ fs)))))) (going : w.Going s.hw g) :
    Written s t sn w g [(o, al, rows), (o', al', rows')] [] :=
  run.written_cons going (fun _ _ going run => run.written_cons going (fun _ _ going run => run.written_nil going
    ((storesRows_storeRows _ _).append (storesRows_storeRows _ _) (fun _ => rfl))))

end

end Sys2Proof.Machine
end

section
/-!
PROOFS. The vector instructions (R54–R59, R79–R86, R193, R486, R487): O58.
-/
namespace Sys2Proof.Machine

/-! ## The sticky flags (R86) -/

/-- A flag that is set where its condition was raised, and otherwise left. -/
def Hw.stick (h : Hw) (b : Bool) (x : Fld) : Hw := if b then h.setFlag x true else h

theorem Hw.only_stick {h : Hw} {b : Bool} {x : Fld} : h.Only [.regs] (h.stick b x) := Hw.Only.ite Hw.only_setFlag (Hw.Only.refl _ _)
theorem Hw.flag_stick_same (h : Hw) (b : Bool) {x : Fld} (hw : x.w = 1) (hl : x.lo < 32) :
    (h.stick b x).flag x = (h.flag x || b) := by
  cases b
  · exact (Bool.or_false _).symm
  · rw [Bool.or_true]
    exact Hw.flag_setFlag_same h x true hw hl
theorem Hw.flag_stick_other (h : Hw) (b : Bool) {x y : Fld} (hw : x.lo + x.w ≤ 32)
    (e : y.addr ≠ x.addr ∨ y.lo + y.w ≤ x.lo ∨ x.lo + x.w ≤ y.lo) : (h.stick b x).flag y = h.flag y := by
  cases b
  · rfl
  · exact Hw.flag_setFlag_other h x y true hw e

theorem Hw.fpFlags_eq (h : Hw) (k : Nat) (f : FpFlags) : h.fpFlags k f =
    (((h.stick f.inv (Fd.VXE_FPFLAGS.INV k)).stick f.ovf (Fd.VXE_FPFLAGS.OVF k)).stick f.unf (Fd.VXE_FPFLAGS.UNF k)).stick f.inx
      (Fd.VXE_FPFLAGS.INX k) := rfl

theorem Hw.only_fpFlags {h : Hw} {k : Nat} {f : FpFlags} : h.Only [.regs] (h.fpFlags k f) :=
  ((Hw.only_stick.trans Hw.only_stick).trans Hw.only_stick).trans Hw.only_stick

/-- Each condition sets its own flag and no other. -/
theorem Hw.flags_fpFlags (h : Hw) (k : Nat) (f : FpFlags) :
    (h.fpFlags k f).flag (Fd.VXE_FPFLAGS.INV k) = (h.flag (Fd.VXE_FPFLAGS.INV k) || f.inv) ∧
    (h.fpFlags k f).flag (Fd.VXE_FPFLAGS.OVF k) = (h.flag (Fd.VXE_FPFLAGS.OVF k) || f.ovf) ∧
    (h.fpFlags k f).flag (Fd.VXE_FPFLAGS.UNF k) = (h.flag (Fd.VXE_FPFLAGS.UNF k) || f.unf) ∧
    (h.fpFlags k f).flag (Fd.VXE_FPFLAGS.INX k) = (h.flag (Fd.VXE_FPFLAGS.INX k) || f.inx) := by
  have apart {i j : Nat} (hi : i < 32) (e : i ≠ j) (h : Hw) (b : Bool) :
      (h.stick b ⟨Reg.VXE_FPFLAGS k, i, 1⟩).flag ⟨Reg.VXE_FPFLAGS k, j, 1⟩ = h.flag ⟨Reg.VXE_FPFLAGS k, j, 1⟩ :=
    Hw.flag_stick_other h b hi (.inr (by dsimp only; omega))
  have own {i : Nat} (hi : i < 32) (h : Hw) (b : Bool) : (h.stick b ⟨Reg.VXE_FPFLAGS k, i, 1⟩).flag ⟨Reg.VXE_FPFLAGS k, i, 1⟩ =
      (h.flag ⟨Reg.VXE_FPFLAGS k, i, 1⟩ || b) := Hw.flag_stick_same h b rfl hi
  simp only [Hw.fpFlags_eq, Fd.VXE_FPFLAGS.INV, Fd.VXE_FPFLAGS.OVF, Fd.VXE_FPFLAGS.UNF, Fd.VXE_FPFLAGS.INX]
  refine ⟨?_, ?_, ?_, ?_⟩
  · rw [apart (by decide) (by decide), apart (by decide) (by decide), apart (by decide) (by decide), own (by decide)]
  · rw [apart (by decide) (by decide), apart (by decide) (by decide), own (by decide), apart (by decide) (by decide)]
  · rw [apart (by decide) (by decide), own (by decide), apart (by decide) (by decide), apart (by decide) (by decide)]
  · rw [own (by decide), apart (by decide) (by decide), apart (by decide) (by decide), apart (by decide) (by decide)]

/-- An instruction that met a condition has not had its effect. -/
theorem Run.not_executed {s t : State} {sn : Seen} {w : Work} {g : Hw} {e : Cond} (run : Run s t sn w (g, .error e))
    (c : g.ctxs = s.hw.ctxs) (tb : g.tb = s.hw.tb) : ¬ Executed t w := by
  obtain ⟨due, rfl⟩ := run
  rintro ⟨y, f, hy, -, -, infl, done, -⟩
  have going : w.Going s.hw g := by
    obtain ⟨-, others, ctx⟩ := due.going
    exact ⟨tb, by rw [c]; exact others, by rw [c]; exact ctx⟩
  have err : g.Only [.regs] ((g.setErr (engineErr w.k w.w.s e.detail)).setErr (contractErr (w.condCore e) e.detail)) :=
    Hw.only_setErr.trans Hw.only_setErr
  obtain ⟨z, hz, -, -, strm, -⟩ := Hw.find?_raise (d := e) (u := strmUnit w.k w.w.s) (l := lunitOf w.w.lc w.w.lk w.w.s)
    (i := indexOf w.fl.idx) (y := w.x) (by rw [err .ctxs (by decide), c]; exact due.ctx)
  have hy' : Tab.find? (g.workFault w e).ctxs w.w.c = some y := hy
  rw [going.workFault_eq due, hz] at hy'
  obtain rfl := Option.some.inj hy'
  have same : some f = some w.fl := by rw [← infl, ← due.infl, ← strm]; rfl
  obtain rfl := Option.some.inj same
  exact absurd (due.fresh.symm.trans done) (by decide)

/-- The flags after results are written: what stood before and what the instruction raised. -/
theorem Run.flagged {s t : State} {sn : Seen} {w : Work} {g : Hw} {f : FpFlags} {o : VOp} {al : Nat} {rows : List (List Byte)}
    (run : Run s t sn w ((g.fpFlags w.k f).vwrite (s.mem.seen sn) w o al rows)) (acc : s.hw.Accessed g) (hk : w.k < 576)
    (ex : Executed t w) : Flagged s t w.k f := by
  have flags : (g.fpFlags w.k f).Accessed ((g.fpFlags w.k f).vwrite (s.mem.seen sn) w o al rows).1 := Hw.accessed_vwrite
  have all : s.hw.Only accessParts ((g.fpFlags w.k f).vwrite (s.mem.seen sn) w o al rows).1 :=
    (acc.only.trans (Hw.only_fpFlags.mono (by decide))).trans flags.only
  rcases hq : (g.fpFlags w.k f).vwrite (s.mem.seen sn) w o al rows with ⟨k, e | es⟩ <;> rw [hq] at run flags all
  · exact absurd ex (run.not_executed (all .ctxs (by decide)) (all .tb (by decide)))
  have here : EngineReg (Reg.VXE_FPFLAGS w.k) := engineReg_core hk (by decide) (by decide)
  have kept (x : Fld) (hx : x.addr = Reg.VXE_FPFLAGS w.k) : t.hw.flag x = (g.fpFlags w.k f).flag x ∧ g.flag x = s.hw.flag x :=
    ⟨(Hw.flag_of_regs run.regs x).trans (Hw.flag_of_reg (hx ▸ flags.engines _ here)), Hw.flag_of_reg (hx ▸ acc.engines _ here)⟩
  obtain ⟨inv, ovf, unf, inx⟩ := g.flags_fpFlags w.k f
  unfold Flagged
  rw [(kept (Fd.VXE_FPFLAGS.INV w.k) rfl).1, (kept (Fd.VXE_FPFLAGS.OVF w.k) rfl).1, (kept (Fd.VXE_FPFLAGS.UNF w.k) rfl).1,
    (kept (Fd.VXE_FPFLAGS.INX w.k) rfl).1, ← (kept (Fd.VXE_FPFLAGS.INV w.k) rfl).2, ← (kept (Fd.VXE_FPFLAGS.OVF w.k) rfl).2,
    ← (kept (Fd.VXE_FPFLAGS.UNF w.k) rfl).2, ← (kept (Fd.VXE_FPFLAGS.INX w.k) rfl).2]
  exact ⟨inv, ovf, unf, inx⟩

/-! ## Results of an element function -/

/-- The results of rows of elements, as bytes. -/
def packRows (b : Nat) (els : List (List ElRes)) : List (List Byte) := els.map (fun l => packElems b (l.map Prod.fst))
/-- Every condition that rows of elements raised. -/
def raisedBy (els : List (List ElRes)) : FpFlags := els.foldl (fun a l => l.foldl (fun a x => a.or x.2) a) FpFlags.none

theorem mapRows_eq {b n : Nat} {els : List (List ElRes)} (h : ∀ l ∈ els, l.length = n) :
    mapRows b n els = (packRows b els, raisedBy els) := by
  refine Prod.ext (List.map_congr_left (fun l hl => ?_)) rfl
  show packElems b ((l.take n).map Prod.fst) = _
  rw [List.take_of_length_le (h l hl).le]

/-- The end of an element function: its flags, and its rows at the destination. -/
def Hw.writeResults (h : Hw) (m : Mem) (w : Work) (b al : Nat) (els : List (List ElRes)) : Hw × Except Cond (List Edit) :=
  (h.fpFlags w.k (raisedBy els)).vwrite m w (w.vop 80) al (packRows b els)

theorem Hw.only_writeResults {h : Hw} {m : Mem} {w : Work} {b al : Nat} {els : List (List ElRes)} :
    h.Only accessParts (h.writeResults m w b al els).1 := (Hw.only_fpFlags.mono (by decide)).trans Hw.accessed_vwrite.only

theorem Run.written_results {s t : State} {sn : Seen} {w : Work} {g : Hw} {b al : Nat} {els : List (List ElRes)}
    (run : Run s t sn w (g.writeResults (s.mem.seen sn) w b al els)) (going : w.Going s.hw g) :
    Written s t sn w (g.fpFlags w.k (raisedBy els)) [(w.vop 80, al, packRows b els)] [] :=
  run.written_one (going.of_only Hw.only_fpFlags (by decide) (by decide))

/-! ## The effect of each instruction as checks and writes in order -/

/-- The operands of an elementwise instruction, read by a fold over its fields. -/
def Hw.vreadStep (m : Mem) (w : Work) (n len al : Nat) (q : Hw × Except Cond (List (List Nat))) (lo : Nat) :
    Hw × Except Cond (List (List Nat)) :=
  andThen q (fun h l => andThen (h.vread m w (w.vop lo) n len al) (fun h x => (h, .ok (l ++ [x]))))

theorem Hw.foldl_vreadStep (m : Mem) (w : Work) (n len al : Nat) (los : List Nat) (q : Hw × Except Cond (List (List Nat))) :
    los.foldl (Hw.vreadStep m w n len al) q =
      andThen q (fun h l => andThen (Hw.vreadAll m w n len al los h) (fun h x => (h, .ok (l ++ x)))) := by
  induction los generalizing q with
  | nil =>
    obtain ⟨h, e | l⟩ := q
    · rfl
    · simp [Hw.vreadAll]
  | cons lo los ih =>
    rw [List.foldl_cons, ih, Hw.vreadStep, andThen_assoc]
    refine andThen_congr (fun h l => ?_)
    rw [andThen_assoc, Hw.vreadAll, andThen_assoc]
    refine andThen_congr (fun h x => ?_)
    rw [andThen_ok, andThen_assoc]
    exact andThen_congr (fun h y => by simp)

/-- A fold that reads each operand in this way reads them all. -/
theorem Hw.vreadAll_of_foldl {m : Mem} {w : Work} {n len al : Nat} {los : List Nat} {h : Hw} {q : Hw × Except Cond (List (List Nat))}
    {f : Hw × Except Cond (List (List Nat)) → Nat → Hw × Except Cond (List (List Nat))} (e : los.foldl f (h, .ok []) = q)
    (step : ∀ q lo, f q lo = Hw.vreadStep m w n len al q lo) : Hw.vreadAll m w n len al los h = q := by
  obtain rfl : f = Hw.vreadStep m w n len al := funext fun q => funext fun lo => step q lo
  rw [← e, Hw.foldl_vreadStep]
  exact (andThen_pure _).symm

theorem elementwise_eq (los : List Nat) (f : Fmt → List Nat → ElRes) (w : Work) (m : Mem) (h : Hw) : elementwise los f w m h =
    andThen (Hw.vreadAll m w (v1R w) ((v1Fmt w).bits / 8 * v1N w) (v1Fmt w).align los h) (fun h srcs =>
      h.writeResults m w (v1Fmt w).bits (v1Fmt w).align ((List.range (v1R w)).map (fun i => (List.range (v1N w)).map (fun e =>
        f (v1Fmt w) (srcs.map (fun x => el (x.getD i 0) (v1Fmt w).bits e)))))) := by
  unfold elementwise
  dsimp only
  split <;> rename_i hq <;> rw [Hw.vreadAll_of_foldl hq (by
    rintro ⟨h, e | l⟩ lo
    · rfl
    rw [Hw.vreadStep, andThen_ok]
    dsimp only
    split <;> rename_i hv <;> rw [hv] <;> rfl)]
  · rfl
  · rw [andThen_ok, mapRows_eq (by simp)]
    rfl

theorem vsclWork_eq (w : Work) (m : Mem) (h : Hw) : vsclWork w m h =
    andThen (h.vread m w (w.vop 68) (v1R w) ((v1Fmt w).bits / 8 * v1N w) (v1Fmt w).align) (fun h xs =>
    andThen (h.vread m w (w.vop 56) 1 ((v1Fmt w).bits / 8) (v1Fmt w).align) (fun h ts =>
      h.writeResults m w (v1Fmt w).bits (v1Fmt w).align (xs.map (fun x => (List.range (v1N w)).map (fun e =>
        fpMul (v1Fmt w) (el x (v1Fmt w).bits e) (ts.getD 0 0)))))) := by
  unfold vsclWork
  dsimp only
  split <;> rename_i h1
  · rw [h1, andThen_error]
  rw [h1, andThen_ok]
  split <;> rename_i h2
  · rw [h2, andThen_error]
  rw [h2, andThen_ok, mapRows_eq (by simp)]
  rfl

/-- The bits of a mask, element 0 lowest. -/
def packBits (bs : List Bool) : Nat := bs.foldr (fun b a => b.toNat + 2 * a) 0

theorem packBits_lt (bs : List Bool) : packBits bs < 2 ^ bs.length := by
  induction bs with
  | nil => exact Nat.one_pos
  | cons b bs ih =>
    have : b.toNat ≤ 1 := Bool.toNat_le b
    simp only [packBits, List.foldr_cons, List.length_cons, Nat.pow_succ] at ih ⊢
    omega

theorem testBit_packBits (bs : List Bool) {i : Nat} (h : i < bs.length) : (packBits bs).testBit i = bs[i] := by
  induction bs generalizing i with
  | nil => exact absurd h (Nat.not_lt_zero _)
  | cons b bs ih =>
    have e : packBits (b :: bs) = 2 * packBits bs + b.toNat := Nat.add_comm _ _
    cases i with
    | zero => cases b <;> simp [e, Nat.testBit_zero]
    | succ i =>
      rw [e, Nat.testBit_succ, List.getElem_cons_succ, ← ih (by simpa using h)]
      congr 1
      cases b
      · simp
      · simp; omega

theorem packBits_fst (rs : List (Bool × FpFlags)) : packBits (rs.map Prod.fst) = rs.foldr (fun x a => x.1.toNat + 2 * a) 0 :=
  List.foldr_map

/-- The elements that VCMP compares, as the bit and the condition of each. -/
def vcmpEls (w : Work) (xs ys : List Nat) : List (Bool × FpFlags) :=
  (List.range (v1R w * v1N w)).map (fun i => cmpEl (v1Fmt w) (v1Sub w) (el (xs.getD (i / v1N w) 0) (v1Fmt w).bits (i % v1N w))
    (el (ys.getD (i / v1N w) 0) (v1Fmt w).bits (i % v1N w)))

/-- The free value that fills the last word of a mask, where its elements do not (assumption 7). -/
def Hw.tailFree (h : Hw) (m : Nat) : Nat × Hw := if m % 32 = 0 then (0, h) else h.takeFree

/-- The word that VCMP writes: the bits of its elements, and above them a free value. -/
def vcmpMask (h : Hw) (w : Work) (xs ys : List Nat) : Nat :=
  packBits ((vcmpEls w xs ys).map Prod.fst) + (h.tailFree (v1R w * v1N w)).1 % 2 ^ (roundUp (v1R w * v1N w) 32 - v1R w * v1N w) *
    2 ^ (v1R w * v1N w)

theorem vcmpWork_eq (w : Work) (m : Mem) (h : Hw) : vcmpWork w m h =
    andThen (h.vread m w (w.vop 68) (v1R w) ((v1Fmt w).bits / 8 * v1N w) (v1Fmt w).align) (fun h xs =>
    andThen (h.vread m w (w.vop 56) (v1R w) ((v1Fmt w).bits / 8 * v1N w) (v1Fmt w).align) (fun h ys =>
      ((h.tailFree (v1R w * v1N w)).2.fpFlags w.k ((vcmpEls w xs ys).foldl (fun a x => a.or x.2) FpFlags.none)).vwrite m w
        (w.vop 80) 4 [leBytes (maskBytes (v1R w * v1N w)) (vcmpMask h w xs ys)])) := by
  unfold vcmpWork
  dsimp only
  split <;> rename_i h1
  · rw [h1, andThen_error]
  rw [h1, andThen_ok]
  split <;> rename_i h2
  · rw [h2, andThen_error]
  rw [h2, andThen_ok, vcmpMask, packBits_fst]
  rfl

theorem bitAt_vcmpMask (h : Hw) (w : Work) (xs ys : List Nat) {i : Nat} (hi : i < v1R w * v1N w) :
    bitAt (vcmpMask h w xs ys) i = (cmpEl (v1Fmt w) (v1Sub w) (el (xs.getD (i / v1N w) 0) (v1Fmt w).bits (i % v1N w))
      (el (ys.getD (i / v1N w) 0) (v1Fmt w).bits (i % v1N w))).1 := by
  have len : ((vcmpEls w xs ys).map Prod.fst).length = v1R w * v1N w := by simp [vcmpEls]
  have lt := packBits_lt ((vcmpEls w xs ys).map Prod.fst)
  rw [len] at lt
  rw [bitAt, vcmpMask, Nat.add_comm, Nat.mul_comm, Nat.testBit_two_pow_mul_add _ lt, if_pos hi, testBit_packBits _ (by rw [len]; exact hi)]
  simp [vcmpEls]

theorem vselWork_eq (w : Work) (m : Mem) (h : Hw) : vselWork w m h =
    andThen (h.vread m w (w.vop 68) (v1R w) ((v1Fmt w).bits / 8 * v1N w) (v1Fmt w).align) (fun h xs =>
    andThen (h.vread m w (w.vop 56) (v1R w) ((v1Fmt w).bits / 8 * v1N w) (v1Fmt w).align) (fun h ys =>
    andThen (h.vread m w (w.vop 44) 1 (maskBytes (v1R w * v1N w)) 4) (fun h mask =>
      h.vwrite m w (w.vop 80) (v1Fmt w).align ((List.range (v1R w)).map (fun i => packElems (v1Fmt w).bits
        ((List.range (v1N w)).map (fun e => if bitAt (mask.getD 0 0) (i * v1N w + e)
          then el (xs.getD i 0) (v1Fmt w).bits e else el (ys.getD i 0) (v1Fmt w).bits e))))))) := by
  unfold vselWork
  dsimp only
  split <;> rename_i h1
  · rw [h1, andThen_error]
  rw [h1, andThen_ok]
  split <;> rename_i h2
  · rw [h2, andThen_error]
  rw [h2, andThen_ok]
  split <;> rename_i h3
  · rw [h3, andThen_error]
  rw [h3, andThen_ok]

theorem vredWork_eq (w : Work) (m : Mem) (h : Hw) : vredWork w m h =
    andThen (h.vread m w (w.vop 68) (v1R w) ((v1Fmt w).bits / 8 * v1N w) (v1Fmt w).align) (fun h xs =>
      (h.fpFlags w.k ((xs.map (fun x => redRow (v1Fmt w) (v1Sub w) ((List.range (v1N w)).map (el x (v1Fmt w).bits)))).foldl
        (fun a x => a.or x.2) FpFlags.none)).vwrite m w (w.vop 80) 4
        ((xs.map (fun x => redRow (v1Fmt w) (v1Sub w) ((List.range (v1N w)).map (el x (v1Fmt w).bits)))).map
          (fun x => leBytes 4 x.1))) := by
  unfold vredWork
  dsimp only
  split <;> rename_i h1
  · rw [h1, andThen_error]
  rw [h1, andThen_ok]

/-! ### VCVT -/

/-- The rounding of element `e` of row `i` of a VCVT (R57, R58). -/
def Work.cvtMode (w : Work) (i e : Nat) : Rnd :=
  rndMode (bitAt w.word 15) w.x.host.seed (w.x.img.valueOf w.w.lc w.w.lk (bitsAt w.word 2 12) w.fl.iters 48) (i * v1N w + e)

/-- The source and destination formats of a VCVT. -/
def Work.cvtSrc (w : Work) : Fmt := Fmt.get (bitsAt w.word 40 4)
def Work.cvtDst (w : Work) : Fmt := Fmt.get (bitsAt w.word 16 4)

/-- The value of an element that a VCVT reads, under the scale of its block of 32 where the source has scales. -/
def Work.cvtVal (w : Work) (xs ss : List Nat) (i e : Nat) : Val :=
  if w.cvtSrc.isMx then scaleVal (el (ss.getD i 0) 8 (e / 32)) (w.cvtSrc.decode (el (xs.getD i 0) w.cvtSrc.bits e))
  else w.cvtSrc.decode (el (xs.getD i 0) w.cvtSrc.bits e)

theorem Work.cvtVal_mx {w : Work} (e : w.cvtSrc.isMx = true) {xs : List Nat} {val : Nat → Nat → Val}
    (hval : ∀ i e, val i e = w.cvtSrc.decode (el (xs.getD i 0) w.cvtSrc.bits e)) (ss : List Nat) :
    w.cvtVal xs ss = fun i e => scaleVal (el (ss.getD i 0) 8 (e / 32)) (val i e) :=
  funext fun _ => funext fun _ => (if_pos e).trans (by rw [hval])
theorem Work.cvtVal_plain {w : Work} (e : w.cvtSrc.isMx = false) {xs : List Nat} {val : Nat → Nat → Val}
    (hval : ∀ i e, val i e = w.cvtSrc.decode (el (xs.getD i 0) w.cvtSrc.bits e)) (ss : List Nat) : w.cvtVal xs ss = val :=
  funext fun _ => funext fun _ => (if_neg (by rw [e]; decide)).trans (hval _ _).symm

/-- The end of a VCVT to a format without block scales. -/
def Hw.cvtPlain (h : Hw) (m : Mem) (w : Work) (val : Nat → Nat → Val) : Hw × Except Cond (List Edit) :=
  h.writeResults m w w.cvtDst.bits w.cvtDst.align ((List.range (v1R w)).map (fun i => (List.range (v1N w)).map (fun e =>
    cvtEl w.cvtSrc w.cvtDst (w.cvtMode i e) (bitAt w.word 14) (val i e))))

/-- The blocks of a VCVT to an MX format: the scale, the elements and the conditions of each (R56). -/
def Work.cvtBlocks (w : Work) (val : Nat → Nat → Val) : List (List (Nat × List Nat × FpFlags)) :=
  (List.range (v1R w)).map (fun i => (List.range (v1N w / 32)).map (fun b => mxBlock w.cvtDst (bitAt w.word 14)
    ((List.range 32).map (fun e => val i (32 * b + e))) ((List.range 32).map (fun e => w.cvtMode i (32 * b + e)))))

/-- The end of a VCVT to an MX format: elements, then scales. -/
def Hw.cvtMx (h : Hw) (m : Mem) (w : Work) (val : Nat → Nat → Val) : Hw × Except Cond (List Edit) :=
  andThen ((h.fpFlags w.k ((w.cvtBlocks val).foldl (fun a l => l.foldl (fun a b => a.or b.2.2) a) FpFlags.none)).vwrite m w
    (w.vop 80) 1 ((w.cvtBlocks val).map (fun l => packElems w.cvtDst.bits (l.flatMap (fun b => b.2.1))))) (fun h es =>
  andThen (h.vwrite m w (w.vop 44) 1 ((w.cvtBlocks val).map (fun l => l.map (fun b => BitVec.ofNat 8 b.1)))) (fun h fs =>
    (h, .ok (es ++ fs))))

/-- The end of a VCVT. -/
def Hw.cvtWrite (h : Hw) (m : Mem) (w : Work) (val : Nat → Nat → Val) : Hw × Except Cond (List Edit) :=
  if w.cvtDst.isMx then h.cvtMx m w val else h.cvtPlain m w val

theorem Hw.cvtWrite_mx {h : Hw} {m : Mem} {w : Work} {val : Nat → Nat → Val} (e : w.cvtDst.isMx = true) :
    h.cvtWrite m w val = h.cvtMx m w val := by
  rw [Hw.cvtWrite, if_pos e]
theorem Hw.cvtWrite_plain {h : Hw} {m : Mem} {w : Work} {val : Nat → Nat → Val} (e : w.cvtDst.isMx = false) :
    h.cvtWrite m w val = h.cvtPlain m w val := by
  rw [Hw.cvtWrite, if_neg (by rw [e]; decide)]

theorem vcvtWork_eq (w : Work) (m : Mem) (h : Hw) : vcvtWork w m h =
    andThen (h.vread m w (w.vop 68) (v1R w) ((v1N w * w.cvtSrc.bits + 7) / 8) w.cvtSrc.align) (fun h xs =>
    andThen (if w.cvtSrc.isMx then h.vread m w (w.vop 56) (v1R w) (v1N w / 32) 1 else (h, .ok [])) (fun h ss =>
      h.cvtWrite m w (w.cvtVal xs ss))) := by
  unfold vcvtWork
  dsimp only
  split <;> rename_i h1
  · exact (andThen_eq_error h1).symm
  refine Eq.trans ?_ (andThen_eq_ok h1).symm
  split <;> rename_i h2
  · exact (andThen_eq_error h2).symm
  refine Eq.trans ?_ (andThen_eq_ok h2).symm
  split <;> rename_i hd
  · rw [Hw.cvtWrite_mx hd]
    split <;> rename_i h3
    · exact (andThen_eq_error h3).symm
    refine Eq.trans ?_ (andThen_eq_ok h3).symm
    split <;> rename_i h4
    · exact (andThen_eq_error h4).symm
    · refine Eq.trans ?_ (andThen_eq_ok h4).symm
      rfl
  · rw [Hw.cvtWrite_plain (Bool.eq_false_iff.2 hd), mapRows_eq (by simp)]
    rfl

/-! ### VSMX, VROPE and VGATHER -/

/-- The end of a VSMX: p, and the new state in place (R82). -/
def Hw.smxWrite (h : Hw) (m : Mem) (w : Work) (sz : Nat) (rows : List (List Nat × Nat × Nat × Nat × FpFlags)) :
    Hw × Except Cond (List Edit) :=
  andThen ((h.fpFlags w.k (rows.foldl (fun a x => a.or x.2.2.2.2) FpFlags.none)).vwrite m w (w.vop 80) sz
    (rows.map (fun x => packElems (8 * sz) x.1))) (fun h es =>
  andThen (h.vwrite m w (w.vop 56) 4 (rows.map (fun x => leBytes 4 x.2.1 ++ leBytes 4 x.2.2.1 ++ leBytes 4 x.2.2.2.1)))
    (fun h fs => (h, .ok (es ++ fs))))

/-- The bytes of an element of p (R82). -/
def Work.smxSize (w : Work) : Nat := if bitsAt w.word 2 2 = 0 then 4 else if bitsAt w.word 2 2 = 1 then 2 else 1

/-- The rows of a VSMX: scores, state, and the scale and window (R81, R82). -/
def Work.smxRows (w : Work) (sc st pr : List Nat) : List (List Nat × Nat × Nat × Nat × FpFlags) :=
  (List.range (bitsAt w.word 6 7 + 1)).map (fun i => smxRow (bitsAt w.word 2 2) (bitsAt w.word 4 2) (el (pr.getD 0 0) 32 1)
    (w.x.img.valueOf w.w.lc w.w.lk (bitsAt w.word 32 12) w.fl.iters 24 + i)
    (w.x.img.valueOf w.w.lc w.w.lk (bitsAt w.word 20 12) w.fl.iters 24) (el (pr.getD 0 0) 32 0) (el (st.getD i 0) 32 0)
    (el (st.getD i 0) 32 1) ((List.range (64 * (bitsAt w.word 13 7 + 1))).map (el (sc.getD i 0) 32)))

theorem vsmxWork_eq (w : Work) (m : Mem) (h : Hw) : vsmxWork w m h =
    andThen (h.vread m w (w.vop 68) (bitsAt w.word 6 7 + 1) (4 * (64 * (bitsAt w.word 13 7 + 1))) 4) (fun h sc =>
    andThen (h.vread m w (w.vop 56) (bitsAt w.word 6 7 + 1) 16 4) (fun h st =>
    andThen (h.vread m w (w.vop 44) 1 8 4) (fun h pr => h.smxWrite m w w.smxSize (w.smxRows sc st pr)))) := by
  unfold vsmxWork
  dsimp only
  split <;> rename_i h1
  · exact (andThen_eq_error h1).symm
  refine Eq.trans ?_ (andThen_eq_ok h1).symm
  split <;> rename_i h2
  · exact (andThen_eq_error h2).symm
  refine Eq.trans ?_ (andThen_eq_ok h2).symm
  split <;> rename_i h3
  · exact (andThen_eq_error h3).symm
  refine Eq.trans ?_ (andThen_eq_ok h3).symm
  split <;> rename_i h4
  · exact (andThen_eq_error h4).symm
  refine Eq.trans ?_ (andThen_eq_ok h4).symm
  split <;> rename_i h5
  · exact (andThen_eq_error h5).symm
  · refine Eq.trans ?_ (andThen_eq_ok h5).symm
    rfl

/-- The position that the first row of a VROPE stands for (R83). -/
def Work.ropeStart (w : Work) : Nat := w.x.img.valueOf w.w.lc w.w.lk (bitsAt w.word 44 12) w.fl.iters 24

/-- The table of a VROPE: the frequencies where it computes its angles, else a row of cosines and sines for each position. -/
def Hw.ropeTable (h : Hw) (m : Mem) (w : Work) : Hw × Except Cond (List Nat) :=
  if bitAt w.word 18 then h.vread m w (w.vop 56) 1 (4 * (v1N w / 2)) 4
  else h.vread m w ⟨(w.vop 56).d, (w.vop 56).v + (w.ropeStart * (w.vop 56).d.stride : Nat)⟩ (v1R w) (8 * (v1N w / 2)) 4

/-- The cosine and sine of pair `j` of row `i` of a VROPE. -/
def Work.ropeAngle (w : Work) (ts : List Nat) (i j : Nat) : Nat × Nat :=
  if bitAt w.word 18 then trigEl (w.ropeStart + i) (el (ts.getD 0 0) 32 j)
  else (el (ts.getD i 0) 32 (2 * j), el (ts.getD i 0) 32 (2 * j + 1))

theorem Work.ropeAngle_computed {w : Work} (e : bitAt w.word 18 = true) (ts : List Nat) (i : Nat) :
    w.ropeAngle ts i = fun j => trigEl (w.ropeStart + i) (el (ts.getD 0 0) 32 j) := funext fun _ => if_pos e
theorem Work.ropeAngle_given {w : Work} (e : bitAt w.word 18 = false) (ts : List Nat) (i : Nat) :
    w.ropeAngle ts i = fun j => (el (ts.getD i 0) 32 (2 * j), el (ts.getD i 0) 32 (2 * j + 1)) :=
  funext fun _ => if_neg (by rw [e]; decide)

theorem length_ropeRow (f : Fmt) (half : Bool) (d row : Nat) (cs : Nat → Nat × Nat) : (ropeRow f half d row cs).length = d := by
  simp [ropeRow]

theorem vropeWork_eq (w : Work) (m : Mem) (h : Hw) : vropeWork w m h =
    andThen (h.vread m w (w.vop 68) (v1R w) ((v1Fmt w).bits / 8 * v1N w) (v1Fmt w).align) (fun h xs =>
    andThen (h.ropeTable m w) (fun h ts => h.writeResults m w (v1Fmt w).bits (v1Fmt w).align ((List.range (v1R w)).map (fun i =>
      ropeRow (v1Fmt w) (bitAt w.word 19) (v1N w) (xs.getD i 0) (w.ropeAngle ts i))))) := by
  unfold vropeWork
  dsimp only
  split <;> rename_i h1
  · exact (andThen_eq_error h1).symm
  refine Eq.trans ?_ (andThen_eq_ok h1).symm
  split <;> rename_i h2
  · exact (andThen_eq_error h2).symm
  refine Eq.trans ?_ (andThen_eq_ok h2).symm
  rw [mapRows_eq (by simp [length_ropeRow])]
  rfl

theorem Hw.accessed_readSlots {h : Hw} {m : Mem} {w : Work} {d : SlotDecl} : h.Accessed (h.readSlots m w d).1 := by
  unfold Hw.readSlots
  dsimp only
  split <;> rename_i h1 <;> exact (congrArg (fun q => h.Accessed q.1) h1).mp Hw.accessed_srcRow

theorem Hw.slotRows_cons (m : Mem) (w : Work) (o : VOp) (len : Nat) (h : Hw) (i : Nat) (is : List Nat) :
    Hw.slotRows m w o len h (i :: is) = andThen (if i = emptySlot then (h, .ok (List.replicate len 0)) else
        andThen (h.srcRow m w.x w.w (o.d.unit w.w.lc w.w.lk) (o.v + (i * o.d.stride : Nat), len)) (fun h p => (h, .ok (m.row p))))
      (fun h b => andThen (Hw.slotRows m w o len h is) (fun h bs => (h, .ok (b :: bs)))) := by
  rw [Hw.slotRows]
  by_cases hi : i = emptySlot
  · simp only [hi, if_true, andThen_ok]
    rcases Hw.slotRows m w o len h is with ⟨k, e | bs⟩ <;> rfl
  · simp only [hi, if_false]
    rcases Hw.srcRow m w.x w.w (o.d.unit w.w.lc w.w.lk) h (o.v + (i * o.d.stride : Nat), len) with ⟨g, e | p⟩
    · rfl
    dsimp only [andThen_ok]
    rcases Hw.slotRows m w o len g is with ⟨k, e | bs⟩ <;> rfl

theorem Hw.accessed_slotRows {m : Mem} {w : Work} {o : VOp} {len : Nat} (is : List Nat) (h : Hw) :
    h.Accessed (Hw.slotRows m w o len h is).1 := by
  induction is generalizing h with
  | nil => exact .refl h
  | cons i is ih =>
    rw [Hw.slotRows_cons]
    refine andThen_fst (P := h.Accessed) ?_ (fun g _ a => andThen_fst (P := h.Accessed) (a.trans (ih g)) (fun _ _ b => b))
    split
    · exact .refl h
    · exact andThen_fst (P := h.Accessed) Hw.accessed_srcRow (fun _ _ a => a)

/-- An empty slot reads as zeros (R84, R155). -/
theorem Hw.slotRows_emptySlot {m : Mem} {w : Work} {o : VOp} {len : Nat} {is : List Nat} {h g : Hw} {rows : List (List Byte)}
    (e : Hw.slotRows m w o len h is = (g, .ok rows)) {i : Nat} (empty : is[i]? = some emptySlot) :
    rows[i]? = some (List.replicate len 0) := by
  induction is generalizing h rows i with
  | nil => simp at empty
  | cons j js ih =>
    rw [Hw.slotRows_cons] at e
    rcases hj : (if j = emptySlot then (h, Except.ok (List.replicate len 0)) else
        andThen (Hw.srcRow m w.x w.w (o.d.unit w.w.lc w.w.lk) h (o.v + (j * o.d.stride : Nat), len))
          (fun h p => (h, .ok (m.row p)))) with ⟨k, c | b⟩ <;> rw [hj] at e
    · cases e
    rw [andThen_ok] at e
    rcases hs : Hw.slotRows m w o len k js with ⟨l, c | bs⟩ <;> rw [hs] at e
    · cases e
    cases e
    cases i with
    | zero =>
      obtain rfl : j = emptySlot := by simpa using empty
      rw [if_pos rfl] at hj
      cases hj
      rfl
    | succ i => exact ih hs (by simpa using empty)

/-- A gather from a table, up to the first slot out of range. -/
theorem vgatherWork_eq {w : Work} {d : SlotDecl} (slot : w.x.img.slot? (bitsAt w.word 56 12) = some d) (m : Mem) (h : Hw) :
    vgatherWork w m h = andThen (h.readSlots m w d) (fun h idx =>
      andThen (Hw.slotRows m w (w.vop 68) (4 * (bitsAt w.word 27 13 + 1)) h (idx.take ((badSlot d idx).getD idx.length)))
        (fun h rows => h.vwrite m w (w.vop 80) 1 rows)) := by
  unfold vgatherWork
  dsimp only
  rw [slot]
  dsimp only
  split <;> rename_i h1
  · exact (andThen_eq_error h1).symm
  refine Eq.trans ?_ (andThen_eq_ok h1).symm
  split <;> rename_i h2
  · exact (andThen_eq_error h2).symm
  · refine Eq.trans ?_ (andThen_eq_ok h2).symm
    rfl

theorem vgatherWork_noTable {w : Work} (slot : w.x.img.slot? (bitsAt w.word 56 12) = none) (m : Mem) (h : Hw) :
    vgatherWork w m h = (h, .ok []) := by
  unfold vgatherWork
  dsimp only
  rw [slot]

theorem Hw.accessed_vgatherWork {w : Work} {m : Mem} {h : Hw} : h.Accessed (vgatherWork w m h).1 := by
  cases slot : w.x.img.slot? (bitsAt w.word 56 12) with
  | none =>
    rw [vgatherWork_noTable slot]
    exact .refl h
  | some d =>
    rw [vgatherWork_eq slot]
    exact andThen_fst (P := h.Accessed) Hw.accessed_readSlots (fun g idx a =>
      andThen_fst (P := h.Accessed) (a.trans (Hw.accessed_slotRows _ g)) (fun k rows b => b.trans Hw.accessed_vwrite))

/-- The fault of a gather whose table holds an index out of range. -/
theorem vgatherBad_eq {w : Work} {d : SlotDecl} (slot : w.x.img.slot? (bitsAt w.word 56 12) = some d) {m : Mem} {h g : Hw}
    {q : Except Cond (List Nat)} (e : h.readSlots m w d = (g, q)) : vgatherBad w m h =
      q.toOption.bind (fun idx => (badSlot d idx).map (fun n => (d, n, idx.getD n 0))) := by
  unfold vgatherBad
  rw [slot]
  dsimp only
  rw [e]
  cases q <;> rfl

theorem vgatherEff_idle {r : StreamRef} {sn : Seen} {s : State} (e : s.hw.work r 0x37 = none) : vgatherEff r sn s = { hw := s.hw } := by
  unfold vgatherEff
  rw [e]
theorem vgatherEff_due {r : StreamRef} {sn : Seen} {s : State} {w : Work} (e : s.hw.work r 0x37 = some w)
    (ok : vgatherBad w (s.mem.seen sn) (s.hw.seen sn) = none) : vgatherEff r sn s = engineEff r 0x37 sn s vgatherWork := by
  unfold vgatherEff
  rw [e]
  dsimp only
  rw [ok]

/-- The hardware of a gather that faults: a free value chooses how much it wrote. -/
def Hw.gatherStart (h : Hw) : Hw := { h with free := h.free + 1 }
/-- The part of a gather that was written before its fault. -/
def Hw.gatherPart (h : Hw) (q : Except Cond (List Edit)) : List Edit :=
  match q with
  | .ok es => es.take (h.takeFree.1 % (es.length + 1))
  | .error _ => []

theorem vgatherEff_bad {r : StreamRef} {sn : Seen} {s : State} {w : Work} (e : s.hw.work r 0x37 = some w) {d : SlotDecl} {n i : Nat}
    (bad : vgatherBad w (s.mem.seen sn) (s.hw.seen sn) = some (d, n, i)) : vgatherEff r sn s =
      { hw := (vgatherWork w (s.mem.seen sn) (s.hw.seen sn).gatherStart).1.workFault w ⟨dSlotRange, slotArgs d n i⟩
        edits := seenEdits sn ++ (s.hw.seen sn).gatherPart (vgatherWork w (s.mem.seen sn) (s.hw.seen sn).gatherStart).2 } := by
  unfold vgatherEff
  rw [e]
  dsimp only
  rw [bad]
  rfl

/-! ### What each instruction leaves alone -/

theorem only_elementwise (los : List Nat) (f : Fmt → List Nat → ElRes) (w : Work) (m : Mem) (h : Hw) :
    h.Only accessParts (elementwise los f w m h).1 := by
  rw [elementwise_eq]
  exact andThen_fst (P := h.Only accessParts) (Hw.accessed_vreadAll los h).only (fun _ _ a => a.trans Hw.only_writeResults)

theorem only_vsclWork (w : Work) (m : Mem) (h : Hw) : h.Only accessParts (vsclWork w m h).1 := by
  rw [vsclWork_eq]
  exact andThen_fst (P := h.Only accessParts) Hw.accessed_vread.only (fun _ _ a =>
    andThen_fst (P := h.Only accessParts) (a.trans Hw.accessed_vread.only) (fun _ _ b => b.trans Hw.only_writeResults))

/-- Conditions set flags, and the results that follow are written. -/
theorem Hw.only_flagged_vwrite {h : Hw} {m : Mem} {w : Work} {fl : FpFlags} {o : VOp} {al : Nat} {rows : List (List Byte)} :
    h.Only accessParts ((h.fpFlags w.k fl).vwrite m w o al rows).1 :=
  (Hw.only_fpFlags.mono (by decide)).trans Hw.accessed_vwrite.only

theorem Hw.only_tailFree (h : Hw) (m : Nat) : h.Only [.free] (h.tailFree m).2 := by
  unfold Hw.tailFree
  split
  · exact .refl _ h
  · exact fun p hp => by cases p <;> first | rfl | simp at hp

theorem only_vcmpWork (w : Work) (m : Mem) (h : Hw) : h.Only (.free :: accessParts) (vcmpWork w m h).1 := by
  have wide {k l : Hw} (a : k.Only accessParts l) : k.Only (.free :: accessParts) l := a.mono (fun p hp => .tail _ hp)
  rw [vcmpWork_eq]
  exact andThen_fst (P := h.Only (.free :: accessParts)) (wide Hw.accessed_vread.only) (fun _ _ a =>
    andThen_fst (P := h.Only (.free :: accessParts)) (a.trans (wide Hw.accessed_vread.only)) (fun g _ b =>
      (b.trans ((g.only_tailFree _).mono (by simp))).trans (wide Hw.only_flagged_vwrite)))

theorem only_vselWork (w : Work) (m : Mem) (h : Hw) : h.Only accessParts (vselWork w m h).1 := by
  rw [vselWork_eq]
  exact andThen_fst (P := h.Only accessParts) Hw.accessed_vread.only (fun _ _ a =>
    andThen_fst (P := h.Only accessParts) (a.trans Hw.accessed_vread.only) (fun _ _ b =>
      andThen_fst (P := h.Only accessParts) (b.trans Hw.accessed_vread.only) (fun _ _ c => c.trans Hw.accessed_vwrite.only)))

theorem only_vredWork (w : Work) (m : Mem) (h : Hw) : h.Only accessParts (vredWork w m h).1 := by
  rw [vredWork_eq]
  exact andThen_fst (P := h.Only accessParts) Hw.accessed_vread.only (fun _ _ a => a.trans Hw.only_flagged_vwrite)

theorem Hw.only_cvtWrite (h : Hw) (m : Mem) (w : Work) (val : Nat → Nat → Val) : h.Only accessParts (h.cvtWrite m w val).1 := by
  unfold Hw.cvtWrite
  split
  · exact andThen_fst (P := h.Only accessParts) Hw.only_flagged_vwrite (fun _ _ a =>
      andThen_fst (P := h.Only accessParts) (a.trans Hw.accessed_vwrite.only) (fun _ _ b => b))
  · exact Hw.only_writeResults

theorem only_vcvtWork (w : Work) (m : Mem) (h : Hw) : h.Only accessParts (vcvtWork w m h).1 := by
  rw [vcvtWork_eq]
  refine andThen_fst (P := h.Only accessParts) Hw.accessed_vread.only (fun g _ a =>
    andThen_fst (P := h.Only accessParts) (a.trans ?_) (fun k _ b => b.trans (k.only_cvtWrite _ _ _)))
  split
  · exact Hw.accessed_vread.only
  · exact .refl _ g

theorem only_vsmxWork (w : Work) (m : Mem) (h : Hw) : h.Only accessParts (vsmxWork w m h).1 := by
  rw [vsmxWork_eq]
  exact andThen_fst (P := h.Only accessParts) Hw.accessed_vread.only (fun _ _ a =>
    andThen_fst (P := h.Only accessParts) (a.trans Hw.accessed_vread.only) (fun _ _ b =>
      andThen_fst (P := h.Only accessParts) (b.trans Hw.accessed_vread.only) (fun _ _ c =>
        andThen_fst (P := h.Only accessParts) (c.trans Hw.only_flagged_vwrite) (fun _ _ d =>
          andThen_fst (P := h.Only accessParts) (d.trans Hw.accessed_vwrite.only) (fun _ _ e => e)))))

theorem only_vropeWork (w : Work) (m : Mem) (h : Hw) : h.Only accessParts (vropeWork w m h).1 := by
  rw [vropeWork_eq]
  refine andThen_fst (P := h.Only accessParts) Hw.accessed_vread.only (fun g _ a =>
    andThen_fst (P := h.Only accessParts) (a.trans ?_) (fun _ _ b => b.trans Hw.only_writeResults))
  unfold Hw.ropeTable
  split
  · exact Hw.accessed_vread.only
  · exact Hw.accessed_vread.only

/-! ### The frame of every vector instruction -/

/-- What a vector instruction's row leaves alone, and how it ends. -/
def VectorRow (r : StreamRef) (opc : Nat) (s t : State) : Prop :=
  t.pending = s.pending ∧ t.fuses = s.fuses ∧
    s.hw.Only [.regs, .free, .ctxs, .hbm, .xcl, .host, .ccl, .logs, .hist, .out] t.hw ∧
    (opc ≠ 0x2A → opc ≠ 0x37 → t.hw.free = s.hw.free) ∧ (s.hw.work r opc = none → t = s) ∧
    ∀ w, s.hw.work r opc = some w → StreamAlone s t w.w.c (keyOf r) ∧ (Executed t w ∨ ∃ d, Raised s t w.w.c d)

theorem vectorRow_idle {r : StreamRef} {opc : Nat} {s : State} (e : s.hw.work r opc = none) :
    VectorRow r opc s (s.commit { hw := s.hw }) :=
  ⟨rfl, rfl, .refl _ _, fun _ _ => rfl, fun _ => rfl, fun w hw => by rw [e] at hw; cases hw⟩

/-- A due vector instruction keeps to its own parts, whatever parts `ps` its own effect touches. -/
theorem vectorRow_due {r : StreamRef} {opc : Nat} {sn : Seen} {s t : State} {w : Work} {q : Hw × Except Cond (List Edit)}
    {ps : List Part} (e : s.hw.work r opc = some w) (run : Run s t sn w q) (fuses : t.fuses = s.fuses)
    (frame : (s.hw.seen sn).Only ps q.1) (sub : ∀ p ∈ ps, p ∈ Part.free :: accessParts)
    (free : opc ≠ 0x2A → opc ≠ 0x37 → Part.free ∉ ps) : VectorRow r opc s t := by
  have seen := s.hw.accessed_seen sn
  have going : w.Going s.hw q.1 := (run.due.going.accessed seen).of_only frame (fun h => absurd (sub _ h) (by decide))
    (fun h => absurd (sub _ h) (by decide))
  have wide : ∀ p ∈ Part.free :: accessParts, p ∈ [Part.regs, .free, .ctxs, .hbm, .xcl, .host, .ccl, .logs, .hist, .out] := by decide
  refine ⟨by rw [run.eq]; rfl, fuses, ?_, fun h1 h2 => ?_, fun none => ?_, fun w' hw' => ?_⟩
  · exact ((seen.only.mono (by decide)).trans (frame.mono (fun p hp => wide p (sub p hp)))).trans (run.kept.mono (by decide))
  · exact ((seen.only .free (by decide)).trans (frame .free (free h1 h2))).trans (run.kept .free (by decide))
  · rw [e] at none
    cases none
  · obtain rfl := Option.some.inj (e.symm.trans hw')
    rw [← Hw.work_key e]
    exact run.ends going

/-- The row of a vector instruction whose own effect touches the parts `ps`. -/
theorem vectorRow {r : StreamRef} {opc : Nat} {sn : Seen} {s : State} {f : Work → Mem → Hw → Hw × Except Cond (List Edit)}
    {ps : List Part} (frame : ∀ w m h, Hw.Only ps h (f w m h).1) (sub : ∀ p ∈ ps, p ∈ Part.free :: accessParts)
    (free : opc ≠ 0x2A → opc ≠ 0x37 → Part.free ∉ ps) : VectorRow r opc s (s.commit (engineEff r opc sn s f)) := by
  cases e : s.hw.work r opc with
  | none =>
    rw [engineEff_idle e]
    exact vectorRow_idle e
  | some w => exact vectorRow_due e (run_engineEff e) (by rw [State.commit_fuses, engineEff_burn]; rfl) (frame _ _ _) sub free

/-- The row of a vector instruction that takes no free value. -/
theorem vectorRow_access {r : StreamRef} {opc : Nat} {sn : Seen} {s : State} {f : Work → Mem → Hw → Hw × Except Cond (List Edit)}
    (frame : ∀ w m h, Hw.Only accessParts h (f w m h).1) : VectorRow r opc s (s.commit (engineEff r opc sn s f)) :=
  vectorRow frame (by decide) (fun _ _ => by decide)

theorem Hw.only_gatherStart (h : Hw) : h.Only [.free] h.gatherStart := fun p hp => by cases p <;> first | rfl | simp at hp

/-- The hardware after a gather that faults. -/
theorem run_gatherBad {s : State} {sn : Seen} {w : Work} (due : w.Due s.hw) (e : Cond) :
    Run s (s.commit (w.outcome sn ((vgatherWork w (s.mem.seen sn) (s.hw.seen sn).gatherStart).1, .error e))) sn w
      ((vgatherWork w (s.mem.seen sn) (s.hw.seen sn).gatherStart).1, .error e) := ⟨due, rfl⟩

theorem vectorRow_vgather (r : StreamRef) (sn : Seen) (s : State) : VectorRow r 0x37 s (s.commit (vgatherEff r sn s)) := by
  cases e : s.hw.work r 0x37 with
  | none =>
    rw [vgatherEff_idle e]
    exact vectorRow_idle e
  | some w =>
    cases bad : vgatherBad w (s.mem.seen sn) (s.hw.seen sn) with
    | none =>
      rw [vgatherEff_due e bad]
      exact vectorRow_access (fun _ _ _ => Hw.accessed_vgatherWork.only)
    | some q =>
      obtain ⟨d, n, i⟩ := q
      rw [vgatherEff_bad e bad]
      have frame : (s.hw.seen sn).Only (.free :: accessParts) (vgatherWork w (s.mem.seen sn) (s.hw.seen sn).gatherStart).1 :=
        ((s.hw.seen sn).only_gatherStart.mono (by decide)).trans (Hw.accessed_vgatherWork.only.mono (by decide))
      obtain ⟨-, -, only, free, -, ends⟩ := vectorRow_due e (run_gatherBad (Hw.work_due e).1 ⟨dSlotRange, slotArgs d n i⟩) rfl frame
        (fun _ hp => hp) (fun _ h => absurd rfl h)
      exact ⟨rfl, rfl, only, free, fun none => absurd (e.symm.trans none) (by simp), ends⟩

/-! ## The effect of each instruction -/

section
variable {s t : State} {sn : Seen} {w : Work}

theorem Run.seen {q : Hw × Except Cond (List Edit)} (run : Run s t sn w q) : w.Going s.hw (s.hw.seen sn) :=
  run.due.going.accessed (s.hw.accessed_seen sn)

theorem Run.elementwise {los : List Nat} {f : Fmt → List Nat → ElRes} {fmt : Fmt} {n : Nat}
    (run : Run s t sn w (elementwise los f w (s.mem.seen sn) (s.hw.seen sn))) (hf : fmt = v1Fmt w) (hn : n = v1N w) :
    LoadedAll s t sn w (v1R w) (fmt.bits / 8 * n) fmt.align los (s.hw.seen sn) (fun g srcs =>
      ∀ els rows fl, els = (List.range (v1R w)).map (fun i => (List.range n).map (fun e =>
          f fmt (srcs.map (fun x => el (x.getD i 0) fmt.bits e)))) →
        rows = packRows fmt.bits els → fl = raisedBy els →
        Written s t sn w (g.fpFlags w.k fl) [(w.vop 80, fmt.align, rows)] [] ∧
        (w.x.InRange → w.k < 576 → sn = Seen.clean → Executed t w → Flagged s t w.k fl)) := by
  subst hf hn
  have start := run.seen
  rw [elementwise_eq] at run
  refine run.loadedAll start (fun g srcs acc going run => ?_)
  rintro _ _ _ rfl rfl rfl
  exact ⟨run.written_results going, fun _ hk _ ex => run.flagged ((s.hw.accessed_seen sn).trans acc) hk ex⟩

theorem Run.vscl (run : Run s t sn w (vsclWork w (s.mem.seen sn) (s.hw.seen sn))) :
    Loaded s t sn w (s.hw.seen sn) (w.vop 68) (v1R w) ((v1Fmt w).bits / 8 * v1N w) (v1Fmt w).align (fun g xs =>
      Loaded s t sn w g (w.vop 56) 1 ((v1Fmt w).bits / 8) (v1Fmt w).align (fun g ts =>
        ∀ els fl, els = xs.map (fun x => (List.range (v1N w)).map (fun e =>
            fpMul (v1Fmt w) (el x (v1Fmt w).bits e) (ts.getD 0 0))) → fl = raisedBy els →
          Written s t sn w (g.fpFlags w.k fl) [(w.vop 80, (v1Fmt w).align, packRows (v1Fmt w).bits els)] [])) := by
  have start := run.seen
  rw [vsclWork_eq] at run
  refine run.loaded start (fun g xs _ going run => run.loaded going (fun g ts _ going run => ?_))
  rintro _ _ rfl rfl
  exact run.written_results going

theorem Run.vcmp (run : Run s t sn w (vcmpWork w (s.mem.seen sn) (s.hw.seen sn))) {m : Nat} (hm : m = v1R w * v1N w) :
    Loaded s t sn w (s.hw.seen sn) (w.vop 68) (v1R w) ((v1Fmt w).bits / 8 * v1N w) (v1Fmt w).align (fun g xs =>
      Loaded s t sn w g (w.vop 56) (v1R w) ((v1Fmt w).bits / 8 * v1N w) (v1Fmt w).align (fun g ys =>
        ∃ mask g', (m % 32 = 0 → g' = g) ∧ (m % 32 ≠ 0 → g' = { g with free := g.free + 1 }) ∧
          (∀ i, i < m → bitAt mask i = (cmpEl (v1Fmt w) (v1Sub w) (el (xs.getD (i / v1N w) 0) (v1Fmt w).bits (i % v1N w))
            (el (ys.getD (i / v1N w) 0) (v1Fmt w).bits (i % v1N w))).1) ∧
          ∀ fl, fl = ((List.range m).map (fun i => (cmpEl (v1Fmt w) (v1Sub w)
              (el (xs.getD (i / v1N w) 0) (v1Fmt w).bits (i % v1N w))
              (el (ys.getD (i / v1N w) 0) (v1Fmt w).bits (i % v1N w))).2)).foldl FpFlags.or FpFlags.none →
            Written s t sn w (g'.fpFlags w.k fl) [(w.vop 80, 4, [leBytes (maskBytes m) mask])] [])) := by
  subst hm
  have start := run.seen
  rw [vcmpWork_eq] at run
  refine run.loaded start (fun g xs _ going run => run.loaded going (fun g ys _ going run => ?_))
  refine ⟨vcmpMask g w xs ys, (g.tailFree (v1R w * v1N w)).2, fun h => ?_, fun h => ?_, fun i hi => bitAt_vcmpMask g w xs ys hi, ?_⟩
  · rw [Hw.tailFree, if_pos h]
  · rw [Hw.tailFree, if_neg h]
    rfl
  rintro _ rfl
  rw [vcmpEls, List.foldl_map] at run
  rw [List.foldl_map]
  exact run.written_one ((going.of_only (g.only_tailFree _) (by decide) (by decide)).of_only Hw.only_fpFlags (by decide) (by decide))

theorem Run.vsel (run : Run s t sn w (vselWork w (s.mem.seen sn) (s.hw.seen sn))) :
    Loaded s t sn w (s.hw.seen sn) (w.vop 68) (v1R w) ((v1Fmt w).bits / 8 * v1N w) (v1Fmt w).align (fun g xs =>
      Loaded s t sn w g (w.vop 56) (v1R w) ((v1Fmt w).bits / 8 * v1N w) (v1Fmt w).align (fun g ys =>
        Loaded s t sn w g (w.vop 44) 1 (maskBytes (v1R w * v1N w)) 4 (fun g mask =>
          Written s t sn w g [(w.vop 80, (v1Fmt w).align, (List.range (v1R w)).map (fun i =>
            packElems (v1Fmt w).bits ((List.range (v1N w)).map (fun e => if bitAt (mask.getD 0 0) (i * v1N w + e)
              then el (xs.getD i 0) (v1Fmt w).bits e else el (ys.getD i 0) (v1Fmt w).bits e))))] []))) := by
  have start := run.seen
  rw [vselWork_eq] at run
  exact run.loaded start (fun g xs _ going run => run.loaded going (fun g ys _ going run => run.loaded going (fun g mask _ going run =>
    run.written_one going)))

theorem Run.vred (run : Run s t sn w (vredWork w (s.mem.seen sn) (s.hw.seen sn))) :
    Loaded s t sn w (s.hw.seen sn) (w.vop 68) (v1R w) ((v1Fmt w).bits / 8 * v1N w) (v1Fmt w).align (fun g xs =>
      ∀ rs, rs = xs.map (fun x => redRow (v1Fmt w) (v1Sub w) ((List.range (v1N w)).map (el x (v1Fmt w).bits))) →
        Written s t sn w (g.fpFlags w.k (rs.foldl (fun a x => a.or x.2) FpFlags.none))
          [(w.vop 80, 4, rs.map (fun x => leBytes 4 x.1))] []) := by
  have start := run.seen
  rw [vredWork_eq] at run
  refine run.loaded start (fun g xs _ going run => ?_)
  rintro _ rfl
  exact run.written_one (going.of_only Hw.only_fpFlags (by decide) (by decide))

theorem Run.cvtPlain {g : Hw} {val : Nat → Nat → Val} (run : Run s t sn w (g.cvtWrite (s.mem.seen sn) w val))
    (going : w.Going s.hw g) (plain : w.cvtDst.isMx = false) {els : List (List ElRes)}
    (eq : els = (List.range (v1R w)).map (fun i => (List.range (v1N w)).map (fun e =>
      cvtEl w.cvtSrc w.cvtDst (w.cvtMode i e) (bitAt w.word 14) (val i e)))) :
    Written s t sn w (g.fpFlags w.k (raisedBy els)) [(w.vop 80, w.cvtDst.align, packRows w.cvtDst.bits els)] [] := by
  subst eq
  rw [Hw.cvtWrite_plain plain] at run
  exact run.written_results going

theorem Run.cvtMx {g : Hw} {val : Nat → Nat → Val} (run : Run s t sn w (g.cvtWrite (s.mem.seen sn) w val))
    (going : w.Going s.hw g) (mx : w.cvtDst.isMx = true) {blocks : List (List (Nat × List Nat × FpFlags))}
    (eq : blocks = w.cvtBlocks val) :
    Written s t sn w (g.fpFlags w.k (blocks.foldl (fun a l => l.foldl (fun a b => a.or b.2.2) a) FpFlags.none))
      [(w.vop 80, 1, blocks.map (fun l => packElems w.cvtDst.bits (l.flatMap (fun b => b.2.1)))),
       (w.vop 44, 1, blocks.map (fun l => l.map (fun b => BitVec.ofNat 8 b.1)))] [] := by
  subst eq
  rw [Hw.cvtWrite_mx mx] at run
  exact run.written_two (going.of_only Hw.only_fpFlags (by decide) (by decide))

/-- What a VCVT does after it has read its elements. -/
theorem Run.vcvt (run : Run s t sn w (vcvtWork w (s.mem.seen sn) (s.hw.seen sn))) :
    Loaded s t sn w (s.hw.seen sn) (w.vop 68) (v1R w) ((v1N w * w.cvtSrc.bits + 7) / 8) w.cvtSrc.align (fun g xs =>
      (w.cvtSrc.isMx = false → w.Going s.hw g ∧ Run s t sn w (g.cvtWrite (s.mem.seen sn) w (w.cvtVal xs []))) ∧
      (w.cvtSrc.isMx = true → ∀ k : Hw → List Nat → Prop,
        (∀ g ss, w.Going s.hw g → Run s t sn w (g.cvtWrite (s.mem.seen sn) w (w.cvtVal xs ss)) → k g ss) →
        Loaded s t sn w g (w.vop 56) (v1R w) (v1N w / 32) 1 k)) := by
  have start := run.seen
  rw [vcvtWork_eq] at run
  refine run.loaded start (fun g xs _ going run => ⟨fun plain => ?_, fun mx k next => ?_⟩)
  · rw [plain, if_neg (by decide), andThen_ok] at run
    exact ⟨going, run⟩
  · rw [if_pos mx] at run
    exact run.loaded going (fun g ss _ going run => next g ss going run)

theorem Run.vsmx (run : Run s t sn w (vsmxWork w (s.mem.seen sn) (s.hw.seen sn))) :
    Loaded s t sn w (s.hw.seen sn) (w.vop 68) (bitsAt w.word 6 7 + 1) (4 * (64 * (bitsAt w.word 13 7 + 1))) 4 (fun g sc =>
      Loaded s t sn w g (w.vop 56) (bitsAt w.word 6 7 + 1) 16 4 (fun g st =>
        Loaded s t sn w g (w.vop 44) 1 8 4 (fun g pr => ∀ rows, rows = w.smxRows sc st pr →
          Written s t sn w (g.fpFlags w.k (rows.foldl (fun a x => a.or x.2.2.2.2) FpFlags.none))
            [(w.vop 80, w.smxSize, rows.map (fun x => packElems (8 * w.smxSize) x.1)),
             (w.vop 56, 4, rows.map (fun x => leBytes 4 x.2.1 ++ leBytes 4 x.2.2.1 ++ leBytes 4 x.2.2.2.1))] []))) := by
  have start := run.seen
  rw [vsmxWork_eq] at run
  refine run.loaded start (fun g sc _ going run => run.loaded going (fun g st _ going run => run.loaded going
    (fun g pr _ going run => ?_)))
  rintro _ rfl
  exact run.written_two (going.of_only Hw.only_fpFlags (by decide) (by decide))

/-- What a VROPE does after it has read its elements, from either kind of table. -/
theorem Run.vrope (run : Run s t sn w (vropeWork w (s.mem.seen sn) (s.hw.seen sn))) :
    Loaded s t sn w (s.hw.seen sn) (w.vop 68) (v1R w) ((v1Fmt w).bits / 8 * v1N w) (v1Fmt w).align (fun g xs =>
      ∀ o n len, g.ropeTable (s.mem.seen sn) w = g.vread (s.mem.seen sn) w o n len 4 →
        Loaded s t sn w g o n len 4 (fun g ts => ∀ els, els = (List.range (v1R w)).map (fun i =>
            ropeRow (v1Fmt w) (bitAt w.word 19) (v1N w) (xs.getD i 0) (w.ropeAngle ts i)) →
          Written s t sn w (g.fpFlags w.k (raisedBy els)) [(w.vop 80, (v1Fmt w).align, packRows (v1Fmt w).bits els)] [])) := by
  have start := run.seen
  rw [vropeWork_eq] at run
  refine run.loaded start (fun g xs _ going run => fun o n len table => ?_)
  rw [table] at run
  refine run.loaded going (fun g ts _ going run => ?_)
  rintro _ rfl
  exact run.written_results going

theorem Loaded.imp {h : Hw} {o : VOp} {n len al : Nat} {k l : Hw → List Nat → Prop} (a : Loaded s t sn w h o n len al k)
    (e : ∀ g xs, k g xs → l g xs) : Loaded s t sn w h o n len al l := fun g => ⟨(a g).1, fun xs hq => e g xs ((a g).2 xs hq)⟩

end

/-! ### VGATHER -/

theorem gather_bad {r : StreamRef} {sn : Seen} {s : State} {w : Work} (e : s.hw.work r 0x37 = some w) {d : SlotDecl} {n i : Nat}
    (bad : vgatherBad w (s.mem.seen sn) (s.hw.seen sn) = some (d, n, i)) :
    Raised s (s.commit (vgatherEff r sn s)) w.w.c dSlotRange := by
  have due := (Hw.work_due e).1
  have going : w.Going s.hw (vgatherWork w (s.mem.seen sn) (s.hw.seen sn).gatherStart).1 :=
    ((due.going.accessed (s.hw.accessed_seen sn)).of_only (Hw.only_gatherStart _) (by decide) (by decide)).accessed
      Hw.accessed_vgatherWork
  rw [vgatherEff_bad e bad]
  exact (going.raised (e := ⟨dSlotRange, slotArgs d n i⟩) due (State.commit_hw _ _)).1

/-- What a gather that faults has written lies in its destination rows. -/
theorem gather_part {r : StreamRef} {sn : Seen} {s : State} {w : Work} (e : s.hw.work r 0x37 = some w) {d : SlotDecl} {n i : Nat}
    (bad : vgatherBad w (s.mem.seen sn) (s.hw.seen sn) = some (d, n, i)) {g : Hw} {ps : List Place} {rows : List (List Byte)}
    (eq : vgatherWork w (s.mem.seen sn) (s.hw.seen sn).gatherStart = (g, .ok (storeRows (s.mem.seen sn) (ps.zip rows)))) :
    s.mem.But (ps.flatMap (·.segs)) (s.commit (vgatherEff r sn s)).mem := by
  intro q hq
  rw [vgatherEff_bad e bad, eq, State.commit_mem, Mem.edit_append, Mem.edit_seenEdits, Mem.read_edit_spared, Mem.read_seen]
  intro x hx
  refine (storesRows_storeRows (s.mem.seen sn) (ps.zip rows)).spares (fun a ha => ?_) x (List.mem_of_mem_take hx)
  obtain ⟨p, hp, ha⟩ := List.mem_flatMap.1 ha
  exact hq a (List.mem_flatMap.2 ⟨p.1, (List.of_mem_zip hp).1, ha⟩)

theorem VOp.aligned_one {o : VOp} {rows : List (List Byte)} :
    ¬ (o.v % (1 : Nat) ≠ 0 ∨ (1 < rows.length ∧ o.d.stride % 1 ≠ 0)) := by
  simp [Nat.mod_one]

/-- The effect of VGATHER (R84, R155). -/
theorem vgather_row {r : StreamRef} {sn : Seen} {s : State} {w : Work} (e : s.hw.work r 0x37 = some w) {len : Nat}
    (hlen : len = 4 * (bitsAt w.word 27 13 + 1)) {d : SlotDecl} (slot : w.x.img.slot? (bitsAt w.word 56 12) = some d) (g : Hw) :
    (∀ c, (s.hw.seen sn).readSlots (s.mem.seen sn) w d = (g, .error c) → Stops s (s.commit (vgatherEff r sn s)) w c.detail) ∧
    ∀ idx : List Nat, (s.hw.seen sn).readSlots (s.mem.seen sn) w d = (g, .ok idx) →
      (∀ n, badSlot d idx = some n → Raised s (s.commit (vgatherEff r sn s)) w.w.c dSlotRange ∧ ∀ h0 g1 g2 g3 rows ps,
        h0 = { s.hw.seen sn with free := s.hw.free + 1 } → h0.readSlots (s.mem.seen sn) w d = (g1, .ok idx) →
        Hw.slotRows (s.mem.seen sn) w (w.vop 68) len g1 (idx.take n) = (g2, .ok rows) →
        g2.dstRows (s.mem.seen sn) w.x w.w ((w.vop 80).d.unit w.w.lc w.w.lk) ((w.vop 80).rows rows) = (g3, .ok ps) →
        s.mem.But (ps.flatMap (·.segs)) (s.commit (vgatherEff r sn s)).mem) ∧
      (badSlot d idx = none → ∀ g',
        (∀ c, Hw.slotRows (s.mem.seen sn) w (w.vop 68) len g idx = (g', .error c) →
          Stops s (s.commit (vgatherEff r sn s)) w c.detail) ∧
        ∀ rows : List (List Byte), Hw.slotRows (s.mem.seen sn) w (w.vop 68) len g idx = (g', .ok rows) →
          (∀ i : Nat, idx[i]? = some emptySlot → rows[i]? = some (List.replicate len 0)) ∧
          Written s (s.commit (vgatherEff r sn s)) sn w g' [(w.vop 80, 1, rows)] []) := by
  subst hlen
  have start := (Hw.work_due e).1.going.accessed (s.hw.accessed_seen sn)
  have slots := Hw.accessed_readSlots (h := s.hw.seen sn) (m := s.mem.seen sn) (w := w) (d := d)
  have run := run_engineEff (sn := sn) (f := vgatherWork) e
  rw [vgatherWork_eq slot] at run
  refine ⟨fun c hq => ?_, fun idx hq => ⟨fun n hn => ?_, fun hn g' => ?_⟩⟩ <;> rw [hq] at run slots
  · rw [vgatherEff_due e (vgatherBad_eq slot hq)]
    exact run.stops (start.accessed slots)
  · have bad : vgatherBad w (s.mem.seen sn) (s.hw.seen sn) = some (d, n, idx.getD n 0) := by
      rw [vgatherBad_eq slot hq]
      simp [Except.toOption, hn]
    refine ⟨gather_bad e bad, fun h0 g1 g2 g3 rows ps h0eq slots1 rows2 dst3 => gather_part e bad (g := g3) (rows := rows) ?_⟩
    obtain rfl : h0 = (s.hw.seen sn).gatherStart := by
      rw [h0eq, Hw.gatherStart, (s.hw.accessed_seen sn).only .free (by decide)]
    rw [vgatherWork_eq slot, slots1, andThen_ok, hn, Option.getD_some, rows2, andThen_ok, Hw.vwrite_aligned VOp.aligned_one, dst3,
      andThen_ok]
  · rw [vgatherEff_due e (by rw [vgatherBad_eq slot hq]; simp [Except.toOption, hn])]
    rw [andThen_ok, hn, Option.getD_none, List.take_length] at run
    have acc := Hw.accessed_slotRows (m := s.mem.seen sn) (w := w) (o := w.vop 68) (len := 4 * (bitsAt w.word 27 13 + 1)) idx g
    refine ⟨fun c hr => ?_, fun rows hr => ⟨fun i hi => Hw.slotRows_emptySlot hr hi, ?_⟩⟩ <;> rw [hr] at run acc
    · exact run.stops ((start.accessed slots).accessed acc)
    · exact run.written_one ((start.accessed slots).accessed acc)

/-- Settles O58: each instruction's own effect is a chain of reads and writes of whole operands, each of which may meet a condition;
the row around it marks the instruction or faults its context. -/
theorem vectorEngine : Obligations.VectorEngine := by
  intro r sn s
  refine ⟨?_, ?_, ?_, ?_, ?_, ?_, ?_, ?_, ?_, ?_⟩
  · simp only [List.forall_mem_cons]
    exact ⟨⟨_, rfl, vectorRow_access (only_elementwise _ _)⟩, ⟨_, rfl, vectorRow_access (only_elementwise _ _)⟩,
      ⟨_, rfl, vectorRow_access (only_elementwise _ _)⟩, ⟨_, rfl, vectorRow_access (only_elementwise _ _)⟩,
      ⟨_, rfl, vectorRow_access (only_elementwise _ _)⟩, ⟨_, rfl, vectorRow_access (only_elementwise _ _)⟩,
      ⟨_, rfl, vectorRow_access (only_elementwise _ _)⟩, ⟨_, rfl, vectorRow_access (only_elementwise _ _)⟩,
      ⟨_, rfl, vectorRow_access (only_elementwise _ _)⟩, ⟨_, rfl, vectorRow_access only_vsclWork⟩,
      ⟨_, rfl, vectorRow only_vcmpWork (fun _ hp => hp) (fun h => absurd rfl h)⟩, ⟨_, rfl, vectorRow_access only_vselWork⟩,
      ⟨_, rfl, vectorRow_access only_vredWork⟩, ⟨_, rfl, vectorRow_access (only_elementwise _ _)⟩,
      ⟨_, rfl, vectorRow_access (only_elementwise _ _)⟩, ⟨_, rfl, vectorRow_access (only_elementwise _ _)⟩,
      ⟨_, rfl, vectorRow_access only_vcvtWork⟩, ⟨_, rfl, vectorRow_access only_vsmxWork⟩,
      ⟨_, rfl, vectorRow_access only_vropeWork⟩, ⟨_, rfl, vectorRow_vgather r sn s⟩, by simp⟩
  · intro q hq
    have eq : exec q.1 s = .next (s.commit (engineEff r q.2.1 sn s (elementwise q.2.2.1 q.2.2.2))) := by
      simp only [List.mem_cons, List.not_mem_nil, or_false] at hq
      rcases hq with rfl | rfl | rfl | rfl | rfl | rfl | rfl | rfl | rfl | rfl | rfl | rfl <;> rfl
    exact ⟨_, eq, fun w _ _ e hf hn => (run_engineEff e).elementwise hf hn⟩
  · refine ⟨_, rfl, ?_⟩
    rintro w _ _ e rfl rfl
    exact (run_engineEff e).vscl
  · refine ⟨_, rfl, ?_⟩
    rintro w _ _ m e rfl rfl hm
    exact (run_engineEff e).vcmp hm
  · refine ⟨_, rfl, ?_⟩
    rintro w _ _ e rfl rfl
    exact (run_engineEff e).vsel
  · refine ⟨_, rfl, ?_⟩
    rintro w _ _ e rfl rfl
    exact (run_engineEff e).vred
  · refine ⟨_, rfl, ?_⟩
    rintro w _ _ _ _ e rfl rfl rfl rfl
    refine (run_engineEff e).vcvt.imp (fun g xs => ?_)
    rintro ⟨plain, scaled⟩ val mode hmode hval
    obtain rfl : mode = w.cvtMode := funext fun i => funext fun e => hmode i e
    refine ⟨fun hs hd els => ?_, fun hs hd => scaled hs _ (fun g ss going run els => ?_), fun hs hd blocks => ?_,
      fun hs hd => scaled hs _ (fun g ss going run blocks => ?_)⟩
    · obtain ⟨going, run⟩ := plain hs
      rw [Work.cvtVal_plain hs hval] at run
      exact run.cvtPlain going hd
    · rw [Work.cvtVal_mx hs hval] at run
      exact run.cvtPlain going hd
    · obtain ⟨going, run⟩ := plain hs
      rw [Work.cvtVal_plain hs hval] at run
      exact run.cvtMx going hd
    · rw [Work.cvtVal_mx hs hval] at run
      exact run.cvtMx going hd
  · refine ⟨_, rfl, ?_⟩
    rintro w _ _ _ _ _ _ e rfl rfl rfl rfl rfl rfl
    exact (run_engineEff e).vsmx
  · refine ⟨_, rfl, ?_⟩
    rintro w _ _ _ e rfl rfl rfl
    refine (run_engineEff e).vrope.imp (fun g xs table => ⟨fun computed => ?_, fun given => ?_⟩)
    · refine (table _ _ _ (if_pos computed)).imp (fun g ts next => ?_)
      simp only [Work.ropeAngle_computed computed] at next
      exact next
    · refine (table _ _ _ (if_neg (Bool.eq_false_iff.1 given))).imp (fun g ts next => ?_)
      simp only [Work.ropeAngle_given given] at next
      exact next
  · refine ⟨_, rfl, ?_⟩
    intro w len e hlen d slot g
    exact vgather_row e hlen slot g

end Sys2Proof.Machine
end

section
/-!
PROOFS. The matrix engines (R45, R47, R66–R70, R73–R78, R92, R152, R491): O57.
-/
namespace Sys2Proof.Machine

/-! ## The engines of a core -/

theorem Hw.only_modMxe {h : Hw} {k e : Nat} {f : Mxe → Mxe} : h.Only [.cores] (h.modMxe k e f) :=
  fun p hp => by cases p <;> first | rfl | simp at hp

theorem Hw.coreOf_modMxe_other (h : Hw) {k j : Nat} (e : Nat) (f : Mxe → Mxe) (hj : j ≠ k) : (h.modMxe k e f).coreOf j = h.coreOf j :=
  Tab.getD_put_other _ _ _ hj
theorem Hw.coreOf_modMxe_same (h : Hw) (k e : Nat) (f : Mxe → Mxe) : (h.modMxe k e f).coreOf k =
    if e = 0 then { h.coreOf k with mxe0 := f (h.coreOf k).mxe0 } else { h.coreOf k with mxe1 := f (h.coreOf k).mxe1 } :=
  Tab.getD_put_same _ _ _ _

theorem Hw.mxeOf_modMxe_same (h : Hw) (k e : Nat) (f : Mxe → Mxe) : (h.modMxe k e f).mxeOf k e = f (h.mxeOf k e) := by
  by_cases he : e = 0 <;> simp [Hw.mxeOf, Hw.coreOf_modMxe_same, Core.mxe, he]
theorem Hw.mxeOf_modMxe_other (h : Hw) (k : Nat) {e e' : Nat} (f : Mxe → Mxe) (he : decide (e' = 0) ≠ decide (e = 0)) :
    (h.modMxe k e f).mxeOf k e' = h.mxeOf k e' := by
  by_cases h0 : e = 0 <;> by_cases h1 : e' = 0 <;> simp [Hw.mxeOf, Hw.coreOf_modMxe_same, Core.mxe, h0, h1] at he ⊢

theorem Hw.coreOf_of_cores {h k : Hw} (e : k.cores = h.cores) (j : Nat) : k.coreOf j = h.coreOf j := by
  rw [Hw.coreOf, e, ← Hw.coreOf]
theorem Hw.mxeOf_of_cores {h k : Hw} (e : k.cores = h.cores) (j i : Nat) : k.mxeOf j i = h.mxeOf j i := by
  rw [Hw.mxeOf, Hw.coreOf_of_cores e, ← Hw.mxeOf]

theorem Hw.mxeOf_seen (h : Hw) (sn : Seen) (k e : Nat) : (h.seen sn).mxeOf k e = h.mxeOf k e :=
  Hw.mxeOf_of_cores ((h.accessed_seen sn).only .cores (by decide)) k e

/-! ## An instruction of a matrix engine under way -/

/-- The parts that an instruction of a matrix engine changes. -/
def mxeParts : List Part := [.regs, .ctxs, .cores, .hbm, .xcl, .host, .ccl, .logs, .hist, .out]

/-- `k` is `h` while the effect of `w` is under way on its matrix engine: no other engine has changed. -/
structure Work.Within (w : Work) (h k : Hw) : Prop where
  going : w.Going h k
  only : h.Only mxeParts k
  cores : ∀ j, j ≠ w.k → k.coreOf j = h.coreOf j
  engines : ∀ e, decide (e = 0) ≠ decide (w.w.s = 0) → k.mxeOf w.k e = h.mxeOf w.k e

theorem Work.Due.within {w : Work} {h : Hw} (d : w.Due h) : w.Within h h := ⟨d.going, .refl _ _, fun _ _ => rfl, fun _ _ => rfl⟩

theorem Work.Within.of_only {w : Work} {h k l : Hw} {ps : List Part} (g : w.Within h k) (a : k.Only ps l)
    (sub : ∀ p ∈ ps, p ∈ accessParts) : w.Within h l := by
  have same : l.cores = k.cores := a .cores (fun h => absurd (sub _ h) (by decide))
  exact ⟨g.going.of_only a (fun h => absurd (sub _ h) (by decide)) (fun h => absurd (sub _ h) (by decide)),
    g.only.trans (a.mono (fun p hp => (by decide : ∀ p ∈ accessParts, p ∈ mxeParts) p (sub p hp))),
    fun j hj => (Hw.coreOf_of_cores same j).trans (g.cores j hj), fun e he => (Hw.mxeOf_of_cores same _ e).trans (g.engines e he)⟩
theorem Work.Within.accessed {w : Work} {h k l : Hw} (g : w.Within h k) (a : k.Accessed l) : w.Within h l :=
  g.of_only a.only (fun _ hp => hp)
theorem Work.Within.modMxe {w : Work} {h k : Hw} (g : w.Within h k) (f : Mxe → Mxe) : w.Within h (k.modMxe w.k w.w.s f) :=
  ⟨g.going.of_only Hw.only_modMxe (by decide) (by decide), g.only.trans (Hw.only_modMxe.mono (by decide)),
    fun j hj => (Hw.coreOf_modMxe_other _ _ _ hj).trans (g.cores j hj),
    fun e he => (Hw.mxeOf_modMxe_other _ _ _ he).trans (g.engines e he)⟩
/-- A change of contexts that keeps the instruction going. -/
theorem Work.Within.of_going {w : Work} {h k l : Hw} (g : w.Within h k) (a : k.Only [.ctxs] l) (going : w.Going h l) : w.Within h l :=
  ⟨going, g.only.trans (a.mono (by decide)), fun j hj => (Hw.coreOf_of_cores (a .cores (by decide)) j).trans (g.cores j hj),
    fun e he => (Hw.mxeOf_of_cores (a .cores (by decide)) _ e).trans (g.engines e he)⟩
theorem Work.Within.hold {w : Work} {h k : Hw} (g : w.Within h k) (f : Tab (List Rng) → Tab (List Rng)) :
    w.Within h (k.modRun w.w.c (fun r => { r with holds := f r.holds })) := g.of_going Hw.only_modRun (g.going.hold f)
theorem Work.Within.markDone {w : Work} {h k : Hw} (g : w.Within h k) (f : Infl → Infl)
    (same : ∀ x, (f x).idx = x.idx ∧ (f x).startTb = x.startTb) : w.Within h (k.markDone w.w f) :=
  g.of_going Hw.only_markDone (g.going.markDone f same)

/-! ## SETFMT and LOADB (R69, R70) -/

/-- The row of a control instruction that changes its engine by `f`. -/
def engineControl (r : StreamRef) (opc : Nat) (s : State) (f : Work → Mxe → Mxe) : State :=
  { s with hw := controlEff r opc s (fun w h => (h.modMxe w.k w.w.s (f w), .ok ())) }

theorem engineControl_idle {r : StreamRef} {opc : Nat} {s : State} {f : Work → Mxe → Mxe} (e : s.hw.work r opc = none) :
    engineControl r opc s f = s := by
  rw [engineControl, controlEff, e]
theorem hw_engineControl {r : StreamRef} {opc : Nat} {s : State} {f : Work → Mxe → Mxe} {w : Work} (e : s.hw.work r opc = some w) :
    (engineControl r opc s f).hw = (s.hw.modMxe w.k w.w.s (f w)).markDone w.w id := by
  rw [engineControl, controlEff, e]

theorem frame_engineControl {r : StreamRef} {opc : Nat} {s : State} {f : Work → Mxe → Mxe} :
    Frame [.ctxs, .cores] s (engineControl r opc s f) := by
  refine Frame.keep ?_
  cases e : s.hw.work r opc with
  | none =>
    rw [controlEff, e]
    exact .refl _ _
  | some w =>
    rw [controlEff, e]
    exact (Hw.only_modMxe.mono (by decide)).trans (Hw.only_markDone.mono (by decide))

/-- A due control instruction has its effect on its own engine. -/
theorem engineControl_due {r : StreamRef} {opc : Nat} {s : State} {f : Work → Mxe → Mxe} {w : Work} (e : s.hw.work r opc = some w) :
    Executed (engineControl r opc s f) w ∧ StreamAlone s (engineControl r opc s f) w.w.c (keyOf r) ∧
      (engineControl r opc s f).hw.mxeOf w.k r.strm = f w (s.hw.mxeOf w.k r.strm) ∧
      (∀ e, decide (e = 0) ≠ decide (r.strm.val = 0) → (engineControl r opc s f).hw.mxeOf w.k e = s.hw.mxeOf w.k e) ∧
      ∀ k, k ≠ w.k → (engineControl r opc s f).hw.coreOf k = s.hw.coreOf k := by
  obtain ⟨due, -, -, -, strm⟩ := Hw.work_due e
  have changed := due.within.modMxe (f w)
  have marked := changed.markDone id (fun _ => ⟨rfl, rfl⟩)
  have eq := hw_engineControl (f := f) e
  rw [← eq] at marked
  refine ⟨changed.going.executed eq, ?_, ?_, ?_, marked.cores⟩
  · rw [← Hw.work_key e]
    exact marked.going.alone due rfl
  · rw [eq, Hw.mxeOf_of_cores (Hw.only_markDone .cores (by decide)), ← strm, Hw.mxeOf_modMxe_same]
  · rw [← strm]
    exact marked.engines

theorem MmaOps.serves_staged (o : MmaOps) (m : Mxe) (steps : Nat) : (o.staged m steps).serves o m = true := by
  simp [Staged.serves, MmaOps.staged]

section
variable {r : StreamRef} {s : State} {x : Ctx} {k : Nat}

theorem Hw.core_of_place (hx : Tab.find? s.hw.ctxs r.ctx = some x) (hk : x.core? r.lc r.lk = some k) :
    (s.hw.ctx? r.ctx.val).bind (fun x => x.core? r.lc.val r.lk.val) = some k := by
  rw [Hw.ctx?, hx, Option.bind_some]
  exact hk

theorem stagingEff_none (hx : Tab.find? s.hw.ctxs r.ctx = some x) (hk : x.core? r.lc r.lk = some k)
    (e : (s.hw.mxeOf k r.strm).staged = none) : stagingEff r s = s.hw := by
  unfold stagingEff
  rw [Hw.core_of_place hx hk]
  dsimp only
  rw [e]
theorem stagingEff_early {q : Staged} (hx : Tab.find? s.hw.ctxs r.ctx = some x) (hk : x.core? r.lc r.lk = some k)
    (e : (s.hw.mxeOf k r.strm).staged = some q) (early : s.hw.steps (k / 9) < q.issueSteps + 64 ∨ q.complete = true) :
    stagingEff r s = s.hw := by
  unfold stagingEff
  rw [Hw.core_of_place hx hk]
  dsimp only
  rw [e]
  refine if_neg ?_
  rintro ⟨fresh, due⟩
  rcases early with early | early
  · exact absurd due (Nat.not_le.2 early)
  · exact absurd (fresh.symm.trans early) (by decide)
/-- The completion of a staging, 64 steps after its LOADB (R69). -/
theorem stagingEff_completes {q : Staged} (hx : Tab.find? s.hw.ctxs r.ctx = some x) (hk : x.core? r.lc r.lk = some k)
    (e : (s.hw.mxeOf k r.strm).staged = some q) (due : q.issueSteps + 64 ≤ s.hw.steps (k / 9)) (fresh : q.complete = false) :
    stagingEff r s = s.hw.modMxe k r.strm.val (fun m => { m with staged := some { q with complete := true } }) := by
  unfold stagingEff
  rw [Hw.core_of_place hx hk]
  dsimp only
  rw [e]
  exact if_pos ⟨fresh, due⟩

end

theorem only_stagingEff {r : StreamRef} {s : State} : s.hw.Only [.cores] (stagingEff r s) := by
  unfold stagingEff
  split
  · exact .refl _ _
  split
  · exact .ite Hw.only_modMxe (.refl _ _)
  · exact .refl _ _

/-! ## MMA and MMAZ (R45, R66, R69, R75, R77, R152) -/

/-- What an MMA's operands need of their addresses (R66). -/
def MmaOps.Unaligned (o : MmaOps) : Prop :=
  o.a % 32 ≠ 0 ∨ o.b % 32 ≠ 0 ∨ (o.dsa ≠ none ∧ o.sa % 4 ≠ 0) ∨ (o.dsb ≠ none ∧ o.sb % 4 ≠ 0)

theorem MmaOps.misaligned_of_unaligned {o : MmaOps} (h : o.Unaligned) : ∃ q, o.misaligned = some q := by
  unfold MmaOps.Unaligned at h
  unfold MmaOps.misaligned
  rcases hd : o.dsa with _ | d <;> rcases he : o.dsb with _ | e <;> simp only <;> split_ifs <;> simp_all

theorem Hw.srcAll_cons (m : Mem) (w : Work) (h : Hw) (d : Desc) (v : Int) (n len : Nat) (rest : List (Desc × Int × Nat × Nat)) :
    Hw.srcAll m w h ((d, v, n, len) :: rest) =
      andThen (h.srcRows m w.x w.w (d.unit w.w.lc w.w.lk) (rowAddrs v n d.stride len)) (fun h ps =>
        andThen (Hw.srcAll m w h rest) (fun h qs => (h, .ok (ps ++ qs)))) := by
  rw [Hw.srcAll]
  rcases h.srcRows m w.x w.w (d.unit w.w.lc w.w.lk) (rowAddrs v n d.stride len) with ⟨g, e | ps⟩
  · rfl
  dsimp only [andThen_ok]
  rcases Hw.srcAll m w g rest with ⟨k, e | qs⟩ <;> rfl

theorem Hw.accessed_srcAll {m : Mem} {w : Work} (l : List (Desc × Int × Nat × Nat)) (h : Hw) : h.Accessed (Hw.srcAll m w h l).1 := by
  induction l generalizing h with
  | nil => exact .refl h
  | cons q l ih =>
    obtain ⟨d, v, n, len⟩ := q
    rw [Hw.srcAll_cons]
    exact andThen_fst (P := h.Accessed) Hw.accessed_srcRows (fun g _ a =>
      andThen_fst (P := h.Accessed) (a.trans (ih g)) (fun _ _ b => b))

/-- The ranges that an MMA holds for reading until its DRAIN retires (R77, R152). -/
def heldRanges (ps : List Place) : List Rng := ps.flatMap (fun p => p.segs.map (fun (a, n) => (⟨0, a, n⟩ : Rng)))

theorem mem_heldRanges {ps : List Place} {p : Place} {a : Nat × Nat} (hp : p ∈ ps) (ha : a ∈ p.segs) :
    (⟨0, a.1, a.2⟩ : Rng) ∈ heldRanges ps := List.mem_flatMap.2 ⟨p, hp, List.mem_map.2 ⟨a, ha, rfl⟩⟩

/-- The multiplication of an MMA whose operands are at `ps`, and its read-hold. -/
def Hw.multiplied (h : Hw) (zero : Bool) (w : Work) (m : Mem) (ps : List Place) : Hw :=
  (h.modMxe w.k w.w.s (fun x => x.mma zero w.k w.mmaOps m)).modRun w.w.c (fun r =>
    { r with holds := r.holds.put w.key (r.holds.getD w.key [] ++ heldRanges ps) })

theorem mmaWork_misaligned {zero : Bool} {w : Work} {m : Mem} {h : Hw} {q : Desc × Int} (e : w.mmaOps.misaligned = some q) :
    mmaWork zero w m h = (h, .error (alignCond q.1 w.w.lc w.w.lk q.2)) := by
  unfold mmaWork
  dsimp only
  rw [e]
theorem mmaWork_aligned {zero : Bool} {w : Work} {m : Mem} {h : Hw} (e : w.mmaOps.misaligned = none) :
    mmaWork zero w m h = andThen (Hw.srcAll m w h (w.mmaOps.ranges (h.mxeOf w.k w.w.s))) (fun g ps =>
      ((g.multiplied zero w m ps).countCore w.k { code := 0x08, masters := [w.w.s + 1] }
        (mmaSteps (h.mxeOf w.k w.w.s).aFmt (h.mxeOf w.k w.w.s).bFmt w.mmaOps.k), .ok [])) := by
  unfold mmaWork
  dsimp only
  rw [e]
  dsimp only
  split <;> rename_i h1
  · exact (andThen_eq_error h1).symm
  · refine Eq.trans ?_ (andThen_eq_ok h1).symm
    rfl

theorem Work.Within.multiplied {w : Work} {h k : Hw} (g : w.Within h k) {zero : Bool} {m : Mem} {ps : List Place} :
    w.Within h (k.multiplied zero w m ps) :=
  (g.modMxe _).hold (fun l => l.put w.key (l.getD w.key [] ++ heldRanges ps))

theorem Work.Within.mmaWork {w : Work} {h k : Hw} (g : w.Within h k) (zero : Bool) (m : Mem) :
    w.Within h (mmaWork zero w m k).1 := by
  cases e : w.mmaOps.misaligned with
  | some q =>
    rw [mmaWork_misaligned e]
    exact g
  | none =>
    rw [mmaWork_aligned e]
    exact andThen_fst (P := w.Within h) (g.accessed (Hw.accessed_srcAll _ _)) (fun _ _ a => a.multiplied.accessed Hw.accessed_countCore)

/-- An MMA writes no byte. -/
theorem mmaWork_quiet {zero : Bool} {w : Work} {m : Mem} {h : Hw} {es : List Edit} (e : (mmaWork zero w m h).2 = .ok es) :
    es = [] := by
  cases a : w.mmaOps.misaligned with
  | some q =>
    rw [mmaWork_misaligned a] at e
    cases e
  | none =>
    rw [mmaWork_aligned a] at e
    rcases hq : Hw.srcAll m w h (w.mmaOps.ranges (h.mxeOf w.k w.w.s)) with ⟨g, c | ps⟩ <;> rw [hq] at e <;> cases e
    rfl

/-! ### The engine after an MMA -/

/-- Row `i` of A and column `j` of B of an entry of the replay list, as values (R36–R40, R66). -/
def Replay.rowA (p : Replay) (m : Mem) (k i : Nat) : List Val :=
  rowVals (Fmt.get p.fa) p.k (m.reads (spadBase k + p.a + i * p.strideA) ((Fmt.get p.fa).bytes p.k))
    (if (Fmt.get p.fa).isMx then m.reads (spadBase k + p.sa + i * p.strideSa) (p.k / 32) else [])
def Replay.colB (p : Replay) (m : Mem) (k j : Nat) : List Val :=
  rowVals (Fmt.get p.fb) p.k (m.reads (spadBase k + p.b + j * p.strideB) ((Fmt.get p.fb).bytes p.k))
    (if (Fmt.get p.fb).isMx then m.reads (spadBase k + p.sb + j * p.strideSb) (p.k / 32) else [])

theorem readMma_eq (m : Mem) (k : Nat) (p : Replay) :
    readMma m k p = ((List.range 128).map (p.rowA m k), (List.range 64).map (p.colB m k)) := rfl

theorem Mxe.mma_eq (m : Mxe) (zero : Bool) (k : Nat) (o : MmaOps) (mem : Mem) : m.mma zero k o mem =
    { ((if zero then m.clearAcc else m).multiply o.k (readMma mem k (o.replay m)).1 (readMma mem k (o.replay m)).2).appendReplay
      (o.replay m) with staged := none } := rfl

theorem Mxe.staged_mma (m : Mxe) (zero : Bool) (k : Nat) (o : MmaOps) (mem : Mem) : (m.mma zero k o mem).staged = none := rfl

theorem Mxe.acc_appendReplay (m : Mxe) (p : Replay) : (m.appendReplay p).acc = m.acc := by
  unfold Mxe.appendReplay
  split <;> rfl
theorem Mxe.acc_multiply (m : Mxe) (k : Nat) (a b : List (List Val)) {i j : Nat} (hi : i < 128) (hj : j < 64) :
    (m.multiply k a b).acc.getD (64 * i + j) Ewa.clear = (m.acc.getD (64 * i + j) Ewa.clear).dot (a.getD i []) (b.getD j []) := by
  have n : 64 * i + j < 8192 := by omega
  have d : (64 * i + j) / 64 = i := by omega
  have r : (64 * i + j) % 64 = j := by omega
  simp [Mxe.multiply, List.getD_eq_getElem?_getD, n, d, r]

/-- Each accumulator adds its row times its column, from a cleared one for MMAZ (R45, R47, R66). -/
theorem Mxe.acc_mma (m : Mxe) (zero : Bool) (k : Nat) (o : MmaOps) (mem : Mem) {i j : Nat} (hi : i < 128) (hj : j < 64) :
    (m.mma zero k o mem).acc.getD (64 * i + j) Ewa.clear =
      (if zero then Ewa.clear else m.acc.getD (64 * i + j) Ewa.clear).dot ((o.replay m).rowA mem k i) ((o.replay m).colB mem k j) := by
  have a : ((List.range 128).map ((o.replay m).rowA mem k)).getD i [] = (o.replay m).rowA mem k i := by
    simp [List.getD_eq_getElem?_getD, hi]
  have b : ((List.range 64).map ((o.replay m).colB mem k)).getD j [] = (o.replay m).colB mem k j := by
    simp [List.getD_eq_getElem?_getD, hj]
  rw [Mxe.mma_eq, readMma_eq]
  show (Mxe.appendReplay _ _).acc.getD _ _ = _
  rw [Mxe.acc_appendReplay, Mxe.acc_multiply _ _ _ _ hi hj, a, b]
  cases zero <;> rfl

theorem Mxe.replay_appendReplay {m : Mxe} {p : Replay} (h : m.replay.length < 64) : (m.appendReplay p).replay = m.replay ++ [p] := by
  unfold Mxe.appendReplay
  rw [if_pos h]
theorem Mxe.replayOvf_appendReplay {m : Mxe} {p : Replay} (h : 64 ≤ m.replay.length) : (m.appendReplay p).replayOvf = true := by
  unfold Mxe.appendReplay
  rw [if_neg (Nat.not_lt.2 h)]
theorem Mxe.replay_multiply (m : Mxe) (k : Nat) (a b : List (List Val)) : (m.multiply k a b).replay = m.replay := by
  rw [Mxe.multiply]

theorem Mxe.replay_mma (m : Mxe) {zero : Bool} (k : Nat) (o : MmaOps) (mem : Mem) (h : zero = true ∨ m.replay.length < 64) :
    (m.mma zero k o mem).replay = (if zero then [] else m.replay) ++ [o.replay m] := by
  have old : (if zero then m.clearAcc else m).replay = if zero then [] else m.replay := by
    cases zero
    · rfl
    · rfl
  rw [Mxe.mma_eq]
  refine (Mxe.replay_appendReplay ?_).trans ?_
  · rw [Mxe.replay_multiply, old]
    cases zero
    · simpa using h
    · exact Nat.zero_lt_succ 63
  · rw [Mxe.replay_multiply, old]
theorem Mxe.replayOvf_mma (m : Mxe) (k : Nat) (o : MmaOps) (mem : Mem) (h : 64 ≤ m.replay.length) :
    (m.mma false k o mem).replayOvf = true := by
  rw [Mxe.mma_eq]
  refine Mxe.replayOvf_appendReplay ?_
  rw [Mxe.replay_multiply]
  exact h

/-! ### The row of an MMA -/

/-- The row of an MMA or MMAZ: it waits for staging, or has its effect. -/
def stagedEff (r : StreamRef) (opc : Nat) (zero : Bool) (sn : Seen) (s : State) : Eff :=
  if stagingWait r opc s then { hw := s.hw } else engineEff r opc sn s (mmaWork zero)

theorem stagedEff_wait {r : StreamRef} {opc : Nat} {zero : Bool} {sn : Seen} {s : State} (h : stagingWait r opc s = true) :
    s.commit (stagedEff r opc zero sn s) = s := by
  rw [stagedEff, if_pos h]
  rfl
theorem stagedEff_run {r : StreamRef} {opc : Nat} {zero : Bool} {sn : Seen} {s : State} (h : stagingWait r opc s = false) :
    stagedEff r opc zero sn s = engineEff r opc sn s (mmaWork zero) := by rw [stagedEff, h, if_neg (by decide)]

theorem stagingWait_due {r : StreamRef} {opc : Nat} {s : State} {w : Work} (e : s.hw.work r opc = some w) :
    stagingWait r opc s = true ↔ ∃ g, (s.hw.mxeOf w.k r.strm).staged = some g ∧
      g.serves w.mmaOps (s.hw.mxeOf w.k r.strm) = true ∧ g.complete = false := by
  obtain ⟨-, -, -, -, strm⟩ := Hw.work_due e
  unfold stagingWait
  rw [e]
  dsimp only
  rw [strm]
  cases (s.hw.mxeOf w.k r.strm).staged with
  | none => simp
  | some g => simp

theorem engineEff_idle_commit {r : StreamRef} {opc : Nat} {sn : Seen} {s : State} {f : Work → Mem → Hw → Hw × Except Cond (List Edit)}
    (e : s.hw.work r opc = none) : s.commit (engineEff r opc sn s f) = s := by
  rw [engineEff_idle e]
  rfl

section
variable {s t : State} {sn : Seen} {w : Work}

/-- The start of an instruction of a matrix engine: the pieces that its reads find are counted. -/
theorem Run.begun {q : Hw × Except Cond (List Edit)} (run : Run s t sn w q) : w.Within s.hw (s.hw.seen sn) :=
  run.due.within.accessed (s.hw.accessed_seen sn)

theorem Run.only {q : Hw × Except Cond (List Edit)} (run : Run s t sn w q) (g : w.Within s.hw q.1) : s.hw.Only mxeParts t.hw :=
  g.only.trans (run.kept.mono (by decide))
theorem Run.coreOf {q : Hw × Except Cond (List Edit)} (run : Run s t sn w q) (g : w.Within s.hw q.1) (j : Nat) (hj : j ≠ w.k) :
    t.hw.coreOf j = s.hw.coreOf j := (Hw.coreOf_of_cores run.cores j).trans (g.cores j hj)
theorem Run.mxeOf {q : Hw × Except Cond (List Edit)} (run : Run s t sn w q) (g : w.Within s.hw q.1) (e : Nat)
    (he : decide (e = 0) ≠ decide (w.w.s = 0)) : t.hw.mxeOf w.k e = s.hw.mxeOf w.k e :=
  (Hw.mxeOf_of_cores run.cores _ e).trans (g.engines e he)

/-- Where no byte is written, memory reads as before. -/
theorem Run.but_nil {q : Hw × Except Cond (List Edit)} (run : Run s t sn w q) (quiet : ∀ es, q.2 = .ok es → es = []) :
    Mem.But [] s.mem t.mem := by
  obtain ⟨-, rfl⟩ := run
  have edits : (w.outcome sn q).edits = seenEdits sn := by
    obtain ⟨g, e | es⟩ := q
    · rfl
    · obtain rfl := quiet es rfl
      exact List.append_nil _
  intro p _
  rw [State.commit_mem, edits, Mem.edit_seenEdits, Mem.read_seen]

/-- An instruction that meets a condition before it changes its engine. -/
theorem Run.raised {g : Hw} {e : Cond} (run : Run s t sn w (g, .error e)) (going : w.Going s.hw g) (same : g.cores = s.hw.cores) :
    Raised s t w.w.c e.detail ∧ t.hw.cores = s.hw.cores := ⟨(run.stops going).1, run.cores.trans same⟩

/-- A due MMA whose operands may be read (R45, R66, R69, R75, R77, R152). -/
theorem Run.multiplied {zero : Bool} {g : Hw} {ps : List Place} {ev : Ev} {n : Nat}
    (run : Run s t sn w ((g.multiplied zero w (s.mem.seen sn) ps).countCore w.k ev n, .ok [])) (acc : s.hw.Accessed g) :
    Executed t w ∧ t.hw.mxeOf w.k w.w.s = (s.hw.mxeOf w.k w.w.s).mma zero w.k w.mmaOps (s.mem.seen sn) ∧
      ∃ y, Tab.find? t.hw.ctxs w.w.c = some y ∧ ∀ p ∈ ps, ∀ a ∈ p.segs,
        (⟨0, a.1, a.2⟩ : Rng) ∈ Tab.getD y.run.holds w.key [] := by
  have count := Hw.accessed_countCore (h := g.multiplied zero w (s.mem.seen sn) ps) (k := w.k) (e := ev) (n := n)
  refine ⟨run.executed ((run.due.within.accessed acc).multiplied.accessed count).going, ?_, ?_⟩
  · rw [Hw.mxeOf_of_cores (run.cores.trans (count.only .cores (by decide))), Hw.multiplied,
      Hw.mxeOf_of_cores (Hw.only_modRun .cores (by decide)), Hw.mxeOf_modMxe_same, Hw.mxeOf_of_cores (acc.only .cores (by decide))]
  · have ctx : Tab.find? (g.modMxe w.k w.w.s (fun x => x.mma zero w.k w.mmaOps (s.mem.seen sn))).ctxs w.w.c = some w.x := by
      rw [Hw.only_modMxe .ctxs (by decide), acc.only .ctxs (by decide)]
      exact run.due.ctx
    obtain ⟨-, rfl⟩ := run
    refine ⟨_, Hw.find?_markDone id (y := ?_) ?_, fun p hp a ha => ?_⟩
    rotate_left
    · rw [count.only .ctxs (by decide)]
      exact Hw.find?_modCtx_same _ ctx
    · show _ ∈ Tab.getD (Tab.put _ _ _) _ _
      rw [Tab.getD_put_same]
      exact List.mem_append_right _ (mem_heldRanges hp ha)

end

/-- The row of a due MMA that need not wait. -/
theorem staged_run {r : StreamRef} {opc : Nat} {zero : Bool} {sn : Seen} {s : State} {w : Work} (e : s.hw.work r opc = some w)
    (h : stagingWait r opc s = false) :
    Run s (s.commit (stagedEff r opc zero sn s)) sn w (mmaWork zero w (s.mem.seen sn) (s.hw.seen sn)) := by
  rw [stagedEff_run h]
  exact run_engineEff e

/-- What an MMA leaves alone. -/
theorem staged_frame {r : StreamRef} {opc : Nat} {zero : Bool} {sn : Seen} {s : State} :
    (s.commit (stagedEff r opc zero sn s)).fuses = s.fuses ∧ Mem.But [] s.mem (s.commit (stagedEff r opc zero sn s)).mem ∧
      s.hw.Only mxeParts (s.commit (stagedEff r opc zero sn s)).hw ∧
      (s.hw.work r opc = none → s.commit (stagedEff r opc zero sn s) = s) := by
  by_cases wait : stagingWait r opc s = true
  · rw [stagedEff_wait wait]
    exact ⟨rfl, fun _ _ => rfl, .refl _ _, fun _ => rfl⟩
  have go := Bool.eq_false_of_not_eq_true wait
  refine ⟨by rw [stagedEff_run go, State.commit_fuses, engineEff_burn]; rfl, ?_⟩
  cases e : s.hw.work r opc with
  | none =>
    rw [stagedEff_run go, engineEff_idle_commit e]
    exact ⟨fun _ _ => rfl, .refl _ _, fun _ => rfl⟩
  | some w =>
    have run := staged_run (sn := sn) (zero := zero) e go
    exact ⟨run.but_nil (fun _ => mmaWork_quiet), run.only (run.begun.mmaWork _ _), fun h => nomatch h⟩

section
variable {s t : State} {sn : Seen} {w : Work} {m0 : Mxe}

/-- The checks of an MMA, in order (R66, R92, R100); where they pass it multiplies. -/
theorem Run.mma {zero : Bool} (run : Run s t sn w (mmaWork zero w (s.mem.seen sn) (s.hw.seen sn)))
    (hm : s.hw.mxeOf w.k w.w.s = m0) :
    (w.mmaOps.Unaligned → Raised s t w.w.c dAlign ∧ t.hw.cores = s.hw.cores) ∧
    (w.mmaOps.misaligned = none → ∀ g,
      (∀ e, Hw.srcAll (s.mem.seen sn) w (s.hw.seen sn) (w.mmaOps.ranges m0) = (g, .error e) →
        Raised s t w.w.c e.detail ∧ t.hw.cores = s.hw.cores) ∧
      ∀ ps, Hw.srcAll (s.mem.seen sn) w (s.hw.seen sn) (w.mmaOps.ranges m0) = (g, .ok ps) →
        Executed t w ∧ t.hw.mxeOf w.k w.w.s = m0.mma zero w.k w.mmaOps (s.mem.seen sn) ∧
        ∃ y, Tab.find? t.hw.ctxs w.w.c = some y ∧ ∀ p ∈ ps, ∀ a ∈ p.segs,
          (⟨0, a.1, a.2⟩ : Rng) ∈ Tab.getD y.run.holds w.key []) := by
  have start := run.begun
  have same : (s.hw.seen sn).cores = s.hw.cores := (s.hw.accessed_seen sn).only .cores (by decide)
  refine ⟨fun bad => ?_, fun al g => ?_⟩
  · obtain ⟨_, h⟩ := MmaOps.misaligned_of_unaligned bad
    rw [mmaWork_misaligned h] at run
    exact run.raised start.going same
  rw [mmaWork_aligned al, Hw.mxeOf_seen, hm] at run
  have acc := Hw.accessed_srcAll (m := s.mem.seen sn) (w := w) (w.mmaOps.ranges m0) (s.hw.seen sn)
  refine ⟨fun c hq => ?_, fun ps hq => ?_⟩ <;> rw [hq] at run acc
  · exact run.raised (start.accessed acc).going (Eq.trans (acc.only .cores (by decide)) same)
  · exact hm ▸ run.multiplied ((s.hw.accessed_seen sn).trans acc)

end

/-! ## DRAIN (R68, R74–R77, R491) -/

/-- Errors of the hardware change accumulators only. -/
theorem Mxe.flip_eq (m : Mxe) (fs : List (Nat × Int)) : ∃ a r c, m.flip fs = { m with acc := a, chkRow := r, chkCol := c } := by
  induction fs generalizing m with
  | nil => exact ⟨_, _, _, rfl⟩
  | cons q fs ih =>
    obtain ⟨n, d⟩ := q
    unfold Mxe.flip at ih ⊢
    rw [List.foldl_cons]
    dsimp only
    split_ifs
    · exact ih _
    · exact ih _
    · exact ih _

theorem Mxe.oFmt_flip (m : Mxe) (fs : List (Nat × Int)) : (m.flip fs).oFmt = m.oFmt := by
  obtain ⟨a, r, c, e⟩ := m.flip_eq fs
  rw [e]
theorem Mxe.retrying_flip (m : Mxe) (fs : List (Nat × Int)) : (m.flip fs).retrying = m.retrying := by
  obtain ⟨a, r, c, e⟩ := m.flip_eq fs
  rw [e]

theorem Mxe.oFmt_rerun (m : Mxe) (k : Nat) (mem : Mem) : (m.rerun k mem).oFmt = m.oFmt := by
  have keep (l : List Replay) (x : Mxe) :
      (l.foldl (fun x p => let (a, b) := readMma mem k p; x.multiply p.k a b) x).oFmt = x.oFmt := by
    induction l generalizing x with
    | nil => rfl
    | cons p l ih =>
      rw [List.foldl_cons, ih]
      dsimp only
      rw [Mxe.multiply]
  exact keep _ _

/-! ### The destinations -/

section
variable {w : Work} {f : Fmt} {d : Desc} {v : Int} {sc : Option (Desc × Int)}

theorem drainMisaligned_some (e : drainDests w f = (d, v, sc)) (h : v % 32 ≠ 0 ∨ ∃ u, sc = some u ∧ u.2 % 4 ≠ 0) :
    ∃ q, drainMisaligned w f = some q := by
  unfold drainMisaligned
  rw [e]
  dsimp only
  by_cases hv : v % 32 ≠ 0
  · exact ⟨_, if_pos hv⟩
  · obtain ⟨u, rfl, hu⟩ := h.resolve_left hv
    exact ⟨_, (if_neg hv).trans (if_pos hu)⟩
theorem drainMisaligned_none (e : drainDests w f = (d, v, sc)) (hv : v % 32 = 0) (hsc : ∀ u, sc = some u → u.2 % 4 = 0) :
    drainMisaligned w f = none := by
  unfold drainMisaligned
  rw [e]
  dsimp only
  rw [if_neg (by simpa using hv)]
  cases sc with
  | none => rfl
  | some u => exact if_neg (by simpa using hsc u rfl)

end

/-! ### The commit -/

/-- The rows of a DRAIN: result bytes, scale bytes, and what the elements are. -/
def drainRows (e : Mxe) (w : Work) : List (List Byte × List Byte × List OutEl) :=
  (List.range 128).map (fun i => drainRow e w.x.host.seed (w.x.img.valueOf w.w.lc w.w.lk (bitsAt w.word 56 12) w.fl.iters 48) i
    ((List.range 64).map (fun j => (e.acc.getD (64 * i + j) Ewa.clear).value)))

theorem drainRows_bytes (e : Mxe) (w : Work) : (drainRows e w).map (fun r => r.1) = drained e w := List.map_map

/-- The tile status record of a DRAIN (R78). -/
def drainTile (e : Mxe) (w : Work) (c : Check) (retried : Bool) : TileRec :=
  tileRec e c retried ((drainRows e w).flatMap (fun r => r.2.2)) w.fl.idx

theorem drainTile_fields (e : Mxe) (w : Work) (c : Check) (retried : Bool) : (drainTile e w c retried).retried = retried ∧
    (drainTile e w c retried).check = c.code ∧ (drainTile e w c retried).wl = c.wl ∧
    (drainTile e w c retried).drainIdx = w.fl.idx := ⟨rfl, rfl, rfl, rfl⟩

/-- The end of an accumulation (R78, R491): the record is kept, and the accumulators are cleared. -/
def Hw.committed (h : Hw) (w : Work) (t : TileRec) : Hw :=
  (h.setTile w.k w.w.s t).modMxe w.k w.w.s (fun x => { x.clearAcc with tile := some t, retrying := false })

theorem Hw.only_setTile {h : Hw} {k e : Nat} {t : TileRec} : h.Only [.regs] (h.setTile k e t) :=
  (((Hw.only_setFld.trans Hw.only_setFlag).trans Hw.only_setFlag).trans Hw.only_setFld).trans Hw.only_setFld

theorem Hw.mxeOf_committed (h : Hw) (w : Work) (t : TileRec) : (h.committed w t).mxeOf w.k w.w.s =
    { (h.mxeOf w.k w.w.s).clearAcc with tile := some t, retrying := false } := by
  rw [Hw.committed, Hw.mxeOf_modMxe_same, Hw.mxeOf_of_cores (Hw.only_setTile .cores (by decide))]

theorem Work.Within.committed {w : Work} {h k : Hw} (g : w.Within h k) (t : TileRec) : w.Within h (k.committed w t) :=
  (g.of_only Hw.only_setTile (by decide)).modMxe _

/-- The rows of the scales of an MX output, which are checked after those of the results. -/
def Hw.scaleRows (h : Hw) (m : Mem) (w : Work) (sc : Option (Desc × Int)) : Hw × Except Cond (List Place) :=
  match sc with
  | some (q, sv) => h.dstRows m w.x w.w (q.unit w.w.lc w.w.lk) (rowAddrs sv 128 q.stride 2)
  | none => (h, .ok [])

theorem Hw.accessed_scaleRows {h : Hw} {m : Mem} {w : Work} {sc : Option (Desc × Int)} : h.Accessed (h.scaleRows m w sc).1 := by
  cases sc with
  | none => exact .refl h
  | some q => exact Hw.accessed_dstRows

/-- The rows of the results of a DRAIN. -/
def Hw.resultRows (h : Hw) (m : Mem) (w : Work) (d : Desc) (v : Int) (f : Fmt) : Hw × Except Cond (List Place) :=
  h.dstRows m w.x w.w (d.unit w.w.lc w.w.lk) (rowAddrs v 128 d.stride (f.bytes 64))

theorem drainCommit_eq {w : Work} {m : Mem} {h : Hw} {e : Mxe} {c : Check} {retried : Bool} {d : Desc} {v : Int}
    {sc : Option (Desc × Int)} (dests : drainDests w (Fmt.get e.oFmt) = (d, v, sc)) : drainCommit w m h e c retried =
      andThen (h.resultRows m w d v (Fmt.get e.oFmt)) (fun h ps => andThen (h.scaleRows m w sc) (fun h qs =>
        (h.committed w (drainTile e w c retried),
          .ok (storeRows m (ps.zip (drained e w)) ++ storeRows m (qs.zip ((drainRows e w).map (fun r => r.2.1))))))) := by
  unfold drainCommit
  dsimp only
  rw [dests]
  dsimp only
  split <;> rename_i h1
  · exact (andThen_eq_error h1).symm
  refine Eq.trans ?_ (andThen_eq_ok h1).symm
  split <;> rename_i h2
  · exact (andThen_eq_error h2).symm
  refine Eq.trans ?_ (andThen_eq_ok h2).symm
  rw [← drainRows_bytes]
  rfl

theorem Work.Within.drainCommit {w : Work} {h k : Hw} (g : w.Within h k) (m : Mem) (e : Mxe) (c : Check) (retried : Bool) :
    w.Within h (drainCommit w m k e c retried).1 := by
  rw [drainCommit_eq (d := (drainDests w (Fmt.get e.oFmt)).1) (v := (drainDests w (Fmt.get e.oFmt)).2.1)
    (sc := (drainDests w (Fmt.get e.oFmt)).2.2) rfl]
  exact andThen_fst (P := w.Within h) (g.accessed Hw.accessed_dstRows) (fun _ _ a =>
    andThen_fst (P := w.Within h) (a.accessed Hw.accessed_scaleRows) (fun _ _ b => b.committed _))

/-! ### The retry -/

theorem Hw.accessed_resources {h : Hw} : h.Accessed h.resources := by
  unfold Hw.resources
  dsimp only
  have hub {f : Fld} (e : f.addr < 0x10000000) (h : Hw) (n : Nat) : h.Accessed (h.setFld f n) := .setFld (not_engineReg_hub e)
  refine .ite (.ite ?_ (Hw.Accessed.trans ?_ (.setFlag (not_engineReg_hub (by decide))))) (.refl h)
  · exact ((((hub (by decide) _ _).trans (hub (by decide) _ _)).trans (hub (by decide) _ _)).trans (hub (by decide) _ _)).trans
      (hub (by decide) _ _)
  · exact ((((hub (by decide) _ _).trans (hub (by decide) _ _)).trans (hub (by decide) _ _)).trans (hub (by decide) _ _)).trans
      (hub (by decide) _ _)
theorem Hw.accessed_unitEvent {h : Hw} {p e d j a : Nat} : h.Accessed (h.unitEvent p e d j a) :=
  (Hw.accessed_history.trans (.of_only Hw.only_histField (by decide) (by decide))).trans Hw.accessed_resources

/-- A retry that passed is counted and recorded as a transient event (R75). -/
def Hw.retryPassed (h : Hw) (w : Work) : Hw :=
  ((h.setFlag (Fd.MXE_ERR.ABFT_TRANSIENT w.k w.w.s) true).satFld (Fd.MXE_RETRY_CNT.PASS_CNT w.k w.w.s) 1).unitEvent
    (punitEngine w.k w.w.s) 1 0 w.x.host.job 0

theorem Work.Within.retryPassed {w : Work} {h k : Hw} (g : w.Within h k) : w.Within h (k.retryPassed w) :=
  ((g.of_only Hw.only_setFlag (by decide)).of_only Hw.only_satFld (by decide)).accessed Hw.accessed_unitEvent

theorem Hw.cores_retryPassed (h : Hw) (w : Work) : (h.retryPassed w).cores = h.cores := by
  rw [Hw.retryPassed, Hw.accessed_unitEvent.only .cores (by decide), Hw.only_satFld .cores (by decide),
    Hw.only_setFlag .cores (by decide)]

theorem Hw.flag_retryPassed (h : Hw) {w : Work} (hk : w.k < 576) (hs : w.w.s < 2) :
    (h.retryPassed w).flag (Fd.MXE_ERR.ABFT_TRANSIENT w.k w.w.s) = true := by
  have here : EngineReg (Reg.MXE_ERR w.k w.w.s) := by
    rw [Reg.MXE_ERR, Nat.add_assoc]
    exact engineReg_core hk (by omega) (by omega)
  have apart : Reg.MXE_ERR w.k w.w.s ∉ [(Fd.MXE_RETRY_CNT.PASS_CNT w.k w.w.s).addr] := by
    simp only [List.mem_singleton, Fd.MXE_RETRY_CNT.PASS_CNT, Reg.MXE_ERR, Reg.MXE_RETRY_CNT]
    omega
  rw [Hw.retryPassed, Hw.flag_of_reg (Hw.accessed_unitEvent.engines _ here), Hw.flag_of_reg (Hw.regsBut_satFld _ apart),
    Hw.flag_setFlag_same _ _ _ rfl (Nat.zero_lt_succ 31)]

/-- The start of a retry is counted. -/
def Hw.retryStart (h : Hw) (w : Work) : Hw := h.countCore w.k { code := 0x0B, masters := [w.w.s + 1] } 1

/-- The accumulation that a retry forms. -/
def Mxe.retried (m : Mxe) (w : Work) (mem : Mem) (ab : AbftIn) : Mxe := (m.rerun w.k mem).flip ab.flips2

section
variable {w : Work} {ab : AbftIn} {m : Mem} {h : Hw} {m0 : Mxe}

theorem drainRetry_ue (hm : h.mxeOf w.k w.w.s = m0) {p : Place} {a : Nat} (ue : m0.replayUe w m = some (p, a)) :
    drainRetry w ab m h = (((h.retryStart w).pieceUe w.x p a).1, .error ((h.retryStart w).pieceUe w.x p a).2) := by
  unfold drainRetry
  dsimp only
  rw [hm, ue]
  rfl
theorem drainRetry_pass (hm : h.mxeOf w.k w.w.s = m0) (ue : m0.replayUe w m = none)
    (pass : (m0.retried w m ab).check.pass = true) (parity : ab.parity2 = false) : drainRetry w ab m h =
      andThen (drainCommit w m (h.retryStart w) (m0.retried w m ab) (m0.retried w m ab).check true)
        (fun h es => (h.retryPassed w, .ok es)) := by
  unfold drainRetry
  dsimp only
  rw [hm, ue]
  dsimp only
  have ok : (((m0.rerun w.k m).flip ab.flips2).check.pass && !ab.parity2) = true :=
    Bool.and_eq_true_iff.2 ⟨pass, by rw [parity]; rfl⟩
  rw [if_pos ok]
  split <;> rename_i h1
  · exact (andThen_eq_error h1).symm
  · refine Eq.trans ?_ (andThen_eq_ok h1).symm
    rfl
theorem drainRetry_fail (hm : h.mxeOf w.k w.w.s = m0) (ue : m0.replayUe w m = none)
    (fail : (m0.retried w m ab).check.pass = false ∨ ab.parity2 = true) : drainRetry w ab m h =
      ((h.retryStart w).satFld (Fd.MXE_RETRY_CNT.FAIL_CNT w.k w.w.s) 1,
        .error ⟨if ab.parity2 then dAccParity else dAbftMismatch, abftArgs (m0.retried w m ab).check⟩) := by
  unfold drainRetry
  dsimp only
  rw [hm, ue]
  dsimp only
  have bad : ¬ (((m0.rerun w.k m).flip ab.flips2).check.pass && !ab.parity2) = true := by
    rcases fail with e | e
    · rw [show ((m0.rerun w.k m).flip ab.flips2).check.pass = false from e]
      exact Bool.false_ne_true
    · rw [e]
      simp
  rw [if_neg bad]
  rfl

end

theorem Work.Within.retryStart {w : Work} {h k : Hw} (g : w.Within h k) : w.Within h (k.retryStart w) :=
  g.accessed Hw.accessed_countCore

theorem Work.Within.drainRetry {w : Work} {h k : Hw} (g : w.Within h k) (ab : AbftIn) (m : Mem) :
    w.Within h (drainRetry w ab m k).1 := by
  cases ue : (k.mxeOf w.k w.w.s).replayUe w m with
  | some q =>
    rw [drainRetry_ue rfl ue]
    exact g.retryStart.accessed Hw.accessed_pieceUe
  | none =>
    by_cases pass : ((k.mxeOf w.k w.w.s).retried w m ab).check.pass = true ∧ ab.parity2 = false
    · rw [drainRetry_pass rfl ue pass.1 pass.2]
      exact andThen_fst (P := w.Within h) (g.retryStart.drainCommit _ _ _ _) (fun _ _ a => a.retryPassed)
    · rw [drainRetry_fail rfl ue ((not_and_or.1 pass).imp Bool.eq_false_of_not_eq_true Bool.eq_true_of_not_eq_false)]
      exact g.retryStart.of_only Hw.only_satFld (by decide)

/-- A piece that a retry finds uncorrectable is the core's own scratchpad's. -/
theorem Mxe.replayUe_mem {m : Mxe} {w : Work} {mem : Mem} {p : Place} {a : Nat} (e : m.replayUe w mem = some (p, a)) : p.mem = 1 := by
  obtain ⟨q, -, hq⟩ := List.exists_of_findSome?_eq_some e
  obtain ⟨⟨off, len⟩, -, hr⟩ := List.exists_of_findSome?_eq_some hq
  obtain ⟨b, -, hb⟩ := Option.map_eq_some_iff.1 hr
  cases hb
  rfl

theorem Hw.pieceUe_detail (h : Hw) (x : Ctx) {p : Place} (a : Nat) (e : p.mem = 1) : (h.pieceUe x p a).2.detail = dOperandUe := by
  unfold Hw.pieceUe
  rw [e]
  rfl

/-! ### The row of a DRAIN -/

theorem Work.Due.of_only {w : Work} {h k : Hw} {ps : List Part} (d : w.Due h) (a : h.Only ps k) (c : Part.ctxs ∉ ps) : w.Due k :=
  ⟨(congrArg (fun t => Tab.find? t w.w.c) (a .ctxs c)).trans d.ctx, d.core, d.infl, d.fresh⟩
theorem Work.Due.markDone {w : Work} {h : Hw} (d : w.Due h) (f : Infl → Infl) :
    ∃ y : Ctx, Tab.find? (h.markDone w.w f).ctxs w.w.c = some y ∧
      (y.run.strm w.key).inflight[w.w.n]? = some (f { w.fl with done := true }) := by
  refine ⟨_, Hw.find?_markDone f d.ctx, ?_⟩
  show ((CtxRun.modStrm _ _ _).strm _).inflight[_]? = _
  rw [CtxRun.strm_modStrm_same]
  simp [modAt, d.infl]


/-- The first check of a DRAIN fails (R74). -/
def Mxe.failed (m : Mxe) (ab : AbftIn) : Prop := m.check.pass = false ∨ ab.parity = true

theorem Mxe.failed_iff {m : Mxe} {ab : AbftIn} : m.failed ab ↔ (m.check.pass && !ab.parity) = false := by
  unfold Mxe.failed
  cases m.check.pass <;> cases ab.parity <;> decide

section
variable {w : Work} {ab : AbftIn} {m : Mem} {h : Hw} {m0 : Mxe}

theorem drainWork_misaligned (hm : h.mxeOf w.k w.w.s = m0) {q : Desc × Int} (e : drainMisaligned w (Fmt.get m0.oFmt) = some q) :
    drainWork ab w m h = (h, .error (alignCond q.1 w.w.lc w.w.lk q.2)) := by
  unfold drainWork
  dsimp only
  rw [hm, e]
theorem drainWork_retrying (hm : h.mxeOf w.k w.w.s = m0) (e : drainMisaligned w (Fmt.get m0.oFmt) = none)
    (ret : m0.retrying = true) : drainWork ab w m h = drainRetry w ab m h := by
  unfold drainWork
  dsimp only
  rw [hm, e]
  dsimp only
  rw [if_pos ret]
theorem drainWork_first (hm : h.mxeOf w.k w.w.s = m0) (e : drainMisaligned w (Fmt.get m0.oFmt) = none)
    (ret : m0.retrying = false) : drainWork ab w m h =
      if (m0.flip ab.flips).check.pass && !ab.parity then drainCommit w m h (m0.flip ab.flips) (m0.flip ab.flips).check false
      else if (m0.flip ab.flips).replayOvf then (h, .error ⟨dNoReplay, abftArgs (m0.flip ab.flips).check⟩)
      else drainRetry w ab m
        (h.markDone w.w (fun f => { f with done := false, cost := f.cost + retryCost (m0.flip ab.flips) })) := by
  unfold drainWork
  dsimp only
  rw [hm, e]
  dsimp only
  rw [if_neg (by rw [ret]; exact Bool.false_ne_true)]

end

theorem Work.Within.retryMarked {w : Work} {h k : Hw} (g : w.Within h k) (n : Nat) :
    w.Within h (k.markDone w.w (fun f => { f with done := false, cost := f.cost + n })) := g.markDone _ (fun _ => ⟨rfl, rfl⟩)

theorem Work.Within.drainWork {w : Work} {h k : Hw} (g : w.Within h k) (ab : AbftIn) (m : Mem) :
    w.Within h (drainWork ab w m k).1 := by
  cases al : drainMisaligned w (Fmt.get (k.mxeOf w.k w.w.s).oFmt) with
  | some q =>
    rw [drainWork_misaligned rfl al]
    exact g
  | none =>
    cases ret : (k.mxeOf w.k w.w.s).retrying with
    | true =>
      rw [drainWork_retrying rfl al ret]
      exact g.drainRetry ab m
    | false =>
      rw [drainWork_first rfl al ret]
      split
      · exact g.drainCommit _ _ _ _
      split
      · exact g
      · exact (g.retryMarked _).drainRetry ab m

section
variable {r : StreamRef} {sn : Seen} {ab : AbftIn} {s : State} {w : Work}

theorem drainLeft_idle (e : s.hw.work r 0x14 = none) : drainLeft r ab s = none := by
  unfold drainLeft
  rw [e]
  exact ite_self _

theorem drainLeft_eq (e : s.hw.work r 0x14 = some w) {m0 : Mxe} (hm : s.hw.mxeOf w.k w.w.s = m0) : drainLeft r ab s =
    if ab.unfinished && !((m0.flip ab.flips).check.pass && !ab.parity) && !(m0.flip ab.flips).replayOvf && !m0.retrying &&
      !(drainMisaligned w (Fmt.get m0.oFmt)).isSome then some w else none := by
  unfold drainLeft
  rw [e]
  dsimp only
  rw [hm, Mxe.retrying_flip, Mxe.oFmt_flip]
  cases ab.unfinished
  · rfl
  · simp only [if_true, Bool.true_and, ← Bool.not_or, Bool.not_eq_true']
    split_ifs <;> simp_all

/-- A DRAIN leaves its retry unfinished where it is aligned, no retry is under way, and its first check fails with a whole list. -/
theorem drainLeft_some (e : s.hw.work r 0x14 = some w) {m0 : Mxe} (hm : s.hw.mxeOf w.k w.w.s = m0)
    (al : drainMisaligned w (Fmt.get m0.oFmt) = none) (ret : m0.retrying = false) (fail : (m0.flip ab.flips).failed ab)
    (ovf : (m0.flip ab.flips).replayOvf = false) (unf : ab.unfinished = true) : drainLeft r ab s = some w := by
  rw [drainLeft_eq e hm, unf, Mxe.failed_iff.1 fail, ovf, ret, al]
  rfl
theorem drainLeft_none (e : s.hw.work r 0x14 = some w) {m0 : Mxe} (hm : s.hw.mxeOf w.k w.w.s = m0)
    (h : ab.unfinished = false ∨ (m0.flip ab.flips).check.pass = true ∧ ab.parity = false ∨ (m0.flip ab.flips).replayOvf = true ∨
      m0.retrying = true ∨ ∃ q, drainMisaligned w (Fmt.get m0.oFmt) = some q) : drainLeft r ab s = none := by
  rw [drainLeft_eq e hm]
  refine if_neg ?_
  rcases h with h | ⟨h, h'⟩ | h | h | ⟨q, h⟩ <;> simp_all

theorem drain_idle (e : s.hw.work r 0x14 = none) : s.commit (drainEff r sn ab s) = s := by
  unfold drainEff
  rw [drainLeft_idle e]
  exact engineEff_idle_commit e
theorem drain_run (e : s.hw.work r 0x14 = some w) (left : drainLeft r ab s = none) :
    Run s (s.commit (drainEff r sn ab s)) sn w (drainWork ab w (s.mem.seen sn) (s.hw.seen sn)) := by
  unfold drainEff
  rw [left]
  exact run_engineEff e
theorem drainEff_left (left : drainLeft r ab s = some w) : drainEff r sn ab s =
    { hw := (s.hw.modMxe w.k w.w.s (fun m => { m with retrying := true })).markDone w.w
        (fun f => { f with done := false, cost := f.cost + retryCost (s.hw.mxeOf w.k w.w.s) }) } := by
  unfold drainEff
  rw [left]

theorem drainEff_burn : (drainEff r sn ab s).burn = [] := by
  unfold drainEff
  split
  · rfl
  · exact engineEff_burn

/-- What a DRAIN leaves alone. -/
theorem drain_frame (e : s.hw.work r 0x14 = some w) : s.hw.Only mxeParts (s.commit (drainEff r sn ab s)).hw ∧
    StreamAlone s (s.commit (drainEff r sn ab s)) w.w.c w.key ∧
    ∀ k, k ≠ w.k → (s.commit (drainEff r sn ab s)).hw.coreOf k = s.hw.coreOf k := by
  have due := (Hw.work_due e).1
  by_cases left : drainLeft r ab s = none
  · have run := drain_run (sn := sn) e left
    have within := run.begun.drainWork ab (s.mem.seen sn)
    exact ⟨run.only within, (run.ends within.going).1, run.coreOf within⟩
  · have left : drainLeft r ab s = some w := by
      rw [drainLeft_eq e rfl] at left ⊢
      exact if_pos (by_contra fun h => left (if_neg h))
    rw [drainEff_left left]
    have within := (due.within.modMxe (fun m => { m with retrying := true })).retryMarked (retryCost (s.hw.mxeOf w.k w.w.s))
    exact ⟨within.only, within.going.alone due rfl, within.cores⟩

/-- Where a retry starts: the instruction's cost has grown where its first check just failed. -/
def Hw.retryFrom (h : Hw) (w : Work) (ab : AbftIn) (m0 : Mxe) : Hw :=
  if m0.retrying then h
  else h.markDone w.w (fun f => { f with done := false, cost := f.cost + retryCost (m0.flip ab.flips) })

theorem drain_retry (e : s.hw.work r 0x14 = some w) {m0 : Mxe} (hm : s.hw.mxeOf w.k w.w.s = m0)
    (al : drainMisaligned w (Fmt.get m0.oFmt) = none) (h : m0.retrying = true ∨
      ((m0.flip ab.flips).failed ab ∧ (m0.flip ab.flips).replayOvf = false ∧ ab.unfinished = false)) :
    Run s (s.commit (drainEff r sn ab s)) sn w (drainRetry w ab (s.mem.seen sn) ((s.hw.seen sn).retryFrom w ab m0)) ∧
      w.Within s.hw ((s.hw.seen sn).retryFrom w ab m0) ∧ ((s.hw.seen sn).retryFrom w ab m0).mxeOf w.k w.w.s = m0 := by
  have start := (Hw.work_due e).1.within.accessed (s.hw.accessed_seen sn)
  have seen : (s.hw.seen sn).mxeOf w.k w.w.s = m0 := (Hw.mxeOf_seen _ _ _ _).trans hm
  cases ret : m0.retrying with
  | true =>
    have run := drain_run (sn := sn) e (drainLeft_none (ab := ab) e hm (.inr (.inr (.inr (.inl ret)))))
    rw [drainWork_retrying seen al ret] at run
    rw [Hw.retryFrom, if_pos ret]
    exact ⟨run, start, seen⟩
  | false =>
    obtain ⟨fail, ovf, unf⟩ := h.resolve_left (by rw [ret]; exact Bool.false_ne_true)
    have run := drain_run (sn := sn) e (drainLeft_none (ab := ab) e hm (.inl unf))
    rw [drainWork_first seen al ret, if_neg (by rw [Mxe.failed_iff.1 fail]; exact Bool.false_ne_true),
      if_neg (by rw [ovf]; exact Bool.false_ne_true)] at run
    rw [Hw.retryFrom, if_neg (by rw [ret]; exact Bool.false_ne_true)]
    exact ⟨run, start.retryMarked _, (Hw.mxeOf_of_cores (Hw.only_markDone .cores (by decide)) _ _).trans seen⟩

theorem drain_only : s.hw.Only mxeParts (s.commit (drainEff r sn ab s)).hw := by
  cases e : s.hw.work r 0x14 with
  | none =>
    rw [drain_idle e]
    exact .refl _ _
  | some w => exact (drain_frame e).1

theorem drain_misaligned (e : s.hw.work r 0x14 = some w) {m0 : Mxe} (hm : s.hw.mxeOf w.k w.w.s = m0) {q : Desc × Int}
    (hq : drainMisaligned w (Fmt.get m0.oFmt) = some q) : Stops s (s.commit (drainEff r sn ab s)) w dAlign ∧
      (s.commit (drainEff r sn ab s)).hw.cores = s.hw.cores := by
  have run := drain_run (sn := sn) (ab := ab) e (drainLeft_none e hm (.inr (.inr (.inr (.inr ⟨q, hq⟩)))))
  have start := run.begun
  rw [drainWork_misaligned ((Hw.mxeOf_seen _ _ _ _).trans hm) hq] at run
  exact ⟨run.stops start.going, Eq.trans run.cores ((s.hw.accessed_seen sn).only .cores (by decide))⟩

theorem drain_passed (e : s.hw.work r 0x14 = some w) {m0 : Mxe} (hm : s.hw.mxeOf w.k w.w.s = m0)
    (al : drainMisaligned w (Fmt.get m0.oFmt) = none) (ret : m0.retrying = false) (pass : (m0.flip ab.flips).check.pass = true)
    (parity : ab.parity = false) : Run s (s.commit (drainEff r sn ab s)) sn w
      (drainCommit w (s.mem.seen sn) (s.hw.seen sn) (m0.flip ab.flips) (m0.flip ab.flips).check false) := by
  have run := drain_run (sn := sn) (ab := ab) e (drainLeft_none e hm (.inr (.inl ⟨pass, parity⟩)))
  rwa [drainWork_first ((Hw.mxeOf_seen _ _ _ _).trans hm) al ret, if_pos (by rw [pass, parity]; rfl)] at run

theorem drain_noReplay (e : s.hw.work r 0x14 = some w) {m0 : Mxe} (hm : s.hw.mxeOf w.k w.w.s = m0)
    (al : drainMisaligned w (Fmt.get m0.oFmt) = none) (ret : m0.retrying = false) (fail : (m0.flip ab.flips).failed ab)
    (ovf : (m0.flip ab.flips).replayOvf = true) : Stops s (s.commit (drainEff r sn ab s)) w dNoReplay := by
  have run := drain_run (sn := sn) (ab := ab) e (drainLeft_none e hm (.inr (.inr (.inl ovf))))
  have start := run.begun
  rw [drainWork_first ((Hw.mxeOf_seen _ _ _ _).trans hm) al ret, if_neg (by rw [Mxe.failed_iff.1 fail]; exact Bool.false_ne_true),
    if_pos ovf] at run
  exact run.stops start.going

/-- A DRAIN whose retry has not ended stays in progress (R77). -/
theorem drain_left (e : s.hw.work r 0x14 = some w) {m0 : Mxe} (hm : s.hw.mxeOf w.k w.w.s = m0)
    (left : drainLeft r ab s = some w) : Mem.But [] s.mem (s.commit (drainEff r sn ab s)).mem ∧
      s.hw.Only [.ctxs, .cores] (s.commit (drainEff r sn ab s)).hw ∧
      (s.commit (drainEff r sn ab s)).hw.mxeOf w.k w.w.s = { m0 with retrying := true } ∧
      ∃ (y : Ctx) (f : Infl), Tab.find? (s.commit (drainEff r sn ab s)).hw.ctxs w.w.c = some y ∧
        (y.run.strm w.key).inflight[w.w.n]? = some f ∧ f.done = false ∧ f.cost = w.fl.cost + retryCost m0 := by
  rw [drainEff_left left, hm]
  obtain ⟨y, hy, infl⟩ := ((Hw.work_due e).1.of_only (Hw.only_modMxe (f := fun m => { m with retrying := true }))
    (by decide)).markDone (fun f => { f with done := false, cost := f.cost + retryCost m0 })
  refine ⟨fun _ _ => rfl, (Hw.only_modMxe.mono (by decide)).trans (Hw.only_markDone.mono (by decide)), ?_, y, _, hy, infl, rfl, rfl⟩
  rw [State.commit_hw, Hw.mxeOf_of_cores (Hw.only_markDone .cores (by decide)), Hw.mxeOf_modMxe_same, hm]

end

/-! ### How a DRAIN ends -/

section
variable {s t : State} {sn : Seen} {w : Work} {ab : AbftIn} {m0 : Mxe} {d : Desc} {v : Int}

/-- A commit to a format without scales: its rows are checked, and where they may be written it goes on. -/
theorem Run.committing {g : Hw} {e : Mxe} {c : Check} {retried : Bool} {o : Nat} {K : Hw → List Edit → Hw × Except Cond (List Edit)}
    (run : Run s t sn w (andThen (drainCommit w (s.mem.seen sn) g e c retried) K)) (within : w.Within s.hw g) (fmt : e.oFmt = o)
    (dests : drainDests w (Fmt.get o) = (d, v, none)) (g' : Hw) :
    (∀ x, g.resultRows (s.mem.seen sn) w d v (Fmt.get o) = (g', .error x) → Stops s t w x.detail ∧ t.hw.cores = g.cores) ∧
    ∀ ps, g.resultRows (s.mem.seen sn) w d v (Fmt.get o) = (g', .ok ps) → w.Within s.hw g' ∧
      Run s t sn w (K (g'.committed w (drainTile e w c retried)) (storeRows (s.mem.seen sn) (ps.zip (drained e w)))) := by
  subst fmt
  have acc : g.Accessed (g.resultRows (s.mem.seen sn) w d v (Fmt.get e.oFmt)).1 := Hw.accessed_dstRows
  rw [drainCommit_eq dests, andThen_assoc] at run
  refine ⟨fun x hq => ?_, fun ps hq => ?_⟩ <;> rw [hq] at run acc
  · exact ⟨run.stops (within.accessed acc).going, run.cores.trans (acc.only .cores (by decide))⟩
  · refine ⟨within.accessed acc, ?_⟩
    have none : g'.scaleRows (s.mem.seen sn) w none = (g', .ok []) := rfl
    rw [andThen_ok, none, andThen_ok, andThen_ok, List.zip_nil_left] at run
    simpa [storeRows] using run

/-- A DRAIN whose first check passes (R68, R74, R78, R491). -/
theorem Run.drainPassed {e : Mxe} {o : Nat}
    (run : Run s t sn w (drainCommit w (s.mem.seen sn) (s.hw.seen sn) e e.check false)) (fmt : e.oFmt = o)
    (dests : drainDests w (Fmt.get o) = (d, v, none)) (g : Hw) :
    (∀ x, (s.hw.seen sn).resultRows (s.mem.seen sn) w d v (Fmt.get o) = (g, .error x) →
      Stops s t w x.detail ∧ t.hw.cores = s.hw.cores) ∧
    ∀ ps, (s.hw.seen sn).resultRows (s.mem.seen sn) w d v (Fmt.get o) = (g, .ok ps) →
      Executed t w ∧ Stored s.mem t.mem (ps.zip (drained e w)) ∧ (t.hw.mxeOf w.k w.w.s).acc = [] ∧
      (t.hw.mxeOf w.k w.w.s).replay = [] ∧
      ∃ u, (t.hw.mxeOf w.k w.w.s).tile = some u ∧ u.retried = false ∧ u.check = e.check.code ∧ u.wl = e.check.wl ∧
        u.drainIdx = w.fl.idx := by
  have start := run.begun
  rw [← andThen_pure (drainCommit _ _ _ _ _ _)] at run
  obtain ⟨stops, next⟩ := run.committing start fmt dests g
  refine ⟨fun x hq => ?_, fun ps hq => ?_⟩
  · obtain ⟨stop, cores⟩ := stops x hq
    exact ⟨stop, cores.trans ((s.hw.accessed_seen sn).only .cores (by decide))⟩
  · obtain ⟨within, run⟩ := next ps hq
    have engine := (Hw.mxeOf_of_cores run.cores w.k w.w.s).trans (g.mxeOf_committed w _)
    obtain ⟨retried, check, wl, idx⟩ := drainTile_fields e w e.check false
    rw [engine]
    exact ⟨run.executed (within.committed _).going, run.stored (storesRows_storeRows _ _), rfl, rfl, _, rfl, retried, check, wl, idx⟩

/-- A retry (R75, R76, R100): an uncorrectable piece, a failure, or a commit with RETRIED. -/
theorem Run.drainRetried {h : Hw} (run : Run s t sn w (drainRetry w ab (s.mem.seen sn) h)) (start : w.Within s.hw h)
    (hm : h.mxeOf w.k w.w.s = m0) :
    (m0.replayUe w (s.mem.seen sn) ≠ none → Stops s t w dOperandUe) ∧
    (m0.replayUe w (s.mem.seen sn) = none →
      ((m0.retried w (s.mem.seen sn) ab).check.pass = false → ab.parity2 = false → Stops s t w dAbftMismatch) ∧
      (ab.parity2 = true → Stops s t w dAccParity) ∧
      ((m0.retried w (s.mem.seen sn) ab).check.pass = true → ab.parity2 = false →
        drainDests w (Fmt.get m0.oFmt) = (d, v, none) → ∀ g,
        (∀ x, (h.retryStart w).resultRows (s.mem.seen sn) w d v (Fmt.get m0.oFmt) = (g, .error x) → Stops s t w x.detail) ∧
        ∀ ps, (h.retryStart w).resultRows (s.mem.seen sn) w d v (Fmt.get m0.oFmt) = (g, .ok ps) →
          Executed t w ∧ Stored s.mem t.mem (ps.zip (drained (m0.retried w (s.mem.seen sn) ab) w)) ∧
          (t.hw.mxeOf w.k w.w.s).acc = [] ∧ (t.hw.mxeOf w.k w.w.s).retrying = false ∧
          (w.k < 576 → w.w.s < 2 → t.hw.flag (Fd.MXE_ERR.ABFT_TRANSIENT w.k w.w.s) = true) ∧
          ∃ u, (t.hw.mxeOf w.k w.w.s).tile = some u ∧ u.retried = true ∧
            u.check = (m0.retried w (s.mem.seen sn) ab).check.code ∧ u.drainIdx = w.fl.idx)) := by
  refine ⟨fun some => ?_, fun none => ⟨fun fail parity => ?_, fun parity => ?_, fun pass parity dests g => ?_⟩⟩
  · obtain ⟨⟨p, a⟩, ue⟩ := Option.ne_none_iff_exists'.1 some
    rw [drainRetry_ue hm ue] at run
    rw [← (h.retryStart w).pieceUe_detail w.x a (Mxe.replayUe_mem ue)]
    exact run.stops (start.retryStart.accessed Hw.accessed_pieceUe).going
  · rw [drainRetry_fail hm none (.inl fail), parity, if_neg Bool.false_ne_true] at run
    exact run.stops (start.retryStart.of_only Hw.only_satFld (by decide)).going
  · rw [drainRetry_fail hm none (.inr parity), if_pos parity] at run
    exact run.stops (start.retryStart.of_only Hw.only_satFld (by decide)).going
  · rw [drainRetry_pass hm none pass parity] at run
    have fmt : (m0.retried w (s.mem.seen sn) ab).oFmt = m0.oFmt := (Mxe.oFmt_flip _ _).trans (Mxe.oFmt_rerun _ _ _)
    obtain ⟨stops, next⟩ := run.committing start.retryStart fmt dests g
    refine ⟨fun x hq => (stops x hq).1, fun ps hq => ?_⟩
    obtain ⟨within, run⟩ := next ps hq
    have engine := (Hw.mxeOf_of_cores (run.cores.trans (Hw.cores_retryPassed _ _)) w.k w.w.s).trans (g.mxeOf_committed w _)
    obtain ⟨retried, check, -, idx⟩ := drainTile_fields (m0.retried w (s.mem.seen sn) ab) w
      (m0.retried w (s.mem.seen sn) ab).check true
    rw [engine]
    exact ⟨run.executed (within.committed _).retryPassed.going, run.stored (storesRows_storeRows _ _), rfl, rfl,
      fun hk hs => (Hw.flag_of_regs run.regs _).trans (Hw.flag_retryPassed _ hk hs), _, rfl, retried, check, idx⟩

end

/-! ## CHKRD (R78) -/

/-- The descriptor of a CHKRD's destination. -/
def Work.chkrdDesc (w : Work) : Desc := (w.x.img.desc? w.w.lc w.w.lk (bitsAt w.word 80 12)).getD noDesc

theorem chkrdWork_misaligned {w : Work} {m : Mem} {h : Hw} (e : w.chkrdDesc.value w.fl.iters % 32 ≠ 0) :
    chkrdWork w m h = (h, .error (alignCond w.chkrdDesc w.w.lc w.w.lk (w.chkrdDesc.value w.fl.iters))) := if_pos e
theorem chkrdWork_aligned {w : Work} {m : Mem} {h : Hw} (e : w.chkrdDesc.value w.fl.iters % 32 = 0) : chkrdWork w m h =
    andThen (h.dstRow m w.x w.w (w.chkrdDesc.unit w.w.lc w.w.lk) (w.chkrdDesc.value w.fl.iters, 32)) (fun h p =>
      (h, .ok (rowEdits m p (tileBytes (h.mxeOf w.k w.w.s).tile)))) := by
  refine (if_neg (not_not.2 e)).trans ?_
  split <;> rename_i h1
  · exact (andThen_eq_error h1).symm
  · refine Eq.trans ?_ (andThen_eq_ok h1).symm
    rfl

theorem Hw.accessed_chkrdWork {w : Work} {m : Mem} {h : Hw} : h.Accessed (chkrdWork w m h).1 := by
  by_cases e : w.chkrdDesc.value w.fl.iters % 32 = 0
  · rw [chkrdWork_aligned e]
    exact andThen_fst (P := h.Accessed) Hw.accessed_dstRow (fun _ _ a => a)
  · rw [chkrdWork_misaligned e]
    exact .refl h

section
variable {s t : State} {sn : Seen} {w : Work}

theorem Run.chkrd (run : Run s t sn w (chkrdWork w (s.mem.seen sn) (s.hw.seen sn))) :
    (w.chkrdDesc.value w.fl.iters % 32 ≠ 0 → Stops s t w dAlign) ∧
    (w.chkrdDesc.value w.fl.iters % 32 = 0 → ∀ g,
      (∀ e, (s.hw.seen sn).dstRow (s.mem.seen sn) w.x w.w (w.chkrdDesc.unit w.w.lc w.w.lk) (w.chkrdDesc.value w.fl.iters, 32) =
        (g, .error e) → Stops s t w e.detail) ∧
      ∀ p, (s.hw.seen sn).dstRow (s.mem.seen sn) w.x w.w (w.chkrdDesc.unit w.w.lc w.w.lk) (w.chkrdDesc.value w.fl.iters, 32) =
          (g, .ok p) → Executed t w ∧ Stored s.mem t.mem [(p, tileBytes (s.hw.mxeOf w.k w.w.s).tile)]) := by
  have start := run.begun
  refine ⟨fun bad => ?_, fun ok g => ?_⟩
  · rw [chkrdWork_misaligned bad] at run
    exact run.stops start.going
  · rw [chkrdWork_aligned ok] at run
    have acc := Hw.accessed_dstRow (h := s.hw.seen sn) (m := s.mem.seen sn) (x := w.x) (w := w.w)
      (u := w.chkrdDesc.unit w.w.lc w.w.lk) (r := (w.chkrdDesc.value w.fl.iters, 32))
    refine ⟨fun e hq => ?_, fun p hq => ?_⟩ <;> rw [hq] at run acc
    · exact run.stops (start.accessed acc).going
    · refine ⟨run.executed (start.accessed acc).going, run.stored ?_⟩
      rw [Hw.mxeOf_of_cores (acc.only .cores (by decide)), Hw.mxeOf_seen]
      exact storesRows_rowEdits _ _ _

end

theorem chkrd_only {r : StreamRef} {sn : Seen} {s : State} :
    s.hw.Only [.regs, .ctxs, .hbm, .xcl, .host, .ccl, .logs, .hist, .out] (s.commit (chkrdEff r sn s)).hw := by
  cases e : s.hw.work r 0x15 with
  | none =>
    rw [chkrdEff, engineEff_idle_commit e]
    exact .refl _ _
  | some w =>
    have run := run_engineEff (sn := sn) (f := chkrdWork) e
    exact (((s.hw.accessed_seen sn).trans Hw.accessed_chkrdWork).only.mono (by decide)).trans (run.kept.mono (by decide))

/-! ## Every instruction -/

/-- Settles O57: an instruction of a matrix engine changes its own engine and the registers and records that its accesses count in;
the cases of each follow the order of its checks. -/
theorem matrixEngine : Obligations.MatrixEngine := by
  intro r s
  refine ⟨?_, ?_, ?_, ?_, ?_, ?_⟩
  · exact ⟨_, rfl, frame_engineControl (f := fun w => setfmtMxe w.word), engineControl_idle, fun w e => engineControl_due e⟩
  · refine ⟨_, rfl, frame_engineControl (f := fun w m => { m with staged := some (w.mmaOps.staged m w.fl.startSteps) }),
      engineControl_idle, fun w e => ?_⟩
    obtain ⟨executed, alone, engine, others, cores⟩ := engineControl_due
      (f := fun w m => { m with staged := some (w.mmaOps.staged m w.fl.startSteps) }) e
    exact ⟨executed, alone, ⟨_, engine, rfl, rfl, MmaOps.serves_staged _ _ _⟩, others, cores⟩
  · refine ⟨_, rfl, Frame.keep only_stagingEff, fun x k hx hk => ⟨fun none => ?_, fun q hq => ⟨fun early => ?_, fun due fresh => ?_⟩⟩⟩
    · rw [stagingEff_none hx hk none]
    · rw [stagingEff_early hx hk hq early]
    · rw [stagingEff_completes hx hk hq due fresh]
      exact ⟨Hw.mxeOf_modMxe_same _ _ _ _, fun e he => Hw.mxeOf_modMxe_other _ _ _ he, fun j hj => Hw.coreOf_modMxe_other _ _ _ hj⟩
  · intro sn q hq
    have eq : exec q.1 s = .next (s.commit (stagedEff r q.2.1 q.2.2 sn s)) := by
      simp only [List.mem_cons, List.not_mem_nil, or_false] at hq
      rcases hq with rfl | rfl <;> rfl
    obtain ⟨fuses, but, only, idle⟩ := staged_frame (r := r) (opc := q.2.1) (zero := q.2.2) (sn := sn) (s := s)
    refine ⟨_, eq, rfl, fuses, but, only, idle, ?_⟩
    rintro w _ m0 e rfl hm
    have wait := stagingWait_due e
    rw [← hm] at wait
    refine ⟨fun h => stagedEff_wait (wait.2 h), fun ready => ?_⟩
    have go : stagingWait r q.2.1 s = false := Bool.eq_false_of_not_eq_true (fun h => by
      obtain ⟨g, staged, serves, incomplete⟩ := wait.1 h
      exact absurd (ready g staged serves) (by rw [incomplete]; decide))
    have run := staged_run (sn := sn) (zero := q.2.2) e go
    have within := run.begun.mmaWork q.2.2 (s.mem.seen sn)
    obtain ⟨-, -, -, -, strm⟩ := Hw.work_due e
    rw [← strm] at hm ⊢
    rw [← Hw.work_key e]
    obtain ⟨unaligned, aligned⟩ := run.mma hm.symm
    refine ⟨(run.ends within.going).1, run.coreOf within, run.mxeOf within, unaligned, fun al g => ⟨(aligned al g).1, fun ps hq => ?_⟩⟩
    obtain ⟨executed, engine, holds⟩ := (aligned al g).2 ps hq
    rw [engine]
    refine ⟨executed, Mxe.staged_mma _ _ _ _ _, holds, Mxe.replay_mma _ _ _ _, fun nonzero full => ?_, ?_⟩
    · rw [nonzero]
      exact Mxe.replayOvf_mma _ _ _ _ full
    · rintro i j hi hj _ _ _ _ rfl rfl rfl rfl
      exact Mxe.acc_mma _ _ _ _ _ hi hj
  · intro sn ab
    refine ⟨_, rfl, rfl, by rw [State.commit_fuses, drainEff_burn]; rfl, drain_only, drain_idle, ?_⟩
    rintro w m0 _ _ d v sc _ _ e hm rfl rfl dests rfl rfl
    obtain ⟨-, alone, cores⟩ := drain_frame (sn := sn) (ab := ab) e
    obtain ⟨-, -, -, -, strm⟩ := Hw.work_due e
    rw [← strm] at hm ⊢
    rw [← Hw.work_key e]
    refine ⟨alone, cores, fun mis => ?_, fun hv hsc => ?_⟩
    · obtain ⟨q, hq⟩ := drainMisaligned_some dests mis
      exact drain_misaligned e hm.symm hq
    have al := drainMisaligned_none dests hv hsc
    refine ⟨fun ret pass parity plain => ?_, fun ret fail => ⟨drain_noReplay e hm.symm al ret fail, fun ovf unf =>
      drain_left e hm.symm (drainLeft_some e hm.symm al ret fail ovf unf)⟩, fun retry => ?_⟩
    · exact (drain_passed e hm.symm al ret pass parity).drainPassed (Mxe.oFmt_flip _ _) (plain ▸ dests)
    · obtain ⟨run, start, engine⟩ := drain_retry (sn := sn) e hm.symm al retry
      obtain ⟨ue, checked⟩ := run.drainRetried (d := d) (v := v) start engine
      refine ⟨ue, fun none => ?_⟩
      obtain ⟨mismatch, parity, commit⟩ := checked none
      exact ⟨mismatch, parity, fun pass par plain => commit pass par (plain ▸ dests)⟩
  · intro sn
    refine ⟨_, rfl, rfl, by rw [State.commit_fuses, chkrdEff, engineEff_burn]; rfl, chkrd_only, engineEff_idle_commit, ?_⟩
    rintro w _ _ e rfl rfl
    have run := run_engineEff (sn := sn) (f := chkrdWork) e
    obtain ⟨-, -, -, -, strm⟩ := Hw.work_due e
    rw [← Hw.work_key e, ← strm]
    exact ⟨(run.ends (run.begun.accessed Hw.accessed_chkrdWork).going).1, run.chkrd⟩

end Sys2Proof.Machine
end

section
/-!
PROOFS. What recording an error of a memory leaves alone besides: the registers of the hubs and of the package, and what is cached
and counted (R119–R124, R135).
-/
namespace Sys2Proof.Machine

/-! ## The hubs' registers -/

/-- A register of a hub or of the package that keeps no count of the fault history or of the event log. -/
def HubReg (a : Nat) : Prop := a < 0x10000000 ∧ a ≠ Reg.PKG_FH_STATUS ∧ a ≠ Reg.CTR_LOG_STATUS

theorem not_hubReg {b o : Nat} (h : 0x10000000 ≤ b) : ¬ HubReg (b + o) := fun e => by
  have := e.1
  omega

theorem le_coreBase (k : Nat) : 0x10000000 ≤ coreBase k := by unfold coreBase clusBase dieBase; omega
theorem le_clusBase (c : Nat) : 0x10000000 ≤ clusBase c := by unfold clusBase dieBase; omega

theorem Hw.reg_setCtr_below {h : Hw} {b n v a : Nat} (lt : a < b) : (h.setCtr b n v).reg a = h.reg a := by
  unfold Hw.setCtr
  rw [Hw.reg_setFld_other _ _ _ (by show a ≠ b + 0x10 * n + 8; omega), Hw.reg_setFld_other _ _ _ (by show a ≠ b + 0x10 * n + 4; omega)]

/-- A bank of counters changes no register below it. -/
theorem Hw.reg_count_below {h : Hw} {b size : Nat} {f : Bool} {e : Ev} {k a : Nat} (lt : a < b) :
    (h.count b size f e k).reg a = h.reg a := by
  have bump (h : Hw) (n : Nat) : (h.bump b n k).reg a = h.reg a := by
    unfold Hw.bump
    dsimp only
    split
    · rw [Hw.reg_setCtr_below lt, Hw.reg_setCtr_below lt]
    · exact Hw.reg_setCtr_below lt
  unfold Hw.count
  generalize List.range size = l
  induction l generalizing h with
  | nil => rfl
  | cons n l ih =>
    rw [List.foldl_cons, ih]
    split
    · exact bump h n
    · rfl

/-! ## Errors that are recorded -/

/-- `k` is `h` after errors of memories are recorded: no other part has changed, and no register of a hub. -/
structure Hw.Noted (h k : Hw) : Prop where
  only : h.Only [.regs, .hbm, .host, .logs, .hist, .out] k
  hub : ∀ a, HubReg a → k.reg a = h.reg a

theorem Hw.Noted.refl (h : Hw) : h.Noted h := ⟨Hw.Only.refl _ _, fun _ _ => rfl⟩
theorem Hw.Noted.trans {h k m : Hw} (a : h.Noted k) (b : k.Noted m) : h.Noted m :=
  ⟨a.only.trans b.only, fun q hq => (b.hub q hq).trans (a.hub q hq)⟩
theorem Hw.Noted.ite {h k m : Hw} {c : Prop} [Decidable c] (a : h.Noted k) (b : h.Noted m) : h.Noted (if c then k else m) := by
  split <;> assumption
theorem Hw.Noted.foldl {α : Type} (f : Hw → α → Hw) (l : List α) (h : Hw) (e : ∀ (k : Hw) (x : α), k.Noted (f k x)) :
    h.Noted (l.foldl f h) := by
  induction l generalizing h with
  | nil => exact .refl h
  | cons x l ih => exact (e h x).trans (ih _)

theorem Hw.Noted.setReg {h : Hw} {a : Nat} {v : W32} (e : ¬ HubReg a) : h.Noted (h.setReg a v) :=
  ⟨Hw.only_setReg.mono (by decide), fun b hb => Hw.reg_setReg_other h v (fun q => e (q ▸ hb))⟩
theorem Hw.Noted.setFld {h : Hw} {f : Fld} {v : Nat} (e : ¬ HubReg f.addr) : h.Noted (h.setFld f v) := .setReg e
theorem Hw.Noted.setFlag {h : Hw} {f : Fld} {b : Bool} (e : ¬ HubReg f.addr) : h.Noted (h.setFlag f b) := .setReg e
theorem Hw.Noted.satFld {h : Hw} {f : Fld} {n : Nat} (e : ¬ HubReg f.addr) : h.Noted (h.satFld f n) := .setReg e
theorem Hw.noted_hbmField {h : Hw} {x : Tab HbmSt} : h.Noted { h with hbm := x } :=
  ⟨Hw.only_hbmField.mono (by decide), fun _ _ => rfl⟩

theorem Hw.noted_history {h : Hw} {u e s d j a : Nat} {c m : Bool} : h.Noted (h.history u e s d j a c m) :=
  ⟨Hw.only_history.mono (by decide), fun q hq => Hw.regsBut_history q (by
    simp only [List.mem_cons, List.not_mem_nil, or_false, not_or]
    exact ⟨hq.2.1, hq.2.2⟩)⟩

theorem Hw.noted_count {h : Hw} {b size : Nat} {f : Bool} {e : Ev} {k : Nat} (le : 0x10000000 ≤ b) : h.Noted (h.count b size f e k) :=
  ⟨Hw.only_count.mono (by decide), fun _ hq => Hw.reg_count_below (hq.1.trans_le le)⟩
theorem Hw.noted_countCore {h : Hw} {k n : Nat} {e : Ev} : h.Noted (h.countCore k e n) :=
  Hw.noted_count ((le_coreBase k).trans (Nat.le_add_right _ _))

theorem not_hubReg_hbm {s o : Nat} : ¬ HubReg (hbmBase s + o) :=
  not_hubReg ((by decide : 0x10000000 ≤ 0x30000000).trans (le_hbmBase s))

theorem Hw.noted_retirePage {h : Hw} {s pfn pma : Nat} : h.Noted (h.retirePage s pfn pma) :=
  (Hw.noted_hbmField.trans (.setFld not_hubReg_hbm)).trans Hw.noted_history
theorem Hw.noted_recordUe {h : Hw} {pma detail job : Nat} : h.Noted (h.recordUe pma detail job) :=
  ((Hw.Noted.satFld not_hubReg_hbm).trans (.ite (.refl _) (((Hw.Noted.setFld not_hubReg_hbm).trans
    (.setFld not_hubReg_hbm)).trans (.setFlag not_hubReg_hbm)))).trans Hw.noted_history
theorem Hw.noted_hbmUe {h : Hw} {pma d j : Nat} : h.Noted (h.hbmUe pma d j) := by
  rw [Hw.hbmUe_eq]
  exact .ite Hw.noted_recordUe (Hw.noted_recordUe.trans Hw.noted_retirePage)
theorem Hw.noted_recordCe {h : Hw} {pma : Nat} : h.Noted (h.recordCe pma) :=
  (Hw.Noted.satFld not_hubReg_hbm).trans Hw.noted_hbmField

theorem Hw.noted_corrected {h : Hw} {a : Nat} : h.Noted (h.corrected a) := by
  rcases Nat.lt_or_ge a (2 ^ 44) with lt | ge
  · unfold Hw.corrected
    refine .ite ?_ (.ite ?_ ?_)
    · exact (Hw.Noted.satFld (not_hubReg (le_coreBase _))).trans Hw.noted_countCore
    · exact .satFld (not_hubReg (le_clusBase _))
    · rw [if_pos lt]
      exact .refl h
  · obtain ⟨c, e⟩ := Hw.corrected_hbm (h := h) ge
    rw [e]
    exact .ite (Hw.noted_recordCe.trans Hw.noted_retirePage) Hw.noted_recordCe

/-- What a command's reads find is only recorded. -/
theorem Hw.noted_seen (h : Hw) (sn : Seen) : h.Noted (h.seen sn) :=
  (Hw.Noted.foldl _ _ _ (fun _ _ => Hw.noted_corrected)).trans
    (Hw.Noted.foldl _ _ _ (fun _ _ => .ite (.refl _) (.satFld not_hubReg_hbm)))

/-- The pieces that are found uncorrectable change no byte. -/
theorem Mem.but_seenEdits (m : Mem) (sn : Seen) : Mem.But [] m (m.edit (seenEdits sn)) := fun q _ => by
  rw [Mem.edit_seenEdits, Mem.read_seen]

/-- A walk changes nothing but the records of the copies that it finds uncorrectable (R135). -/
theorem Hw.noted_walk {h : Hw} {m : Mem} {job ctx region lpn w : Nat} : h.Noted (h.walk m job ctx region lpn w).1 := by
  rw [Hw.walk_fst]
  have near : h.Noted (if (m.ueIn (mapAddr ctx region lpn (Config.nearCopy ctx region lpn w).val) 8).isSome
      then h.hbmUe (Config.mapPma ctx region lpn (Config.nearCopy ctx region lpn w).val) dMapUe job else h) :=
    .ite Hw.noted_hbmUe (.refl h)
  exact .ite (near.trans Hw.noted_hbmUe) near

theorem Hw.Noted.tb {h k : Hw} (a : h.Noted k) : k.tb = h.tb := a.only .tb (by decide)
theorem Hw.Noted.ctxs {h k : Hw} (a : h.Noted k) : k.ctxs = h.ctxs := a.only .ctxs (by decide)
theorem Hw.Noted.cve {h k : Hw} (a : h.Noted k) : k.cve = h.cve := a.only .cve (by decide)
theorem Hw.Noted.xcl {h k : Hw} (a : h.Noted k) : k.xcl = h.xcl := a.only .xcl (by decide)
theorem Hw.Noted.fld {h k : Hw} (a : h.Noted k) {f : Fld} (e : HubReg f.addr) : k.fld f = h.fld f := Hw.fld_of_reg (a.hub _ e)
theorem Hw.Noted.flag {h k : Hw} (a : h.Noted k) {f : Fld} (e : HubReg f.addr) : k.flag f = h.flag f := Hw.flag_of_reg (a.hub _ e)

end Sys2Proof.Machine
end

section
/-!
PROOFS. The start of a COLL (R91, R290, R291, R295, R296, R312): O51.
-/
namespace Sys2Proof.Machine

/-! ## The registers of a group's entry -/

theorem hubReg_group {g o : Nat} (hg : g < 1024) (ho : o < 16) : HubReg (0x8000 + (0x1000 + o) + 16 * g) := by
  unfold HubReg Reg.PKG_FH_STATUS Reg.CTR_LOG_STATUS
  omega

section
variable {h k : Hw} {g : Nat}

theorem Hw.Noted.groupLive (n : h.Noted k) (hg : g < 1024) : k.groupLive g = h.groupLive g := by
  have w1 : HubReg (Reg.CVE_GRP_W1 g) := hubReg_group hg (o := 4) (by decide)
  rw [Hw.groupLive, Hw.groupLive, n.flag (f := Fd.CVE_GRP_W1.VALID g) w1, n.flag (f := Fd.CVE_GRP_W1.FENCED g) w1]
theorem Hw.Noted.groupCve (n : h.Noted k) (hg : g < 1024) : k.groupCve g = h.groupCve g := by
  rw [Hw.groupCve, Hw.groupCve, n.fld (f := Fd.CVE_GRP_W1.CVE g) (hubReg_group hg (o := 4) (by decide))]
theorem Hw.Noted.seqCurrent (n : h.Noted k) (seq : Nat) : k.seqCurrent g seq = h.seqCurrent g seq := by
  rw [Hw.seqCurrent, Hw.seqCurrent, Hw.groupBase, Hw.groupBase, Hw.grp, Hw.grp, n.cve]
theorem Hw.Noted.coll? (n : h.Noted k) (seq : Nat) : k.coll? g seq = h.coll? g seq := by rw [Hw.coll?, Hw.coll?, n.cve]
end

theorem Hw.coll?_isSome {h : Hw} {g seq : Nat} : (h.coll? g seq).isSome = true ↔ ∃ c ∈ h.cve.colls, c.grp = g ∧ c.seq = seq := by
  simp [Hw.coll?]

/-! ## A COLL's own effect -/

/-- The SEQ that the word of a COLL names. -/
def Work.collSeq (w : Work) : Nat := w.x.img.valueOf w.w.lc w.w.lk (bitsAt w.word 56 12) w.fl.iters 16

/-- The bytes that the operands of a COLL are aligned to. -/
def CollDecl.align (dc : CollDecl) : Nat := if dc.dtype = 1 then 2 else 4

/-- A check that a COLL does not pass: the bit of CVE_ERR and the condition (R295, R312). -/
def Hw.collRefused (h : Hw) (w : Work) (dc : CollDecl) (detail : Nat) : Hw × Except Cond (List Edit × Option Nat) :=
  (h.setErr (cveErr (h.groupCve dc.group) detail), .error ⟨detail, collArgs (h.fld (Fd.CVE_GRP_W0.GID dc.group)) w.collSeq
    (h.fld (Fd.CVE_GRP_W1.GEN dc.group)) 0 0 0xFFFF 0 0 dc.id⟩)

/-- The collective that a COLL starts, as it waits for admission. -/
def Hw.collNew (h : Hw) (w : Work) (dc : CollDecl) : Coll :=
  { ctx := w.w.c, lc := w.w.lc, lk := w.w.lk, idx := w.fl.idx, grp := dc.group, gid := h.fld (Fd.CVE_GRP_W0.GID dc.group),
    seq := w.collSeq, gen := h.fld (Fd.CVE_GRP_W1.GEN dc.group), op := dc.op, dtype := dc.dtype, redop := dc.redop,
    collId := dc.id, stageOk := dc.stageOk, bytes := dc.bytes, m := h.fld (Fd.CVE_GRP_W2.M dc.group),
    me := h.fld (Fd.CVE_GRP_W2.MY_INDEX dc.group), gust := h.gustPath dc.group dc.op dc.dtype dc.redop dc.bytes,
    src := (w.vop 80).d.unit w.w.lc w.w.lk, srcV := (w.vop 80).v, dst := (w.vop 68).d.unit w.w.lc w.w.lk, dstV := (w.vop 68).v,
    startTb := h.tb, cve := h.groupCve dc.group }

/-- The entry of a COLL's group is bound to its context (R290). -/
def Hw.collBound (h : Hw) (w : Work) (dc : CollDecl) : Hw :=
  (h.setFlag (Fd.CVE_GRP_W1.BOUND dc.group) true).setFld (Fd.CVE_GRP_W3.CTX dc.group) w.w.c

/-- A bound COLL: the only member copies its contribution, and otherwise the collective waits for admission (R91). -/
def Hw.collEntered (h : Hw) (m : Mem) (c : Coll) : Hw × Except Cond (List Edit × Option Nat) :=
  if c.m = 1 then
    match h.collRead m c 0 c.bytes with
    | (h, .error e) => (h, .error e)
    | (h, .ok bs) =>
      match h.collWrite m c 0 bs with
      | (h, .error e) => (h, .error e)
      | (h, .ok es) => (h.endColl c, .ok (es, none))
  else ({ h with cve := { h.cve with colls := h.cve.colls ++ [c] } }, .ok ([], some (collKey c.grp c.seq)))

/-- A COLL that has passed its checks: the bounds of its ranges, then the binding and the start (R290, R291). -/
def Hw.collPlaced (h : Hw) (m : Mem) (w : Work) (dc : CollDecl) : Hw × Except Cond (List Edit × Option Nat) :=
  match w.x.resolve (h.collNew w dc).src (w.vop 80).v dc.bytes,
      w.x.resolve (h.collNew w dc).dst (w.vop 68).v (h.collNew w dc).dstBytes with
  | .error e, _ => (h, .error e)
  | _, .error e => (h, .error e)
  | .ok _, .ok _ => (h.collBound w dc).collEntered m (h.collNew w dc)

/-- The start checks in their order (R295). -/
def Hw.collChecked (h : Hw) (m : Mem) (w : Work) (dc : CollDecl) : Hw × Except Cond (List Edit × Option Nat) :=
  if h.groupLive dc.group = false ∨ h.fld (Fd.CVE_GRP_W0.JOB dc.group) ≠ w.x.host.job then h.collRefused w dc dGroupInvalid
  else if h.flag (Fd.CVE_GRP_W1.BOUND dc.group) = true ∧ h.fld (Fd.CVE_GRP_W3.CTX dc.group) ≠ w.w.c then
    h.collRefused w dc dGroupBusy
  else if sizeOk dc.op dc.bytes (h.fld (Fd.CVE_GRP_W2.M dc.group)) = false then h.collRefused w dc dSize
  else if h.seqCurrent dc.group w.collSeq = false ∨ (h.coll? dc.group w.collSeq).isSome = true then h.collRefused w dc dSeq
  else h.collPlaced m w dc

section
variable {w : Work} {dc : CollDecl} {m : Mem} {h : Hw}

theorem collWork_undeclared (decl : w.x.img.colls.find? (fun c => c.id == bitsAt w.word 44 12) = none) :
    collWork w m h = (h, .ok ([], none)) := by
  unfold collWork
  dsimp only
  rw [decl]

theorem collWork_eq (decl : w.x.img.colls.find? (fun c => c.id == bitsAt w.word 44 12) = some dc) : collWork w m h =
    if (w.vop 80).v % dc.align ≠ 0 then (h, .error (alignCond (w.vop 80).d w.w.lc w.w.lk (w.vop 80).v))
    else if (w.vop 68).v % dc.align ≠ 0 then (h, .error (alignCond (w.vop 68).d w.w.lc w.w.lk (w.vop 68).v))
    else h.collChecked m w dc := by
  unfold collWork Hw.collChecked Hw.collPlaced Hw.collEntered
  dsimp only
  rw [decl]
  dsimp only
  rfl

theorem Hw.collPlaced_ok {p q : Place} (src : w.x.resolve (h.collNew w dc).src (w.vop 80).v dc.bytes = .ok p)
    (dst : w.x.resolve (h.collNew w dc).dst (w.vop 68).v (h.collNew w dc).dstBytes = .ok q) :
    h.collPlaced m w dc = (h.collBound w dc).collEntered m (h.collNew w dc) := by
  rw [Hw.collPlaced, src, dst]

end

/-! ## What a COLL's own effect leaves alone -/

theorem Hw.accessed_collRead {h : Hw} {m : Mem} {c : Coll} {off len : Nat} : h.Accessed (h.collRead m c off len).1 := by
  unfold Hw.collRead
  split
  · exact .refl h
  · rename_i x _
    have acc := Hw.accessed_srcRow (m := m) (x := x) (w := c.who x) (u := c.src) (h := h) (r := (c.srcV + (off : Nat), len))
    split <;> rename_i eq <;> rw [eq] at acc <;> exact acc

theorem Hw.accessed_collWrite {h : Hw} {m : Mem} {c : Coll} {off : Nat} {bs : List Byte} :
    h.Accessed (h.collWrite m c off bs).1 := by
  unfold Hw.collWrite
  split
  · exact .refl h
  · rename_i x _
    have acc := Hw.accessed_dstRow (m := m) (x := x) (w := c.who x) (u := c.dst) (h := h) (r := (c.dstV + (off : Nat), bs.length))
    split <;> rename_i eq <;> rw [eq] at acc <;> exact acc

/-- The parts that a COLL's own effect may change. -/
def collParts : List Part := .cve :: accessParts

theorem Hw.only_cveField {h : Hw} {x : CveSt} : h.Only [.cve] { h with cve := x } := fun q hq => by
  cases q
  case cve => simp at hq
  all_goals rfl

theorem Hw.only_endColl {h : Hw} {c : Coll} : h.Only [.cve] (h.endColl c) := Hw.only_cveField.trans Hw.only_cveField

theorem Hw.only_collEntered {h : Hw} {m : Mem} {c : Coll} : h.Only collParts (h.collEntered m c).1 := by
  have accessed {k l : Hw} (a : k.Accessed l) : k.Only collParts l := a.only.mono (by decide)
  unfold Hw.collEntered
  split
  · have read := accessed (Hw.accessed_collRead (h := h) (m := m) (c := c) (off := 0) (len := c.bytes))
    split <;> rename_i g x eq <;> rw [eq] at read
    · exact read
    · have written := read.trans (accessed (Hw.accessed_collWrite (m := m) (c := c) (off := 0) (bs := x)))
      split <;> rename_i eq <;> rw [eq] at written
      · exact written
      · exact written.trans (Hw.only_endColl.mono (by decide))
  · exact Hw.only_cveField.mono (by decide)

theorem Hw.only_collChecked {h : Hw} {m : Mem} {w : Work} {dc : CollDecl} : h.Only collParts (h.collChecked m w dc).1 := by
  have refused (d : Nat) : h.Only collParts (h.collRefused w dc d).1 := Hw.only_setErr.mono (by decide)
  have bound : h.Only collParts (h.collBound w dc) := (Hw.only_setFlag.trans Hw.only_setFld).mono (by decide)
  unfold Hw.collChecked
  split_ifs
  · exact refused _
  · exact refused _
  · exact refused _
  · exact refused _
  · unfold Hw.collPlaced
    split
    · exact .refl _ _
    · exact .refl _ _
    · exact bound.trans Hw.only_collEntered

theorem only_collWork {w : Work} {m : Mem} {h : Hw} : h.Only collParts (collWork w m h).1 := by
  cases decl : w.x.img.colls.find? (fun c => c.id == bitsAt w.word 44 12) with
  | none => rw [collWork_undeclared decl]; exact .refl _ _
  | some dc =>
    rw [collWork_eq decl]
    split_ifs
    · exact .refl _ _
    · exact .refl _ _
    · exact Hw.only_collChecked

/-! ## The row around it -/

section
variable {r : StreamRef} {sn : Seen} {s : State} {w : Work} {g : Hw}

theorem collEff_idle (e : s.hw.work r 0x43 = none) : collEff r sn s = { hw := s.hw } := by
  unfold collEff
  rw [e]

theorem collEff_ok (e : s.hw.work r 0x43 = some w) {es : List Edit} {k : Option Nat}
    (q : collWork w (s.mem.seen sn) (s.hw.seen sn) = (g, .ok (es, k))) :
    collEff r sn s = { hw := g.markDone w.w (fun f => { f with coll := k }), edits := seenEdits sn ++ es } := by
  unfold collEff
  rw [e]
  dsimp only
  rw [q]

theorem collEff_error (e : s.hw.work r 0x43 = some w) {c : Cond}
    (q : collWork w (s.mem.seen sn) (s.hw.seen sn) = (g, .error c)) : collEff r sn s =
      { hw := if c.detail / 256 = 6 then
          g.raise w.w.c c (punitHub (s.hw.groupCve w.collGroup) 3) (lunitOf w.w.lc w.w.lk w.w.s) (indexOf w.fl.idx)
          else g.workFault w c,
        edits := seenEdits sn } := by
  unfold collEff
  rw [e]
  dsimp only
  rw [q]

theorem collEff_burn : (collEff r sn s).burn = [] := by
  cases e : s.hw.work r 0x43 with
  | none => rw [collEff_idle e]
  | some w =>
    rcases q : collWork w (s.mem.seen sn) (s.hw.seen sn) with ⟨g, c | ⟨es, k⟩⟩
    · rw [collEff_error e q]
    · rw [collEff_ok e q]

theorem collEff_only :
    s.hw.Only [.regs, .ctxs, .hbm, .xcl, .cve, .host, .ccl, .logs, .hist, .out] (collEff r sn s).hw := by
  cases e : s.hw.work r 0x43 with
  | none => rw [collEff_idle e]; exact .refl _ _
  | some w =>
    have own := ((Hw.accessed_seen s.hw sn).only.mono (by decide)).trans
      (only_collWork (w := w) (m := s.mem.seen sn) (h := s.hw.seen sn))
    rcases q : collWork w (s.mem.seen sn) (s.hw.seen sn) with ⟨g, c | ⟨es, k⟩⟩ <;>
      rw [q] at own <;> have own := own.mono (qs := [.regs, .ctxs, .hbm, .xcl, .cve, .host, .ccl, .logs, .hist, .out]) (by decide)
    · rw [collEff_error e q]
      exact own.trans (.ite (Hw.only_raise.mono (by decide)) (Hw.only_workFault.mono (by decide)))
    · rw [collEff_ok e q]
      exact own.trans (Hw.only_markDone.mono (by decide))

/-! ## How a COLL ends -/

/-- A condition that is detected on a unit of its own (R380) faults the instruction's context. -/
theorem Work.Going.raised_unit {t : State} {k : Hw} {c : Cond} {u l i : Nat} (d : w.Due s.hw) (a : w.Going s.hw k)
    (eq : t.hw = k.raise w.w.c c u l i) : Raised s t w.w.c c.detail := by
  intro x hx live none
  obtain rfl := Option.some.inj (d.ctx.symm.trans hx)
  obtain ⟨y, -, hy, host, fault, -⟩ := a.ctx
  obtain ⟨z, hz, -, -, -, record⟩ := Hw.find?_raise (d := c) (u := u) (l := l) (i := i) hy
  obtain ⟨zhost, step, r, zfault, detail, cls, tb, job, more⟩ := record (by rw [Ctx.canFault, host, ← Ctx.canFault, live])
    (fault.trans none)
  exact ⟨z, r, by rw [eq]; exact hz, by rw [zhost, host], zfault, step, detail, cls, tb.trans a.tb, by rw [job, host], more⟩

theorem Hw.Noted.going {h k : Hw} (n : h.Noted k) (d : w.Due h) : w.Going h k := d.going.of_only n.only (by decide) (by decide)

theorem coll_misaligned (e : s.hw.work r 0x43 = some w) {dc : CollDecl}
    (decl : w.x.img.colls.find? (fun c => c.id == bitsAt w.word 44 12) = some dc)
    (bad : (w.vop 80).v % dc.align ≠ 0 ∨ (w.vop 68).v % dc.align ≠ 0) :
    Raised s (s.commit (collEff r sn s)) w.w.c dAlign ∧ (s.commit (collEff r sn s)).hw.cve = s.hw.cve ∧
      Mem.But [] s.mem (s.commit (collEff r sn s)).mem := by
  have due := (Hw.work_due e).1
  have noted := Hw.noted_seen s.hw sn
  obtain ⟨c, detail, q⟩ : ∃ c : Cond, c.detail = dAlign ∧
      collWork w (s.mem.seen sn) (s.hw.seen sn) = (s.hw.seen sn, .error c) := by
    rw [collWork_eq decl]
    split_ifs with h80 h68
    · exact ⟨_, rfl, rfl⟩
    · exact ⟨_, rfl, rfl⟩
    · exact absurd bad (not_or.2 ⟨h80, h68⟩)
  have eff := collEff_error e q
  rw [if_neg (by rw [detail]; decide)] at eff
  rw [eff, ← detail]
  have kept : ((s.hw.seen sn).workFault w c).cve = (s.hw.seen sn).cve := Hw.only_workFault .cve (by decide)
  exact ⟨((noted.going due).raised due rfl).1, kept.trans noted.cve, Mem.but_seenEdits _ _⟩

theorem coll_refused (e : s.hw.work r 0x43 = some w) {dc : CollDecl} (hg : dc.group < 1024) {detail lo : Nat}
    (q : collWork w (s.mem.seen sn) (s.hw.seen sn) = (s.hw.seen sn).collRefused w dc detail) (six : detail / 256 = 6)
    (bit : cveErr (s.hw.groupCve dc.group) detail = some ⟨Reg.CVE_ERR (s.hw.groupCve dc.group), lo, 1⟩) (hl : lo < 32) :
    Raised s (s.commit (collEff r sn s)) w.w.c detail ∧ (s.commit (collEff r sn s)).hw.cve = s.hw.cve ∧
      (s.commit (collEff r sn s)).hw.flag ⟨Reg.CVE_ERR (s.hw.groupCve dc.group), lo, 1⟩ = true := by
  have due := (Hw.work_due e).1
  have noted := Hw.noted_seen s.hw sn
  rw [Hw.collRefused, noted.groupCve hg, bit] at q
  generalize hb : (s.hw.seen sn).setErr (some ⟨Reg.CVE_ERR (s.hw.groupCve dc.group), lo, 1⟩) = b at q
  have err : (s.hw.seen sn).Only [.regs] b := hb ▸ Hw.only_setErr
  have bitSet : b.flag ⟨Reg.CVE_ERR (s.hw.groupCve dc.group), lo, 1⟩ = true := hb ▸ Hw.flag_setFlag_same _ _ true rfl hl
  have eff := collEff_error e q
  rw [if_pos six] at eff
  have ends : (s.commit (collEff r sn s)).hw = _ := congrArg Eff.hw eff
  refine ⟨((noted.going due).of_only err (by decide) (by decide)).raised_unit due ends, ?_, ?_⟩ <;> rw [ends]
  · have kept : b.cve = (s.hw.seen sn).cve := err .cve (by decide)
    exact (Eq.trans (Hw.only_raise .cve (by decide)) kept).trans noted.cve
  · rw [Hw.only_raise.flag (by decide), bitSet]

/-- The entry of the group after it is bound. -/
theorem Hw.collBound_entry (h : Hw) {dc : CollDecl} (hc : w.w.c < 64) :
    (h.collBound w dc).flag (Fd.CVE_GRP_W1.BOUND dc.group) = true ∧ (h.collBound w dc).fld (Fd.CVE_GRP_W3.CTX dc.group) = w.w.c := by
  refine ⟨?_, (Hw.fld_setFld_same _ _ _ (by show 26 + 6 ≤ 32; decide)).trans (Nat.mod_eq_of_lt hc)⟩
  refine (Hw.flag_setFld_other _ _ _ _ (by show 26 + 6 ≤ 32; decide) (.inl ?_)).trans
    (Hw.flag_setFlag_same _ _ true rfl (by show 29 < 32; decide))
  show 0x8000 + 0x1004 + 16 * dc.group ≠ 0x8000 + 0x100c + 16 * dc.group
  omega

/-- A COLL of more than one member that passes every check binds its entry and waits for admission. -/
theorem coll_started (e : s.hw.work r 0x43 = some w) {dc : CollDecl} (hg : dc.group < 1024)
    (several : s.hw.fld (Fd.CVE_GRP_W2.M dc.group) ≠ 1)
    (q : collWork w (s.mem.seen sn) (s.hw.seen sn) =
      ((s.hw.seen sn).collBound w dc).collEntered (s.mem.seen sn) ((s.hw.seen sn).collNew w dc)) {t : State}
    (ht : t = s.commit (collEff r sn s)) : Executed t w ∧ Mem.But [] s.mem t.mem ∧
      t.hw.flag (Fd.CVE_GRP_W1.BOUND dc.group) = true ∧ t.hw.fld (Fd.CVE_GRP_W3.CTX dc.group) = w.w.c ∧
      t.hw.cve = { s.hw.cve with colls := s.hw.cve.colls ++ [(s.hw.seen sn).collNew w dc] } := by
  obtain ⟨due, hc, -⟩ := Hw.work_due e
  have noted := Hw.noted_seen s.hw sn
  have bound : (s.hw.seen sn).Only [.regs] ((s.hw.seen sn).collBound w dc) := Hw.only_setFlag.trans Hw.only_setFld
  have members : ((s.hw.seen sn).collNew w dc).m ≠ 1 := by
    rw [← noted.fld (f := Fd.CVE_GRP_W2.M dc.group) (hubReg_group hg (o := 8) (by decide))] at several
    exact several
  rw [Hw.collEntered, if_neg members] at q
  generalize hb : (s.hw.seen sn).collBound w dc = b at q bound
  obtain ⟨g, k, q, only, cve⟩ : ∃ g k, collWork w (s.mem.seen sn) (s.hw.seen sn) = (g, .ok ([], k)) ∧ b.Only [.cve] g ∧
      g.cve = { b.cve with colls := b.cve.colls ++ [(s.hw.seen sn).collNew w dc] } := ⟨_, _, q, Hw.only_cveField, rfl⟩
  have same : b.cve = (s.hw.seen sn).cve := bound .cve (by decide)
  obtain ⟨flag, ctx⟩ := (s.hw.seen sn).collBound_entry (dc := dc) (w := w) (hc ▸ r.ctx.isLt)
  rw [hb] at flag ctx
  have going := ((noted.going due).of_only bound (by decide) (by decide)).of_only only (by decide) (by decide)
  obtain ⟨y, fl, hy, host, fault, -, idx, tb, infl⟩ := going.marked (fun f => { f with coll := k })
  have kept : b.Only [.cve, .ctxs] (g.markDone w.w (fun f => { f with coll := k })) :=
    (only.mono (by decide)).trans (Hw.only_markDone.mono (by decide))
  have ends : t.hw = g.markDone w.w (fun f => { f with coll := k }) := by rw [ht, collEff_ok e q, State.commit_hw]
  refine ⟨⟨y, _, by rw [ends]; exact hy, host, fault, infl, rfl, idx, tb⟩, ?_,
    by rw [ends, kept.flag (by decide), flag], by rw [ends, kept.fld (by decide), ctx], by rw [ends, ← noted.cve, ← same]; exact cve⟩
  rw [ht, collEff_ok e q, List.append_nil]
  exact Mem.but_seenEdits _ _

end

/-- A COLL whose operands are aligned runs the start checks on the entry as it stood before what its reads find. -/
theorem coll_checked {sn : Seen} {s : State} {w : Work} {dc : CollDecl} {m : Mem} (hg : dc.group < 1024)
    (decl : w.x.img.colls.find? (fun c => c.id == bitsAt w.word 44 12) = some dc) (h80 : (w.vop 80).v % dc.align = 0)
    (h68 : (w.vop 68).v % dc.align = 0) : collWork w m (s.hw.seen sn) =
      if s.hw.groupLive dc.group = false ∨ s.hw.fld (Fd.CVE_GRP_W0.JOB dc.group) ≠ w.x.host.job then
        (s.hw.seen sn).collRefused w dc dGroupInvalid
      else if s.hw.flag (Fd.CVE_GRP_W1.BOUND dc.group) = true ∧ s.hw.fld (Fd.CVE_GRP_W3.CTX dc.group) ≠ w.w.c then
        (s.hw.seen sn).collRefused w dc dGroupBusy
      else if sizeOk dc.op dc.bytes (s.hw.fld (Fd.CVE_GRP_W2.M dc.group)) = false then (s.hw.seen sn).collRefused w dc dSize
      else if s.hw.seqCurrent dc.group w.collSeq = false ∨ (s.hw.coll? dc.group w.collSeq).isSome = true then
        (s.hw.seen sn).collRefused w dc dSeq
      else (s.hw.seen sn).collPlaced m w dc := by
  have noted := Hw.noted_seen s.hw sn
  rw [collWork_eq decl, if_neg (not_not.2 h80), if_neg (not_not.2 h68), Hw.collChecked, noted.groupLive hg, noted.seqCurrent,
    noted.coll?, noted.fld (f := Fd.CVE_GRP_W0.JOB dc.group) (hubReg_group hg (o := 0) (by decide)),
    noted.flag (f := Fd.CVE_GRP_W1.BOUND dc.group) (hubReg_group hg (o := 4) (by decide)),
    noted.fld (f := Fd.CVE_GRP_W3.CTX dc.group) (hubReg_group hg (o := 12) (by decide)),
    noted.fld (f := Fd.CVE_GRP_W2.M dc.group) (hubReg_group hg (o := 8) (by decide))]

theorem sizeOk_iff {op bytes m : Nat} : sizeOk op bytes m = false ↔
    (op = 2 ∧ bytes % 8 ≠ 0) ∨ (op ≠ 2 ∧ bytes % (8 * m) ≠ 0) := by
  unfold sizeOk
  split <;> simp [*]

/-- The gust path, where the group allows it (R310). -/
theorem Hw.gustPath_iff {h : Hw} {g op dtype redop bytes : Nat} (en : h.flag (Fd.CVE_GRP_W1.GUST_EN g) = true) :
    (op = 0 ∧ bytes ≤ 32 ∧ (dtype = 8 ∨ (dtype = 0 ∧ redop ≠ 0))) ↔ h.gustPath g op dtype redop bytes = true := by
  simp [Hw.gustPath, en, and_assoc]

/-- Settles O51: the row of a COLL, check by check. -/
theorem collStarts : Obligations.CollStarts := by
  unfold Obligations.CollStarts
  intro s r sn
  refine ⟨s.commit (collEff r sn s), rfl, rfl, by rw [State.commit_fuses, collEff_burn, Fuses.burn_nil], collEff_only,
    fun e => by rw [collEff_idle e]; rfl, ?_⟩
  intro w dc sd dd sv dv seq g e decl hsd hdd hsv hdv hseq hg lt
  obtain rfl : sv = (w.vop 80).v := hsv.trans (by rw [hsd]; rfl)
  obtain rfl : dv = (w.vop 68).v := hdv.trans (by rw [hdd]; rfl)
  obtain rfl : seq = w.collSeq := hseq
  subst hsd hdd hg
  refine ⟨fun al hal => ?_, Hw.gustPath_iff⟩
  obtain rfl : al = dc.align := by rw [hal, CollDecl.align]; split <;> rfl
  refine ⟨coll_misaligned e decl, fun h80 h68 => ?_⟩
  have q := coll_checked (sn := sn) (s := s) (m := s.mem.seen sn) lt decl h80 h68
  refine ⟨fun bad => coll_refused e lt (by rw [q, if_pos bad]) rfl rfl (by decide), fun live job => ?_⟩
  rw [if_neg (by simp [live, job])] at q
  refine ⟨fun bad => coll_refused e lt (by rw [q, if_pos bad]) rfl rfl (by decide), fun free m hm => ?_⟩
  subst hm
  rw [if_neg (by rcases free with f | f <;> simp [f])] at q
  refine ⟨fun bad => coll_refused e lt (by rw [q, if_pos (sizeOk_iff.2 bad)]) rfl rfl (by decide), fun size => ?_⟩
  rw [if_neg (by simp [size])] at q
  refine ⟨fun bad => coll_refused e lt (by rw [q, if_pos (bad.imp_right Hw.coll?_isSome.2)]) rfl rfl (by decide),
    fun current fresh several p p' hp hp' => ?_⟩
  rw [if_neg (not_or.2 ⟨by simp [current], fun some => by
    obtain ⟨c, hc, same⟩ := Hw.coll?_isSome.1 some
    exact fresh c hc same⟩)] at q
  have members := (Hw.noted_seen s.hw sn).fld (f := Fd.CVE_GRP_W2.M dc.group) (hubReg_group lt (o := 8) (by decide))
  rw [← members] at hp'
  obtain ⟨executed, mem, bound, ctx, cve⟩ := coll_started e lt several (q.trans (Hw.collPlaced_ok hp hp')) rfl
  exact ⟨executed, mem, bound, ctx, _, cve, rfl, rfl, rfl, rfl, rfl, rfl, rfl, members, rfl, (Hw.noted_seen s.hw sn).tb, rfl, rfl⟩

end Sys2Proof.Machine
end

section
/-!
PROOFS. The transfer engine and the walk of a translation (R84, R87–R90, R92, R130–R135, R146, R195, R230–R233, R489): O59.
-/
namespace Sys2Proof.Machine

/-! ## The row of a transfer -/

/-- What the row of a transfer does when the transfer copies `v`. -/
def Work.moved (w : Work) (sn : Seen) (m : Mem) (v : Moved) : Eff :=
  match v.stop with
  | some e =>
    { hw := v.hw.takeFree.2.workFault w e,
      edits := seenEdits sn ++ (storeRows m v.rows).take (v.hw.takeFree.1 % ((storeRows m v.rows).length + 1)) }
  | none =>
    { hw := ((v.hw.countCore w.k { code := 0x09 } (((v.rows.map (fun q => q.1.len)).foldl (· + ·) 0 + 31) / 32)).countPayload w
        (v.rows.map Prod.fst)).markDone w.w id,
      edits := seenEdits sn ++ storeRows m v.rows }

/-- `t` is `s` after the due transfer `w`, which copies `v`. -/
structure Transfer (s t : State) (sn : Seen) (w : Work) (v : Moved) : Prop where
  due : w.Due s.hw
  acc : (s.hw.seen sn).Accessed v.hw
  eq : t = s.commit (w.moved sn (s.mem.seen sn) v)

section
variable {r : StreamRef} {opc : Nat} {sn : Seen} {s t : State} {w : Work} {f : Work → Mem → Hw → Moved} {v : Moved}

theorem transferEff_idle (e : s.hw.work r opc = none) : transferEff r opc sn s f = { hw := s.hw } := by
  unfold transferEff
  rw [e]

theorem transferEff_due (e : s.hw.work r opc = some w) :
    transferEff r opc sn s f = w.moved sn (s.mem.seen sn) (f w (s.mem.seen sn) (s.hw.seen sn)) := by
  unfold transferEff Work.moved
  rw [e] <;> rfl

theorem transfer (acc : ∀ w m h, Hw.Accessed h (f w m h).hw) (e : s.hw.work r opc = some w) :
    Transfer s (s.commit (transferEff r opc sn s f)) sn w (f w (s.mem.seen sn) (s.hw.seen sn)) :=
  ⟨(Hw.work_due e).1, acc _ _ _, by rw [transferEff_due e]⟩

/-! ### The bytes toward a channel's payload (R146) -/

theorem Hw.only_countPayload {h : Hw} {ps : List Place} : h.Only [.ctxs] (h.countPayload w ps) :=
  Hw.Only.foldl _ _ _ (fun _ _ _ => .ite Hw.only_modRun (.refl _ _))

/-- Counting payload bytes changes nothing but channels. -/
theorem Work.Going.countPayload {h k : Hw} (g : w.Going h k) (ps : List Place) : w.Going h (k.countPayload w ps) := by
  unfold Hw.countPayload
  generalize w.x.img.chans = ds
  induction ds generalizing k with
  | nil => exact g
  | cons d ds ih =>
    refine ih ?_
    dsimp only
    split
    · obtain ⟨y, fl, hy, host, fault, strm, rest⟩ := g.ctx
      exact ⟨g.tb, fun d hd => (Hw.find?_modCtx_other _ hd).trans (g.others d hd), _, fl, Hw.find?_modCtx_same _ hy, host, fault,
        strm, rest⟩
    · exact g

/-! ### How a transfer ends -/

theorem Hw.only_takeFree (h : Hw) : h.Only [.free] h.takeFree.2 := fun q hq => by
  cases q
  case free => simp at hq
  all_goals rfl

theorem Hw.Accessed.free {h k : Hw} (a : h.Accessed k) : k.free = h.free := a.only .free (by decide)

theorem Transfer.going (run : Transfer s t sn w v) : w.Going s.hw v.hw :=
  (run.due.going.accessed (Hw.accessed_seen _ _)).accessed run.acc

theorem Transfer.free (run : Transfer s t sn w v) : v.hw.free = s.hw.free := run.acc.free.trans (Hw.accessed_seen _ _).free

/-- Rows that are paired with bytes have the pieces of the rows. -/
theorem segs_subset_zip {α : Type} {ps : List Place} {l : List α} {r : Nat × Nat}
    (h : r ∈ (ps.zip l).flatMap (fun x => x.1.segs)) : r ∈ ps.flatMap (·.segs) := by
  obtain ⟨⟨p, a⟩, hp, hr⟩ := List.mem_flatMap.1 h
  exact List.mem_flatMap.2 ⟨p, (List.of_mem_zip hp).1, hr⟩

theorem Transfer.stopped (run : Transfer s t sn w v) {e : Cond} (stop : v.stop = some e) : Raised s t w.w.c e.detail ∧
    s.mem.But (v.rows.flatMap (fun x => x.1.segs)) t.mem ∧ t.hw.free = s.hw.free + 1 := by
  have going := run.going.of_only (Hw.only_takeFree v.hw) (by decide) (by decide)
  have free : (v.hw.takeFree.2.workFault w e).free = v.hw.takeFree.2.free := Hw.only_workFault .free (by decide)
  have eq := run.eq
  simp only [Work.moved, stop] at eq
  refine ⟨(going.raised run.due (congrArg State.hw eq)).1, fun q hq => ?_, ?_⟩ <;> rw [eq]
  · rw [State.commit_mem, Mem.edit_append, Mem.edit_seenEdits, Mem.read_edit_spared, Mem.read_seen]
    exact fun e he => (storesRows_storeRows _ v.rows).spares hq e (List.mem_of_mem_take he)
  · rw [State.commit_hw, free, ← run.free]
    rfl

theorem Transfer.finished (run : Transfer s t sn w v) (stop : v.stop = none) :
    Executed t w ∧ Stored s.mem t.mem v.rows ∧ t.hw.free = s.hw.free := by
  have eq := run.eq
  simp only [Work.moved, stop] at eq
  have counted := Hw.accessed_countCore (h := v.hw) (k := w.k) (n := ((v.rows.map (fun q => q.1.len)).foldl (· + ·) 0 + 31) / 32)
    (e := { code := 0x09 })
  refine ⟨((run.going.accessed counted).countPayload _).executed (congrArg State.hw eq), ?_, ?_⟩ <;> rw [eq]
  · rw [State.commit_mem, Mem.edit_append, Mem.edit_seenEdits]
    exact (storesRows_storeRows _ _).stored (fun q => Mem.read_seen _ _ q)
  · rw [State.commit_hw, ← run.free, ← counted.free]
    exact (Hw.only_countPayload.trans Hw.only_markDone) .free (by decide)

/-- A condition that is met before any row is copied leaves every byte alone. -/
theorem Transfer.stops {g : Hw} {e : Cond} (run : Transfer s t sn w v) (eq : v = { hw := g, stop := some e }) :
    Stops s t w e.detail := by
  subst eq
  obtain ⟨raised, mem, -⟩ := run.stopped rfl
  exact ⟨raised, mem⟩

theorem Transfer.copied {g : Hw} {rows : List (Place × List Byte)} (run : Transfer s t sn w v) (eq : v = { hw := g, rows := rows }) :
    Executed t w ∧ Stored s.mem t.mem rows := by
  subst eq
  obtain ⟨executed, stored, -⟩ := run.finished rfl
  exact ⟨executed, stored⟩

theorem transferEff_burn : (transferEff r opc sn s f).burn = [] := by
  cases e : s.hw.work r opc with
  | none => rw [transferEff_idle e]
  | some w =>
    rw [transferEff_due e, Work.moved]
    split <;> rfl

theorem only_moved {m : Mem} : v.hw.Only [.regs, .free, .ctxs] (w.moved sn m v).hw := by
  unfold Work.moved
  split
  · exact ((Hw.only_takeFree _).mono (by decide)).trans (Hw.only_workFault.mono (by decide))
  · exact (((Hw.only_count (h := v.hw)).mono (by decide)).trans (Hw.only_countPayload.mono (by decide))).trans
      (Hw.only_markDone.mono (by decide))

theorem transferEff_only (acc : ∀ w m h, Hw.Accessed h (f w m h).hw) :
    s.hw.Only [.regs, .free, .ctxs, .hbm, .xcl, .host, .ccl, .logs, .hist, .out] (transferEff r opc sn s f).hw := by
  cases e : s.hw.work r opc with
  | none => rw [transferEff_idle e]; exact .refl _ _
  | some w =>
    rw [transferEff_due e]
    exact (((Hw.accessed_seen s.hw sn).trans (acc w (s.mem.seen sn) (s.hw.seen sn))).only.mono (by decide)).trans
      (only_moved.mono (by decide))

/-- The row of a transfer, whatever it copies. -/
theorem transfer_row (acc : ∀ w m h, Hw.Accessed h (f w m h).hw) : ∃ t, t = s.commit (transferEff r opc sn s f) ∧
    t.pending = s.pending ∧ t.fuses = s.fuses ∧
    s.hw.Only [.regs, .free, .ctxs, .hbm, .xcl, .host, .ccl, .logs, .hist, .out] t.hw ∧ (s.hw.work r opc = none → t = s) ∧
    ∀ w v, s.hw.work r opc = some w → v = f w (s.mem.seen sn) (s.hw.seen sn) →
      (∀ e, v.stop = some e → Raised s t w.w.c e.detail ∧ s.mem.But (v.rows.flatMap (fun x => x.1.segs)) t.mem ∧
        t.hw.free = s.hw.free + 1) ∧
      (v.stop = none → Executed t w ∧ Stored s.mem t.mem v.rows ∧ t.hw.free = s.hw.free) := by
  refine ⟨_, rfl, rfl, by rw [State.commit_fuses, transferEff_burn, Fuses.burn_nil], transferEff_only acc,
    fun e => by rw [transferEff_idle e]; rfl, ?_⟩
  rintro w _ e rfl
  exact ⟨fun _ stop => (transfer acc e).stopped stop, fun stop => (transfer acc e).finished stop⟩

end

/-- A transfer whose destination rows are checked: it copies `f` of them, or meets their condition. -/
def placed (q : Hw × Except Cond (List Place)) (f : List Place → List (Place × List Byte)) : Moved :=
  match q with
  | (h, .error e) => { hw := h, stop := some e }
  | (h, .ok ds) => { hw := h, rows := f ds }

theorem placed_hw (q : Hw × Except Cond (List Place)) (f : List Place → List (Place × List Byte)) : (placed q f).hw = q.1 := by
  rcases q with ⟨h, e | ds⟩ <;> rfl

theorem placed_error {g : Hw} {e : Cond} {q : Hw × Except Cond (List Place)} (eq : q = (g, .error e))
    (f : List Place → List (Place × List Byte)) : placed q f = { hw := g, stop := some e } := by rw [eq, placed]
theorem placed_ok {g : Hw} {ds : List Place} {q : Hw × Except Cond (List Place)} (eq : q = (g, .ok ds))
    (f : List Place → List (Place × List Byte)) : placed q f = { hw := g, rows := f ds } := by rw [eq, placed]

/-! ## MOVE (R84, R87, R195) -/

section
variable {w : Work} {m : Mem} {h g : Hw} {sd dd : Desc} {sv dv : Int} {n len : Nat} {srcs dsts : List (Int × Nat)} {d : SlotDecl}

theorem Hw.copyRows_srcError {e : Cond} (src : h.srcRows m w.x w.w (sd.unit w.w.lc w.w.lk) srcs = (g, .error e)) :
    h.copyRows m w sd dd srcs dsts = { hw := g, stop := some e } := by rw [Hw.copyRows, src]

theorem Hw.copyRows_src {ss : List Place} (src : h.srcRows m w.x w.w (sd.unit w.w.lc w.w.lk) srcs = (g, .ok ss)) :
    h.copyRows m w sd dd srcs dsts =
      placed (g.dstRows m w.x w.w (dd.unit w.w.lc w.w.lk) dsts) (fun ds => ds.zip (ss.map m.row)) := by
  rw [Hw.copyRows, src]
  rfl

theorem Hw.accessed_copyRows : h.Accessed (h.copyRows m w sd dd srcs dsts).hw := by
  have read := Hw.accessed_srcRows (h := h) (m := m) (x := w.x) (w := w.w) (u := sd.unit w.w.lc w.w.lk) (rs := srcs)
  rcases src : h.srcRows m w.x w.w (sd.unit w.w.lc w.w.lk) srcs with ⟨g, e | ss⟩ <;> rw [src] at read
  · rw [Hw.copyRows_srcError src]
    exact read
  · rw [Hw.copyRows_src src, placed_hw]
    exact read.trans Hw.accessed_dstRows

/-- A slotted MOVE whose table, rows and destination can be read and written. -/
theorem Hw.copySlots_ok {idx : List Nat} {k : Nat} {g2 g3 : Hw} {rows : List (List Byte)} {ds : List Place}
    (slots : h.readSlots m w d = (g, .ok idx)) (hk : (badSlot d idx).getD idx.length = k)
    (src : Hw.slotRows m w ⟨sd, sv⟩ len g (idx.take k) = (g2, .ok rows))
    (dst : g2.dstRows m w.x w.w (dd.unit w.w.lc w.w.lk) (dsts.take k) = (g3, .ok ds)) :
    h.copySlots m w d sd dd sv len dsts =
      { hw := g3, rows := ds.zip rows, stop := (badSlot d idx).map (fun k => ⟨dSlotRange, slotArgs d k (idx.getD k 0)⟩) } := by
  rw [Hw.copySlots, slots]
  dsimp only
  rw [hk, src]
  dsimp only
  rw [dst]

theorem Hw.accessed_copySlots : h.Accessed (h.copySlots m w d sd dd sv len dsts).hw := by
  unfold Hw.copySlots
  have table := Hw.accessed_readSlots (h := h) (m := m) (w := w) (d := d)
  split <;> rename_i g idx slots <;> rw [slots] at table
  · exact table
  · dsimp only
    have read := table.trans (Hw.accessed_slotRows (m := m) (w := w) (o := ⟨sd, sv⟩) (len := len)
      (idx.take ((badSlot d idx).getD idx.length)) g)
    split <;> rename_i g2 rows src <;> rw [src] at read
    · exact read
    · have written := read.trans (Hw.accessed_dstRows (h := g2) (m := m) (x := w.x) (w := w.w) (u := dd.unit w.w.lc w.w.lk)
        (rs := dsts.take ((badSlot d idx).getD idx.length)))
      split <;> rename_i dst <;> rw [dst] at written <;> exact written

end

/-- The source and the destination operand of a transfer. -/
def Work.txSrc (w : Work) : Desc := w.x.img.opnd w.w.lc w.w.lk w.word 68
def Work.txDst (w : Work) : Desc := w.x.img.opnd w.w.lc w.w.lk w.word 80

section
variable {w : Work} {m : Mem} {h : Hw}

theorem moveWork_eq : moveWork w m h =
    if w.txSrc.value w.fl.iters % 4 ≠ 0 then
      { hw := h, stop := some (alignCond w.txSrc w.w.lc w.w.lk (w.txSrc.value w.fl.iters)) }
    else if w.txDst.value w.fl.iters % 4 ≠ 0 then
      { hw := h, stop := some (alignCond w.txDst w.w.lc w.w.lk (w.txDst.value w.fl.iters)) }
    else match w.x.img.slot? (bitsAt w.word 56 12) with
      | some d => h.copySlots m w d w.txSrc w.txDst (w.txSrc.value w.fl.iters) (moveBytes w.word)
          (rowAddrs (w.txDst.value w.fl.iters) (moveRows w.word) w.txDst.stride (moveBytes w.word))
      | none => h.copyRows m w w.txSrc w.txDst
          (rowAddrs (w.txSrc.value w.fl.iters) (moveRows w.word) w.txSrc.stride (moveBytes w.word))
          (rowAddrs (w.txDst.value w.fl.iters) (moveRows w.word) w.txDst.stride (moveBytes w.word)) := rfl

theorem moveWork_misaligned (bad : w.txSrc.value w.fl.iters % 4 ≠ 0 ∨ w.txDst.value w.fl.iters % 4 ≠ 0) :
    ∃ e : Cond, e.detail = dAlign ∧ moveWork w m h = { hw := h, stop := some e } := by
  rw [moveWork_eq]
  split_ifs with hs hd
  · exact ⟨_, rfl, rfl⟩
  · exact ⟨_, rfl, rfl⟩
  · exact absurd bad (not_or.2 ⟨hs, hd⟩)

theorem moveWork_plain (src : w.txSrc.value w.fl.iters % 4 = 0) (dst : w.txDst.value w.fl.iters % 4 = 0)
    (plain : w.x.img.slot? (bitsAt w.word 56 12) = none) : moveWork w m h = h.copyRows m w w.txSrc w.txDst
      (rowAddrs (w.txSrc.value w.fl.iters) (moveRows w.word) w.txSrc.stride (moveBytes w.word))
      (rowAddrs (w.txDst.value w.fl.iters) (moveRows w.word) w.txDst.stride (moveBytes w.word)) := by
  rw [moveWork_eq, if_neg (not_not.2 src), if_neg (not_not.2 dst), plain]

theorem moveWork_slots (src : w.txSrc.value w.fl.iters % 4 = 0) (dst : w.txDst.value w.fl.iters % 4 = 0) {d : SlotDecl}
    (slot : w.x.img.slot? (bitsAt w.word 56 12) = some d) : moveWork w m h = h.copySlots m w d w.txSrc w.txDst
      (w.txSrc.value w.fl.iters) (moveBytes w.word)
      (rowAddrs (w.txDst.value w.fl.iters) (moveRows w.word) w.txDst.stride (moveBytes w.word)) := by
  rw [moveWork_eq, if_neg (not_not.2 src), if_neg (not_not.2 dst), slot]

theorem accessed_moveWork (w : Work) (m : Mem) (h : Hw) : h.Accessed (moveWork w m h).hw := by
  rw [moveWork_eq]
  split_ifs
  · exact .refl h
  · exact .refl h
  · split
    · exact Hw.accessed_copySlots
    · exact Hw.accessed_copyRows

/-! ## FILL (R88) -/

/-- A row of a FILL: its 32-bit pattern, repeated. -/
def Work.fillRow (w : Work) : List Byte := (List.range (fillBytes w.word / 4)).flatMap (fun _ => leBytes 4 (bitsAt w.word 48 32))

/-- A list that is repeated. -/
theorem getD_flatMap_const {α : Type} (n : Nat) (l : List α) {k i : Nat} (hl : l.length = k) (hi : i < n * k) (a : α) :
    ((List.range n).flatMap (fun _ => l)).getD i a = l.getD (i % k) a := by
  induction n generalizing i with
  | zero => omega
  | succ n ih =>
    rw [List.range_succ_eq_map, List.flatMap_cons, List.flatMap_map]
    rcases Nat.lt_or_ge i k with lt | ge
    · rw [List.getD_append _ _ _ _ (hl ▸ lt), Nat.mod_eq_of_lt lt]
    · rw [List.getD_append_right _ _ _ _ (hl ▸ ge), hl, ih (by rw [Nat.succ_mul] at hi; omega), Nat.mod_eq_sub_mod ge]

theorem Work.fillRow_length (w : Work) : w.fillRow.length = fillBytes w.word := by
  simp only [Work.fillRow, List.length_flatMap, leBytes_length, List.map_const', List.length_range, List.sum_replicate, smul_eq_mul]
  unfold fillBytes
  omega

theorem Work.fillRow_getD (w : Work) {i : Nat} (hi : i < fillBytes w.word) :
    w.fillRow.getD i 0 = (leBytes 4 (bitsAt w.word 48 32)).getD (i % 4) 0 :=
  getD_flatMap_const _ _ (leBytes_length 4 _) (by unfold fillBytes at hi ⊢; omega) 0

theorem fillWork_misaligned (bad : w.txDst.value w.fl.iters % 4 ≠ 0) : fillWork w m h =
    { hw := h, stop := some (alignCond w.txDst w.w.lc w.w.lk (w.txDst.value w.fl.iters)) } := if_pos bad

theorem fillWork_aligned (al : w.txDst.value w.fl.iters % 4 = 0) : fillWork w m h =
    placed (h.dstRows m w.x w.w (w.txDst.unit w.w.lc w.w.lk)
      (rowAddrs (w.txDst.value w.fl.iters) (fillRows w.word) w.txDst.stride (fillBytes w.word)))
      (fun ds => ds.map (fun p => (p, w.fillRow))) := if_neg (not_not.2 al)

theorem accessed_fillWork (w : Work) (m : Mem) (h : Hw) : h.Accessed (fillWork w m h).hw := by
  by_cases al : w.txDst.value w.fl.iters % 4 = 0
  · rw [fillWork_aligned al, placed_hw]
    exact Hw.accessed_dstRows
  · rw [fillWork_misaligned al]
    exact .refl h

end

/-! ## MOVEPG (R89, R230–R233) -/

section
variable {w : Work} {m : Mem} {h g : Hw} {md dd : Desc} {mv dv : Int} {n k : Nat} {first : Option Nat}
  {acc : List (Place × List Byte)}

theorem Hw.accessed_copyPages (n k : Nat) (first : Option Nat) (h : Hw) (acc : List (Place × List Byte)) :
    h.Accessed (Hw.copyPages m w md dd mv dv n k first h acc).hw := by
  induction n generalizing k first h acc with
  | zero => exact .refl h
  | succ n ih =>
    unfold Hw.copyPages
    have entry := Hw.accessed_srcRow (m := m) (x := w.x) (w := w.w) (u := md.unit w.w.lc w.w.lk) (h := h)
      (r := (mv + (8 * k : Nat), 8))
    split <;> rename_i g p eq <;> rw [eq] at entry
    · exact entry
    · dsimp only
      split
      · exact entry
      · have read := entry.trans (Hw.accessed_srcRow (m := m) (x := w.x) (w := w.w) (u := (3, bitsAt (leNat (m.row p)) 44 8, 0))
          (h := g) (r := ((32 * bitsAt (leNat (m.row p)) 0 36 + pgOff w.word : Nat), pgBytes w.word)))
        split <;> rename_i g2 src eq2 <;> rw [eq2] at read
        · exact read
        · have written := read.trans (Hw.accessed_dstRow (m := m) (x := w.x) (w := w.w) (u := dd.unit w.w.lc w.w.lk) (h := g2)
            (r := (dv + (k * dd.stride : Nat), pgBytes w.word)))
          split <;> rename_i eq3 <;> rw [eq3] at written
          · exact written
          · exact written.trans (ih _ _ _ _)

theorem entryOk_noPage {e first off len : Nat} (bad : bitAt e 63 = false ∨ 5 ≤ bitsAt e 60 3 ∨ 4 ≤ bitsAt e 52 3) :
    entryOk e first off len = false := by
  have none : pageLen e = none := if_neg (by
    rintro ⟨valid, fmt, dcode⟩
    rcases bad with b | b | b
    · rw [b] at valid
      cases valid
    · omega
    · omega)
  rw [entryOk, none]

theorem entryOk_short {e first off len n : Nat} (page : pageLen e = some n) (short : n < off + len) :
    entryOk e first off len = false := by
  rw [entryOk, page]
  simp [short]

theorem entryOk_first {e off len n : Nat} (page : pageLen e = some n) (small : n ≤ 2097152) (fits : off + len ≤ n) :
    entryOk e e off len = true := by
  rw [entryOk, page]
  simp [small, fits]

theorem movepgWork_misaligned (bad : w.txSrc.value w.fl.iters % 8 ≠ 0) : movepgWork w m h =
    { hw := h, stop := some (alignCond w.txSrc w.w.lc w.w.lk (w.txSrc.value w.fl.iters)) } := if_pos bad

theorem movepgWork_aligned (al : w.txSrc.value w.fl.iters % 8 = 0) : movepgWork w m h =
    Hw.copyPages m w w.txSrc w.txDst (w.txSrc.value w.fl.iters) (w.txDst.value w.fl.iters) (pgCount w.word) 0 none h [] :=
  if_neg (not_not.2 al)

/-- The first entry that a MOVEPG reads. -/
theorem movepgWork_entry (al : w.txSrc.value w.fl.iters % 8 = 0) {q : Except Cond Place}
    (entry : Hw.srcRow m w.x w.w (w.txSrc.unit w.w.lc w.w.lk) h (w.txSrc.value w.fl.iters, 8) = (g, q)) :
    (∀ e, q = .error e → movepgWork w m h = { hw := g, stop := some e }) ∧
    ∀ p, q = .ok p →
      (entryOk (leNat (m.row p)) (leNat (m.row p)) (pgOff w.word) (pgBytes w.word) = false →
        ∃ e : Cond, e.detail = dPageInvalid ∧ movepgWork w m h = { hw := g, stop := some e }) ∧
      (entryOk (leNat (m.row p)) (leNat (m.row p)) (pgOff w.word) (pgBytes w.word) = true → pgCount w.word = 1 →
        ∀ g2 g3 src dst, Hw.srcRow m w.x w.w (3, bitsAt (leNat (m.row p)) 44 8, 0) g
            (((32 * bitsAt (leNat (m.row p)) 0 36 + pgOff w.word : Nat) : Int), pgBytes w.word) = (g2, .ok src) →
          Hw.dstRow m w.x w.w (w.txDst.unit w.w.lc w.w.lk) g2 (w.txDst.value w.fl.iters, pgBytes w.word) = (g3, .ok dst) →
          movepgWork w m h = { hw := g3, rows := [(dst, m.row src)] }) := by
  obtain ⟨n, count⟩ : ∃ n, pgCount w.word = n + 1 := ⟨_, rfl⟩
  have eq := movepgWork_aligned (m := m) (h := h) al
  have start : w.txSrc.value w.fl.iters + ((8 * 0 : Nat) : Int) = w.txSrc.value w.fl.iters := by simp
  have place : w.txDst.value w.fl.iters + ((0 * w.txDst.stride : Nat) : Int) = w.txDst.value w.fl.iters := by simp
  rw [count, Hw.copyPages, start, entry] at eq
  refine ⟨fun e he => ?_, fun p hp => ⟨fun bad => ?_, fun ok one g2 g3 src dst hsrc hdst => ?_⟩⟩ <;> subst q
  · exact eq
  · exact ⟨_, rfl, eq.trans (if_pos bad)⟩
  · obtain rfl : n = 0 := by omega
    replace eq := eq.trans (if_neg (by rw [Option.getD_none, ok]; decide))
    rw [hsrc] at eq
    dsimp only at eq
    rw [place, hdst] at eq
    exact eq

theorem accessed_movepgWork (w : Work) (m : Mem) (h : Hw) : h.Accessed (movepgWork w m h).hw := by
  by_cases al : w.txSrc.value w.fl.iters % 8 = 0
  · rw [movepgWork_aligned al]
    exact Hw.accessed_copyPages _ _ _ _ _
  · rw [movepgWork_misaligned al]
    exact .refl h

end

/-! ## TPOST (R90, R145, R489) -/

section
variable {r : StreamRef} {s : State} {w : Work}

/-- The state after the row of a TPOST. -/
def tposted (r : StreamRef) (s : State) : State := { s with hw := tpostHw r s.hw }

theorem tpostHw_idle {h : Hw} (e : h.work r 0x42 = none) : tpostHw r h = h := by
  unfold tpostHw
  rw [e]

theorem tpostHw_waits (e : s.hw.work r 0x42 = some w)
    (waits : ∃ f ∈ (w.x.run.strm w.key).inflight.take w.w.n, s.hw.collDone f = false) : tpostHw r s.hw = s.hw := by
  obtain ⟨f, hf, pending⟩ := waits
  unfold tpostHw
  rw [e]
  refine if_neg (fun all => ?_)
  rw [List.all_eq_true.1 all f hf] at pending
  cases pending

theorem tpostHw_goes (e : s.hw.work r 0x42 = some w)
    (all : ∀ f ∈ (w.x.run.strm w.key).inflight.take w.w.n, s.hw.collDone f = true) :
    tpostHw r s.hw = match w.x.core? (bitsAt w.word 86 6) (bitsAt w.word 83 3) with
      | some k => if s.hw.coreInReset k then
          s.hw.workFault w ⟨dTargetReset, [0] ++ leBytes 1 (bitsAt w.word 86 6) ++ leBytes 1 (bitsAt w.word 83 3)⟩
          else s.hw.markDone w.w id
      | none => s.hw.workFault w ⟨dTargetReset, [0] ++ leBytes 1 (bitsAt w.word 86 6) ++ leBytes 1 (bitsAt w.word 83 3)⟩ := by
  unfold tpostHw
  rw [e]
  exact if_pos (List.all_eq_true.2 all)

/-- A TPOST waits, sends its token, or faults for its target. -/
theorem tpostHw_cases (e : s.hw.work r 0x42 = some w) :
    tpostHw r s.hw = s.hw ∨ tpostHw r s.hw = s.hw.markDone w.w id ∨ ∃ c, tpostHw r s.hw = s.hw.workFault w c := by
  by_cases all : ∀ f ∈ (w.x.run.strm w.key).inflight.take w.w.n, s.hw.collDone f = true
  · rw [tpostHw_goes e all]
    split
    · split
      · exact .inr (.inr ⟨_, rfl⟩)
      · exact .inr (.inl rfl)
    · exact .inr (.inr ⟨_, rfl⟩)
  · exact .inl (tpostHw_waits e (by simpa using all))

theorem frame_tposted : Frame [.regs, .ctxs] s (tposted r s) := by
  refine Frame.keep ?_
  cases e : s.hw.work r 0x42 with
  | none => rw [tpostHw_idle e]; exact .refl _ _
  | some w =>
    rcases tpostHw_cases e with eq | eq | ⟨c, eq⟩ <;> rw [eq]
    · exact .refl _ _
    · exact Hw.only_markDone.mono (by decide)
    · exact Hw.only_workFault

theorem tposted_fault (e : s.hw.work r 0x42 = some w) {c : Cond} (eq : tpostHw r s.hw = s.hw.workFault w c) :
    Raised s (tposted r s) w.w.c c.detail := by
  have due := (Hw.work_due e).1
  exact (due.going.raised due eq).1

theorem tposted_alone (e : s.hw.work r 0x42 = some w) : StreamAlone s (tposted r s) w.w.c w.key := by
  have due := (Hw.work_due e).1
  rcases tpostHw_cases e with eq | eq | ⟨c, eq⟩
  · exact due.going.alone due (congrArg Hw.ctxs eq)
  · exact (due.going.markDone id (fun _ => ⟨rfl, rfl⟩)).alone due (congrArg Hw.ctxs eq)
  · exact (due.going.raised due eq).2

/-- A TPOST that sends its token changes nothing but its own entry. -/
theorem tposted_sent (e : s.hw.work r 0x42 = some w) (eq : tpostHw r s.hw = s.hw.markDone w.w id) :
    Frame [.ctxs] s (tposted r s) ∧ Executed (tposted r s) w ∧ ∃ y f, Tab.find? (tposted r s).hw.ctxs w.w.c = some y ∧
      (y.run.strm w.key).inflight[w.w.n]? = some f ∧ f.landed = w.fl.landed ∧ y.run.chans = w.x.run.chans := by
  have due := (Hw.work_due e).1
  have here := Hw.find?_markDone id due.ctx
  rw [← eq] at here
  refine ⟨Frame.keep (eq ▸ Hw.only_markDone), due.going.executed eq, _, { w.fl with done := true }, here, ?_, rfl, rfl⟩
  show ((CtxRun.modStrm _ _ _).strm _).inflight[_]? = _
  rw [CtxRun.strm_modStrm_same]
  simp [modAt, due.infl]

end

/-! ## TRANSLATION_WALK (R130–R135) -/

/-- What a walk finds (R134, R135). -/
theorem Hw.walk_snd (h : Hw) (m : Mem) (job ctx region lpn w : Nat) {near e : Nat}
    (hn : near = (Config.nearCopy ctx region lpn w).val) (he : e = m.readLe (if (m.ueIn (mapAddr ctx region lpn near) 8).isSome
      then mapAddr ctx region lpn (1 - near) else mapAddr ctx region lpn near) 8) : (h.walk m job ctx region lpn w).2 =
    if (m.ueIn (mapAddr ctx region lpn near) 8).isSome && (m.ueIn (mapAddr ctx region lpn (1 - near)) 8).isSome then
      .error ⟨dMapUe, hbmArgs region lpn (Config.mapPma ctx region lpn near)⟩
    else if !bitAt e 63 then .error ⟨dRegionBound, memArgs 3 region 0 255 (lpn * pageBytes : Nat)⟩
    else if bitsAt e 48 8 ≠ region ∨ bitsAt e 24 24 ≠ lpn then .error ⟨dMapCorrupt, []⟩
    else if 40960 ≤ bitsAt e 0 16 then .error ⟨dPmaInvalid, []⟩
    else .ok (bitsAt e 0 20, bitAt e 62) := by
  subst hn he
  unfold Hw.walk
  simp only [apply_ite Prod.snd]

/-- An installed translation is found. -/
theorem XCache.look_fill (x : XCache) (w ctx region lpn pfn : Nat) (writable : Bool) :
    ∃ e, (x.fill w ctx region lpn pfn writable).look w ctx region lpn = some e ∧ e.pfn = pfn ∧ e.writable = writable := by
  rw [XCache.look, XCache.fill, Tab.getD_put_same]
  refine ⟨_, List.find?_cons_of_pos (by simp), rfl, rfl⟩

section
variable {ctx : Fin 64} {region : Fin 256} {lpn : BitVec 24} {walker : Fin 66} {sn : Seen} {s t : State} {x : Ctx} {p : Placement}

/-- The walk that a row makes, from the hardware as its reads leave it. -/
def State.walk (s : State) (sn : Seen) (x : Ctx) (ctx : Fin 64) (region : Fin 256) (lpn : BitVec 24) (walker : Fin 66) :
    Hw × Except Cond (Nat × Bool) :=
  (s.hw.seen sn).walk (s.mem.seen sn) x.host.job ctx.val region.val lpn.toNat walker.val

theorem State.noted_walk : s.hw.Noted (s.walk sn x ctx region lpn walker).1 := (Hw.noted_seen s.hw sn).trans Hw.noted_walk

theorem Hw.Noted.cache {h k : Hw} (n : h.Noted k) (w : Nat) : k.cache w = h.cache w := by rw [Hw.cache, Hw.cache, n.xcl]

/-- Whether a walker serves the clusters of a context's placement. -/
def Ctx.walkedBy (x : Ctx) (walker : Nat) : Bool :=
  match x.host.place with
  | some p => if walker < 64 then p.clusters.any (fun (q : Nat × Nat) => q.2 == walker) else true
  | none => false

theorem walkEff_noCtx (hx : Tab.find? s.hw.ctxs ctx = none) : walkEff ctx region lpn walker sn s = { hw := s.hw } := by
  have : (s.hw.seen sn).ctx? ctx = none := by rw [Hw.ctx?, (Hw.noted_seen s.hw sn).ctxs, hx]
  unfold walkEff
  dsimp only
  rw [this]

theorem walkEff_eq (hx : Tab.find? s.hw.ctxs ctx = some x) : walkEff ctx region lpn walker sn s =
    if x.walkedBy walker = false ∨ ((s.hw.cache walker).look walker ctx region lpn.toNat).isSome = true then { hw := s.hw }
    else match s.walk sn x ctx region lpn walker with
      | (h, .error e) => { hw := h.raise ctx.val e (walkUnit e) lunitNone 0, edits := seenEdits sn }
      | (h, .ok (pfn, wr)) =>
        { hw := { h with xcl := h.xcl.put walker.val ((h.cache walker.val).fill walker.val ctx.val region.val lpn.toNat pfn wr) },
          edits := seenEdits sn } := by
  have hx' : (s.hw.seen sn).ctx? ctx = some x := by rw [Hw.ctx?, (Hw.noted_seen s.hw sn).ctxs, hx]
  rw [← (Hw.noted_seen s.hw sn).cache]
  unfold walkEff
  dsimp only
  rw [hx']
  rfl

theorem walkEff_error (hx : Tab.find? s.hw.ctxs ctx = some x) (served : x.walkedBy walker = true)
    (miss : (s.hw.cache walker).look walker ctx region lpn.toNat = none) {e : Cond} {h : Hw}
    (eq : s.walk sn x ctx region lpn walker = (h, .error e)) : walkEff ctx region lpn walker sn s =
      { hw := h.raise ctx.val e (walkUnit e) lunitNone 0, edits := seenEdits sn } := by
  rw [walkEff_eq hx, if_neg (by simp [served, miss]), eq]

theorem walkEff_ok (hx : Tab.find? s.hw.ctxs ctx = some x) (served : x.walkedBy walker = true)
    (miss : (s.hw.cache walker).look walker ctx region lpn.toNat = none) {pfn : Nat} {wr : Bool} {h : Hw}
    (eq : s.walk sn x ctx region lpn walker = (h, .ok (pfn, wr))) : walkEff ctx region lpn walker sn s =
      { hw := { h with xcl := h.xcl.put walker ((h.cache walker).fill walker ctx region lpn.toNat pfn wr) },
        edits := seenEdits sn } := by
  rw [walkEff_eq hx, if_neg (by simp [served, miss]), eq]

/-- A row that walks nothing, one whose walk fails, and one that installs an entry. -/
theorem walkEff_cases : walkEff ctx region lpn walker sn s = { hw := s.hw } ∨
    ∃ h, s.hw.Noted h ∧
      ((∃ e u, walkEff ctx region lpn walker sn s = { hw := h.raise ctx.val e u lunitNone 0, edits := seenEdits sn }) ∨
      ∃ k, walkEff ctx region lpn walker sn s = { hw := { h with xcl := k }, edits := seenEdits sn }) := by
  cases hx : Tab.find? s.hw.ctxs ctx with
  | none => exact .inl (walkEff_noCtx hx)
  | some x =>
    have noted := State.noted_walk (s := s) (sn := sn) (x := x) (ctx := ctx) (region := region) (lpn := lpn) (walker := walker)
    rw [walkEff_eq hx]
    split
    · exact .inl rfl
    · refine .inr ?_
      split <;> rename_i eq <;> rw [eq] at noted
      · exact ⟨_, noted, .inl ⟨_, _, rfl⟩⟩
      · exact ⟨_, noted, .inr ⟨_, rfl⟩⟩

theorem walkEff_burn : (walkEff ctx region lpn walker sn s).burn = [] := by
  rcases walkEff_cases (ctx := ctx) (region := region) (lpn := lpn) (walker := walker) (sn := sn) (s := s) with
    eq | ⟨h, -, ⟨e, u, eq⟩ | ⟨k, eq⟩⟩ <;> rw [eq]

theorem walkEff_but : Mem.But [] s.mem (s.commit (walkEff ctx region lpn walker sn s)).mem := by
  rcases walkEff_cases (ctx := ctx) (region := region) (lpn := lpn) (walker := walker) (sn := sn) (s := s) with
    eq | ⟨h, -, ⟨e, u, eq⟩ | ⟨k, eq⟩⟩ <;> rw [eq, State.commit_mem]
  · exact fun _ _ => rfl
  · exact Mem.but_seenEdits _ _
  · exact Mem.but_seenEdits _ _

theorem walkEff_only : s.hw.Only [.regs, .ctxs, .hbm, .xcl, .host, .logs, .hist, .out] (walkEff ctx region lpn walker sn s).hw := by
  rcases walkEff_cases (ctx := ctx) (region := region) (lpn := lpn) (walker := walker) (sn := sn) (s := s) with
    eq | ⟨h, noted, ⟨e, u, eq⟩ | ⟨k, eq⟩⟩ <;> rw [eq]
  · exact .refl _ _
  · exact (noted.only.mono (by decide)).trans (Hw.only_raise.mono (by decide))
  · exact (noted.only.mono (by decide)).trans (Hw.only_xclField.mono (by decide))

/-- A condition that is detected while no context has changed (R381, R382). -/
theorem raised_of_ctxs {k : Hw} {c u l i : Nat} {e : Cond} (ctxs : k.ctxs = s.hw.ctxs) (time : k.tb = s.hw.tb)
    (eq : t.hw = k.raise c e u l i) : Raised s t c e.detail := by
  intro x hx live none
  rw [← ctxs] at hx
  obtain ⟨z, hz, -, -, -, record⟩ := Hw.find?_raise (d := e) (u := u) (l := l) (i := i) hx
  obtain ⟨zhost, step, r, zfault, detail, cls, tb, job, more⟩ := record live none
  exact ⟨z, r, eq ▸ hz, zhost, zfault, step, detail, cls, tb.trans time, job, more⟩
theorem raised_of_noted {k : Hw} {c u l i : Nat} {e : Cond} (n : s.hw.Noted k) (eq : t.hw = k.raise c e u l i) :
    Raised s t c e.detail := raised_of_ctxs n.ctxs n.tb eq

/-- A walk that finds no usable entry faults the context and installs nothing. -/
theorem walk_fails (hx : Tab.find? s.hw.ctxs ctx = some x) (served : x.walkedBy walker = true)
    (miss : (s.hw.cache walker).look walker ctx region lpn.toNat = none) {e : Cond}
    (eq : (s.walk sn x ctx region lpn walker).2 = .error e) :
    Raised s (s.commit (walkEff ctx region lpn walker sn s)) ctx e.detail ∧
      (s.commit (walkEff ctx region lpn walker sn s)).hw.xcl = s.hw.xcl := by
  have noted := State.noted_walk (s := s) (sn := sn) (x := x) (ctx := ctx) (region := region) (lpn := lpn) (walker := walker)
  generalize hq : s.walk sn x ctx region lpn walker = q at eq noted
  obtain ⟨h, q⟩ := q
  obtain rfl : q = .error e := eq
  have same : (h.raise ctx.val e (walkUnit e) lunitNone 0).xcl = h.xcl := Hw.only_raise .xcl (by decide)
  rw [walkEff_error hx served miss hq]
  exact ⟨raised_of_noted noted rfl, same.trans noted.xcl⟩

/-- A walk that finds a usable entry installs it in its own cache (R134, R135). -/
theorem walk_installs (hx : Tab.find? s.hw.ctxs ctx = some x) (served : x.walkedBy walker = true)
    (miss : (s.hw.cache walker).look walker ctx region lpn.toNat = none) {pfn : Nat} {wr : Bool}
    (eq : (s.walk sn x ctx region lpn walker).2 = .ok (pfn, wr)) (ht : t = s.commit (walkEff ctx region lpn walker sn s)) :
    t.hw.ctxs = s.hw.ctxs ∧
      (∃ e, (t.hw.cache walker).look walker ctx region lpn.toNat = some e ∧ e.pfn = pfn ∧ e.writable = wr) ∧
      ∀ v, v ≠ walker.val → t.hw.cache v = s.hw.cache v := by
  have noted := State.noted_walk (s := s) (sn := sn) (x := x) (ctx := ctx) (region := region) (lpn := lpn) (walker := walker)
  generalize hq : s.walk sn x ctx region lpn walker = q at eq noted
  obtain ⟨h, q⟩ := q
  obtain rfl : q = .ok (pfn, wr) := eq
  have xcl : t.hw.xcl = h.xcl.put walker ((h.cache walker).fill walker ctx region lpn.toNat pfn wr) := by
    rw [ht, walkEff_ok hx served miss hq]
    rfl
  have ctxs : t.hw.ctxs = h.ctxs := by
    rw [ht, walkEff_ok hx served miss hq]
    rfl
  refine ⟨ctxs.trans noted.ctxs, ?_, fun v hv => ?_⟩ <;> rw [Hw.cache, xcl]
  · rw [Tab.getD_put_same]
    exact XCache.look_fill _ _ _ _ _ _ _
  · rw [Tab.getD_put_other _ _ _ hv, ← Hw.cache, noted.cache]

theorem Ctx.walkedBy_placed (hp : x.host.place = some p) {v : Nat} :
    x.walkedBy v = true ↔ 64 ≤ v ∨ ∃ q ∈ p.clusters, q.2 = v := by
  rw [Ctx.walkedBy, hp]
  dsimp only
  split
  · simp only [List.any_eq_true, beq_iff_eq]
    exact ⟨.inr, fun h => h.resolve_left (by omega)⟩
  · exact ⟨fun _ => .inl (by omega), fun _ => rfl⟩

theorem walk_nothing (none : Tab.find? s.hw.ctxs ctx = none ∨
    (∃ x, Tab.find? s.hw.ctxs ctx = some x ∧ (x.host.place = none ∨
      ∃ p, x.host.place = some p ∧ walker.val < 64 ∧ ∀ q ∈ p.clusters, q.2 ≠ walker.val)) ∨
    ((s.hw.cache walker).look walker ctx region lpn.toNat ≠ none)) : s.commit (walkEff ctx region lpn walker sn s) = s := by
  cases hx : Tab.find? s.hw.ctxs ctx with
  | none => rw [walkEff_noCtx hx]; rfl
  | some x =>
    rw [walkEff_eq hx, if_pos]
    · rfl
    rcases none with none | ⟨x', hx', unserved⟩ | hit
    · rw [hx] at none
      cases none
    · obtain rfl := Option.some.inj (hx.symm.trans hx')
      refine .inl (Bool.eq_false_iff.2 fun served => ?_)
      rcases unserved with hp | ⟨p, hp, small, others⟩
      · rw [Ctx.walkedBy, hp] at served
        cases served
      · rcases (Ctx.walkedBy_placed hp).1 served with big | ⟨q, hq, eq⟩
        · omega
        · exact others q hq eq
    · exact .inr (Option.isSome_iff_ne_none.2 hit)

end

/-! ## The obligation -/

/-- Settles O59: each transfer as its copied rows, TPOST as its three ends, and the walk by the entry that it finds. -/
theorem transferEngine : Obligations.TransferEngine := by
  unfold Obligations.TransferEngine
  refine ⟨fun r sn s => ⟨?rows, ?move, ?fill, ?movepg, ?tpost⟩, fun ctx region lpn walker sn s => ?walk⟩
  case rows =>
    rintro q hq
    simp only [List.mem_cons, List.not_mem_nil, or_false] at hq
    rcases hq with rfl | rfl | rfl
    · obtain ⟨t, rfl, rest⟩ := transfer_row (r := r) (opc := 0x40) (sn := sn) (s := s) accessed_moveWork
      exact ⟨_, rfl, rest⟩
    · obtain ⟨t, rfl, rest⟩ := transfer_row (r := r) (opc := 0x44) (sn := sn) (s := s) accessed_fillWork
      exact ⟨_, rfl, rest⟩
    · obtain ⟨t, rfl, rest⟩ := transfer_row (r := r) (opc := 0x41) (sn := sn) (s := s) accessed_movepgWork
      exact ⟨_, rfl, rest⟩
  case move =>
    refine ⟨s.commit (moveEff r sn s), rfl, ?_⟩
    rintro w _ _ _ _ _ _ e rfl rfl rfl rfl rfl rfl
    have run := transfer (sn := sn) accessed_moveWork e
    refine ⟨fun bad => ?_, fun src dst => ⟨fun plain g => ?_, fun d slot g idx table => ?_⟩⟩
    · obtain ⟨c, align, eq⟩ := moveWork_misaligned (m := s.mem.seen sn) (h := s.hw.seen sn) bad
      exact align ▸ run.stops eq
    · have eq := moveWork_plain (m := s.mem.seen sn) (h := s.hw.seen sn) src dst plain
      refine ⟨fun c hs => run.stops (eq.trans (Hw.copyRows_srcError hs)), fun ss g' hs => ?_⟩
      replace eq := eq.trans (Hw.copyRows_src hs)
      exact ⟨fun c hd => run.stops (eq.trans (placed_error hd _)), fun ds hd => run.copied (eq.trans (placed_ok hd _))⟩
    · have eq := moveWork_slots (m := s.mem.seen sn) (h := s.hw.seen sn) src dst slot
      refine ⟨fun k g2 rows g3 ds bad hs hd => ?_, fun g2 rows g3 ds good hs hd => ?_⟩
      · replace eq := eq.trans (Hw.copySlots_ok table (by rw [bad]; rfl) hs hd)
        obtain ⟨raised, mem, -⟩ := run.stopped (by rw [eq, bad]; rfl)
        refine ⟨raised, fun q hq => mem q (fun x hx => hq x ?_)⟩
        rw [eq] at hx
        exact segs_subset_zip hx
      · replace eq := eq.trans (Hw.copySlots_ok table (by rw [good]; rfl) (by rw [List.take_length]; exact hs) hd)
        rw [good] at eq
        exact run.copied eq
  case fill =>
    refine ⟨s.commit (fillEff r sn s), rfl, ?_⟩
    rintro w _ _ _ _ e rfl rfl rfl rfl
    have run := transfer (sn := sn) accessed_fillWork e
    refine ⟨fun bad => run.stops (fillWork_misaligned bad), fun al g => ?_⟩
    have eq := fillWork_aligned (m := s.mem.seen sn) (h := s.hw.seen sn) al
    refine ⟨fun c hd => run.stops (eq.trans (placed_error hd _)), fun ds hd => ?_⟩
    obtain ⟨executed, stored⟩ := run.copied (eq.trans (placed_ok hd _))
    exact ⟨executed, w.fillRow, w.fillRow_length, fun i hi => w.fillRow_getD hi, stored⟩
  case movepg =>
    refine ⟨s.commit (movepgEff r sn s), rfl, ?_⟩
    rintro w _ _ _ _ e rfl rfl rfl rfl
    have run := transfer (sn := sn) accessed_movepgWork e
    refine ⟨fun bad => run.stops (movepgWork_misaligned bad), fun al g => ⟨fun c hs => ?_, ?_⟩⟩
    · exact run.stops ((movepgWork_entry al hs).1 c rfl)
    · rintro p _ hs rfl
      obtain ⟨invalid, valid⟩ := (movepgWork_entry al hs).2 p rfl
      have stops (bad : entryOk (leNat (s.mem.row p)) (leNat (s.mem.row p)) (pgOff w.word) (pgBytes w.word) = false) :
          Stops s (s.commit (movepgEff r sn s)) w dPageInvalid := by
        obtain ⟨c, detail, eq⟩ := invalid bad
        exact detail ▸ run.stops eq
      exact ⟨fun bad => stops (entryOk_noPage bad), fun len page short => stops (entryOk_short page short),
        fun len g2 g3 src dst one page small fits hs hd =>
          run.copied (valid (entryOk_first page small fits) one g2 g3 src dst hs hd)⟩
  case tpost =>
    refine ⟨tposted r s, rfl, frame_tposted, fun e => by rw [tposted, tpostHw_idle e], fun w e => ?_⟩
    rw [← Hw.work_key e]
    refine ⟨fun waits => by rw [tposted, tpostHw_waits e waits],
      fun all => ⟨tposted_alone e, fun k hk => ?_, fun none => ?_⟩⟩ <;>
      have goes := tpostHw_goes e all
    · rw [hk] at goes
      exact ⟨fun reset => tposted_fault e (goes.trans (if_pos reset)),
        fun running => tposted_sent e (goes.trans (if_neg (by rw [running]; decide)))⟩
    · rw [none] at goes
      exact tposted_fault e goes
  case walk =>
    refine ⟨s.commit (walkEff ctx region lpn walker sn s), rfl, rfl, by rw [State.commit_fuses, walkEff_burn, Fuses.burn_nil],
      walkEff_but, walkEff_only, walk_nothing, ?_⟩
    rintro x p a b near other ent hx hp walked miss hn rfl rfl rfl he
    have served := (Ctx.walkedBy_placed hp).2 walked
    have found := Hw.walk_snd (s.hw.seen sn) (s.mem.seen sn) x.host.job ctx region lpn.toNat walker hn he
    refine ⟨fun near other => ?_, fun one => ?_⟩
    · rw [if_pos (by simp [Option.isSome_iff_ne_none, near, other])] at found
      exact walk_fails hx served miss found
    · rw [if_neg (by rcases one with h | h <;> simp [h])] at found
      refine ⟨fun invalid => ?_, fun valid other => ?_, fun valid same page => ?_⟩
      · rw [if_pos (by rw [invalid]; rfl)] at found
        exact walk_fails hx served miss found
      · rw [if_neg (by rw [valid]; decide), if_pos other] at found
        exact walk_fails hx served miss found
      · rw [if_neg (by rw [valid]; decide), if_neg (by simp [same, page])] at found
        refine ⟨fun big => ?_, fun small => ?_⟩
        · rw [if_pos big] at found
          exact walk_fails hx served miss found
        · rw [if_neg (Nat.not_le.2 small)] at found
          exact walk_installs hx served miss found rfl

end Sys2Proof.Machine
end

section
/-!
PROOFS. What a context keeps while a stream of it meets a condition or a stop ends (R163, R333, R381, R382).
-/
namespace Sys2Proof.Machine

/-! ## What a context keeps -/

/-- `y` is `x` but for its state, a stop that is asked for and its fault record: its program runs on as it stood. -/
structure Ctx.Kept (x y : Ctx) : Prop where
  image : y.host.image = x.host.image
  place : y.host.place = x.host.place
  streams : y.run.streams = x.run.streams
  chans : y.run.chans = x.run.chans
  owners : y.run.owners = x.run.owners
  holds : y.run.holds = x.run.holds
  bar : y.run.bar = x.run.bar

theorem Ctx.Kept.refl (x : Ctx) : x.Kept x := ⟨rfl, rfl, rfl, rfl, rfl, rfl, rfl⟩
theorem Ctx.Kept.trans {x y z : Ctx} (a : x.Kept y) (b : y.Kept z) : x.Kept z :=
  ⟨b.image.trans a.image, b.place.trans a.place, b.streams.trans a.streams, b.chans.trans a.chans, b.owners.trans a.owners,
    b.holds.trans a.holds, b.bar.trans a.bar⟩
theorem Ctx.Kept.strm {x y : Ctx} (a : x.Kept y) (q : Nat) : y.run.strm q = x.run.strm q := by rw [CtxRun.strm, CtxRun.strm, a.streams]
theorem Ctx.Kept.chan {x y : Ctx} (a : x.Kept y) (d : ChanDecl) : y.chan d = x.chan d := by rw [Ctx.chan, Ctx.chan, a.chans]
theorem Ctx.Kept.owner {x y : Ctx} (a : x.Kept y) (g : RegionDecl) : y.owner g = x.owner g := by rw [Ctx.owner, Ctx.owner, a.owners]
theorem Ctx.Kept.img {x y : Ctx} (a : x.Kept y) : y.img = x.img := by rw [Ctx.img, Ctx.img, a.image]
theorem Ctx.Kept.core? {x y : Ctx} (a : x.Kept y) (lc lk : Nat) : y.core? lc lk = x.core? lc lk := by
  rw [Ctx.core?, Ctx.core?, a.place]

/-- From `h` to `k` no context changes but `c`, and that keeps its program as it stood. -/
structure Hw.Keeps (c : Nat) (h k : Hw) : Prop where
  tb : k.tb = h.tb
  others : ∀ d, d ≠ c → Tab.find? k.ctxs d = Tab.find? h.ctxs d
  ctx : ∀ x, Tab.find? h.ctxs c = some x → ∃ y, Tab.find? k.ctxs c = some y ∧ x.Kept y

section
variable {c : Nat} {h k l : Hw}

theorem Hw.Keeps.refl (c : Nat) (h : Hw) : h.Keeps c h := ⟨rfl, fun _ _ => rfl, fun x hx => ⟨x, hx, .refl x⟩⟩

theorem Hw.Keeps.trans (a : h.Keeps c k) (b : k.Keeps c l) : h.Keeps c l := by
  refine ⟨b.tb.trans a.tb, fun d hd => (b.others d hd).trans (a.others d hd), fun x hx => ?_⟩
  obtain ⟨y, hy, xy⟩ := a.ctx x hx
  obtain ⟨z, hz, yz⟩ := b.ctx y hy
  exact ⟨z, hz, xy.trans yz⟩

theorem Hw.Keeps.of_ctxs (e : k.ctxs = h.ctxs) (t : k.tb = h.tb) : h.Keeps c k :=
  ⟨t, fun _ _ => by rw [e], fun x hx => ⟨x, by rw [e]; exact hx, .refl x⟩⟩

theorem Hw.Keeps.of_only {ps : List Part} (a : h.Only ps k) (e : Part.ctxs ∉ ps) (t : Part.tb ∉ ps) : h.Keeps c k :=
  .of_ctxs (a .ctxs e) (a .tb t)

theorem Hw.keeps_modCtx {f : Ctx → Ctx} (e : ∀ x : Ctx, x.Kept (f x)) : h.Keeps c (h.modCtx c f) :=
  ⟨rfl, fun _ hd => Hw.find?_modCtx_other _ hd, fun x hx => ⟨f x, Hw.find?_modCtx_same f hx, e x⟩⟩

theorem Hw.keeps_raise {d : Cond} {u l i : Nat} : h.Keeps c (h.raise c d u l i) := by
  refine Hw.keeps_modCtx (fun x => ?_)
  dsimp only
  split
  · exact ⟨rfl, rfl, rfl, rfl, rfl, rfl, rfl⟩
  · split
    · exact ⟨rfl, rfl, rfl, rfl, rfl, rfl, rfl⟩
    · exact .refl x

theorem Hw.keeps_strmFault {lc lk s i eco : Nat} {d : Cond} : h.Keeps c (h.strmFault c lc lk s i d eco) := by
  unfold Hw.strmFault
  split
  · exact .refl c h
  · exact (Hw.Keeps.of_only (Hw.only_setErr.trans Hw.only_setErr) (by decide) (by decide)).trans Hw.keeps_raise

theorem Hw.keeps_underflow : h.Keeps c (h.underflow c) := by
  unfold Hw.underflow
  split
  · exact .refl c h
  · dsimp only
    split
    · exact Hw.keeps_strmFault
    · exact .refl c h

theorem Hw.only_underflow : h.Only [.regs, .ctxs] (h.underflow c) := by
  unfold Hw.underflow
  split
  · exact .refl _ _
  · dsimp only
    split
    · exact Hw.only_strmFault
    · exact .refl _ _

theorem Hw.keeps_stopCheck : h.Keeps c (h.stopCheck c) := by
  unfold Hw.stopCheck
  split
  · exact .refl c h
  · split
    · exact Hw.Keeps.trans
        (k := h.modCtx c (fun x => { x with host := { x.host with st := .stopped, stopping := false, stopTb := h.tb } }))
        (Hw.keeps_modCtx (fun _ => ⟨rfl, rfl, rfl, rfl, rfl, rfl, rfl⟩))
        (Hw.Keeps.of_only Hw.only_finishAll (by decide) (by decide))
    · exact .refl c h

theorem Hw.only_stopCheck : h.Only [.ctxs, .host, .out] (h.stopCheck c) := by
  unfold Hw.stopCheck
  split
  · exact .refl _ _
  · split
    · exact (Hw.only_modCtx.mono (by decide)).trans (Hw.only_finishAll.mono (by decide))
    · exact .refl _ _

/-! ## A context that runs no more -/

theorem Hw.admits_running {x : Ctx} {lc lk s : Nat} (e : h.admits x lc lk s = true) : x.host.st = .running := by
  unfold Hw.admits at e
  dsimp only at e
  split at e
  · cases e
  · simp only [Bool.and_eq_true, beq_iff_eq] at e
    exact e.1.1.1.1.1

/-- A stream whose next instruction waits on a channel that no producer will post to (R163). -/
def Hw.starved (h : Hw) (x : Ctx) (p : Nat × Nat × Nat) : Option (Nat × Nat × Nat × ChanDecl) :=
  if h.admits x p.1 p.2.1 p.2.2 then
    match x.lacking p.1 p.2.1 (waitsOf ((x.nextWord (strmKey p.1 p.2.1 p.2.2)).getD 0)) with
    | some d => if x.hasArrived d.producerOf then some (p.1, p.2.1, p.2.2, d) else none
    | none => none
  else none

theorem Hw.underflow_eq {x : Ctx} (hx : Tab.find? h.ctxs c = some x) : h.underflow c =
    match x.allStreams.findSome? (h.starved x) with
    | some (lc, lk, s, d) => h.strmFault c lc lk s (x.run.strm (strmKey lc lk s)).pc
        ⟨dTokenUnderflow, chanArgs d (x.chan d).tokens.length⟩ (x.chanCore d)
    | none => h := by
  unfold Hw.underflow
  rw [Hw.ctx?, hx]
  rfl

/-- A context without starved streams, such as one that does not run, stays as it is. -/
theorem Hw.underflow_none {x : Ctx} (hx : Tab.find? h.ctxs c = some x) (e : ∀ p ∈ x.allStreams, h.starved x p = none) :
    h.underflow c = h := by
  rw [Hw.underflow_eq hx, List.findSome?_eq_none_iff.2 e]

theorem Hw.underflow_still {x : Ctx} (hx : Tab.find? h.ctxs c = some x) (st : x.host.st ≠ .running) : h.underflow c = h :=
  Hw.underflow_none hx (fun _ _ => if_neg (fun e => st (Hw.admits_running e)))

theorem Hw.stopCheck_still {x : Ctx} (hx : Tab.find? h.ctxs c = some x) (st : x.host.st ≠ .running) : h.stopCheck c = h := by
  unfold Hw.stopCheck
  rw [Hw.ctx?, hx]
  exact if_neg (fun e => st e.1)

/-! ## Conditions that streams meet -/

/-- A condition of a stream on a core of its context is detected (R381, R382). -/
theorem Hw.strmFault_eq {x : Ctx} (hx : Tab.find? h.ctxs c = some x) {lc lk : Nat} (core : x.core? lc lk ≠ none) {s i eco : Nat}
    {d : Cond} : ∃ g u l, h.Only [.regs] g ∧ h.strmFault c lc lk s i d eco = g.raise c d u l (indexOf i) := by
  obtain ⟨p, hp⟩ := Option.ne_none_iff_exists'.1 core
  have bind : (h.ctx? c).bind (fun x => x.core? lc lk) = some p := by rw [Hw.ctx?, hx, Option.bind_some, hp]
  unfold Hw.strmFault
  rw [bind]
  exact ⟨_, _, _, Hw.only_setErr.trans Hw.only_setErr, rfl⟩

/-- A context that can fault is faulted after it. -/
theorem Hw.faulted_strmFault {x : Ctx} (hx : Tab.find? h.ctxs c = some x) {lc lk : Nat} (core : x.core? lc lk ≠ none)
    (live : x.canFault = true) (none : x.run.fault = none) {s i eco : Nat} {d : Cond} :
    ∃ z, Tab.find? (h.strmFault c lc lk s i d eco).ctxs c = some z ∧ z.host.st ≠ .running := by
  obtain ⟨g, u, l, only, eq⟩ := Hw.strmFault_eq hx core (s := s) (i := i) (eco := eco) (d := d)
  have ctxs : g.ctxs = h.ctxs := only .ctxs (by decide)
  obtain ⟨z, hz, -, -, -, record⟩ := Hw.find?_raise (d := d) (u := u) (l := l) (i := indexOf i) (ctxs ▸ hx)
  refine ⟨z, by rw [eq]; exact hz, ?_⟩
  rw [(record live none).1]
  nofun

/-- A stream's condition faults its context, whose state and fault record stood as before; what follows the detection is told for
a context that can fault. -/
theorem raised_strmFault {s t : State} {k : Hw} {c lc lk n i eco : Nat} {d : Cond} {x y : Ctx} (hx : Tab.find? s.hw.ctxs c = some x)
    (hy : Tab.find? k.ctxs c = some y) (host : y.host = x.host) (fault : y.run.fault = x.run.fault) (tb : k.tb = s.hw.tb)
    (core : x.core? lc lk ≠ none)
    (eq : x.canFault = true → x.run.fault = none → t.hw = k.strmFault c lc lk n i d eco) : Raised s t c d.detail := by
  intro x' hx' live none
  obtain rfl := Option.some.inj (hx.symm.trans hx')
  have core' : y.core? lc lk ≠ Option.none := by rw [Ctx.core?, host]; exact core
  obtain ⟨g, u, l, only, fe⟩ := Hw.strmFault_eq hy core' (s := n) (i := i) (eco := eco) (d := d)
  have ctxs : g.ctxs = k.ctxs := only .ctxs (by decide)
  have time : g.tb = k.tb := only .tb (by decide)
  obtain ⟨z, hz, -, -, -, record⟩ := Hw.find?_raise (d := d) (u := u) (l := l) (i := indexOf i) (ctxs ▸ hy)
  obtain ⟨zhost, step, r, zfault, detail, cls, rtb, job, more⟩ := record (by rw [Ctx.canFault, host, ← Ctx.canFault, live])
    (fault.trans none)
  exact ⟨z, r, by rw [eq live none, fe]; exact hz, by rw [zhost, host], zfault, step, detail, cls,
    rtb.trans (time.trans tb), by rw [job, host], more⟩

/-- A starved stream faults its context (R163). -/
theorem raised_underflow {s t : State} {c : Nat} {x : Ctx} (hx : Tab.find? s.hw.ctxs c = some x) (placed : x.Placed)
    {p : Nat × Nat × Nat} (hp : p ∈ x.allStreams) (starved : s.hw.starved x p ≠ none) (eq : t.hw = s.hw.underflow c) :
    Raised s t c dTokenUnderflow := by
  rw [Hw.underflow_eq hx] at eq
  cases found : x.allStreams.findSome? (s.hw.starved x) with
  | none => exact absurd (List.findSome?_eq_none_iff.1 found p hp) starved
  | some q =>
    obtain ⟨⟨lc, lk, n⟩, hmem, hq⟩ := List.exists_of_findSome?_eq_some found
    have stream : ∃ d, q = (lc, lk, n, d) := by
      unfold Hw.starved at hq
      split at hq
      · split at hq
        · split at hq
          · exact ⟨_, (Option.some.inj hq).symm⟩
          · cases hq
        · cases hq
      · cases hq
    obtain ⟨d, rfl⟩ := stream
    rw [found] at eq
    exact raised_strmFault hx hx rfl rfl rfl (placed _ hmem) (fun _ _ => eq)

end

end Sys2Proof.Machine
end

section
/-!
PROOFS. The start of an instruction: the tokens that it takes and the entry that it becomes (R62, R63, R139, R143, R151, R163, R430).
-/
namespace Sys2Proof.Machine

/-! ## Tables that are written at many keys -/

theorem Tab.getD_foldl_put {α β : Type} (key : β → Nat) (v : α) (l : List β) (t : Tab α) {b : β} (hb : b ∈ l) (d : α) :
    (l.foldl (fun o g => Tab.put o (key g) v) t).getD (key b) d = v := by
  induction l using List.reverseRecOn with
  | nil => cases hb
  | append_singleton l a ih =>
    rw [List.foldl_append, List.foldl_cons, List.foldl_nil]
    by_cases same : key b = key a
    · rw [same, Tab.getD_put_same]
    · rw [Tab.getD_put_other _ _ _ same]
      rcases List.mem_append.1 hb with mem | mem
      · exact ih mem
      · exact absurd (congrArg key (List.mem_singleton.1 mem)) same

/-! ## Channels -/

/-- A channel of a run; it holds its initial tokens until it is changed. -/
def CtxRun.chanOf (r : CtxRun) (d : ChanDecl) : Chan := Tab.getD r.chans (chanKey d.lc d.lk d.ch) d.fresh

theorem Ctx.chan_eq (x : Ctx) (d : ChanDecl) : x.chan d = x.run.chanOf d := rfl

theorem CtxRun.chanOf_putChan_same (r : CtxRun) (d : ChanDecl) (c : Chan) : (r.putChan d c).chanOf d = c := Tab.getD_put_same _ _ _ _
theorem CtxRun.chanOf_putChan_other (r : CtxRun) {d e : ChanDecl} (c : Chan)
    (h : chanKey e.lc e.lk e.ch ≠ chanKey d.lc d.lk d.ch) : (r.putChan d c).chanOf e = r.chanOf e := Tab.getD_put_other _ _ _ h

theorem Image.chan?_some {i : Image} {lc lk ch : Nat} {d : ChanDecl} (h : i.chan? lc lk ch = some d) :
    d.lc = lc ∧ d.lk = lk ∧ d.ch = ch := by
  have := List.find?_some h
  simpa [and_assoc] using this

theorem chanKey_injective {lc lk ch lc' lk' ch' : Nat} (h : chanKey lc lk ch = chanKey lc' lk' ch') (k : lk < 8) (k' : lk' < 8)
    (c : ch < 64) (c' : ch' < 64) : lc = lc' ∧ lk = lk' ∧ ch = ch' := by
  unfold chanKey at h
  omega

/-! ## Taking tokens (R143) -/

theorem CtxRun.take_eq (r : CtxRun) (i : Image) (d : ChanDecl) :
    ∃ chans owners, (r.take i d).1 = { r with chans := chans, owners := owners } := by
  unfold CtxRun.take
  dsimp only
  split
  · exact ⟨_, _, rfl⟩
  · exact ⟨_, _, rfl⟩

theorem CtxRun.take_same (r : CtxRun) (i : Image) (d : ChanDecl) :
    ((r.take i d).1.chanOf d).tokens = (r.chanOf d).tokens.drop 1 := by
  unfold CtxRun.take
  cases h : (r.chanOf d).tokens with
  | nil =>
    rw [CtxRun.chanOf] at h
    dsimp only
    rw [h]
    exact h
  | cons t ts =>
    rw [CtxRun.chanOf] at h
    dsimp only
    rw [h]
    exact congrArg Chan.tokens (CtxRun.chanOf_putChan_same r d _)

theorem CtxRun.take_other (r : CtxRun) (i : Image) {d e : ChanDecl} (h : chanKey e.lc e.lk e.ch ≠ chanKey d.lc d.lk d.ch) :
    (r.take i d).1.chanOf e = r.chanOf e := by
  unfold CtxRun.take
  dsimp only
  split
  · rfl
  · exact CtxRun.chanOf_putChan_other r _ h

/-- The regions that a token hands off become the consumer's (R151). -/
theorem CtxRun.take_owners (r : CtxRun) (i : Image) {d : ChanDecl} (some : (r.chanOf d).tokens ≠ []) {g : RegionDecl}
    (hg : g ∈ i.handoffs d.lc d.lk d.ch) (o : Owner) :
    Tab.getD (r.take i d).1.owners (regionKey g) o = .strm d.lc d.lk d.consumer := by
  obtain ⟨t, ts, h⟩ := List.exists_cons_of_ne_nil some
  rw [CtxRun.chanOf] at h
  unfold CtxRun.take
  dsimp only
  rw [h]
  exact Tab.getD_foldl_put regionKey _ _ _ hg o

/-- One wait of an instruction. -/
def CtxRun.takeOne (i : Image) (lc lk : Nat) (acc : CtxRun × Nat) (ch : Nat) : CtxRun × Nat :=
  match i.chan? lc lk ch with
  | some d => ((acc.1.take i d).1, max acc.2 (acc.1.take i d).2)
  | none => acc

theorem CtxRun.takeAll_eq (r : CtxRun) (i : Image) (lc lk : Nat) (ws : List Nat) :
    r.takeAll i lc lk ws = ws.foldl (CtxRun.takeOne i lc lk) (r, 0) := rfl

theorem CtxRun.takeOne_eq (i : Image) (lc lk : Nat) (acc : CtxRun × Nat) (ch : Nat) :
    ∃ chans owners, (CtxRun.takeOne i lc lk acc ch).1 = { acc.1 with chans := chans, owners := owners } := by
  unfold CtxRun.takeOne
  split
  · exact CtxRun.take_eq _ _ _
  · exact ⟨_, _, rfl⟩

/-- Taking tokens changes nothing but channels and owners. -/
theorem CtxRun.takeAll_run (r : CtxRun) (i : Image) (lc lk : Nat) (ws : List Nat) :
    ∃ chans owners, (r.takeAll i lc lk ws).1 = { r with chans := chans, owners := owners } := by
  rw [CtxRun.takeAll_eq]
  induction ws using List.reverseRecOn with
  | nil => exact ⟨_, _, rfl⟩
  | append_singleton ws ch ih =>
    rw [List.foldl_append, List.foldl_cons, List.foldl_nil]
    obtain ⟨c, o, eq⟩ := ih
    obtain ⟨c', o', eq'⟩ := CtxRun.takeOne_eq i lc lk (ws.foldl (CtxRun.takeOne i lc lk) (r, 0)) ch
    exact ⟨c', o', by rw [eq', eq]⟩

/-- A channel loses one token for each wait on it. -/
theorem CtxRun.takeAll_tokens (r : CtxRun) {i : Image} {lc lk ch : Nat} {d : ChanDecl} (hd : i.chan? lc lk ch = some d)
    (ws : List Nat) : ((r.takeAll i lc lk ws).1.chanOf d).tokens = (r.chanOf d).tokens.drop (ws.count ch) := by
  rw [CtxRun.takeAll_eq]
  induction ws using List.reverseRecOn with
  | nil => rfl
  | append_singleton ws v ih =>
    rw [List.foldl_append, List.foldl_cons, List.foldl_nil, List.count_append, CtxRun.takeOne]
    by_cases same : v = ch
    · subst same
      rw [hd, List.count_singleton_self, ← List.drop_drop, ← ih]
      exact CtxRun.take_same _ _ _
    · rw [List.count_singleton, if_neg (by simpa using same), Nat.add_zero, ← ih]
      split
      · rename_i e he
        obtain ⟨lc1, lk1, ch1⟩ := Image.chan?_some hd
        obtain ⟨lc2, lk2, ch2⟩ := Image.chan?_some he
        exact congrArg Chan.tokens (CtxRun.take_other _ _ (by rw [lc1, lk1, ch1, lc2, lk2, ch2]; unfold chanKey; omega))
      · rfl

/-! ## Counting TPOSTs (R146) -/

theorem bitsAt_lt_of {n lo w k : Nat} (h : 2 ^ w ≤ k) : bitsAt n lo w < k := (bitsAt_lt n lo w).trans_le h

theorem CtxRun.countTpost_run (r : CtxRun) (i : Image) (w : Nat) : ∃ chans, r.countTpost i w = { r with chans := chans } := by
  unfold CtxRun.countTpost
  split
  · exact ⟨_, rfl⟩
  · exact ⟨_, rfl⟩

theorem CtxRun.countTpost_tokens (r : CtxRun) {i : Image} {w lc lk ch : Nat} {d : ChanDecl} (hd : i.chan? lc lk ch = some d)
    (hlk : lk < 8) (hch : ch < 64) : ((r.countTpost i w).chanOf d).tokens = (r.chanOf d).tokens := by
  unfold CtxRun.countTpost
  split
  · rename_i e he
    obtain ⟨lc1, lk1, ch1⟩ := Image.chan?_some hd
    obtain ⟨lc2, lk2, ch2⟩ := Image.chan?_some he
    by_cases key : chanKey d.lc d.lk d.ch = chanKey e.lc e.lk e.ch
    · obtain ⟨h1, h2, h3⟩ := chanKey_injective key (by omega) (by rw [lk2]; exact bitsAt_lt_of (by decide)) (by omega)
        (by rw [ch2]; exact bitsAt_lt_of (by decide))
      rw [Image.tpostChan, ← lc2, ← lk2, ← ch2, ← h1, ← h2, ← h3, lc1, lk1, ch1, hd] at he
      obtain rfl := Option.some.inj he
      dsimp only
      rw [CtxRun.chanOf_putChan_same]
      rfl
    · exact congrArg Chan.tokens (CtxRun.chanOf_putChan_other r _ key)
  · rfl

theorem waitsOf_lt {w ch : Nat} (h : ch ∈ waitsOf w) : ch < 64 := by
  have := List.mem_of_mem_take h
  simp only [List.mem_cons, List.not_mem_nil, or_false] at this
  rcases this with rfl | rfl <;> exact bitsAt_lt_of (by decide)

/-! ## The entry of a started instruction -/

theorem Hw.modelStep_loops (h : Hw) (x : Ctx) (k lc lk s w : Nat) (iters : List Nat) (ready : Nat) (src dst : List Rng)
    (st : Stream) : (h.modelStep x k lc lk s w iters ready src dst st).2.2.loops = st.loops := by
  unfold Hw.modelStep
  split <;> rfl

/-- What an instruction in progress keeps of its start. -/
structure Hw.Entry (h : Hw) (k : Nat) (st : Stream) (w : Nat) (f : Infl) : Prop where
  idx : f.idx = st.pc
  iters : f.iters = st.iters
  startTb : f.startTb = h.tb
  startSteps : f.startSteps = h.steps (k / 9)
  fresh : f.done = false
  landed : f.landed = decide (opcOf w ≠ 0x42)
  val : opcOf w = 5 → f.val = h.ctrrd k w

/-- The tokens of an instruction are taken, and a TPOST is counted. -/
def Ctx.takesFor (x : Ctx) (lc lk w : Nat) : CtxRun :=
  if opcOf w = 0x42 then ((x.run.takeAll x.img lc lk (waitsOf w)).1).countTpost x.img w
  else (x.run.takeAll x.img lc lk (waitsOf w)).1

theorem Hw.startInstr_eq (h : Hw) (c : Nat) (x : Ctx) (k lc lk s w : Nat) : ∃ st' f,
    h.startInstr c x k lc lk s w = h.setCtx c { x with run := (x.takesFor lc lk w).modStrm (strmKey lc lk s) (fun _ => st') } ∧
      h.Entry k (x.run.strm (strmKey lc lk s)) w f ∧ st'.pc = (x.run.strm (strmKey lc lk s)).pc + 1 ∧
      st'.loops = (x.run.strm (strmKey lc lk s)).loops ∧ st'.inflight = (x.run.strm (strmKey lc lk s)).inflight ++ [f] := by
  unfold Hw.startInstr
  dsimp only
  refine ⟨_, _, rfl, ⟨rfl, rfl, rfl, rfl, rfl, ?_, fun e => if_pos e⟩, rfl, Hw.modelStep_loops _ _ _ _ _ _ _ _ _ _ _ _, rfl⟩
  by_cases e : opcOf w = 0x42 <;> simp [e]

theorem Ctx.takesFor_run (x : Ctx) (lc lk w : Nat) :
    ∃ chans owners, x.takesFor lc lk w = { x.run with chans := chans, owners := owners } := by
  obtain ⟨c, o, eq⟩ := x.run.takeAll_run x.img lc lk (waitsOf w)
  unfold Ctx.takesFor
  split
  · obtain ⟨c', eq'⟩ := (x.run.takeAll x.img lc lk (waitsOf w)).1.countTpost_run x.img w
    exact ⟨c', o, by rw [eq', eq]⟩
  · exact ⟨c, o, eq⟩

theorem Ctx.takesFor_tokens (x : Ctx) {lc lk w ch : Nat} {d : ChanDecl} (hd : x.img.chan? lc lk ch = some d) (hlk : lk < 8)
    (hch : ch ∈ waitsOf w) : ((x.takesFor lc lk w).chanOf d).tokens = (x.chan d).tokens.drop ((waitsOf w).count ch) := by
  unfold Ctx.takesFor
  split
  · rw [CtxRun.countTpost_tokens _ hd hlk (waitsOf_lt hch), CtxRun.takeAll_tokens _ hd, Ctx.chan_eq]
  · rw [CtxRun.takeAll_tokens _ hd, Ctx.chan_eq]

theorem Ctx.takesFor_owners (x : Ctx) {lc lk w ch : Nat} {d : ChanDecl} (hd : x.img.chan? lc lk ch = some d)
    (ready : x.tokensReady lc lk (waitsOf w) = true) (one : waitsOf w = [ch]) {g : RegionDecl} (hg : g ∈ x.img.handoffs lc lk ch)
    (o : Owner) : Tab.getD (x.takesFor lc lk w).owners (regionKey g) o = .strm lc lk d.consumer := by
  obtain ⟨rfl, rfl, rfl⟩ := Image.chan?_some hd
  have here : (x.run.chanOf d).tokens ≠ [] := by
    rw [one] at ready
    simp only [Ctx.tokensReady, List.all_cons, List.all_nil, Bool.and_true, hd, List.count_singleton_self, decide_eq_true_eq,
      Ctx.chan_eq] at ready
    exact List.ne_nil_of_length_pos ready
  have taken : Tab.getD (x.run.takeAll x.img d.lc d.lk (waitsOf w)).1.owners (regionKey g) o = .strm d.lc d.lk d.consumer := by
    rw [CtxRun.takeAll_eq, one, List.foldl_cons, List.foldl_nil, CtxRun.takeOne, hd]
    exact CtxRun.take_owners _ _ here hg o
  unfold Ctx.takesFor
  split
  · obtain ⟨c, eq⟩ := (x.run.takeAll x.img d.lc d.lk (waitsOf w)).1.countTpost_run x.img w
    rw [eq]
    exact taken
  · exact taken

/-! ## What CTRRD reads (R430) -/

theorem bitsAt_bitsAt {n lo w a b : Nat} (h : a + b ≤ w) : bitsAt (bitsAt n lo w) a b = bitsAt n (lo + a) b := by
  rw [bitsAt_eq, bitsAt_eq, bitsAt_eq, pow_add, ← Nat.div_div_eq_div_mul]
  generalize n / 2 ^ lo = m
  obtain ⟨k, rfl⟩ := Nat.exists_eq_add_of_le h
  rw [pow_add, pow_add, mul_assoc, Nat.mod_mul_right_div_self, Nat.mod_mul_right_mod]

section
variable {h : Hw} {k w : Nat}

theorem Hw.ctrrd_time (e : bitsAt w 78 2 = 3) : h.ctrrd k w = h.tb := by
  unfold Hw.ctrrd
  simp only [bitsAt_bitsAt (by decide : 14 + 2 ≤ 16), e]
theorem Hw.ctrrd_flags (e : bitsAt w 78 2 = 2) : h.ctrrd k w = (h.reg (Reg.VXE_FPFLAGS k)).toNat % 16 := by
  unfold Hw.ctrrd
  simp only [bitsAt_bitsAt (by decide : 14 + 2 ≤ 16), e]

/-- An odd counter is read by itself. -/
theorem odd_selector (odd : bitsAt w 64 1 = 1) : ¬ bitsAt w 64 5 % 2 = 0 := by
  rw [bitsAt_eq] at odd ⊢
  omega

theorem Hw.ctrrd_core (e : bitsAt w 78 2 = 0) (odd : bitsAt w 64 1 = 1) :
    h.ctrrd k w = h.ctrVal (bankCore k) (bitsAt w 64 5) := by
  unfold Hw.ctrrd
  simp only [bitsAt_bitsAt (by decide : 14 + 2 ≤ 16), bitsAt_bitsAt (by decide : 0 + 5 ≤ 16), e, odd_selector odd, Nat.add_zero,
    false_and, if_false]
theorem Hw.ctrrd_clus (e : bitsAt w 78 2 = 1) (odd : bitsAt w 64 1 = 1) :
    h.ctrrd k w = h.ctrVal (bankClus (k / 9)) (bitsAt w 64 5) := by
  unfold Hw.ctrrd
  simp only [bitsAt_bitsAt (by decide : 14 + 2 ≤ 16), bitsAt_bitsAt (by decide : 0 + 5 ≤ 16), e, odd_selector odd, Nat.add_zero,
    false_and, if_false]
end

/-! ## The row -/

/-- The state after INSTRUCTION_START. -/
def started (r : StreamRef) (s : State) : State := { s with hw := startHw r s.hw }

section
variable {r : StreamRef} {s : State} {x : Ctx} {k w : Nat}

theorem startHw_ready (hx : Tab.find? s.hw.ctxs r.ctx = some x) (hk : x.core? r.lc r.lk = some k)
    (hw : x.nextWord (keyOf r) = some w) (gate : s.hw.gateOpen = true) (admits : s.hw.admits x r.lc r.lk r.strm = true)
    (bar : opcOf w ≠ 3) (halt : opcOf w ≠ 4) : startHw r s.hw =
      if x.tokensReady r.lc r.lk (waitsOf w) then (s.hw.startInstr r.ctx x k r.lc r.lk r.strm w).underflow r.ctx
      else s.hw.underflow r.ctx := by
  unfold startHw
  dsimp only
  rw [Hw.ctx?, hx]
  dsimp only
  rw [hk, ← keyOf, hw]
  exact if_neg (by simp [gate, admits, bar, halt])

/-- A row starts an instruction, finds a starved stream, or does nothing. -/
theorem startHw_cases (r : StreamRef) (h : Hw) : startHw r h = h ∨ startHw r h = h.underflow r.ctx ∨
    ∃ x k w, startHw r h = (h.startInstr r.ctx x k r.lc r.lk r.strm w).underflow r.ctx := by
  unfold startHw
  dsimp only
  split
  · exact .inl rfl
  · split
    · split
      · exact .inl rfl
      · split
        · exact .inr (.inr ⟨_, _, _, rfl⟩)
        · exact .inr (.inl rfl)
    · exact .inl rfl

theorem frame_started (r : StreamRef) (s : State) : Frame [.regs, .ctxs] s (started r s) := by
  refine Frame.keep ?_
  rcases startHw_cases r s.hw with eq | eq | ⟨x, k, w, eq⟩ <;> rw [eq]
  · exact .refl _ _
  · exact Hw.only_underflow
  · obtain ⟨st', f, start, -⟩ := s.hw.startInstr_eq r.ctx x k r.lc r.lk r.strm w
    rw [start]
    exact (Hw.only_setCtx.mono (by decide)).trans Hw.only_underflow

theorem started_nothing (none : Tab.find? s.hw.ctxs r.ctx = none ∨ s.hw.gateOpen = false ∨
    (∃ x, Tab.find? s.hw.ctxs r.ctx = some x ∧ s.hw.admits x r.lc r.lk r.strm = false)) : started r s = s := by
  have same : startHw r s.hw = s.hw := by
    unfold startHw
    dsimp only
    rw [Hw.ctx?]
    split
    · rfl
    · rename_i x hx
      split
      · refine if_pos ?_
        rcases none with none | shut | ⟨x', hx', no⟩
        · rw [hx] at none
          cases none
        · exact .inr (.inl shut)
        · obtain rfl := Option.some.inj (hx.symm.trans hx')
          exact .inl no
      · rfl
  rw [started, same]

theorem starved_of_lacking {p : Nat × Nat × Nat} {d : ChanDecl} (admits : s.hw.admits x p.1 p.2.1 p.2.2 = true)
    (lacks : x.lacking p.1 p.2.1 (waitsOf ((x.nextWord (strmKey p.1 p.2.1 p.2.2)).getD 0)) = some d)
    (arrived : x.hasArrived d.producerOf = true) : s.hw.starved x p ≠ none := by
  rw [Hw.starved, if_pos admits, lacks]
  dsimp only
  rw [if_pos arrived]
  exact Option.some_ne_none _

/-- The context of a stream whose instruction starts, before a starved stream is looked for. -/
theorem Hw.startInstr_ctx (h : Hw) (x : Ctx) (k w : Nat) :
    ∃ y f, Tab.find? (h.startInstr r.ctx x k r.lc r.lk r.strm w).ctxs r.ctx = some y ∧
      (∀ d, d ≠ r.ctx.val → Tab.find? (h.startInstr r.ctx x k r.lc r.lk r.strm w).ctxs d = Tab.find? h.ctxs d) ∧
      y.host = x.host ∧ h.Entry k (x.run.strm (keyOf r)) w f ∧ (y.run.strm (keyOf r)).pc = (x.run.strm (keyOf r)).pc + 1 ∧
      (y.run.strm (keyOf r)).loops = (x.run.strm (keyOf r)).loops ∧
      (y.run.strm (keyOf r)).inflight = (x.run.strm (keyOf r)).inflight ++ [f] ∧
      (∀ q, q ≠ keyOf r → y.run.strm q = x.run.strm q) ∧ y.run.chans = (x.takesFor r.lc r.lk w).chans ∧
      y.run.owners = (x.takesFor r.lc r.lk w).owners := by
  obtain ⟨st', f, eq, entry, pc, loops, infl⟩ := h.startInstr_eq r.ctx x k r.lc r.lk r.strm w
  obtain ⟨chans, owners, run⟩ := x.takesFor_run r.lc r.lk w
  have here : ((x.takesFor r.lc r.lk w).modStrm (keyOf r) (fun _ => st')).strm (keyOf r) = st' := CtxRun.strm_modStrm_same _ _ _
  refine ⟨{ x with run := (x.takesFor r.lc r.lk w).modStrm (keyOf r) (fun _ => st') }, f,
    by rw [eq]; exact Tab.find?_put_same _ _ _, fun d hd => by rw [eq]; exact Tab.find?_put_other _ _ hd, rfl, entry,
    ?_, ?_, ?_, fun q hq => ?_, rfl, rfl⟩
  · exact (congrArg Stream.pc here).trans pc
  · exact (congrArg Stream.loops here).trans loops
  · exact (congrArg Stream.inflight here).trans infl
  · refine (CtxRun.strm_modStrm_other _ _ hq).trans ?_
    rw [run]
    rfl

/-- The start of an instruction whose tokens are there. -/
theorem started_takes (hx : Tab.find? s.hw.ctxs r.ctx = some x) (hk : x.core? r.lc r.lk = some k)
    (hw : x.nextWord (keyOf r) = some w) (gate : s.hw.gateOpen = true) (admits : s.hw.admits x r.lc r.lk r.strm = true)
    (bar : opcOf w ≠ 3) (halt : opcOf w ≠ 4) (ready : x.tokensReady r.lc r.lk (waitsOf w) = true) :
    StreamAlone s (started r s) r.ctx (keyOf r) ∧ ∃ y f, Tab.find? (started r s).hw.ctxs r.ctx = some y ∧
      s.hw.Entry k (x.run.strm (keyOf r)) w f ∧ (y.run.strm (keyOf r)).pc = (x.run.strm (keyOf r)).pc + 1 ∧
      (y.run.strm (keyOf r)).loops = (x.run.strm (keyOf r)).loops ∧
      (y.run.strm (keyOf r)).inflight = (x.run.strm (keyOf r)).inflight ++ [f] ∧
      y.run.chans = (x.takesFor r.lc r.lk w).chans ∧ y.run.owners = (x.takesFor r.lc r.lk w).owners := by
  obtain ⟨y, f, hy, others, host, entry, pc, loops, infl, strm, chans, owners⟩ := s.hw.startInstr_ctx x k w
  obtain ⟨-, same, keeps⟩ := Hw.keeps_underflow (h := s.hw.startInstr r.ctx x k r.lc r.lk r.strm w) (c := r.ctx)
  obtain ⟨z, hz, kept⟩ := keeps y hy
  have eq : (started r s).hw = (s.hw.startInstr r.ctx x k r.lc r.lk r.strm w).underflow r.ctx :=
    (startHw_ready hx hk hw gate admits bar halt).trans (if_pos ready)
  rw [eq]
  refine ⟨⟨fun d hd => by rw [eq, same d hd, others d hd], fun x' hx' => ?_⟩, z, f, hz, entry, ?_, ?_, ?_, kept.chans.trans chans,
    kept.owners.trans owners⟩
  · obtain rfl := Option.some.inj (hx.symm.trans hx')
    exact ⟨z, by rw [eq]; exact hz, by rw [kept.image, host], by rw [kept.place, host],
      fun q hq => (kept.strm q).trans (strm q hq)⟩
  · rw [kept.strm, pc]
  · rw [kept.strm, loops]
  · rw [kept.strm, infl]

/-- A stream whose tokens are not there waits. -/
theorem started_waits (hx : Tab.find? s.hw.ctxs r.ctx = some x) (hk : x.core? r.lc r.lk = some k)
    (hw : x.nextWord (keyOf r) = some w) (gate : s.hw.gateOpen = true) (admits : s.hw.admits x r.lc r.lk r.strm = true)
    (bar : opcOf w ≠ 3) (halt : opcOf w ≠ 4) (wait : x.tokensReady r.lc r.lk (waitsOf w) = false) :
    (started r s).hw = s.hw.underflow r.ctx := by
  refine (startHw_ready hx hk hw gate admits bar halt).trans (if_neg ?_)
  rw [wait]
  nofun

/-- A change that keeps contexts leaves every stream alone. -/
theorem Hw.Keeps.alone {t : State} {c key : Nat} (a : s.hw.Keeps c t.hw) : StreamAlone s t c key := by
  refine ⟨a.others, fun x hx => ?_⟩
  obtain ⟨y, hy, kept⟩ := a.ctx x hx
  exact ⟨y, hy, kept.image, kept.place, fun q _ => kept.strm q⟩

/-- INSTRUCTION_START. -/
theorem instructionStart_clause (r : StreamRef) (s : State) : ∃ t, exec (.instructionStart r) s = .next t ∧ Frame [.regs, .ctxs] s t ∧
    (Tab.find? s.hw.ctxs r.ctx = none ∨ s.hw.gateOpen = false ∨
      (∃ x, Tab.find? s.hw.ctxs r.ctx = some x ∧ s.hw.admits x r.lc r.lk r.strm = false) → t = s) ∧
    ∀ x k w, Tab.find? s.hw.ctxs r.ctx = some x → x.core? r.lc r.lk = some k → x.nextWord (keyOf r) = some w →
        s.hw.gateOpen = true → s.hw.admits x r.lc r.lk r.strm = true → opcOf w ≠ 3 → opcOf w ≠ 4 →
      StreamAlone s t r.ctx (keyOf r) ∧
      (x.tokensReady r.lc r.lk (waitsOf w) = false → ∃ y, Tab.find? t.hw.ctxs r.ctx = some y ∧ y.run.streams = x.run.streams ∧
        y.run.chans = x.run.chans ∧
        ∀ (lc lk n : Nat) (d : ChanDecl), x.Placed → (lc, lk, n) ∈ x.allStreams → s.hw.admits x lc lk n = true →
          x.lacking lc lk (waitsOf ((x.nextWord (strmKey lc lk n)).getD 0)) = some d → x.hasArrived d.producerOf = true →
          Raised s t r.ctx dTokenUnderflow) ∧
      (x.tokensReady r.lc r.lk (waitsOf w) = true → ∃ y f, Tab.find? t.hw.ctxs r.ctx = some y ∧
        (y.run.strm (keyOf r)).pc = (x.run.strm (keyOf r)).pc + 1 ∧ (y.run.strm (keyOf r)).loops = (x.run.strm (keyOf r)).loops ∧
        (y.run.strm (keyOf r)).inflight = (x.run.strm (keyOf r)).inflight ++ [f] ∧ f.idx = (x.run.strm (keyOf r)).pc ∧
        f.iters = (x.run.strm (keyOf r)).iters ∧ f.startTb = s.hw.tb ∧ f.startSteps = s.hw.steps (k / 9) ∧ f.done = false ∧
        f.landed = decide (opcOf w ≠ 0x42) ∧
        (opcOf w = 5 → (bitsAt w 78 2 = 3 → f.val = s.hw.tb) ∧
          (bitsAt w 78 2 = 2 → f.val = (s.hw.reg (Reg.VXE_FPFLAGS k)).toNat % 16) ∧
          (bitsAt w 78 2 = 0 → bitsAt w 64 1 = 1 → f.val = s.hw.ctrVal (bankCore k) (bitsAt w 64 5)) ∧
          (bitsAt w 78 2 = 1 → bitsAt w 64 1 = 1 → f.val = s.hw.ctrVal (bankClus (k / 9)) (bitsAt w 64 5))) ∧
        (∀ ch ∈ waitsOf w, ∀ d, x.img.chan? r.lc r.lk ch = some d →
          Holds t r.ctx d ((x.chan d).tokens.drop ((waitsOf w).count ch))) ∧
        ∀ ch d, waitsOf w = [ch] → x.img.chan? r.lc r.lk ch = some d → ∀ g ∈ x.img.handoffs r.lc r.lk ch,
          y.owner g = .strm r.lc r.lk d.consumer) := by
  refine ⟨started r s, rfl, frame_started r s, started_nothing, fun x k w hx hk hw gate admits bar halt => ?_⟩
  cases ready : x.tokensReady r.lc r.lk (waitsOf w) with
  | false =>
    have eq := started_waits hx hk hw gate admits bar halt ready
    have keeps : s.hw.Keeps r.ctx (started r s).hw := eq ▸ Hw.keeps_underflow
    obtain ⟨y, hy, kept⟩ := keeps.ctx x hx
    exact ⟨keeps.alone, fun _ => ⟨y, hy, kept.streams, kept.chans, fun lc lk n d placed hmem starts lacks arrived =>
      raised_underflow hx placed hmem (starved_of_lacking starts lacks arrived) eq⟩, nofun⟩
  | true =>
    obtain ⟨alone, y, f, hy, entry, pc, loops, infl, chans, owners⟩ := started_takes hx hk hw gate admits bar halt ready
    refine ⟨alone, nofun, fun _ => ⟨y, f, hy, pc, loops, infl, entry.idx, entry.iters, entry.startTb, entry.startSteps, entry.fresh,
      entry.landed, fun ctrrd => ⟨fun e => ?_, fun e => ?_, fun e odd => ?_, fun e odd => ?_⟩,
      fun ch hch d hd => ⟨y, hy, ?_⟩, fun ch d one hd g hg => ?_⟩⟩
    · rw [entry.val ctrrd, Hw.ctrrd_time e]
    · rw [entry.val ctrrd, Hw.ctrrd_flags e]
    · rw [entry.val ctrrd, Hw.ctrrd_core e odd]
    · rw [entry.val ctrrd, Hw.ctrrd_clus e odd]
    · rw [Ctx.chan, chans]
      exact x.takesFor_tokens hd r.lk.isLt hch
    · rw [Ctx.owner, owners]
      exact x.takesFor_owners hd ready one hg _

end

end Sys2Proof.Machine
end

section
/-!
PROOFS. The control instructions NOP, LOOP, ENDLOOP and CTRRD (R92, R139–R141, R156, R430).
-/
namespace Sys2Proof.Machine

/-! ## The row of a control instruction -/

/-- The state after the row of a control instruction. -/
def controlled (r : StreamRef) (opc : Nat) (s : State) (f : Work → Hw → Hw × Except Cond Unit) : State :=
  { s with hw := controlEff r opc s f }

section
variable {r : StreamRef} {opc : Nat} {s : State} {f : Work → Hw → Hw × Except Cond Unit} {w : Work}

theorem controlled_idle (e : s.hw.work r opc = none) : controlled r opc s f = s := by
  rw [controlled, controlEff, e]
theorem controlled_ok (e : s.hw.work r opc = some w) {h : Hw} (ok : f w s.hw = (h, .ok ())) :
    (controlled r opc s f).hw = h.markDone w.w id := by
  rw [controlled, controlEff, e]
  dsimp only
  rw [ok]
theorem controlled_error (e : s.hw.work r opc = some w) {h : Hw} {c : Cond} (error : f w s.hw = (h, .error c)) :
    (controlled r opc s f).hw = h.workFault w c := by
  rw [controlled, controlEff, e]
  dsimp only
  rw [error]

theorem frame_controlled (quiet : ∀ w h, ∃ k, f w h = (k, .ok ()) ∧ h.Only [.ctxs] k) : Frame [.ctxs] s (controlled r opc s f) := by
  refine Frame.keep ?_
  unfold controlEff
  split
  · exact .refl _ _
  · rename_i w _
    obtain ⟨k, ok, only⟩ := quiet w s.hw
    rw [ok]
    exact only.trans Hw.only_markDone

end

/-! ## A stream that turns -/

/-- The loops and the place of the instruction's stream change by `f` before the instruction is marked. -/
def Hw.turn (h : Hw) (w : Work) (f : Stream → Stream) : Hw := h.modRun w.w.c (fun r => r.modStrm w.key f)

section
variable {h : Hw} {w : Work} {f : Stream → Stream}

theorem Hw.only_turn : h.Only [.ctxs] (h.turn w f) := Hw.only_modRun

theorem Work.Due.turn (d : w.Due h) (same : ∀ st, (f st).inflight = st.inflight) : w.Going h (h.turn w f) := by
  refine ⟨rfl, fun _ hd => Hw.find?_modCtx_other _ hd, _, w.fl, Hw.find?_modCtx_same _ d.ctx, rfl, rfl,
    fun q hq => CtxRun.strm_modStrm_other _ _ hq, ?_, rfl, rfl⟩
  show ((w.x.run.modStrm w.key f).strm w.key).inflight[w.w.n]? = _
  rw [CtxRun.strm_modStrm_same, same]
  exact d.infl

/-- The stream after the row keeps what `f` made of it. -/
theorem Work.Due.turned (d : w.Due h) : ∃ y, Tab.find? ((h.turn w f).markDone w.w id).ctxs w.w.c = some y ∧
    (y.run.strm w.key).pc = (f (w.x.run.strm w.key)).pc ∧ (y.run.strm w.key).loops = (f (w.x.run.strm w.key)).loops := by
  have here : ∀ g : Stream → Stream, ((w.x.run.modStrm w.key f).modStrm w.key g).strm w.key = g (f (w.x.run.strm w.key)) :=
    fun g => by rw [CtxRun.strm_modStrm_same, CtxRun.strm_modStrm_same]
  exact ⟨_, Hw.find?_markDone id (Hw.find?_modCtx_same _ d.ctx), (congrArg Stream.pc (here _)).trans rfl,
    (congrArg Stream.loops (here _)).trans rfl⟩

end

/-! ## NOP -/

section
variable {r : StreamRef} {s : State} {w : Work}

theorem nop_clause (r : StreamRef) (s : State) : ∃ t, exec (.nop r) s = .next t ∧ Frame [.ctxs] s t ∧
    (s.hw.work r 0x00 = none → t = s) ∧ ∀ w, s.hw.work r 0x00 = some w → Executed t w ∧ StreamAlone s t w.w.c (keyOf r) := by
  refine ⟨controlled r 0x00 s (fun _ h => (h, .ok ())), rfl, frame_controlled (fun _ h => ⟨h, rfl, .refl _ _⟩), controlled_idle,
    fun w e => ?_⟩
  have eq := controlled_ok (f := fun _ h => (h, .ok ())) e rfl
  have due := (Hw.work_due e).1
  rw [← Hw.work_key e]
  exact ⟨due.going.executed eq, (due.going.markDone id (fun _ => ⟨rfl, rfl⟩)).alone due (by rw [eq])⟩

/-! ## LOOP -/

/-- The body of a loop without inner loops ends after its first ENDLOOP. -/
theorem afterLoop_flat {ws : List Nat} {n e : Nat} (m : Nat) (he : ws[n]? = some e) (op : opcOf e = 2)
    (body : ∀ i v, i < n → ws[i]? = some v → opcOf v ≠ 1 ∧ opcOf v ≠ 2) : afterLoop ws 0 m = m + n + 1 := by
  induction n generalizing ws m with
  | zero =>
    obtain ⟨v, vs, rfl⟩ := List.exists_cons_of_ne_nil (l := ws) (by rintro rfl; cases he)
    obtain rfl : v = e := by simpa using he
    simp [afterLoop, op]
  | succ n ih =>
    obtain ⟨v, vs, rfl⟩ := List.exists_cons_of_ne_nil (l := ws) (by rintro rfl; cases he)
    obtain ⟨one, two⟩ := body 0 v (Nat.succ_pos n) rfl
    rw [afterLoop, if_neg one, if_neg two, ih (m + 1) he (fun i u hi hu => body (i + 1) u (Nat.succ_lt_succ hi) hu)]
    omega

/-- The count that a LOOP names (R141, R156). -/
def Work.trips (w : Work) : Nat :=
  if bitAt w.word 91 then (w.x.run.lens.getD (bitsAt w.word 63 4) 0).toNat else bitsAt w.word 67 24

/-- What LOOP does to its stream. -/
def Work.opens (w : Work) (st : Stream) : Stream :=
  if w.trips = 0 then { st with pc := afterLoop ((w.x.img.words w.key).drop (w.fl.idx + 1)) 0 (w.fl.idx + 1) }
  else { st with loops := ⟨w.fl.idx, w.trips, 0⟩ :: st.loops }

theorem Work.opens_some {w : Work} {st : Stream} (e : w.trips ≠ 0) :
    (w.opens st).loops = ⟨w.fl.idx, w.trips, 0⟩ :: st.loops ∧ (w.opens st).pc = st.pc := by
  rw [Work.opens, if_neg e]
  exact ⟨rfl, rfl⟩
theorem Work.opens_none {w : Work} {st : Stream} (e : w.trips = 0) : (w.opens st).loops = st.loops ∧
    (w.opens st).pc = afterLoop ((w.x.img.words w.key).drop (w.fl.idx + 1)) 0 (w.fl.idx + 1) := by
  rw [Work.opens, if_pos e]
  exact ⟨rfl, rfl⟩

theorem Work.inflight_opens (w : Work) (st : Stream) : (w.opens st).inflight = st.inflight := by
  unfold Work.opens
  split <;> rfl

theorem loopWork_bound {h : Hw} (bounded : bitAt w.word 91 = true)
    (exceeds : bitsAt w.word 67 24 < (w.x.run.lens.getD (bitsAt w.word 63 4) 0).toNat) :
    ∃ c, loopWork w h = (h, .error c) ∧ c.detail = dTripBound := ⟨_, if_pos ⟨bounded, exceeds⟩, rfl⟩
theorem loopWork_opens {h : Hw}
    (e : bitAt w.word 91 = false ∨ (w.x.run.lens.getD (bitsAt w.word 63 4) 0).toNat ≤ bitsAt w.word 67 24) :
    loopWork w h = (h.turn w w.opens, .ok ()) := by
  refine if_neg ?_
  rintro ⟨bounded, exceeds⟩
  rcases e with e | e
  · rw [e] at bounded
    cases bounded
  · omega

theorem frame_loop (r : StreamRef) (s : State) : Frame [.regs, .ctxs] s (controlled r 0x01 s loopWork) := by
  refine Frame.keep ?_
  unfold controlEff
  split
  · exact .refl _ _
  · rename_i w _
    by_cases e : bitAt w.word 91 = false ∨ (w.x.run.lens.getD (bitsAt w.word 63 4) 0).toNat ≤ bitsAt w.word 67 24
    · rw [loopWork_opens e]
      exact (Hw.only_turn.mono (by decide)).trans (Hw.only_markDone.mono (by decide))
    · rw [not_or, Bool.not_eq_false, not_le] at e
      obtain ⟨c, eq, -⟩ := loopWork_bound (h := s.hw) e.1 e.2
      rw [eq]
      exact Hw.only_workFault

theorem loop_clause (r : StreamRef) (s : State) : ∃ t, exec (.loop r) s = .next t ∧ Frame [.regs, .ctxs] s t ∧
    (s.hw.work r 0x01 = none → t = s) ∧
    ∀ w st top v count, s.hw.work r 0x01 = some w → st = w.x.run.strm (keyOf r) → top = bitsAt w.word 67 24 →
        v = (w.x.run.lens.getD (bitsAt w.word 63 4) 0).toNat → count = (if bitAt w.word 91 then v else top) →
      StreamAlone s t w.w.c (keyOf r) ∧
      (bitAt w.word 91 = true → top < v → Raised s t w.w.c dTripBound) ∧
      (bitAt w.word 91 = false ∨ v ≤ top → Frame [.ctxs] s t ∧ Executed t w ∧
        ∃ y, Tab.find? t.hw.ctxs w.w.c = some y ∧
          (count ≠ 0 → (y.run.strm (keyOf r)).loops = ⟨w.fl.idx, count, 0⟩ :: st.loops ∧ (y.run.strm (keyOf r)).pc = st.pc) ∧
          (count = 0 → (y.run.strm (keyOf r)).loops = st.loops ∧
            ∀ n e, (w.x.img.words (keyOf r))[w.fl.idx + 1 + n]? = some e → opcOf e = 2 →
              (∀ i v, i < n → (w.x.img.words (keyOf r))[w.fl.idx + 1 + i]? = some v → opcOf v ≠ 1 ∧ opcOf v ≠ 2) →
              (y.run.strm (keyOf r)).pc = w.fl.idx + n + 2)) := by
  refine ⟨controlled r 0x01 s loopWork, rfl, frame_loop r s, controlled_idle, ?_⟩
  rintro w _ _ _ _ e rfl rfl rfl rfl
  have due := (Hw.work_due e).1
  rw [← Hw.work_key e]
  by_cases fits : bitAt w.word 91 = false ∨ (w.x.run.lens.getD (bitsAt w.word 63 4) 0).toNat ≤ bitsAt w.word 67 24
  · have eq := controlled_ok e (loopWork_opens fits)
    have going := due.turn (f := w.opens) w.inflight_opens
    obtain ⟨y, hy, pc, loops⟩ := due.turned (f := w.opens)
    refine ⟨(going.markDone id (fun _ => ⟨rfl, rfl⟩)).alone due (by rw [eq]), fun bounded exceeds => ?_,
      fun _ => ⟨Frame.keep ?_, going.executed eq, y, by rw [eq]; exact hy, fun some => ?_, fun zero => ?_⟩⟩
    · rcases fits with free | fits
      · rw [free] at bounded
        cases bounded
      · omega
    · rw [show controlEff r 0x01 s loopWork = _ from eq]
      exact Hw.only_turn.trans Hw.only_markDone
    · exact ⟨loops.trans (Work.opens_some some).1, pc.trans (Work.opens_some some).2⟩
    · refine ⟨loops.trans (Work.opens_none zero).1, fun n v hv op body => ?_⟩
      rw [pc.trans (Work.opens_none zero).2, afterLoop_flat (n := n) (e := v) _ (by rw [List.getElem?_drop]; exact hv) op
        (fun i u hi hu => body i u hi (by rw [List.getElem?_drop] at hu; exact hu))]
      omega
  · have exceeds := fits
    rw [not_or, Bool.not_eq_false, not_le] at exceeds
    obtain ⟨c, eq, detail⟩ := loopWork_bound (h := s.hw) exceeds.1 exceeds.2
    obtain ⟨raised, alone⟩ := due.going.raised due (controlled_error e eq)
    exact ⟨alone, fun _ _ => detail ▸ raised, fun fit => absurd fit fits⟩

/-! ## ENDLOOP -/

/-- What ENDLOOP does to its stream. -/
def Stream.closes (st : Stream) : Stream :=
  match st.loops with
  | [] => st
  | f :: fs => if f.iter + 1 < f.count then { st with loops := { f with iter := f.iter + 1 } :: fs, pc := f.idx + 1 }
    else { st with loops := fs }

theorem Stream.inflight_closes (st : Stream) : st.closes.inflight = st.inflight := by
  unfold Stream.closes
  split
  · rfl
  · split <;> rfl

theorem endloopWork_eq (w : Work) (h : Hw) : endloopWork w h = (h.turn w Stream.closes, .ok ()) := rfl

theorem endloop_clause (r : StreamRef) (s : State) : ∃ t, exec (.endloop r) s = .next t ∧ Frame [.ctxs] s t ∧
    (s.hw.work r 0x02 = none → t = s) ∧
    ∀ w st f fs, s.hw.work r 0x02 = some w → st = w.x.run.strm (keyOf r) → st.loops = f :: fs →
      StreamAlone s t w.w.c (keyOf r) ∧ Executed t w ∧ ∃ y, Tab.find? t.hw.ctxs w.w.c = some y ∧
        (f.iter + 1 < f.count → (y.run.strm (keyOf r)).loops = { f with iter := f.iter + 1 } :: fs ∧
          (y.run.strm (keyOf r)).pc = f.idx + 1) ∧
        (f.count ≤ f.iter + 1 → (y.run.strm (keyOf r)).loops = fs ∧ (y.run.strm (keyOf r)).pc = st.pc) := by
  refine ⟨controlled r 0x02 s endloopWork, rfl, frame_controlled (fun w h => ⟨_, endloopWork_eq w h, Hw.only_turn⟩), controlled_idle,
    ?_⟩
  rintro w _ f fs e rfl top
  have due := (Hw.work_due e).1
  rw [← Hw.work_key e] at top ⊢
  have eq := controlled_ok e (endloopWork_eq w s.hw)
  have going := due.turn (f := Stream.closes) Stream.inflight_closes
  obtain ⟨y, hy, pc, loops⟩ := due.turned (f := Stream.closes)
  refine ⟨(going.markDone id (fun _ => ⟨rfl, rfl⟩)).alone due (by rw [eq]), going.executed eq, y, by rw [eq]; exact hy,
    fun again => ?_, fun last => ?_⟩
  · rw [pc, loops, Stream.closes, top]
    dsimp only
    rw [if_pos again]
    exact ⟨rfl, rfl⟩
  · rw [pc, loops, Stream.closes, top]
    dsimp only
    rw [if_neg (Nat.not_lt.2 last)]
    exact ⟨rfl, rfl⟩

/-! ## CTRRD -/

theorem ctrrd_only {r : StreamRef} {sn : Seen} {s : State} :
    s.hw.Only [.regs, .ctxs, .hbm, .xcl, .host, .ccl, .logs, .hist, .out] (s.commit (ctrrdEff r sn s)).hw := by
  cases e : s.hw.work r 0x05 with
  | none =>
    rw [ctrrdEff, engineEff_idle_commit e]
    exact .refl _ _
  | some w =>
    have run := run_engineEff (sn := sn) (f := ctrrdWork) e
    exact (((s.hw.accessed_seen sn).trans Hw.accessed_vwrite).only.mono (by decide)).trans (run.kept.mono (by decide))

theorem ctrrd_clause (r : StreamRef) (s : State) (sn : Seen) : ∃ t, exec (.ctrrd r sn) s = .next t ∧ t.pending = s.pending ∧
    t.fuses = s.fuses ∧ s.hw.Only [.regs, .ctxs, .hbm, .xcl, .host, .ccl, .logs, .hist, .out] t.hw ∧
    (s.hw.work r 0x05 = none → t = s) ∧
    ∀ w o, s.hw.work r 0x05 = some w → o = w.vop 80 → StreamAlone s t w.w.c (keyOf r) ∧
      (o.v % 8 ≠ 0 → Raised s t w.w.c dAlign ∧ Mem.But [] s.mem t.mem) ∧
      (o.v % 8 = 0 → ∀ g,
        (∀ e, (s.hw.seen sn).dstRows (s.mem.seen sn) w.x w.w (o.d.unit w.w.lc w.w.lk) [(o.v, 8)] = (g, .error e) →
          Raised s t w.w.c e.detail ∧ Mem.But [] s.mem t.mem) ∧
        ∀ ps, (s.hw.seen sn).dstRows (s.mem.seen sn) w.x w.w (o.d.unit w.w.lc w.w.lk) [(o.v, 8)] = (g, .ok ps) →
          Executed t w ∧ Stored s.mem t.mem (ps.zip [leBytes 8 w.fl.val])) := by
  refine ⟨s.commit (ctrrdEff r sn s), rfl, rfl, by rw [State.commit_fuses, ctrrdEff, engineEff_burn]; rfl, ctrrd_only, engineEff_idle_commit, ?_⟩
  rintro w _ e rfl
  have run := run_engineEff (sn := sn) (f := ctrrdWork) e
  have start := run.begun.going
  obtain ⟨bad, good⟩ := run.written_one start
  rw [← Hw.work_key e]
  refine ⟨(run.ends (start.accessed Hw.accessed_vwrite)).1, fun al => bad (.inl al), fun al g => ?_⟩
  have row : (w.vop 80).rows [leBytes 8 w.fl.val] = [((w.vop 80).v, 8)] := by
    simp [VOp.rows, List.zipIdx, leBytes_length]
  rw [← row]
  exact good al (fun many => absurd many (Nat.lt_irrefl 1)) g

end

end Sys2Proof.Machine
end

section
/-!
PROOFS. The post of a token, the arrival of a token from another core, and the stream watchdog (R143, R144, R146, R151, R163, R165).
-/
namespace Sys2Proof.Machine

/-! ## The streams of a context -/

theorem Image.mem_cores {i : Image} {lc lk : Nat} : (lc, lk) ∈ i.cores ↔ i.hasCore lc lk = true := by
  have mask : bitAt (i.masks.getD lc 0) lk = true ↔ ∃ m, i.masks[lc]? = some m ∧ bitAt m lk = true := by
    rw [List.getD_eq_getElem?_getD]
    cases h : i.masks[lc]? with
    | none => simp [bitAt]
    | some m => simp
  simp only [Image.cores, Image.hasCore, List.mem_flatMap, List.mem_filterMap, List.mem_range, Bool.and_eq_true, decide_eq_true_eq,
    mask, Prod.exists, List.mem_zipIdx_iff_getElem?]
  constructor
  · rintro ⟨m, k, hm, j, hj, e⟩
    split at e
    · obtain ⟨rfl, rfl⟩ := Prod.mk.inj (Option.some.inj e)
      exact ⟨hj, m, hm, ‹_›⟩
    · cases e
  · rintro ⟨hlk, m, hm, bit⟩
    exact ⟨m, lc, hm, lk, hlk, if_pos bit⟩

theorem Ctx.mem_allStreams {x : Ctx} {p : Nat × Nat × Nat} :
    p ∈ x.allStreams ↔ x.img.hasCore p.1 p.2.1 = true ∧ p.2.2 < 5 := by
  obtain ⟨lc, lk, n⟩ := p
  simp only [Ctx.allStreams, List.mem_flatMap, List.mem_map, List.mem_range, Prod.exists, Prod.mk.injEq]
  constructor
  · rintro ⟨a, b, h, c, hc, rfl, rfl, rfl⟩
    exact ⟨Image.mem_cores.1 h, hc⟩
  · rintro ⟨h, hn⟩
    exact ⟨lc, lk, Image.mem_cores.2 h, n, hn, rfl, rfl, rfl⟩

/-! ## The post of a token (R143, R144, R151) -/

section
variable {h : Hw} {c lc lk n i mt : Nat} {d : ChanDecl} {y : Ctx}

/-- The stream owns every region that a channel hands off. -/
def Ctx.ownsAll (y : Ctx) (d : ChanDecl) (lc lk n : Nat) : Bool :=
  (y.img.handoffs d.lc d.lk d.ch).all (fun g => y.owner g == .strm lc lk n)

theorem Hw.post_full (hy : Tab.find? h.ctxs c = some y) (full : d.depth ≤ (y.chan d).tokens.length) : h.post c lc lk n i d mt =
    h.strmFault c lc lk n i ⟨dTokenOverflow, chanArgs d (y.chan d).tokens.length⟩ (y.chanCore d) := by
  unfold Hw.post
  rw [Hw.ctx?, hy]
  exact if_pos full

theorem Hw.post_foreign (hy : Tab.find? h.ctxs c = some y) (room : (y.chan d).tokens.length < d.depth)
    (own : y.ownsAll d lc lk n = false) : h.post c lc lk n i d mt =
    h.strmFault c lc lk n i ⟨dHandoff, chanArgs d (y.chan d).tokens.length⟩ ((y.core? lc lk).getD 0) := by
  unfold Hw.post
  rw [Hw.ctx?, hy]
  refine (if_neg (Nat.not_le.2 room)).trans (if_pos ?_)
  simpa [Ctx.ownsAll] using own

/-- The run after a token is added to a channel. -/
def Ctx.posts (y : Ctx) (d : ChanDecl) (mt : Nat) (r : CtxRun) : CtxRun :=
  { r.putChan d { y.chan d with tokens := (y.chan d).tokens ++ [mt] } with
    owners := (y.img.handoffs d.lc d.lk d.ch).foldl (fun o g => Tab.put o (regionKey g) .transit) r.owners }

theorem Hw.post_adds (hy : Tab.find? h.ctxs c = some y) (room : (y.chan d).tokens.length < d.depth)
    (own : y.ownsAll d lc lk n = true) : h.post c lc lk n i d mt = h.modRun c (y.posts d mt) := by
  unfold Hw.post
  rw [Hw.ctx?, hy]
  refine (if_neg (Nat.not_le.2 room)).trans (if_neg ?_)
  simpa [Ctx.ownsAll] using own

/-- A post changes its context's channels, the owners of regions and its state, and no stream. -/
theorem Hw.post_ctx (hy : Tab.find? h.ctxs c = some y) : (∀ e, e ≠ c → Tab.find? (h.post c lc lk n i d mt).ctxs e = Tab.find? h.ctxs e) ∧
    ∃ z, Tab.find? (h.post c lc lk n i d mt).ctxs c = some z ∧ z.host.image = y.host.image ∧ z.host.place = y.host.place ∧
      z.run.streams = y.run.streams ∧ z.run.holds = y.run.holds ∧ (z.chan d).arrived = (y.chan d).arrived := by
  have fault : ∀ {k : Hw}, h.Keeps c k → (∀ e, e ≠ c → Tab.find? k.ctxs e = Tab.find? h.ctxs e) ∧
      ∃ z, Tab.find? k.ctxs c = some z ∧ z.host.image = y.host.image ∧ z.host.place = y.host.place ∧
        z.run.streams = y.run.streams ∧ z.run.holds = y.run.holds ∧ (z.chan d).arrived = (y.chan d).arrived := fun keeps => by
    obtain ⟨z, hz, kept⟩ := keeps.ctx y hy
    exact ⟨keeps.others, z, hz, kept.image, kept.place, kept.streams, kept.holds, by rw [kept.chan]⟩
  by_cases full : d.depth ≤ (y.chan d).tokens.length
  · rw [Hw.post_full hy full]
    exact fault Hw.keeps_strmFault
  · rw [not_le] at full
    cases own : y.ownsAll d lc lk n with
    | false =>
      rw [Hw.post_foreign hy full own]
      exact fault Hw.keeps_strmFault
    | true =>
      rw [Hw.post_adds hy full own]
      exact ⟨fun e he => Hw.find?_modCtx_other _ he, _, Hw.find?_modCtx_same _ hy, rfl, rfl, rfl, rfl,
        (congrArg Chan.arrived (Tab.getD_put_same _ _ _ _)).trans rfl⟩

end

/-- What follows a post keeps contexts, and does nothing to one that does not run. -/
structure Trailing (c : Nat) (f : Hw → Hw) : Prop where
  keeps : ∀ k : Hw, k.Keeps c (f k)
  still : ∀ (k : Hw) (y : Ctx), Tab.find? k.ctxs c = some y → y.host.st ≠ .running → f k = k

theorem trailing_underflow (c : Nat) : Trailing c (fun k => k.underflow c) :=
  ⟨fun _ => Hw.keeps_underflow, fun _ _ => Hw.underflow_still⟩
theorem trailing_stopCheck (c : Nat) : Trailing c (fun k => (k.underflow c).stopCheck c) :=
  ⟨fun _ => Hw.keeps_underflow.trans Hw.keeps_stopCheck,
    fun _ _ hy st => by rw [Hw.underflow_still hy st, Hw.stopCheck_still hy st]⟩

section
variable {s t : State} {k : Hw} {c lc lk n i mt : Nat} {d : ChanDecl} {x y : Ctx} {f : Hw → Hw}

/-- The condition that a stream meets before what follows. -/
theorem Trailing.raised (tail : Trailing c f) {e : Cond} {eco : Nat} (hx : Tab.find? s.hw.ctxs c = some x)
    (hy : Tab.find? k.ctxs c = some y) (host : y.host = x.host) (fault : y.run.fault = x.run.fault) (tb : k.tb = s.hw.tb)
    (core : x.core? lc lk ≠ none) (eq : t.hw = f (k.strmFault c lc lk n i e eco)) : Raised s t c e.detail := by
  refine raised_strmFault (lk := lk) (lc := lc) (n := n) (i := i) (eco := eco) hx hy host fault tb core (fun live none => ?_)
  obtain ⟨z, hz, st⟩ := Hw.faulted_strmFault (s := n) (i := i) (eco := eco) (d := e) hy
    (by rw [Ctx.core?, host]; exact core) (by rw [Ctx.canFault, host]; exact live) (fault.trans none)
  rw [eq, tail.still _ z hz st]

/-- The outcomes of a post: a full channel, a region of another owner, or one token more (R143, R144, R151). -/
theorem posted (tail : Trailing c f) (hx : Tab.find? s.hw.ctxs c = some x) (hy : Tab.find? k.ctxs c = some y)
    (host : y.host = x.host) (fault : y.run.fault = x.run.fault) (tb : k.tb = s.hw.tb) (core : x.core? lc lk ≠ none)
    {ts : List Nat} (tokens : (y.chan d).tokens = ts) (owners : y.run.owners = x.run.owners) {own : Bool}
    (hown : own = (x.img.handoffs d.lc d.lk d.ch).all (fun g => x.owner g == .strm lc lk n))
    (eq : t.hw = f (k.post c lc lk n i d mt)) :
    (d.depth ≤ ts.length → Raised s t c dTokenOverflow ∧ Holds t c d ts) ∧
    (ts.length < d.depth → own = false → Raised s t c dHandoff ∧ Holds t c d ts) ∧
    (ts.length < d.depth → own = true → Holds t c d (ts ++ [mt]) ∧
      ∃ z, Tab.find? t.hw.ctxs c = some z ∧ ∀ g ∈ x.img.handoffs d.lc d.lk d.ch, z.owner g = .transit) := by
  subst tokens
  have img : y.img = x.img := by rw [Ctx.img, host, ← Ctx.img]
  have owns : y.ownsAll d lc lk n = own := by
    rw [hown, Ctx.ownsAll, img]
    simp only [Ctx.owner, owners]
  have holds : ∀ {e : Cond} {eco : Nat}, t.hw = f (k.strmFault c lc lk n i e eco) → Holds t c d (y.chan d).tokens := fun eq => by
    obtain ⟨z, hz, kept⟩ := (Hw.keeps_strmFault.trans (tail.keeps _)).ctx y hy
    exact ⟨z, by rw [eq]; exact hz, by rw [kept.chan]⟩
  refine ⟨fun full => ?_, fun room foreign => ?_, fun room mine => ?_⟩
  · rw [Hw.post_full hy full] at eq
    exact ⟨tail.raised hx hy host fault tb core eq, holds eq⟩
  · rw [Hw.post_foreign hy room (owns.trans foreign)] at eq
    exact ⟨tail.raised hx hy host fault tb core eq, holds eq⟩
  · rw [Hw.post_adds hy room (owns.trans mine)] at eq
    obtain ⟨z, hz, kept⟩ := (tail.keeps (k.modRun c (y.posts d mt))).ctx _ (Hw.find?_modCtx_same _ hy)
    rw [← eq] at hz
    refine ⟨⟨z, hz, ?_⟩, z, hz, fun g hg => ?_⟩
    · rw [kept.chan]
      exact congrArg Chan.tokens (Tab.getD_put_same _ _ _ _)
    · rw [kept.owner]
      exact Tab.getD_foldl_put regionKey _ _ _ (by rw [img]; exact hg) _

end

/-! ## TOKEN_ARRIVAL (R146) -/

section
variable {r : StreamRef} {s : State} {x : Ctx} {n : Nat} {f : Infl} {w : Nat} {d : ChanDecl}

/-- The token of entry `n` of a stream is there. -/
def Stream.lands (n : Nat) (st : Stream) : Stream :=
  { st with inflight := modAt st.inflight n (fun f => { f with landed := true }) }

/-- The run of a context when the token of its TPOST is there. -/
def Ctx.lands (x : Ctx) (key n : Nat) (d : ChanDecl) (r : CtxRun) : CtxRun :=
  (r.modStrm key (Stream.lands n)).putChan d { x.chan d with arrived := (x.chan d).arrived + 1 }

theorem Ctx.lands_strm (x : Ctx) (key n : Nat) (d : ChanDecl) (r : CtxRun) (q : Nat) :
    (x.lands key n d r).strm q = (r.modStrm key (Stream.lands n)).strm q := rfl

/-- The bytes that came for a token. -/
def Chan.got (ch : Chan) : Nat := ((ch.pay.filter (fun q => q.1 == ch.arrived)).map Prod.snd).foldl (· + ·) 0

theorem tokenHw_due (hx : Tab.find? s.hw.ctxs r.ctx = some x) (way : x.tokenOnWay (keyOf r) = some (n, f, w))
    (hd : x.img.tpostChan w = some d) (runs : x.executes r.strm = true) : tokenHw r s.hw =
      if !decide (d.depth ≤ (x.chan d).tokens.length) && x.ownsAll d r.lc r.lk r.strm && d.payLocal != 255 &&
          (x.chan d).got != d.paySize then
        (s.hw.modRun r.ctx (x.lands (keyOf r) n d)).strmFault r.ctx r.lc r.lk r.strm f.idx
          ⟨dSizeMismatch, sizeArgs d (x.chan d).tokens.length (x.chan d).got⟩ (x.chanCore d)
      else ((s.hw.modRun r.ctx (x.lands (keyOf r) n d)).post r.ctx r.lc r.lk r.strm f.idx d f.mRetire).underflow r.ctx := by
  unfold tokenHw
  dsimp only
  rw [Hw.ctx?, hx]
  dsimp only
  rw [← keyOf, way]
  dsimp only
  rw [hd]
  exact if_pos runs

theorem tokenHw_cases (r : StreamRef) (h : Hw) : tokenHw r h = h ∨ ∃ x n f w d, Tab.find? h.ctxs r.ctx = some x ∧
    x.tokenOnWay (keyOf r) = some (n, f, w) ∧ x.img.tpostChan w = some d ∧ x.executes r.strm = true := by
  unfold tokenHw
  dsimp only
  split
  · exact .inl rfl
  · rename_i x hx
    split
    · exact .inl rfl
    · rename_i n f w way
      split
      · exact .inl rfl
      · rename_i d hd
        split
        · exact .inr ⟨x, n, f, w, d, hx, way, hd, ‹_›⟩
        · exact .inl rfl

theorem frame_token (r : StreamRef) (s : State) : Frame [.regs, .ctxs] s { s with hw := tokenHw r s.hw } := by
  refine Frame.keep ?_
  rcases tokenHw_cases r s.hw with eq | ⟨x, n, f, w, d, hx, way, hd, runs⟩
  · rw [eq]
    exact .refl _ _
  · rw [tokenHw_due hx way hd runs]
    have land : s.hw.Only [.regs, .ctxs] (s.hw.modRun r.ctx (x.lands (keyOf r) n d)) := Hw.only_modRun.mono (by decide)
    exact .ite (land.trans Hw.only_strmFault) ((land.trans Hw.only_post).trans Hw.only_underflow)

theorem token_idle (idle : Tab.find? s.hw.ctxs r.ctx = none ∨ (∃ x, Tab.find? s.hw.ctxs r.ctx = some x ∧
    (x.tokenOnWay (keyOf r) = none ∨ x.executes r.strm = false))) : tokenHw r s.hw = s.hw := by
  rcases tokenHw_cases r s.hw with eq | ⟨x, n, f, w, d, hx, way, -, runs⟩
  · exact eq
  · rcases idle with none | ⟨x', hx', no | no⟩
    · rw [hx] at none
      cases none
    · obtain rfl := Option.some.inj (hx.symm.trans hx')
      rw [way] at no
      cases no
    · obtain rfl := Option.some.inj (hx.symm.trans hx')
      rw [runs] at no
      cases no

/-- The TPOST whose token is on its way is in progress. -/
theorem Ctx.tokenOnWay_infl {key : Nat} (way : x.tokenOnWay key = some (n, f, w)) : (x.run.strm key).inflight[n]? = some f := by
  unfold Ctx.tokenOnWay at way
  dsimp only at way
  split at way
  · cases way
  · rename_i j _
    obtain ⟨g, hg, eq⟩ := Option.map_eq_some_iff.1 way
    obtain ⟨rfl, rfl, -⟩ : j = n ∧ g = f ∧ _ := by simpa using eq
    exact hg

theorem Ctx.lands_infl {key : Nat} (way : x.tokenOnWay key = some (n, f, w)) (d : ChanDecl) :
    ((x.lands key n d x.run).strm key).inflight[n]? = some { f with landed := true } := by
  rw [Ctx.lands_strm, CtxRun.strm_modStrm_same]
  simp [Stream.lands, modAt, Ctx.tokenOnWay_infl way]

theorem Ctx.lands_chan (x : Ctx) (key n : Nat) (d : ChanDecl) : (x.lands key n d x.run).chanOf d =
    { x.chan d with arrived := (x.chan d).arrived + 1 } := CtxRun.chanOf_putChan_same _ _ _

theorem token_clause (r : StreamRef) (s : State) : ∃ t, exec (.tokenArrival r) s = .next t ∧ Frame [.regs, .ctxs] s t ∧
    (Tab.find? s.hw.ctxs r.ctx = none ∨ (∃ x, Tab.find? s.hw.ctxs r.ctx = some x ∧
      (x.tokenOnWay (keyOf r) = none ∨ x.executes r.strm = false)) → t = s) ∧
    ∀ x n f w d ch got owns, Tab.find? s.hw.ctxs r.ctx = some x → x.tokenOnWay (keyOf r) = some (n, f, w) →
        x.img.tpostChan w = some d → x.executes r.strm = true → x.core? r.lc r.lk ≠ none → ch = x.chan d →
        got = ((ch.pay.filter (fun q => q.1 == ch.arrived)).map Prod.snd).foldl (· + ·) 0 →
        owns = (x.img.handoffs d.lc d.lk d.ch).all (fun g => x.owner g == .strm r.lc r.lk r.strm) →
      StreamAlone s t r.ctx (keyOf r) ∧
      (∃ y, Tab.find? t.hw.ctxs r.ctx = some y ∧
        (y.run.strm (keyOf r)).inflight[n]? = some { f with landed := true } ∧ (y.chan d).arrived = ch.arrived + 1) ∧
      (d.depth ≤ ch.tokens.length → Raised s t r.ctx dTokenOverflow ∧ Holds t r.ctx d ch.tokens) ∧
      (ch.tokens.length < d.depth → owns = false → Raised s t r.ctx dHandoff ∧ Holds t r.ctx d ch.tokens) ∧
      (ch.tokens.length < d.depth → owns = true → d.payLocal ≠ 255 → got ≠ d.paySize →
        Raised s t r.ctx dSizeMismatch ∧ Holds t r.ctx d ch.tokens) ∧
      (ch.tokens.length < d.depth → owns = true → d.payLocal = 255 ∨ got = d.paySize →
        Holds t r.ctx d (ch.tokens ++ [f.mRetire]) ∧
        ∃ y, Tab.find? t.hw.ctxs r.ctx = some y ∧ ∀ g ∈ x.img.handoffs d.lc d.lk d.ch, y.owner g = .transit) := by
  refine ⟨{ s with hw := tokenHw r s.hw }, rfl, frame_token r s, fun idle => by rw [token_idle idle], ?_⟩
  rintro x n f w d _ _ _ hx way hd runs core rfl rfl rfl
  have due := tokenHw_due hx way hd runs
  generalize ht : ({ s with hw := tokenHw r s.hw } : State) = t
  have thw : t.hw = tokenHw r s.hw := by rw [← ht]
  rw [due] at thw
  generalize hk : s.hw.modRun r.ctx (x.lands (keyOf r) n d) = k at thw
  have hy : Tab.find? k.ctxs r.ctx = some { x with run := x.lands (keyOf r) n d x.run } := by
    rw [← hk]
    exact Hw.find?_modCtx_same _ hx
  have others : ∀ e, e ≠ r.ctx.val → Tab.find? k.ctxs e = Tab.find? s.hw.ctxs e := fun e he => by
    rw [← hk]
    exact Hw.find?_modCtx_other _ he
  have tb : k.tb = s.hw.tb := by rw [← hk]; rfl
  have strm : ∀ q, q ≠ keyOf r → (x.lands (keyOf r) n d x.run).strm q = x.run.strm q :=
    fun q hq => (x.lands_strm _ _ _ _ q).trans (CtxRun.strm_modStrm_other _ _ hq)
  have tokens : (({ x with run := x.lands (keyOf r) n d x.run } : Ctx).chan d).tokens = (x.chan d).tokens :=
    (congrArg Chan.tokens (x.lands_chan (keyOf r) n d)).trans rfl
  by_cases bad : (!decide (d.depth ≤ (x.chan d).tokens.length) && x.ownsAll d r.lc r.lk r.strm && d.payLocal != 255 &&
      (x.chan d).got != d.paySize) = true
  · rw [if_pos bad] at thw
    simp only [Bool.and_eq_true, Bool.not_eq_true', decide_eq_false_iff_not, not_le, bne_iff_ne] at bad
    obtain ⟨⟨⟨room, own⟩, local_⟩, got⟩ := bad
    have keeps : k.Keeps r.ctx t.hw := thw ▸ Hw.keeps_strmFault
    obtain ⟨z, hz, kept⟩ := keeps.ctx _ hy
    refine ⟨⟨fun e he => (keeps.others e he).trans (others e he), fun x' hx' => ?_⟩, ⟨z, hz, ?_, ?_⟩, fun full => ?_,
      fun _ foreign => ?_, fun _ _ _ _ => ⟨?_, z, hz, ?_⟩, fun _ _ ok => ?_⟩
    · obtain rfl := Option.some.inj (hx.symm.trans hx')
      exact ⟨z, hz, kept.image, kept.place, fun q hq => (kept.strm q).trans (strm q hq)⟩
    · rw [kept.strm]
      exact x.lands_infl way d
    · rw [kept.chan]
      exact congrArg Chan.arrived (x.lands_chan _ n d)
    · omega
    · exact absurd (own.symm.trans foreign) (by decide)
    · exact raised_strmFault hx hy rfl rfl tb core (fun _ _ => thw)
    · rw [kept.chan, tokens]
    · exact absurd ok (by rintro (h | h); exacts [local_ h, got h])
  · rw [if_neg bad] at thw
    have keeps := (trailing_underflow r.ctx).keeps (k.post r.ctx r.lc r.lk r.strm f.idx d f.mRetire)
    rw [← thw] at keeps
    obtain ⟨same, z, hz, image, place, streams, -, arrived⟩ :=
      Hw.post_ctx (lc := r.lc) (lk := r.lk) (n := r.strm) (i := f.idx) (mt := f.mRetire) (d := d) hy
    obtain ⟨u, hu, kept⟩ := keeps.ctx z hz
    obtain ⟨full, foreign, adds⟩ := posted (trailing_underflow r.ctx) hx hy rfl rfl tb core tokens rfl rfl thw
    have strms : ∀ q, u.run.strm q = (x.lands (keyOf r) n d x.run).strm q :=
      fun q => (kept.strm q).trans (by rw [CtxRun.strm, streams]; rfl)
    refine ⟨⟨fun e he => (keeps.others e he).trans ((same e he).trans (others e he)), fun x' hx' => ?_⟩, ⟨u, hu, ?_, ?_⟩, full,
      foreign, fun room own local_ got => ?_, fun room own _ => adds room own⟩
    · obtain rfl := Option.some.inj (hx.symm.trans hx')
      exact ⟨u, hu, kept.image.trans image, kept.place.trans place, fun q hq => (strms q).trans (strm q hq)⟩
    · rw [strms]
      exact x.lands_infl way d
    · rw [kept.chan, arrived]
      exact congrArg Chan.arrived (x.lands_chan _ n d)
    · refine absurd ?_ bad
      simp only [Bool.and_eq_true, Bool.not_eq_true', decide_eq_false_iff_not, not_le, bne_iff_ne]
      exact ⟨⟨⟨room, own⟩, local_⟩, got⟩

end

/-! ## The stream watchdog (R165) -/

section
variable {r : StreamRef} {s : State} {x : Ctx}

/-- The stream that a STALL fault names is one of the context's. -/
theorem Ctx.stallNames_mem {p : Nat × Nat × Nat} (hp : p ∈ x.allStreams) : x.stallNames p ∈ x.allStreams := by
  unfold Ctx.stallNames
  split
  · cases found : x.allStreams.find? (fun q => !x.hasArrived q) with
    | none => exact hp
    | some q => exact List.mem_of_find?_eq_some found
  · exact hp

theorem Ctx.hasArrived_iff {p : Nat × Nat × Nat} :
    x.hasArrived p = true ↔ (x.run.strm (strmKey p.1 p.2.1 p.2.2)).arrival ≠ .none := bne_iff_ne

/-- A stream at its stall limit faults its context. -/
theorem watchdogHw_late (hx : Tab.find? s.hw.ctxs r.ctx = some x) (run : x.host.st = .running) (gate : s.hw.gateOpen = true)
    (core : x.img.hasCore r.lc r.lk = true) {ns : Nat} (hns : ns = s.hw.tb - (x.run.strm (keyOf r)).lastTb)
    (late : x.host.stallMs * 1000000 ≤ ns) {q : Nat × Nat × Nat} (hq : q = x.stallNames (r.lc, r.lk, r.strm)) :
    watchdogHw r s.hw = s.hw.strmFault r.ctx q.1 q.2.1 q.2.2 (x.run.strm (strmKey q.1 q.2.1 q.2.2)).oldest
      ⟨if x.hasArrived (r.lc, r.lk, r.strm) then dBarStall else dStreamStall, x.stallArgs q ns⟩ ((x.core? q.1 q.2.1).getD 0) := by
  subst hns hq
  unfold watchdogHw
  dsimp only
  rw [Hw.ctx?, hx]
  exact if_pos ⟨run, gate, core, late⟩

theorem watchdogHw_idle (hx : Tab.find? s.hw.ctxs r.ctx = some x) (idle : x.host.st ≠ .running ∨ s.hw.gateOpen = false ∨
    x.img.hasCore r.lc r.lk = false ∨ s.hw.tb - (x.run.strm (keyOf r)).lastTb < x.host.stallMs * 1000000) :
    watchdogHw r s.hw = s.hw := by
  unfold watchdogHw
  dsimp only
  rw [Hw.ctx?, hx]
  refine if_neg ?_
  rintro ⟨run, gate, core, late⟩
  rcases idle with h | h | h | h
  · exact h run
  · exact absurd (gate.symm.trans h) (by decide)
  · exact absurd (core.symm.trans h) (by decide)
  · exact absurd late (Nat.not_le.2 h)

theorem watchdog_clause (r : StreamRef) (s : State) : ∃ t, exec (.streamWatchdogExpiry r) s = .next t ∧ Frame [.regs, .ctxs] s t ∧
    ∀ x, Tab.find? s.hw.ctxs r.ctx = some x →
      (x.host.st ≠ .running ∨ s.hw.gateOpen = false ∨ x.img.hasCore r.lc r.lk = false ∨
        s.hw.tb - (x.run.strm (keyOf r)).lastTb < x.host.stallMs * 1000000 → t = s) ∧
      (x.host.st = .running → s.hw.gateOpen = true → x.img.hasCore r.lc r.lk = true → x.Placed →
          x.host.stallMs * 1000000 ≤ s.hw.tb - (x.run.strm (keyOf r)).lastTb →
        ((x.run.strm (keyOf r)).arrival = .none → Raised s t r.ctx dStreamStall) ∧
        ((x.run.strm (keyOf r)).arrival ≠ .none → Raised s t r.ctx dBarStall)) := by
  have frame : s.hw.Only [.regs, .ctxs] (watchdogHw r s.hw) := by
    unfold watchdogHw
    dsimp only
    split
    · exact .refl _ _
    · exact .ite Hw.only_strmFault (.refl _ _)
  refine ⟨{ s with hw := watchdogHw r s.hw }, rfl, Frame.keep frame, fun x hx => ⟨fun idle => ?_, fun run gate core placed late => ?_⟩⟩
  · rw [watchdogHw_idle hx idle]
  · have mem : ((r.lc.val, r.lk.val, r.strm.val) : Nat × Nat × Nat) ∈ x.allStreams := Ctx.mem_allStreams.2 ⟨core, r.strm.isLt⟩
    have eq := watchdogHw_late hx run gate core rfl late rfl
    have arrived : x.hasArrived (r.lc, r.lk, r.strm) = true ↔ (x.run.strm (keyOf r)).arrival ≠ .none := Ctx.hasArrived_iff
    generalize hd : (if x.hasArrived (r.lc, r.lk, r.strm) then dBarStall else dStreamStall) = detail at eq
    have raised : Raised s { s with hw := watchdogHw r s.hw } r.ctx detail :=
      raised_strmFault (d := ⟨detail, _⟩) hx hx rfl rfl rfl (placed _ (Ctx.stallNames_mem mem)) (fun _ _ => eq)
    refine ⟨fun none => ?_, fun some => ?_⟩
    · rwa [← hd, if_neg (fun h => arrived.1 h none)] at raised
    · rwa [← hd, if_pos (arrived.2 some)] at raised

end

end Sys2Proof.Machine
end

section
/-!
PROOFS. The retirement of an instruction: its sample, its posts, and the stop it lets happen (R139, R143, R333, R432, R433).
-/
namespace Sys2Proof.Machine

/-! ## Sampling (R432, R433) -/

section
variable {h : Hw} {k : Nat} {rec : List Byte}

theorem Hw.sample_off (off : (h.clusOf (k / 9)).samp.armed = false) : h.sample k rec = (h, []) := by
  unfold Hw.sample
  dsimp only
  exact if_neg (by rw [off]; nofun)

theorem Hw.only_sample : h.Only [.regs, .clus] (h.sample k rec).1 := by
  unfold Hw.sample
  dsimp only
  split
  · split
    · have show' : ∀ p : Sampling, h.Only [.regs, .clus] (((h.modClus (k / 9) (fun x => { x with samp := p })).setFld
          (Fd.TRC_SAMPLE_STATUS.NEXT (k / 9)) p.next).setFlag (Fd.TRC_SAMPLE_STATUS.ARMED (k / 9)) p.armed) := fun p =>
        ((Hw.only_modClus.mono (by decide)).trans (Hw.only_setFld.mono (by decide))).trans (Hw.only_setFlag.mono (by decide))
      exact (show' _).trans (.ite (Hw.only_setFlag.mono (by decide)) (.refl _ _))
    · exact Hw.only_modClus.mono (by decide)
  · exact .refl _ _

/-- A record goes to the next place of the sample memory, or nowhere. -/
theorem Hw.sample_edits : (h.sample k rec).2 = [] ∨
    (h.sample k rec).2 = storeEdits (traceBase (k / 9) + 32 * (h.clusOf (k / 9)).samp.next) rec := by
  unfold Hw.sample
  dsimp only
  split
  · split
    · exact .inr rfl
    · exact .inl rfl
  · exact .inl rfl

theorem sampleRec_length (x : Ctx) (k lc lk s tb : Nat) (f : Infl) (w : Nat) : (sampleRec x k lc lk s tb f w).length = 32 := by
  simp [sampleRec, leBytes_length]

/-- A sample changes no byte outside its place. -/
theorem Hw.sample_spares {n q : Nat} (len : rec.length = 32) (next : (h.clusOf (k / 9)).samp.next = n)
    (hq : ¬ (traceBase (k / 9) + 32 * n ≤ q ∧ q < traceBase (k / 9) + 32 * n + 32)) : ∀ e ∈ (h.sample k rec).2, e.spares q := by
  rcases Hw.sample_edits (h := h) (k := k) (rec := rec) with eq | eq <;> rw [eq]
  · nofun
  · rw [next]
    exact spares_storeEdits (by rw [len]; exact hq)

end

/-! ## The posts of a retiring instruction -/

section
variable {h : Hw} {c lc lk n i mt : Nat} {im : Image} {y : Ctx}

theorem Hw.only_postAll {ws : List Nat} : h.Only [.regs, .ctxs] (h.postAll c lc lk n i mt im ws) :=
  Hw.Only.foldl _ _ _ (fun _ _ _ => by
    split
    · exact Hw.only_post
    · exact .refl _ _)

/-- Posts keep the streams of a context and what it holds. -/
theorem Hw.postAll_ctx (ws : List Nat) (hy : Tab.find? h.ctxs c = some y) :
    (∀ e, e ≠ c → Tab.find? (h.postAll c lc lk n i mt im ws).ctxs e = Tab.find? h.ctxs e) ∧
    ∃ z, Tab.find? (h.postAll c lc lk n i mt im ws).ctxs c = some z ∧ z.host.image = y.host.image ∧ z.host.place = y.host.place ∧
      z.run.streams = y.run.streams ∧ z.run.holds = y.run.holds := by
  induction ws generalizing h y with
  | nil => exact ⟨fun _ _ => rfl, y, hy, rfl, rfl, rfl, rfl⟩
  | cons ch ws ih =>
    have step : h.postAll c lc lk n i mt im (ch :: ws) = (match im.chan? lc lk ch with
        | some d => h.post c lc lk n i d mt
        | none => h).postAll c lc lk n i mt im ws := rfl
    rw [step]
    cases hd : im.chan? lc lk ch with
    | none => exact ih hy
    | some d =>
      obtain ⟨same, z, hz, image, place, streams, holds, -⟩ := Hw.post_ctx (lc := lc) (lk := lk) (n := n) (i := i) (mt := mt) (d := d) hy
      obtain ⟨same', z', hz', image', place', streams', holds'⟩ := ih hz
      exact ⟨fun e he => (same' e he).trans (same e he), z', hz', image'.trans image, place'.trans place, streams'.trans streams,
        holds'.trans holds⟩

theorem Hw.postAll_one {ch : Nat} {d : ChanDecl} (hd : im.chan? lc lk ch = some d) :
    h.postAll c lc lk n i mt im [ch] = h.post c lc lk n i d mt := by
  rw [Hw.postAll, List.foldl_cons, List.foldl_nil, hd]

end

/-! ## The row -/

/-- A stream whose oldest instruction has retired: `fs` are the rest. -/
def Stream.retire (fs : List Infl) (tb : Nat) (st : Stream) : Stream := { st with inflight := fs, lastTb := tb }

/-- The run of a context when the oldest instruction of a stream has retired. -/
def CtxRun.retire (key : Nat) (fs : List Infl) (tb w : Nat) (r : CtxRun) : CtxRun :=
  { r.modStrm key (Stream.retire fs tb) with
    holds := if opcOf w = 0x14 then r.holds.drop key else r.holds }

/-- The hardware when the oldest instruction of a stream has retired, before it is sampled. -/
def retiring (r : StreamRef) (k : Nat) (fs : List Infl) (w : Nat) (h : Hw) : Hw :=
  (h.modRun r.ctx (CtxRun.retire (keyOf r) fs h.tb w)).countCore k { code := 0x02, masters := [r.strm + 1] } 1

/-- The hardware and the changes of memory when the instruction `f` of word `w` has retired, before its posts. -/
def retired (r : StreamRef) (x : Ctx) (k : Nat) (f : Infl) (fs : List Infl) (w : Nat) (h : Hw) : Hw × List Edit :=
  (retiring r k fs w h).sample k (sampleRec x k r.lc r.lk r.strm (retiring r k fs w h).tb f w)

section
variable {r : StreamRef} {s : State} {x : Ctx} {k w : Nat} {f : Infl} {fs : List Infl}

theorem only_retiring (h : Hw) : h.Only [.regs, .ctxs] (retiring r k fs w h) :=
  (Hw.only_modRun.mono (by decide)).trans (Hw.only_count.mono (by decide))

theorem ctxs_retiring (h : Hw) : (retiring r k fs w h).ctxs = (h.modRun r.ctx (CtxRun.retire (keyOf r) fs h.tb w)).ctxs :=
  Hw.only_count .ctxs (by decide)

theorem retired_fst_only (h : Hw) : h.Only [.regs, .ctxs, .clus] (retired r x k f fs w h).1 :=
  ((only_retiring h).mono (by decide)).trans (Hw.only_sample.mono (by decide))

theorem retired_ctx (hx : Tab.find? s.hw.ctxs r.ctx = some x) :
    (∀ e, e ≠ r.ctx.val → Tab.find? (retired r x k f fs w s.hw).1.ctxs e = Tab.find? s.hw.ctxs e) ∧
    Tab.find? (retired r x k f fs w s.hw).1.ctxs r.ctx = some { x with run := x.run.retire (keyOf r) fs s.hw.tb w } := by
  have same : (retired r x k f fs w s.hw).1.ctxs = (s.hw.modRun r.ctx (CtxRun.retire (keyOf r) fs s.hw.tb w)).ctxs :=
    Eq.trans (b := (retiring r k fs w s.hw).ctxs) (Hw.only_sample .ctxs (by decide)) (ctxs_retiring s.hw)
  rw [same]
  exact ⟨fun e he => Hw.find?_modCtx_other _ he, Hw.find?_modCtx_same _ hx⟩

theorem retireEff_due (hx : Tab.find? s.hw.ctxs r.ctx = some x) (hk : x.core? r.lc r.lk = some k)
    (hf : (x.run.strm (keyOf r)).inflight = f :: fs) (hw : w = (x.img.words (keyOf r)).getD f.idx 0)
    (st : x.host.st = .running ∨ x.host.st = .stopped) (gate : s.hw.gateOpen = true) (may : s.hw.retirable k f = true) :
    retireEff r s = { hw := (((retired r x k f fs w s.hw).1.postAll r.ctx r.lc r.lk r.strm f.idx f.mRetire x.img (postsOf w)).underflow
        r.ctx).stopCheck r.ctx, edits := (retired r x k f fs w s.hw).2 } := by
  subst hw
  unfold retireEff
  dsimp only
  rw [Hw.ctx?, hx]
  dsimp only
  rw [hk, ← keyOf, hf]
  exact if_pos ⟨st, gate, may⟩

theorem retireEff_cases (r : StreamRef) (s : State) : retireEff r s = { hw := s.hw } ∨ ∃ x k f fs,
    Tab.find? s.hw.ctxs r.ctx = some x ∧ x.core? r.lc r.lk = some k ∧ (x.run.strm (keyOf r)).inflight = f :: fs ∧
      (x.host.st = .running ∨ x.host.st = .stopped) ∧ s.hw.gateOpen = true ∧ s.hw.retirable k f = true := by
  unfold retireEff
  dsimp only
  split
  · exact .inl rfl
  · rename_i x hx
    split
    · rename_i k f fs hk hf
      split
      · rename_i c
        exact .inr ⟨x, k, f, fs, hx, hk, hf, c.1, c.2.1, c.2.2⟩
      · exact .inl rfl
    · exact .inl rfl

theorem retire_burn (r : StreamRef) (s : State) : (retireEff r s).burn = [] := by
  rcases retireEff_cases r s with eq | ⟨x, k, f, fs, hx, hk, hf, st, gate, may⟩
  · rw [eq]
  · rw [retireEff_due hx hk hf rfl st gate may]

theorem only_retire (r : StreamRef) (s : State) : s.hw.Only [.regs, .ctxs, .clus, .host, .out] (retireEff r s).hw := by
  rcases retireEff_cases r s with eq | ⟨x, k, f, fs, hx, hk, hf, st, gate, may⟩
  · rw [eq]
    exact .refl _ _
  · rw [retireEff_due hx hk hf rfl st gate may]
    exact (((retired_fst_only _).mono (by decide)).trans (Hw.only_postAll.mono (by decide))).trans
      ((Hw.only_underflow.mono (by decide)).trans (Hw.only_stopCheck.mono (by decide)))

theorem retire_idle (idle : Tab.find? s.hw.ctxs r.ctx = none ∨ s.hw.gateOpen = false ∨
    (∃ x, Tab.find? s.hw.ctxs r.ctx = some x ∧ ((x.run.strm (keyOf r)).inflight = [] ∨
      (∃ f fs k, (x.run.strm (keyOf r)).inflight = f :: fs ∧ x.core? r.lc r.lk = some k ∧
        (f.done = false ∨ f.landed = false ∨ s.hw.steps (k / 9) < f.startSteps + f.cost))))) : s.commit (retireEff r s) = s := by
  rcases retireEff_cases r s with eq | ⟨x, k, f, fs, hx, hk, hf, -, gate, may⟩
  · rw [eq]
    rfl
  · exfalso
    rcases idle with none | shut | ⟨x', hx', no⟩
    · rw [hx] at none
      cases none
    · exact absurd (gate.symm.trans shut) (by decide)
    · obtain rfl := Option.some.inj (hx.symm.trans hx')
      rcases no with nil | ⟨f', fs', k', hf', hk', no⟩
      · rw [hf] at nil
        cases nil
      · rw [hf] at hf'
        obtain ⟨rfl, -⟩ := List.cons.inj hf'
        obtain rfl := Option.some.inj (hk.symm.trans hk')
        simp only [Hw.retirable, Bool.and_eq_true, decide_eq_true_eq] at may
        obtain ⟨⟨⟨done, landed⟩, -⟩, steps⟩ := may
        rcases no with h | h | h
        · exact absurd (done.symm.trans h) (by decide)
        · exact absurd (landed.symm.trans h) (by decide)
        · omega

theorem CtxRun.retire_strm (u : CtxRun) (key : Nat) (fs : List Infl) (tb w q : Nat) :
    (u.retire key fs tb w).strm q = (u.modStrm key (Stream.retire fs tb)).strm q := rfl
theorem CtxRun.retire_same (u : CtxRun) (key : Nat) (fs : List Infl) (tb w : Nat) :
    (u.retire key fs tb w).strm key = (u.strm key).retire fs tb := (u.retire_strm _ _ _ _ _).trans (CtxRun.strm_modStrm_same _ _ _)
theorem CtxRun.retire_other (u : CtxRun) {key q : Nat} (fs : List Infl) (tb w : Nat) (hq : q ≠ key) :
    (u.retire key fs tb w).strm q = u.strm q := (u.retire_strm _ _ _ _ _).trans (CtxRun.strm_modStrm_other _ _ hq)

theorem samp_retiring (h : Hw) (c : Nat) : ((retiring r k fs w h).clusOf c).samp = (h.clusOf c).samp := by
  rw [Hw.clusOf, only_retiring h .clus (by decide), ← Hw.clusOf]

theorem retired_off (off : (s.hw.clusOf (k / 9)).samp.armed = false) : (retired r x k f fs w s.hw).2 = [] := by
  rw [retired, Hw.sample_off (by rw [samp_retiring, off])]

theorem retired_spares {q : Nat} (hq : ¬ (traceBase (k / 9) + 32 * (s.hw.clusOf (k / 9)).samp.next ≤ q ∧
    q < traceBase (k / 9) + 32 * (s.hw.clusOf (k / 9)).samp.next + 32)) : ∀ e ∈ (retired r x k f fs w s.hw).2, e.spares q :=
  Hw.sample_spares (sampleRec_length _ _ _ _ _ _ _ _) (by rw [samp_retiring]) hq

theorem retire_clause (r : StreamRef) (s : State) : ∃ t, exec (.instructionRetire r) s = .next t ∧ t.pending = s.pending ∧
    t.fuses = s.fuses ∧ s.hw.Only [.regs, .ctxs, .clus, .host, .out] t.hw ∧
    (Tab.find? s.hw.ctxs r.ctx = none ∨ s.hw.gateOpen = false ∨
      (∃ x, Tab.find? s.hw.ctxs r.ctx = some x ∧ ((x.run.strm (keyOf r)).inflight = [] ∨
        (∃ f fs k, (x.run.strm (keyOf r)).inflight = f :: fs ∧ x.core? r.lc r.lk = some k ∧
          (f.done = false ∨ f.landed = false ∨ s.hw.steps (k / 9) < f.startSteps + f.cost)))) → t = s) ∧
    ∀ x k f fs w, Tab.find? s.hw.ctxs r.ctx = some x → x.core? r.lc r.lk = some k →
        (x.run.strm (keyOf r)).inflight = f :: fs → w = (x.img.words (keyOf r)).getD f.idx 0 →
        x.host.st = .running ∨ x.host.st = .stopped → s.hw.gateOpen = true → s.hw.retirable k f = true →
      StreamAlone s t r.ctx (keyOf r) ∧
      (∃ y, Tab.find? t.hw.ctxs r.ctx = some y ∧ (y.run.strm (keyOf r)).inflight = fs ∧
        (y.run.strm (keyOf r)).pc = (x.run.strm (keyOf r)).pc ∧ (y.run.strm (keyOf r)).lastTb = s.hw.tb ∧
        (opcOf w = 0x14 → Tab.find? y.run.holds (keyOf r) = none) ∧ (opcOf w ≠ 0x14 → y.run.holds = x.run.holds) ∧
        (postsOf w = [] → y.run.chans = x.run.chans ∧ y.run.owners = x.run.owners)) ∧
      (∀ ch d own, postsOf w = [ch] → x.img.chan? r.lc r.lk ch = some d →
          own = (x.img.handoffs d.lc d.lk d.ch).all (fun g => x.owner g == .strm r.lc r.lk r.strm) →
        (d.depth ≤ (x.chan d).tokens.length → Raised s t r.ctx dTokenOverflow ∧ Holds t r.ctx d (x.chan d).tokens) ∧
        ((x.chan d).tokens.length < d.depth → own = false → Raised s t r.ctx dHandoff ∧ Holds t r.ctx d (x.chan d).tokens) ∧
        ((x.chan d).tokens.length < d.depth → own = true → Holds t r.ctx d ((x.chan d).tokens ++ [f.mRetire]) ∧
          ∃ y, Tab.find? t.hw.ctxs r.ctx = some y ∧ ∀ g ∈ x.img.handoffs d.lc d.lk d.ch, y.owner g = .transit)) ∧
      ((s.hw.clusOf (k / 9)).samp.armed = false → t.mem = s.mem) ∧
      s.mem.But [(traceBase (k / 9) + 32 * (s.hw.clusOf (k / 9)).samp.next, 32)] t.mem := by
  refine ⟨s.commit (retireEff r s), rfl, rfl, by rw [State.commit_fuses, retire_burn]; rfl, only_retire r s, retire_idle,
    fun x k f fs w hx hk hf hw st gate may => ?_⟩
  have due := retireEff_due hx hk hf hw st gate may
  generalize ht : s.commit (retireEff r s) = t
  have thw : t.hw = (retireEff r s).hw := by rw [← ht]; rfl
  have tmem : t.mem = s.mem.edit (retired r x k f fs w s.hw).2 := by rw [← ht, State.commit_mem, due]
  rw [due] at thw
  dsimp only at thw
  have tb : (retired r x k f fs w s.hw).1.tb = s.hw.tb := retired_fst_only _ .tb (by decide)
  obtain ⟨others, hy⟩ := retired_ctx (k := k) (f := f) (fs := fs) (w := w) hx
  generalize hj : (retired r x k f fs w s.hw).1 = j at thw tb others hy
  have tail := trailing_stopCheck r.ctx.val
  have keeps := tail.keeps (j.postAll r.ctx r.lc r.lk r.strm f.idx f.mRetire x.img (postsOf w))
  rw [← thw] at keeps
  obtain ⟨same, z, hz, image, place, streams, holds⟩ :=
    Hw.postAll_ctx (lc := r.lc) (lk := r.lk) (n := r.strm) (i := f.idx) (mt := f.mRetire) (im := x.img) (postsOf w) hy
  obtain ⟨u, hu, kept⟩ := keeps.ctx z hz
  have strm : ∀ q, u.run.strm q = (x.run.retire (keyOf r) fs s.hw.tb w).strm q := fun q =>
    (kept.strm q).trans (by rw [CtxRun.strm, streams]; rfl)
  have held : u.run.holds = if opcOf w = 0x14 then x.run.holds.drop (keyOf r) else x.run.holds :=
    (kept.holds.trans holds).trans rfl
  refine ⟨⟨fun e he => (keeps.others e he).trans ((same e he).trans (others e he)), fun x' hx' => ?_⟩,
    ⟨u, hu, ?_, ?_, ?_, fun drain => ?_, fun other => held.trans (if_neg other), fun quiet => ?_⟩, fun ch d own one hd hown => ?_,
    fun off => ?_, fun q hq => ?_⟩
  · obtain rfl := Option.some.inj (hx.symm.trans hx')
    exact ⟨u, hu, kept.image.trans image, kept.place.trans place, fun q hq => (strm q).trans (x.run.retire_other _ _ _ hq)⟩
  · rw [strm, CtxRun.retire_same]
    rfl
  · rw [strm, CtxRun.retire_same]
    rfl
  · rw [strm, CtxRun.retire_same]
    rfl
  · rw [held, if_pos drain]
    exact Tab.find?_drop_same _ _
  · rw [quiet] at hz
    have z_eq : { x with run := x.run.retire (keyOf r) fs s.hw.tb w } = z := Option.some.inj (hy.symm.trans hz)
    exact ⟨kept.chans.trans (by rw [← z_eq]; rfl), kept.owners.trans (by rw [← z_eq]; rfl)⟩
  · rw [one, Hw.postAll_one hd] at thw
    exact posted tail hx hy rfl rfl tb (by rw [hk]; nofun) rfl rfl hown thw
  · rw [tmem, retired_off off]
    rfl
  · rw [tmem]
    exact Mem.read_edit_spared _ _ _ (retired_spares (hq _ (List.mem_singleton.2 rfl)))

end

end Sys2Proof.Machine
end

section
/-!
PROOFS. The states of banks, the retirement of every stream's BAR, and BARRIER_RELEASE (R101, R102, R111, R158, R433).
-/
namespace Sys2Proof.Machine

/-! ## The states of banks (R101) -/

/-- The field that holds the state of the bank that begins at an address. -/
def bankFld (a : Nat) : Fld :=
  if a < 2 ^ 32 then Fd.CO_SPAD_PWR.BANK (a / 2 ^ 22) (a % 2 ^ 22 / 2 ^ 17 / 16) (a % 2 ^ 22 / 2 ^ 17 % 16)
  else Fd.CL_CMEM_PWR.BANK ((a - 2 ^ 32) / 2 ^ 25) (a % 2 ^ 25 / 2 ^ 20 / 16) (a % 2 ^ 25 / 2 ^ 20 % 16)

theorem bankFld_place (a : Nat) : ∃ j < 16, (bankFld a).lo = 2 * j ∧ (bankFld a).w = 2 := by
  unfold bankFld
  split
  · exact ⟨_, Nat.mod_lt _ (by decide), rfl, rfl⟩
  · exact ⟨_, Nat.mod_lt _ (by decide), rfl, rfl⟩

theorem Hw.bankCode_eq (h : Hw) (a : Nat) : h.bankCode a = h.fld (bankFld a) := by
  unfold Hw.bankCode bankFld
  split <;> rfl
theorem Hw.setBank_eq (h : Hw) (a code : Nat) : h.setBank a code = h.setFld (bankFld a) code := by
  unfold Hw.setBank bankFld
  split <;> rfl

theorem Hw.only_setBank {h : Hw} {a code : Nat} : h.Only [.regs] (h.setBank a code) := by
  rw [Hw.setBank_eq]
  exact Hw.only_setFld

theorem Hw.bankCode_setBank_same (h : Hw) (a : Nat) : (h.setBank a 0).bankCode a = 0 := by
  obtain ⟨j, hj, lo, w⟩ := bankFld_place a
  rw [Hw.setBank_eq, Hw.bankCode_eq, Hw.fld_setFld_same _ _ _ (by rw [lo, w]; omega), Nat.zero_mod]

/-- A bank that is ON stays ON while another turns ON. -/
theorem Hw.bankCode_setBank_on {h : Hw} {a b : Nat} (on : h.bankCode b = 0) : (h.setBank a 0).bankCode b = 0 := by
  obtain ⟨i, hi, lo, w⟩ := bankFld_place a
  obtain ⟨j, hj, lo', w'⟩ := bankFld_place b
  have fits : (bankFld a).lo + (bankFld a).w ≤ 32 := by omega
  rw [Hw.setBank_eq, Hw.bankCode_eq]
  by_cases same : bankFld b = bankFld a
  · rw [same, Hw.fld_setFld_same _ _ _ fits, Nat.zero_mod]
  · rw [Hw.fld_setFld_other _ _ _ _ fits, ← Hw.bankCode_eq, on]
    by_contra touch
    rw [not_or, not_or, not_not, not_le, not_le] at touch
    obtain ⟨addr, left, right⟩ := touch
    refine same ?_
    have lo_eq : (bankFld b).lo = (bankFld a).lo := by omega
    rcases hb : bankFld b with ⟨ad, l, v⟩
    rcases ha : bankFld a with ⟨ad', l', v'⟩
    rw [ha, hb] at addr lo_eq
    rw [ha] at w
    rw [hb] at w'
    obtain rfl : ad = ad' := addr
    obtain rfl : l = l' := lo_eq
    obtain rfl : v' = 2 := w
    obtain rfl : v = 2 := w'
    rfl

/-- The banks of a plan that wake are ON. -/
def Hw.wakeBanks (h : Hw) (plan : List (Nat × Nat)) : Hw := plan.foldl (fun h q => if q.2 = 0 then h.setBank q.1 0 else h) h

theorem Hw.only_wakeBanks {h : Hw} {plan : List (Nat × Nat)} : h.Only [.regs] (h.wakeBanks plan) :=
  Hw.Only.foldl _ _ _ (fun _ _ _ => .ite Hw.only_setBank (.refl _ _))

theorem Hw.bankCode_wakeBanks {h : Hw} {plan : List (Nat × Nat)} {b : Nat × Nat} (hb : b ∈ plan ∧ b.2 = 0 ∨ h.bankCode b.1 = 0) :
    (h.wakeBanks plan).bankCode b.1 = 0 := by
  induction plan generalizing h with
  | nil =>
    rcases hb with ⟨mem, -⟩ | on
    · cases mem
    · exact on
  | cons q plan ih =>
    rw [Hw.wakeBanks, List.foldl_cons, ← Hw.wakeBanks]
    refine ih ?_
    rcases hb with ⟨mem, zero⟩ | on
    · rcases List.mem_cons.1 mem with rfl | mem
      · exact .inr (by rw [if_pos zero]; exact Hw.bankCode_setBank_same _ _)
      · exact .inl ⟨mem, zero⟩
    · refine .inr ?_
      split
      · exact Hw.bankCode_setBank_on on
      · exact on

/-! ## The retirement of every stream's BAR or HALT (R433) -/

section
variable {h : Hw} {x : Ctx}

theorem Hw.only_retireNote {p : Nat × Nat × Nat} : h.Only [.regs, .clus] (h.retireNote x p).1 := by
  unfold Hw.retireNote
  dsimp only
  split
  · exact .refl _ _
  · exact (Hw.only_count.mono (by decide)).trans Hw.only_sample

/-- Where no cluster samples, a retirement stores nothing and leaves the clusters as they are. -/
theorem Hw.retireNote_off {p : Nat × Nat × Nat} (off : ∀ c, (h.clusOf c).samp.armed = false) :
    (h.retireNote x p).2 = [] ∧ (h.retireNote x p).1.clus = h.clus := by
  unfold Hw.retireNote
  dsimp only
  split
  · exact ⟨rfl, rfl⟩
  · rename_i k _
    have same : (h.countCore k { code := 0x02, masters := [p.2.2 + 1] } 1).clus = h.clus := Hw.only_count .clus (by decide)
    rw [Hw.sample_off (by rw [Hw.clusOf, same]; exact off _)]
    exact ⟨rfl, same⟩

/-- One stream's retirement, after others. -/
def Hw.retireStep (x : Ctx) (acc : Hw × List Edit) (p : Nat × Nat × Nat) : Hw × List Edit :=
  ((acc.1.retireNote x p).1, acc.2 ++ (acc.1.retireNote x p).2)

theorem Hw.retireAll_eq (h : Hw) (x : Ctx) : h.retireAll x = x.allStreams.foldl (Hw.retireStep x) (h, []) := rfl

theorem Hw.only_retireAll : h.Only [.regs, .clus] (h.retireAll x).1 := by
  rw [Hw.retireAll_eq]
  induction x.allStreams using List.reverseRecOn with
  | nil => exact .refl _ _
  | append_singleton l p ih =>
    rw [List.foldl_append, List.foldl_cons, List.foldl_nil]
    exact ih.trans Hw.only_retireNote

theorem Hw.retireAll_off (off : ∀ c, (h.clusOf c).samp.armed = false) : (h.retireAll x).2 = [] ∧ (h.retireAll x).1.clus = h.clus := by
  rw [Hw.retireAll_eq]
  induction x.allStreams using List.reverseRecOn with
  | nil => exact ⟨rfl, rfl⟩
  | append_singleton l p ih =>
    rw [List.foldl_append, List.foldl_cons, List.foldl_nil]
    obtain ⟨quiet, clus⟩ := ih
    obtain ⟨quiet', clus'⟩ := Hw.retireNote_off (h := (l.foldl (Hw.retireStep x) (h, [])).1) (x := x) (p := p)
      (fun c => by rw [Hw.clusOf, clus]; exact off c)
    exact ⟨by rw [Hw.retireStep, quiet, quiet']; rfl, clus'.trans clus⟩

end

/-! ## BARRIER_RELEASE (R158) -/

theorem Tab.find?_map_val {α β : Type} (f : α → β) (t : Tab α) (k : Nat) :
    Tab.find? (t.map (fun (q : Nat × α) => (q.1, f q.2))) k = (Tab.find? t k).map f := by
  induction t with
  | nil => rfl
  | cons q t ih =>
    rw [List.map_cons, Tab.find?, Tab.find?, ih]
    split <;> rfl

/-- A stream after its BAR retires. -/
def Stream.released (tb : Nat) (st : Stream) : Stream := { st with arrival := .none, pc := st.pc + 1, lastTb := tb }

/-- The run of a context after its barrier. -/
def CtxRun.released (tb : Nat) (r : CtxRun) : CtxRun :=
  { r with bar := .none, streams := r.streams.map (fun q => (q.1, q.2.released tb)) }

section
variable {ctx : Fin 64} {s : State} {x : Ctx}

/-- The hardware when every BAR has retired and the banks that woke are ON. -/
def Hw.awake (h : Hw) (x : Ctx) : Hw := (h.retireAll x).1.wakeBanks (x.bankPlan x.run.epochDesc)

theorem Hw.only_awake {h : Hw} : h.Only [.regs, .clus] (h.awake x) := Hw.only_retireAll.trans (Hw.only_wakeBanks.mono (by decide))

theorem releaseEff_due (hx : Tab.find? s.hw.ctxs ctx = some x) (bar : x.run.bar = .waking) (st : x.host.st = .running)
    (free : ∀ b ∈ x.bankPlan x.run.epochDesc, Tab.find? (s.hw.clusOf (bankOwner b.1)).bgt.pend b.1 = none) : releaseEff ctx s =
      { hw := (s.hw.awake x).modRun ctx (CtxRun.released (s.hw.awake x).tb), edits := (s.hw.retireAll x).2 } := by
  unfold releaseEff
  dsimp only
  rw [Hw.ctx?, hx]
  exact if_pos ⟨st, bar, List.all_eq_true.2 (fun b hb => by rw [free b hb]; rfl)⟩

theorem releaseEff_cases (ctx : Fin 64) (s : State) : releaseEff ctx s = { hw := s.hw } ∨ ∃ x, Tab.find? s.hw.ctxs ctx = some x ∧
    x.run.bar = .waking ∧ x.host.st = .running ∧
    ∀ b ∈ x.bankPlan x.run.epochDesc, Tab.find? (s.hw.clusOf (bankOwner b.1)).bgt.pend b.1 = none := by
  unfold releaseEff
  dsimp only
  split
  · exact .inl rfl
  · rename_i x hx
    split
    · rename_i c
      refine .inr ⟨x, hx, c.2.1, c.1, fun b hb => ?_⟩
      have := List.all_eq_true.1 c.2.2 b hb
      exact Option.isNone_iff_eq_none.1 this
    · exact .inl rfl

theorem release_clause (ctx : Fin 64) (s : State) : ∃ t, exec (.barrierRelease ctx) s = .next t ∧ t.pending = s.pending ∧
    t.fuses = s.fuses ∧ s.hw.Only [.regs, .ctxs, .clus] t.hw ∧
    (Tab.find? s.hw.ctxs ctx = none ∨ (∃ x, Tab.find? s.hw.ctxs ctx = some x ∧ (x.run.bar ≠ .waking ∨ x.host.st ≠ .running ∨
      ∃ b ∈ x.bankPlan x.run.epochDesc, Tab.find? (s.hw.clusOf (bankOwner b.1)).bgt.pend b.1 ≠ none)) → t = s) ∧
    ∀ x, Tab.find? s.hw.ctxs ctx = some x → x.run.bar = .waking → x.host.st = .running →
        (∀ b ∈ x.bankPlan x.run.epochDesc, Tab.find? (s.hw.clusOf (bankOwner b.1)).bgt.pend b.1 = none) →
      (∃ y, Tab.find? t.hw.ctxs ctx = some y ∧ y.host = x.host ∧ y.run.bar = .none ∧ y.run.chans = x.run.chans ∧
        ∀ k st, Tab.find? x.run.streams k = some st →
          y.run.strm k = { st with arrival := .none, pc := st.pc + 1, lastTb := s.hw.tb }) ∧
      (∀ b ∈ x.bankPlan x.run.epochDesc, b.2 = 0 → t.hw.bankCode b.1 = 0) ∧
      ((∀ c, (s.hw.clusOf c).samp.armed = false) → t.mem = s.mem) := by
  refine ⟨s.commit (releaseEff ctx s), rfl, rfl, ?_, ?_, fun idle => ?_, fun x hx bar st free => ?_⟩
  · rcases releaseEff_cases ctx s with eq | ⟨x, hx, bar, st, free⟩
    · rw [State.commit_fuses, eq]
      rfl
    · rw [State.commit_fuses, releaseEff_due hx bar st free]
      rfl
  · rcases releaseEff_cases ctx s with eq | ⟨x, hx, bar, st, free⟩
    · rw [eq]
      exact .refl _ _
    · rw [releaseEff_due hx bar st free]
      exact (Hw.only_awake.mono (by decide)).trans (Hw.only_modRun.mono (by decide))
  · rcases releaseEff_cases ctx s with eq | ⟨x, hx, bar, st, free⟩
    · rw [eq]
      rfl
    · exfalso
      rcases idle with none | ⟨x', hx', no⟩
      · rw [hx] at none
        cases none
      · obtain rfl := Option.some.inj (hx.symm.trans hx')
        rcases no with h | h | ⟨b, hb, pend⟩
        · exact h bar
        · exact h st
        · exact pend (free b hb)
  · have due := releaseEff_due hx bar st free
    have ctxs : (s.hw.awake x).ctxs = s.hw.ctxs := Hw.only_awake .ctxs (by decide)
    have tb : (s.hw.awake x).tb = s.hw.tb := Hw.only_awake .tb (by decide)
    refine ⟨⟨{ x with run := x.run.released s.hw.tb }, ?_, rfl, rfl, rfl, fun k v hv => ?_⟩, fun b hb on => ?_, fun off => ?_⟩
    · rw [due, tb]
      exact Hw.find?_modCtx_same _ (by rw [ctxs]; exact hx)
    · show Tab.getD (x.run.streams.map (fun q => (q.1, q.2.released s.hw.tb))) k ({} : Stream) = _
      rw [Tab.getD, Tab.find?_map_val, hv]
      rfl
    · rw [due, Hw.bankCode_eq]
      refine (Hw.fld_of_regs (k := (s.hw.awake x).modRun ctx _) (h := s.hw.awake x) (Hw.only_modRun .regs (by decide)) _).trans ?_
      rw [← Hw.bankCode_eq]
      exact Hw.bankCode_wakeBanks (.inl ⟨hb, on⟩)
    · rw [State.commit_mem, due, (Hw.retireAll_off off).1]
      rfl

end

end Sys2Proof.Machine
end

section
/-!
PROOFS. The arrival of a stream at its BAR or HALT, and the conditions that streams in different places meet (R158, R159, R163).
-/
namespace Sys2Proof.Machine

/-! ## Who may arrive (R158) -/

section
variable {h : Hw} {x : Ctx} {r : StreamRef} {w : Nat}

/-- A BAR or HALT starts where nothing of its stream is in progress. -/
theorem Hw.admits_end {lc lk s : Nat} (hw : x.nextWord (strmKey lc lk s) = some w) (op : opcOf w = 3 ∨ opcOf w = 4) :
    h.admits x lc lk s = true ↔ x.host.st = .running ∧ x.host.stopping = false ∧ x.run.bar = .none ∧
      (x.run.strm (strmKey lc lk s)).arrival = .none ∧ x.img.hasCore lc lk = true ∧
      (x.run.strm (strmKey lc lk s)).inflight = [] := by
  have ends : ¬ (s = 3 ∧ opcOf w ≠ 3 ∧ opcOf w ≠ 4) := by
    rintro ⟨-, three, four⟩
    rcases op with e | e
    · exact three e
    · exact four e
  unfold Hw.admits
  dsimp only
  rw [hw]
  dsimp only
  rw [if_neg ends]
  simp only [Bool.and_eq_true, beq_iff_eq, Bool.not_eq_true', List.isEmpty_iff, and_assoc]

/-- A stream that has arrived starts no instruction. -/
theorem Hw.admits_arrived {lc lk s : Nat} (arrived : x.hasArrived (lc, lk, s) = true) : h.admits x lc lk s = false := by
  rw [Bool.eq_false_iff]
  intro admits
  unfold Hw.admits at admits
  dsimp only at admits
  split at admits
  · cases admits
  · simp only [Bool.and_eq_true, beq_iff_eq] at admits
    exact Ctx.hasArrived_iff.1 arrived admits.1.1.2

/-- Where every stream has arrived, none is starved. -/
theorem Hw.underflow_arrived {c : Nat} (hx : Tab.find? h.ctxs c = some x) (all : ∀ p ∈ x.allStreams, x.hasArrived p = true) :
    h.underflow c = h :=
  Hw.underflow_none hx (fun p hp => if_neg (by rw [Hw.admits_arrived (all p hp)]; nofun))

end

/-! ## The arrival -/

/-- A stream that has arrived at a time. -/
def Stream.arrives (a : Arrival) (tb steps n : Nat) (st : Stream) : Stream :=
  { st with arrival := a, arriveTb := tb, arriveSteps := steps, arriveModel := st.modelArrival n, waiting := false }

/-- What a stream names by its BAR or HALT. -/
def arrivalOf (opc w : Nat) : Arrival := if opc = 4 then .halt else .bar (bitsAt w 82 10)

/-- The run of a context in which a stream has arrived. -/
def CtxRun.arrives (r : StreamRef) (a : Arrival) (tb steps : Nat) (u : CtxRun) : CtxRun :=
  u.modStrm (keyOf r) (Stream.arrives a tb steps r.strm)

section
variable {h : Hw} {x : Ctx} {r : StreamRef} {w k opc : Nat}

theorem Hw.arrive_some (hx : Tab.find? h.ctxs r.ctx = some x) (hw : x.nextWord (keyOf r) = some w)
    (hk : x.core? r.lc r.lk = some k) (op : opcOf w = opc) (admits : h.admits x r.lc r.lk r.strm = true) : h.arrive r opc =
      some ({ x with run := x.run.arrives r (arrivalOf opc w) h.tb (h.steps (k / 9)) },
        h.modRun r.ctx (CtxRun.arrives r (arrivalOf opc w) h.tb (h.steps (k / 9)))) := by
  have found := Hw.find?_modCtx_same (fun x => { x with run := x.run.arrives r (arrivalOf opc w) h.tb (h.steps (k / 9)) }) hx
  unfold Hw.arrive
  dsimp only
  rw [Hw.ctx?, hx]
  dsimp only
  rw [← keyOf, hw, hk]
  refine (if_pos ⟨op, admits⟩).trans ?_
  show Option.map _ (Tab.find? (h.modRun r.ctx (CtxRun.arrives r (arrivalOf opc w) h.tb (h.steps (k / 9)))).ctxs r.ctx) = _
  rw [show Tab.find? (h.modRun r.ctx (CtxRun.arrives r (arrivalOf opc w) h.tb (h.steps (k / 9)))).ctxs r.ctx = _ from found]
  rfl

theorem Hw.arrive_cases (h : Hw) (r : StreamRef) (opc : Nat) : h.arrive r opc = none ∨ ∃ x w k, Tab.find? h.ctxs r.ctx = some x ∧
    x.nextWord (keyOf r) = some w ∧ x.core? r.lc r.lk = some k ∧ opcOf w = opc ∧ h.admits x r.lc r.lk r.strm = true := by
  cases hx : Tab.find? h.ctxs r.ctx with
  | none =>
    refine .inl ?_
    unfold Hw.arrive
    dsimp only
    rw [Hw.ctx?, hx]
  | some x =>
    cases hw : x.nextWord (keyOf r) with
    | none =>
      refine .inl ?_
      unfold Hw.arrive
      dsimp only
      rw [Hw.ctx?, hx]
      dsimp only
      rw [← keyOf, hw]
    | some w =>
      cases hk : x.core? r.lc r.lk with
      | none =>
        refine .inl ?_
        unfold Hw.arrive
        dsimp only
        rw [Hw.ctx?, hx]
        dsimp only
        rw [← keyOf, hw, hk]
      | some k =>
        by_cases c : opcOf w = opc ∧ h.admits x r.lc r.lk r.strm = true
        · exact .inr ⟨x, w, k, rfl, hw, hk, c.1, c.2⟩
        · refine .inl ?_
          unfold Hw.arrive
          dsimp only
          rw [Hw.ctx?, hx]
          dsimp only
          rw [← keyOf, hw, hk]
          exact if_neg c

/-- A stream that is elsewhere, or whose context does not run, does not arrive. -/
theorem Hw.arrive_none (op : opc = 3 ∨ opc = 4) (idle : Tab.find? h.ctxs r.ctx = none ∨ (∃ x, Tab.find? h.ctxs r.ctx = some x ∧
    ((x.nextWord (keyOf r)).map opcOf ≠ some opc ∨ (x.run.strm (keyOf r)).inflight ≠ [] ∨ x.host.st ≠ .running ∨
      x.run.bar ≠ .none ∨ (x.run.strm (keyOf r)).arrival ≠ .none))) : h.arrive r opc = none := by
  rcases h.arrive_cases r opc with eq | ⟨x, w, k, hx, hw, -, rfl, admits⟩
  · exact eq
  · exfalso
    obtain ⟨st, -, bar, arrival, -, infl⟩ := (Hw.admits_end hw op).1 admits
    rcases idle with none | ⟨x', hx', no⟩
    · rw [hx] at none
      cases none
    · obtain rfl := Option.some.inj (hx.symm.trans hx')
      rcases no with no | no | no | no | no
      · exact no (by rw [hw]; rfl)
      · exact no infl
      · exact no st
      · exact no bar
      · exact no arrival

theorem CtxRun.arrives_strm (u : CtxRun) (r : StreamRef) (a : Arrival) (tb steps : Nat) :
    (u.arrives r a tb steps).strm (keyOf r) = (u.strm (keyOf r)).arrives a tb steps r.strm := CtxRun.strm_modStrm_same _ _ _
theorem CtxRun.arrives_other (u : CtxRun) (r : StreamRef) (a : Arrival) (tb steps : Nat) {q : Nat} (hq : q ≠ keyOf r) :
    (u.arrives r a tb steps).strm q = u.strm q := CtxRun.strm_modStrm_other _ _ hq

end

/-! ## Streams by their keys -/

/-- The logical core and number of a stream. -/
def ownStream (r : StreamRef) : Nat × Nat × Nat := (r.lc.val, r.lk.val, r.strm.val)

theorem strmKey_ne {x : Ctx} {r : StreamRef} {p : Nat × Nat × Nat} (hp : p ∈ x.allStreams) (ne : p ≠ ownStream r) :
    strmKey p.1 p.2.1 p.2.2 ≠ keyOf r := by
  obtain ⟨core, hs⟩ := Ctx.mem_allStreams.1 hp
  obtain ⟨lc, lk, s⟩ := p
  have hlk : lk < 8 := by
    simp only [Image.hasCore, Bool.and_eq_true, decide_eq_true_eq] at core
    exact core.1
  have hlk' := r.lk.isLt
  have hs' := r.strm.isLt
  intro e
  unfold keyOf strmKey at e
  refine ne ?_
  dsimp only at hs e
  rw [ownStream, Prod.mk.injEq, Prod.mk.injEq]
  omega

/-- The other streams of a context. -/
def Ctx.others (x : Ctx) (r : StreamRef) : List (Nat × Nat × Nat) := x.allStreams.filter (fun p => p != ownStream r)

theorem Ctx.mem_others {x : Ctx} {r : StreamRef} {p : Nat × Nat × Nat} : p ∈ x.others r ↔ p ∈ x.allStreams ∧ p ≠ ownStream r := by
  rw [Ctx.others, List.mem_filter, bne_iff_ne]

/-- Where a stream stands. -/
def Ctx.place (x : Ctx) (p : Nat × Nat × Nat) : Arrival := (x.run.strm (strmKey p.1 p.2.1 p.2.2)).arrival

/-- A context in which the stream `r` has arrived. -/
structure Ctx.After (x y : Ctx) (r : StreamRef) (a : Arrival) : Prop where
  host : y.host = x.host
  own : y.place (ownStream r) = a
  others : ∀ p ∈ x.others r, y.place p = x.place p
  here : ownStream r ∈ y.allStreams
  chans : y.run.chans = x.run.chans

theorem Ctx.After.img {x y : Ctx} {r : StreamRef} {a : Arrival} (e : x.After y r a) : y.img = x.img := by rw [Ctx.img, e.host, ← Ctx.img]
theorem Ctx.After.streams {x y : Ctx} {r : StreamRef} {a : Arrival} (e : x.After y r a) : y.allStreams = x.allStreams := by
  rw [Ctx.allStreams, e.img, ← Ctx.allStreams]
/-- Every stream is the one that arrived or another. -/
theorem Ctx.After.cases {x y : Ctx} {r : StreamRef} {a : Arrival} (e : x.After y r a) {p : Nat × Nat × Nat} (hp : p ∈ y.allStreams) :
    p = ownStream r ∨ p ∈ x.others r := by
  by_cases eq : p = ownStream r
  · exact .inl eq
  · exact .inr (Ctx.mem_others.2 ⟨e.streams ▸ hp, eq⟩)
theorem Ctx.After.mem {x y : Ctx} {r : StreamRef} {a : Arrival} (e : x.After y r a) {p : Nat × Nat × Nat} (hp : p ∈ x.others r) :
    p ∈ y.allStreams := by
  rw [e.streams]
  exact (Ctx.mem_others.1 hp).1
theorem Ctx.After.placed {x y : Ctx} {r : StreamRef} {a : Arrival} (e : x.After y r a) (placed : x.Placed) {p : Nat × Nat × Nat}
    (hp : p ∈ y.allStreams) : x.core? p.1 p.2.1 ≠ none := placed p (e.streams ▸ hp)

theorem Ctx.after_arrives {x : Ctx} (r : StreamRef) (a : Arrival) (tb steps : Nat) (core : x.img.hasCore r.lc r.lk = true) :
    x.After { x with run := x.run.arrives r a tb steps } r a := by
  refine ⟨rfl, ?_, fun p hp => ?_, Ctx.mem_allStreams.2 ⟨core, r.strm.isLt⟩, rfl⟩
  · exact congrArg Stream.arrival (x.run.arrives_strm r a tb steps)
  · obtain ⟨mem, ne⟩ := Ctx.mem_others.1 hp
    exact congrArg Stream.arrival (x.run.arrives_other r a tb steps (strmKey_ne mem ne))

/-! ## The stream that arrived first (R163) -/

/-- Of two streams, the one that arrived first. -/
def Ctx.firstStep (x : Ctx) (b : Option (Nat × Nat × Nat)) (p : Nat × Nat × Nat) : Option (Nat × Nat × Nat) :=
  if x.hasArrived p then
    match b with
    | none => some p
    | some q => if (x.run.strm (strmKey p.1 p.2.1 p.2.2)).arriveTb < (x.run.strm (strmKey q.1 q.2.1 q.2.2)).arriveTb
        then some p else some q
  else b

theorem Ctx.firstArrived_eq (x : Ctx) (ps : List (Nat × Nat × Nat)) : x.firstArrived ps = ps.foldl x.firstStep none := rfl

theorem Ctx.firstStep_cases (x : Ctx) (b : Option (Nat × Nat × Nat)) (p : Nat × Nat × Nat) :
    x.firstStep b p = b ∨ x.firstStep b p = some p := by
  unfold Ctx.firstStep
  split
  · split
    · exact .inr rfl
    · split
      · exact .inr rfl
      · exact .inl rfl
  · exact .inl rfl

theorem Ctx.firstArrived_mem {x : Ctx} {ps : List (Nat × Nat × Nat)} {p : Nat × Nat × Nat} (e : x.firstArrived ps = some p) : p ∈ ps := by
  rw [Ctx.firstArrived_eq] at e
  induction ps using List.reverseRecOn with
  | nil => cases e
  | append_singleton ps q ih =>
    rw [List.foldl_append, List.foldl_cons, List.foldl_nil] at e
    rcases x.firstStep_cases (ps.foldl x.firstStep none) q with same | new
    · exact List.mem_append_left _ (ih (same ▸ e))
    · obtain rfl : q = p := Option.some.inj (new ▸ e)
      exact List.mem_append_right _ (List.mem_singleton.2 rfl)

theorem Ctx.firstArrived_some {x : Ctx} {ps : List (Nat × Nat × Nat)} {p : Nat × Nat × Nat} (hp : p ∈ ps) (arrived : x.hasArrived p = true) :
    x.firstArrived ps ≠ none := by
  rw [Ctx.firstArrived_eq]
  induction ps using List.reverseRecOn with
  | nil => cases hp
  | append_singleton ps q ih =>
    rw [List.foldl_append, List.foldl_cons, List.foldl_nil]
    rcases List.mem_append.1 hp with mem | mem
    · rcases x.firstStep_cases (ps.foldl x.firstStep none) q with same | new
      · rw [same]
        exact ih mem
      · rw [new]
        nofun
    · obtain rfl := List.mem_singleton.1 mem
      unfold Ctx.firstStep
      rw [if_pos arrived]
      split
      · nofun
      · split <;> nofun

/-! ## STREAM_END (R159) -/

theorem Ctx.streamEnd_eq (x : Ctx) : x.streamEnd =
    if (x.allStreams.filter (fun p => x.place p != .halt && x.place p != .none)).isEmpty then none
    else x.firstArrived (x.allStreams.filter (fun p => x.place p == .halt)) := rfl

theorem Ctx.streamEnd_mem {x : Ctx} {p : Nat × Nat × Nat} (e : x.streamEnd = some p) : p ∈ x.allStreams := by
  rw [Ctx.streamEnd_eq] at e
  split at e
  · cases e
  · exact (List.mem_filter.1 (Ctx.firstArrived_mem e)).1

theorem Ctx.streamEnd_some {x : Ctx} {p q : Nat × Nat × Nat} (hp : p ∈ x.allStreams) (bar : x.place p ≠ .halt) (bar' : x.place p ≠ .none)
    (hq : q ∈ x.allStreams) (halt : x.place q = .halt) : x.streamEnd ≠ none := by
  have some : (x.allStreams.filter (fun p => x.place p != .halt && x.place p != .none)).isEmpty = false := by
    rw [Bool.eq_false_iff]
    intro e
    have mem : p ∈ x.allStreams.filter (fun p => x.place p != .halt && x.place p != .none) :=
      List.mem_filter.2 ⟨hp, by simp [bar, bar']⟩
    rw [List.isEmpty_iff.1 e] at mem
    cases mem
  rw [Ctx.streamEnd_eq, some]
  refine Ctx.firstArrived_some (p := q) (List.mem_filter.2 ⟨hq, by rw [halt]; rfl⟩) (Ctx.hasArrived_iff.2 ?_)
  have at' : (x.run.strm (strmKey q.1 q.2.1 q.2.2)).arrival = .halt := halt
  rw [at']
  nofun

theorem Ctx.streamEnd_bars {x : Ctx} (bars : ∀ p ∈ x.allStreams, x.place p ≠ .halt) : x.streamEnd = none := by
  have none : x.allStreams.filter (fun p => x.place p == .halt) = [] :=
    List.filter_eq_nil_iff.2 (fun p hp => by simpa using bars p hp)
  rw [Ctx.streamEnd_eq, none]
  split <;> rfl
theorem Ctx.streamEnd_halts {x : Ctx} (halts : ∀ p ∈ x.allStreams, x.place p = .halt) : x.streamEnd = none := by
  have none : x.allStreams.filter (fun p => x.place p != .halt && x.place p != .none) = [] :=
    List.filter_eq_nil_iff.2 (fun p hp => by rw [halts p hp]; decide)
  rw [Ctx.streamEnd_eq, none]
  rfl

section
variable {x y : Ctx} {r : StreamRef} {a : Arrival} {p : Nat × Nat × Nat} {op : Nat}

/-- A stream of the other kind has arrived: one at HALT and one at BAR. -/
theorem Ctx.After.streamEnd_some (e : x.After y r a) (some : a ≠ .none) (kind : a = .halt ↔ op = 4) (hp : p ∈ x.others r)
    (arrived : x.place p ≠ .none) (other : x.place p = .halt ↔ op ≠ 4) : y.streamEnd ≠ none := by
  have at' := e.others p hp
  by_cases four : op = 4
  · exact Ctx.streamEnd_some (e.mem hp) (by rw [at']; exact fun h => other.1 h four) (by rw [at']; exact arrived) e.here
      (by rw [e.own]; exact kind.2 four)
  · exact Ctx.streamEnd_some e.here (by rw [e.own]; exact fun h => four (kind.1 h)) (by rw [e.own]; exact some) (e.mem hp)
      (by rw [at']; exact other.2 four)

/-- Streams of one kind do not end each other. -/
theorem Ctx.After.streamEnd_none (e : x.After y r a) (kind : a = .halt ↔ op = 4)
    (all : ∀ p ∈ x.others r, x.place p ≠ .none ∧ (x.place p = .halt ↔ op = 4)) : y.streamEnd = none := by
  have same : ∀ p ∈ y.allStreams, (y.place p = .halt ↔ op = 4) := fun p hp => by
    rcases e.cases hp with rfl | mem
    · rw [e.own]
      exact kind
    · rw [e.others p mem]
      exact (all p mem).2
  by_cases four : op = 4
  · exact Ctx.streamEnd_halts (fun p hp => (same p hp).2 four)
  · exact Ctx.streamEnd_bars (fun p hp h => four ((same p hp).1 h))

theorem Ctx.After.arrived (e : x.After y r a) (some : a ≠ .none) (all : ∀ p ∈ x.others r, x.place p ≠ .none) :
    ∀ p ∈ y.allStreams, y.hasArrived p = true := fun p hp => by
  refine Ctx.hasArrived_iff.2 ?_
  show y.place p ≠ .none
  rcases e.cases hp with rfl | mem
  · rw [e.own]
    exact some
  · rw [e.others p mem]
    exact all p mem

theorem Ctx.After.leftover (e : x.After y r a) : y.leftover = x.leftover := by
  unfold Ctx.leftover
  rw [e.streams, e.img]
  simp only [Ctx.chan, e.chans]

/-- The channel with tokens left over belongs to a stream of the context. -/
theorem Ctx.leftover_mem {d : ChanDecl} (e : x.leftover = some d) : (d.lc, d.lk, d.consumer) ∈ x.allStreams := by
  obtain ⟨⟨lc, lk, n⟩, mem, found⟩ := List.exists_of_findSome?_eq_some e
  have := List.find?_some found
  simp only [Bool.and_eq_true, beq_iff_eq] at this
  obtain ⟨⟨⟨rfl, rfl⟩, rfl⟩, -⟩ := this
  exact mem

end

end Sys2Proof.Machine
end

section
/-!
PROOFS. What the end of a barrier changes: paces that a forecast presets, slip records, length registers, banks and the next epoch
(R102, R156, R158, R167–R171, R400, R407).
-/
namespace Sys2Proof.Machine

/-! ## Walks that a package makes itself (R130, R171) -/

/-- The parts that a translation changes. -/
def xlatParts : List Part := [.regs, .hbm, .xcl, .host, .logs, .hist, .out]

theorem Hw.Noted.xlat {h k : Hw} (a : h.Noted k) : h.Only xlatParts k := a.only.mono (by decide)

theorem Hw.only_translate {h : Hw} {m : Mem} {job ctx region lpn w master : Nat} :
    h.Only xlatParts (h.translate m job ctx region lpn w master).1 := by
  have ev : ∀ (k : Hw) (code : Nat), k.Only xlatParts
      (if w < 64 then k.countClus w { code := code, masters := if master = 0 then [] else [master] } 1 else k) :=
    fun k _ => .ite (Hw.only_count.mono (by decide)) (.refl _ _)
  unfold Hw.translate
  dsimp only
  split
  · exact (Hw.only_xclField.mono (by decide)).trans (ev _ _)
  · have walked := (ev h 0x24).trans (Hw.noted_walk (m := m) (job := job) (ctx := ctx) (region := region) (lpn := lpn) (w := w)).xlat
    split <;> rename_i e <;> rw [e] at walked
    · exact walked
    · exact walked.trans (Hw.only_xclField.mono (by decide))

theorem Hw.only_xlatRow {h : Hw} {m : Mem} {job ctx w : Nat} {write : Bool} {p : Place} {master : Nat} :
    h.Only xlatParts (h.xlatRow m job ctx w write p master).1 := by
  unfold Hw.xlatRow
  dsimp only
  split
  · exact .refl _ _
  · split <;> (
      refine foldl_fst (P := h.Only xlatParts) ‹_› (.refl _ _) ?_
      rintro ⟨k, e | l⟩ ⟨lpn, o, n⟩ a
      · exact a
      have t := a.trans (Hw.only_translate (m := m) (job := job) (ctx := ctx) (region := p.lc) (lpn := lpn) (w := w)
        (master := master))
      dsimp only
      split <;> rename_i e <;> rw [e] at t
      · exact t
      · split <;> exact t)

theorem Hw.only_pieceUe {h : Hw} {x : Ctx} {p : Place} {a : Nat} : h.Only xlatParts (h.pieceUe x p a).1 := by
  have ue : ∀ {f g v : Fld} {n : Nat}, h.Only xlatParts
      (if (h.satFld f 1).flag v then h.satFld f 1 else ((h.satFld f 1).setFld g n).setFlag v true) := fun {f g v n} => by
    have first : h.Only xlatParts (h.satFld f 1) := Hw.only_satFld.mono (by decide)
    exact .ite first ((first.trans (Hw.only_setFld.mono (by decide))).trans (Hw.only_setFlag.mono (by decide)))
  unfold Hw.pieceUe
  split
  · exact ue
  · exact ue
  · exact Hw.noted_hbmUe.xlat

theorem Hw.Only.of_eq {α : Type} {ps : List Part} {h g : Hw} {q : Hw × α} {a : α} (e : q = (g, a)) (o : h.Only ps q.1) : h.Only ps g := by
  rw [e] at o
  exact o

/-! ## A context that is followed through changes -/

/-- Context `c` of `h` is there in `k`, and `R` holds from the one to the other. -/
def Hw.Follows (c : Nat) (R : Ctx → Ctx → Prop) (h k : Hw) : Prop :=
  ∀ x, Tab.find? h.ctxs c = some x → ∃ y, Tab.find? k.ctxs c = some y ∧ R x y

section
variable {c : Nat} {R : Ctx → Ctx → Prop} {h k l : Hw}

theorem Hw.Follows.of_only {ps : List Part} (rfl' : ∀ x, R x x) (a : h.Only ps k) (e : Part.ctxs ∉ ps) : h.Follows c R k :=
  fun x hx => ⟨x, by rw [a .ctxs e]; exact hx, rfl' x⟩
theorem Hw.Follows.trans (tr : ∀ x y z, R x y → R y z → R x z) (a : h.Follows c R k) (b : k.Follows c R l) : h.Follows c R l :=
  fun x hx => by
    obtain ⟨y, hy, xy⟩ := a x hx
    obtain ⟨z, hz, yz⟩ := b y hy
    exact ⟨z, hz, tr x y z xy yz⟩
theorem Hw.Follows.modCtx {f : Ctx → Ctx} (e : ∀ x, R x (f x)) : h.Follows c R (h.modCtx c f) :=
  fun x hx => ⟨f x, Hw.find?_modCtx_same f hx, e x⟩
theorem Hw.Follows.modRun {f : CtxRun → CtxRun} (e : ∀ x : Ctx, R x { x with run := f x.run }) : h.Follows c R (h.modRun c f) :=
  .modCtx e
theorem Hw.Follows.foldl {α : Type} {f : Hw → α → Hw} (rfl' : ∀ x, R x x) (tr : ∀ x y z, R x y → R y z → R x z)
    (e : ∀ (k : Hw) (a : α), k.Follows c R (f k a)) (l : List α) (h : Hw) : h.Follows c R (l.foldl f h) := by
  induction l generalizing h with
  | nil => exact fun x hx => ⟨x, hx, rfl' x⟩
  | cons a l ih => exact (e h a).trans tr (ih _)

end

/-! ## Paces (R400) -/

/-- `y` is `x` but for what is noted of its clusters' paces. -/
def Ctx.Repaced (x y : Ctx) : Prop := ∃ a b, y = { x with run := { x.run with natLimited := a, paceChanged := b } }

theorem Ctx.Repaced.refl (x : Ctx) : x.Repaced x := ⟨_, _, rfl⟩
theorem Ctx.Repaced.trans (x y z : Ctx) (e : x.Repaced y) (f : y.Repaced z) : x.Repaced z := by
  obtain ⟨a, b, rfl⟩ := e
  obtain ⟨a', b', rfl⟩ := f
  exact ⟨a', b', rfl⟩

section
variable {c : Nat} {h : Hw}

/-- A note about a cluster's epoch is of no account to contexts but to the one that holds it. -/
theorem Hw.follows_noteEpoch {d : Nat} {f : CtxRun → Nat → CtxRun}
    (e : ∀ (x : Ctx) (lc : Nat), x.Repaced { x with run := f x.run lc }) : h.Follows c Ctx.Repaced (h.noteEpoch d f) := by
  unfold Hw.noteEpoch
  split
  · exact fun x hx => ⟨x, hx, .refl x⟩
  · rename_i id _ _
    split
    · rename_i lc _ _
      intro x hx
      by_cases same : c = id
      · subst same
        exact ⟨_, Hw.find?_modCtx_same _ hx, e x lc⟩
      · exact ⟨x, (Hw.find?_modCtx_other _ same).trans hx, .refl x⟩
    · exact fun x hx => ⟨x, hx, .refl x⟩

theorem Hw.follows_reissue {d : Nat} : h.Follows c Ctx.Repaced (h.reissue d) := by
  unfold Hw.reissue
  have shown : ∀ b, h.Follows c Ctx.Repaced ((h.setIssued d (min (h.progOf d) (h.fld (Fd.PWR_CL_PACE.NATURAL_MSTEPS d)))).setFlag
      (Fd.PWR_CL_PACE.NAT_LIMITED d) b) := fun b =>
    .of_only .refl (Hw.only_setIssued.trans (Hw.only_setFlag.mono (by decide))) (by decide)
  dsimp only
  split
  · split
    · exact (shown _).trans Ctx.Repaced.trans (Hw.follows_noteEpoch (fun _ _ => ⟨_, _, rfl⟩))
    · exact shown _
  · exact .of_only .refl Hw.only_setIssued (by decide)

theorem Hw.follows_repaceClus {d : Nat} : h.Follows c Ctx.Repaced (h.repaceClus d) := by
  unfold Hw.repaceClus
  dsimp only
  split
  · exact fun x hx => ⟨x, hx, .refl x⟩
  · have set : h.Follows c Ctx.Repaced
        { h with pwr := { h.pwr with prog := Tab.set h.pwr.prog d 1500 (lowest (h.limits d) / 10 * 10) } } :=
      .of_only .refl Hw.only_pwrField (by decide)
    exact (set.trans Ctx.Repaced.trans (Hw.follows_noteEpoch (fun _ _ => ⟨_, _, rfl⟩))).trans Ctx.Repaced.trans Hw.follows_reissue

theorem Hw.follows_repace : h.Follows c Ctx.Repaced h.repace :=
  (Hw.Follows.foldl .refl Ctx.Repaced.trans (fun _ _ => Hw.follows_repaceClus) _ _).trans Ctx.Repaced.trans
    (Hw.Follows.foldl .refl Ctx.Repaced.trans (fun _ _ => .of_only .refl Hw.only_repaceDie (by decide)) _ _)

theorem Hw.follows_applyForecast {e d : Nat} {past : Bool} : h.Follows c Ctx.Repaced (h.applyForecast e d past) := by
  unfold Hw.applyForecast
  split
  · exact fun x hx => ⟨x, hx, .refl x⟩
  · exact (Hw.Follows.of_only .refl Hw.only_pwrField (by decide)).trans Ctx.Repaced.trans Hw.follows_repace

theorem Hw.only_applyForecast {d : Nat} {past : Bool} : h.Only [.regs, .ctxs, .clus, .pwr] (h.applyForecast c d past) := by
  unfold Hw.applyForecast
  split
  · exact .refl _ _
  · exact (Hw.only_pwrField.mono (by decide)).trans (Hw.repaced_repace _).only

end

/-! ## The barrier's own notes -/

/-- What a context keeps through the end of the barrier that its streams are at: the descriptor that they named, the time, its
placement, and that no page is left to move. -/
structure Ctx.SameBarrier (x y : Ctx) : Prop where
  next : y.run.nextDesc = x.run.nextDesc
  tb : y.run.barTb = x.run.barTb
  place : y.host.place = x.host.place
  moves : x.run.moves = [] → y.run.moves = []

theorem Ctx.SameBarrier.refl (x : Ctx) : x.SameBarrier x := ⟨rfl, rfl, rfl, id⟩
theorem Ctx.SameBarrier.trans (x y z : Ctx) (e : x.SameBarrier y) (f : y.SameBarrier z) : x.SameBarrier z :=
  ⟨f.next.trans e.next, f.tb.trans e.tb, f.place.trans e.place, fun still => f.moves (e.moves still)⟩
/-- What is noted of paces is all that changes. -/
theorem Ctx.Repaced.same {x y : Ctx} (e : x.Repaced y) : y.host = x.host ∧ y.run.fault = x.run.fault ∧
    y.run.epochSeq = x.run.epochSeq := by
  obtain ⟨a, b, rfl⟩ := e
  exact ⟨rfl, rfl, rfl⟩
theorem Ctx.Repaced.sameBarrier {x y : Ctx} (e : x.Repaced y) : x.SameBarrier y := by
  obtain ⟨a, b, rfl⟩ := e
  exact ⟨rfl, rfl, rfl, id⟩

section
variable {c : Nat} {h : Hw} {m : Mem} {x : Ctx}

theorem Hw.sameBarrier_raise {d : Cond} {u l i : Nat} : h.Follows c Ctx.SameBarrier (h.raise c d u l i) := by
  refine Hw.Follows.modCtx (fun x => ?_)
  split
  · exact ⟨rfl, rfl, rfl, id⟩
  · split
    · exact ⟨rfl, rfl, rfl, id⟩
    · exact ⟨rfl, rfl, rfl, id⟩

/-! ### Slip records (R170, R171) -/

theorem Hw.only_slipWrite {region pages pos : Nat} {q : SlipRec} :
    h.Only xlatParts (h.slipWrite m c x region pages pos q).1 := by
  unfold Hw.slipWrite
  dsimp only
  split <;> rename_i e
  · exact Hw.only_xlatRow.of_eq e
  · exact Hw.only_xlatRow.of_eq e

theorem Hw.only_slipRing {region pages pos : Nat} {qs : List SlipRec} :
    h.Only xlatParts (Hw.slipRing m c x region pages h pos qs).1 := by
  induction qs generalizing h pos with
  | nil => exact .refl _ _
  | cons q qs ih =>
    rw [Hw.slipRing]
    split <;> rename_i e
    · exact Hw.only_slipWrite.of_eq e
    · rename_i g es
      have first : h.Only xlatParts g := Hw.only_slipWrite.of_eq e
      exact first.trans ih

/-- The run of a context whose slip records are kept. -/
def CtxRun.slipped (l : Tab SlipRec) (r : CtxRun) : CtxRun := { r with slips := l }

/-- The slip records that a context keeps. -/
def Hw.notedSlips (h : Hw) (c : Nat) (x : Ctx) (faulted : Bool) : Hw :=
  h.modRun c (fun r => { r with slips := (h.slipRecs x faulted).foldl (fun t q => Tab.put t (coreKey q.lc q.lk) q) r.slips })

theorem Hw.find?_notedSlips {y : Ctx} (hy : Tab.find? h.ctxs c = some y) (x : Ctx) (faulted : Bool) :
    ∃ l, Tab.find? (h.notedSlips c x faulted).ctxs c = some { y with run := y.run.slipped l } := ⟨_, Hw.find?_modCtx_same _ hy⟩

theorem Hw.writeSlips_none {faulted : Bool} (hx : Tab.find? h.ctxs c = some x) (slip : x.img.decl.slip = none) :
    h.writeSlips m c faulted = (h.notedSlips c x faulted, []) := by
  unfold Hw.writeSlips
  rw [Hw.ctx?, hx]
  dsimp only
  rw [slip]
  rfl

/-- The slip ring's position. -/
def Hw.slipsAt (h : Hw) (c n : Nat) : Hw := h.modRun c (fun r => { r with slipPos := n })

/-- Slip records are kept in the context, and then written into the ring until a walk fails. -/
theorem Hw.writeSlips_cases (h : Hw) (m : Mem) (c : Nat) (faulted : Bool) : (h.writeSlips m c faulted).1 = h ∨
    ∃ x, (h.writeSlips m c faulted).1 = h.notedSlips c x faulted ∨ ∃ g n, (h.notedSlips c x faulted).Only xlatParts g ∧
      ((h.writeSlips m c faulted).1 = g.slipsAt c n ∨ ∃ e, (h.writeSlips m c faulted).1 = (g.slipsAt c n).raise c e 0 lunitNone 0) := by
  unfold Hw.writeSlips
  split
  · exact .inl rfl
  · rename_i x _
    refine .inr ⟨x, ?_⟩
    dsimp only
    split
    · exact .inl rfl
    · rename_i d _
      refine .inr ⟨_, (x.run.slipPos + (Hw.slipRing m c x d.region d.pages (h.notedSlips c x faulted) x.run.slipPos
        (h.slipRecs x faulted)).2.2.1) % (d.pages * pageBytes / 64), Hw.only_slipRing (m := m) (c := c) (x := x) (region := d.region)
        (pages := d.pages) (pos := x.run.slipPos) (qs := h.slipRecs x faulted), ?_⟩
      split
      · exact .inl rfl
      · exact .inr ⟨_, rfl⟩

theorem Hw.only_writeSlips {faulted : Bool} : h.Only (.ctxs :: xlatParts) (h.writeSlips m c faulted).1 := by
  rcases h.writeSlips_cases m c faulted with eq | ⟨x, eq | ⟨g, n, ring, eq | ⟨e, eq⟩⟩⟩ <;> rw [eq]
  · exact .refl _ _
  · exact Hw.only_modRun.mono (by decide)
  · exact ((Hw.only_modRun.mono (by decide)).trans (ring.mono (by decide))).trans (Hw.only_modRun.mono (by decide))
  · exact (((Hw.only_modRun.mono (by decide)).trans (ring.mono (by decide))).trans (Hw.only_modRun.mono (by decide))).trans
      (Hw.only_raise.mono (by decide))

theorem Hw.sameBarrier_writeSlips {faulted : Bool} : h.Follows c Ctx.SameBarrier (h.writeSlips m c faulted).1 := by
  have noted : ∀ x, h.Follows c Ctx.SameBarrier (h.notedSlips c x faulted) := fun _ => .modCtx (fun _ => ⟨rfl, rfl, rfl, id⟩)
  have ringed : ∀ {g : Hw} {x : Ctx} (n : Nat), (h.notedSlips c x faulted).Only xlatParts g →
      h.Follows c Ctx.SameBarrier (g.slipsAt c n) := fun n ring =>
    ((noted _).trans Ctx.SameBarrier.trans (.of_only .refl ring (by decide))).trans Ctx.SameBarrier.trans (.modCtx (fun _ => ⟨rfl, rfl, rfl, id⟩))
  rcases h.writeSlips_cases m c faulted with eq | ⟨x, eq | ⟨g, n, ring, eq | ⟨e, eq⟩⟩⟩ <;> rw [eq]
  · exact fun x hx => ⟨x, hx, .refl x⟩
  · exact noted x
  · exact ringed n ring
  · exact (ringed n ring).trans Ctx.SameBarrier.trans Hw.sameBarrier_raise

/-! ### The length registers (R156) -/

theorem Hw.latchLens_none (len : x.img.decl.len = none) : h.latchLens m c x = (h, .ok []) := by
  unfold Hw.latchLens
  rw [len]

theorem Hw.only_latchLens : h.Only xlatParts (h.latchLens m c x).1 := by
  unfold Hw.latchLens
  split
  · exact .refl _ _
  · split <;> rename_i e
    · exact Hw.only_xlatRow.of_eq e
    · rename_i g p
      have first : h.Only xlatParts g := Hw.only_xlatRow.of_eq e
      split
      · exact first.trans Hw.only_pieceUe
      · exact first

/-! ### Banks (R102) -/

theorem Hw.only_bankTo {a code : Nat} : h.Only [.regs, .clus] (h.bankTo a code).1 := by
  unfold Hw.bankTo
  dsimp only
  split
  · exact Hw.only_modClus.mono (by decide)
  · split
    · exact Hw.only_setBank.mono (by decide)
    · split
      · exact Hw.only_setBank.mono (by decide)
      · split
        · exact .refl _ _
        · exact Hw.only_setBank.mono (by decide)

/-- Only a bank that goes OFF loses its contents. -/
theorem Hw.bankTo_edits {a code : Nat} (on : code ≠ 2) : (h.bankTo a code).2 = [] := by
  unfold Hw.bankTo
  dsimp only
  split
  · rfl
  · split
    · rfl
    · split <;> rfl

/-- One bank's state, after others. -/
def Hw.bankStep (acc : Hw × List Edit) (q : Nat × Nat) : Hw × List Edit :=
  ((acc.1.bankTo q.1 q.2).1, acc.2 ++ (acc.1.bankTo q.1 q.2).2)

theorem Hw.bankStates_eq (h : Hw) (plan : List (Nat × Nat)) : h.bankStates plan = plan.foldl Hw.bankStep (h, []) := rfl

theorem Hw.only_bankStates {plan : List (Nat × Nat)} : h.Only [.regs, .clus] (h.bankStates plan).1 := by
  rw [Hw.bankStates_eq]
  induction plan using List.reverseRecOn with
  | nil => exact .refl _ _
  | append_singleton l q ih =>
    rw [List.foldl_append, List.foldl_cons, List.foldl_nil]
    exact ih.trans Hw.only_bankTo

theorem Hw.bankStates_edits {plan : List (Nat × Nat)} (on : ∀ b ∈ plan, b.2 ≠ 2) : (h.bankStates plan).2 = [] := by
  rw [Hw.bankStates_eq]
  induction plan using List.reverseRecOn with
  | nil => rfl
  | append_singleton l q ih =>
    rw [List.foldl_append, List.foldl_cons, List.foldl_nil, Hw.bankStep, ih (fun b hb => on b (List.mem_append_left _ hb)),
      Hw.bankTo_edits (on q (List.mem_append_right _ (List.mem_singleton.2 rfl)))]
    rfl

end

end Sys2Proof.Machine
end

section
/-!
PROOFS. The end of a barrier, and BAR (R158, R159, R163, R217, R407).
-/
namespace Sys2Proof.Machine

/-! ## Steps 4 and 5 of a barrier -/

/-- The run of a context when its epoch is over. -/
def CtxRun.closes (len : Nat) (lens : List W32) (r : CtxRun) : CtxRun :=
  { r.epochDiff len r.barTb with lens := lens, owners := [], chans := [] }

/-- The run of a context when its next epoch is prepared. -/
def Hw.opensRun (h : Hw) (x : Ctx) (r : CtxRun) : CtxRun :=
  { h.beginEpoch x r.barTb r.barSteps r.barPace r with
    epochSeq := (r.epochSeq + 1) % 2 ^ 32, epochDesc := r.nextDesc, bar := .waking, moves := [], moved := 0 }

section
variable {c : Nat} {h : Hw} {m : Mem} {x : Ctx}

/-- A barrier ends with a condition of the length latch, with slip records that meet one, or with the next epoch. -/
theorem Hw.finishBarrier_cases (h : Hw) (m : Mem) (c : Nat) : (h.finishBarrier m c).1 = h ∨ ∃ g, h.Only xlatParts g ∧
    ((∃ e u, (h.finishBarrier m c).1 = g.raise c e u lunitNone 0) ∨ ∃ len lens k,
      k = ((g.modRun c (CtxRun.closes len lens)).writeSlips m c false).1 ∧
      ((h.finishBarrier m c).1 = k ∨ ∃ x plan, (h.finishBarrier m c).1 = ((k.modRun c (k.opensRun x)).bankStates plan).1)) := by
  unfold Hw.finishBarrier
  split
  · exact .inl rfl
  · rename_i x _
    split <;> rename_i latch
    · exact .inr ⟨_, Hw.only_latchLens.of_eq latch, .inl ⟨_, _, rfl⟩⟩
    · rename_i g lens
      refine .inr ⟨g, Hw.only_latchLens.of_eq latch, .inr ⟨x.lastArrival + 128, lens, _, rfl, ?_⟩⟩
      dsimp only
      split
      · exact .inl rfl
      · split
        · exact .inl rfl
        · exact .inr ⟨_, _, rfl⟩

/-- The parts that the end of a barrier changes. -/
def barrierParts : List Part := [.regs, .ctxs, .clus, .hbm, .xcl, .host, .logs, .hist, .out]

theorem Hw.only_finishBarrier : h.Only barrierParts (h.finishBarrier m c).1 := by
  rcases h.finishBarrier_cases m c with eq | ⟨g, first, ⟨e, u, eq⟩ | ⟨len, lens, k, hk, eq⟩⟩
  · rw [eq]
    exact .refl _ _
  · rw [eq]
    exact (first.mono (by decide)).trans (Hw.only_raise.mono (by decide))
  · have slips : h.Only barrierParts k := hk ▸ ((first.mono (by decide)).trans (Hw.only_modRun.mono (by decide))).trans
      (Hw.only_writeSlips.mono (by decide))
    rcases eq with eq | ⟨x, plan, eq⟩ <;> rw [eq]
    · exact slips
    · exact (slips.trans (Hw.only_modRun.mono (by decide))).trans (Hw.only_bankStates.mono (by decide))

theorem Hw.sameBarrier_finishBarrier : h.Follows c Ctx.SameBarrier (h.finishBarrier m c).1 := by
  rcases h.finishBarrier_cases m c with eq | ⟨g, first, ⟨e, u, eq⟩ | ⟨len, lens, k, hk, eq⟩⟩
  · rw [eq]
    exact fun x hx => ⟨x, hx, .refl x⟩
  · rw [eq]
    exact (Hw.Follows.of_only .refl first (by decide)).trans Ctx.SameBarrier.trans Hw.sameBarrier_raise
  · have slips : h.Follows c Ctx.SameBarrier k := hk ▸ ((Hw.Follows.of_only .refl first (by decide)).trans Ctx.SameBarrier.trans
      (.modRun (fun _ => ⟨rfl, rfl, rfl, id⟩))).trans Ctx.SameBarrier.trans Hw.sameBarrier_writeSlips
    rcases eq with eq | ⟨x, plan, eq⟩ <;> rw [eq]
    · exact slips
    · exact (slips.trans Ctx.SameBarrier.trans (Hw.Follows.modRun (fun _ => ⟨rfl, rfl, rfl, fun _ => rfl⟩))).trans Ctx.SameBarrier.trans
        (.of_only .refl Hw.only_bankStates (by decide))

/-- `y` is `x` at the start of its next epoch, which waits for its banks. -/
structure Ctx.Opened (x y : Ctx) : Prop where
  bar : y.run.bar = .waking
  moves : y.run.moves = []
  seq : y.run.epochSeq = (x.run.epochSeq + 1) % 2 ^ 32
  desc : y.run.epochDesc = x.run.nextDesc
  tb : y.run.epochTb = x.run.barTb
  chans : y.run.chans = []
  owners : y.run.owners = []
  host : y.host = x.host
  next : x.SameBarrier y

/-- Without a length block, slip records in HBM or a fault, a barrier ends with the next epoch. -/
theorem Hw.finishBarrier_plain (hx : Tab.find? h.ctxs c = some x) (len : x.img.decl.len = none) (slip : x.img.decl.slip = none)
    (fault : x.run.fault = none) : (∃ y, Tab.find? (h.finishBarrier m c).1.ctxs c = some y ∧ x.Opened y) ∧
      ((∀ b ∈ x.bankPlan x.run.nextDesc, b.2 ≠ 2) → (h.finishBarrier m c).2 = []) := by
  have closed : Tab.find? (h.modRun c (CtxRun.closes (x.lastArrival + 128) [])).ctxs c =
      some { x with run := x.run.closes (x.lastArrival + 128) [] } := Hw.find?_modCtx_same _ hx
  have slips := Hw.writeSlips_none (m := m) (faulted := false) closed slip
  generalize hk : (h.modRun c (CtxRun.closes (x.lastArrival + 128) [])).notedSlips c
    { x with run := x.run.closes (x.lastArrival + 128) [] } false = k at slips
  obtain ⟨l, hu⟩ := Hw.find?_notedSlips closed { x with run := x.run.closes (x.lastArrival + 128) [] } false
  rw [hk] at hu
  generalize hv : (x.run.closes (x.lastArrival + 128) []).slipped l = u at hu
  have unfaulted : u.fault = none := by
    rw [← hv]
    exact fault
  have eq : h.finishBarrier m c = ((k.modRun c (k.opensRun { x with run := u })).bankStates
      (({ x with run := u } : Ctx).bankPlan u.nextDesc)) := by
    unfold Hw.finishBarrier
    rw [Hw.ctx?, hx]
    dsimp only
    rw [Hw.latchLens_none len]
    dsimp only
    rw [show (h.modRun c (fun r => { r.epochDiff (x.lastArrival + 128) r.barTb with lens := [], owners := [], chans := [] })) =
      h.modRun c (CtxRun.closes (x.lastArrival + 128) []) from rfl, slips]
    dsimp only
    rw [Hw.ctx?, hu]
    dsimp only
    rw [if_neg (by rw [unfaulted]; nofun)]
    rfl
  rw [eq]
  have hy : Tab.find? ((k.modRun c (k.opensRun { x with run := u })).bankStates
      (({ x with run := u } : Ctx).bankPlan u.nextDesc)).1.ctxs c = some { x with run := k.opensRun { x with run := u } u } := by
    rw [Hw.only_bankStates .ctxs (by decide)]
    exact Hw.find?_modCtx_same _ hu
  subst hv
  exact ⟨⟨_, hy, rfl, rfl, rfl, rfl, rfl, rfl, rfl, rfl, ⟨rfl, rfl, rfl, fun _ => rfl⟩⟩, fun on => Hw.bankStates_edits on⟩

/-! ## Steps 2 and 3 of a barrier -/

/-- The streams of a context meet at a barrier. -/
def CtxRun.meets (r : CtxRun) (h : Hw) (x : Ctx) (desc : Nat) : CtxRun :=
  { r with nextDesc := desc, bar := .migrating, moves := h.movePlan x, barTb := h.tb, barSteps := h.clusSteps x,
           barPace := h.clusPace x }

/-- The hardware when the streams have met and the forecast is applied. -/
def Hw.meets (h : Hw) (c : Nat) (x : Ctx) (desc : Nat) : Hw := (h.modRun c (fun r => r.meets h x desc)).applyForecast c desc true

/-- The descriptor that a stream names. -/
def Ctx.names (x : Ctx) (p : Nat × Nat × Nat) : Nat := (x.place p).desc

/-- The descriptor that the lowest stream names. -/
def Ctx.firstNamed (x : Ctx) : Nat := (x.allStreams.head?.map x.names).getD 0

theorem Hw.barrier_leftover {desc : Nat} {d : ChanDecl} (left : x.leftover = some d) :
    h.barrier m c x desc = (h.leftoverFault c x d, []) := by
  unfold Hw.barrier
  rw [left]

theorem Hw.barrier_mismatch {desc : Nat} {p : Nat × Nat × Nat} (left : x.leftover = none)
    (found : x.allStreams.find? (fun p => x.names p != x.firstNamed) = some p) :
    h.barrier m c x desc = (h.barFault c x p ⟨dBarMismatch, x.barArgs p⟩, []) := by
  have found' : x.allStreams.find? (fun p => (x.run.strm (strmKey p.1 p.2.1 p.2.2)).arrival.desc !=
      (x.allStreams.head?.map (fun p => (x.run.strm (strmKey p.1 p.2.1 p.2.2)).arrival.desc)).getD 0) = some p := found
  unfold Hw.barrier
  rw [left]
  dsimp only
  rw [found']

theorem Hw.barrier_meets {desc : Nat} (left : x.leftover = none)
    (found : x.allStreams.find? (fun p => x.names p != x.firstNamed) = none) : h.barrier m c x desc =
      if (h.movePlan x).isEmpty then (h.meets c x desc).finishBarrier m c
      else ((h.meets c x desc).setFlag Fd.PLU_STATUS.MIGRATING true, []) := by
  have found' : x.allStreams.find? (fun p => (x.run.strm (strmKey p.1 p.2.1 p.2.2)).arrival.desc !=
      (x.allStreams.head?.map (fun p => (x.run.strm (strmKey p.1 p.2.1 p.2.2)).arrival.desc)).getD 0) = none := found
  unfold Hw.barrier
  rw [left]
  dsimp only
  rw [found']
  rfl

theorem Hw.only_meets {desc : Nat} : h.Only [.regs, .ctxs, .clus, .pwr] (h.meets c x desc) :=
  (Hw.only_modRun.mono (by decide)).trans Hw.only_applyForecast

theorem Hw.only_barFault {p : Nat × Nat × Nat} {e : Cond} : h.Only [.regs, .ctxs] (h.barFault c x p e) := Hw.only_strmFault
theorem Hw.only_leftoverFault {d : ChanDecl} : h.Only [.regs, .ctxs] (h.leftoverFault c x d) := Hw.only_barFault

theorem Hw.only_barrier {desc : Nat} : h.Only (.pwr :: barrierParts) (h.barrier m c x desc).1 := by
  cases left : x.leftover with
  | some d =>
    rw [Hw.barrier_leftover left]
    exact Hw.only_leftoverFault.mono (by decide)
  | none =>
    cases found : x.allStreams.find? (fun p => x.names p != x.firstNamed) with
    | some p =>
      rw [Hw.barrier_mismatch left found]
      exact Hw.only_barFault.mono (by decide)
    | none =>
      rw [Hw.barrier_meets left found]
      split
      · exact (Hw.only_meets.mono (by decide)).trans (Hw.only_finishBarrier.mono (by decide))
      · exact (Hw.only_meets.mono (by decide)).trans (Hw.only_setFlag.mono (by decide))

/-- The context of a barrier that its streams have met at. -/
theorem Hw.meets_ctx {desc : Nat} (hx : Tab.find? h.ctxs c = some x) : ∃ y, Tab.find? (h.meets c x desc).ctxs c = some y ∧
    y.host = x.host ∧ y.run.nextDesc = desc ∧ y.run.barTb = h.tb ∧ y.run.fault = x.run.fault ∧ y.run.epochSeq = x.run.epochSeq := by
  have met : Tab.find? (h.modRun c (fun r => r.meets h x desc)).ctxs c = some { x with run := x.run.meets h x desc } :=
    Hw.find?_modCtx_same _ hx
  obtain ⟨y, hy, paced⟩ := Hw.follows_applyForecast (c := c) (e := c) (d := desc) (past := true) _ met
  obtain ⟨host, fault, seq⟩ := paced.same
  obtain ⟨next, tb, -, -⟩ := paced.sameBarrier
  refine ⟨y, ?_, host, next, tb, fault, seq⟩
  rw [Hw.meets]
  exact hy

/-- Where every stream names one descriptor, the barrier is for it. -/
theorem Hw.barrier_notes {desc : Nat} (hx : Tab.find? h.ctxs c = some x) (left : x.leftover = none)
    (found : x.allStreams.find? (fun p => x.names p != x.firstNamed) = none) :
    ∃ y, Tab.find? (h.barrier m c x desc).1.ctxs c = some y ∧ y.run.nextDesc = desc ∧ y.run.barTb = h.tb := by
  obtain ⟨y, hy, -, next, tb, -⟩ := Hw.meets_ctx (desc := desc) hx
  rw [Hw.barrier_meets left found]
  split
  · obtain ⟨z, hz, next', tb', -, -⟩ := Hw.sameBarrier_finishBarrier (m := m) y hy
    exact ⟨z, hz, next'.trans next, tb'.trans tb⟩
  · exact ⟨y, by rw [Hw.setFlag_ctxs]; exact hy, next, tb⟩

/-- No page of a pinned placement moves (R219). -/
theorem Hw.movePlan_pinned (pinned : ∀ p, x.host.place = some p → p.pinned = true) : h.movePlan x = [] := by
  unfold Hw.movePlan
  split
  · rfl
  · rename_i p hp
    exact if_pos (.inl (pinned p hp))

/-- A barrier without moves, length block and slip region prepares the next epoch. -/
theorem Hw.barrier_opens {desc : Nat} (hx : Tab.find? h.ctxs c = some x) (left : x.leftover = none)
    (found : x.allStreams.find? (fun p => x.names p != x.firstNamed) = none) (still : h.movePlan x = [])
    (len : x.img.decl.len = none) (slip : x.img.decl.slip = none) (fault : x.run.fault = none) :
    (∃ y, Tab.find? (h.barrier m c x desc).1.ctxs c = some y ∧ y.run.nextDesc = desc ∧ y.run.barTb = h.tb ∧ y.run.bar = .waking ∧
      y.run.moves = [] ∧ y.run.epochSeq = (x.run.epochSeq + 1) % 2 ^ 32 ∧ y.run.epochDesc = desc ∧ y.run.epochTb = h.tb ∧
      y.run.chans = [] ∧ y.run.owners = []) ∧
    ((∀ b ∈ x.bankPlan desc, b.2 ≠ 2) → (h.barrier m c x desc).2 = []) := by
  obtain ⟨y, hy, host, next, tb, fault', seq⟩ := Hw.meets_ctx (desc := desc) hx
  have img : y.img = x.img := by rw [Ctx.img, host, ← Ctx.img]
  obtain ⟨⟨z, hz, opened⟩, quiet⟩ := Hw.finishBarrier_plain (m := m) hy (by rw [img]; exact len) (by rw [img]; exact slip)
    (fault'.trans fault)
  have plan : y.bankPlan y.run.nextDesc = x.bankPlan desc := by
    rw [next]
    unfold Ctx.bankPlan Ctx.core? Ctx.clus?
    rw [img, host]
  rw [Hw.barrier_meets left found, still]
  rw [plan] at quiet
  exact ⟨⟨z, hz, opened.next.next.trans next, opened.next.tb.trans tb, opened.bar, opened.moves, opened.seq.trans (by rw [seq]),
    opened.desc.trans next, opened.tb.trans tb, opened.chans, opened.owners⟩, quiet⟩

end

end Sys2Proof.Machine
end

section
/-!
PROOFS. The row of a BAR or HALT: what it leaves alone, and the outcomes that the two share (R158, R159, R163).
-/
namespace Sys2Proof.Machine

/-! ## The row -/

/-- The effect of the row of a BAR or HALT whose stream has arrived: `x` is its context, `es` what its reads found, and `last` what the
last arrival does. -/
def endEff (c : Nat) (x : Ctx) (h : Hw) (es : List Edit) (last : Hw → Hw × List Edit) : Eff :=
  match x.streamEnd with
  | some p => { hw := h.barFault c x p ⟨dStreamEnd, x.barArgs p⟩, edits := es }
  | none =>
    if x.allStreams.all x.hasArrived then { hw := (last (h.underflow c)).1, edits := es ++ (last (h.underflow c)).2 }
    else { hw := h.underflow c, edits := es }

section
variable {c : Nat} {x : Ctx} {h : Hw} {es : List Edit} {last : Hw → Hw × List Edit}

theorem endEff_burn : (endEff c x h es last).burn = [] := by
  unfold endEff
  split
  · rfl
  · split <;> rfl

theorem only_endEff {ps : List Part} (last_only : ∀ k : Hw, k.Only ps (last k).1) (sub : ∀ p ∈ [Part.regs, Part.ctxs], p ∈ ps) :
    h.Only ps (endEff c x h es last).hw := by
  unfold endEff
  split
  · exact Hw.only_barFault.mono sub
  · split
    · exact (Hw.only_underflow.mono sub).trans (last_only _)
    · exact Hw.only_underflow.mono sub

end

section
variable {r : StreamRef} {sn : Seen} {s : State} {x : Ctx} {h : Hw}

/-- What the last stream at a BAR does. -/
def barLast (r : StreamRef) (sn : Seen) (s : State) (x : Ctx) (h : Hw) : Hw × List Edit :=
  h.barrier (s.mem.seen sn) r.ctx x (x.place (ownStream r)).desc

theorem barEff_none (e : (s.hw.seen sn).arrive r 3 = none) : barEff r sn s = { hw := s.hw } := by
  unfold barEff
  rw [e]
theorem barEff_some (e : (s.hw.seen sn).arrive r 3 = some (x, h)) :
    barEff r sn s = endEff r.ctx x h (seenEdits sn) (barLast r sn s x) := by
  unfold barEff endEff
  rw [e]
  dsimp only
  cases x.streamEnd with
  | some p => rfl
  | none => rfl

theorem haltEff_none (e : s.hw.arrive r 4 = none) : haltEff r s = { hw := s.hw } := by
  unfold haltEff
  rw [e]
theorem haltEff_some (e : s.hw.arrive r 4 = some (x, h)) :
    haltEff r s = endEff r.ctx x h [] (fun k => k.endCtx s.mem r.ctx x) := by
  unfold haltEff endEff
  rw [e]
  dsimp only
  cases x.streamEnd with
  | some p => rfl
  | none => rfl

end

/-! ## The arrival, as the row sees it -/

/-- In `h` the stream `r` of a context has arrived at its BAR or HALT `w`: the context was `x` and is `y`. -/
structure Arrived (s : State) (r : StreamRef) (op w : Nat) (x y : Ctx) (h : Hw) : Prop where
  before : Tab.find? s.hw.ctxs r.ctx = some x
  after : x.After y r (arrivalOf op w)
  now : Tab.find? h.ctxs r.ctx = some y
  others : ∀ d, d ≠ r.ctx.val → Tab.find? h.ctxs d = Tab.find? s.hw.ctxs d
  tb : h.tb = s.hw.tb
  own : ∃ steps, y.run.strm (keyOf r) = (x.run.strm (keyOf r)).arrives (arrivalOf op w) s.hw.tb steps r.strm
  strms : ∀ q, q ≠ keyOf r → y.run.strm q = x.run.strm q
  bar : y.run.bar = .none
  fault : y.run.fault = x.run.fault
  seq : y.run.epochSeq = x.run.epochSeq

section
variable {s : State} {r : StreamRef} {op w k : Nat} {x y : Ctx} {g h : Hw}

/-- A stream that may start its BAR or HALT arrives. -/
theorem arrives (ctxs : g.ctxs = s.hw.ctxs) (tb : g.tb = s.hw.tb) (hx : Tab.find? s.hw.ctxs r.ctx = some x)
    (hw : x.nextWord (keyOf r) = some w) (hk : x.core? r.lc r.lk = some k) (ends : op = 3 ∨ op = 4) (hop : opcOf w = op)
    (admits : g.admits x r.lc r.lk r.strm = true) : ∃ y h, g.arrive r op = some (y, h) ∧ Arrived s r op w x y h ∧ g.Only [.ctxs] h := by
  have hx' : Tab.find? g.ctxs r.ctx = some x := by rw [ctxs]; exact hx
  obtain ⟨-, -, bar, -, core, -⟩ := (Hw.admits_end hw (hop ▸ ends)).1 admits
  refine ⟨_, _, Hw.arrive_some hx' hw hk hop admits, ⟨hx, Ctx.after_arrives r _ _ _ core, Hw.find?_modCtx_same _ hx',
    fun d hd => ?_, tb, ⟨g.steps (k / 9), ?_⟩, fun q hq => x.run.arrives_other r _ _ _ hq, bar, rfl, rfl⟩, Hw.only_modRun⟩
  · rw [← ctxs]
    exact Hw.find?_modCtx_other _ hd
  · rw [← tb]
    exact x.run.arrives_strm r _ _ _

theorem admits_ctxs (hw : x.nextWord (keyOf r) = some w) (ends : opcOf w = 3 ∨ opcOf w = 4) :
    g.admits x r.lc r.lk r.strm = h.admits x r.lc r.lk r.strm :=
  Bool.eq_iff_iff.2 ((Hw.admits_end hw ends).trans (Hw.admits_end hw ends).symm)

theorem arrivalOf_some (op w : Nat) : arrivalOf op w ≠ .none := by
  unfold arrivalOf
  split <;> nofun
theorem arrivalOf_halt : arrivalOf op w = .halt ↔ op = 4 := by
  unfold arrivalOf
  split
  · simp [*]
  · simp [*]

end

/-! ## The outcomes that BAR and HALT share -/

section
variable {s t : State} {r : StreamRef} {op w : Nat} {x y : Ctx} {h : Hw} {es : List Edit} {last : Hw → Hw × List Edit}
  {p : Nat × Nat × Nat}

/-- The place of another stream. -/
theorem Arrived.raised (a : Arrived s r op w x y h) (placed : x.Placed) (hp : p ∈ y.allStreams) {e : Cond}
    (eq : t.hw = h.barFault r.ctx y p e) : Raised s t r.ctx e.detail :=
  raised_strmFault a.before a.now a.after.host a.fault a.tb (a.after.placed placed hp) (fun _ _ => eq)

theorem Arrived.raised_leftover (a : Arrived s r op w x y h) (placed : x.Placed) {d : ChanDecl} (left : y.leftover = some d)
    (eq : t.hw = h.leftoverFault r.ctx y d) : Raised s t r.ctx dTokenLeftover :=
  a.raised placed (Ctx.leftover_mem left) eq

/-- Streams at HALT and at BAR in one epoch (R159). -/
theorem Arrived.ends (a : Arrived s r op w x y h) (placed : x.Placed) (quiet : Mem.But [] s.mem (s.mem.edit es))
    (eq : t = s.commit (endEff r.ctx y h es last)) (other : ∃ p ∈ x.others r, x.place p ≠ .none ∧ (x.place p = .halt ↔ op ≠ 4)) :
    Raised s t r.ctx dStreamEnd ∧ Mem.But [] s.mem t.mem := by
  obtain ⟨p, hp, arrived, kind⟩ := other
  obtain ⟨q, hq⟩ := Option.ne_none_iff_exists'.1
    (a.after.streamEnd_some (arrivalOf_some op w) arrivalOf_halt hp arrived kind)
  have eff : endEff r.ctx y h es last = { hw := h.barFault r.ctx y q ⟨dStreamEnd, y.barArgs q⟩, edits := es } := by
    unfold endEff
    rw [hq]
  rw [eff] at eq
  refine ⟨a.raised placed (Ctx.streamEnd_mem hq) (e := ⟨dStreamEnd, y.barArgs q⟩) (by rw [eq]; rfl), ?_⟩
  rw [eq, State.commit_mem]
  exact quiet

/-- A stream that is not the last waits at its BAR or HALT. -/
theorem Arrived.waits (a : Arrived s r op w x y h) (quiet : Mem.But [] s.mem (s.mem.edit es))
    (eq : t = s.commit (endEff r.ctx y h es last)) (other : ∃ p ∈ x.others r, x.place p = .none) :
    StreamAlone s t r.ctx (keyOf r) ∧ Mem.But [] s.mem t.mem ∧ ∃ z, Tab.find? t.hw.ctxs r.ctx = some z ∧
      (z.run.strm (keyOf r)).arrival = arrivalOf op w ∧ (z.run.strm (keyOf r)).arriveTb = s.hw.tb ∧
      (z.run.strm (keyOf r)).pc = (x.run.strm (keyOf r)).pc ∧ z.run.bar = .none := by
  obtain ⟨p, hp, none⟩ := other
  have notAll : ¬ (y.allStreams.all y.hasArrived = true) := fun all => by
    have arrived := Ctx.hasArrived_iff.1 (List.all_eq_true.1 all p (a.after.mem hp))
    exact arrived ((a.after.others p hp).trans none)
  have eff : h.Keeps r.ctx (endEff r.ctx y h es last).hw ∧ (endEff r.ctx y h es last).edits = es := by
    unfold endEff
    split
    · exact ⟨Hw.keeps_strmFault, rfl⟩
    · rw [if_neg notAll]
      exact ⟨Hw.keeps_underflow, rfl⟩
  obtain ⟨keeps, edits⟩ := eff
  have hw : t.hw = (endEff r.ctx y h es last).hw := by rw [eq]; rfl
  rw [← hw] at keeps
  obtain ⟨z, hz, kept⟩ := keeps.ctx y a.now
  obtain ⟨steps, own⟩ := a.own
  refine ⟨⟨fun d hd => (keeps.others d hd).trans (a.others d hd), fun x' hx' => ?_⟩, ?_, z, hz, ?_, ?_, ?_, kept.bar.trans a.bar⟩
  · obtain rfl := Option.some.inj (a.before.symm.trans hx')
    exact ⟨z, hz, by rw [kept.image, a.after.host], by rw [kept.place, a.after.host],
      fun q hq => (kept.strm q).trans (a.strms q hq)⟩
  · rw [eq, State.commit_mem, edits]
    exact quiet
  · rw [kept.strm, own]
    rfl
  · rw [kept.strm, own]
    rfl
  · rw [kept.strm, own]
    rfl

/-- The last arrival, where every stream is at a BAR or every one at HALT. -/
theorem Arrived.ended (a : Arrived s r op w x y h) (all : ∀ p ∈ x.others r, x.place p ≠ .none ∧ (x.place p = .halt ↔ op = 4)) :
    endEff r.ctx y h es last = { hw := (last h).1, edits := es ++ (last h).2 } := by
  have arrived := a.after.arrived (arrivalOf_some op w) (fun p hp => (all p hp).1)
  unfold endEff
  rw [a.after.streamEnd_none arrivalOf_halt all, Hw.underflow_arrived a.now arrived]
  exact if_pos (List.all_eq_true.2 arrived)

/-- A channel with tokens left over, at the last arrival (R163). -/
theorem Arrived.leftover (a : Arrived s r op w x y h) (placed : x.Placed) (quiet : Mem.But [] s.mem (s.mem.edit es))
    (eq : t = s.commit (endEff r.ctx y h es last)) (all : ∀ p ∈ x.others r, x.place p ≠ .none ∧ (x.place p = .halt ↔ op = 4))
    (faults : ∀ d, y.leftover = some d → last h = (h.leftoverFault r.ctx y d, [])) (left : x.leftover ≠ none) :
    Raised s t r.ctx dTokenLeftover ∧ Mem.But [] s.mem t.mem := by
  obtain ⟨d, hd⟩ := Option.ne_none_iff_exists'.1 left
  rw [← a.after.leftover] at hd
  rw [a.ended all, faults d hd] at eq
  refine ⟨a.raised_leftover placed hd (by rw [eq]; rfl), ?_⟩
  rw [eq, State.commit_mem, List.append_nil]
  exact quiet

end

/-! ## BAR (R158) -/

section
variable {s t : State} {r : StreamRef} {sn : Seen} {w : Nat} {x y : Ctx} {h : Hw}

theorem only_bar : s.hw.Only (.pwr :: barrierParts) (barEff r sn s).hw := by
  rcases (s.hw.seen sn).arrive_cases r 3 with none | ⟨x, w, k, hx, hw, hk, op, admits⟩
  · rw [barEff_none none]
    exact .refl _ _
  · have noted := Hw.noted_seen s.hw sn
    obtain ⟨y, h, eq, -, only⟩ := arrives (s := s) noted.ctxs noted.tb (by rw [← noted.ctxs]; exact hx) hw hk (.inl rfl) op admits
    rw [barEff_some eq]
    exact ((noted.only.mono (by decide)).trans (only.mono (by decide))).trans (only_endEff (fun _ => Hw.only_barrier) (by decide))

theorem bar_burn : (barEff r sn s).burn = [] := by
  cases e : (s.hw.seen sn).arrive r 3 with
  | none => rw [barEff_none e]
  | some q => rw [barEff_some (x := q.1) (h := q.2) e, endEff_burn]

/-- The descriptors that streams at BAR name, and the one that the arrived stream does. -/
theorem Arrived.named (a : Arrived s r 3 w x y h) : y.place (ownStream r) = .bar (bitsAt w 82 10) := a.after.own

/-- Where some stream names another descriptor, one that differs from the lowest stream's is found. -/
theorem Arrived.mismatch (a : Arrived s r 3 w x y h) (all : ∀ p ∈ x.others r, x.place p ≠ .none ∧ (x.place p = .halt ↔ 3 = 4))
    (other : ∃ p ∈ x.others r, x.place p ≠ .bar (bitsAt w 82 10)) :
    ∃ q, y.allStreams.find? (fun p => y.names p != y.firstNamed) = some q := by
  obtain ⟨p, hp, ne⟩ := other
  rw [← Option.ne_none_iff_exists']
  intro none
  have same : ∀ q ∈ y.allStreams, y.names q = y.firstNamed := fun q hq => by
    have := List.find?_eq_none.1 none q hq
    simpa using this
  have eq : y.names p = y.names (ownStream r) := (same p (a.after.mem hp)).trans (same _ a.after.here).symm
  rw [Ctx.names, Ctx.names, a.named, a.after.others p hp] at eq
  obtain ⟨some, halt⟩ := all p hp
  cases at' : x.place p with
  | none => exact some at'
  | halt => exact absurd (halt.1 at') (by decide)
  | bar d =>
    rw [at'] at eq ne
    exact ne (congrArg Arrival.bar eq)

/-- Where every stream names one descriptor, none differs. -/
theorem Arrived.agree (a : Arrived s r 3 w x y h) (all : ∀ p ∈ x.others r, x.place p = .bar (bitsAt w 82 10)) :
    y.allStreams.find? (fun p => y.names p != y.firstNamed) = none := by
  have same : ∀ p ∈ y.allStreams, y.names p = bitsAt w 82 10 := fun p hp => by
    have at' : y.place p = .bar (bitsAt w 82 10) := by
      rcases a.after.cases hp with rfl | mem
      · exact a.named
      · exact (a.after.others p mem).trans (all p mem)
    rw [Ctx.names, at']
    rfl
  have first : y.firstNamed = bitsAt w 82 10 := by
    obtain ⟨q, l, cons⟩ := List.exists_cons_of_ne_nil (List.ne_nil_of_mem a.after.here)
    rw [Ctx.firstNamed, cons]
    exact same q (by rw [cons]; exact List.mem_cons_self)
  exact List.find?_eq_none.2 (fun p hp => by rw [same p hp, first]; simp)

/-- The outcomes of the last BAR (R158, R163). -/
theorem Arrived.bars (a : Arrived s r 3 w x y h) (placed : x.Placed)
    (eq : t = s.commit (endEff r.ctx y h (seenEdits sn) (barLast r sn s y)))
    (all : ∀ p ∈ x.others r, x.place p ≠ .none ∧ (x.place p = .halt ↔ 3 = 4)) (left : x.leftover = none) :
    ((∃ p ∈ x.others r, x.place p ≠ .bar (bitsAt w 82 10)) → Raised s t r.ctx dBarMismatch ∧ Mem.But [] s.mem t.mem) ∧
    ((∀ p ∈ x.others r, x.place p = .bar (bitsAt w 82 10)) →
      ∃ z, Tab.find? t.hw.ctxs r.ctx = some z ∧ z.run.nextDesc = bitsAt w 82 10 ∧ z.run.barTb = s.hw.tb ∧
        ((∀ p, x.host.place = some p → p.pinned = true) → x.img.decl.len = none → x.img.decl.slip = none → x.run.fault = none →
          z.run.bar = .waking ∧ z.run.moves = [] ∧ z.run.epochSeq = (x.run.epochSeq + 1) % 2 ^ 32 ∧
          z.run.epochDesc = bitsAt w 82 10 ∧ z.run.epochTb = s.hw.tb ∧ z.run.chans = [] ∧ z.run.owners = [] ∧
          ((∀ b ∈ x.bankPlan (bitsAt w 82 10), b.2 ≠ 2) → Mem.But [] s.mem t.mem))) := by
  have left' : y.leftover = none := a.after.leftover.trans left
  rw [a.ended all, barLast, a.named] at eq
  have thw : t.hw = (h.barrier (s.mem.seen sn) r.ctx y (bitsAt w 82 10)).1 := by rw [eq]; rfl
  have tmem : t.mem = s.mem.edit (seenEdits sn ++ (h.barrier (s.mem.seen sn) r.ctx y (bitsAt w 82 10)).2) := by
    rw [eq, State.commit_mem]
    rfl
  have quiet : (h.barrier (s.mem.seen sn) r.ctx y (bitsAt w 82 10)).2 = [] → Mem.But [] s.mem t.mem := fun none => by
    rw [tmem, none, List.append_nil]
    exact Mem.but_seenEdits _ _
  refine ⟨fun other => ?_, fun agree => ?_⟩
  · obtain ⟨q, hq⟩ := a.mismatch all other
    have fault := Hw.barrier_mismatch (h := h) (m := s.mem.seen sn) (c := r.ctx) (desc := bitsAt w 82 10) left' hq
    refine ⟨a.raised placed (List.mem_of_find?_eq_some hq) (e := ⟨dBarMismatch, y.barArgs q⟩) (by rw [thw, fault]), quiet ?_⟩
    rw [fault]
  · have found := a.agree agree
    by_cases plain : (∀ p, x.host.place = some p → p.pinned = true) ∧ x.img.decl.len = none ∧ x.img.decl.slip = none ∧
        x.run.fault = none
    · obtain ⟨pinned, len, slip, fault⟩ := plain
      obtain ⟨⟨z, hz, next, tb, bar, moves, seq, desc, epoch, chans, owners⟩, banks⟩ :=
        Hw.barrier_opens (m := s.mem.seen sn) (desc := bitsAt w 82 10) a.now left' found
          (Hw.movePlan_pinned (by rw [a.after.host]; exact pinned)) (by rw [a.after.img]; exact len) (by rw [a.after.img]; exact slip)
          (a.fault.trans fault)
      have plan : y.bankPlan (bitsAt w 82 10) = x.bankPlan (bitsAt w 82 10) := by
        unfold Ctx.bankPlan Ctx.core? Ctx.clus?
        rw [a.after.img, a.after.host]
      rw [plan] at banks
      exact ⟨z, by rw [thw]; exact hz, next, tb.trans a.tb, fun _ _ _ _ => ⟨bar, moves, seq.trans (by rw [a.seq]), desc,
        epoch.trans a.tb, chans, owners, fun on => quiet (banks on)⟩⟩
    · obtain ⟨z, hz, next, tb⟩ := Hw.barrier_notes (m := s.mem.seen sn) (desc := bitsAt w 82 10) a.now left' found
      exact ⟨z, by rw [thw]; exact hz, next, tb.trans a.tb, fun pinned len slip fault => absurd ⟨pinned, len, slip, fault⟩ plain⟩

end

end Sys2Proof.Machine
end

section
/-!
PROOFS. The release of what a context holds, the completion of its commands, and HALT (R64, R101, R104, R136, R159, R200, R330, R335).
-/
namespace Sys2Proof.Machine

/-! ## Commands that complete (R330) -/

section
variable {h : Hw} {f : Cmd → Bool} {st : Nat} {p : List Nat} {b : List Byte}

theorem Hw.cmds_send (h : Hw) (i : Nat) (u : Bool) (t o c : Nat) (p : List Nat) (b : List Byte) :
    (h.send i u t o c p b).host.cmds = h.host.cmds := by
  unfold Hw.send
  split <;> rfl

theorem Hw.cmds_finish (h : Hw) (k : Cmd) (st : Nat) (p : List Nat) (b : List Byte) :
    (h.finish k st p b).host.cmds = h.host.cmds.erase k := congrArg (fun l => List.erase l k) (Hw.cmds_send h _ _ _ _ _ _ _)

theorem Hw.cmds_foldl_finish (l : List Cmd) (h : Hw) :
    (l.foldl (fun h c => h.finish c st p b) h).host.cmds = h.host.cmds.diff l := by
  induction l generalizing h with
  | nil => rw [List.foldl_nil, List.diff_nil]
  | cons k l ih => rw [List.foldl_cons, ih, Hw.cmds_finish, List.diff_cons]

/-- No command that completes stays outstanding. -/
theorem Hw.cmds_finishAll {k : Cmd} (hk : k ∈ (h.finishAll f st p b).host.cmds) : f k = false := by
  rw [Hw.finishAll, Hw.cmds_foldl_finish] at hk
  rw [Bool.eq_false_iff]
  intro fk
  have some := List.count_pos_iff.2 hk
  rw [List.count_diff, List.count_filter fk] at some
  omega

end

/-! ## What a context holds -/

/-- The physical cores and clusters of a context, and their banks. -/
def Ctx.coresOf (x : Ctx) : List Nat := x.img.cores.filterMap (fun (lc, lk) => x.core? lc lk)
def Ctx.clustersOf (x : Ctx) : List Nat := (x.host.place.map (fun q => q.clusters.map Prod.snd)).getD []
def Ctx.banksOf (x : Ctx) : List Nat := x.coresOf.flatMap coreBanks ++ x.clustersOf.flatMap clusBanks

/-- The engines of a context are cleared, and a migration of it is over. -/
def Hw.idled (h : Hw) (x : Ctx) : Hw :=
  x.coresOf.foldl (fun h k => h.clearEngines k x.host.job)
    (if x.run.bar = .migrating then h.setFlag Fd.PLU_STATUS.MIGRATING false else h)

/-- No cached translation and no walk of a context is left. -/
def Hw.unmapped (h : Hw) (c : Nat) : Hw :=
  { h.invalidate (fun e => e.ctx == c) with
    xcl := (h.invalidate (fun e => e.ctx == c)).xcl.map (fun (w, t) => (w, { t with walks := t.walks.filter (fun q => q.1 != c) })) }

/-- No binding of the host network to a context is left. -/
def Hw.unbound (h : Hw) (c : Nat) : Hw :=
  { h with rdma := { h.rdma with
    mrs := h.rdma.mrs.filter (fun b => b.ctx != c),
    qps := h.rdma.qps.map (fun q => if (q.ring.map (·.ctx)) = some c then { q with ring := none } else q) } }

/-- A context without its placement and streams. -/
def Ctx.unplaced (x : Ctx) : Ctx :=
  { host := { x.host with place := none },
    run := { x.run with streams := [], chans := [], owners := [], holds := [], bar := .none, moves := [] } }

/-- Clusters without the paces that their context was given. -/
def Hw.unpaced (h : Hw) (cls : List Nat) : Hw :=
  { h with pwr := { h.pwr with
    preset := h.pwr.preset.filter (fun q => !cls.contains q.1),
    capLim := h.pwr.capLim.filter (fun q => !cls.contains q.1) } }

section
variable {h : Hw} {c : Nat} {x : Ctx} {fence : Bool}

theorem Hw.releaseCtx_none (hx : Tab.find? h.ctxs c = none) : h.releaseCtx c fence = (h, []) := by
  unfold Hw.releaseCtx
  rw [Hw.ctx?, hx]

theorem Hw.releaseCtx_eq (hx : Tab.find? h.ctxs c = some x) : h.releaseCtx c fence =
    (((((((((h.idled x).banksOff x.banksOf).1.unmapped c).releaseColls c fence).unbound c).modCtx c Ctx.unplaced).unpaced
      x.clustersOf).repace),
      if x.host.place.isSome then ((h.idled x).banksOff x.banksOf).2 ++ [.clear (mapAddr c 0 0 0) (256 * 2 ^ 24 * 64)]
      else ((h.idled x).banksOff x.banksOf).2) := by
  unfold Hw.releaseCtx Hw.idled Hw.unmapped Hw.unbound Ctx.unplaced Hw.unpaced Ctx.banksOf Ctx.coresOf Ctx.clustersOf
  rw [Hw.ctx?, hx]

theorem Hw.only_clearEngines {k job : Nat} : h.Only [.regs, .cores, .logs, .out, .host, .hist] (h.clearEngines k job) := by
  have event : ∀ (g : Hw) (p e d j a : Nat), g.Only [.regs, .cores, .logs, .out, .host, .hist] (g.unitEvent p e d j a) :=
    fun _ _ _ _ _ _ => (Hw.only_suspect.mono (by decide)).trans (Hw.only_resources.mono (by decide))
  have dropped : ∀ g : Hw, g.Only [.regs, .cores, .logs, .out, .host, .hist] { g with cores := g.cores.drop k } :=
    fun g q hq => by
      cases q
      case cores => simp at hq
      all_goals rfl
  unfold Hw.clearEngines
  refine Hw.Only.trans (Hw.Only.trans (Hw.Only.trans (Hw.Only.trans (Hw.Only.foldl _ _ _ (fun g e _ => ?_)) (dropped _))
    (Hw.only_setReg.mono (by decide))) (Hw.only_setReg.mono (by decide))) (Hw.only_setReg.mono (by decide))
  split
  · exact event _ _ _ _ _ _
  · exact .refl _ _

theorem Hw.only_idled : h.Only [.regs, .cores, .logs, .out, .host, .hist] (h.idled x) :=
  Hw.Only.trans (.ite (Hw.only_setFlag.mono (by decide)) (.refl _ _)) (Hw.Only.foldl _ _ _ (fun _ _ _ => Hw.only_clearEngines))

theorem Hw.only_bankOff {a : Nat} : h.Only [.regs, .clus] (h.bankOff a).1 := by
  unfold Hw.bankOff
  dsimp only
  split
  · exact Hw.only_modClus.mono (by decide)
  · exact Hw.only_setBank.mono (by decide)

/-- One bank goes OFF, after others. -/
def Hw.bankOffStep (acc : Hw × List Edit) (a : Nat) : Hw × List Edit := ((acc.1.bankOff a).1, acc.2 ++ (acc.1.bankOff a).2)

theorem Hw.banksOff_eq (h : Hw) (as : List Nat) : h.banksOff as = as.foldl Hw.bankOffStep (h, []) := rfl

theorem Hw.only_banksOff {as : List Nat} : h.Only [.regs, .clus] (h.banksOff as).1 := by
  rw [Hw.banksOff_eq]
  induction as using List.reverseRecOn with
  | nil => exact .refl _ _
  | append_singleton l a ih =>
    rw [List.foldl_append, List.foldl_cons, List.foldl_nil]
    exact ih.trans Hw.only_bankOff

/-- Banks that go OFF lose their own contents. -/
theorem Hw.banksOff_edits {as : List Nat} {e : Edit} (he : e ∈ (h.banksOff as).2) : ∃ a ∈ as, e = .clear a (bankLen a) := by
  rw [Hw.banksOff_eq] at he
  induction as using List.reverseRecOn with
  | nil => cases he
  | append_singleton l a ih =>
    rw [List.foldl_append, List.foldl_cons, List.foldl_nil, Hw.bankOffStep] at he
    rcases List.mem_append.1 he with mem | mem
    · obtain ⟨b, hb, eq⟩ := ih mem
      exact ⟨b, List.mem_append_left _ hb, eq⟩
    · refine ⟨a, List.mem_append_right _ (List.mem_singleton.2 rfl), ?_⟩
      unfold Hw.bankOff at mem
      dsimp only at mem
      split at mem
      · cases mem
      · exact List.mem_singleton.1 mem

theorem Hw.only_unmapped : h.Only [.xcl] (h.unmapped c) := Hw.only_xclField
theorem Hw.only_unbound : h.Only [.rdma] (h.unbound c) := fun q hq => by
  cases q
  case rdma => simp at hq
  all_goals rfl
theorem Hw.only_unpaced {cls : List Nat} : h.Only [.pwr] (h.unpaced cls) := Hw.only_pwrField

theorem Hw.only_modGrp {g : Nat} {f : Grp → Grp} : h.Only [.cve] (h.modGrp g f) := Hw.only_cveField

theorem Hw.only_releaseColls : h.Only [.regs, .cve] (h.releaseColls c fence) := by
  unfold Hw.releaseColls
  dsimp only
  refine (Hw.only_cveField.mono (by decide)).trans (Hw.Only.foldl _ _ _ (fun k g _ => ?_))
  have clear : k.Only [.regs, .cve] ((k.setFlag (Fd.CVE_GRP_W1.BOUND g) false).setFld (Fd.CVE_GRP_W3.CTX g) 0) :=
    (Hw.only_setFlag.mono (by decide)).trans (Hw.only_setFld.mono (by decide))
  split
  · exact (clear.trans (Hw.only_setFlag.mono (by decide))).trans (Hw.only_modGrp.mono (by decide))
  · exact clear.trans (Hw.only_modGrp.mono (by decide))

/-- The parts that the release of a context changes. -/
def releaseParts : List Part := [.regs, .ctxs, .cores, .clus, .xcl, .cve, .rdma, .pwr, .host, .logs, .hist, .out]

/-- What is released before the context itself. -/
theorem Hw.only_unbound_of : h.Only (releaseParts.filter (· != .ctxs))
    (((((h.idled x).banksOff x.banksOf).1.unmapped c).releaseColls c fence).unbound c) :=
  ((((Hw.only_idled.mono (by decide)).trans (Hw.only_banksOff.mono (by decide))).trans (Hw.only_unmapped.mono (by decide))).trans
    (Hw.only_releaseColls.mono (by decide))).trans (Hw.only_unbound.mono (by decide))

theorem Hw.only_releaseCtx : h.Only releaseParts (h.releaseCtx c fence).1 := by
  cases hx : Tab.find? h.ctxs c with
  | none =>
    rw [Hw.releaseCtx_none hx]
    exact .refl _ _
  | some x =>
    rw [Hw.releaseCtx_eq hx]
    have freed := (Hw.only_unbound_of (h := h) (c := c) (x := x) (fence := fence)).mono (by decide : ∀ p ∈ _, p ∈ releaseParts)
    generalize ((((h.idled x).banksOff x.banksOf).1.unmapped c).releaseColls c fence).unbound c = k at freed
    exact ((freed.trans (Hw.only_modCtx.mono (by decide))).trans (Hw.only_unpaced.mono (by decide))).trans
      ((Hw.repaced_repace _).only.mono (by decide))

/-- A context that has released what it holds has no placement. -/
theorem Hw.releaseCtx_ctx (hx : Tab.find? h.ctxs c = some x) : ∃ y, Tab.find? (h.releaseCtx c fence).1.ctxs c = some y ∧
    y.host = { x.host with place := none } := by
  have freed : Tab.find? (((((h.idled x).banksOff x.banksOf).1.unmapped c).releaseColls c fence).unbound c).ctxs c = some x := by
    rw [Hw.only_unbound_of .ctxs (by decide)]
    exact hx
  have gone := Hw.find?_modCtx_same Ctx.unplaced freed
  rw [← Hw.only_unpaced (cls := x.clustersOf) .ctxs (by decide)] at gone
  obtain ⟨y, hy, paced⟩ := Hw.follows_repace _ gone
  rw [Hw.releaseCtx_eq hx]
  exact ⟨y, hy, paced.same.1⟩

/-- The release clears banks and the context's map, and leaves HBM below the maps as it is. -/
theorem Hw.releaseCtx_spares {z : Nat} (hx : Tab.find? h.ctxs c = some x) (cores : ∀ k ∈ x.coresOf, k < 576)
    (clusters : ∀ k ∈ x.clustersOf, k < 64) (lo : 2 ^ 44 ≤ z) (hi : z < 2 ^ 46) : ∀ e ∈ (h.releaseCtx c fence).2, e.spares z := by
  have banks : ∀ e ∈ ((h.idled x).banksOff x.banksOf).2, e.spares z := fun e he => by
    obtain ⟨a, ha, rfl⟩ := Hw.banksOff_edits he
    have low : a + bankLen a ≤ 2 ^ 44 := by
      have len : bankLen a ≤ 2 ^ 20 := by
        unfold bankLen
        split <;> decide
      have top : a < 2 ^ 33 := by
        simp only [Ctx.banksOf, coreBanks, clusBanks, List.mem_append, List.mem_flatMap, List.mem_map, List.mem_range] at ha
        rcases ha with ⟨k, hk, b, hb, rfl⟩ | ⟨k, hk, b, hb, rfl⟩
        · have := cores k hk
          unfold spadBankAt spadBase
          omega
        · have := clusters k hk
          unfold cmemBankAt cmemBase
          omega
      omega
    show ¬ (a ≤ z ∧ z < a + bankLen a)
    omega
  intro e he
  rw [Hw.releaseCtx_eq hx] at he
  dsimp only at he
  split at he
  · rcases List.mem_append.1 he with mem | mem
    · exact banks e mem
    · obtain rfl := List.mem_singleton.1 mem
      show ¬ (mapAddr c 0 0 0 ≤ z ∧ z < mapAddr c 0 0 0 + _)
      unfold mapAddr
      omega
  · exact banks e he

end

end Sys2Proof.Machine
end

section
/-!
PROOFS. HALT, and what the rows of BAR and HALT do (R158, R159, R163, R330, R335).
-/
namespace Sys2Proof.Machine

/-! ## The end of a context (R159) -/

/-- A context that has ended. -/
def Ctx.ended (x : Ctx) : Ctx := { x with host := { x.host with st := .ended } }

/-- A context's last epoch is over: its streams' HALTs retire. -/
def Hw.closing (h : Hw) (c : Nat) (x : Ctx) : Hw :=
  (h.retireAll x).1.modRun c (fun r => r.epochDiff (x.lastArrival + 1) (h.retireAll x).1.tb)

/-- A context ends, gives up what it holds, and its CTX_START and CTX_STOP complete. -/
def Hw.concluded (h : Hw) (c : Nat) : Hw × List Edit :=
  (((h.modCtx c Ctx.ended).releaseCtx c false).1.finishAll
      (fun k => k.ctx == (h.modCtx c Ctx.ended).handle c && (k.opcode == 0x0302 || k.opcode == 0x0303)) stOk [] [],
    ((h.modCtx c Ctx.ended).releaseCtx c false).2)

section
variable {c : Nat} {h : Hw} {m : Mem} {x : Ctx}

theorem Hw.endCtx_leftover {d : ChanDecl} (left : x.leftover = some d) : h.endCtx m c x = (h.leftoverFault c x d, []) := by
  unfold Hw.endCtx
  rw [left]

theorem Hw.endCtx_eq (left : x.leftover = none) {q : Hw × List Edit} (hq : (h.closing c x).writeSlips m c false = q) :
    h.endCtx m c x =
      if ((Tab.find? q.1.ctxs c).map (fun x => x.run.fault.isSome)).getD true then (q.1, (h.retireAll x).2 ++ q.2)
      else ((q.1.concluded c).1, (h.retireAll x).2 ++ q.2 ++ (q.1.concluded c).2) := by
  have steps : h.endCtx m c x =
      (let q := (h.closing c x).writeSlips m c false
       if ((q.1.ctx? c).map (fun x => x.run.fault.isSome)).getD true then (q.1, (h.retireAll x).2 ++ q.2)
       else ((q.1.concluded c).1, (h.retireAll x).2 ++ q.2 ++ (q.1.concluded c).2)) := by
    unfold Hw.endCtx Hw.concluded Hw.closing Ctx.ended
    rw [left]
  rw [steps, hq]
  rfl

theorem Hw.only_closing : h.Only [.regs, .ctxs, .clus] (h.closing c x) :=
  (Hw.only_retireAll.mono (by decide)).trans (Hw.only_modRun.mono (by decide))

theorem Hw.only_concluded : h.Only (.out :: releaseParts) (h.concluded c).1 :=
  ((Hw.only_modCtx.mono (by decide)).trans (Hw.only_releaseCtx.mono (by decide))).trans (Hw.only_finishAll.mono (by decide))

/-- The parts that the end of a context changes. -/
def endParts : List Part := [.regs, .ctxs, .cores, .clus, .hbm, .xcl, .cve, .rdma, .pwr, .host, .logs, .hist, .out]

theorem Hw.only_endCtx : h.Only endParts (h.endCtx m c x).1 := by
  cases left : x.leftover with
  | some d =>
    rw [Hw.endCtx_leftover left]
    exact Hw.only_leftoverFault.mono (by decide)
  | none =>
    have slips : h.Only endParts ((h.closing c x).writeSlips m c false).1 :=
      (Hw.only_closing.mono (by decide)).trans (Hw.only_writeSlips.mono (by decide))
    rw [Hw.endCtx_eq left rfl]
    split
    · exact slips
    · dsimp only
      exact slips.trans (Hw.only_concluded.mono (by decide))

/-- A context that ends has given up its placement, and no CTX_START or CTX_STOP of it is outstanding. -/
theorem Hw.concluded_ctx (hx : Tab.find? h.ctxs c = some x) : (∃ y, Tab.find? (h.concluded c).1.ctxs c = some y ∧
      y.host = { x.host with st := .ended, place := none }) ∧
    ∀ k ∈ (h.concluded c).1.host.cmds, ¬ (k.ctx = h.handle c ∧ (k.opcode = 0x0302 ∨ k.opcode = 0x0303)) := by
  have ended : Tab.find? (h.modCtx c Ctx.ended).ctxs c = some x.ended := Hw.find?_modCtx_same _ hx
  have handle : (h.modCtx c Ctx.ended).handle c = h.handle c := by
    rw [Hw.handle, Hw.handle, Hw.ctx?, Hw.ctx?, ended, hx]
    rfl
  obtain ⟨y, hy, host⟩ := Hw.releaseCtx_ctx (fence := false) ended
  refine ⟨⟨y, ?_, host⟩, fun k hk => ?_⟩
  · rw [Hw.concluded, Hw.only_finishAll .ctxs (by decide)]
    exact hy
  · have gone := Hw.cmds_finishAll hk
    rw [handle] at gone
    simpa using gone

/-- Without a slip region or a fault, the streams' HALTs end the context. -/
theorem Hw.endCtx_plain (hx : Tab.find? h.ctxs c = some x) (left : x.leftover = none) (slip : x.img.decl.slip = none)
    (fault : x.run.fault = none) : ∃ (k : Hw) (u : CtxRun), Tab.find? k.ctxs c = some { x with run := u } ∧
      h.endCtx m c x = ((k.concluded c).1, (h.retireAll x).2 ++ (k.concluded c).2) := by
  have closed : Tab.find? (h.closing c x).ctxs c =
      some { x with run := x.run.epochDiff (x.lastArrival + 1) (h.retireAll x).1.tb } := by
    refine Hw.find?_modCtx_same _ ?_
    rw [Hw.only_retireAll .ctxs (by decide)]
    exact hx
  have slips := Hw.writeSlips_none (m := m) (faulted := false) closed slip
  obtain ⟨l, hl⟩ := Hw.find?_notedSlips closed { x with run := x.run.epochDiff (x.lastArrival + 1) (h.retireAll x).1.tb } false
  refine ⟨_, _, hl, ?_⟩
  rw [Hw.endCtx_eq left slips]
  dsimp only
  rw [hl, List.append_nil]
  exact if_neg (by
    show ¬ (x.run.fault.isSome = true)
    rw [fault]
    nofun)

end

/-! ## What a context of known units holds -/

theorem Tab.mem_of_find? {α : Type} {t : Tab α} {k : Nat} {v : α} (h : Tab.find? t k = some v) : (k, v) ∈ t := by
  induction t with
  | nil => cases h
  | cons q t ih =>
    rw [Tab.find?] at h
    split at h
    · rename_i same
      obtain rfl := Option.some.inj h
      exact same ▸ List.mem_cons_self
    · exact List.mem_cons_of_mem _ (ih h)

theorem Ctx.coresOf_lt {x : Ctx} {p : Placement} {n : Nat} (hp : x.host.place = some p) (cores : ∀ b ∈ p.cores, b.2 < n) :
    ∀ k ∈ x.coresOf, k < n := fun k hk => by
  obtain ⟨⟨lc, lk⟩, -, found⟩ := List.mem_filterMap.1 hk
  have core : x.core? lc lk = some k := found
  rw [Ctx.core?, hp] at core
  exact cores _ (Tab.mem_of_find? core)

theorem Ctx.clustersOf_lt {x : Ctx} {p : Placement} {n : Nat} (hp : x.host.place = some p) (clusters : ∀ b ∈ p.clusters, b.2 < n) :
    ∀ k ∈ x.clustersOf, k < n := fun k hk => by
  rw [Ctx.clustersOf, hp] at hk
  obtain ⟨b, hb, rfl⟩ := List.mem_map.1 hk
  exact clusters b hb

/-! ## HALT -/

section
variable {s t : State} {r : StreamRef} {w : Nat} {x y : Ctx} {h : Hw}

theorem only_halt : s.hw.Only endParts (haltEff r s).hw := by
  rcases s.hw.arrive_cases r 4 with none | ⟨x, w, k, hx, hw, hk, op, admits⟩
  · rw [haltEff_none none]
    exact .refl _ _
  · obtain ⟨y, h, eq, -, only⟩ := arrives (s := s) rfl rfl hx hw hk (.inr rfl) op admits
    rw [haltEff_some eq]
    exact (only.mono (by decide)).trans (only_endEff (fun _ => Hw.only_endCtx) (by decide))

theorem halt_burn : (haltEff r s).burn = [] := by
  cases e : s.hw.arrive r 4 with
  | none => rw [haltEff_none e]
  | some q => rw [haltEff_some (x := q.1) (h := q.2) e, endEff_burn]

/-- The outcome of the last HALT (R159). -/
theorem Arrived.halts (a : Arrived s r 4 w x y h) (arrive : s.hw.Only [.ctxs] h)
    (eq : t = s.commit (endEff r.ctx y h [] (fun k => k.endCtx s.mem r.ctx y)))
    (all : ∀ p ∈ x.others r, x.place p ≠ .none ∧ (x.place p = .halt ↔ 4 = 4)) (left : x.leftover = none)
    (slip : x.img.decl.slip = none) (fault : x.run.fault = none) :
    ∃ z, Tab.find? t.hw.ctxs r.ctx = some z ∧ z.host = { x.host with st := .ended, place := none } ∧
      (∀ k ∈ t.hw.host.cmds, ¬ (k.ctx = s.hw.handle r.ctx ∧ (k.opcode = 0x0302 ∨ k.opcode = 0x0303))) ∧
      ∀ p, x.host.place = some p → (∀ b ∈ p.cores, b.2 < 576) → (∀ b ∈ p.clusters, b.2 < 64) →
        (∀ c, (s.hw.clusOf c).samp.armed = false) → ∀ z, 2 ^ 44 ≤ z → z < 2 ^ 46 → t.mem.read z = s.mem.read z := by
  obtain ⟨k, u, hk, plain⟩ := Hw.endCtx_plain (m := s.mem) a.now (a.after.leftover.trans left)
    (by rw [a.after.img]; exact slip) (a.fault.trans fault)
  rw [a.ended all, plain] at eq
  have thw : t.hw = (k.concluded r.ctx).1 := by rw [eq]; rfl
  have tmem : t.mem = s.mem.edit ((h.retireAll y).2 ++ (k.concluded r.ctx).2) := by
    rw [eq, State.commit_mem]
    rfl
  obtain ⟨⟨z, hz, host⟩, cmds⟩ := Hw.concluded_ctx hk
  have handle : k.handle r.ctx = s.hw.handle r.ctx := by
    rw [Hw.handle, Hw.handle, Hw.ctx?, Hw.ctx?, hk, a.before]
    show _ + 64 * y.host.gen = _ + 64 * x.host.gen
    rw [a.after.host]
  rw [handle] at cmds
  refine ⟨z, by rw [thw]; exact hz, by rw [host, ← a.after.host], by rw [thw]; exact cmds, fun p hp cores clusters off z lo hi => ?_⟩
  have place : y.host.place = some p := by rw [a.after.host]; exact hp
  have quiet : (h.retireAll y).2 = [] :=
    (Hw.retireAll_off (fun c => by rw [Hw.clusOf, arrive .clus (by decide)]; exact off c)).1
  rw [tmem, quiet, List.nil_append]
  refine Mem.read_edit_spared _ _ _ ?_
  have ended : Tab.find? (k.modCtx r.ctx Ctx.ended).ctxs r.ctx = some ({ y with run := u } : Ctx).ended := Hw.find?_modCtx_same _ hk
  exact Hw.releaseCtx_spares ended (Ctx.coresOf_lt (x := ({ y with run := u } : Ctx).ended) place cores)
    (Ctx.clustersOf_lt (x := ({ y with run := u } : Ctx).ended) place clusters) lo hi

end

end Sys2Proof.Machine
end

section
/-!
PROOFS. BAR and HALT: every outcome of their rows (R158, R159, R163).
-/
namespace Sys2Proof.Machine

section
variable {s : State} {r : StreamRef} {sn : Seen} {op : Nat}

/-- Where a stream may not arrive at a BAR or HALT (R158). -/
def State.Elsewhere (s : State) (r : StreamRef) (op : Nat) : Prop :=
  Tab.find? s.hw.ctxs r.ctx = none ∨ (∃ x, Tab.find? s.hw.ctxs r.ctx = some x ∧
    ((x.nextWord (keyOf r)).map opcOf ≠ some op ∨ (x.run.strm (keyOf r)).inflight ≠ [] ∨ x.host.st ≠ .running ∨
      x.run.bar ≠ .none ∨ (x.run.strm (keyOf r)).arrival ≠ .none))

theorem bar_elsewhere (idle : s.Elsewhere r 3) : s.commit (barEff r sn s) = s := by
  rw [barEff_none (Hw.arrive_none (.inl rfl) (by rw [(Hw.noted_seen s.hw sn).ctxs]; exact idle))]
  rfl
theorem halt_elsewhere (idle : s.Elsewhere r 4) : s.commit (haltEff r s) = s := by
  rw [haltEff_none (Hw.arrive_none (.inr rfl) idle)]
  rfl

/-- A placed stream that may start its BAR or HALT arrives. -/
theorem arrives_placed {g : Hw} {x : Ctx} {w : Nat} (ctxs : g.ctxs = s.hw.ctxs) (tb : g.tb = s.hw.tb)
    (hx : Tab.find? s.hw.ctxs r.ctx = some x) (placed : x.Placed) (hw : x.nextWord (keyOf r) = some w) (ends : op = 3 ∨ op = 4)
    (hop : opcOf w = op) (admits : s.hw.admits x r.lc r.lk r.strm = true) :
    ∃ y h, g.arrive r op = some (y, h) ∧ Arrived s r op w x y h ∧ g.Only [.ctxs] h := by
  obtain ⟨-, -, -, -, core, -⟩ := (Hw.admits_end hw (hop ▸ ends)).1 admits
  obtain ⟨k, hk⟩ := Option.ne_none_iff_exists'.1 (placed (ownStream r) (Ctx.mem_allStreams.2 ⟨core, r.strm.isLt⟩))
  exact arrives ctxs tb hx hw hk ends hop ((admits_ctxs hw (hop ▸ ends)).trans admits)

end

theorem end_clause (r : StreamRef) (s : State) (sn : Seen) : ∀ q ∈ [(Instr.bar r sn, 3), (.halt r, 4)], ∃ t, exec q.1 s = .next t ∧
    t.pending = s.pending ∧ t.fuses = s.fuses ∧
    s.hw.Only [.regs, .ctxs, .cores, .clus, .hbm, .xcl, .cve, .rdma, .pwr, .host, .logs, .hist, .out] t.hw ∧
    (q.2 = 3 → t.hw.cores = s.hw.cores ∧ t.hw.cve = s.hw.cve ∧ t.hw.rdma = s.hw.rdma) ∧
    (s.Elsewhere r q.2 → t = s) ∧
    ∀ x w a others, Tab.find? s.hw.ctxs r.ctx = some x → x.Placed → x.nextWord (keyOf r) = some w → opcOf w = q.2 →
        s.hw.admits x r.lc r.lk r.strm = true → a = (if q.2 = 4 then Arrival.halt else .bar (bitsAt w 82 10)) →
        others = x.allStreams.filter (fun p => p != (r.lc.val, r.lk.val, r.strm.val)) →
      ((∃ p ∈ others, (x.run.strm (strmKey p.1 p.2.1 p.2.2)).arrival ≠ .none ∧
          ((x.run.strm (strmKey p.1 p.2.1 p.2.2)).arrival = .halt ↔ q.2 ≠ 4)) →
        Raised s t r.ctx dStreamEnd ∧ Mem.But [] s.mem t.mem) ∧
      ((∃ p ∈ others, (x.run.strm (strmKey p.1 p.2.1 p.2.2)).arrival = .none) → StreamAlone s t r.ctx (keyOf r) ∧
        Mem.But [] s.mem t.mem ∧ ∃ y, Tab.find? t.hw.ctxs r.ctx = some y ∧ (y.run.strm (keyOf r)).arrival = a ∧
          (y.run.strm (keyOf r)).arriveTb = s.hw.tb ∧ (y.run.strm (keyOf r)).pc = (x.run.strm (keyOf r)).pc ∧
          y.run.bar = .none) ∧
      ((∀ p ∈ others, (x.run.strm (strmKey p.1 p.2.1 p.2.2)).arrival ≠ .none ∧
          ((x.run.strm (strmKey p.1 p.2.1 p.2.2)).arrival = .halt ↔ q.2 = 4)) →
        (x.leftover ≠ none → Raised s t r.ctx dTokenLeftover ∧ Mem.But [] s.mem t.mem) ∧
        (x.leftover = none → q.2 = 3 → (∃ p ∈ others, (x.run.strm (strmKey p.1 p.2.1 p.2.2)).arrival ≠ a) →
          Raised s t r.ctx dBarMismatch ∧ Mem.But [] s.mem t.mem) ∧
        (x.leftover = none → q.2 = 3 → (∀ p ∈ others, (x.run.strm (strmKey p.1 p.2.1 p.2.2)).arrival = a) →
          ∃ y, Tab.find? t.hw.ctxs r.ctx = some y ∧ y.run.nextDesc = bitsAt w 82 10 ∧ y.run.barTb = s.hw.tb ∧
            ((∀ p, x.host.place = some p → p.pinned = true) → x.img.decl.len = none → x.img.decl.slip = none →
                x.run.fault = none →
              y.run.bar = .waking ∧ y.run.moves = [] ∧ y.run.epochSeq = (x.run.epochSeq + 1) % 2 ^ 32 ∧
              y.run.epochDesc = bitsAt w 82 10 ∧ y.run.epochTb = s.hw.tb ∧ y.run.chans = [] ∧ y.run.owners = [] ∧
              ((∀ b ∈ x.bankPlan (bitsAt w 82 10), b.2 ≠ 2) → Mem.But [] s.mem t.mem))) ∧
        (x.leftover = none → q.2 = 4 → x.img.decl.slip = none → x.run.fault = none →
          ∃ y, Tab.find? t.hw.ctxs r.ctx = some y ∧ y.host = { x.host with st := .ended, place := none } ∧
            (∀ k ∈ t.hw.host.cmds, ¬ (k.ctx = s.hw.handle r.ctx ∧ (k.opcode = 0x0302 ∨ k.opcode = 0x0303))) ∧
            ∀ p, x.host.place = some p → (∀ b ∈ p.cores, b.2 < 576) → (∀ b ∈ p.clusters, b.2 < 64) →
              (∀ c, (s.hw.clusOf c).samp.armed = false) → ∀ z, 2 ^ 44 ≤ z → z < 2 ^ 46 → t.mem.read z = s.mem.read z)) := by
  intro q hq
  rw [List.mem_cons, List.mem_singleton] at hq
  rcases hq with rfl | rfl
  · have only : s.hw.Only (.pwr :: barrierParts) (barEff r sn s).hw := only_bar
    have noted := Hw.noted_seen s.hw sn
    refine ⟨s.commit (barEff r sn s), rfl, rfl, ?_, only.mono (by decide),
      fun _ => ⟨only .cores (by decide), only .cve (by decide), only .rdma (by decide)⟩, bar_elsewhere,
      fun x w a others hx placed hw op admits ha ho => ?_⟩
    · rw [State.commit_fuses, bar_burn]
      rfl
    · obtain ⟨y, h, arr, at', -⟩ := arrives_placed noted.ctxs noted.tb hx placed hw (.inl rfl) op admits
      have eq : s.commit (barEff r sn s) = s.commit (endEff r.ctx y h (seenEdits sn) (barLast r sn s y)) := by rw [barEff_some arr]
      have quiet := Mem.but_seenEdits s.mem sn
      subst ha ho
      exact ⟨at'.ends placed quiet eq, at'.waits quiet eq, fun all =>
        ⟨at'.leftover placed quiet eq all (fun d hd => Hw.barrier_leftover hd), fun left _ => (at'.bars placed eq all left).1,
          fun left _ => (at'.bars placed eq all left).2, fun _ four => absurd (show 3 = 4 from four) (by decide)⟩⟩
  · refine ⟨s.commit (haltEff r s), rfl, rfl, ?_, only_halt, fun three => absurd (show 4 = 3 from three) (by decide), halt_elsewhere,
      fun x w a others hx placed hw op admits ha ho => ?_⟩
    · rw [State.commit_fuses, halt_burn]
      rfl
    · obtain ⟨y, h, arr, at', only⟩ := arrives_placed rfl rfl hx placed hw (.inr rfl) op admits
      have eq : s.commit (haltEff r s) = s.commit (endEff r.ctx y h [] (fun k => k.endCtx s.mem r.ctx y)) := by rw [haltEff_some arr]
      have quiet : Mem.But [] s.mem (s.mem.edit []) := fun _ _ => rfl
      subst ha ho
      exact ⟨at'.ends placed quiet eq, at'.waits quiet eq, fun all =>
        ⟨at'.leftover placed quiet eq all (fun d hd => Hw.endCtx_leftover hd), fun _ three => absurd (show 4 = 3 from three) (by decide),
          fun _ three => absurd (show 4 = 3 from three) (by decide), fun left _ slip fault => at'.halts only eq all left slip fault⟩⟩

end Sys2Proof.Machine
end

section
/-!
PROOFS. The page copies of a barrier (R217, R218), and O56.
-/
namespace Sys2Proof.Machine

/-! ## The bytes of a page that is copied -/

/-- The changes that copy what cells hold in a range to another address. -/
def copies (cells : Tab Byte) (a b len : Nat) : List Edit :=
  cells.filterMap (fun q => if a ≤ q.1 ∧ q.1 < a + len then some (Edit.put (b + (q.1 - a)) q.2) else none)

theorem copies_cons (q : Nat × Byte) (l : Tab Byte) (a b len : Nat) : copies (q :: l) a b len =
    if a ≤ q.1 ∧ q.1 < a + len then Edit.put (b + (q.1 - a)) q.2 :: copies l a b len else copies l a b len := by
  unfold copies
  rw [List.filterMap_cons]
  by_cases c : a ≤ q.1 ∧ q.1 < a + len
  · rw [if_pos c, if_pos c]
  · rw [if_neg c, if_neg c]

theorem Tab.find?_absent {α : Type} {t : Tab α} {k : Nat} (h : k ∉ t.map Prod.fst) : Tab.find? t k = none := by
  cases e : Tab.find? t k with
  | none => rfl
  | some v => exact absurd (List.mem_map_of_mem (Tab.mem_of_find? e)) h

/-- A copied byte is the listed one; where none is listed, the byte is as it was. -/
theorem Mem.read_copies {l : Tab Byte} (keys : (l.map Prod.fst).Pairwise (· < ·)) (n : Mem) (a b : Nat) {len i : Nat} (hi : i < len) :
    (n.edit (copies l a b len)).read (b + i) = (Tab.find? l (a + i)).getD (n.read (b + i)) := by
  induction l generalizing n with
  | nil => rfl
  | cons q l ih =>
    rw [List.map_cons, List.pairwise_cons] at keys
    obtain ⟨above, keys⟩ := keys
    rw [copies_cons]
    by_cases here : a + i = q.1
    · have absent : Tab.find? l (a + i) = none := Tab.find?_absent (fun mem => absurd (above _ mem) (by omega))
      have found : Tab.find? (q :: l) (a + i) = some q.2 := if_pos here
      have offset : b + (q.1 - a) = b + i := by omega
      rw [if_pos ⟨by omega, by omega⟩, Mem.edit_cons, ih keys, absent, found, offset]
      exact Mem.read_put_same n (b + i) q.2
    · have found : Tab.find? (q :: l) (a + i) = Tab.find? l (a + i) := if_neg here
      rw [found]
      split
      · rw [Mem.edit_cons, ih keys, Mem.read_put_other n q.2 (by omega)]
      · exact ih keys n

theorem spares_copies {l : Tab Byte} {a b len z : Nat} (out : ¬ (b ≤ z ∧ z < b + len)) : ∀ e ∈ copies l a b len, e.spares z := by
  intro e he
  obtain ⟨q, -, hq⟩ := List.mem_filterMap.1 he
  split at hq
  · obtain rfl := Option.some.inj hq
    show z ≠ b + (q.1 - a)
    omega
  · cases hq

theorem spares_mapEdits {c key pfn z : Nat} {i : Image} (hz : z < 2 ^ 46) : ∀ e ∈ mapEdits c i key pfn, e.spares z := by
  have above : ∀ region lpn k, 2 ^ 46 ≤ mapAddr c region lpn k := fun _ _ _ => Nat.le_add_right _ _
  intro e he
  unfold mapEdits at he
  dsimp only at he
  split at he
  · cases he
  · rcases List.mem_append.1 he with mem | mem
    · exact spares_storeEdits (fun h => absurd (h.1.trans_lt hz) (above _ _ _).not_gt) e mem
    · exact spares_storeEdits (fun h => absurd (h.1.trans_lt hz) (above _ _ _).not_gt) e mem

/-! ## MIGRATION_PAGE_DONE -/

/-- A context whose oldest move is done. -/
def Ctx.pageMoved (mv : PageMove) (rest : List PageMove) (home : Option Nat) (x : Ctx) : Ctx :=
  { host := { x.host with place := x.host.place.map (fun p => p.moved (pageKey mv.region mv.lpn) mv.dst home) },
    run := { x.run with moves := rest, moved := x.run.moved + 1 } }

/-- A cached entry of the page that moves. -/
def PageMove.cached (mv : PageMove) (c : Nat) (e : XEnt) : Bool := e.ctx == c && e.region == mv.region && e.lpn == mv.lpn

/-- The hardware when a page has moved. -/
def Hw.pageMoved (h : Hw) (c : Nat) (mv : PageMove) (rest : List PageMove) (home : Option Nat) : Hw :=
  ((h.invalidate (mv.cached c)).satFld Fd.PLU_MIGR_CNT.PAGES 1).modCtx c (Ctx.pageMoved mv rest home)

/-- The changes to the memories of a page that moves. -/
def PageMove.edits (mv : PageMove) (sn : Seen) (s : State) (c : Nat) (x : Ctx) : List Edit :=
  seenEdits sn ++ (zeroFrame mv.dst :: copies s.mem.cells (hbmAddr (mv.src * pageBytes)) (hbmAddr (mv.dst * pageBytes)) pageBytes) ++
    mapEdits c x.img (pageKey mv.region mv.lpn) mv.dst

/-- The hardware when the last page of a barrier's plan has moved. -/
def Hw.migrated (h : Hw) : Hw := h.setFlag Fd.PLU_STATUS.MIGRATING false

theorem Hw.only_invalidate {h : Hw} {f : XEnt → Bool} : h.Only [.xcl] (h.invalidate f) := Hw.only_xclField

theorem Hw.only_pageMoved {h : Hw} {c : Nat} {mv : PageMove} {rest : List PageMove} {home : Option Nat} :
    h.Only [.regs, .ctxs, .xcl] (h.pageMoved c mv rest home) :=
  ((Hw.only_invalidate.mono (by decide)).trans (Hw.only_satFld.mono (by decide))).trans (Hw.only_modCtx.mono (by decide))

theorem Hw.pageMoved_cached {h : Hw} {c : Nat} {mv : PageMove} {rest : List PageMove} {home : Option Nat} :
    ∀ v ∈ (h.pageMoved c mv rest home).xcl, ∀ u ∈ v.2.sets, ∀ e ∈ u.2, ¬ (e.ctx = c ∧ e.region = mv.region ∧ e.lpn = mv.lpn) := by
  intro v hv u hu e he
  obtain ⟨w, -, rfl⟩ := List.mem_map.1 hv
  obtain ⟨g, -, rfl⟩ := List.mem_map.1 hu
  have kept := (List.mem_filter.1 he).2
  rintro ⟨ctx, region, lpn⟩
  simp [PageMove.cached, ctx, region, lpn] at kept

section
variable {ctx : Fin 64} {sn : Seen} {s t : State} {x : Ctx} {mv : PageMove} {rest : List PageMove} {p : Placement}

/-- Where no page of a context is being moved. -/
theorem migrationEff_cases (ctx : Fin 64) (sn : Seen) (s : State) : migrationEff ctx sn s = { hw := s.hw } ∨ ∃ x mv rest p,
    Tab.find? s.hw.ctxs ctx = some x ∧ x.run.moves = mv :: rest ∧ x.host.place = some p ∧ x.host.st = .running ∧
    x.run.bar = .migrating := by
  unfold migrationEff
  dsimp only
  rw [Hw.ctx?, (Hw.noted_seen s.hw sn).ctxs]
  split
  · exact .inl rfl
  · rename_i x hx
    split
    · rename_i mv rest p moves place
      by_cases c : x.host.st = .running ∧ x.run.bar = .migrating
      · exact .inr ⟨x, mv, rest, p, hx, moves, place, c.1, c.2⟩
      · exact .inl (if_neg c)
    · exact .inl rfl

/-- What a read of a moving page that does not verify notes, and its condition. -/
def Hw.pageUe (h : Hw) (x : Ctx) (mv : PageMove) (a : Nat) : Hw × Cond :=
  h.pieceUe x ⟨3, mv.region, 0, mv.lpn * pageBytes, 1, 0, [], none⟩ a

theorem Hw.pageUe_detail (h : Hw) (x : Ctx) (mv : PageMove) (a : Nat) : (h.pageUe x mv a).2.detail = dHbmUe := rfl

/-- The physical core whose TXE copies a context's next page. -/
def Ctx.moverCore (x : Ctx) : Nat := (x.core? x.mover.1 x.mover.2).getD 0

/-- A page that does not read ends the copies (R218). -/
theorem migrationEff_ue (hx : Tab.find? s.hw.ctxs ctx = some x) (moves : x.run.moves = mv :: rest) (place : x.host.place = some p)
    (st : x.host.st = .running) (bar : x.run.bar = .migrating)
    (ue : (s.mem.seen sn).ueIn (hbmAddr (mv.src * pageBytes)) pageBytes ≠ none) : ∃ (k : Hw) (e : Cond) (u l i : Nat),
      s.hw.Only xlatParts k ∧ e.detail = dHbmUe ∧ migrationEff ctx sn s = { hw := k.raise ctx e u l i, edits := seenEdits sn } := by
  obtain ⟨a, ha⟩ := Option.ne_none_iff_exists'.1 ue
  have hx' : (s.hw.seen sn).ctx? ctx = some x := by rw [Hw.ctx?, (Hw.noted_seen s.hw sn).ctxs]; exact hx
  refine ⟨(((s.hw.seen sn).pageUe x mv a).1.setFlag Fd.PLU_STATUS.MIGRATING false).setErr
      (engineErr x.moverCore 3 ((s.hw.seen sn).pageUe x mv a).2.detail), ((s.hw.seen sn).pageUe x mv a).2,
    punitEngine x.moverCore 3, lunitOf x.mover.1 x.mover.2 3,
    indexOf (x.run.strm (strmKey x.mover.1 x.mover.2 3)).pc,
    (((Hw.noted_seen s.hw sn).xlat.trans Hw.only_pieceUe).trans (Hw.only_setFlag.mono (by decide))).trans
      (Hw.only_setErr.mono (by decide)), Hw.pageUe_detail _ _ _ _, ?_⟩
  unfold migrationEff Hw.pageUe Ctx.moverCore
  dsimp only
  rw [hx']
  dsimp only
  rw [moves, place]
  dsimp only
  rw [if_pos ⟨st, bar⟩, ha]

/-- A page that reads moves, and after the last one the barrier ends. -/
theorem migrationEff_moves (hx : Tab.find? s.hw.ctxs ctx = some x) (moves : x.run.moves = mv :: rest) (place : x.host.place = some p)
    (st : x.host.st = .running) (bar : x.run.bar = .migrating)
    (ue : (s.mem.seen sn).ueIn (hbmAddr (mv.src * pageBytes)) pageBytes = none) : ∃ home, migrationEff ctx sn s =
      if rest.isEmpty then
        { hw := (((s.hw.seen sn).pageMoved ctx mv rest home).migrated.finishBarrier
            ((s.mem.seen sn).edit (mv.edits sn s ctx x)) ctx).1,
          edits := mv.edits sn s ctx x ++ (((s.hw.seen sn).pageMoved ctx mv rest home).migrated.finishBarrier
            ((s.mem.seen sn).edit (mv.edits sn s ctx x)) ctx).2 }
      else { hw := (s.hw.seen sn).pageMoved ctx mv rest home, edits := mv.edits sn s ctx x } := by
  have hx' : (s.hw.seen sn).ctx? ctx = some x := by rw [Hw.ctx?, (Hw.noted_seen s.hw sn).ctxs]; exact hx
  refine ⟨match x.img.hbm? mv.region with
    | some d => ((s.hw.seen sn).pageStacks x.img p.clusters d mv.lpn).2
    | none => none, ?_⟩
  unfold migrationEff
  dsimp only
  rw [hx']
  dsimp only
  rw [moves, place]
  dsimp only
  rw [if_pos ⟨st, bar⟩, ue]
  rfl

/-- The context of a page that has moved. -/
theorem Hw.pageMoved_ctx {h : Hw} (hx : Tab.find? h.ctxs ctx = some x) (home : Option Nat) :
    Tab.find? (h.pageMoved ctx mv rest home).ctxs ctx = some (x.pageMoved mv rest home) := Hw.find?_modCtx_same _ hx

theorem Ctx.pageMoved_place (place : x.host.place = some p) (home : Option Nat) : ∃ u, (x.pageMoved mv rest home).host.place = some u ∧
    Tab.find? u.pages (pageKey mv.region mv.lpn) = some mv.dst ∧ u.migrated = p.migrated + 1 := by
  refine ⟨p.moved (pageKey mv.region mv.lpn) mv.dst home, ?_, Tab.find?_put_same _ _ _, rfl⟩
  rw [Ctx.pageMoved, place]
  rfl

/-- The bytes of a page that has moved, and of the rest of HBM. -/
theorem PageMove.edits_copy (ok : s.MemOk) (hd : mv.dst < 2 ^ 20) :
    (∀ b < pageBytes, (s.mem.edit (mv.edits sn s ctx x)).read (hbmAddr (mv.dst * pageBytes) + b) =
      s.mem.read (hbmAddr (mv.src * pageBytes) + b)) ∧
    ∀ z, z < 2 ^ 46 → ¬ (hbmAddr (mv.dst * pageBytes) ≤ z ∧ z < hbmAddr (mv.dst * pageBytes) + pageBytes) →
      (s.mem.edit (mv.edits sn s ctx x)).read z = s.mem.read z := by
  have keys := (Tab.sorted_iff _).1 ((Mem.wf_iff s.mem).1 ok).1
  have copied : ∀ z, z < 2 ^ 46 → (s.mem.edit (mv.edits sn s ctx x)).read z = ((((s.mem.seen sn).edit1 (zeroFrame mv.dst))).edit
      (copies s.mem.cells (hbmAddr (mv.src * pageBytes)) (hbmAddr (mv.dst * pageBytes)) pageBytes)).read z := fun z hz => by
    rw [PageMove.edits, Mem.edit_append, Mem.read_edit_spared _ _ _ (spares_mapEdits hz), Mem.edit_append, Mem.edit_seenEdits,
      Mem.edit_cons]
  refine ⟨fun b hb => ?_, fun z hz out => ?_⟩
  · have low : hbmAddr (mv.dst * pageBytes) + b < 2 ^ 46 := by
      unfold hbmAddr
      unfold pageBytes at hb ⊢
      omega
    rw [copied _ low, Mem.read_copies keys _ _ _ hb, zeroFrame, Mem.read_clear_in _ ⟨Nat.le_add_right _ _, by omega⟩]
    rfl
  · rw [copied z hz, Mem.read_edit_spared _ _ _ (spares_copies out), zeroFrame, Mem.read_clear_out _ out, Mem.read_seen]

end

end Sys2Proof.Machine
end

section
/-!
PROOFS. MIGRATION_PAGE_DONE as a whole (R217, R218), and O56.
-/
namespace Sys2Proof.Machine

section
variable {ctx : Fin 64} {sn : Seen} {s : State} {x : Ctx} {mv : PageMove} {rest : List PageMove} {p : Placement}

theorem only_migrated {h : Hw} {home : Option Nat} : h.Only [.regs, .ctxs, .xcl] (h.pageMoved ctx mv rest home).migrated :=
  Hw.only_pageMoved.trans (Hw.only_setFlag.mono (by decide))

theorem migration_rule (ctx : Fin 64) (sn : Seen) (s : State) :
    (migrationEff ctx sn s).burn = [] ∧ s.hw.Only barrierParts (migrationEff ctx sn s).hw := by
  rcases migrationEff_cases ctx sn s with eq | ⟨x, mv, rest, p, hx, moves, place, st, bar⟩
  · rw [eq]
    exact ⟨rfl, .refl _ _⟩
  · have seen : s.hw.Only barrierParts (s.hw.seen sn) := (Hw.noted_seen s.hw sn).only.mono (by decide)
    by_cases ue : (s.mem.seen sn).ueIn (hbmAddr (mv.src * pageBytes)) pageBytes = none
    · obtain ⟨home, eq⟩ := migrationEff_moves hx moves place st bar ue
      rw [eq]
      split
      · exact ⟨rfl, (seen.trans (only_migrated.mono (by decide))).trans (Hw.only_finishBarrier.mono (by decide))⟩
      · exact ⟨rfl, seen.trans (Hw.only_pageMoved.mono (by decide))⟩
    · obtain ⟨k, e, u, l, i, only, -, eq⟩ := migrationEff_ue hx moves place st bar ue
      rw [eq]
      exact ⟨rfl, (only.mono (by decide)).trans (Hw.only_raise.mono (by decide))⟩

/-- Where a context has no page to move, nothing happens. -/
theorem migration_idle (idle : Tab.find? s.hw.ctxs ctx = none ∨ (∃ x, Tab.find? s.hw.ctxs ctx = some x ∧
    (x.run.moves = [] ∨ x.host.st ≠ .running ∨ x.run.bar ≠ .migrating))) : s.commit (migrationEff ctx sn s) = s := by
  rcases migrationEff_cases ctx sn s with eq | ⟨x, mv, rest, p, hx, moves, -, st, bar⟩
  · rw [eq]
    rfl
  · exfalso
    rcases idle with none | ⟨x', hx', no⟩
    · rw [hx] at none
      cases none
    · obtain rfl := Option.some.inj (hx.symm.trans hx')
      rcases no with no | no | no
      · rw [moves] at no
        cases no
      · exact no st
      · exact no bar

theorem migration_fails (hx : Tab.find? s.hw.ctxs ctx = some x) (moves : x.run.moves = mv :: rest) (place : x.host.place = some p)
    (st : x.host.st = .running) (bar : x.run.bar = .migrating)
    (ue : (s.mem.seen sn).ueIn (hbmAddr (mv.src * pageBytes)) pageBytes ≠ none) :
    Raised s (s.commit (migrationEff ctx sn s)) ctx dHbmUe ∧ Mem.But [] s.mem (s.commit (migrationEff ctx sn s)).mem := by
  obtain ⟨k, e, u, l, i, only, detail, eq⟩ := migrationEff_ue hx moves place st bar ue
  rw [eq, ← detail]
  exact ⟨raised_of_ctxs (only .ctxs (by decide)) (only .tb (by decide)) rfl, Mem.but_seenEdits _ _⟩

/-- The context of a page that has moved, and the next epoch after the last one. -/
theorem migration_ctx (hx : Tab.find? s.hw.ctxs ctx = some x) (moves : x.run.moves = mv :: rest) (place : x.host.place = some p)
    (st : x.host.st = .running) (bar : x.run.bar = .migrating)
    (ue : (s.mem.seen sn).ueIn (hbmAddr (mv.src * pageBytes)) pageBytes = none) :
    ∃ y u, Tab.find? (migrationEff ctx sn s).hw.ctxs ctx = some y ∧ y.run.moves = rest ∧ y.host.place = some u ∧
      Tab.find? u.pages (pageKey mv.region mv.lpn) = some mv.dst ∧ u.migrated = p.migrated + 1 ∧
      (rest = [] → x.img.decl.len = none → x.img.decl.slip = none → x.run.fault = none → y.run.bar = .waking ∧
        y.run.epochSeq = (x.run.epochSeq + 1) % 2 ^ 32) := by
  obtain ⟨home, eq⟩ := migrationEff_moves hx moves place st bar ue
  have moved : Tab.find? ((s.hw.seen sn).pageMoved ctx mv rest home).ctxs ctx = some (x.pageMoved mv rest home) :=
    Hw.pageMoved_ctx (by rw [(Hw.noted_seen s.hw sn).ctxs]; exact hx) home
  obtain ⟨u, hu, page, count⟩ := Ctx.pageMoved_place (mv := mv) (rest := rest) place home
  cases rest with
  | cons q l =>
    rw [eq, if_neg (by nofun)]
    exact ⟨_, u, moved, rfl, hu, page, count, nofun⟩
  | nil =>
    rw [← Hw.setFlag_ctxs _ Fd.PLU_STATUS.MIGRATING false] at moved
    rw [eq, if_pos List.isEmpty_nil]
    obtain ⟨y, hy, same⟩ := Hw.sameBarrier_finishBarrier (m := (s.mem.seen sn).edit (mv.edits sn s ctx x)) _ moved
    refine ⟨y, u, hy, same.moves rfl, same.place.trans hu, page, count, fun _ len slip fault => ?_⟩
    obtain ⟨⟨z, hz, opened⟩, -⟩ := Hw.finishBarrier_plain (m := (s.mem.seen sn).edit (mv.edits sn s ctx x)) moved len slip fault
    obtain rfl : z = y := Option.some.inj (hz.symm.trans hy)
    exact ⟨opened.bar, opened.seq⟩

/-- A page that is not the last: its count, its cached entries and its bytes. -/
theorem migration_page (hx : Tab.find? s.hw.ctxs ctx = some x) (moves : x.run.moves = mv :: rest) (place : x.host.place = some p)
    (st : x.host.st = .running) (bar : x.run.bar = .migrating)
    (ue : (s.mem.seen sn).ueIn (hbmAddr (mv.src * pageBytes)) pageBytes = none) (more : rest ≠ []) :
    (migrationEff ctx sn s).hw.fld Fd.PLU_MIGR_CNT.PAGES =
      min (s.hw.fld Fd.PLU_MIGR_CNT.PAGES + 1) (2 ^ Fd.PLU_MIGR_CNT.PAGES.w - 1) ∧
    (∀ v ∈ (migrationEff ctx sn s).hw.xcl, ∀ u ∈ v.2.sets, ∀ e ∈ u.2,
      ¬ (e.ctx = ctx.val ∧ e.region = mv.region ∧ e.lpn = mv.lpn)) ∧
    (migrationEff ctx sn s).edits = mv.edits sn s ctx x := by
  obtain ⟨home, eq⟩ := migrationEff_moves hx moves place st bar ue
  rw [eq, if_neg (by rw [List.isEmpty_iff]; exact more)]
  refine ⟨?_, Hw.pageMoved_cached, rfl⟩
  calc ((s.hw.seen sn).pageMoved ctx mv rest home).fld Fd.PLU_MIGR_CNT.PAGES
      = (((s.hw.seen sn).invalidate (mv.cached ctx)).satFld Fd.PLU_MIGR_CNT.PAGES 1).fld Fd.PLU_MIGR_CNT.PAGES := rfl
    _ = min ((s.hw.seen sn).fld Fd.PLU_MIGR_CNT.PAGES + 1) (2 ^ Fd.PLU_MIGR_CNT.PAGES.w - 1) :=
        Hw.fld_satFld_same _ _ _ (by decide)
    _ = _ := by
        rw [(Hw.noted_seen s.hw sn).fld (f := Fd.PLU_MIGR_CNT.PAGES) ⟨by decide, by decide, by decide⟩]

theorem migration_clause (ctx : Fin 64) (s : State) (sn : Seen) : ∃ t, exec (.migrationPageDone ctx sn) s = .next t ∧
    t.pending = s.pending ∧ t.fuses = s.fuses ∧ s.hw.Only [.regs, .ctxs, .clus, .hbm, .xcl, .host, .logs, .hist, .out] t.hw ∧
    (Tab.find? s.hw.ctxs ctx = none ∨ (∃ x, Tab.find? s.hw.ctxs ctx = some x ∧
      (x.run.moves = [] ∨ x.host.st ≠ .running ∨ x.run.bar ≠ .migrating)) → t = s) ∧
    ∀ x mv rest p, Tab.find? s.hw.ctxs ctx = some x → x.run.moves = mv :: rest → x.host.place = some p →
        x.host.st = .running → x.run.bar = .migrating →
      ((s.mem.seen sn).ueIn (hbmAddr (mv.src * pageBytes)) pageBytes ≠ none → Raised s t ctx dHbmUe ∧ Mem.But [] s.mem t.mem) ∧
      ((s.mem.seen sn).ueIn (hbmAddr (mv.src * pageBytes)) pageBytes = none →
        (∃ y u, Tab.find? t.hw.ctxs ctx = some y ∧ y.run.moves = rest ∧ y.host.place = some u ∧
          Tab.find? u.pages (pageKey mv.region mv.lpn) = some mv.dst ∧ u.migrated = p.migrated + 1 ∧
          (rest = [] → x.img.decl.len = none → x.img.decl.slip = none → x.run.fault = none → y.run.bar = .waking ∧
            y.run.epochSeq = (x.run.epochSeq + 1) % 2 ^ 32)) ∧
        (rest ≠ [] → t.hw.fld Fd.PLU_MIGR_CNT.PAGES =
            min (s.hw.fld Fd.PLU_MIGR_CNT.PAGES + 1) (2 ^ Fd.PLU_MIGR_CNT.PAGES.w - 1) ∧
          (∀ v ∈ t.hw.xcl, ∀ u ∈ v.2.sets, ∀ e ∈ u.2, ¬ (e.ctx = ctx.val ∧ e.region = mv.region ∧ e.lpn = mv.lpn)) ∧
          (s.MemOk → mv.dst < 2 ^ 20 →
            (∀ b < pageBytes, t.mem.read (hbmAddr (mv.dst * pageBytes) + b) =
              s.mem.read (hbmAddr (mv.src * pageBytes) + b)) ∧
            ∀ z, z < 2 ^ 46 → ¬ (hbmAddr (mv.dst * pageBytes) ≤ z ∧ z < hbmAddr (mv.dst * pageBytes) + pageBytes) →
              t.mem.read z = s.mem.read z))) := by
  obtain ⟨burn, only⟩ := migration_rule ctx sn s
  refine ⟨s.commit (migrationEff ctx sn s), rfl, rfl, ?_, only, migration_idle, fun x mv rest p hx moves place st bar =>
    ⟨migration_fails hx moves place st bar, fun ue => ⟨migration_ctx hx moves place st bar ue, fun more => ?_⟩⟩⟩
  · rw [State.commit_fuses, burn]
    rfl
  · obtain ⟨count, cached, edits⟩ := migration_page hx moves place st bar ue more
    refine ⟨count, cached, fun ok dst => ?_⟩
    rw [State.commit_mem, edits]
    exact PageMove.edits_copy ok dst

end

/-- Settles O56: a clause for each instruction, from what its row's effect does in each case. -/
theorem streamsAndBarriers : Obligations.StreamsAndBarriers := by
  unfold Obligations.StreamsAndBarriers
  exact ⟨fun r s => ⟨instructionStart_clause r s, nop_clause r s, loop_clause r s, endloop_clause r s, ctrrd_clause r s,
      token_clause r s, retire_clause r s, watchdog_clause r s, end_clause r s⟩,
    fun ctx s => ⟨migration_clause ctx s, release_clause ctx s⟩⟩

end Sys2Proof.Machine
end

section
/-!
PROOFS. What a state of the machine holds against two of O4's invariants: powered dies beyond the eight of the package, and registers
that the NV store keeps without a record of theirs. Every function of the model keeps these parts of a state or empties the first (R98,
R120, R128): the rule of each function says so once, under the function's name, and O4 follows from the rules of the commands.
-/
namespace Sys2Proof.Machine

/-- The members of a list of dies that no package has, and the rows of an NV store that no record names. -/
def strayParts (dies : List Nat) (nv : Tab W32) : List Nat × Tab W32 :=
  (dies.filter (fun d => !decide (d < 8)), nv.filter (fun p => !savedReg p.1))

/-- What a machine holds against `Hw.DiesExist` and `Hw.SavedOk`. -/
def Hw.strays (h : Hw) : List Nat × Tab W32 := strayParts h.plu.diesUp h.nv

theorem strayParts_fst_nil {h : Hw} : h.strays.1 = [] ↔ h.DiesExist := by
  simp [Hw.strays, strayParts, List.filter_eq_nil_iff, Hw.DiesExist]

theorem strayParts_snd_nil {h : Hw} : h.strays.2 = [] ↔ h.SavedOk := by
  simp [Hw.strays, strayParts, List.filter_eq_nil_iff, Hw.SavedOk]

theorem Hw.strays_eq {h k : Hw} (p : k.plu.diesUp = h.plu.diesUp) (n : k.nv = h.nv) : k.strays = h.strays := by
  rw [Hw.strays, Hw.strays, p, n]

theorem Hw.Only.strays {ps : List Part} {h k : Hw} (a : h.Only ps k) (p : Part.plu ∉ ps) (n : Part.nv ∉ ps) : k.strays = h.strays :=
  Hw.strays_eq (by rw [show k.plu = h.plu from a .plu p]) (a .nv n)

theorem strayParts_hw (h : Hw) : strayParts h.plu.diesUp h.nv = h.strays := by rw [Hw.strays]

theorem strayParts_nil {h : Hw} : strayParts [] h.nv = ([], h.strays.2) := rfl

/-- The NV store takes a register that a record names. -/
theorem strayParts_put {d : List Nat} {n : Tab W32} {k : Nat} {v : W32} (e : savedReg k = true) :
    strayParts d (n.put k v) = strayParts d n := by
  unfold strayParts
  congr 1
  induction n with
  | nil => simp [Tab.put, e]
  | cons p n ih =>
    obtain ⟨j, w⟩ := p
    simp only [Tab.put]
    split
    · simp [e]
    · split
      · subst_vars
        simp [e]
      · simp [List.filter_cons, ih]

/-! ## Records that a function writes out

A function that updates a field of the machine writes the whole record. These equations read the two parts off it, so that no proof
opens the record: of any record, of one with the powered dies and the NV store of another, and of one that has only other placements. -/

theorem Hw.strays_mk {a1 a2 a3 a4 a5 a6 a7 a8 a9 a10 a11 a12 a13 a14 a15 a16 a17 a18 a19 a20 a21 a22 a23 a24 a25 a26 a27 a28 a29 a30
    a31 a32 a33} :
    Hw.strays ⟨a1, a2, a3, a4, a5, a6, a7, a8, a9, a10, a11, a12, a13, a14, a15, a16, a17, a18, a19, a20, a21, a22, a23, a24, a25, a26,
      a27, a28, a29, a30, a31, a32, a33⟩ = strayParts a17.diesUp a30 := by
  rw [Hw.strays]

theorem Hw.strays_with {e : Hw} {a1 a2 a3 a4 a5 a6 a7 a8 a9 a10 a11 a12 a13 a14 a15 a16 a18 a19 a20 a21 a22 a23 a24 a25 a26 a27 a28
    a29 a31 a32 a33} :
    Hw.strays ⟨a1, a2, a3, a4, a5, a6, a7, a8, a9, a10, a11, a12, a13, a14, a15, a16, e.plu, a18, a19, a20, a21, a22, a23, a24, a25,
      a26, a27, a28, a29, e.nv, a31, a32, a33⟩ = e.strays := by
  rw [Hw.strays, Hw.strays]

theorem Hw.strays_withPlu {e : Hw} {a1 a2 a3 a4 a5 a6 a7 a8 a9 a10 a11 a12 a13 a14 a15 a16 a18 a19 a20 a21 a22 a23 a24 a25 a26 a27
    a28 a29 a31 a32 a33 b1 b2 b3 b4 b5 b6 b7} :
    Hw.strays ⟨a1, a2, a3, a4, a5, a6, a7, a8, a9, a10, a11, a12, a13, a14, a15, a16, ⟨e.plu.diesUp, b1, b2, b3, b4, b5, b6, b7⟩, a18,
      a19, a20, a21, a22, a23, a24, a25, a26, a27, a28, a29, e.nv, a31, a32, a33⟩ = e.strays := by
  rw [Hw.strays, Hw.strays]

/-! ## Choices, sequences and pairs -/

@[simp] theorem Hw.strays_ite {c : Prop} [Decidable c] {h k : Hw} :
    (if c then h else k).strays = if c then h.strays else k.strays := apply_ite _ _ _ _

@[simp] theorem strays_ite_fst {α : Type} {c : Prop} [Decidable c] {p q : Hw × α} :
    (if c then p else q).1.strays = if c then p.1.strays else q.1.strays := by
  split <;> rfl

@[simp] theorem strays_ite_hw {c : Prop} [Decidable c] {p q : Eff} :
    (if c then p else q).hw.strays = if c then p.hw.strays else q.hw.strays := by
  split <;> rfl

theorem strays_ite_fst_of {α : Type} {c : Prop} [Decidable c] {p q : Hw × α} {h : Hw} (hp : p.1.strays = h.strays)
    (hq : q.1.strays = h.strays) : (if c then p else q).1.strays = h.strays := by
  split <;> assumption

@[simp] theorem strays_foldl {α : Type} {f : Hw → α → Hw} {l : List α} {h : Hw} (e : ∀ k x, (f k x).strays = k.strays) :
    (l.foldl f h).strays = h.strays := by
  induction l generalizing h with
  | nil => rfl
  | cons x l ih => exact (ih (h := f h x)).trans (e h x)

@[simp] theorem strays_foldl_fst {α β : Type} {f : Hw × β → α → Hw × β} {l : List α} {p : Hw × β}
    (e : ∀ p x, (f p x).1.strays = p.1.strays) : (l.foldl f p).1.strays = p.1.strays := by
  induction l generalizing p with
  | nil => rfl
  | cons x l ih => exact (ih (p := f p x)).trans (e p x)

theorem strays_foldl_snd {α β : Type} {f : β × Hw → α → β × Hw} {l : List α} {p : β × Hw}
    (e : ∀ p x, (f p x).2.strays = p.2.strays) : (l.foldl f p).2.strays = p.2.strays := by
  induction l generalizing p with
  | nil => rfl
  | cons x l ih => exact (ih (p := f p x)).trans (e p x)

theorem strays_of_eq {α : Type} {q : Hw × α} {k : Hw} {a : α} (e : q = (k, a)) : k.strays = q.1.strays := by rw [e]

/-! ## Sheds -/

/-- One machine's stray parts are another's, but for the dies: where the package loses its power, no die is powered. -/
def Hw.Sheds (h k : Hw) : Prop := k.strays = h.strays ∨ k.strays = ([], h.strays.2)

theorem Hw.Sheds.refl (h : Hw) : h.Sheds h := .inl rfl

theorem Hw.Sheds.of_strays {h k l : Hw} (e : k.strays = h.strays) (a : k.Sheds l) : h.Sheds l := by
  rw [Hw.Sheds, e] at a
  exact a

theorem Hw.Sheds.of_eq {h k l : Hw} (e : l.strays = k.strays) (a : h.Sheds k) : h.Sheds l := by
  rwa [Hw.Sheds, e]

theorem Hw.Sheds.trans {h k l : Hw} (a : h.Sheds k) (b : k.Sheds l) : h.Sheds l := by
  obtain a | a := a <;> obtain b | b := b <;> rw [a] at b
  · exact .inl b
  · exact .inr b
  · exact .inr b
  · exact .inr b

theorem sheds_ite {c : Prop} [Decidable c] {h : Hw} {e f : Eff} (a : h.Sheds e.hw) (b : h.Sheds f.hw) :
    h.Sheds (if c then e else f).hw := by
  split <;> assumption

theorem Hw.Sheds.diesExist {h k : Hw} (a : h.Sheds k) (d : h.DiesExist) : k.DiesExist := by
  rw [← strayParts_fst_nil] at d ⊢
  obtain a | a := a <;> rw [a]
  exact d

theorem Hw.Sheds.savedOk {h k : Hw} (a : h.Sheds k) (d : h.SavedOk) : k.SavedOk := by
  rw [← strayParts_snd_nil] at d ⊢
  obtain a | a := a <;> rw [a] <;> exact d

end Sys2Proof.Machine
end

section
/-!
PROOFS. The state's own operations keep the stray parts: registers, logs, sessions, contexts, links, reports and faults.
-/
namespace Sys2Proof.Machine

@[simp] theorem Hw.strays_setReg {h : Hw} {a} {v} : (h.setReg a v).strays = h.strays :=
  Hw.only_setReg.strays (by decide) (by decide)

@[simp] theorem Hw.strays_setFld {h : Hw} {f} {v} : (h.setFld f v).strays = h.strays :=
  Hw.only_setFld.strays (by decide) (by decide)

@[simp] theorem Hw.strays_setFlag {h : Hw} {f} {b} : (h.setFlag f b).strays = h.strays :=
  Hw.only_setFlag.strays (by decide) (by decide)

@[simp] theorem Hw.strays_satFld {h : Hw} {f} {n} : (h.satFld f n).strays = h.strays :=
  Hw.only_satFld.strays (by decide) (by decide)

@[simp] theorem Hw.strays_takeFree {h : Hw} : h.takeFree.2.strays = h.strays := by
  unfold Hw.takeFree
  dsimp only
  simp [↓Hw.strays_with]

@[simp] theorem Hw.strays_modSession {h : Hw} {id} {f} : (h.modSession id f).strays = h.strays :=
  Hw.only_modSession.strays (by decide) (by decide)

@[simp] theorem Hw.strays_send {h : Hw} {id} {unsol} {tag opcode ctx} {p} {payload} :
    (h.send id unsol tag opcode ctx p payload).strays = h.strays :=
  Hw.only_send.strays (by decide) (by decide)

@[simp] theorem Hw.strays_logSev {h : Hw} {severity source kind} {data} : (h.logSev severity source kind data).strays = h.strays :=
  Hw.only_logSev.strays (by decide) (by decide)

@[simp] theorem Hw.strays_log {h : Hw} {source kind what} {data} : (h.log source kind what data).strays = h.strays :=
  Hw.only_log.strays (by decide) (by decide)

@[simp] theorem Hw.strays_logNote {h : Hw} {kind what a b} : (h.logNote kind what a b).strays = h.strays :=
  Hw.only_logNote.strays (by decide) (by decide)

@[simp] theorem Hw.strays_event {h : Hw} {opcode ctx} {p} {payload} : (h.event opcode ctx p payload).strays = h.strays :=
  Hw.only_event.strays (by decide) (by decide)

@[simp] theorem Hw.strays_history {h : Hw} {punit event state detail job arg} {counting madePerm} :
    (h.history punit event state detail job arg counting madePerm).strays = h.strays :=
  Hw.only_history.strays (by decide) (by decide)

@[simp] theorem Hw.strays_modClus {h : Hw} {c} {f} : (h.modClus c f).strays = h.strays :=
  Hw.only_modClus.strays (by decide) (by decide)

@[simp] theorem Hw.strays_setCtr {h : Hw} {bank n v} : (h.setCtr bank n v).strays = h.strays :=
  Hw.only_setCtr.strays (by decide) (by decide)

@[simp] theorem Hw.strays_bump {h : Hw} {bank n k} : (h.bump bank n k).strays = h.strays :=
  Hw.only_bump.strays (by decide) (by decide)

@[simp] theorem Hw.strays_count {h : Hw} {bank size} {filtered} {e} {k} : (h.count bank size filtered e k).strays = h.strays :=
  Hw.only_count.strays (by decide) (by decide)

@[simp] theorem Hw.strays_countClus {h : Hw} {c} {e} {n} : (h.countClus c e n).strays = h.strays :=
  Hw.accessed_countClus.only.strays (by decide) (by decide)

@[simp] theorem Hw.strays_countPort {h : Hw} {l code n} : (h.countPort l code n).strays = h.strays := by
  simp [Hw.countPort]

@[simp] theorem Hw.strays_moved {h : Hw} {i n} : (h.moved i n).strays = h.strays :=
  Hw.only_moved.strays (by decide) (by decide)

@[simp] theorem Hw.strays_sectors {h : Hw} {s} {write} {n} : (h.sectors s write n).strays = h.strays :=
  Hw.only_sectors.strays (by decide) (by decide)

@[simp] theorem Hw.strays_countCve {h : Hw} {v code n} : (h.countCve v code n).strays = h.strays := by
  simp [Hw.countCve]

@[simp] theorem Hw.strays_modCtx {h : Hw} {c} {f} : (h.modCtx c f).strays = h.strays :=
  Hw.only_modCtx.strays (by decide) (by decide)

@[simp] theorem Hw.strays_modRun {h : Hw} {c} {f} : (h.modRun c f).strays = h.strays :=
  Hw.only_modRun.strays (by decide) (by decide)

@[simp] theorem Hw.strays_raise {h : Hw} {c} {cond} {punit lunit index} : (h.raise c cond punit lunit index).strays = h.strays :=
  Hw.only_raise.strays (by decide) (by decide)

@[simp] theorem Hw.strays_setErr {h : Hw} {f} : (h.setErr f).strays = h.strays :=
  Hw.only_setErr.strays (by decide) (by decide)

@[simp] theorem Hw.strays_strmFault {h : Hw} {c lc lk s idx} {cond} {eco} : (h.strmFault c lc lk s idx cond eco).strays = h.strays :=
  Hw.only_strmFault.strays (by decide) (by decide)

@[simp] theorem Hw.strays_resources {h : Hw} : h.resources.strays = h.strays :=
  Hw.only_resources.strays (by decide) (by decide)

@[simp] theorem Hw.strays_unitEvent {h : Hw} {punit event detail job arg} :
    (h.unitEvent punit event detail job arg).strays = h.strays :=
  Hw.accessed_unitEvent.only.strays (by decide) (by decide)

@[simp] theorem Hw.strays_hbmUe {h : Hw} {pma detail job} : (h.hbmUe pma detail job).strays = h.strays :=
  Hw.accessed_hbmUe.only.strays (by decide) (by decide)

@[simp] theorem Hw.strays_xlatRow {h : Hw} {m} {job ctx w} {write} {p} {master} :
    (h.xlatRow m job ctx w write p master).1.strays = h.strays :=
  Hw.only_xlatRow.strays (by decide) (by decide)

@[simp] theorem Hw.strays_pieceUe {h : Hw} {x} {p} {a} : (h.pieceUe x p a).1.strays = h.strays :=
  Hw.only_pieceUe.strays (by decide) (by decide)

@[simp] theorem Hw.strays_corrected {h : Hw} {a} : (h.corrected a).strays = h.strays :=
  Hw.accessed_corrected.only.strays (by decide) (by decide)

@[simp] theorem Hw.strays_seen {h : Hw} {sn} : (h.seen sn).strays = h.strays :=
  (Hw.accessed_seen _ _).only.strays (by decide) (by decide)

@[simp] theorem Hw.strays_finish {h : Hw} {c} {status} {p} {payload} : (h.finish c status p payload).strays = h.strays :=
  Hw.only_finish.strays (by decide) (by decide)

@[simp] theorem Hw.strays_finishAll {h : Hw} {f} {status} {p} {payload} : (h.finishAll f status p payload).strays = h.strays :=
  Hw.only_finishAll.strays (by decide) (by decide)

@[simp] theorem Hw.strays_correctTime {h : Hw} {off} : (h.correctTime off).strays = h.strays := by
  unfold Hw.correctTime
  dsimp only
  simp [↓Hw.strays_with]

@[simp] theorem Hw.strays_holdover {h : Hw} : h.holdover.strays = h.strays :=
  Hw.only_holdover.strays (by decide) (by decide)

@[simp] theorem Hw.strays_modLink {h : Hw} {n} {f} : (h.modLink n f).strays = h.strays := by
  unfold Hw.modLink
  simp [↓Hw.strays_with]

@[simp] theorem Hw.strays_returnUnits {h : Hw} {src} {p} : (h.returnUnits src p).strays = h.strays := by
  unfold Hw.returnUnits
  split <;> simp

@[simp] theorem Hw.strays_deliver {h : Hw} {p} {link} : (h.deliver p link).strays = h.strays := by
  unfold Hw.deliver
  dsimp only
  simp [↓Hw.strays_with]

@[simp] theorem Hw.strays_routePkt {h : Hw} {hub} {src} {p} : (h.routePkt hub src p).strays = h.strays := by
  unfold Hw.routePkt
  repeat' split
  all_goals simp

@[simp] theorem Hw.strays_inject {h : Hw} {hub} {p} : (h.inject hub p).strays = h.strays := by
  unfold Hw.inject
  dsimp only
  simp [↓Hw.strays_with]

@[simp] theorem Hw.strays_drainInj {h : Hw} : h.drainInj.strays = h.strays := by
  unfold Hw.drainInj
  dsimp only
  simp [↓Hw.strays_with]

@[simp] theorem Hw.strays_undeliver {h : Hw} {f} : (h.undeliver f).strays = h.strays := by
  unfold Hw.undeliver
  dsimp only
  simp [↓Hw.strays_with]

@[simp] theorem Hw.strays_onDelivered {f} {h : Hw} {g} (e : ∀ d k, (g d k).strays = k.strays) :
    (h.onDelivered f g).strays = h.strays := by
  unfold Hw.onDelivered
  split <;> simp [e]

theorem Hw.strays_takeXtag {h k : Hw} {due n : Nat} (e : h.takeXtag due = some (n, k)) : k.strays = h.strays := by
  unfold Hw.takeXtag at e
  split at e
  · cases e
  · dsimp only at e
    split at e
    · cases e
    · obtain ⟨-, rfl⟩ := Prod.mk.inj (Option.some.inj e)
      simp [↓Hw.strays_with]

@[simp] theorem Hw.strays_freeXtag {h : Hw} {t} : (h.freeXtag t).strays = h.strays := by
  unfold Hw.freeXtag
  dsimp only
  simp [↓Hw.strays_with]

@[simp] theorem Hw.strays_modGrp {h : Hw} {g} {f} : (h.modGrp g f).strays = h.strays :=
  Hw.only_modGrp.strays (by decide) (by decide)

@[simp] theorem Hw.strays_squallPass {h : Hw} {peers} {payload} : (h.squallPass peers payload).strays = h.strays := by
  simp [Hw.squallPass]

@[simp] theorem Hw.strays_sendSquall {h : Hw} {r} {handle} {peers} : (h.sendSquall r handle peers).strays = h.strays := by
  unfold Hw.sendSquall
  dsimp only
  simp [↓Hw.strays_with]

@[simp] theorem Hw.strays_noteEpoch {h : Hw} {c} {f} : (h.noteEpoch c f).strays = h.strays :=
  Hw.only_noteEpoch.strays (by decide) (by decide)

@[simp] theorem Hw.strays_reissue {h : Hw} {c} : (h.reissue c).strays = h.strays :=
  Hw.only_reissue.strays (by decide) (by decide)

@[simp] theorem Hw.strays_repaceClus {h : Hw} {c} : (h.repaceClus c).strays = h.strays := by
  unfold Hw.repaceClus
  dsimp only
  simp [↓Hw.strays_with]

@[simp] theorem Hw.strays_repaceDie {h : Hw} {d} : (h.repaceDie d).strays = h.strays :=
  Hw.only_repaceDie.strays (by decide) (by decide)

@[simp] theorem Hw.strays_repace {h : Hw} : h.repace.strays = h.strays := by simp [Hw.repace]

@[simp] theorem Hw.strays_writeSlips {h : Hw} {m} {c} {faulted} : (h.writeSlips m c faulted).1.strays = h.strays :=
  Hw.only_writeSlips.strays (by decide) (by decide)

@[simp] theorem Hw.strays_setBank {h : Hw} {a code} : (h.setBank a code).strays = h.strays :=
  Hw.only_setBank.strays (by decide) (by decide)

@[simp] theorem Hw.strays_bankTo {h : Hw} {a code} : (h.bankTo a code).1.strays = h.strays :=
  Hw.only_bankTo.strays (by decide) (by decide)

@[simp] theorem Hw.strays_banksOff {h : Hw} {as} : (h.banksOff as).1.strays = h.strays :=
  Hw.only_banksOff.strays (by decide) (by decide)

@[simp] theorem Hw.strays_clearEngines {h : Hw} {k job} : (h.clearEngines k job).strays = h.strays :=
  Hw.only_clearEngines.strays (by decide) (by decide)

@[simp] theorem Hw.strays_releaseCtx {h : Hw} {c} {fence} : (h.releaseCtx c fence).1.strays = h.strays :=
  Hw.only_releaseCtx.strays (by decide) (by decide)

@[simp] theorem Hw.strays_faultHistory {h : Hw} {x} {r} : (h.faultHistory x r).strays = h.strays := by
  unfold Hw.faultHistory
  dsimp only
  repeat' split
  all_goals simp

@[simp] theorem Hw.strays_captureClus {h : Hw} {x} {r} {lc c} : (h.captureClus x r lc c).1.strays = h.strays := by
  unfold Hw.captureClus
  dsimp only
  simp

@[simp] theorem Hw.strays_captures {h : Hw} {x} {r} : (h.captures x r).1.strays = h.strays := by simp [Hw.captures]

@[simp] theorem Hw.strays_domsAdvance {h : Hw} : h.domsAdvance.strays = h.strays := by
  unfold Hw.domsAdvance
  simp [↓Hw.strays_with]

@[simp] theorem Hw.strays_abortDone {h : Hw} {hd} : (h.abortDone hd).strays = h.strays := by simp [Hw.abortDone]

@[simp] theorem Hw.strays_endDrain {h : Hw} {c} : (h.endDrain c).1.strays = h.strays := by
  unfold Hw.endDrain
  split <;> simp [↓Hw.strays_with]

@[simp] theorem Hw.strays_startDrain {h : Hw} {c} : (h.startDrain c).1.strays = h.strays := by
  unfold Hw.startDrain
  split <;> simp

@[simp] theorem Hw.strays_reportFault {h : Hw} {c} {x} {r} : (h.reportFault c x r).strays = h.strays := by
  unfold Hw.reportFault
  split <;> simp

@[simp] theorem strays_faultEff {c} {h : Hw} {m} : (faultEff c h m).1.strays = h.strays := by
  unfold faultEff
  repeat' split
  all_goals simp [↓Hw.strays_with]

@[simp] theorem strays_contextFaultEff {ctx} {fw} {s : State} : (contextFaultEff ctx fw s).hw.strays = s.hw.strays := by
  unfold contextFaultEff
  split <;> simp

@[simp] theorem Hw.strays_faultAll {h : Hw} {cond} : (h.faultAll cond).strays = h.strays := by simp [Hw.faultAll]

@[simp] theorem strays_squallPassHw {h : Hw} : (squallPassHw h).strays = h.strays := by
  unfold squallPassHw
  split <;> simp [↓Hw.strays_with]

@[simp] theorem Hw.strays_squallFault {h : Hw} {c} {r} {origin} : (h.squallFault c r origin).strays = h.strays := by
  unfold Hw.squallFault
  dsimp only
  simp

@[simp] theorem Hw.strays_squallIn {h : Hw} {pl} : (h.squallIn pl).strays = h.strays := by
  unfold Hw.squallIn
  dsimp only
  repeat' split
  all_goals simp [↓Hw.strays_with]

@[simp] theorem strays_squallReceiveHw {h : Hw} : (squallReceiveHw h).strays = h.strays := by simp [squallReceiveHw]

@[simp] theorem Hw.strays_clearErrs {h : Hw} {k} : (h.clearErrs k).strays = h.strays := by simp [Hw.clearErrs]

@[simp] theorem Hw.strays_clearCore {h : Hw} {k} : (h.clearCore k).1.strays = h.strays := by simp [Hw.clearCore]

@[simp] theorem Hw.strays_clearClus {h : Hw} {c} : (h.clearClus c).1.strays = h.strays := by
  unfold Hw.clearClus
  dsimp -iota only
  split
  rename_i e
  simp [strays_of_eq e, ↓Hw.strays_with]

@[simp] theorem strays_foldEff {f} {h : Hw} {ks} (e : ∀ k n, (f k n).1.strays = k.strays) : (foldEff f h ks).1.strays = h.strays :=
  strays_foldl_fst (p := (h, [])) fun p x => e p.1 x

@[simp] theorem Hw.strays_modDom {h : Hw} {kind unit} {f} : (h.modDom kind unit f).strays = h.strays := by
  unfold Hw.modDom
  simp [↓Hw.strays_with]

@[simp] theorem Hw.strays_domDrained {h : Hw} {kind unit} : (h.domDrained kind unit).1.strays = h.strays := by
  unfold Hw.domDrained
  split <;> simp

@[simp] theorem strays_drainDoneEff {w} {s : State} : (drainDoneEff w s).hw.strays = s.hw.strays := by
  unfold drainDoneEff
  split <;> simp

@[simp] theorem Hw.strays_abandoned {h : Hw} {what n} : (h.abandoned what n).strays = h.strays := by simp [Hw.abandoned]

@[simp] theorem strays_drainTimeoutEff {w} {n} {s : State} : (drainTimeoutEff w n s).hw.strays = s.hw.strays := by
  unfold drainTimeoutEff
  dsimp only
  repeat' split
  all_goals simp

@[simp] theorem Hw.strays_unitChecked {h : Hw} {punit} {pass} : (h.unitChecked punit pass).strays = h.strays := by
  unfold Hw.unitChecked
  dsimp only
  simp [↓Hw.strays_with]

@[simp] theorem strays_unitCheckHw {punit} {pass} {h : Hw} : (unitCheckHw punit pass h).strays = h.strays := by
  simp [unitCheckHw]

@[simp] theorem strays_historyExpiryHw {h : Hw} : (historyExpiryHw h).strays = h.strays := by
  unfold historyExpiryHw
  dsimp only
  simp [↓Hw.strays_with]

@[simp] theorem strays_historySaveHw {h : Hw} : (historySaveHw h).strays = h.strays := by
  unfold historySaveHw
  dsimp only
  simp [↓Hw.strays_with]

@[simp] theorem Hw.strays_underflow {h : Hw} {c} : (h.underflow c).strays = h.strays :=
  Hw.only_underflow.strays (by decide) (by decide)

@[simp] theorem Hw.strays_stopCheck {h : Hw} {c} : (h.stopCheck c).strays = h.strays :=
  Hw.only_stopCheck.strays (by decide) (by decide)

@[simp] theorem Hw.strays_applyForecast {h : Hw} {c desc} {past} : (h.applyForecast c desc past).strays = h.strays :=
  Hw.only_applyForecast.strays (by decide) (by decide)

@[simp] theorem Hw.strays_bankStates {h : Hw} {plan} : (h.bankStates plan).1.strays = h.strays :=
  Hw.only_bankStates.strays (by decide) (by decide)

@[simp] theorem Hw.strays_latchLens {h : Hw} {m} {c} {x} : (h.latchLens m c x).1.strays = h.strays :=
  Hw.only_latchLens.strays (by decide) (by decide)

@[simp] theorem Hw.strays_finishBarrier {h : Hw} {m} {c} : (h.finishBarrier m c).1.strays = h.strays :=
  Hw.only_finishBarrier.strays (by decide) (by decide)

end Sys2Proof.Machine
end

section
/-!
PROOFS. The host's sessions, the contexts and the security processor keep the stray parts; and what it is for the own effect of a
packet to do so.
-/
namespace Sys2Proof.Machine

@[simp] theorem Hw.strays_receive {h : Hw} {c} : (h.receive c).strays = h.strays := by
  unfold Hw.receive
  dsimp only
  simp [↓Hw.strays_with]

@[simp] theorem Hw.strays_endSessions {h : Hw} {f} : (h.endSessions f).strays = h.strays :=
  Hw.only_endSessions.strays (by decide) (by decide)

@[simp] theorem Hw.strays_ycpDrop {h : Hw} {port} : (h.ycpDrop port).strays = h.strays := by simp [Hw.ycpDrop]

/-- The own effect of a packet, and what comes after it, keep the stray parts of every machine. -/
def Did.Tame (d : Did) (h : Hw) : Prop := d.hw.strays = h.strays ∧ ∀ k : Hw, (d.next k).1.strays = k.strays

/-- The own effect of a packet, and what comes after it, at most take the power of the dies. -/
def Did.Sound (d : Did) (h : Hw) : Prop := h.Sheds d.hw ∧ ∀ k : Hw, k.Sheds (d.next k).1

theorem Did.Tame.sound {d : Did} {h : Hw} (t : d.Tame h) : d.Sound h := ⟨.inl t.1, fun k => .inl (t.2 k)⟩

theorem Did.sound_fail {h : Hw} {st} : (Did.fail h st).Sound h := ⟨.inl rfl, fun _ => .inl rfl⟩

@[simp] theorem Did.tame_fail {h k : Hw} {st} : (Did.fail k st).Tame h ↔ k.strays = h.strays := by simp [Did.Tame, Did.fail]

@[simp] theorem Hw.strays_keepRec {h : Hw} {x} {hd} {opcode} {p} : (h.keepRec x hd opcode p).strays = h.strays :=
  Hw.only_keepRec.strays (by decide) (by decide)

@[simp] theorem Hw.strays_answer {h : Hw} {hd} {opcode} {r} : (h.answer hd opcode r).strays = h.strays :=
  Hw.only_answer.strays (by decide) (by decide)

@[simp] theorem Hw.strays_hostServed {h : Hw} : h.hostServed.strays = h.strays :=
  Hw.only_hostServed.strays (by decide) (by decide)

@[simp] theorem strays_refuse {sp} {hd} {h : Hw} {status} : (refuse sp hd h status).hw.strays = h.strays := by
  simp [refuse]

@[simp] theorem Hw.strays_helloReply {h : Hw} {hd} {p} {payload} : (h.helloReply hd p payload).strays = h.strays := by
  unfold Hw.helloReply
  dsimp only
  simp [↓Hw.strays_with]

@[simp] theorem Hw.strays_helloNew {h : Hw} {hd} {payload} : (h.helloNew hd payload).strays = h.strays := by
  unfold Hw.helloNew
  dsimp only
  simp [↓Hw.strays_with]

@[simp] theorem strays_helloHw {hd} {version} {payload} {s : State} : (helloHw hd version payload s).strays = s.hw.strays := by
  simp [helloHw]

@[simp] theorem strays_sessionOpenHw {hd} {p0} {payload} {s : State} : (sessionOpenHw hd p0 payload s).strays = s.hw.strays := by
  unfold sessionOpenHw
  dsimp only
  repeat' split
  all_goals simp

@[simp] theorem strays_openTimeoutHw {id} {h : Hw} : (openTimeoutHw id h).strays = h.strays := by simp [openTimeoutHw]

@[simp] theorem strays_rekeyLimitHw {id} {h : Hw} : (rekeyLimitHw id h).strays = h.strays := by
  unfold rekeyLimitHw
  simp

@[simp] theorem strays_rekeyCloseHw {id} {h : Hw} : (rekeyCloseHw id h).strays = h.strays := by
  unfold rekeyCloseHw
  simp

@[simp] theorem strays_oldKeyHw {id} {h : Hw} : (oldKeyHw id h).strays = h.strays := by
  unfold oldKeyHw
  simp

@[simp] theorem Hw.strays_setSlot {h : Hw} {n st} : (h.setSlot n st).strays = h.strays := by
  have e : savedReg Reg.HUB_FW_STATUS = true := by decide
  unfold Hw.setSlot
  simp [↓Hw.strays_mk, strayParts_put e, ↓strayParts_hw, strayParts_hw]

theorem tame_createBody {p0 p1 p2 p3} {s : State} {h : Hw} : (createBody p0 p1 p2 p3 s h).Tame h := by
  unfold createBody
  dsimp only
  repeat' split
  all_goals simp [Did.Tame, Did.fail, ↓Hw.strays_with]

@[simp] theorem Hw.strays_startCtx {h : Hw} {m} {c} {x} : (h.startCtx m c x).strays = h.strays := by
  unfold Hw.startCtx
  dsimp -iota only
  repeat' split
  all_goals
    rename_i e
    simp [strays_of_eq e, ↓Hw.strays_with]

@[simp] theorem Hw.strays_resumeCtx {h : Hw} {c} : (h.resumeCtx c).strays = h.strays := by
  unfold Hw.resumeCtx
  dsimp only
  simp

theorem tame_startBody {handle} {sn} {s : State} {h : Hw} : (startBody handle sn s h).Tame h := by
  unfold startBody
  repeat' split
  all_goals simp [Did.Tame, Did.fail]

theorem tame_stopBody {handle} {s : State} {h : Hw} : (stopBody handle s h).Tame h := by
  unfold stopBody
  repeat' split
  all_goals simp [Did.Tame, Did.fail]

@[simp] theorem Hw.strays_abortSquall {h : Hw} {c} {x} : (h.abortSquall c x).strays = h.strays := by
  unfold Hw.abortSquall
  repeat' split
  all_goals simp

@[simp] theorem Hw.strays_abandonLoad {h : Hw} {c} : (h.abandonLoad c).strays = h.strays := by
  unfold Hw.abandonLoad
  dsimp only
  simp [↓Hw.strays_withPlu]

@[simp] theorem Hw.strays_abortCtx {h : Hw} {c} {squall} : (h.abortCtx c squall).1.strays = h.strays := by
  unfold Hw.abortCtx
  repeat' split
  all_goals simp

@[simp] theorem Hw.strays_abortAll {h : Hw} {cs} : (h.abortAll cs).1.strays = h.strays := by simp [Hw.abortAll]

theorem tame_abortBody {handle} {p0} {s : State} {h : Hw} : (abortBody handle p0 s h).Tame h := by
  unfold abortBody
  repeat' split
  all_goals simp [Did.Tame, Did.fail]

theorem tame_queryBody {handle} {p0} {s : State} {h : Hw} : (queryBody handle p0 s h).Tame h := by
  unfold queryBody
  split <;> simp [Did.Tame, Did.fail]

@[simp] theorem Hw.strays_lcRegs {h : Hw} {f} : (h.lcRegs f).strays = h.strays := by simp [Hw.lcRegs]

@[simp] theorem Hw.strays_keyValid {h : Hw} : h.keyValid.strays = h.strays := by simp [Hw.keyValid]

@[simp] theorem Hw.strays_wipe {h : Hw} {hub cause} : (h.wipe hub cause).strays = h.strays := by simp [Hw.wipe]

@[simp] theorem Hw.strays_askWipe {h : Hw} {hub} : (h.askWipe hub).strays = h.strays := by
  unfold Hw.askWipe
  dsimp only
  simp [↓Hw.strays_with]

@[simp] theorem strays_tamperHw {hub} {cause} {h : Hw} : (tamperHw hub cause h).strays = h.strays := by simp [tamperHw]

@[simp] theorem strays_wipeRequestHw {hub} {h : Hw} : (wipeRequestHw hub h).strays = h.strays := by
  unfold wipeRequestHw
  dsimp only
  simp [↓Hw.strays_with]

@[simp] theorem Hw.strays_newCert {h : Hw} : h.newCert.2.strays = h.strays := by simp [Hw.newCert]

@[simp] theorem Hw.strays_abortNow {m} {h : Hw} {c} : (Hw.abortNow m h c).1.strays = h.strays := by simp [Hw.abortNow]

@[simp] theorem Hw.strays_transition {s : State} {hd} {toSt} {cert} {owners} {burnt} {h : Hw} :
    (Hw.transition s hd toSt cert owners burnt h).1.strays = h.strays := by
  unfold Hw.transition
  dsimp only
  simp [↓Hw.strays_with]

theorem tame_lifecycleBody {hd} {p0} {r} {s : State} {h : Hw} : (lifecycleBody hd p0 r s h).Tame h := by
  unfold lifecycleBody
  dsimp only
  repeat' split
  all_goals simp [Did.Tame, Did.fail, ↓Hw.strays_with]

@[simp] theorem Hw.strays_keyCommit {h : Hw} {f} {slot} : (h.keyCommit f slot).2.strays = h.strays := by
  unfold Hw.keyCommit
  dsimp only
  repeat' split
  all_goals simp [↓Hw.strays_with]

@[simp] theorem Hw.strays_keyRemove {h : Hw} {f} {slot} : (h.keyRemove f slot).2.strays = h.strays := by
  unfold Hw.keyRemove
  split <;> simp [↓Hw.strays_with]

@[simp] theorem Hw.strays_keyCtrlSaved {h : Hw} {f} : (h.keyCtrlSaved f).strays = h.strays := by
  have e : savedReg Reg.SEP_KEY_CTRL = true := by decide
  unfold Hw.keyCtrlSaved
  simp [↓Hw.strays_mk, strayParts_put e, strayParts_hw]

@[simp] theorem Hw.strays_setServiceEn {h : Hw} {f} {on} : (h.setServiceEn f on).strays = h.strays := by
  simp [Hw.setServiceEn]

@[simp] theorem Hw.strays_setCx {h : Hw} {hub st} : (h.setCx hub st).strays = h.strays := by simp [Hw.setCx]

@[simp] theorem Hw.strays_startHandover {h : Hw} {cause} : (h.startHandover cause).strays = h.strays := by
  unfold Hw.startHandover
  dsimp only
  simp [↓Hw.strays_with]

@[simp] theorem Hw.strays_reboot {h : Hw} {hub} : (h.reboot hub).strays = h.strays := by
  unfold Hw.reboot
  dsimp only
  simp [↓Hw.strays_with]

@[simp] theorem Hw.strays_wake {h : Hw} {hub} : (h.wake hub).strays = h.strays := by simp [Hw.wake]

@[simp] theorem Hw.strays_freeAuth {h : Hw} {cause} : (h.freeAuth cause).strays = h.strays := by
  unfold Hw.freeAuth
  dsimp only
  simp [↓Hw.strays_with]

@[simp] theorem Hw.strays_grant {h : Hw} {hub cause} : (h.grant hub cause).strays = h.strays := by
  unfold Hw.grant
  dsimp only
  simp [↓Hw.strays_with]

@[simp] theorem Hw.strays_handoverEvent {h : Hw} {hub cause} : (h.handoverEvent hub cause).strays = h.strays := by
  simp [Hw.handoverEvent]

@[simp] theorem Hw.strays_logRaised {h : Hw} {what a b} : (h.logRaised what a b).strays = h.strays := by
  simp [Hw.logRaised]

@[simp] theorem Hw.strays_dropLoads {h : Hw} : h.dropLoads.strays = h.strays := by simp [Hw.dropLoads]

@[simp] theorem Hw.strays_dropMoves {m} {h : Hw} : (Hw.dropMoves m h).1.strays = h.strays := by
  unfold Hw.dropMoves
  dsimp only
  simp

@[simp] theorem Hw.strays_restartStage {h : Hw} : h.restartStage.strays = h.strays := by
  unfold Hw.restartStage
  dsimp only
  simp [↓Hw.strays_with]

@[simp] theorem Hw.strays_takeOver {m} {h : Hw} : (Hw.takeOver m h).1.strays = h.strays := by simp [Hw.takeOver]

@[simp] theorem Hw.strays_foldCtr {h : Hw} {bank n} : (h.foldCtr bank n).strays = h.strays := by
  unfold Hw.foldCtr
  dsimp only
  simp [↓Hw.strays_with]

@[simp] theorem Hw.strays_clearBank {h : Hw} {bank size} : (h.clearBank bank size).strays = h.strays := by
  unfold Hw.clearBank
  dsimp only
  simp [↓Hw.strays_with]

@[simp] theorem Hw.strays_clearCluster {h : Hw} {c} : (h.clearCluster c).strays = h.strays := by simp [Hw.clearCluster]

end Sys2Proof.Machine
end

section
/-!
PROOFS. Image loads, placements, firmware updates and the complexes keep the stray parts; what they save has a record.
-/
namespace Sys2Proof.Machine

@[simp] theorem Hw.strays_checkLoad {s : State} {c handle} {data} {h : Hw} : (Hw.checkLoad s c handle data h).strays = h.strays := by
  unfold Hw.checkLoad
  dsimp only
  repeat' split
  all_goals simp [↓Hw.strays_withPlu]

theorem tame_loadBody {handle} {p0 p1 p2} {payload} {s : State} {h : Hw} : (loadBody handle p0 p1 p2 payload s h).Tame h := by
  unfold loadBody
  dsimp only
  repeat' split
  all_goals simp [Did.Tame, Did.fail]

@[simp] theorem Hw.strays_placeFailed {h : Hw} {c e} : (h.placeFailed c e).strays = h.strays := by
  unfold Hw.placeFailed
  dsimp only
  simp

@[simp] theorem Hw.strays_goLive {h : Hw} {c} {x} {cl co} {pg} {pinned} : (h.goLive c x cl co pg pinned).1.strays = h.strays := by
  unfold Hw.goLive
  dsimp only
  simp

@[simp] theorem strays_placementBindEff {s : State} : (placementBindEff s).hw.strays = s.hw.strays := by
  unfold placementBindEff
  dsimp only
  repeat' split
  all_goals simp [↓Hw.strays_withPlu]

theorem tame_placeQueryBody {handle} {p0 p1 p2} {s : State} {h : Hw} : (placeQueryBody handle p0 p1 p2 s h).Tame h := by
  unfold placeQueryBody
  repeat' split
  all_goals simp [Did.Tame, Did.fail]

theorem tame_pinRecordBody {handle} {p1} {s : State} {h : Hw} : (pinRecordBody handle p1 s h).Tame h := by
  unfold pinRecordBody
  repeat' split
  all_goals simp [Did.Tame, Did.fail, ↓Hw.strays_withPlu]

theorem tame_pinBindBody {handle} {p1} {s : State} {h : Hw} : (pinBindBody handle p1 s h).Tame h := by
  unfold pinBindBody
  repeat' split
  all_goals simp [Did.Tame, Did.fail]

theorem tame_pinClearBody {p1} {s : State} {h : Hw} : (pinClearBody p1 s h).Tame h := by
  unfold pinClearBody
  split <;> simp [Did.Tame, Did.fail, ↓Hw.strays_withPlu]

@[simp] theorem Hw.strays_setStaging {h : Hw} {st} : (h.setStaging st).strays = h.strays := by simp [Hw.setStaging]

@[simp] theorem Hw.strays_stopForward {h : Hw} : h.stopForward.strays = h.strays := by
  unfold Hw.stopForward
  dsimp only
  simp [↓Hw.strays_with]

@[simp] theorem Hw.strays_beginDelta {h : Hw} {id len} {inbound} : (h.beginDelta id len inbound).strays = h.strays := by
  unfold Hw.beginDelta
  dsimp only
  simp only [↓Hw.strays_with, Hw.strays_setFld, Hw.strays_setStaging, Hw.strays_stopForward]

@[simp] theorem Hw.strays_stagePart {h : Hw} {off} {data} : (h.stagePart off data).strays = h.strays := by
  unfold Hw.stagePart
  dsimp only
  simp [↓Hw.strays_with]

theorem tame_deltaBeginBody {p0 p1} {s : State} {h : Hw} : (deltaBeginBody p0 p1 s h).Tame h := by
  unfold deltaBeginBody
  repeat' split
  all_goals simp [Did.Tame, Did.fail]

theorem tame_deltaDataBody {p0 p1} {payload} {flashOk} {s : State} {h : Hw} : (deltaDataBody p0 p1 payload flashOk s h).Tame h := by
  unfold deltaDataBody
  repeat' split
  all_goals simp [Did.Tame, Did.fail]

@[simp] theorem Hw.strays_sendChunk {h : Hw} {off tag} : (h.sendChunk off tag).strays = h.strays := by
  unfold Hw.sendChunk
  dsimp only
  simp

@[simp] theorem Hw.strays_pumpOne {h : Hw} : h.pumpOne.strays = h.strays := by
  unfold Hw.pumpOne
  dsimp only
  repeat' split
  case h_2 e => simp [Hw.strays_takeXtag e, ↓Hw.strays_with]
  all_goals simp

@[simp] theorem Hw.strays_pump {h : Hw} : h.pump.strays = h.strays := by simp [Hw.pump]

theorem tame_relayChainBody {p1 p2} {s : State} {h : Hw} : (relayChainBody p1 p2 s h).Tame h := by
  have e : savedReg Reg.HUB_RELAY_CFG = true := by decide
  unfold relayChainBody
  split
  · simp
  · simp [Did.Tame, ↓Hw.strays_mk, strayParts_put e, strayParts_hw]

theorem tame_startForwardBody {s : State} {h : Hw} : (startForwardBody s h).Tame h := by
  unfold startForwardBody
  repeat' split
  all_goals simp only [Did.Tame, Did.fail, ↓Hw.strays_with, Hw.strays_setFld, Hw.strays_setFlag, Hw.strays_stopForward, Hw.strays_pump,
    implies_true, and_self]

@[simp] theorem Hw.strays_relayIn {h : Hw} {id total off} {data} : (h.relayIn id total off data).2.strays = h.strays := by
  unfold Hw.relayIn
  dsimp only
  repeat' split
  all_goals simp

@[simp] theorem Hw.strays_relayOn {h : Hw} {forward} : (h.relayOn forward).strays = h.strays := by simp [Hw.relayOn]

@[simp] theorem strays_relayReceiveHw {h : Hw} : (relayReceiveHw h).strays = h.strays := by
  refine Hw.strays_onDelivered fun d k => ?_
  dsimp only
  (repeat' split) <;> simp

@[simp] theorem Hw.strays_resendChunk {h : Hw} {c} : (h.resendChunk c).strays = h.strays := by
  unfold Hw.resendChunk
  dsimp only
  simp [↓Hw.strays_with]

@[simp] theorem Hw.strays_chunkOk {h : Hw} {c} : (h.chunkOk c).strays = h.strays := by
  unfold Hw.chunkOk
  dsimp only
  repeat' split
  all_goals simp [↓Hw.strays_with]

@[simp] theorem strays_relayAckHw {h : Hw} : (relayAckHw h).strays = h.strays := by
  refine Hw.strays_onDelivered fun d k => ?_
  dsimp only
  (repeat' split) <;> simp

@[simp] theorem strays_relayResendHw {h : Hw} : (relayResendHw h).strays = h.strays := by
  unfold relayResendHw
  split <;> simp

theorem tame_fwActivateBody {p0} {s : State} {h : Hw} : (fwActivateBody p0 s h).Tame h := by
  unfold fwActivateBody
  repeat' split
  all_goals simp [Did.Tame, Did.fail]

@[simp] theorem Hw.strays_activateDone {h : Hw} {status} {p} : (h.activateDone status p).strays = h.strays := by
  simp [Hw.activateDone]

@[simp] theorem Hw.strays_rejectSlot {h : Hw} {slot reason} : (h.rejectSlot slot reason).strays = h.strays := by
  simp [Hw.rejectSlot]

@[simp] theorem strays_reconstructedHw {flashOk scanFits} {f} {h : Hw} : (reconstructedHw flashOk scanFits f h).strays = h.strays := by
  unfold reconstructedHw
  repeat' split
  all_goals simp [↓Hw.strays_with]

@[simp] theorem Hw.strays_startTrial {h : Hw} {former} : (h.startTrial former).strays = h.strays := by
  unfold Hw.startTrial
  dsimp only
  simp [↓Hw.strays_with]

@[simp] theorem Hw.strays_setUcode {h : Hw} {k} {u} : (h.setUcode k u).strays = h.strays := by
  unfold Hw.setUcode
  dsimp only
  simp [↓Hw.strays_with]

@[simp] theorem Hw.strays_countStale {h : Hw} : h.countStale.strays = h.strays := by simp [Hw.countStale]

@[simp] theorem Hw.strays_endTrial {h : Hw} {reason} : (h.endTrial reason).strays = h.strays := by
  unfold Hw.endTrial
  dsimp only
  repeat' split
  all_goals simp only [↓Hw.strays_with, Hw.strays_setFld, Hw.strays_setFlag, Hw.strays_activateDone, Hw.strays_rejectSlot,
    Hw.strays_countStale]

@[simp] theorem strays_confirmHw {h : Hw} : (confirmHw h).strays = h.strays := by
  unfold confirmHw
  split <;> simp [↓Hw.strays_with]

@[simp] theorem strays_fallBackEff {why} {m} {h : Hw} : (fallBackEff why m h).1.strays = h.strays := by
  unfold fallBackEff
  split <;> simp

@[simp] theorem strays_trialFallBackEff {why} {s : State} : (trialFallBackEff why s).hw.strays = s.hw.strays := by
  simp [trialFallBackEff]

@[simp] theorem strays_broadcastHw {die} {miss} {h : Hw} : (broadcastHw die miss h).strays = h.strays := by
  unfold broadcastHw
  split <;> simp [↓Hw.strays_with]

@[simp] theorem strays_bankSwitchHw {core} {h : Hw} : (bankSwitchHw core h).strays = h.strays := by
  unfold bankSwitchHw
  dsimp only
  simp

@[simp] theorem Hw.strays_reloadUcode {h : Hw} {k} : (h.reloadUcode k).strays = h.strays := by simp [Hw.reloadUcode]

@[simp] theorem strays_microcodeHw {core} {code} {h : Hw} : (microcodeHw core code h).strays = h.strays := by
  unfold microcodeHw
  dsimp only
  repeat' split
  all_goals simp

@[simp] theorem Hw.strays_cpxJournal {h : Hw} : h.cpxJournal.2.strays = h.strays := by simp [Hw.cpxJournal]

theorem tame_handoverBody {s : State} {h : Hw} : (handoverBody s h).Tame h := by
  unfold handoverBody
  repeat' split
  all_goals simp [Did.Tame, Did.fail]

theorem tame_preferBody {p0} {s : State} {h : Hw} : (preferBody p0 s h).Tame h := by
  have e : savedReg Reg.CPX_AUTH = true := by decide
  unfold preferBody
  split
  · simp
  · refine ⟨?_, fun _ => rfl⟩
    rw [Hw.strays_mk, strayParts_put e, Hw.setFld_plu, strayParts_hw]

@[simp] theorem strays_bootDoneHw {h : Hw} : (bootDoneHw h).strays = h.strays := by
  unfold bootDoneHw
  split <;> simp [↓Hw.strays_with]

@[simp] theorem strays_cutHw {h : Hw} : (cutHw h).strays = h.strays := by
  unfold cutHw
  repeat' split
  all_goals simp [↓Hw.strays_with]

@[simp] theorem strays_abandonHw {why} {h : Hw} : (abandonHw why h).strays = h.strays := by
  unfold abandonHw
  dsimp only
  repeat' split
  all_goals simp [↓Hw.strays_with]

@[simp] theorem strays_authRenewHw {checked} {h : Hw} : (authRenewHw checked h).strays = h.strays := by
  unfold authRenewHw
  dsimp only
  simp [↓Hw.strays_with]

@[simp] theorem Hw.strays_trialLost {h : Hw} : h.trialLost.strays = h.strays := by
  unfold Hw.trialLost
  split <;> simp [↓Hw.strays_with]

@[simp] theorem strays_authTimeoutHw {h : Hw} : (authTimeoutHw h).strays = h.strays := by simp [authTimeoutHw]

@[simp] theorem strays_renewalResumeHw {h : Hw} : (renewalResumeHw h).strays = h.strays := by
  unfold renewalResumeHw
  split <;> simp

@[simp] theorem Hw.strays_claimed {h : Hw} {hub cause} : (h.claimed hub cause).strays = h.strays := by simp [Hw.claimed]

@[simp] theorem strays_authClaimEff {hub} {both readable} {m} {h : Hw} : (authClaimEff hub both readable m h).1.strays = h.strays := by
  simp [authClaimEff]

@[simp] theorem strays_claimEff {hub} {both readable} {s : State} : (claimEff hub both readable s).hw.strays = s.hw.strays := by
  simp [claimEff]

@[simp] theorem strays_bootClaimHw {h : Hw} : (bootClaimHw h).strays = h.strays := by simp [bootClaimHw]

@[simp] theorem strays_selfTestEndHw {hub} {pass} {h : Hw} : (selfTestEndHw hub pass h).strays = h.strays := by
  simp [selfTestEndHw]

@[simp] theorem Hw.strays_degrade {h : Hw} {what} : (h.degrade what).strays = h.strays := by simp [Hw.degrade]

@[simp] theorem strays_degradationHw {words} {h : Hw} : (degradationHw words h).strays = h.strays := by
  unfold degradationHw
  dsimp only
  repeat' split
  all_goals simp [↓Hw.strays_with]

@[simp] theorem strays_selfCheckHw {pass} {h : Hw} : (selfCheckHw pass h).strays = h.strays := by simp [selfCheckHw]

@[simp] theorem strays_mirrorFailHw {h : Hw} : (mirrorFailHw h).strays = h.strays := by simp [mirrorFailHw]

@[simp] theorem strays_mirrorBackHw {h : Hw} : (mirrorBackHw h).strays = h.strays := by simp [mirrorBackHw]

@[simp] theorem strays_revertHw {h : Hw} : (revertHw h).strays = h.strays := by
  unfold revertHw
  dsimp only
  simp [↓Hw.strays_with]

end Sys2Proof.Machine
end

section
/-!
PROOFS. Bring-up, links and resets: a loss of the package's power leaves no die powered, stage S2 powers dies among the eight, and
the rest keep the stray parts.
-/
namespace Sys2Proof.Machine

@[simp] theorem Hw.strays_setStage {h : Hw} {n st reason} : (h.setStage n st reason).strays = h.strays := by
  simp [Hw.setStage]

@[simp] theorem Hw.strays_endStage {h : Hw} {st reason} : (h.endStage st reason).strays = h.strays := by
  simp [Hw.endStage]

@[simp] theorem Hw.strays_powerDown {h : Hw} : h.powerDown.strays = ([], h.strays.2) := by
  unfold Hw.powerDown
  dsimp only
  rw [Hw.strays_withPlu, Hw.strays_resources, Hw.strays_mk, strayParts_nil, Hw.strays_setFlag, Hw.strays_finishAll, Hw.strays_setFlag,
    Hw.strays_setFlag]

@[simp] theorem Hw.strays_mainOff {h : Hw} {c r} : (h.mainOff c r).1.strays = ([], h.strays.2) := by
  unfold Hw.mainOff
  dsimp only
  rw [Hw.strays_setFlag, Hw.strays_setFlag, Hw.strays_ite, Hw.strays_setStage, ite_self, Hw.strays_powerDown, Hw.strays_ite,
    Hw.strays_endStage, ite_self, Hw.strays_faultAll]

@[simp] theorem Hw.strays_bootSlot {h : Hw} {f} : (h.bootSlot f).1.strays = h.strays := by
  unfold Hw.bootSlot
  dsimp only
  repeat' split
  all_goals simp

@[simp] theorem Hw.strays_nvLoad1 {h : Hw} {a} {v} : (h.nvLoad1 a v).strays = h.strays := by simp [Hw.nvLoad1]

@[simp] theorem Hw.strays_nvLoad {h : Hw} : h.nvLoad.strays = h.strays := by
  rw [Hw.nvLoad, Hw.strays_setFld, strays_foldl fun _ _ => Hw.strays_nvLoad1, Hw.strays_setFld]

@[simp] theorem Hw.strays_s0 {h : Hw} {f} : (h.s0 f).1.strays = h.strays := by
  unfold Hw.s0
  dsimp only
  simp only [↓Hw.strays_with, Hw.strays_lcRegs, Hw.strays_keyValid, Hw.strays_bootSlot, Hw.strays_nvLoad]

@[simp] theorem Hw.strays_resetRegs {h : Hw} : h.resetRegs.strays = h.strays := by
  unfold Hw.resetRegs
  dsimp only
  simp [↓Hw.strays_with]

@[simp] theorem Hw.strays_abortsDone {h : Hw} : h.abortsDone.strays = h.strays := by simp [Hw.abortsDone]

@[simp] theorem Hw.strays_handReset {h : Hw} : h.handReset.strays = h.strays := by
  unfold Hw.handReset
  dsimp only
  simp [↓Hw.strays_with]

@[simp] theorem Hw.strays_packageReset {h : Hw} {f} : (h.packageReset f).1.strays = ([], h.strays.2) := by
  unfold Hw.packageReset
  dsimp only
  rw [Hw.strays_s0, Hw.strays_setStage, Hw.strays_setFlag, Hw.strays_setFlag, Hw.strays_mk, strayParts_nil, Hw.strays_setFlag,
    Hw.strays_resetRegs, Hw.strays_powerDown, Hw.strays_endSessions, Hw.strays_handReset, Hw.strays_stopForward, Hw.strays_ite,
    Hw.strays_endTrial, ite_self, Hw.strays_abortsDone]

@[simp] theorem Hw.strays_mctp {h : Hw} {dst} {body} : (h.mctp dst body).strays = h.strays := by
  unfold Hw.mctp
  dsimp only
  simp [↓Hw.strays_with]

@[simp] theorem Hw.strays_sendPlat {h : Hw} {e} : (h.sendPlat e).strays = h.strays := by
  unfold Hw.sendPlat
  split <;> simp

@[simp] theorem Hw.strays_noteSensor {h : Hw} {n} : (h.noteSensor n).strays = h.strays := by
  unfold Hw.noteSensor
  dsimp only
  simp [↓Hw.strays_with]

@[simp] theorem Hw.strays_foehnStop {h : Hw} : h.foehnStop.strays = h.strays :=
  Hw.only_foehnStop.strays (by decide) (by decide)

@[simp] theorem Hw.strays_platform {h : Hw} : h.platform.strays = h.strays := by simp [Hw.platform]

@[simp] theorem Hw.strays_protect {h h0 : Hw} {a u} : (h.protect h0 a u).strays = h.strays := by
  rw [Hw.protect, Hw.strays_with]

@[simp] theorem Hw.strays_protLog {h : Hw} : h.protLog.strays = h.strays := by
  unfold Hw.protLog
  dsimp only
  simp only [↓Hw.strays_with, Hw.strays_log, strays_foldl, implies_true]

@[simp] theorem Hw.strays_thermal {h : Hw} {cause unit} {reading} : (h.thermal cause unit reading).strays = h.strays :=
  Hw.only_thermal.strays (by decide) (by decide)

@[simp] theorem Hw.strays_cooling {h : Hw} {cause unit} {reading} : (h.cooling cause unit reading).strays = h.strays := by
  simp [Hw.cooling]

@[simp] theorem Hw.strays_degradeCheck {h : Hw} {unit} {fresh} : (h.degradeCheck unit fresh).strays = h.strays := by
  simp [Hw.degradeCheck]

@[simp] theorem Hw.strays_packageResetAll {h : Hw} {f} : (h.packageResetAll f).1.strays = ([], h.strays.2) := by
  unfold Hw.packageResetAll
  rw [Hw.strays_platform, Hw.strays_setFlag, Hw.strays_packageReset]

@[simp] theorem Hw.strays_setLinkState {h : Hw} {n st} : (h.setLinkState n st).strays = h.strays := by
  simp [Hw.setLinkState]

@[simp] theorem Hw.strays_modLane {h : Hw} {n i} {f} : (h.modLane n i f).strays = h.strays := by
  unfold Hw.modLane
  simp

@[simp] theorem Hw.strays_setLock {h : Hw} {n i} {b} : (h.setLock n i b).strays = h.strays := by simp [Hw.setLock]

@[simp] theorem Hw.strays_abortScan {h : Hw} {n i} : (h.abortScan n i).strays = h.strays := by
  unfold Hw.abortScan
  split <;> simp

@[simp] theorem Hw.strays_abortScans {h : Hw} {n} : (h.abortScans n).strays = h.strays := by simp [Hw.abortScans]

@[simp] theorem Hw.strays_advanceTraining {h : Hw} {n} : (h.advanceTraining n).strays = h.strays := by
  unfold Hw.advanceTraining
  dsimp only
  simp

@[simp] theorem Hw.strays_beginTraining {h : Hw} {n} {full} : (h.beginTraining n full).strays = h.strays := by
  unfold Hw.beginTraining
  dsimp only
  simp

@[simp] theorem Hw.strays_failTraining {h : Hw} {n reason} : (h.failTraining n reason).strays = h.strays := by
  unfold Hw.failTraining
  dsimp only
  simp

@[simp] theorem Hw.strays_reroute {h : Hw} {n} : (h.reroute n).strays = h.strays := by
  unfold Hw.reroute
  dsimp only
  rw [strays_foldl, Hw.strays_modLink]
  intro k x
  (repeat' split) <;> simp only [Hw.strays_returnUnits, Hw.strays_satFld, Hw.strays_modLink]

@[simp] theorem Hw.strays_forgetSource {h : Hw} {n} : (h.forgetSource n).strays = h.strays := by
  unfold Hw.forgetSource
  dsimp only
  simp [↓Hw.strays_with]

@[simp] theorem Hw.strays_linkDown {h : Hw} {n reason} : (h.linkDown n reason).strays = h.strays := by
  unfold Hw.linkDown
  dsimp only
  simp only [Hw.strays_setFld, Hw.strays_modLink, Hw.strays_setLinkState, Hw.strays_beginTraining, Hw.strays_reroute,
    Hw.strays_forgetSource, Hw.strays_ite, ite_self]

@[simp] theorem Hw.strays_linkUp {h : Hw} {n} : (h.linkUp n).strays = h.strays := by
  unfold Hw.linkUp
  dsimp only
  simp only [Hw.strays_setFlag, Hw.strays_modLink, Hw.strays_setLinkState]

@[simp] theorem Hw.strays_signalLost {h : Hw} {n reason pass} : (h.signalLost n reason pass).strays = h.strays := by
  unfold Hw.signalLost
  repeat' split
  all_goals simp only [Hw.strays_failTraining, Hw.strays_linkDown]

@[simp] theorem strays_losAssertHw {n} {l} {pwr} {h : Hw} : (losAssertHw n l pwr h).strays = h.strays := by
  simp [losAssertHw]

@[simp] theorem strays_losClearHw {n} {l} {pwr} {h : Hw} : (losClearHw n l pwr h).strays = h.strays := by
  unfold losClearHw
  dsimp only
  simp only [Hw.strays_setFld, Hw.strays_setFlag, Hw.strays_modLink, Hw.strays_advanceTraining, Hw.strays_ite,
    ite_self]

@[simp] theorem strays_lolAssertHw {n} {l} {h : Hw} : (lolAssertHw n l h).strays = h.strays := by
  unfold lolAssertHw
  dsimp only
  simp only [Hw.strays_setFlag, Hw.strays_modLane, Hw.strays_setLock, Hw.strays_signalLost]

@[simp] theorem strays_lolClearHw {n} {l} {h : Hw} : (lolClearHw n l h).strays = h.strays := by simp [lolClearHw]

@[simp] theorem Hw.strays_block {n} {h : Hw} {b} : (Hw.block n h b).strays = h.strays := by
  unfold Hw.block
  split <;> simp

@[simp] theorem Hw.strays_codewordInOrder {n} {h : Hw} {cw} : (Hw.codewordInOrder n h cw).strays = h.strays := by
  unfold Hw.codewordInOrder
  split <;> simp

@[simp] theorem Hw.strays_reorder {n fuel} {h : Hw} : (Hw.reorder n fuel h).strays = h.strays := by
  induction fuel generalizing h with
  | zero => rfl
  | succ fuel ih =>
    unfold Hw.reorder
    (repeat' split)
    · rfl
    · rfl
    · dsimp only
      rw [ih, Hw.strays_codewordInOrder, Hw.strays_modLink]

@[simp] theorem Hw.strays_lstateIn {h : Hw} {n st} : (h.lstateIn n st).strays = h.strays := by
  unfold Hw.lstateIn
  dsimp only
  simp

@[simp] theorem Hw.strays_replay {h : Hw} {n} : (h.replay n).strays = h.strays := by
  unfold Hw.replay
  dsimp only
  repeat' split
  all_goals simp

@[simp] theorem Hw.strays_llcIn {h : Hw} {n llc} : (h.llcIn n llc).strays = h.strays := by
  unfold Hw.llcIn
  repeat' split
  all_goals simp

@[simp] theorem Hw.strays_ucw {h : Hw} {n} : (h.ucw n).strays = h.strays := by
  unfold Hw.ucw
  dsimp only
  simp only [Hw.strays_satFld, Hw.strays_modLink, Hw.strays_linkDown, Hw.strays_ite, ite_self]

@[simp] theorem strays_codewordHw {n lane wrong ctl blocks badHeads} {h : Hw} :
    (codewordHw n lane wrong ctl blocks badHeads h).strays = h.strays := by
  unfold codewordHw
  extract_lets was vs seq
  split
  split
  extract_lets h1 h2 h3 h4 h5 h6 h7
  have e1 : h1.strays = h.strays := by rw [Hw.strays_setLock, Hw.strays_modLane]
  have e2 : h2.strays = h.strays := by rw [Hw.strays_ucw, e1]
  have e7 : h7.strays = h.strays := by simp [h7, h6, h5, h4, h3, e1]
  split
  · rw [Hw.strays_signalLost, e1]
  · split
    · rw [Hw.strays_advanceTraining, e1]
    · split
      · split
        · exact e2
        · rw [Hw.strays_reorder, Hw.strays_modLink, e2]
      · split
        · exact e7
        · split
          · rw [Hw.strays_reorder, Hw.strays_modLink, e7]
          · exact e7

@[simp] theorem strays_codewordTxHw {n} {h : Hw} : (codewordTxHw n h).strays = h.strays := by
  unfold codewordTxHw
  dsimp only
  simp [↓Hw.strays_with]

@[simp] theorem Hw.strays_setLane {h : Hw} {n i ctle} {set} : (h.setLane n i ctle set).strays = h.strays := by
  unfold Hw.setLane
  simp

@[simp] theorem Hw.strays_adapted {h : Hw} {n} {res} : (h.adapted n res).strays = h.strays := by
  unfold Hw.adapted
  dsimp only
  simp

@[simp] theorem Hw.strays_deskewed {h : Hw} {n} {res} : (h.deskewed n res).strays = h.strays := by
  unfold Hw.deskewed
  dsimp only
  simp

@[simp] theorem strays_trainingStepHw {n} {res} {h : Hw} : (trainingStepHw n res h).strays = h.strays := by
  simp [trainingStepHw]

@[simp] theorem strays_trainingTimeoutHw {n} {h : Hw} : (trainingTimeoutHw n h).strays = h.strays := by
  simp [trainingTimeoutHw]

@[simp] theorem strays_identSendHw {n} {h : Hw} : (identSendHw n h).strays = h.strays := by
  unfold identSendHw
  dsimp only
  simp

@[simp] theorem strays_identReceiveHw {n} {h : Hw} : (identReceiveHw n h).strays = h.strays := by
  unfold identReceiveHw
  dsimp only
  repeat' split
  all_goals simp only [Hw.strays_setFld, Hw.strays_setFlag, Hw.strays_logNote, Hw.strays_modLink,
    Hw.strays_setLinkState]

@[simp] theorem strays_fecWindowHw {n} {h : Hw} : (fecWindowHw n h).strays = h.strays := by
  unfold fecWindowHw
  dsimp only
  simp only [Hw.strays_setFlag, Hw.strays_logNote, Hw.strays_modLink, Hw.strays_ite, ite_self]

@[simp] theorem strays_scanWriteHw {n} {l} {v} {h : Hw} : (scanWriteHw n l v h).strays = h.strays := by
  unfold scanWriteHw
  dsimp only
  simp only [Hw.strays_setFld, Hw.strays_setFlag, Hw.strays_modLane, Hw.strays_ite, ite_self]

@[simp] theorem strays_scanDoneHw {n} {l} {errors} {h : Hw} : (scanDoneHw n l errors h).strays = h.strays := by
  unfold scanDoneHw
  dsimp only
  repeat' split
  all_goals simp only [Hw.strays_setFld, Hw.strays_setFlag, Hw.strays_modLane]

@[simp] theorem Hw.strays_takeDown {h : Hw} {n st} : (h.takeDown n st).strays = h.strays := by
  unfold Hw.takeDown
  dsimp only
  simp

@[simp] theorem Hw.strays_retrain {h : Hw} {n} : (h.retrain n).strays = h.strays := by
  unfold Hw.retrain
  dsimp only
  simp

@[simp] theorem Hw.strays_enableLink {h : Hw} {n} {en} : (h.enableLink n en).strays = h.strays := by
  unfold Hw.enableLink
  dsimp only
  simp

@[simp] theorem Hw.strays_trainLinks {h : Hw} {full} : (h.trainLinks full).strays = h.strays := by
  unfold Hw.trainLinks
  dsimp only
  simp

@[simp] theorem Hw.strays_beginStage {h : Hw} {n} {full} : (h.beginStage n full).strays = h.strays := by
  unfold Hw.beginStage
  dsimp only
  simp [↓Hw.strays_with]

theorem tame_bringupBody {p0 p1} {s : State} {h : Hw} : (bringupBody p0 p1 s h).Tame h := by
  unfold bringupBody
  repeat' split
  all_goals simp [Did.Tame, Did.fail]

@[simp] theorem Hw.strays_bringupGo {h : Hw} {v} : (h.bringupGo v).strays = h.strays := by simp [Hw.bringupGo]

@[simp] theorem Hw.strays_setTrained {h : Hw} {cls} {us} : (h.setTrained cls us).strays = h.strays := by
  unfold Hw.setTrained
  dsimp only
  simp [↓Hw.strays_with]

theorem of_mem_foldl_insNat {l m : List Nat} {x : Nat} (e : x ∈ l.foldl insNat m) : x ∈ l ∨ x ∈ m := by
  induction l generalizing m with
  | nil => exact .inr e
  | cons y l ih =>
    obtain h | h := ih e
    · exact .inl (List.mem_cons_of_mem y h)
    · obtain rfl | h := (mem_insNat m y).1 h
      · exact .inl List.mem_cons_self
      · exact .inr h

/-- The end of stage S2 powers dies among the eight, or ends the stage without them. -/
theorem Hw.sheds_endS2 {h : Hw} {r} : h.Sheds (h.endS2 r) := by
  unfold Hw.endS2
  dsimp only
  split
  · left
    rw [Hw.strays_endStage]
  · right
    rw [Hw.strays_endStage, Hw.strays_repace, Hw.strays_mk]
    refine Prod.ext (List.filter_eq_nil_iff.2 ?_) rfl
    intro d hd
    obtain hm | hm := of_mem_foldl_insNat hd
    · obtain ⟨x, -, rfl⟩ := List.mem_map.1 hm
      simp
    · cases hm

@[simp] theorem Hw.strays_endS3 {h : Hw} {r} : (h.endS3 r).strays = h.strays := by simp [Hw.endS3]

@[simp] theorem Hw.strays_unitDead {h : Hw} {event} {u} : (h.unitDead event u).strays = h.strays := by
  simp [Hw.unitDead]

@[simp] theorem Hw.strays_endS4 {h : Hw} {r} : (h.endS4 r).strays = h.strays := by
  unfold Hw.endS4
  dsimp only
  simp [↓Hw.strays_withPlu]

theorem strays_banksEach {g : Nat → List Nat} {h : Hw} {ds} : (foldEff (fun h d => h.banksOff (g d)) h ds).1.strays = h.strays :=
  strays_foldEff fun _ _ => Hw.strays_banksOff

@[simp] theorem Hw.strays_endS5 {h : Hw} {r} : (h.endS5 r).1.strays = h.strays := by
  unfold Hw.endS5
  extract_lets bad h1
  split
  rename_i e1
  split
  rename_i e2
  rw [Hw.strays_endStage, Hw.strays_withPlu, Hw.strays_setFlag, Hw.strays_setFlag, Hw.strays_setFld, Hw.strays_setFlag,
    Hw.strays_setFld, strays_of_eq e2, strays_banksEach, strays_of_eq e1, strays_banksEach]
  exact strays_foldl fun _ _ => Hw.strays_unitDead

@[simp] theorem Hw.strays_endMapped {h : Hw} {st} : (h.endMapped st).strays = h.strays := by
  unfold Hw.endMapped
  dsimp only
  simp only [Hw.strays_resources, Hw.strays_endStage, Hw.strays_ite, ite_self]

@[simp] theorem Hw.strays_endS6 {h : Hw} : h.endS6.strays = h.strays := by
  unfold Hw.endS6
  dsimp only
  simp [↓Hw.strays_withPlu]

@[simp] theorem Hw.strays_endS7 {h : Hw} {r} : (h.endS7 r).strays = h.strays := by
  unfold Hw.endS7
  dsimp only
  simp [↓Hw.strays_withPlu]

@[simp] theorem Hw.strays_endS8 {h : Hw} : h.endS8.strays = h.strays := by simp [Hw.endS8]

@[simp] theorem Hw.strays_endS9 {h : Hw} {r} : (h.endS9 r).strays = h.strays := by simp [Hw.endS9]

@[simp] theorem Hw.strays_endS10 {h : Hw} : h.endS10.strays = h.strays := by
  unfold Hw.endS10
  dsimp only
  repeat' split
  all_goals simp [↓Hw.strays_with]

@[simp] theorem Hw.strays_timeoutStage {h : Hw} : h.timeoutStage.strays = h.strays := by simp [Hw.timeoutStage]

theorem sheds_stageEndEff {r} {h : Hw} : h.Sheds (stageEndEff r h).1 := by
  unfold stageEndEff
  (repeat' split)
  case h_2 => exact Hw.sheds_endS2
  all_goals
    left
    simp only [Hw.strays_timeoutStage, Hw.strays_endStage, Hw.strays_endS3, Hw.strays_endS4, Hw.strays_endS5,
      Hw.strays_endS6, Hw.strays_endS7, Hw.strays_endS8, Hw.strays_endS9, Hw.strays_endS10]

theorem sheds_stageEff {r} {s : State} : s.hw.Sheds (stageEff r s).hw := sheds_stageEndEff

@[simp] theorem strays_stageTimeoutHw {full} {h : Hw} : (stageTimeoutHw full h).strays = h.strays := by
  simp [stageTimeoutHw]

@[simp] theorem Hw.strays_saveTraining {h : Hw} {mask} : (h.saveTraining mask).strays = h.strays := by
  unfold Hw.saveTraining
  dsimp only
  simp [↓Hw.strays_with]

theorem tame_trainingSaveBody {hd} {p0} {flashOk} {s : State} {h : Hw} : (trainingSaveBody hd p0 flashOk s h).Tame h := by
  unfold trainingSaveBody
  split <;> simp [Did.Tame, Did.fail]

@[simp] theorem Hw.strays_startDomain {h : Hw} {d} : (h.startDomain d).1.strays = h.strays := by
  unfold Hw.startDomain
  dsimp only
  repeat' split
  all_goals simp only [↓Hw.strays_with, Hw.strays_setFld, Hw.strays_setFlag, Hw.strays_domsAdvance, Hw.strays_abortAll]

theorem Did.tame_ite {c : Prop} [Decidable c] {d e : Did} {h : Hw} (hd : d.Tame h) (he : e.Tame h) : (if c then d else e).Tame h := by
  split
  · exact hd
  · exact he

theorem tame_resetDomainBody {kind p1} {s : State} {h : Hw} : (resetDomainBody kind p1 s h).Tame h :=
  Did.tame_ite (Did.tame_fail.2 rfl) (Did.tame_ite (Did.tame_fail.2 rfl) (Did.tame_ite (Did.tame_fail.2 rfl)
    ⟨rfl, fun _ => Hw.strays_startDomain⟩))

theorem sound_resetPackageBody {hd p1} {s : State} {h : Hw} : (resetPackageBody hd p1 s h).Sound h := by
  unfold resetPackageBody
  split
  · exact Did.sound_fail
  · refine ⟨.inl rfl, fun k => .inr ?_⟩
    rw [Hw.strays_packageResetAll, Hw.strays_finishAll, Hw.strays_setFld, Hw.strays_setFld]

@[simp] theorem strays_resetEndHw {kind} {unit} {bad} {h : Hw} : (resetEndHw kind unit bad h).strays = h.strays := by
  unfold resetEndHw
  split <;> simp [↓Hw.strays_with]

@[simp] theorem Hw.strays_auxLost {h : Hw} : h.auxLost.strays = ([], h.strays.2) := by
  rw [Hw.auxLost, Hw.strays_mk, Hw.strays]
  rfl

theorem sheds_auxFallEff {h : Hw} : h.Sheds (auxFallEff h).1 := by
  unfold auxFallEff
  split
  · exact .inr Hw.strays_auxLost
  · exact .inl rfl

theorem sheds_auxFallAll {s : State} : s.hw.Sheds (auxFallAll s).hw := sheds_auxFallEff

@[simp] theorem Hw.strays_memTests {h : Hw} {hub} {t} : (h.memTests hub t).strays = h.strays := by simp [Hw.memTests]

@[simp] theorem Hw.strays_complexes {h : Hw} {bundle} {ta tb} : (h.complexes bundle ta tb).strays = h.strays := by
  simp [Hw.complexes]

@[simp] theorem strays_auxRiseHw {slot ta tb f} {h : Hw} : (auxRiseHw slot ta tb f h).strays = h.strays := by
  unfold auxRiseHw
  split
  · rfl
  · dsimp -iota only
    split
    rename_i e
    rw [Hw.strays_complexes, strays_of_eq e, Hw.strays_s0, Hw.strays_setStage, Hw.strays_memTests, Hw.strays_memTests, Hw.strays_with,
      Hw.strays_setFld, Hw.strays_setFlag]

@[simp] theorem Hw.strays_glitch {h : Hw} {sig} : (h.glitch sig).strays = h.strays := by
  rw [Hw.glitch, Hw.strays_logSev, Hw.strays_setFlag]

@[simp] theorem strays_mainPwrokHw {h : Hw} : (mainPwrokHw h).strays = h.strays := by
  unfold mainPwrokHw
  dsimp only
  simp only [↓Hw.strays_with, Hw.strays_setFlag, Hw.strays_endStage, Hw.strays_timeoutStage, Hw.strays_glitch, Hw.strays_ite, ite_self]

@[simp] theorem strays_hbmPwrokHw {h : Hw} : (hbmPwrokHw h).strays = h.strays := by
  unfold hbmPwrokHw
  dsimp only
  simp only [↓Hw.strays_with, Hw.strays_setFlag, Hw.strays_timeoutStage, Hw.strays_glitch, Hw.strays_ite, ite_self]

theorem sheds_pwrokFallEff {sig} {h : Hw} : h.Sheds (pwrokFallEff sig h).1 := by
  unfold pwrokFallEff
  dsimp only
  generalize (if sig = 0 then Fd.PKG_BOARD_STATUS.MAIN_PWROK else Fd.PKG_BOARD_STATUS.HBM_PWROK) = f
  split
  · exact .inl rfl
  · split
    · right
      rw [Hw.strays_setFlag, Hw.strays_mainOff, Hw.strays_setFlag]
    · left
      split
      · rw [Hw.strays_with, Hw.strays_setFlag]
      · rw [Hw.strays_setFlag]

theorem sheds_pwrokEff {sig} {s : State} : s.hw.Sheds (pwrokEff sig s).hw := sheds_pwrokFallEff

theorem sheds_pkgResetEff {f} {h : Hw} : h.Sheds (pkgResetEff f h).1 := by
  unfold pkgResetEff
  split
  · exact .inl rfl
  · right
    rw [Hw.strays_with, Hw.strays_packageResetAll]

theorem sheds_pkgResetAll {s : State} : s.hw.Sheds (pkgResetAll s).hw := sheds_pkgResetEff

@[simp] theorem strays_pkgReleaseHw {h : Hw} : (pkgReleaseHw h).strays = h.strays := by
  unfold pkgReleaseHw
  dsimp only
  simp [↓Hw.strays_with]

end Sys2Proof.Machine
end

section
/-!
PROOFS. Frames, time, paces, sensors, cooling and the sideband keep the stray parts, or take the package's power.
-/
namespace Sys2Proof.Machine

@[simp] theorem Hw.strays_frame {h : Hw} {port kind} {dst} {body} : (h.frame port kind dst body).strays = h.strays := by
  unfold Hw.frame
  simp [↓Hw.strays_with]

@[simp] theorem strays_arpHw {port} {src} {target} {h : Hw} : (arpHw port src target h).strays = h.strays := by
  simp [arpHw]

@[simp] theorem strays_echoHw {port} {src} {v6} {dst} {body} {h : Hw} : (echoHw port src v6 dst body h).strays = h.strays := by
  simp [echoHw]

@[simp] theorem strays_neighbourHw {port} {src} {solicit} {target} {h : Hw} :
    (neighbourHw port src solicit target h).strays = h.strays := by
  simp [neighbourHw]

@[simp] theorem strays_pfcHw {port} {mask} {quanta} {h : Hw} : (pfcHw port mask quanta h).strays = h.strays := by
  unfold pfcHw
  dsimp only
  simp [↓Hw.strays_with]

@[simp] theorem strays_frameDropHw {port} {h : Hw} : (frameDropHw port h).strays = h.strays := by simp [frameDropHw]

@[simp] theorem Hw.strays_chooseTime {h : Hw} : h.chooseTime.strays = h.strays :=
  Hw.only_chooseTime.strays (by decide) (by decide)

@[simp] theorem strays_announceHw {port} {domain} {ident} {rank} {h : Hw} :
    (announceHw port domain ident rank h).strays = h.strays := by
  unfold announceHw
  dsimp only
  simp [↓Hw.strays_with]

@[simp] theorem Hw.strays_usableSync {h : Hw} {port t1 t2} : (h.usableSync port t1 t2).strays = h.strays :=
  Hw.only_usableSync.strays (by decide) (by decide)

@[simp] theorem strays_syncHw {port} {domain} {ident} {t1} {h : Hw} : (syncHw port domain ident t1 h).strays = h.strays := by
  unfold syncHw
  repeat' split
  all_goals simp [↓Hw.strays_with]

@[simp] theorem strays_followUpHw {port} {domain} {ident t1} {h : Hw} : (followUpHw port domain ident t1 h).strays = h.strays := by
  unfold followUpHw
  repeat' split
  all_goals simp

@[simp] theorem strays_delayRespHw {port} {domain} {ident t4} {h : Hw} : (delayRespHw port domain ident t4 h).strays = h.strays := by
  unfold delayRespHw
  repeat' split
  all_goals simp [↓Hw.strays_with]

@[simp] theorem strays_sourceLossHw {h : Hw} : (sourceLossHw h).strays = h.strays := by
  unfold sourceLossHw
  split <;> simp

@[simp] theorem strays_epUpHw {port} {h : Hw} : (epUpHw port h).strays = h.strays := by simp [epUpHw]

@[simp] theorem strays_epDownHw {port} {h : Hw} : (epDownHw port h).strays = h.strays := by simp [epDownHw]

@[simp] theorem Hw.strays_setEff {h : Hw} : h.setEff.strays = h.strays := by simp [Hw.setEff]

theorem tame_powerCapBody {p0} {s : State} {h : Hw} : (powerCapBody p0 s h).Tame h := by
  have e : savedReg Reg.PWR_CAP = true := by decide
  refine Did.tame_ite (Did.tame_fail.2 rfl) ⟨?_, fun _ => rfl⟩
  rw [Hw.strays_mk, strayParts_put e, strayParts_hw, Hw.strays_logNote, Hw.strays_setEff, Hw.strays_setFld]

@[simp] theorem Hw.strays_setDiePace {h : Hw} {d v} : (h.setDiePace d v).strays = h.strays := by
  unfold Hw.setDiePace
  dsimp only
  simp [↓Hw.strays_with]

theorem tame_paceSetBody {p0 p1} {s : State} {h : Hw} : (paceSetBody p0 p1 s h).Tame h := by
  unfold paceSetBody
  dsimp only
  repeat' split
  all_goals simp [Did.Tame, Did.fail]

@[simp] theorem Hw.strays_setPaceMode {h : Hw} {fixed} {d} : (h.setPaceMode fixed d).strays = h.strays := by
  unfold Hw.setPaceMode
  dsimp only
  simp [↓Hw.strays_with]

theorem tame_paceModeBody {fixed} {p1} {s : State} {h : Hw} : (paceModeBody fixed p1 s h).Tame h := by
  unfold paceModeBody
  split <;> simp [Did.Tame, Did.fail]

@[simp] theorem Hw.strays_modAgree {h : Hw} {n} {f} : (h.modAgree n f).strays = h.strays := by
  unfold Hw.modAgree
  dsimp only
  simp [↓Hw.strays_with]

theorem Hw.strays_agreeStart {h k : Hw} {g} (e : h.agreeStart g = some k) : k.strays = h.strays := by
  unfold Hw.agreeStart at e
  split at e
  · cases e
  · obtain rfl := Option.some.inj e
    rw [Hw.strays_repace, Hw.strays_with, Hw.strays_setReg]

theorem tame_agreeStartBody {p1} {s : State} {h : Hw} : (agreeStartBody p1 s h).Tame h := by
  refine Did.tame_ite (Did.tame_fail.2 rfl) (Did.tame_ite (Did.tame_fail.2 rfl) (Did.tame_ite ⟨rfl, fun _ => rfl⟩ ?_))
  split
  · exact Did.tame_fail.2 rfl
  · rename_i e
    exact ⟨Hw.strays_logNote.trans (Hw.strays_agreeStart e), fun _ => rfl⟩

theorem tame_agreeStopBody {p1} {s : State} {h : Hw} : (agreeStopBody p1 s h).Tame h := by
  unfold agreeStopBody
  dsimp only
  repeat' split
  all_goals simp [Did.Tame, Did.fail, ↓Hw.strays_with]

@[simp] theorem Hw.strays_sendPace {h : Hw} {g} {k lap round pace low} : (h.sendPace g k lap round pace low).strays = h.strays := by
  simp [Hw.sendPace]

@[simp] theorem Hw.strays_agreed {h : Hw} {n pace} : (h.agreed n pace).strays = h.strays := by
  unfold Hw.agreed
  dsimp only
  simp [↓Hw.strays_with]

@[simp] theorem Hw.strays_paceForward {h : Hw} {n} {a} {round pace low} : (h.paceForward n a round pace low).strays = h.strays := by
  unfold Hw.paceForward
  dsimp only
  simp

@[simp] theorem strays_paceRoundHw {n} {h : Hw} : (paceRoundHw n h).strays = h.strays := by
  unfold paceRoundHw
  split <;> simp

@[simp] theorem Hw.strays_paceIn {h : Hw} {pl} : (h.paceIn pl).strays = h.strays := by
  unfold Hw.paceIn
  dsimp only
  repeat' split
  all_goals simp

@[simp] theorem strays_paceReceiveHw {h : Hw} : (paceReceiveHw h).strays = h.strays := by simp [paceReceiveHw]

@[simp] theorem strays_agreeLostHw {n} {h : Hw} : (agreeLostHw n h).strays = h.strays := by
  unfold agreeLostHw
  split <;> simp

@[simp] theorem Hw.strays_applyWaits {h : Hw} : h.applyWaits.strays = h.strays := by
  unfold Hw.applyWaits
  dsimp only
  simp [↓Hw.strays_with]

@[simp] theorem strays_trigHw {h : Hw} : (trigHw h).strays = h.strays := by simp [trigHw]

@[simp] theorem Hw.strays_holdOff {h : Hw} {f} : (h.holdOff f).1.strays = ([], h.strays.2) := by
  rw [Hw.holdOff, Hw.strays_mainOff, Hw.strays_setFlag]

theorem sound_mainOffBody {s : State} {h : Hw} : (mainOffBody s h).Sound h := by
  refine ⟨.inr ?_, fun k => .inl rfl⟩
  rw [mainOffBody, Hw.strays_holdOff, Hw.strays_logNote]

theorem tame_mainReleaseBody {s : State} {h : Hw} : (mainReleaseBody s h).Tame h := by simp [mainReleaseBody, Did.Tame]

@[simp] theorem Hw.strays_fastLimit {h : Hw} : h.fastLimit.strays = h.strays := by
  unfold Hw.fastLimit
  dsimp only
  simp [↓Hw.strays_with]

@[simp] theorem strays_powerSampleHw {w} {h : Hw} : (powerSampleHw w h).strays = h.strays := by
  unfold powerSampleHw
  dsimp only
  simp [↓Hw.strays_with]

@[simp] theorem Hw.strays_showCuts {h : Hw} : h.showCuts.strays = h.strays :=
  Hw.only_showCuts.strays (by decide) (by decide)

@[simp] theorem Hw.strays_cut {h : Hw} {cls} : (h.cut cls).strays = h.strays := by
  unfold Hw.cut
  dsimp only
  simp [↓Hw.strays_with]

@[simp] theorem Hw.strays_uncut {h : Hw} : h.uncut.strays = h.strays := by
  unfold Hw.uncut
  split <;> simp [↓Hw.strays_with]

@[simp] theorem Hw.strays_coordinate {h : Hw} : h.coordinate.strays = h.strays := by
  unfold Hw.coordinate
  dsimp only
  repeat' split
  all_goals simp

@[simp] theorem strays_coordinatorHw {mv hbm} {h : Hw} : (coordinatorHw mv hbm h).strays = h.strays := by
  unfold coordinatorHw
  dsimp only
  simp [↓Hw.strays_with]

@[simp] theorem strays_canaryHw {c} {v} {h : Hw} : (canaryHw c v h).strays = h.strays := by
  unfold canaryHw
  simp

@[simp] theorem strays_droopHw {i} {h : Hw} : (droopHw i h).strays = h.strays := by
  unfold droopHw
  dsimp only
  simp [↓Hw.strays_with]

@[simp] theorem strays_droopEndHw {i} {h : Hw} : (droopEndHw i h).strays = h.strays := by
  unfold droopEndHw
  dsimp only
  simp [↓Hw.strays_with]

@[simp] theorem Hw.strays_takeReadings {h : Hw} {d} {r} : (h.takeReadings d r).strays = h.strays := by
  unfold Hw.takeReadings
  dsimp only
  simp [↓Hw.strays_with]

@[simp] theorem Hw.strays_showSensors {h : Hw} {d} : (h.showSensors d).strays = h.strays := by simp [Hw.showSensors]

@[simp] theorem Hw.strays_showTemps {h : Hw} {d} : (h.showTemps d).strays = h.strays := by
  unfold Hw.showTemps
  dsimp only
  repeat' split
  all_goals simp [↓Hw.strays_with]

@[simp] theorem Hw.strays_sensorRules {h : Hw} {d} {r} : (h.sensorRules d r).strays = h.strays := by
  simp [Hw.sensorRules]

@[simp] theorem Hw.strays_trip {h : Hw} {d t} : (h.trip d t).1.strays = ([], h.strays.2) := by
  unfold Hw.trip
  rw [Hw.strays_platform, Hw.strays_mainOff, Hw.strays_protect, Hw.strays_thermal, Hw.strays_setFlag]

@[simp] theorem Hw.strays_limit95 {h : Hw} {d} {t} : (h.limit95 d t).strays = h.strays := by
  unfold Hw.limit95
  dsimp only
  simp [↓Hw.strays_with]

@[simp] theorem Hw.strays_setLoop {h : Hw} {d} {v} : (h.setLoop d v).strays = h.strays := by
  unfold Hw.setLoop
  dsimp only
  simp [↓Hw.strays_with]

@[simp] theorem Hw.strays_thermalLoop {h : Hw} {d} {t} : (h.thermalLoop d t).strays = h.strays := by
  unfold Hw.thermalLoop
  repeat' split
  all_goals simp

@[simp] theorem Hw.strays_noteRise {h : Hw} {d} {t} : (h.noteRise d t).strays = h.strays := by
  unfold Hw.noteRise
  dsimp only
  simp [↓Hw.strays_with]

@[simp] theorem Hw.strays_closeGate {h : Hw} : h.closeGate.strays = h.strays := by
  rw [Hw.closeGate, Hw.strays_protect, Hw.strays_thermal, Hw.strays_repace, Hw.strays_platform, Hw.strays_with, Hw.strays_setFlag]

@[simp] theorem Hw.strays_openGate {h : Hw} : h.openGate.strays = h.strays := by
  rw [Hw.openGate, Hw.strays_protect, Hw.strays_thermal, Hw.strays_repace, Hw.strays_platform, Hw.strays_with, Hw.strays_setFlag]

@[simp] theorem Hw.strays_gateCheck {h : Hw} : h.gateCheck.strays = h.strays := by
  rw [Hw.gateCheck, Hw.strays_ite, Hw.strays_ite, Hw.strays_ite, Hw.strays_closeGate, Hw.strays_openGate, ite_self, ite_self, ite_self]

theorem Hw.sheds_dieResponse {h : Hw} {d} : h.Sheds (h.dieResponse d).1 := by
  unfold Hw.dieResponse
  extract_lets t h1
  have e1 : h1.strays = h.strays := Hw.strays_noteRise
  clear_value h1
  split
  · split
    · right
      rw [Hw.strays_trip, e1]
    · left
      rw [Hw.strays_repace, Hw.strays_gateCheck, Hw.strays_thermalLoop, Hw.strays_limit95, e1]
  · left
    rw [Hw.strays_repace, Hw.strays_gateCheck, e1]

theorem sheds_sensorEff {d r} {h : Hw} : h.Sheds (sensorEff d r h).1 := by
  unfold sensorEff
  split
  · exact .inl rfl
  · refine Hw.Sheds.of_strays ?_ Hw.sheds_dieResponse
    rw [Hw.strays_protLog, Hw.strays_sensorRules, Hw.strays_with]

theorem sheds_sensorAll {d r} {s : State} : s.hw.Sheds (sensorAll d r s).hw := sheds_sensorEff

@[simp] theorem strays_gateTimeoutHw {h : Hw} : (gateTimeoutHw h).strays = h.strays := by
  rw [gateTimeoutHw, Hw.strays_ite]
  split
  · rfl
  · rw [Hw.strays_faultAll, Hw.strays_with]

@[simp] theorem strays_safePaceEndHw {h : Hw} : (safePaceEndHw h).strays = h.strays := by
  unfold safePaceEndHw
  split <;> simp [↓Hw.strays_with]

@[simp] theorem strays_tripClearHw {h : Hw} : (tripClearHw h).strays = h.strays := by simp [tripClearHw]

@[simp] theorem Hw.strays_takeCoolant {h : Hw} {vs} : (h.takeCoolant vs).strays = h.strays := by
  unfold Hw.takeCoolant
  extract_lets cool thm h1 h2 h3 dead
  have e1 : h1.strays = h.strays := Hw.strays_with
  have e2 : h2.strays = h.strays := by
    unfold h2
    split <;> simp only [Hw.strays_setFld, e1]
  have e3 : h3.strays = h.strays := by
    unfold h3
    split <;> simp only [Hw.strays_setFld, e2]
  clear_value h3
  split
  · rw [Hw.strays_degradeCheck, Hw.strays_with, e3]
  · exact e3

@[simp] theorem Hw.strays_noteInlet {h : Hw} : h.noteInlet.strays = h.strays := by
  unfold Hw.noteInlet
  extract_lets st
  clear_value st
  split
  · exact Hw.strays_with
  · split
    · split
      · rfl
      · exact Hw.strays_with
    · exact Hw.strays_with

@[simp] theorem Hw.strays_flowWarn {h : Hw} {f} : (h.flowWarn f).strays = h.strays := by
  unfold Hw.flowWarn
  dsimp only
  simp [↓Hw.strays_with]

@[simp] theorem strays_flowHw {vs} {h : Hw} : (flowHw vs h).strays = h.strays := by
  unfold flowHw
  dsimp only
  repeat' split
  all_goals simp [↓Hw.strays_with]

@[simp] theorem strays_inletHw {h : Hw} : (inletHw h).strays = h.strays := by
  unfold inletHw
  split <;> simp [↓Hw.strays_with]

theorem tame_foehnBody {p0 p1} {s : State} {h : Hw} : (foehnBody p0 p1 s h).Tame h := by
  have e : savedReg Reg.THM_FOEHN = true := by decide
  refine Did.tame_ite (Did.tame_fail.2 rfl) ⟨?_, fun _ => rfl⟩
  rw [Hw.strays_ite, Hw.strays_foehnStop, ite_self, Hw.strays_mk, strayParts_put e, strayParts_hw, Hw.strays_setFld, Hw.strays_setFld]

@[simp] theorem Hw.strays_foehnDie {h : Hw} {d} : (h.foehnDie d).strays = h.strays := by
  unfold Hw.foehnDie
  dsimp only
  simp [↓Hw.strays_with]

@[simp] theorem strays_foehnControlHw {h : Hw} : (foehnControlHw h).strays = h.strays := by
  unfold foehnControlHw
  dsimp only
  simp [↓Hw.strays_with]

@[simp] theorem strays_cycleHw {d} {h : Hw} : (cycleHw d h).strays = h.strays := by
  unfold cycleHw
  dsimp only
  repeat' split
  all_goals simp [↓Hw.strays_with]

@[simp] theorem Hw.strays_hbmRow {h : Hw} {st} {m} : (h.hbmRow st m).strays = h.strays := by
  unfold Hw.hbmRow
  dsimp only
  simp [↓Hw.strays_with]

@[simp] theorem Hw.strays_hbmPace {h : Hw} {d} : (h.hbmPace d).strays = h.strays := by
  unfold Hw.hbmPace
  repeat' split
  all_goals simp [↓Hw.strays_with]

@[simp] theorem strays_hbmPollHw {st} {t} {h : Hw} : (hbmPollHw st t h).strays = h.strays := by
  unfold hbmPollHw
  split <;> simp [↓Hw.strays_with]

@[simp] theorem Hw.strays_clkEffect {h : Hw} {i} : (h.clkEffect i).strays = h.strays := by simp [Hw.clkEffect]

@[simp] theorem strays_clkLossHw {i} {h : Hw} : (clkLossHw i h).strays = h.strays := by
  unfold clkLossHw
  dsimp only
  simp [↓Hw.strays_with]

@[simp] theorem strays_clkReturnHw {i} {h : Hw} : (clkReturnHw i h).strays = h.strays := by
  unfold clkReturnHw
  dsimp only
  simp [↓Hw.strays_with]

@[simp] theorem Hw.strays_leakEnter {h : Hw} {b} : (h.leakEnter b).strays = h.strays := by simp [Hw.leakEnter]

@[simp] theorem strays_leakHw {r} {h : Hw} : (leakHw r h).strays = h.strays := by
  unfold leakHw
  dsimp only
  repeat' split
  all_goals simp [↓Hw.strays_with]

@[simp] theorem Hw.strays_i3cOut {h : Hw} {bs} : (h.i3cOut bs).strays = h.strays := by
  unfold Hw.i3cOut
  simp [↓Hw.strays_with]

@[simp] theorem Hw.strays_i3cNack {h : Hw} : h.i3cNack.strays = h.strays := by
  unfold Hw.i3cNack
  simp [↓Hw.strays_with]

@[simp] theorem Hw.strays_direct {h : Hw} {f} (e : ∀ k, (f k).strays = k.strays) : (h.direct f).strays = h.strays := by
  rw [Hw.direct, Hw.strays_ite, e, Hw.strays_i3cNack, ite_self]

@[simp] theorem Hw.strays_modBoard {h : Hw} {f} : (h.modBoard f).strays = h.strays := by
  unfold Hw.modBoard
  simp [↓Hw.strays_with]

@[simp] theorem strays_entdaaHw {a} {h : Hw} : (entdaaHw a h).strays = h.strays := by
  unfold entdaaHw
  simp

@[simp] theorem strays_getstatusHw {h : Hw} : (getstatusHw h).strays = h.strays := by simp [getstatusHw]

@[simp] theorem Hw.strays_mctpReply {h : Hw} {r} {cmd code} {data} : (h.mctpReply r cmd code data).strays = h.strays := by
  simp [Hw.mctpReply]

@[simp] theorem strays_setEidHw {r} {op} {eid} {h : Hw} : (setEidHw r op eid h).strays = h.strays := by
  unfold setEidHw
  simp

@[simp] theorem strays_mctpVersionHw {r} {t} {h : Hw} : (mctpVersionHw r t h).strays = h.strays := by
  simp [mctpVersionHw]

@[simp] theorem Hw.strays_pldm {h : Hw} {r} {type cmd code} {data} : (h.pldm r type cmd code data).strays = h.strays := by
  simp [Hw.pldm]

@[simp] theorem strays_setTidHw {r} {tid} {h : Hw} : (setTidHw r tid h).strays = h.strays := by
  unfold setTidHw
  simp

@[simp] theorem strays_setReceiverHw {r} {mode eid} {h : Hw} : (setReceiverHw r mode eid h).strays = h.strays := by
  unfold setReceiverHw
  simp

@[simp] theorem strays_eventRepeatHw {h : Hw} : (eventRepeatHw h).strays = h.strays := by
  unfold eventRepeatHw
  dsimp only
  simp

@[simp] theorem strays_eventAckHw {iid} {h : Hw} : (eventAckHw iid h).strays = h.strays := by
  unfold eventAckHw
  simp

@[simp] theorem strays_sensorHw {r} {id} {h : Hw} : (sensorHw r id h).strays = h.strays := by
  unfold sensorHw
  split <;> simp

@[simp] theorem strays_stateSensorHw {r} {id} {h : Hw} : (stateSensorHw r id h).strays = h.strays := by
  simp [stateSensorHw]

@[simp] theorem strays_setNumericHw {r} {id} {v} {h : Hw} : (setNumericHw r id v h).strays = h.strays := by
  simp [setNumericHw]

@[simp] theorem strays_getNumericHw {r} {id} {h : Hw} : (getNumericHw r id h).strays = h.strays := by
  simp [getNumericHw]

theorem Hw.sheds_setEffecter {h : Hw} {id v} : h.Sheds (h.setEffecter id v).1 := by
  unfold Hw.setEffecter
  (repeat' split)
  · left
    rw [Hw.strays_setFlag]
  · right
    rw [Hw.strays_holdOff, Hw.strays_logNote]
  · left
    rw [Hw.strays_logNote, Hw.strays_setFlag]
  · left
    rfl

theorem sheds_setStateEff {r id v} {s : State} : s.hw.Sheds (setStateEff r id v s).hw := by
  unfold setStateEff
  dsimp only
  (repeat' split)
  · left
    rw [Hw.strays_i3cNack]
  · left
    rw [Hw.strays_pldm]
  · left
    rw [Hw.strays_pldm]
  · have hs := @Hw.sheds_setEffecter s.hw id.toNat v.toNat
    unfold Hw.Sheds at *
    rwa [Hw.strays_pldm]

@[simp] theorem strays_getStateHw {r} {id} {h : Hw} : (getStateHw r id h).strays = h.strays := by simp [getStateHw]

@[simp] theorem strays_pdrHw {r} {handle off} {count} {h : Hw} : (pdrHw r handle off count h).strays = h.strays := by
  simp [pdrHw]

end Sys2Proof.Machine
end

section
/-!
PROOFS. Collectives keep the stray parts.
-/
namespace Sys2Proof.Machine

@[simp] theorem Hw.strays_countCmp {h : Hw} {v} {c} : (h.countCmp v c).strays = h.strays := by
  unfold Hw.countCmp
  split <;> simp

@[simp] theorem Hw.strays_modColl {h : Hw} {c} {f} : (h.modColl c f).strays = h.strays := by
  unfold Hw.modColl
  dsimp only
  simp [↓Hw.strays_with]

@[simp] theorem Hw.strays_collRead {h : Hw} {m} {c} {off len} : (h.collRead m c off len).1.strays = h.strays :=
  Hw.accessed_collRead.only.strays (by decide) (by decide)

@[simp] theorem Hw.strays_collWrite {h : Hw} {m} {c} {off} {bs} : (h.collWrite m c off bs).1.strays = h.strays :=
  Hw.accessed_collWrite.only.strays (by decide) (by decide)

@[simp] theorem Hw.strays_collFault {h : Hw} {c} {detail phase dir ring block chunk} :
    (h.collFault c detail phase dir ring block chunk).strays = h.strays := by
  simp [Hw.collFault]

@[simp] theorem Hw.strays_collCond {h : Hw} {c} {e} : (h.collCond c e).strays = h.strays := by simp [Hw.collCond]

@[simp] theorem Hw.strays_announce {h : Hw} {c} {dir} : (h.announce c dir).strays = h.strays := by simp [Hw.announce]

@[simp] theorem Hw.strays_sendCredit {h : Hw} {c} {dir n} : (h.sendCredit c dir n).strays = h.strays := by
  simp [Hw.sendCredit]

@[simp] theorem Hw.strays_staleDrop {h : Hw} {v} : (h.staleDrop v).strays = h.strays := by simp [Hw.staleDrop]

@[simp] theorem Hw.strays_sendGust {h : Hw} {c} {dest lap ds dw} {data} : (h.sendGust c dest lap ds dw data).strays = h.strays := by
  simp [Hw.sendGust]

@[simp] theorem Hw.strays_endColl {h : Hw} {c} : (h.endColl c).strays = h.strays :=
  Hw.only_endColl.strays (by decide) (by decide)

@[simp] theorem Hw.strays_gustResult {h : Hw} {m c data ds dw ring} : (h.gustResult m c data ds dw ring).1.strays = h.strays := by
  unfold Hw.gustResult
  split
  next k e q => rw [Hw.strays_collCond, strays_of_eq q, Hw.strays_collRead]
  next k mine q =>
    have ek : k.strays = h.strays := by rw [strays_of_eq q, Hw.strays_collRead]
    extract_lets res found ok
    split
    · split
      next l e q => rw [Hw.strays_collCond, strays_of_eq q, Hw.strays_collWrite, ek]
      next l es q =>
        extract_lets l1 l2
        have e1 : l1.strays = k.strays := by simp only [l1, Hw.strays_ite, Hw.strays_countCmp, ite_self, strays_of_eq q,
          Hw.strays_collWrite]
        have e2 : l2.strays = l1.strays := by simp only [l2, Hw.strays_ite, Hw.strays_sendGust, ite_self]
        rw [Hw.strays_endColl, Hw.strays_modColl, e2, e1, ek]
    · rw [Hw.strays_collFault, ek]

@[simp] theorem Hw.strays_gustMeet {h : Hw} {m c p} : (h.gustMeet m c p).1.strays = h.strays := by
  refine strays_ite_fst_of Hw.strays_collFault (strays_ite_fst_of Hw.strays_gustResult ?_)
  split
  next k e q => rw [Hw.strays_collCond, strays_of_eq q, Hw.strays_collRead]
  next k mine q =>
    have ek : k.strays = h.strays := by rw [strays_of_eq q, Hw.strays_collRead]
    refine strays_ite_fst_of ?_ ?_
    · rw [Hw.strays_gustResult, ek]
    · rw [Hw.strays_sendGust, ek]

@[simp] theorem strays_collEff {r sn} {s : State} : (collEff r sn s).hw.strays = s.hw.strays :=
  collEff_only.strays (by decide) (by decide)

@[simp] theorem Hw.strays_meetAnnounce {h : Hw} {c} {p} : (h.meetAnnounce c p).strays = h.strays := by
  unfold Hw.meetAnnounce
  dsimp only
  simp

@[simp] theorem Hw.strays_admitted {h : Hw} {m c} : (h.admitted m c).1.strays = h.strays := by
  unfold Hw.admitted
  extract_lets early h1 h2
  have e1 : h1.strays = h.strays := Hw.strays_modGrp
  have e2 : h2.strays = h.strays := by rw [Hw.strays_announce, Hw.strays_announce, e1]
  clear_value h1 h2
  split
  · split
    next k es q =>
      have ek : k.strays = h.strays := by
        rw [strays_of_eq q]
        split
        · split
          next l e q => rw [Hw.strays_collCond, strays_of_eq q, Hw.strays_collRead, e1]
          next l bs q => rw [Hw.strays_sendGust, strays_of_eq q, Hw.strays_collRead, e1]
        · exact e1
      split
      · rw [Hw.strays_gustMeet, ek]
      · exact ek
  · rw [strays_foldl fun _ _ => Hw.strays_meetAnnounce, e2]

@[simp] theorem Hw.strays_admitAll {m v cs} {h : Hw} : (Hw.admitAll m v h cs).1.strays = h.strays := by
  induction cs generalizing h with
  | nil => rfl
  | cons c cs ih =>
    unfold Hw.admitAll
    split
    · rfl
    · extract_lets want size slots c'
      split
      · rfl
      · rw [ih, Hw.strays_admitted, Hw.strays_modColl]

@[simp] theorem strays_collAdmitEff {v sn} {s : State} : (collAdmitEff v sn s).hw.strays = s.hw.strays := by
  rw [collAdmitEff, Hw.strays_admitAll, Hw.strays_seen]

@[simp] theorem strays_admitTimeoutWork {g seq} {m} {h : Hw} : (admitTimeoutWork g seq m h).1.strays = h.strays := by
  unfold admitTimeoutWork
  dsimp only
  repeat' split
  all_goals simp

@[simp] theorem strays_admitTimeoutEff {g} {seq} {s : State} : (admitTimeoutEff g seq s).hw.strays = s.hw.strays := by
  simp [admitTimeoutEff]

@[simp] theorem Hw.strays_collPacket {h : Hw} {p ok f} (e : ∀ g (k : Hw), (f g k).1.strays = k.strays) :
    (h.collPacket p ok f).1.strays = h.strays := by
  unfold Hw.collPacket
  split
  · exact Hw.strays_staleDrop
  · rw [strays_ite_fst, e, Hw.strays_staleDrop, ite_self]

@[simp] theorem strays_deliveredEff {sn} {s : State} {is f} (e : ∀ d m (k : Hw), (f d m k).1.strays = k.strays) :
    (deliveredEff sn s is f).hw.strays = s.hw.strays := by
  unfold deliveredEff
  split
  · rfl
  · rw [e, Hw.strays_seen, Hw.strays_undeliver]

@[simp] theorem strays_announceRefuse {d g} {h : Hw} : (announceIn.refuse d g h).1.strays = h.strays := by
  rw [announceIn.refuse, Hw.strays_inject, Hw.strays_setFlag]

@[simp] theorem strays_announceIn {d} {h : Hw} : (announceIn d h).1.strays = h.strays := by
  refine Hw.strays_collPacket fun g k => ?_
  have pooled {x : Grp × Bool} :
      (if x.2 then (k.modGrp g fun _ => x.1, []) else announceIn.refuse d g k).1.strays = k.strays :=
    strays_ite_fst_of Hw.strays_modGrp strays_announceRefuse
  split
  · exact strays_ite_fst_of Hw.strays_meetAnnounce pooled
  · exact pooled

@[simp] theorem strays_announceEff {s : State} : (announceEff s).hw.strays = s.hw.strays := by simp [announceEff]

@[simp] theorem strays_refuseIn {d} {h : Hw} : (refuseIn d h).1.strays = h.strays := by
  refine Hw.strays_collPacket fun g k => ?_
  split
  · rfl
  · exact Hw.strays_modColl

@[simp] theorem strays_refuseEff {s : State} : (refuseEff s).hw.strays = s.hw.strays := by simp [refuseEff]

@[simp] theorem strays_announceRepeatHw {g} {seq} {h : Hw} : (announceRepeatHw g seq h).strays = h.strays := by
  unfold announceRepeatHw
  split <;> simp

@[simp] theorem strays_earlyTimeoutHw {g} {h : Hw} : (earlyTimeoutHw g h).strays = h.strays := by
  unfold earlyTimeoutHw
  dsimp only
  repeat' split
  all_goals simp

@[simp] theorem Hw.strays_releaseRx {h : Hw} {c} {dir s upto} : (h.releaseRx c dir s upto).strays = h.strays := by
  unfold Hw.releaseRx
  repeat' split
  all_goals simp

@[simp] theorem Hw.strays_settleEnd {h : Hw} {m c} : (h.settleEnd m c).1.strays = h.strays := by
  unfold Hw.settleEnd
  extract_lets c' got
  split
  · split
    next k es q =>
      have ek : k.strays = h.strays := by
        rw [strays_of_eq q]
        split
        · split
          next l e q => rw [Hw.strays_collCond, strays_of_eq q, Hw.strays_collRead]
          next l bs q =>
            split
            next l' e q' => rw [Hw.strays_collCond, strays_of_eq q', Hw.strays_collWrite, strays_of_eq q, Hw.strays_collRead]
            next l' es q' => rw [strays_of_eq q', Hw.strays_collWrite, strays_of_eq q, Hw.strays_collRead]
        · rfl
      rw [Hw.strays_ite, Hw.strays_endColl, ite_self, Hw.strays_modColl, ek]
  · rfl

@[simp] theorem Hw.strays_settleUse {h : Hw} {m c dir s block bs out r} :
    (Hw.settle.use m h c dir s block bs out r).1.strays = h.strays := by
  refine strays_ite_fst_of Hw.strays_collFault ?_
  dsimp only
  split
  next k e q => rw [Hw.strays_collCond, strays_of_eq q, Hw.strays_collWrite, Hw.strays_countCmp]
  next k es q => rw [Hw.strays_settleEnd, Hw.strays_modColl, strays_of_eq q, Hw.strays_collWrite, Hw.strays_countCmp]

@[simp] theorem Hw.strays_settle {h : Hw} {m c dir s} : (h.settle m c dir s).1.strays = h.strays := by
  unfold Hw.settle
  refine strays_ite_fst_of rfl ?_
  split
  · refine strays_ite_fst_of ?_ Hw.strays_settleUse
    split
    next k e q => rw [Hw.strays_collCond, strays_of_eq q, Hw.strays_collRead]
    next k mine q =>
      have ek : k.strays = h.strays := by rw [strays_of_eq q, Hw.strays_collRead]
      refine strays_ite_fst_of ?_ ?_
      · rw [Hw.strays_modColl, ek]
      · rw [Hw.strays_settleUse, ek]
  · rfl

@[simp] theorem Hw.strays_checkChunk {h : Hw} {m} {c} {dir s ch} : (h.checkChunk m c dir s ch).1.strays = h.strays := by
  unfold Hw.checkChunk
  dsimp only
  repeat' split
  all_goals simp

@[simp] theorem Hw.strays_ringIn {h : Hw} {p ok f} (e : ∀ c n (k : Hw), (f c n k).1.strays = k.strays) :
    (h.ringIn p ok f).1.strays = h.strays := by
  refine Hw.strays_collPacket fun g k => ?_
  split
  · exact Hw.strays_staleDrop
  · refine strays_ite_fst_of Hw.strays_staleDrop ?_
    split
    · exact Hw.strays_staleDrop
    · exact e _ _ _

@[simp] theorem strays_dataIn {d m} {h : Hw} : (dataIn d m h).1.strays = h.strays :=
  Hw.strays_ringIn fun _ _ _ => strays_ite_fst_of rfl (Hw.strays_checkChunk.trans Hw.strays_modColl)

@[simp] theorem strays_collDataEff {sn} {s : State} : (collDataEff sn s).hw.strays = s.hw.strays := by
  simp [collDataEff]

@[simp] theorem strays_crcIn {d m} {h : Hw} : (crcIn d m h).1.strays = h.strays :=
  Hw.strays_ringIn fun _ _ _ => strays_ite_fst_of rfl (Hw.strays_checkChunk.trans Hw.strays_modColl)

@[simp] theorem strays_crcEff {sn} {s : State} : (crcEff sn s).hw.strays = s.hw.strays := by simp [crcEff]

@[simp] theorem strays_digestIn {d m} {h : Hw} : (digestIn d m h).1.strays = h.strays :=
  Hw.strays_ringIn fun _ _ _ => strays_ite_fst_of rfl (Hw.strays_settle.trans Hw.strays_modColl)

@[simp] theorem strays_digestEff {sn} {s : State} : (digestEff sn s).hw.strays = s.hw.strays := by simp [digestEff]

@[simp] theorem strays_creditIn {d} {h : Hw} : (creditIn d h).1.strays = h.strays := by
  refine Hw.strays_collPacket fun g k => ?_
  split
  · exact Hw.strays_staleDrop
  · exact Hw.strays_modColl

@[simp] theorem strays_creditEff {s : State} : (creditEff s).hw.strays = s.hw.strays := by simp [creditEff]

@[simp] theorem strays_reduceWork {v m} {h : Hw} : (reduceWork v m h).1.strays = h.strays := by
  unfold reduceWork
  dsimp only
  split
  · rfl
  next c dir s ch _ =>
    split
    next size x _ _ =>
      split
      next k e q => rw [Hw.strays_collCond, strays_of_eq q, Hw.strays_collRead, Hw.strays_with]
      next k mine q =>
        rw [Hw.strays_settle, Hw.strays_ite, Hw.strays_releaseRx, ite_self, Hw.strays_modColl, Hw.strays_countCve, strays_of_eq q,
          Hw.strays_collRead, Hw.strays_with]
    · exact Hw.strays_with

@[simp] theorem strays_reduceEff {v} {sn} {s : State} : (reduceEff v sn s).hw.strays = s.hw.strays := by
  simp [reduceEff]

@[simp] theorem Hw.strays_charge {h : Hw} {c} {n} : (h.charge c n).strays = h.strays := by
  unfold Hw.charge
  dsimp only
  simp [↓Hw.strays_with]

@[simp] theorem Hw.strays_sendRing {h : Hw} {c} {dir s kind ch seg} {bs} : (h.sendRing c dir s kind ch seg bs).strays = h.strays := by
  simp [Hw.sendRing]

@[simp] theorem Hw.strays_sendBytes {h : Hw} {m} {c} {dir s off len} : (h.sendBytes m c dir s off len).1.strays = h.strays := by
  simp [Hw.sendBytes]

@[simp] theorem strays_segmentWork {v m} {h : Hw} : (segmentWork v m h).1.strays = h.strays := by
  unfold segmentWork
  split
  · rfl
  next c dir s _ =>
    extract_lets own
    have eo : own.1.strays = h.strays := by
      rw [strays_ite_fst, Hw.strays_collRead, ite_self]
    clear_value own
    split
    next k e q => rw [Hw.strays_collCond, ← eo]
    next k bs q => rw [Hw.strays_settleEnd, Hw.strays_modColl, Hw.strays_sendRing, ← eo]
  · split
    · rfl
    · extract_lets len off seg
      split
      · split
        next k e q => rw [Hw.strays_collCond, strays_of_eq q, Hw.strays_sendBytes]
        next k bs q => rw [Hw.strays_modColl, Hw.strays_sendRing, strays_of_eq q, Hw.strays_sendBytes]
      · split
        next k e q => rw [Hw.strays_collCond, strays_of_eq q, Hw.strays_sendBytes]
        next k bs q =>
          rw [Hw.strays_ite, Hw.strays_releaseRx, ite_self, Hw.strays_modColl, Hw.strays_sendRing, strays_of_eq q, Hw.strays_sendBytes]

@[simp] theorem strays_segmentEff {v} {sn} {s : State} : (segmentEff v sn s).hw.strays = s.hw.strays := by
  simp [segmentEff]

@[simp] theorem strays_gustIn {d m} {h : Hw} : (gustIn d m h).1.strays = h.strays := by
  refine Hw.strays_collPacket fun g k => ?_
  extract_lets pool
  have pooled : pool.1.strays = k.strays := strays_ite_fst_of Hw.strays_modGrp Hw.strays_staleDrop
  split
  · exact pooled
  · exact strays_ite_fst_of pooled (strays_ite_fst_of Hw.strays_gustMeet Hw.strays_collFault)

@[simp] theorem strays_gustEff {sn} {s : State} : (gustEff sn s).hw.strays = s.hw.strays := by simp [gustEff]

end Sys2Proof.Machine
end

section
/-!
PROOFS. Counters, packets, groups, routes and the host's memory commands keep the stray parts.
-/
namespace Sys2Proof.Machine

@[simp] theorem Hw.strays_writeCfg {h : Hw} {k} {v} : (h.writeCfg k v).strays = h.strays := by simp [Hw.writeCfg]

@[simp] theorem Hw.strays_writeAux {h : Hw} {k} {v} : (h.writeAux k v).strays = h.strays := by simp [Hw.writeAux]

@[simp] theorem strays_counterCfgHw {a v} {h : Hw} : (counterCfgHw a v h).strays = h.strays := by
  unfold counterCfgHw
  split <;> simp

theorem tame_setWindowBody {p1} {s : State} {h : Hw} : (setWindowBody p1 s h).Tame h := by
  unfold setWindowBody
  split <;> simp [Did.Tame, Did.fail, ↓Hw.strays_with]

theorem tame_applyCfgBody {pl} {s : State} {h : Hw} : (applyCfgBody pl s h).Tame h := by
  unfold applyCfgBody
  dsimp only
  repeat' split
  all_goals simp [Did.Tame, Did.fail, ↓Hw.strays_with]

@[simp] theorem Hw.strays_latchAll {h : Hw} : h.latchAll.strays = h.strays := by simp [Hw.latchAll]

@[simp] theorem Hw.strays_clearAll {h : Hw} : h.clearAll.strays = h.strays := by
  unfold Hw.clearAll
  dsimp only
  simp [↓Hw.strays_with]

@[simp] theorem Hw.strays_putRecord {h : Hw} {ring} {bs} : (h.putRecord ring bs).strays = h.strays := by
  unfold Hw.putRecord
  dsimp only
  simp [↓Hw.strays_with]

@[simp] theorem Hw.strays_windowChanges {h : Hw} : h.windowChanges.strays = h.strays := by
  unfold Hw.windowChanges
  dsimp only
  rw [Hw.strays_with, strays_foldl]
  · split
    · exact Hw.strays_setFld
    · rfl
  · intro k x
    split
    · rw [Hw.strays_ite, Hw.strays_writeAux, Hw.strays_writeCfg, ite_self]
    · rfl

@[simp] theorem Hw.strays_writeRecords {h : Hw} {a b} {endTb ns} {ep br} : (h.writeRecords a b endTb ns ep br).strays = h.strays := by
  unfold Hw.writeRecords
  dsimp only
  simp [↓Hw.strays_with]

@[simp] theorem strays_windowEndHw {a b} {ep br} {h : Hw} : (windowEndHw a b ep br h).strays = h.strays := by
  unfold windowEndHw
  dsimp only
  simp [↓Hw.strays_with]

theorem tame_snapshotBody {p0 p1 p2 p3} {s : State} {h : Hw} : (snapshotBody p0 p1 p2 p3 s h).Tame h := by
  unfold snapshotBody
  dsimp only
  repeat' split
  all_goals simp [Did.Tame, Did.fail]

@[simp] theorem Hw.strays_setSampling {h : Hw} {c log2n} {wrap clear} : (h.setSampling c log2n wrap clear).strays = h.strays := by
  unfold Hw.setSampling
  dsimp only
  simp

theorem tame_sampleBody {p0 p1 p2} {s : State} {h : Hw} : (sampleBody p0 p1 p2 s h).Tame h := by
  unfold sampleBody
  dsimp only
  repeat' split
  all_goals simp [Did.Tame, Did.fail]

theorem tame_logReadBody {p0 p1 p2 p3} {s : State} {h : Hw} : (logReadBody p0 p1 p2 p3 s h).Tame h := by
  unfold logReadBody
  repeat' split
  all_goals simp [Did.Tame, Did.fail]

@[simp] theorem Hw.strays_nak {h : Hw} {n} {skip} : (h.nak n skip).strays = h.strays := by
  unfold Hw.nak
  simp

@[simp] theorem Hw.strays_inOrder {h : Hw} {n} : (h.inOrder n).strays = h.strays := by
  unfold Hw.inOrder
  simp

@[simp] theorem strays_packetReceiveHw {n} {h : Hw} : (packetReceiveHw n h).strays = h.strays := by
  unfold packetReceiveHw
  dsimp only
  repeat' split
  all_goals simp

@[simp] theorem strays_nakRepeatHw {n} {h : Hw} : (nakRepeatHw n h).strays = h.strays := by
  unfold nakRepeatHw
  split <;> simp

@[simp] theorem strays_replayTimeoutHw {n} {h : Hw} : (replayTimeoutHw n h).strays = h.strays := by
  unfold replayTimeoutHw
  split <;> simp

@[simp] theorem Hw.strays_wirePkt {h : Hw} {n} {p} : (h.wirePkt n p).strays = h.strays := by
  unfold Hw.wirePkt
  dsimp only
  simp [↓Hw.strays_with]

@[simp] theorem strays_packetTransmitHw {n} {h : Hw} : (packetTransmitHw n h).strays = h.strays := by
  unfold packetTransmitHw
  dsimp only
  repeat' split
  all_goals simp

@[simp] theorem strays_xtagTimeoutHw {t} {h : Hw} : (xtagTimeoutHw t h).strays = h.strays := by simp [xtagTimeoutHw]

@[simp] theorem strays_timeSendHw {hub} {h : Hw} : (timeSendHw hub h).strays = h.strays := by
  unfold timeSendHw
  dsimp only
  simp [↓Hw.strays_with]

@[simp] theorem strays_timeReceiveHw {h : Hw} : (timeReceiveHw h).strays = h.strays := by
  refine Hw.strays_onDelivered fun d k => ?_
  split
  · rfl
  next n _ =>
    extract_lets g t3 t4 k1 k2 k3 delay k4
    have e1 : k1.strays = k.strays := Hw.strays_modLink
    have e2 : k2.strays = k.strays := Hw.strays_modLink.trans e1
    have e3 : k3.strays = k.strays := Hw.strays_modLink.trans e1
    have e4 : k4.strays = k.strays := Hw.strays_setFld.trans e3
    clear_value k1 k2 k3 k4
    simp only [Hw.strays_ite, Hw.strays_correctTime, Hw.strays_holdover, ite_self, e1, e2, e3, e4]

@[simp] theorem strays_congestionHw {h : Hw} : (congestionHw h).strays = h.strays := by
  unfold congestionHw
  dsimp only
  simp [↓Hw.strays_with]

@[simp] theorem strays_drainedHw {h : Hw} : (drainedHw h).strays = h.strays := by simp [drainedHw]

@[simp] theorem Hw.strays_dropMembers {h : Hw} {g} : (h.dropMembers g).strays = h.strays := by
  unfold Hw.dropMembers
  split <;> simp [↓Hw.strays_with]

@[simp] theorem Hw.strays_groupWrite {h : Hw} {g off} {q} {fids} {afresh} : (h.groupWrite g off q fids afresh).strays = h.strays := by
  unfold Hw.groupWrite
  dsimp only
  simp [↓Hw.strays_with]

theorem Hw.tame_groupStore {h : Hw} {g q} : (h.groupStore g q).Tame h := by
  unfold Hw.groupStore
  dsimp only
  split
  · exact Did.tame_fail.2 rfl
  · exact Did.tame_ite (Did.tame_fail.2 rfl) ⟨Hw.strays_groupWrite, fun _ => rfl⟩

theorem tame_groupSetBody {p0 pl} {s : State} {h : Hw} : (groupSetBody p0 pl s h).Tame h :=
  Did.tame_ite (Did.tame_fail.2 rfl) (Did.tame_ite (Did.tame_fail.2 rfl) (Did.tame_ite (Did.tame_fail.2 rfl) Hw.tame_groupStore))

@[simp] theorem Hw.strays_groupEmpty {h : Hw} {g} : (h.groupEmpty g).strays = h.strays := by
  unfold Hw.groupEmpty
  dsimp only
  simp [↓Hw.strays_with]

theorem tame_groupClearBody {p0} {s : State} {h : Hw} : (groupClearBody p0 s h).Tame h := by
  unfold groupClearBody
  repeat' split
  all_goals simp [Did.Tame, Did.fail]

theorem tame_quiesceBody {hd} {s : State} {h : Hw} : (quiesceBody hd s h).Tame h := by simp [quiesceBody, Did.Tame]

theorem tame_resumeBody {s : State} {h : Hw} : (resumeBody s h).Tame h := by
  unfold resumeBody
  split <;> simp [Did.Tame]

@[simp] theorem Hw.strays_setRoute {h : Hw} {fid v} : (h.setRoute fid v).strays = h.strays := by simp [Hw.setRoute]

theorem tame_routeWriteBody {p0} {pl} {s : State} {h : Hw} : (routeWriteBody p0 pl s h).Tame h := by
  unfold routeWriteBody
  dsimp only
  repeat' split
  all_goals simp [Did.Tame, Did.fail]

theorem tame_congestionBody {p0} {s : State} {h : Hw} : (congestionBody p0 s h).Tame h := by
  unfold congestionBody
  repeat' split
  all_goals simp [Did.Tame, Did.fail]

theorem tame_linkBody {f p0} {s : State} {h : Hw} (e : ∀ k n, (f k n).strays = k.strays) : (linkBody f p0 s h).Tame h := by
  unfold linkBody
  split
  · exact Did.tame_fail.2 rfl
  · exact ⟨strays_foldl e, fun _ => rfl⟩

@[simp] theorem Hw.strays_deadLink {h : Hw} {n} : (h.deadLink n).strays = h.strays := by simp [Hw.deadLink]

@[simp] theorem Hw.strays_hostRow {h : Hw} {m c x walker write region off len} :
    (h.hostRow m c x walker write region off len).1.strays = h.strays := by
  unfold Hw.hostRow
  extract_lets p
  split
  · rfl
  · exact strays_ite_fst_of rfl Hw.strays_xlatRow

@[simp] theorem Hw.strays_hostSectors {h : Hw} {p write} : (h.hostSectors p write).strays = h.strays :=
  strays_foldl fun k x => by rw [Hw.strays_ite, Hw.strays_sectors, ite_self]

@[simp] theorem Hw.strays_hostRead {h : Hw} {m c x walker region off len} :
    (h.hostRead m c x walker region off len).1.strays = h.strays := by
  unfold Hw.hostRead
  split
  next k e q => rw [strays_of_eq q, Hw.strays_hostRow]
  next k p q =>
    split
    · rw [Hw.strays_pieceUe, strays_of_eq q, Hw.strays_hostRow]
    · rw [Hw.strays_hostSectors, strays_of_eq q, Hw.strays_hostRow]

@[simp] theorem Hw.strays_hostStore {h : Hw} {m} {x} {p} {bs} : (h.hostStore m x p bs).1.strays = h.strays := by
  unfold Hw.hostStore
  repeat' split
  all_goals simp

@[simp] theorem Hw.strays_hostPut {h : Hw} {m} {x} {row} {bs} : (h.hostPut m x row bs).1.strays = h.strays := by
  unfold Hw.hostPut
  split <;> simp

@[simp] theorem Hw.strays_hostWrite {h : Hw} {m} {c} {x} {walker region off} {bs} :
    (h.hostWrite m c x walker region off bs).1.strays = h.strays := by
  simp [Hw.hostWrite]

theorem tame_memWriteBody {handle} {p0 p1 p2} {payload} {sn} {s : State} {h : Hw} :
    (memWriteBody handle p0 p1 p2 payload sn s h).Tame h := by
  unfold memWriteBody
  dsimp only
  repeat' split
  all_goals simp [Did.Tame, Did.fail]

theorem tame_memReadBody {handle p0 p1 p2 p3 sn} {s : State} {h : Hw} : (memReadBody handle p0 p1 p2 p3 sn s h).Tame h := by
  unfold memReadBody
  split
  · exact Did.tame_fail.2 rfl
  · refine Did.tame_ite (Did.tame_fail.2 rfl) (Did.tame_ite (Did.tame_fail.2 rfl) ?_)
    split
    next k e q => exact ⟨(strays_of_eq q).trans (Hw.strays_hostRead.trans Hw.strays_seen), fun _ => rfl⟩
    next k bs q => exact ⟨(strays_of_eq q).trans (Hw.strays_hostRead.trans Hw.strays_seen), fun _ => rfl⟩

theorem tame_memFillBody {handle p0 p1 p2 p3 p4 p5 sn} {s : State} {h : Hw} : (memFillBody handle p0 p1 p2 p3 p4 p5 sn s h).Tame h := by
  unfold memFillBody
  split
  · exact Did.tame_fail.2 rfl
  · refine Did.tame_ite (Did.tame_fail.2 rfl) (Did.tame_ite (Did.tame_fail.2 rfl) (Did.tame_ite (Did.tame_fail.2 rfl) ?_))
    refine ⟨Hw.strays_hostRow.trans Hw.strays_seen, fun k => ?_⟩
    dsimp only
    split
    · rw [Hw.strays_finish, Hw.strays_hostPut]
    · exact Hw.strays_hostPut

@[simp] theorem Hw.strays_modQp {h : Hw} {n} {f} : (h.modQp n f).strays = h.strays := by
  unfold Hw.modQp
  dsimp only
  simp [↓Hw.strays_with]

theorem tame_qpOpenBody {p1 p2 p3} {payload} {s : State} {h : Hw} : (qpOpenBody p1 p2 p3 payload s h).Tame h := by
  unfold qpOpenBody
  dsimp only
  repeat' split
  all_goals simp [Did.Tame, Did.fail, ↓Hw.strays_with]

theorem tame_mrBindBody {handle} {p1 p2 p3 p4} {s : State} {h : Hw} : (mrBindBody handle p1 p2 p3 p4 s h).Tame h := by
  unfold mrBindBody
  dsimp only
  repeat' split
  all_goals simp [Did.Tame, Did.fail, ↓Hw.strays_with]

theorem tame_ringBindBody {handle} {p1 p2 p3 p4} {s : State} {h : Hw} : (ringBindBody handle p1 p2 p3 p4 s h).Tame h := by
  unfold ringBindBody
  dsimp only
  repeat' split
  all_goals simp [Did.Tame, Did.fail]

theorem tame_qpCloseBody {p1} {s : State} {h : Hw} : (qpCloseBody p1 s h).Tame h := by
  unfold qpCloseBody
  split <;> simp [Did.Tame, Did.fail, ↓Hw.strays_with]

theorem tame_mrUnbindBody {p1} {s : State} {h : Hw} : (mrUnbindBody p1 s h).Tame h := by
  unfold mrUnbindBody
  split <;> simp [Did.Tame, Did.fail, ↓Hw.strays_with]

@[simp] theorem Hw.strays_rdmaOut {h : Hw} {q} {code psn} {body} : (h.rdmaOut q code psn body).strays = h.strays := by
  unfold Hw.rdmaOut
  simp [↓Hw.strays_with]

@[simp] theorem Hw.strays_rdmaAck {h : Hw} {q} {psn n} : (h.rdmaAck q psn n).strays = h.strays := by
  unfold Hw.rdmaAck
  simp

@[simp] theorem Hw.strays_rdmaDie {h : Hw} {q} {code psn} : (h.rdmaDie q code psn).strays = h.strays := by
  unfold Hw.rdmaDie
  simp

@[simp] theorem strays_rdmaSendEff {port qpn psn body sn} {s : State} :
    (rdmaSendEff port qpn psn body sn s).hw.strays = s.hw.strays := by
  obtain ⟨kind, e⟩ : ∃ f, Qp.kind = f := ⟨_, rfl⟩
  unfold rdmaSendEff
  rw [e]
  dsimp only
  (repeat' split) <;> simp only [Hw.strays_rdmaOut, Hw.strays_rdmaDie, Hw.strays_rdmaAck, Hw.strays_modQp,
    Hw.strays_hostWrite, Hw.strays_seen]

@[simp] theorem strays_rdmaWriteEff {port qpn psn rkey off body sn} {s : State} :
    (rdmaWriteEff port qpn psn rkey off body sn s).hw.strays = s.hw.strays := by
  obtain ⟨kind, e⟩ : ∃ f, Qp.kind = f := ⟨_, rfl⟩
  unfold rdmaWriteEff
  rw [e]
  dsimp only
  (repeat' split) <;> simp only [Hw.strays_rdmaOut, Hw.strays_rdmaDie, Hw.strays_rdmaAck,
    Hw.strays_hostWrite, Hw.strays_seen]

@[simp] theorem strays_rdmaReadEff {port qpn psn rkey off len sn} {s : State} :
    (rdmaReadEff port qpn psn rkey off len sn s).hw.strays = s.hw.strays := by
  unfold rdmaReadEff
  dsimp only
  split
  · rfl
  · split
    · exact Hw.strays_rdmaOut
    · split
      · exact Hw.strays_rdmaOut
      · split
        next k st q =>
          simp only [Hw.strays_ite, Hw.strays_rdmaDie, Hw.strays_rdmaOut, ite_self, strays_of_eq q, Hw.strays_hostRead, Hw.strays_seen]
        next k bs q =>
          simp only [Hw.strays_ite, Hw.strays_modQp, Hw.strays_rdmaOut, ite_self, strays_of_eq q, Hw.strays_hostRead, Hw.strays_seen]

@[simp] theorem strays_rdmaInvalidHw {port} {qpn psn} {h : Hw} : (rdmaInvalidHw port qpn psn h).strays = h.strays := by
  unfold rdmaInvalidHw
  split <;> simp

@[simp] theorem strays_ceMarkedHw {port} {qpn} {h : Hw} : (ceMarkedHw port qpn h).strays = h.strays := by
  unfold ceMarkedHw
  split <;> simp

end Sys2Proof.Machine
end

section
/-!
PROOFS. Register writes keep the stray parts, since a write saves only a register that a record names (R10); and so do the memory
tests in service.
-/
namespace Sys2Proof.Machine

@[simp] theorem Hw.strays_view {h : Hw} {m} {a} {l} : (h.view m a l).2.strays = h.strays := by
  unfold Hw.view
  repeat' split
  all_goals simp

@[simp] theorem Hw.strays_capturePair {h : Hw} {id a} : (h.capturePair id a).strays = h.strays :=
  Hw.only_capturePair.strays (by decide) (by decide)

@[simp] theorem Hw.strays_regRead {h : Hw} {m} {id a} {l} : (h.regRead m id a l).2.strays = h.strays := by
  unfold Hw.regRead
  dsimp only
  repeat' split
  all_goals simp

@[simp] theorem Hw.strays_plainWrite {h : Hw} {a} {l} {v} : (h.plainWrite a l v).strays = h.strays :=
  Hw.only_plainWrite.strays (by decide) (by decide)

@[simp] theorem Hw.strays_partWrite {h : Hw} {p} {hi} {v} : (h.partWrite p hi v).strays = h.strays := by
  simp [Hw.partWrite]

theorem mem_of_findRow {u o : Nat} {rs : List RegRow} {r : RegRow} {i j : Nat} (e : findRow u o rs = some (r, i, j)) : r ∈ rs := by
  induction rs with
  | nil => cases e
  | cons q rs ih =>
    unfold findRow at e
    split at e
    · split at e
      · cases e
      · obtain ⟨rfl, -⟩ := Prod.mk.inj (Option.some.inj e)
        exact List.mem_cons_self
    · exact List.mem_cons_of_mem q (ih e)

/-- A block's table holds only rows of the block. -/
theorem blk_of_mem_regRows {b : Blk} {r : RegRow} (m : r ∈ regRows b) : r.blk = b := by
  have all : ∀ r ∈ regRows b, r.blk = b := by cases b <;> decide +kernel
  exact all r m

theorem regPlace_of_regFind {a : Nat} {l : RegLoc} (e : regFind a = some l) : regPlace a = some (l.row.blk, l.unit, l.off) := by
  unfold regFind at e
  split at e
  · cases e
  · split at e
    · cases e
    next b u o p =>
      split at e
      · cases e
      next r i j f =>
        obtain rfl := Option.some.inj e
        rw [p, blk_of_mem_regRows (mem_of_findRow f)]

theorem regPlace_rtr {a u o : Nat} (e : regPlace a = some (.rtr, u, o)) :
    0x20000000 ≤ a ∧ a < 0x30000000 ∧ (u = 1 → 0x28000000 ≤ a) := by
  unfold regPlace at e
  dsimp only at e
  split_ifs at e <;> simp only [Option.some.injEq, Prod.mk.injEq, reduceCtorEq, false_and] at e <;> omega

theorem regPlace_hub {a u o : Nat} {b : Blk} (hb : b = .hubA ∨ b = .hubB) (e : regPlace a = some (b, u, o)) :
    a < 0x02000000 ∧ a % 0x01000000 = o := by
  unfold regPlace at e
  dsimp only at e
  split_ifs at e <;> simp only [Option.some.injEq, Prod.mk.injEq] at e <;> obtain ⟨rfl, -, rfl⟩ := e <;> simp only
    [reduceCtorEq, or_self, or_false, false_or] at hb <;> omega

/-- A record names each register of the installation map. -/
theorem savedReg_map {a : Nat} {l : RegLoc} (e : regFind a = some l) (m : isMapReg l = true) : savedReg (canonReg a l) = true := by
  have b : l.row.blk = .rtr := by
    unfold isMapReg at m
    simp only [Bool.and_eq_true, beq_iff_eq] at m
    exact m.1
  have p := regPlace_of_regFind e
  rw [b] at p
  obtain ⟨low, high, upper⟩ := regPlace_rtr p
  unfold canonReg savedReg
  rw [b]
  dsimp only
  simp only [Bool.or_eq_true, Bool.and_eq_true, decide_eq_true_eq]
  right
  split <;> omega

/-- A record names each register of the Ethernet ports' settings. -/
theorem savedReg_port {a : Nat} {l : RegLoc} (e : regFind a = some l) (b : l.row.blk = .hubA ∨ l.row.blk = .hubB)
    (low : 0x10000 ≤ l.off) (high : l.off < 0x10400) :
    savedReg (canonReg a l) = true := by
  obtain ⟨small, off⟩ := regPlace_hub b (regPlace_of_regFind e)
  have same : canonReg a l = a := by
    unfold canonReg
    obtain b | b := b <;> rw [b]
    dsimp only
    split <;> omega
  rw [same, savedReg, off]
  simp only [Bool.or_eq_true, Bool.and_eq_true, decide_eq_true_eq]
  exact .inl (.inr ⟨⟨small, low⟩, high⟩)

theorem Hw.strays_savedWrite {h : Hw} {a l v} (e : savedReg (canonReg a l) = true) : (h.savedWrite a l v).strays = h.strays := by
  rw [Hw.savedWrite, Hw.strays_mk, strayParts_put e, strayParts_hw, Hw.strays_plainWrite]

theorem Hw.strays_mapWrite {h : Hw} {a l v} (e : regFind a = some l) (m : isMapReg l = true) :
    (h.mapWrite a l v).strays = h.strays := by
  rw [Hw.mapWrite, Hw.strays_ite, Hw.strays_setFlag, Hw.strays_savedWrite (savedReg_map e m), ite_self]

@[simp] theorem strays_mapWriteHw {a v} {h : Hw} : (mapWriteHw a v h).strays = h.strays := by
  unfold mapWriteHw
  split
  next l e =>
    split
    next m => exact Hw.strays_mapWrite e (Bool.and_eq_true_iff.1 m).2
    · rfl
  · rfl

@[simp] theorem Hw.strays_selectTime {h : Hw} {src} : (h.selectTime src).strays = h.strays :=
  Hw.only_selectTime.strays (by decide) (by decide)

@[simp] theorem Hw.strays_clearUnit {h : Hw} : h.clearUnit.strays = h.strays :=
  Hw.only_clearUnit.strays (by decide) (by decide)

@[simp] theorem strays_clearUnitHw {id} {h : Hw} : (clearUnitHw id h).strays = h.strays := by
  unfold clearUnitHw
  split <;> simp

@[simp] theorem Hw.strays_prioWrite {h : Hw} {v} : (h.prioWrite v).strays = h.strays := by simp [Hw.prioWrite]

theorem Hw.strays_foehnWrite {h : Hw} {l v} (b : l.row.blk = .hubA ∨ l.row.blk = .hubB) (o : l.off = 0x6210) :
    (h.foehnWrite l v).strays = h.strays := by
  have same : canonReg Reg.THM_FOEHN l = Reg.THM_FOEHN := by
    unfold canonReg
    obtain b | b := b <;> rw [b]
    dsimp only
    split <;> omega
  have e : savedReg (canonReg Reg.THM_FOEHN l) = true := by rw [same]; decide
  rw [Hw.foehnWrite, Hw.strays_ite, Hw.strays_foehnStop, ite_self, Hw.strays_savedWrite e]

@[simp] theorem Hw.strays_trigWrite {h : Hw} {l} {v} : (h.trigWrite l v).strays = h.strays := by simp [Hw.trigWrite]

@[simp] theorem Hw.strays_cclWrite {h : Hw} {l} {v} : (h.cclWrite l v).strays = h.strays := by
  unfold Hw.cclWrite
  dsimp only
  simp [↓Hw.strays_with]

@[simp] theorem Hw.strays_keyCtrlWrite {h : Hw} {f} {v} : (h.keyCtrlWrite f v).2.strays = h.strays := by
  unfold Hw.keyCtrlWrite
  dsimp only
  repeat' split
  all_goals simp

/-- A register's own write, where it has one, keeps the stray parts. -/
def Hw.KeptBy (h : Hw) (o : Option (Nat × Hw)) : Prop := ∀ q ∈ o, q.2.strays = h.strays

theorem Hw.keptBy_none {h : Hw} : h.KeptBy none := fun _ m => absurd m (by simp)

theorem Hw.keptBy_some {h k : Hw} {st : Nat} (e : k.strays = h.strays) : h.KeptBy (some (st, k)) := fun _ m => Option.some.inj m ▸ e

theorem Hw.keptBy_ite {h : Hw} {c : Prop} [Decidable c] {x y : Option (Nat × Hw)} (hx : c → h.KeptBy x) (hy : h.KeptBy y) :
    h.KeptBy (if c then x else y) := by
  split
  next hc => exact hx hc
  · exact hy

theorem Hw.strays_hubWrite {h : Hw} {f role a l v} (r : regFind a = some l) (b : l.row.blk = .hubA ∨ l.row.blk = .hubB) :
    h.KeptBy (h.hubWrite f role a l v) := by
  have plain {v} : h.KeptBy (some (stOk, h.plainWrite a l v)) := Hw.keptBy_some Hw.strays_plainWrite
  have same {st : Nat} : h.KeptBy (some (st, h)) := Hw.keptBy_some rfl
  unfold Hw.hubWrite
  refine Hw.keptBy_ite (fun _ => Hw.keptBy_some Hw.strays_selectTime) ?_
  refine Hw.keptBy_ite (fun _ => Hw.keptBy_some Hw.strays_bringupGo) ?_
  refine Hw.keptBy_ite (fun _ => plain) ?_
  refine Hw.keptBy_ite (fun _ => Hw.keptBy_some Hw.strays_trigWrite) ?_
  refine Hw.keptBy_ite (fun _ => plain) ?_
  refine Hw.keptBy_ite (fun _ => Hw.keptBy_some Hw.strays_partWrite) ?_
  refine Hw.keptBy_ite (fun _ => Hw.keptBy_ite (fun _ => Hw.keptBy_some Hw.strays_keyCtrlWrite) same) ?_
  refine Hw.keptBy_ite (fun _ => Hw.keptBy_ite (fun _ => same) (Hw.keptBy_ite (fun _ => plain) same)) ?_
  refine Hw.keptBy_ite (fun _ => Hw.keptBy_ite (fun _ => same) (Hw.keptBy_some ?_)) ?_
  · rw [Hw.strays_ite, Hw.strays_clearUnit, ite_self]
  refine Hw.keptBy_ite (fun _ => Hw.keptBy_some Hw.strays_prioWrite) ?_
  refine Hw.keptBy_ite (fun _ => Hw.keptBy_some (Hw.strays_platform.trans Hw.strays_plainWrite)) ?_
  refine Hw.keptBy_ite (fun _ => plain) ?_
  refine Hw.keptBy_ite (fun _ => Hw.keptBy_some (Hw.strays_repace.trans Hw.strays_plainWrite)) ?_
  refine Hw.keptBy_ite (fun foehn => Hw.keptBy_some (Hw.strays_foehnWrite b foehn)) ?_
  refine Hw.keptBy_ite (fun _ => Hw.keptBy_some Hw.strays_cclWrite) ?_
  refine Hw.keptBy_ite (fun _ => plain) ?_
  refine Hw.keptBy_ite (fun _ => plain) ?_
  refine Hw.keptBy_ite (fun port => Hw.keptBy_ite (fun _ => Hw.keptBy_none) (Hw.keptBy_some ?_)) Hw.keptBy_none
  exact Hw.strays_savedWrite (savedReg_port r b port.1 port.2)

@[simp] theorem Hw.strays_linkCtrlWrite {h : Hw} {n v} : (h.linkCtrlWrite n v).strays = h.strays := by
  simp [Hw.linkCtrlWrite]

theorem Hw.strays_rtrWrite {h : Hw} {a l v} (r : regFind a = some l) : h.KeptBy (h.rtrWrite a l v) := by
  have plain {v} : h.KeptBy (some (stOk, h.plainWrite a l v)) := Hw.keptBy_some Hw.strays_plainWrite
  unfold Hw.rtrWrite
  refine Hw.keptBy_ite (fun m => Hw.keptBy_some (Hw.strays_mapWrite r m)) ?_
  refine Hw.keptBy_ite (fun _ => plain) ?_
  refine Hw.keptBy_ite (fun _ => plain) ?_
  refine Hw.keptBy_ite (fun _ => plain) ?_
  refine Hw.keptBy_ite (fun _ => Hw.keptBy_some Hw.strays_setRoute) ?_
  refine Hw.keptBy_ite (fun _ => ?_) Hw.keptBy_none
  refine Hw.keptBy_ite (fun _ => Hw.keptBy_some Hw.strays_linkCtrlWrite) ?_
  exact Hw.keptBy_ite (fun _ => Hw.keptBy_some strays_scanWriteHw) Hw.keptBy_none

theorem Hw.strays_unitWrite {h : Hw} {a l v} : h.KeptBy (h.unitWrite a l v) := by
  have plain {v} : h.KeptBy (some (stOk, h.plainWrite a l v)) := Hw.keptBy_some Hw.strays_plainWrite
  unfold Hw.unitWrite
  dsimp only
  split
  · refine Hw.keptBy_ite (fun _ => plain) ?_
    exact Hw.keptBy_ite (fun _ => Hw.keptBy_some (Hw.strays_repace.trans Hw.strays_setDiePace)) Hw.keptBy_none
  · refine Hw.keptBy_ite (fun _ => Hw.keptBy_some ?_) (Hw.keptBy_ite (fun _ => plain) Hw.keptBy_none)
    rw [Hw.strays_ite, Hw.strays_modClus, Hw.strays_plainWrite, ite_self]
  · exact Hw.keptBy_ite (fun _ => plain) Hw.keptBy_none
  · exact Hw.keptBy_ite (fun _ => plain) Hw.keptBy_none
  · exact Hw.keptBy_none

theorem Hw.strays_ctrWrite {h : Hw} {a v} : h.KeptBy (h.ctrWrite a v) := by
  unfold Hw.ctrWrite
  split
  · refine Hw.keptBy_ite (fun _ => Hw.keptBy_some Hw.strays_writeCfg) ?_
    exact Hw.keptBy_ite (fun _ => Hw.keptBy_some Hw.strays_writeAux) Hw.keptBy_none
  · exact Hw.keptBy_none

theorem Hw.strays_ownWrite {h : Hw} {f role a l v} (r : regFind a = some l) : h.KeptBy (h.ownWrite f role a l v) := by
  unfold Hw.ownWrite
  split
  next q e => exact Hw.keptBy_some (Hw.strays_ctrWrite q e)
  · split
    next b => exact Hw.strays_hubWrite r (.inl b)
    next b => exact Hw.strays_hubWrite r (.inr b)
    · exact Hw.strays_rtrWrite r
    · exact Hw.strays_unitWrite

theorem Hw.strays_regWrite {h : Hw} {f role a l v} (r : regFind a = some l) : (h.regWrite f role a l v).2.strays = h.strays := by
  unfold Hw.regWrite
  cases e : h.ownWrite f role a l v with
  | none => exact Hw.strays_plainWrite
  | some q => exact Hw.strays_ownWrite r q e

@[simp] theorem strays_registerWriteHw {f} {a v} {h : Hw} : (registerWriteHw f a v h).strays = h.strays := by
  unfold registerWriteHw
  split <;> simp

@[simp] theorem strays_readCaptureHw {id a} {h : Hw} : (readCaptureHw id a h).strays = h.strays := by
  unfold readCaptureHw
  split <;> simp

theorem tame_regReadBody {id} {p0} {s : State} {h : Hw} : (regReadBody id p0 s h).Tame h := by
  unfold regReadBody
  split <;> simp [Did.Tame, Did.fail]

theorem tame_regWriteBody {id p0 p1} {s : State} {h : Hw} : (regWriteBody id p0 p1 s h).Tame h := by
  unfold regWriteBody
  split
  · exact Did.tame_fail.2 rfl
  next l e => exact ⟨Hw.strays_regWrite (regFind_of_regCheck e), fun _ => rfl⟩

theorem tame_regRmwBody {id p0 p1 p2} {s : State} {h : Hw} : (regRmwBody id p0 p1 p2 s h).Tame h := by
  unfold regRmwBody
  split
  · exact Did.tame_fail.2 rfl
  next l e => exact ⟨(Hw.strays_regWrite (regFind_of_regCheck e)).trans Hw.strays_regRead, fun _ => rfl⟩

@[simp] theorem Hw.strays_regReads {h : Hw} {m id ls} : (h.regReads m id ls).2.strays = h.strays :=
  strays_foldl_snd fun _ _ => Hw.strays_regRead

theorem tame_regBlockBody {id} {p0 p1} {s : State} {h : Hw} : (regBlockBody id p0 p1 s h).Tame h := by
  unfold regBlockBody
  dsimp only
  repeat' split
  all_goals simp [Did.Tame, Did.fail]

@[simp] theorem strays_testStartHw {c} {sn} {m} {h : Hw} : (testStartHw c sn m h).strays = h.strays := by
  unfold testStartHw
  dsimp only
  repeat' split
  all_goals simp

@[simp] theorem strays_testStartEff {c} {sn} {s : State} : (testStartEff c sn s).hw.strays = s.hw.strays := by
  simp [testStartEff]

@[simp] theorem strays_testPromoteHw {c} {h : Hw} : (testPromoteHw c h).strays = h.strays := by
  unfold testPromoteHw
  dsimp only
  simp

@[simp] theorem Hw.strays_testFailed {h : Hw} {c r} : (h.testFailed c r).strays = h.strays := by simp [Hw.testFailed]

@[simp] theorem Hw.strays_applyPend {h : Hw} {pend} : (h.applyPend pend).1.strays = h.strays := by simp [Hw.applyPend]

@[simp] theorem strays_testUnlockEff {c} {fails} {s : State} : (testUnlockEff c fails s).hw.strays = s.hw.strays := by
  unfold testUnlockEff
  dsimp only
  simp

@[simp] theorem Hw.strays_scrubFinds {h : Hw} {pma} {found} : (h.scrubFinds pma found).strays = h.strays := by
  unfold Hw.scrubFinds
  split <;> simp

@[simp] theorem strays_scrubEff {st} {found} {s : State} : (scrubEff st found s).hw.strays = s.hw.strays := by
  unfold scrubEff
  dsimp only
  simp [↓Hw.strays_with]

@[simp] theorem strays_ecsHw {st} {n} {h : Hw} : (ecsHw st n h).strays = h.strays := by
  unfold ecsHw
  simp [↓Hw.strays_with]

end Sys2Proof.Machine
end

section
/-!
PROOFS. A host's packet sheds at most what its own effect sheds (R324).
-/
namespace Sys2Proof.Machine

section
variable {sp : Spec} {hd : Hdr} {s : State} {h : Hw} {body : State → Hw → Did}

theorem runBody_sheds (b : ∀ k, (body s k).Sound k) : h.Sheds (runBody sp hd s h body).hw := by
  unfold runBody
  extract_lets d id h1 host h2
  obtain ⟨own, next⟩ := b h.hostServed
  have e1 : h1.strays = d.hw.strays := Hw.strays_answer
  have e2 : h2.strays = h1.strays := by
    unfold h2
    rw [Hw.strays_ite, Hw.strays_with, Hw.strays_keepRec, ite_self]
  exact (Hw.Sheds.of_strays Hw.strays_hostServed (own.of_eq (e2.trans e1))).trans (next h2)

theorem checked_sheds {x : Session} (b : ∀ k, (body s k).Sound k) : h.Sheds (checked sp hd x s h body).hw := by
  have refused {st : Nat} : h.Sheds (refuse sp hd h st).hw := .inl strays_refuse
  unfold checked
  refine sheds_ite refused (sheds_ite (sheds_ite (.inl Hw.strays_answer) refused) ?_)
  split
  · exact sheds_ite (runBody_sheds b) (.inl Hw.strays_send)
  · exact sheds_ite refused (sheds_ite refused (sheds_ite refused (sheds_ite refused (runBody_sheds b))))

/-- A host's packet sheds what its own effect sheds: the checks, the reply and the record of it touch neither part. -/
theorem hostCmd_sheds (b : ∀ k, (body s k).Sound k) : s.hw.Sheds (hostCmd sp hd s body).hw := by
  unfold hostCmd
  extract_lets h
  split
  · exact .refl _
  · split
    · exact .inl Hw.strays_ycpDrop
    · split
      · exact .inl Hw.strays_ycpDrop
      · extract_lets k
        have e : k.strays = h.strays := Hw.strays_modSession
        split
        · exact .inl (strays_refuse.trans e)
        · exact Hw.Sheds.of_strays e (checked_sheds b)

end

theorem ycpDropEff_sheds {peer : Peer} {bytes : List Byte} {s : State} : s.hw.Sheds (ycpDropEff peer bytes s).hw := by
  unfold ycpDropEff
  extract_lets d h drop op
  have kept : s.hw.Sheds h := .refl _
  have dropped : s.hw.Sheds drop.hw := .inl Hw.strays_ycpDrop
  refine sheds_ite kept (sheds_ite dropped (sheds_ite (sheds_ite kept dropped) (sheds_ite (sheds_ite kept dropped) ?_)))
  split
  · exact dropped
  · exact sheds_ite dropped (sheds_ite kept (hostCmd_sheds fun _ => Did.sound_fail))

end Sys2Proof.Machine
end

section
/-!
PROOFS. Every command sheds at most the powered dies, every step keeps the memories' canonical form, and O4.
-/
namespace Sys2Proof.Machine

/-- A command goes on to a state whose stray parts are the first one's, but for the dies that lost their power. -/
def ShedsTo (s : State) (r : Res) : Prop := ∃ t, r = .next t ∧ s.hw.Sheds t.hw

section
variable {s : State} {c : Instr} {r : Res}

theorem ShedsTo.next {t : State} (a : s.hw.Sheds t.hw) : ShedsTo s (.next t) := ⟨t, rfl, a⟩

theorem ShedsTo.unlessCut (a : ShedsTo s r) : ShedsTo s (unlessCut c s r) := by
  unfold Machine.unlessCut
  split
  · exact .next (.inl Hw.strays_receive)
  · exact a

theorem ShedsTo.sound {sp : Spec} {hd : Hdr} {body : State → Hw → Did} (b : ∀ k, (body s k).Sound k) :
    ShedsTo s (Machine.unlessCut c s (done s (hostCmd sp hd s body))) := .unlessCut (.next (hostCmd_sheds b))

theorem ShedsTo.tame {sp : Spec} {hd : Hdr} {body : State → Hw → Did} (b : ∀ k, (body s k).Tame k) :
    ShedsTo s (Machine.unlessCut c s (done s (hostCmd sp hd s body))) := .sound fun k => (b k).sound

/-- A row whose obligation says which parts it changes at most. -/
theorem ShedsTo.frame {ps : List Part} {P : State → Prop} (a : ∃ t, r = .next t ∧ Frame ps s t ∧ P t) (p : Part.plu ∉ ps)
    (n : Part.nv ∉ ps) : ShedsTo s r := by
  obtain ⟨t, e, ⟨-, -, -, only⟩, -⟩ := a
  exact ⟨t, e, .inl (only.strays p n)⟩

theorem ShedsTo.only {ps : List Part} {P : State → Prop}
    (a : ∃ t, r = .next t ∧ t.pending = s.pending ∧ t.fuses = s.fuses ∧ s.hw.Only ps t.hw ∧ P t) (p : Part.plu ∉ ps)
    (n : Part.nv ∉ ps) : ShedsTo s r := by
  obtain ⟨t, e, -, -, only, -⟩ := a
  exact ⟨t, e, .inl (only.strays p n)⟩

end

theorem stagedMma_sheds {r : StreamRef} {sn : Seen} {s : State} {q : Instr × Nat × Bool}
    (m : q ∈ [(Instr.mma r sn, 0x12, false), (.mmaz r sn, 0x13, true)]) : ShedsTo s (exec q.1 s) := by
  obtain ⟨-, -, -, mma, -⟩ := matrixEngine r s
  obtain ⟨t, e, -, -, -, only, -⟩ := mma sn q m
  exact ⟨t, e, .inl (only.strays (by decide) (by decide))⟩

theorem vector_sheds {r : StreamRef} {sn : Seen} {s : State} {c : Instr} {op : Nat}
    (m : (c, op) ∈ [(Instr.vadd r sn, 0x20), (.vsub r sn, 0x21), (.vmul r sn, 0x22), (.vfma r sn, 0x23), (.vmax r sn, 0x24),
        (.vmin r sn, 0x25), (.vabs r sn, 0x26), (.vneg r sn, 0x27), (.vmov r sn, 0x28), (.vscl r sn, 0x29), (.vcmp r sn, 0x2A),
        (.vsel r sn, 0x2B), (.vred r sn, 0x30), (.vexp r sn, 0x31), (.vrcp r sn, 0x32), (.vrsq r sn, 0x33), (.vcvt r sn, 0x34),
        (.vsmx r sn, 0x35), (.vrope r sn, 0x36), (.vgather r sn, 0x37)]) : ShedsTo s (exec c s) := by
  obtain ⟨rows, -⟩ := vectorEngine r sn s
  exact .only (rows _ m) (by decide) (by decide)

theorem transfer_sheds {r : StreamRef} {sn : Seen} {s : State} {q : Instr × Nat × (Work → Mem → Hw → Moved)}
    (m : q ∈ [(Instr.move r sn, 0x40, moveWork), (.fill r sn, 0x44, fillWork), (.movepg r sn, 0x41, movepgWork)]) :
    ShedsTo s (exec q.1 s) := by
  obtain ⟨engine, -⟩ := transferEngine
  obtain ⟨rows, -⟩ := engine r sn s
  exact .only (rows _ m) (by decide) (by decide)

theorem end_sheds {r : StreamRef} {sn : Seen} {s : State} {q : Instr × Nat} (m : q ∈ [(Instr.bar r sn, 3), (.halt r, 4)]) :
    ShedsTo s (exec q.1 s) :=
  .only (end_clause r s sn q m) (by decide) (by decide)

theorem tpost_sheds {r : StreamRef} {s : State} : ShedsTo s (exec (.tpost r) s) := by
  obtain ⟨engine, -⟩ := transferEngine
  obtain ⟨-, -, -, -, tpost⟩ := engine r Seen.clean s
  exact .frame tpost (by decide) (by decide)

theorem matrixControl_sheds {r : StreamRef} {s : State} :
    ShedsTo s (exec (.setfmt r) s) ∧ ShedsTo s (exec (.loadb r) s) ∧ ShedsTo s (exec (.loadbStagingDone r) s) := by
  obtain ⟨setfmt, loadb, staging, -⟩ := matrixEngine r s
  exact ⟨.frame setfmt (by decide) (by decide), .frame loadb (by decide) (by decide), .frame staging (by decide) (by decide)⟩

/-- Every row but the claim of AUTH, from its own rule. -/
theorem exec_sheds_row {c : Instr} {s : State} (n : ∀ hub both readable, c ≠ .authClaim hub both readable) : ShedsTo s (exec c s) := by
  cases c with
  | nop r => exact .frame (nop_clause r s) (by decide) (by decide)
  | loop r => exact .frame (loop_clause r s) (by decide) (by decide)
  | endloop r => exact .frame (endloop_clause r s) (by decide) (by decide)
  | bar r sn => exact end_sheds (r := r) (sn := sn) (q := (.bar r sn, 3)) (by simp)
  | migrationPageDone ctx sn => exact .only (migration_clause ctx s sn) (by decide) (by decide)
  | barrierRelease ctx => exact .only (release_clause ctx s) (by decide) (by decide)
  | halt r => exact end_sheds (r := r) (sn := Seen.clean) (q := (.halt r, 4)) (by simp)
  | ctrrd r sn => exact .only (ctrrd_clause r s sn) (by decide) (by decide)
  | setfmt r => exact matrixControl_sheds.1
  | loadb r => exact matrixControl_sheds.2.1
  | loadbStagingDone r => exact matrixControl_sheds.2.2
  | mma r sn => exact stagedMma_sheds (r := r) (sn := sn) (q := (.mma r sn, 0x12, false)) (by simp)
  | mmaz r sn => exact stagedMma_sheds (r := r) (sn := sn) (q := (.mmaz r sn, 0x13, true)) (by simp)
  | drain r sn ab => exact .next (.inl (drain_only.strays (by decide) (by decide)))
  | chkrd r sn => exact .next (.inl (chkrd_only.strays (by decide) (by decide)))
  | vadd r sn => exact vector_sheds (r := r) (sn := sn) (op := 0x20) (by simp)
  | vsub r sn => exact vector_sheds (r := r) (sn := sn) (op := 0x21) (by simp)
  | vmul r sn => exact vector_sheds (r := r) (sn := sn) (op := 0x22) (by simp)
  | vfma r sn => exact vector_sheds (r := r) (sn := sn) (op := 0x23) (by simp)
  | vmax r sn => exact vector_sheds (r := r) (sn := sn) (op := 0x24) (by simp)
  | vmin r sn => exact vector_sheds (r := r) (sn := sn) (op := 0x25) (by simp)
  | vabs r sn => exact vector_sheds (r := r) (sn := sn) (op := 0x26) (by simp)
  | vneg r sn => exact vector_sheds (r := r) (sn := sn) (op := 0x27) (by simp)
  | vmov r sn => exact vector_sheds (r := r) (sn := sn) (op := 0x28) (by simp)
  | vscl r sn => exact vector_sheds (r := r) (sn := sn) (op := 0x29) (by simp)
  | vcmp r sn => exact vector_sheds (r := r) (sn := sn) (op := 0x2A) (by simp)
  | vsel r sn => exact vector_sheds (r := r) (sn := sn) (op := 0x2B) (by simp)
  | vred r sn => exact vector_sheds (r := r) (sn := sn) (op := 0x30) (by simp)
  | vexp r sn => exact vector_sheds (r := r) (sn := sn) (op := 0x31) (by simp)
  | vrcp r sn => exact vector_sheds (r := r) (sn := sn) (op := 0x32) (by simp)
  | vrsq r sn => exact vector_sheds (r := r) (sn := sn) (op := 0x33) (by simp)
  | vcvt r sn => exact vector_sheds (r := r) (sn := sn) (op := 0x34) (by simp)
  | vsmx r sn => exact vector_sheds (r := r) (sn := sn) (op := 0x35) (by simp)
  | vrope r sn => exact vector_sheds (r := r) (sn := sn) (op := 0x36) (by simp)
  | vgather r sn => exact vector_sheds (r := r) (sn := sn) (op := 0x37) (by simp)
  | move r sn => exact transfer_sheds (r := r) (sn := sn) (q := (.move r sn, 0x40, moveWork)) (by simp)
  | fill r sn => exact transfer_sheds (r := r) (sn := sn) (q := (.fill r sn, 0x44, fillWork)) (by simp)
  | movepg r sn => exact transfer_sheds (r := r) (sn := sn) (q := (.movepg r sn, 0x41, movepgWork)) (by simp)
  | tpost r => exact tpost_sheds
  | tokenArrival r => exact .frame (token_clause r s) (by decide) (by decide)
  | instructionStart r => exact .frame (instructionStart_clause r s) (by decide) (by decide)
  | instructionRetire r => exact .only (retire_clause r s) (by decide) (by decide)
  | streamWatchdogExpiry r => exact .frame (watchdog_clause r s) (by decide) (by decide)
  | translationWalk ctx region lpn walker sn => exact .next (.inl (walkEff_only.strays (by decide) (by decide)))
  | hello hd version payload => exact .unlessCut (.next (.inl strays_helloHw))
  | sessionOpen hd p0 payload => exact .unlessCut (.next (.inl strays_sessionOpenHw))
  | sessionClose hd len => exact .tame fun _ => ⟨rfl, fun _ => Hw.strays_endSessions⟩
  | echo hd p payload => exact .tame fun _ => ⟨rfl, fun _ => rfl⟩
  | rekey hd payload => exact .tame fun _ => ⟨Hw.strays_with, fun _ => Hw.strays_modSession⟩
  | regRead hd len p0 => exact .tame fun _ => tame_regReadBody
  | regWrite hd len p0 p1 => exact .tame fun _ => tame_regWriteBody
  | regRmw hd len p0 p1 p2 => exact .tame fun _ => tame_regRmwBody
  | regReadBlock hd len p0 p1 => exact .tame fun _ => tame_regBlockBody
  | bringupStep hd len p0 p1 => exact .tame fun _ => tame_bringupBody
  | bringupStatus hd len => exact .tame fun _ => ⟨rfl, fun _ => rfl⟩
  | stageEnd r => exact .next sheds_stageEff
  | resetDomainCore hd len p1 => exact .tame fun _ => tame_resetDomainBody
  | resetDomainCluster hd len p1 => exact .tame fun _ => tame_resetDomainBody
  | resetDomainPartition hd len p1 => exact .tame fun _ => tame_resetDomainBody
  | resetDomainPackage hd len p1 => exact .sound fun _ => sound_resetPackageBody
  | trainingSave hd len p0 flashOk => exact .tame fun _ => tame_trainingSaveBody
  | ctxCreate hd len p0 p1 p2 p3 => exact .tame fun _ => tame_createBody
  | imageLoad hd p0 p1 p2 payload => exact .tame fun _ => tame_loadBody
  | ctxStart hd len sn => exact .tame fun _ => tame_startBody
  | ctxStop hd len => exact .tame fun _ => tame_stopBody
  | ctxAbort hd len p0 => exact .tame fun _ => tame_abortBody
  | ctxQuery hd len p0 => exact .tame fun _ => tame_queryBody
  | placementQuery hd len p0 p1 p2 => exact .tame fun _ => tame_placeQueryBody
  | pinRecord hd len p1 => exact .tame fun _ => tame_pinRecordBody
  | pinBind hd len p1 => exact .tame fun _ => tame_pinBindBody
  | pinClear hd len p1 => exact .tame fun _ => tame_pinClearBody
  | memWrite hd p0 p1 p2 payload sn => exact .tame fun _ => tame_memWriteBody
  | memRead hd len p0 p1 p2 p3 sn => exact .tame fun _ => tame_memReadBody
  | memFill hd len p0 p1 p2 p3 p4 p5 sn => exact .tame fun _ => tame_memFillBody
  | qpOpen hd p1 p2 p3 payload => exact .tame fun _ => tame_qpOpenBody
  | mrBind hd len p1 p2 p3 p4 => exact .tame fun _ => tame_mrBindBody
  | ringBind hd len p1 p2 p3 p4 => exact .tame fun _ => tame_ringBindBody
  | qpClose hd len p1 => exact .tame fun _ => tame_qpCloseBody
  | mrUnbind hd len p1 => exact .tame fun _ => tame_mrUnbindBody
  | groupSet hd p0 payload => exact .tame fun _ => tame_groupSetBody
  | groupClear hd len p0 => exact .tame fun _ => tame_groupClearBody
  | fabricQuiesceStart hd len => exact .tame fun _ => tame_quiesceBody
  | fabricQuiesceResume hd len => exact .tame fun _ => tame_resumeBody
  | routeWrite hd p0 payload => exact .tame fun _ => tame_routeWriteBody
  | congestionRead hd len p0 => exact .tame fun _ => tame_congestionBody
  | linkStateRead hd len p0 => exact .tame fun _ => tame_linkBody fun _ _ => rfl
  | linkStateEnable hd len p0 => exact .tame fun _ => tame_linkBody fun _ _ => Hw.strays_enableLink
  | linkStateDisable hd len p0 => exact .tame fun _ => tame_linkBody fun _ _ => Hw.strays_enableLink
  | linkStateRetrain hd len p0 => exact .tame fun _ => tame_linkBody fun _ _ => Hw.strays_retrain
  | linkStateSetDead hd len p0 => exact .tame fun _ => tame_linkBody fun _ _ => Hw.strays_deadLink
  | powerCapSet hd len p0 => exact .tame fun _ => tame_powerCapBody
  | paceSet hd len p0 p1 => exact .tame fun _ => tame_paceSetBody
  | paceModeFree hd len p1 => exact .tame fun _ => tame_paceModeBody
  | paceModeFixed hd len p1 => exact .tame fun _ => tame_paceModeBody
  | paceAgreementStart hd len p1 => exact .tame fun _ => tame_agreeStartBody
  | paceAgreementStop hd len p1 => exact .tame fun _ => tame_agreeStopBody
  | foehnSet hd len p0 p1 => exact .tame fun _ => tame_foehnBody
  | thermalQuery hd len => exact .tame fun _ => ⟨rfl, fun _ => rfl⟩
  | mainPowerOff hd len => exact .sound fun _ => sound_mainOffBody
  | mainPowerRelease hd len => exact .tame fun _ => tame_mainReleaseBody
  | setWindow hd len p1 => exact .tame fun _ => tame_setWindowBody
  | applyCounterConfig hd payload => exact .tame fun _ => tame_applyCfgBody
  | clearBanks hd len => exact .tame fun _ => ⟨Hw.strays_clearAll, fun _ => rfl⟩
  | counterSnapshot hd len p0 p1 p2 p3 => exact .tame fun _ => tame_snapshotBody
  | sampleConfig hd len p0 p1 p2 => exact .tame fun _ => tame_sampleBody
  | logRead hd len p0 p1 p2 p3 => exact .tame fun _ => tame_logReadBody
  | attestReport hd nonce => exact .tame fun _ => ⟨rfl, fun _ => rfl⟩
  | lifecycleSet hd p0 payload => exact .tame fun _ => tame_lifecycleBody
  | fwDeltaBegin hd len p0 p1 => exact .tame fun _ => tame_deltaBeginBody
  | fwDeltaData hd p0 p1 payload flashOk => exact .tame fun _ => tame_deltaDataBody
  | setRelayChain hd len p1 p2 => exact .tame fun _ => tame_relayChainBody
  | startForwarding hd len => exact .tame fun _ => tame_startForwardBody
  | stopForwarding hd len => exact .tame fun _ => ⟨Hw.strays_stopForward, fun _ => rfl⟩
  | fwActivate hd len p0 => exact .tame fun _ => tame_fwActivateBody
  | fwStatus hd len => exact .tame fun _ => ⟨rfl, fun _ => rfl⟩
  | cpxStatus hd len => exact .tame fun _ => ⟨Hw.strays_cpxJournal, fun _ => rfl⟩
  | cpxHandover hd len => exact .tame fun _ => tame_handoverBody
  | cpxPrefer hd len p0 => exact .tame fun _ => tame_preferBody
  | ycpDrop peer bytes => exact .unlessCut (.next ycpDropEff_sheds)
  | auxPwrokFall => exact .next sheds_auxFallAll
  | pwrokFall sig => exact .next sheds_pwrokEff
  | pkgResetN => exact .next sheds_pkgResetAll
  | sensorSample d r => exact .next sheds_sensorAll
  | setStateEffecterStates r id v => exact .next sheds_setStateEff
  | authClaim hub both readable => exact absurd rfl (n hub both readable)
  | _ => exact .next (.inl (by simp))

/-- A packet that waited is its command, which is no claim; nothing else waits. -/
theorem runPacket_cases (c : Instr) (s : State) :
    (runPacket s c = exec c s ∧ ∀ hub both readable, c ≠ .authClaim hub both readable) ∨ runPacket s c = .next s := by
  unfold runPacket
  split <;> first | exact .inl ⟨rfl, nofun⟩ | exact .inr rfl

theorem runPacket_sheds {c : Instr} {s : State} : ShedsTo s (runPacket s c) := by
  obtain ⟨e, n⟩ | e := runPacket_cases c s
  · rw [e]
    exact exec_sheds_row n
  · rw [e]
    exact .next (.refl _)

theorem runWaiting_sheds {s : State} {l : List (Instr × Nat)} : s.hw.Sheds (runWaiting s l).hw := by
  induction l generalizing s with
  | nil => exact .refl _
  | cons q l ih =>
    obtain ⟨t, e, a⟩ := runPacket_sheds (c := q.1) (s := s)
    simp only [runWaiting, List.foldl_cons, e] at ih ⊢
    split
    · exact a.trans ih
    · exact ih

/-- The claim of AUTH, and the packets that waited for it (R347). -/
theorem authClaim_sheds {hub : Fin 2} {both readable : Bool} {s : State} : ShedsTo s (execAuthClaim hub both readable s) := by
  have claim : s.hw.Sheds (s.commit (claimEff hub both readable s)).hw := .inl strays_claimEff
  unfold execAuthClaim
  extract_lets t
  split
  · exact .next (claim.trans runWaiting_sheds)
  · exact .next claim

theorem exec_sheds {c : Instr} {s : State} : ShedsTo s (exec c s) := by
  by_cases n : ∀ hub both readable, c ≠ .authClaim hub both readable
  · exact exec_sheds_row n
  · push Not at n
    obtain ⟨hub, both, readable, rfl⟩ := n
    exact authClaim_sheds

theorem Hw.strays_tick {h : Hw} : h.tick.strays = h.strays := by
  have counted (k : Hw) : (h.timeCounts k).strays = k.strays := Hw.only_timeCounts.strays (by decide) (by decide)
  have advanced : h.advance.strays = h.strays := by
    unfold Hw.advance
    split_ifs <;> rfl
  unfold Hw.tick
  rw [Hw.strays_ite, counted, advanced, ite_self]

theorem step_sheds {s t : State} (e : step s = .next t) : s.hw.Sheds t.hw := by
  unfold step at e
  split at e
  · cases e
    exact .inl Hw.strays_tick
  · next c cs _ =>
    obtain ⟨u, f, a⟩ := exec_sheds (c := c) (s := { s with pending := cs })
    rw [f] at e
    cases e
    exact a

theorem step_memOk {s t : State} (e : step s = .next t) (ok : s.MemOk) : t.MemOk := by
  unfold step at e
  split at e
  · cases e
    exact ok
  · next c cs _ =>
    obtain ⟨f, g⟩ := exec_eq_commit c { s with pending := cs }
    rw [g] at e
    cases e
    exact State.commit_memOk f ok

/-- Settles O4: a command edits the memories, which keeps their canonical form, and it keeps what the machine holds against the two
other invariants or empties the dies; a nanosecond changes only the timebase and counters. -/
theorem everyStepKeepsInvariants : Obligations.EveryStepKeepsInvariants := fun _ _ e =>
  ⟨step_memOk e, (step_sheds e).diesExist, (step_sheds e).savedOk⟩

end Sys2Proof.Machine
end

section
/-!
PROOFS. Wipes of a hub's secure SRAM (R113, R114, R450): what a wipe, a tamper event and a wipe request change.
-/
namespace Sys2Proof.Machine

/-! ## The wipe -/

theorem Hw.fld_endSessions {h : Hw} {f : Session → Bool} (g : Fld) : (h.endSessions f).fld g = h.fld g := Hw.fld_of_regs rfl g

theorem Hw.sessions_endSessions_all {h : Hw} : (h.endSessions fun _ => true).host.sessions = [] := by simp [Hw.endSessions]

theorem Hw.only_sepField {h : Hw} {x : SepSt} : h.Only [.sep] { h with sep := x } := fun p hp => by
  cases p <;> first | rfl | simp at hp

section
variable {h : Hw} {hub cause : Nat}

theorem Hw.only_wipe : h.Only [.regs, .host] (h.wipe hub cause) :=
  ((Hw.only_satFld.trans Hw.only_setFld).mono (by simp)).trans (Hw.only_endSessions.mono (by simp))

theorem Hw.regsBut_wipe : h.RegsBut [Reg.SEP_SSRAM_STATUS hub] (h.wipe hub cause) :=
  (Hw.regsBut_satFld (f := Fd.SEP_SSRAM_STATUS.WIPE_CNT hub)).trans
    ((Hw.regsBut_setFld (f := Fd.SEP_SSRAM_STATUS.LAST_CAUSE hub)).trans (.of_regs rfl))

/-- A wipe takes the session keys of every session. -/
theorem Hw.sessions_wipe : (h.wipe hub cause).host.sessions = [] := Hw.sessions_endSessions_all

theorem Hw.fld_wipe_cause (small : cause < 16) : (h.wipe hub cause).fld (Fd.SEP_SSRAM_STATUS.LAST_CAUSE hub) = cause := by
  rw [Hw.wipe, Hw.fld_endSessions, Hw.fld_setFld_same _ _ _ (show 12 + 4 ≤ 32 by decide)]
  exact Nat.mod_eq_of_lt small

theorem Hw.fld_wipe_count : (h.wipe hub cause).fld (Fd.SEP_SSRAM_STATUS.WIPE_CNT hub) =
    min (h.fld (Fd.SEP_SSRAM_STATUS.WIPE_CNT hub) + 1) 0xFFFF := by
  rw [Hw.wipe, Hw.fld_endSessions, Hw.fld_setFld_other _ _ _ _ (show 12 + 4 ≤ 32 by decide) (.inr (.inr (show 12 + 4 ≤ 16 by decide))),
    Hw.fld_satFld_same _ _ _ (show 16 + 16 ≤ 32 by decide)]
  rfl

theorem Hw.only_askWipe : h.Only [.sep, .out] (h.askWipe hub) := fun p hp => by
  cases p <;> first | rfl | simp at hp

theorem Hw.asked_askWipe : 1 - hub ∈ (h.askWipe hub).sep.wipeReq := (mem_insNat _ _).2 (.inl rfl)

end

/-! ## The log of an event that no session is left to hear -/

/-- Without sessions, an entry of the log is sent to none. -/
theorem Hw.sessions_logSev {h : Hw} {v s k : Nat} {d : List Byte} (e : h.host.sessions = []) :
    (h.logSev v s k d).host.sessions = [] := by
  have kept : (if decide (4096 ≤ h.logs.ents.length) then h.satFld Fd.CTR_LOG_STATUS.OVERWRITTEN 1 else h).host = h.host := by
    split <;> rfl
  simp only [Hw.logSev, Hw.sendEvent, kept, e, List.map_nil]
  split <;> [rfl; exact e]

/-- A CRITICAL entry of the log also goes to the black box. -/
theorem Hw.box_logSev {h : Hw} {s k : Nat} {d : List Byte} :
    ∃ e, (h.logSev 5 s k d).logs.box.head? = some e ∧ e.2.severity = 5 ∧ e.2.tb = h.tb :=
  ⟨(h.logs.boxSeq, ⟨h.tb, h.logs.seq % 2 ^ 32, 5, s, k, d⟩), rfl, rfl, rfl⟩

/-! ## Tamper events and wipe requests -/

section
variable {h : Hw} {hub cause : Nat}

/-- The machine after the wipe, the request and the count of a tamper event. -/
def Hw.tampered (h : Hw) (hub cause : Nat) : Hw := ((h.wipe hub cause).askWipe hub).satFld Fd.SEP_LC_STATUS.TAMPER_CNT 1

theorem Hw.only_tampered : h.Only [.regs, .host, .sep, .out] (h.tampered hub cause) :=
  (Hw.only_wipe.mono (by simp)).trans ((Hw.only_askWipe.mono (by simp)).trans (Hw.only_satFld.mono (by simp)))

theorem Hw.regsBut_tampered : h.RegsBut [Reg.SEP_SSRAM_STATUS hub, Reg.SEP_LC_STATUS] (h.tampered hub cause) :=
  (Hw.regsBut_wipe.mono (by simp)).trans (Hw.RegsBut.trans (fun a _ => Hw.only_askWipe.reg (by decide) a)
    ((Hw.regsBut_satFld (f := Fd.SEP_LC_STATUS.TAMPER_CNT)).mono (by simp [Fd.SEP_LC_STATUS.TAMPER_CNT])))

theorem Hw.sessions_tampered : (h.tampered hub cause).host.sessions = [] := by
  have counted : (h.tampered hub cause).host = ((h.wipe hub cause).askWipe hub).host := Hw.only_satFld .host (by decide)
  have asked : ((h.wipe hub cause).askWipe hub).host = (h.wipe hub cause).host := Hw.only_askWipe .host (by decide)
  rw [counted, asked, Hw.sessions_wipe]

theorem Hw.asked_tampered : 1 - hub ∈ (h.tampered hub cause).sep.wipeReq := by
  have kept : (h.tampered hub cause).sep = ((h.wipe hub cause).askWipe hub).sep := Hw.only_satFld .sep (by decide)
  rw [kept]
  exact Hw.asked_askWipe

/-- What the life cycle shows is not among what a hub's secure SRAM shows. -/
theorem ssramStatus_ne_lcStatus : Reg.SEP_SSRAM_STATUS hub ≠ Reg.SEP_LC_STATUS := by
  unfold Reg.SEP_SSRAM_STATUS Reg.SEP_LC_STATUS hubBase
  omega

theorem ssramStatus_ne_logStatus : Reg.SEP_SSRAM_STATUS hub ≠ Reg.CTR_LOG_STATUS := by
  unfold Reg.SEP_SSRAM_STATUS Reg.CTR_LOG_STATUS hubBase
  omega

theorem Hw.fld_asked {g : Fld} (e : g.addr ≠ Reg.SEP_SSRAM_STATUS hub) : ((h.wipe hub cause).askWipe hub).fld g = h.fld g :=
  (Hw.only_askWipe.fld (by decide) g).trans (Hw.regsBut_wipe.fld (by simpa using e))

theorem Hw.fld_tampered_cause (small : cause < 16) :
    (h.tampered hub cause).fld (Fd.SEP_SSRAM_STATUS.LAST_CAUSE hub) = cause := by
  rw [Hw.tampered, Hw.satFld, Hw.fld_setFld_other _ _ _ _ (by decide) (.inl ssramStatus_ne_lcStatus),
    Hw.only_askWipe.fld (by decide), Hw.fld_wipe_cause small]

theorem Hw.fld_tampered_count :
    (h.tampered hub cause).fld Fd.SEP_LC_STATUS.TAMPER_CNT = min (h.fld Fd.SEP_LC_STATUS.TAMPER_CNT + 1) 255 := by
  rw [Hw.tampered, Hw.fld_satFld_same _ _ _ (by decide), Hw.fld_asked (g := Fd.SEP_LC_STATUS.TAMPER_CNT) ssramStatus_ne_lcStatus.symm]
  rfl

theorem Hw.fld_tampered_state : (h.tampered hub cause).fld Fd.SEP_LC_STATUS.STATE = h.fld Fd.SEP_LC_STATUS.STATE := by
  rw [Hw.tampered, Hw.satFld, Hw.fld_setFld_other _ _ _ _ (by decide) (.inr (.inr (by decide))),
    Hw.fld_asked (g := Fd.SEP_LC_STATUS.STATE) ssramStatus_ne_lcStatus.symm]

theorem tamperHw_powered {hub : Fin 2} {cause : Fin 4} (v : h.flag Fd.PKG_BOARD_STATUS.AUX_PWROK = true) :
    tamperHw hub cause h = (h.tampered hub.val (cause.val + 1)).logSev 5 (1 + hub.val) logState
      (Config.noteData logState 0x0450 (cause.val + 1) 0) := by
  rw [tamperHw, v]
  rfl

end

section
variable {s : State} {hub : Fin 2} {cause : Fin 4}

theorem tamper_clause : ∃ t, exec (.tamperEvent hub cause) s = .next t ∧
    (s.hw.flag Fd.PKG_BOARD_STATUS.AUX_PWROK = false → t = s) ∧
    (s.hw.flag Fd.PKG_BOARD_STATUS.AUX_PWROK = true → Frame [.regs, .host, .sep, .logs, .out] s t ∧
      s.hw.RegsBut [Reg.SEP_SSRAM_STATUS hub.val, Reg.SEP_LC_STATUS, Reg.CTR_LOG_STATUS] t.hw ∧ t.hw.host.sessions = [] ∧
      t.hw.fld (Fd.SEP_SSRAM_STATUS.LAST_CAUSE hub.val) = cause.val + 1 ∧
      t.hw.fld Fd.SEP_LC_STATUS.TAMPER_CNT = min (s.hw.fld Fd.SEP_LC_STATUS.TAMPER_CNT + 1) 255 ∧
      t.hw.fld Fd.SEP_LC_STATUS.STATE = s.hw.fld Fd.SEP_LC_STATUS.STATE ∧ (1 - hub.val) ∈ t.hw.sep.wipeReq ∧
      (∃ e, t.hw.logs.box.head? = some e ∧ e.2.severity = 5 ∧ e.2.tb = s.hw.tb)) := by
  refine ⟨{ s with hw := tamperHw hub cause s.hw }, rfl, fun v => ?_, fun v => ?_⟩
  · rw [tamperHw, if_pos v]
  · rw [tamperHw_powered v]
    have only := Hw.only_tampered (h := s.hw) (hub := hub) (cause := cause.val + 1)
    have regs := Hw.regsBut_tampered (h := s.hw) (hub := hub) (cause := cause.val + 1)
    have sessions := Hw.sessions_tampered (h := s.hw) (hub := hub) (cause := cause.val + 1)
    have asked := Hw.asked_tampered (h := s.hw) (hub := hub) (cause := cause.val + 1)
    have why := Hw.fld_tampered_cause (h := s.hw) (hub := hub) (cause := cause.val + 1) (by omega)
    have count := Hw.fld_tampered_count (h := s.hw) (hub := hub) (cause := cause.val + 1)
    have state := Hw.fld_tampered_state (h := s.hw) (hub := hub) (cause := cause.val + 1)
    generalize s.hw.tampered hub (cause.val + 1) = k at *
    generalize Config.noteData logState 0x0450 (cause.val + 1) 0 = d
    have logged : k.RegsBut [Reg.CTR_LOG_STATUS] (k.logSev 5 (1 + hub.val) logState d) := Hw.regsBut_logSev
    have kept : (k.logSev 5 (1 + hub.val) logState d).sep = k.sep := Hw.only_logSev .sep (by decide)
    refine ⟨Frame.keep ((only.mono (by simp)).trans (Hw.only_logSev.mono (by simp))), (regs.mono (by simp)).trans (logged.mono
      (by simp)), Hw.sessions_logSev sessions, ?_, ?_, ?_, kept ▸ asked, ?_⟩
    · rw [logged.fld (by simpa [Fd.SEP_SSRAM_STATUS.LAST_CAUSE] using ssramStatus_ne_logStatus), why]
    · rw [logged.fld (by decide), count]
    · rw [logged.fld (by decide), state]
    · rw [← show k.tb = s.hw.tb from only .tb (by decide)]
      exact Hw.box_logSev

theorem wipeRequest_clause : ∃ t, exec (.wipeRequest hub) s = .next t ∧ (hub.val ∉ s.hw.sep.wipeReq → t = s) ∧
    (hub.val ∈ s.hw.sep.wipeReq → Frame [.regs, .host, .sep] s t ∧ s.hw.RegsBut [Reg.SEP_SSRAM_STATUS hub.val] t.hw ∧
      t.hw.host.sessions = [] ∧ t.hw.fld (Fd.SEP_SSRAM_STATUS.LAST_CAUSE hub.val) = 6 ∧ hub.val ∉ t.hw.sep.wipeReq ∧
      t.hw.fld (Fd.SEP_SSRAM_STATUS.WIPE_CNT hub.val) =
        min (s.hw.fld (Fd.SEP_SSRAM_STATUS.WIPE_CNT hub.val) + 1) 0xFFFF) := by
  refine ⟨{ s with hw := wipeRequestHw hub s.hw }, rfl, fun none => ?_, fun asked => ?_⟩
  · rw [wipeRequestHw, if_neg (by simpa using none)]
  · rw [wipeRequestHw, if_pos (by simpa using asked)]
    have cleared : (s.hw.wipe hub.val 6).Only [.sep] _ := Hw.only_sepField (x := { (s.hw.wipe hub.val 6).sep with
      wipeReq := (s.hw.wipe hub.val 6).sep.wipeReq.filter fun x => x != hub.val })
    refine ⟨Frame.keep ((Hw.only_wipe.mono (by simp)).trans (cleared.mono (by simp))), Hw.regsBut_wipe.trans fun a _ =>
      cleared.reg (by decide) a, ?_, ?_, by simp, ?_⟩
    · rw [show Hw.host _ = _ from cleared .host (by decide), Hw.sessions_wipe]
    · rw [cleared.fld (by decide), Hw.fld_wipe_cause (by decide)]
    · rw [cleared.fld (by decide), Hw.fld_wipe_count]

end

end Sys2Proof.Machine
end

section
/-!
PROOFS. The operator list and SERVICE_EN (R447, R448, R452): storing and removing an entry, and what a cleared SERVICE_EN ends.
-/
namespace Sys2Proof.Machine

/-! ## A number from its bits -/

/-- The number whose bits below `n` are those a test admits. -/
def bitSum (p : Nat → Bool) (n : Nat) : Nat := ((List.range n).map (fun i => if p i then 2 ^ i else 0)).foldl (· + ·) 0

theorem bitSum_succ (p : Nat → Bool) (n : Nat) : bitSum p (n + 1) = bitSum p n + if p n then 2 ^ n else 0 := by
  simp [bitSum, List.range_succ]

theorem bitSum_lt (p : Nat → Bool) (n : Nat) : bitSum p n < 2 ^ n := by
  induction n with
  | zero => exact Nat.one_pos
  | succ n ih =>
    rw [bitSum_succ, pow_succ]
    split <;> omega

theorem testBit_bitSum (p : Nat → Bool) {n i : Nat} (low : i < n) : (bitSum p n).testBit i = p i := by
  induction n with
  | zero => omega
  | succ n ih =>
    have fresh : (bitSum p n).testBit n = false := Nat.testBit_lt_two_pow (bitSum_lt p n)
    rw [bitSum_succ]
    obtain below | rfl : i < n ∨ i = n := by omega
    · split
      · rw [Nat.add_comm, Nat.testBit_two_pow_add_gt below, ih below]
      · exact ih below
    · split
      next on => rw [Nat.add_comm, Nat.testBit_two_pow_add_eq, fresh, on]; rfl
      next off => rw [Nat.add_zero, fresh, Bool.eq_false_iff.2 off]

/-! ## The list and the bits that show it -/

/-- The machine with another operator list, and the VALID bits of it. -/
def Hw.setOps (h : Hw) (ops : List (Nat × (List Byte × Nat))) : Hw := ({ h with sep := { h.sep with ops := ops } } : Hw).keyValid

section
variable {h : Hw} {ops : List (Nat × (List Byte × Nat))}

theorem Hw.setOps_eq : h.setOps ops = ({ h with sep := { h.sep with ops := ops } } : Hw).setFld Fd.SEP_KEY_CTRL.VALID
    (bitSum (fun n => ops.any (fun e => e.1 == n)) 16) := rfl

theorem Hw.only_setOps : h.Only [.regs, .sep] (h.setOps ops) :=
  (Hw.only_sepField.mono (by simp)).trans (Hw.only_setFld.mono (by simp))

theorem Hw.regsBut_setOps : h.RegsBut [Reg.SEP_KEY_CTRL] (h.setOps ops) :=
  (Hw.RegsBut.of_regs rfl).trans (Hw.regsBut_setFld (f := Fd.SEP_KEY_CTRL.VALID))

theorem Hw.sep_setOps : (h.setOps ops).sep = { h.sep with ops := ops } := rfl

theorem Hw.slot_setOps : (h.setOps ops).fld Fd.SEP_KEY_CTRL.SLOT = h.fld Fd.SEP_KEY_CTRL.SLOT :=
  (Hw.fld_setFld_other _ _ _ _ (by decide) (.inr (.inr (by decide)))).trans (Hw.fld_of_regs rfl _)

theorem Hw.valid_setOps {n : Nat} (low : n < 16) :
    bitAt ((h.setOps ops).fld Fd.SEP_KEY_CTRL.VALID) n = ops.any (fun e => e.1 == n) := by
  have fits (p : Nat → Bool) : bitSum p 16 % 2 ^ Fd.SEP_KEY_CTRL.VALID.w = bitSum p 16 := Nat.mod_eq_of_lt (bitSum_lt p 16)
  rw [Hw.setOps_eq, Hw.fld_setFld_same _ _ _ (by decide), fits, bitAt, testBit_bitSum _ low]

end

/-! ## Storing and removing an entry -/

/-- The machine with a slot chosen, before the entry is stored or removed. -/
def Hw.slotted (h : Hw) (slot : Nat) : Hw := h.setFld Fd.SEP_KEY_CTRL.SLOT slot

section
variable {h : Hw} {f : Fuses} {slot : Nat} {g : Session → Bool} {ops : List (Nat × (List Byte × Nat))}

theorem Hw.keyData_slotted : (h.slotted slot).keyData = h.keyData := by
  have kept (n : Nat) : (h.slotted slot).reg (Reg.SEP_KEY_DATA n) = h.reg (Reg.SEP_KEY_DATA n) :=
    Hw.reg_setFld_other _ _ _ (by unfold Reg.SEP_KEY_DATA Fd.SEP_KEY_CTRL.SLOT Reg.SEP_KEY_CTRL; dsimp only; omega)
  simp only [Hw.keyData, kept]

theorem Hw.slot_slotted (low : slot < 16) : (h.slotted slot).fld Fd.SEP_KEY_CTRL.SLOT = slot :=
  (Hw.fld_setFld_same _ _ _ (by decide)).trans (Nat.mod_eq_of_lt low)

theorem Hw.only_slotted : h.Only [.regs] (h.slotted slot) := Hw.only_setFld

theorem Hw.regsBut_slotted : h.RegsBut [Reg.SEP_KEY_CTRL] (h.slotted slot) := Hw.regsBut_setFld (f := Fd.SEP_KEY_CTRL.SLOT)

/-- An edit of the list: a slot is chosen, sessions end and the list changes. -/
def Hw.edited (h : Hw) (slot : Nat) (g : Session → Bool) (ops : List (Nat × (List Byte × Nat))) : Hw :=
  ((h.slotted slot).endSessions g).setOps ops

theorem Hw.only_edited : h.Only [.regs, .host, .sep] (h.edited slot g ops) :=
  (Hw.only_slotted.mono (by simp)).trans ((Hw.only_endSessions.mono (by simp)).trans (Hw.only_setOps.mono (by simp)))

theorem Hw.regsBut_edited : h.RegsBut [Reg.SEP_KEY_CTRL] (h.edited slot g ops) :=
  Hw.regsBut_slotted.trans ((Hw.RegsBut.of_regs rfl).trans Hw.regsBut_setOps)

theorem Hw.slot_edited (low : slot < 16) : (h.edited slot g ops).fld Fd.SEP_KEY_CTRL.SLOT = slot := by
  rw [Hw.edited, Hw.slot_setOps, Hw.fld_endSessions, Hw.slot_slotted low]

theorem Hw.mem_sessions_edited {y : Session} :
    y ∈ (h.edited slot g ops).host.sessions ↔ y ∈ h.host.sessions ∧ g y = false := by
  have kept : (h.edited slot g ops).host.sessions = h.host.sessions.filter (fun x => !g x) := rfl
  rw [kept, List.mem_filter, Bool.not_eq_true']

theorem lcEdits_iff : lcEdits f = true ↔ f.lcState = 3 ∨ f.lcState = 4 := by
  rw [lcEdits, Bool.or_eq_true, beq_iff_eq, beq_iff_eq]

/-- A key, a role and a state that are refused are those that are not all fit. -/
theorem refused_iff {state : Prop} {role : Nat} {taken : Bool} :
    (¬ state ∨ (role ≠ 1 ∧ role ≠ 2) ∨ taken = true) ↔ ¬ (state ∧ (role = 1 ∨ role = 2) ∧ taken = false) := by
  cases taken with
  | true => simp
  | false =>
    simp only [Bool.false_eq_true, or_false, and_true]
    tauto

theorem Hw.keyCommit_slotted : (h.slotted slot).keyCommit f slot =
    if lcEdits f = false then (stState, h.slotted slot)
    else if ((h.keyData.getD 57 0).toNat ≠ 1 ∧ (h.keyData.getD 57 0).toNat ≠ 2) ∨ h.keyTaken f slot (h.keyData.take 57) = true then
      (stParam, h.slotted slot)
    else (stOk, h.edited slot (fun x => x.keySlot == some slot && x.hostKey != h.keyData.take 57)
      ((slot, (h.keyData.take 57, (h.keyData.getD 57 0).toNat)) :: h.sep.ops.filter (fun e => e.1 != slot))) := by
  rw [Hw.keyCommit, Hw.keyData_slotted]
  rfl

theorem Hw.keyCommit_refused (bad : ¬ ((f.lcState = 3 ∨ f.lcState = 4) ∧
    ((h.keyData.getD 57 0).toNat = 1 ∨ (h.keyData.getD 57 0).toNat = 2) ∧ h.keyTaken f slot (h.keyData.take 57) = false)) :
    ((h.slotted slot).keyCommit f slot).2 = h.slotted slot := by
  rw [Hw.keyCommit_slotted]
  split
  · rfl
  next state => rw [if_pos ((refused_iff.2 bad).resolve_left (not_not_intro (lcEdits_iff.1 (by simpa using state))))]

theorem Hw.keyCommit_stored (fit : (f.lcState = 3 ∨ f.lcState = 4) ∧
    ((h.keyData.getD 57 0).toNat = 1 ∨ (h.keyData.getD 57 0).toNat = 2) ∧ h.keyTaken f slot (h.keyData.take 57) = false) :
    ((h.slotted slot).keyCommit f slot).2 = h.edited slot (fun x => x.keySlot == some slot && x.hostKey != h.keyData.take 57)
      ((slot, (h.keyData.take 57, (h.keyData.getD 57 0).toNat)) :: h.sep.ops.filter (fun e => e.1 != slot)) := by
  rw [Hw.keyCommit_slotted, if_neg (by rw [lcEdits_iff.2 fit.1]; decide), if_neg fun bad => refused_iff.1 (.inr bad) fit]

theorem Hw.keyRemove_refused (bad : ¬ (f.lcState = 3 ∨ f.lcState = 4)) :
    ((h.slotted slot).keyRemove f slot).2 = h.slotted slot := by
  unfold Hw.keyRemove
  rw [if_pos (Bool.eq_false_iff.2 (mt lcEdits_iff.1 bad))]

theorem Hw.keyRemove_removed (state : f.lcState = 3 ∨ f.lcState = 4) :
    ((h.slotted slot).keyRemove f slot).2 =
      h.edited slot (fun x => x.keySlot == some slot) (h.sep.ops.filter (fun e => e.1 != slot)) := by
  unfold Hw.keyRemove
  rw [if_neg (by rw [lcEdits_iff.2 state]; decide)]
  rfl

end

section
variable {s : State} {slot : Fin 16}

theorem keyCommit_clause {key : List Byte} {role : Nat} (hk : key = s.hw.keyData.take 57)
    (hr : role = (s.hw.keyData.getD 57 0).toNat) :
    ∃ t, exec (.keyCommit slot) s = .next t ∧ Frame [.regs, .host, .sep] s t ∧ s.hw.RegsBut [Reg.SEP_KEY_CTRL] t.hw ∧
      t.hw.fld Fd.SEP_KEY_CTRL.SLOT = slot.val ∧
      (¬ (s.fuses.lcState = 3 ∨ s.fuses.lcState = 4) ∨ (role ≠ 1 ∧ role ≠ 2) ∨ s.hw.keyTaken s.fuses slot.val key = true →
        t.hw.sep = s.hw.sep ∧ t.hw.host = s.hw.host) ∧
      ((s.fuses.lcState = 3 ∨ s.fuses.lcState = 4) → (role = 1 ∨ role = 2) → s.hw.keyTaken s.fuses slot.val key = false →
        (∀ n e, (n, e) ∈ t.hw.sep.ops ↔ (n = slot.val ∧ e = (key, role)) ∨ (n ≠ slot.val ∧ (n, e) ∈ s.hw.sep.ops)) ∧
        (∀ n < 16, bitAt (t.hw.fld Fd.SEP_KEY_CTRL.VALID) n = t.hw.sep.ops.any (fun e => e.1 == n)) ∧
        ∀ y, y ∈ t.hw.host.sessions ↔ y ∈ s.hw.host.sessions ∧ ¬ (y.keySlot = some slot.val ∧ y.hostKey ≠ key)) := by
  subst hk hr
  refine ⟨{ s with hw := ((s.hw.slotted slot.val).keyCommit s.fuses slot.val).2 }, rfl, ?_⟩
  by_cases fit : (s.fuses.lcState = 3 ∨ s.fuses.lcState = 4) ∧
    ((s.hw.keyData.getD 57 0).toNat = 1 ∨ (s.hw.keyData.getD 57 0).toNat = 2) ∧
      s.hw.keyTaken s.fuses slot.val (s.hw.keyData.take 57) = false
  · rw [Hw.keyCommit_stored fit]
    refine ⟨Frame.keep Hw.only_edited, Hw.regsBut_edited, Hw.slot_edited slot.isLt, fun bad => absurd fit (refused_iff.1 bad),
      fun _ _ _ => ⟨fun n e => ?_, fun n low => Hw.valid_setOps low, fun y => ?_⟩⟩
    · rw [Hw.edited, Hw.sep_setOps]
      simp only [List.mem_cons, List.mem_filter, Prod.mk.injEq, bne_iff_ne]
      tauto
    · rw [Hw.mem_sessions_edited]
      simp
  · rw [Hw.keyCommit_refused fit]
    exact ⟨Frame.keep (Hw.only_slotted.mono (by simp)), Hw.regsBut_slotted, Hw.slot_slotted slot.isLt, fun _ => ⟨rfl, rfl⟩,
      fun state role free => absurd ⟨state, role, free⟩ fit⟩

theorem keyRemove_clause : ∃ t, exec (.keyRemove slot) s = .next t ∧ Frame [.regs, .host, .sep] s t ∧
    s.hw.RegsBut [Reg.SEP_KEY_CTRL] t.hw ∧
    (¬ (s.fuses.lcState = 3 ∨ s.fuses.lcState = 4) → t.hw.sep = s.hw.sep ∧ t.hw.host = s.hw.host) ∧
    ((s.fuses.lcState = 3 ∨ s.fuses.lcState = 4) →
      (∀ e, e ∈ t.hw.sep.ops ↔ e ∈ s.hw.sep.ops ∧ e.1 ≠ slot.val) ∧
      bitAt (t.hw.fld Fd.SEP_KEY_CTRL.VALID) slot.val = false ∧
      ∀ y, y ∈ t.hw.host.sessions ↔ y ∈ s.hw.host.sessions ∧ y.keySlot ≠ some slot.val) := by
  refine ⟨{ s with hw := ((s.hw.slotted slot.val).keyRemove s.fuses slot.val).2 }, rfl, ?_⟩
  by_cases state : s.fuses.lcState = 3 ∨ s.fuses.lcState = 4
  · rw [Hw.keyRemove_removed state]
    refine ⟨Frame.keep Hw.only_edited, Hw.regsBut_edited, fun bad => absurd state bad, fun _ => ⟨fun e => ?_, ?_, fun y => ?_⟩⟩
    · rw [Hw.edited, Hw.sep_setOps]
      simp
    · rw [Hw.edited, Hw.valid_setOps slot.isLt, List.any_eq_false]
      simp
    · rw [Hw.mem_sessions_edited]
      simp
  · rw [Hw.keyRemove_refused state]
    exact ⟨Frame.keep (Hw.only_slotted.mono (by simp)), Hw.regsBut_slotted, fun _ => ⟨rfl, rfl⟩, fun st => absurd st state⟩

end

end Sys2Proof.Machine
end

section
/-!
PROOFS. SERVICE_EN (R452), the attestation report (R451), and O42.
-/
namespace Sys2Proof.Machine

/-! ## SERVICE_EN -/

section
variable {h : Hw} {f : Fuses} {on : Bool}

theorem Hw.only_lcRegs : h.Only [.regs] (h.lcRegs f) :=
  ((((((Hw.only_setFld.trans Hw.only_setFld).trans Hw.only_setFld).trans Hw.only_setFld).trans Hw.only_setFlag).trans
    Hw.only_setFlag).trans Hw.only_setFlag)

theorem Hw.regsBut_lcRegs : h.RegsBut [Reg.SEP_LC_STATUS] (h.lcRegs f) :=
  ((((((Hw.regsBut_setFld (f := Fd.SEP_LC_STATUS.STATE)).trans (Hw.regsBut_setFld (f := Fd.SEP_LC_STATUS.LC_COUNT))).trans
    (Hw.regsBut_setFld (f := Fd.SEP_LC_STATUS.OWNER_SLOT))).trans (Hw.regsBut_setFld (f := Fd.SEP_LC_STATUS.REVOKED))).trans
    (Hw.regsBut_setFlag (f := Fd.SEP_LC_STATUS.IMG_SIG_REQ))).trans (Hw.regsBut_setFlag (f := Fd.SEP_LC_STATUS.SERVICE_EN))).trans
    (Hw.regsBut_setFlag (f := Fd.SEP_LC_STATUS.KEY_FAULT))

/-- SEP_LC_STATUS shows SERVICE_EN of SEP_KEY_CTRL. -/
theorem Hw.flag_lcRegs_service : (h.lcRegs f).flag Fd.SEP_LC_STATUS.SERVICE_EN = h.flag Fd.SEP_KEY_CTRL.SERVICE_EN := by
  rw [Hw.lcRegs, Hw.flag_setFlag_other _ _ _ _ (by decide) (by decide), Hw.flag_setFlag_same _ _ _ rfl (by decide), Hw.serviceEn,
    Hw.flag_setFlag_other _ _ _ _ (by decide) (by decide), Hw.flag_setFld_other _ _ _ _ (by decide) (by decide),
    Hw.flag_setFld_other _ _ _ _ (by decide) (by decide), Hw.flag_setFld_other _ _ _ _ (by decide) (by decide),
    Hw.flag_setFld_other _ _ _ _ (by decide) (by decide)]

theorem Hw.only_keyCtrlSaved : h.Only [.regs, .nv] (h.keyCtrlSaved f) :=
  (Hw.only_nvField.mono (by simp)).trans (Hw.only_lcRegs.mono (by simp))

theorem Hw.regsBut_keyCtrlSaved : h.RegsBut [Reg.SEP_LC_STATUS] (h.keyCtrlSaved f) :=
  Hw.RegsBut.trans (fun a _ => Hw.only_nvField.reg (by decide) a) Hw.regsBut_lcRegs

theorem Hw.flag_keyCtrlSaved_service :
    (h.keyCtrlSaved f).flag Fd.SEP_LC_STATUS.SERVICE_EN = h.flag Fd.SEP_KEY_CTRL.SERVICE_EN :=
  Hw.flag_lcRegs_service.trans (Hw.only_nvField.flag (by decide) _)

/-- The machine with SERVICE_EN set and shown, before sessions end. -/
def Hw.serviced (h : Hw) (f : Fuses) (on : Bool) : Hw := (h.setFlag Fd.SEP_KEY_CTRL.SERVICE_EN on).keyCtrlSaved f

theorem Hw.only_serviced : h.Only [.regs, .nv] (h.serviced f on) :=
  (Hw.only_setFlag.mono (by simp)).trans Hw.only_keyCtrlSaved

theorem Hw.regsBut_serviced : h.RegsBut [Reg.SEP_KEY_CTRL, Reg.SEP_LC_STATUS] (h.serviced f on) :=
  ((Hw.regsBut_setFlag (f := Fd.SEP_KEY_CTRL.SERVICE_EN)).mono (by simp [Fd.SEP_KEY_CTRL.SERVICE_EN])).trans
    (Hw.regsBut_keyCtrlSaved.mono (by simp))

theorem Hw.flag_serviced : (h.serviced f on).flag Fd.SEP_KEY_CTRL.SERVICE_EN = on := by
  rw [Hw.serviced, Hw.regsBut_keyCtrlSaved.flag (by decide), Hw.flag_setFlag_same _ _ _ rfl (by decide)]

theorem Hw.flag_serviced_shown : (h.serviced f on).flag Fd.SEP_LC_STATUS.SERVICE_EN = on := by
  rw [Hw.serviced, Hw.flag_keyCtrlSaved_service, Hw.flag_setFlag_same _ _ _ rfl (by decide)]

theorem Hw.flag_serviced_signed :
    (h.serviced f on).flag Fd.SEP_KEY_CTRL.IMG_SIG_REQ = h.flag Fd.SEP_KEY_CTRL.IMG_SIG_REQ := by
  rw [Hw.serviced, Hw.regsBut_keyCtrlSaved.flag (by decide), Hw.flag_setFlag_other _ _ _ _ (by decide) (by decide)]

theorem Hw.setServiceEn_eq : h.setServiceEn f on = h.serviced f on ∨
    h.setServiceEn f on = (h.serviced f on).endSessions (fun x => x.role == .vendor) := by
  unfold Hw.setServiceEn Hw.serviced
  dsimp only
  split
  · exact .inr rfl
  · exact .inl rfl

theorem Hw.regs_setServiceEn : (h.setServiceEn f on).regs = (h.serviced f on).regs := by
  obtain e | e := Hw.setServiceEn_eq (h := h) (f := f) (on := on) <;> rw [e]
  exact Hw.only_endSessions .regs (by decide)

theorem Hw.only_setServiceEn : h.Only [.regs, .host, .nv] (h.setServiceEn f on) := by
  have shown : h.Only [.regs, .host, .nv] (h.serviced f on) := Hw.only_serviced.mono (by simp)
  refine shown.trans ?_
  obtain e | e := Hw.setServiceEn_eq (h := h) (f := f) (on := on) <;> rw [e]
  · exact Hw.Only.refl _ _
  · exact Hw.only_endSessions.mono (by simp)

theorem Hw.mem_sessions_setServiceEn {y : Session} : y ∈ (h.setServiceEn f on).host.sessions ↔
    y ∈ h.host.sessions ∧ ¬ (on = false ∧ f.lcState = 3 ∧ y.role = .vendor) := by
  have kept : (h.serviced f on).host = h.host := Hw.only_serviced .host (by decide)
  unfold Hw.setServiceEn
  rw [← Hw.serviced]
  dsimp only
  split
  next ends =>
    have ended : ((h.serviced f on).endSessions fun x => x.role == .vendor).host.sessions =
      (h.serviced f on).host.sessions.filter fun x => !(x.role == .vendor) := rfl
    rw [ended, kept]
    simp_all
  next stays =>
    rw [kept]
    simp_all

end

theorem serviceEn_clause (s : State) (on : Bool) : ∃ t, exec (.serviceEnWrite on) s = .next t ∧
    (¬ (s.fuses.lcState = 3 ∨ s.fuses.lcState = 4) → t = s) ∧
    ((s.fuses.lcState = 3 ∨ s.fuses.lcState = 4) → Frame [.regs, .host, .nv] s t ∧
      s.hw.RegsBut [Reg.SEP_KEY_CTRL, Reg.SEP_LC_STATUS] t.hw ∧ t.hw.flag Fd.SEP_KEY_CTRL.SERVICE_EN = on ∧
      t.hw.flag Fd.SEP_LC_STATUS.SERVICE_EN = on ∧
      t.hw.flag Fd.SEP_KEY_CTRL.IMG_SIG_REQ = s.hw.flag Fd.SEP_KEY_CTRL.IMG_SIG_REQ ∧
      ∀ y, y ∈ t.hw.host.sessions ↔ y ∈ s.hw.host.sessions ∧ ¬ (on = false ∧ s.fuses.lcState = 3 ∧ y.role = .vendor)) := by
  refine ⟨{ s with hw := if lcEdits s.fuses then s.hw.setServiceEn s.fuses on else s.hw }, rfl, fun state => ?_, fun state => ?_⟩
  · rw [if_neg (mt lcEdits_iff.1 state)]
  · rw [if_pos (lcEdits_iff.2 state)]
    have flags (g : Fld) : (s.hw.setServiceEn s.fuses on).flag g = (s.hw.serviced s.fuses on).flag g :=
      Hw.flag_of_regs Hw.regs_setServiceEn g
    exact ⟨Frame.keep Hw.only_setServiceEn, Hw.regsBut_serviced.trans (.of_regs Hw.regs_setServiceEn),
      (flags _).trans Hw.flag_serviced, (flags _).trans Hw.flag_serviced_shown, (flags _).trans Hw.flag_serviced_signed,
      fun _ => Hw.mem_sessions_setServiceEn⟩

/-! ## The attestation report -/

@[simp] theorem length_octets {w : Nat} (k : Nat) (v : BitVec w) : (Config.octets k v).length = k := by simp [Config.octets]

theorem length_selfCert (kind mac issued : Nat) (subject : List Byte) : (selfCert kind mac issued subject).length = 288 := by
  simp [selfCert, certBody, digestBytes, Config.ed448Sign]

theorem length_attEntry {kind slot aux version digest : Nat} : (attEntry kind slot aux version digest).length = 80 := by
  simp [attEntry, digestBytes]

section
variable {h : Hw} {f : Fuses} {nonce : List Byte}

/-- Every entry of a report takes 80 bytes. -/
theorem Hw.length_of_mem_attEntries {e : List Byte} (m : e ∈ h.attEntries f) : e.length = 80 := by
  simp only [Hw.attEntries, List.mem_append, List.mem_cons, List.not_mem_nil, or_false, List.mem_map, Option.mem_toList,
    Option.map_eq_some_iff] at m
  obtain ((((((rfl | rfl | rfl) | ⟨v, -, rfl⟩) | (rfl | rfl)) | ⟨q, -, rfl⟩) | rfl) | ⟨n, -, rfl⟩) | rfl := m
  all_goals exact length_attEntry

theorem Hw.length_attEntries : (h.attEntries f).flatten.length = 80 * (h.attEntries f).length := by
  rw [List.length_flatten, List.map_congr_left fun e m => Hw.length_of_mem_attEntries m]
  simp [Nat.mul_comm]

/-- The first 8 bytes of a report: its magic, its version, the life-cycle state and the number of entries. -/
def Hw.attHead (h : Hw) (f : Fuses) : List Byte :=
  [0x56, 0x41, 0x54, 0x52, 1] ++ (beBytes 1 f.lcState ++ beBytes 2 (h.attEntries f).length)

/-- The 16 bytes before the entries: the transition count, the owner's slot, the flags and the tamper count. -/
def Hw.attMid (h : Hw) (f : Fuses) : List Byte :=
  beBytes 1 f.lcCount ++ (beBytes 1 (f.activeOwner.getD 255) ++ (beBytes 1 (h.imgSigReq.toNat + 2 * h.serviceEn.toNat +
    4 * h.fld Fd.SEP_LC_STATUS.KEY_FAULT + 8 * h.holderPreferred.toNat) ++
    (beBytes 1 (h.fld Fd.SEP_LC_STATUS.TAMPER_CNT) ++ List.replicate 12 0)))

/-- The parts of a report, which ends with a certificate and a signature. -/
theorem Hw.attReport_parts : ∃ rest : List Byte, rest.length = 402 ∧ h.attReport f nonce = h.attHead f ++ (beBytes 8 h.tb ++
    (nonce ++ (digestBytes deviceId ++ (h.attMid f ++ ((h.attEntries f).flatten ++ rest))))) := by
  refine ⟨selfCert 2 0 h.sep.s0Tb (Config.attestationKey h.sep.meas) ++ Config.attestSign h.sep.meas ?msg, ?size, ?parts⟩
  case parts =>
    simp only [Hw.attReport, Hw.attHead, Hw.attMid, List.append_assoc]
    rfl
  case size => simp [length_selfCert, Config.attestSign]

theorem slice_append {α : Type} {p x r : List α} {a b : Nat} (hp : p.length = a) (hx : x.length = b) :
    ((p ++ (x ++ r)).drop a).take b = x := by
  subst hp hx
  simp

theorem Hw.length_attHead : (h.attHead f).length = 8 := by simp [Hw.attHead]

theorem Hw.length_attMid : (h.attMid f).length = 16 := by simp [Hw.attMid]

theorem Hw.attReport_fields (len : nonce.length = 32) {rep : List Byte} (e : h.attReport f nonce = rep) :
    rep.length = 530 + 80 * (h.attEntries f).length ∧ rep.take 5 = [0x56, 0x41, 0x54, 0x52, 1] ∧
      rep.getD 5 0 = BitVec.ofNat 8 f.lcState ∧ beNat ((rep.drop 8).take 8) = h.tb % 2 ^ 64 ∧
      (rep.drop 16).take 32 = nonce ∧ (rep.drop 48).take 64 = digestBytes deviceId ∧
      rep.getD 112 0 = BitVec.ofNat 8 f.lcCount ∧
      (rep.drop 128).take (80 * (h.attEntries f).length) = (h.attEntries f).flatten := by
  obtain ⟨rest, size, parts⟩ := Hw.attReport_parts (h := h) (f := f) (nonce := nonce)
  have grouped : rep = (h.attHead f ++ beBytes 8 h.tb ++ nonce ++ digestBytes deviceId) ++ (h.attMid f ++
      ((h.attEntries f).flatten ++ rest)) := by simp only [← e, parts, List.append_assoc]
  have head := Hw.length_attHead (h := h) (f := f)
  have mid := Hw.length_attMid (h := h) (f := f)
  have device : (digestBytes deviceId).length = 64 := by simp [digestBytes]
  have before : (h.attHead f ++ beBytes 8 h.tb ++ nonce ++ digestBytes deviceId).length = 112 := by simp [head, len, device]
  have rep_eq := e.symm.trans parts
  refine ⟨?_, by rw [rep_eq]; rfl, by rw [rep_eq]; rfl, ?_, ?_, ?_, ?_, ?_⟩
  · simp only [rep_eq, List.length_append, head, mid, device, size, len, beBytes_length, Hw.length_attEntries]
    omega
  · rw [rep_eq, slice_append head (beBytes_length 8 _), beNat_beBytes]
    rfl
  · rw [rep_eq, ← List.append_assoc, slice_append (by simp [head]) len]
  · rw [rep_eq, ← List.append_assoc, ← List.append_assoc, slice_append (by simp [head, len]) device]
  · rw [grouped, List.getD_append_right _ _ _ _ before.le, before]
    rfl
  · rw [grouped, ← List.append_assoc, slice_append (by rw [List.length_append, before, mid]) Hw.length_attEntries]

theorem Hw.attEntries_heard {hd : Hdr} {x : Session} : (h.heard hd x).attEntries f = h.attEntries f := by
  unfold Hw.heard Hw.hostServed
  split <;> rfl

end

theorem attest_clause {hd : Hdr} {s : State} {x : Session} {nonce : List Byte} (a : Admits s hd x) (role : x.role ≠ .none)
    (len : nonce.length = 32) :
    ∃ t rep, exec (.attestReport hd nonce) s = .next t ∧ Frame [.host, .fw, .out] s t ∧ Answered s t hd 0x0800 [0] rep ∧
      rep.length = 530 + 80 * (s.hw.attEntries s.fuses).length ∧ rep.take 5 = [0x56, 0x41, 0x54, 0x52, 1] ∧
      rep.getD 5 0 = BitVec.ofNat 8 s.fuses.lcState ∧ beNat ((rep.drop 8).take 8) = s.hw.tb % 2 ^ 64 ∧
      (rep.drop 16).take 32 = nonce ∧ (rep.drop 48).take 64 = digestBytes deviceId ∧
      rep.getD 112 0 = BitVec.ofNat 8 s.fuses.lcCount ∧
      (rep.drop 128).take (80 * (s.hw.attEntries s.fuses).length) = (s.hw.attEntries s.fuses).flatten := by
  have fields := Hw.attReport_fields (h := s.hw.heard hd x) (f := s.fuses) len rfl
  have tb : (s.hw.heard hd x).tb = s.hw.tb := Hw.only_heard .tb (by decide)
  rw [Hw.attEntries_heard, tb] at fields
  obtain ⟨frame, answer⟩ := hostCmd_reads (sp := { opcode := 0x0800, reads := true, lenOk := nonce.length == 32 })
    (body := fun s h => { hw := h, rep := { status := stOk, payload := h.attReport s.fuses nonce } })
    (r := { status := stOk, payload := (s.hw.heard hd x).attReport s.fuses nonce }) a (contains_allRoles role)
    (by simp [len]) (fun no => by simp at no) rfl
  exact ⟨_, _, commit_served a.1 rfl, frame, answer, fields⟩

/-- Settles O42: tamper events and wipe requests, the operator list, SERVICE_EN, and the attestation report, each from what its
effect changes. -/
theorem wipesKeysAndReports : Obligations.WipesKeysAndReports := by
  unfold Obligations.WipesKeysAndReports
  exact ⟨fun s => ⟨fun _ _ => tamper_clause, fun _ => wipeRequest_clause, fun _ _ _ => keyCommit_clause, fun _ => keyRemove_clause,
    serviceEn_clause s⟩, fun _ _ _ _ => attest_clause⟩

end Sys2Proof.Machine
end

section
/-!
PROOFS. The registers of dies and stacks that events of the fault history and their log entries leave alone, and the state of a
cluster's background test (R107, R390, R434).
-/
namespace Sys2Proof.Machine

/-! ## Registers of dies and stacks -/

/-- The registers of dies, routers and stacks are in `k` what they are in `h`. -/
def Hw.UnitsSame (h k : Hw) : Prop := ∀ a, 0x10000000 ≤ a → k.reg a = h.reg a

section
variable {h k m : Hw}

theorem Hw.UnitsSame.trans (a : h.UnitsSame k) (b : k.UnitsSame m) : h.UnitsSame m := fun q hq => (b q hq).trans (a q hq)

theorem Hw.UnitsSame.fld (a : h.UnitsSame k) {g : Fld} (e : 0x10000000 ≤ g.addr) : k.fld g = h.fld g := Hw.fld_of_reg (a _ e)

theorem Hw.UnitsSame.of_regs (e : k.regs = h.regs) : h.UnitsSame k := fun q _ => Hw.reg_of_regs e q

theorem Hw.UnitsSame.of_regsBut {l : List Nat} (a : h.RegsBut l k) (low : ∀ b ∈ l, b < 0x10000000) : h.UnitsSame k :=
  fun q hq => a q fun m => absurd (low q m) (Nat.not_lt.2 hq)

theorem Hw.UnitsSame.setFld {f : Fld} {v : Nat} (low : f.addr < 0x10000000) : h.UnitsSame (h.setFld f v) :=
  .of_regsBut Hw.regsBut_setFld (by simpa using low)

theorem Hw.UnitsSame.ite {c : Prop} [Decidable c] (a : h.UnitsSame k) (b : h.UnitsSame m) : h.UnitsSame (if c then k else m) := by
  split <;> assumption

theorem Hw.unitsSame_logNote {kind what a b : Nat} : h.UnitsSame (h.logNote kind what a b) :=
  .of_regsBut Hw.regsBut_log (by decide)

theorem Hw.unitsSame_history {u e s d j a : Nat} {c p : Bool} : h.UnitsSame (h.history u e s d j a c p) :=
  .of_regsBut Hw.regsBut_history (by decide)

theorem Hw.unitsSame_resources : h.UnitsSame h.resources := by
  have hub {f : Fld} (e : f.addr < 0x10000000) (h : Hw) (n : Nat) : h.UnitsSame (h.setFld f n) := .setFld e
  have shown : h.UnitsSame (((((h.setFld Fd.PKG_RESOURCES.GOOD_DIES
      ((List.range 8).filter (fun d => h.placeables.any (fun c => c / 8 == d))).length).setFld Fd.PKG_RESOURCES.GOOD_HBM
      h.stacksUp.length).setFld Fd.PKG_RESOURCES.PLACEABLE_CL h.placeables.length).setFlag Fd.PKG_RESOURCES.DEGRADED
      (decide (h.placeables.length < 64 ∨ h.stacksUp.length < 16))).setFld Fd.PKG_RESOURCES.SPARES_FREE
      (h.placeables.filter (fun c => (h.goodCores c).length == 9)).length) :=
    ((((hub (by decide) _ _).trans (hub (by decide) _ _)).trans (hub (by decide) _ _)).trans (hub (by decide) _ _)).trans
      (hub (by decide) _ _)
  unfold Hw.resources
  exact .ite (.ite shown (shown.trans (hub (by decide) _ _))) (.of_regs rfl)

theorem Hw.unitsSame_unitEvent {u e d j a : Nat} : h.UnitsSame (h.unitEvent u e d j a) :=
  (Hw.unitsSame_history.trans (.of_regs rfl)).trans Hw.unitsSame_resources

end

theorem le_cdBase (d : Nat) : 0x10000000 ≤ dieBase d := by unfold dieBase; omega

/-! ## A cluster's test -/

/-- The machine with another state of a cluster's test. -/
def Hw.modTest (h : Hw) (c : Nat) (f : Bgt → Bgt) : Hw := h.modClus c (fun x => { x with bgt := f x.bgt })

section
variable {h : Hw} {c : Nat}

theorem Hw.clusOf_modClus {f : Clus → Clus} : (h.modClus c f).clusOf c = f (h.clusOf c) := Tab.getD_put_same _ _ _ _

theorem Hw.clusOf_of_clus {k : Hw} (e : k.clus = h.clus) : k.clusOf c = h.clusOf c := by rw [Hw.clusOf, Hw.clusOf, e]

theorem Hw.test_modTest {f : Bgt → Bgt} : ((h.modTest c f).clusOf c).bgt = f (h.clusOf c).bgt := by
  rw [Hw.modTest, Hw.clusOf_modClus]

theorem Hw.only_modTest {f : Bgt → Bgt} : h.Only [.clus] (h.modTest c f) := Hw.only_modClus

/-- What a cluster shows of its test is no register of its die. -/
theorem bgtStatus_ne_memtest {d : Nat} : Reg.CL_BGT_STATUS c ≠ Reg.CD_MEMTEST_STATUS d := by
  have := clusBase_mod c
  unfold Reg.CL_BGT_STATUS Reg.CD_MEMTEST_STATUS dieBase
  omega

end

end Sys2Proof.Machine
end

section
/-!
PROOFS. The start and the promotion of a region's test (R107, R108, R111).
-/
namespace Sys2Proof.Machine

section
variable {h : Hw} {c r p : Nat} {plain wrapped : Bool} {save : List Byte}

theorem Hw.nextRegion_lt {q : Nat} (e : h.nextRegion c q = some (r, plain, wrapped)) : r < 17472 := by
  obtain ⟨i, -, found⟩ := List.exists_of_findSome?_eq_some e
  obtain ⟨k, -, eq⟩ := Option.map_eq_some_iff.1 found
  rw [← (Prod.mk.inj eq).1]
  exact Nat.mod_lt _ (by decide)

/-- The test of a cluster with a region locked. -/
def lockedTest (r : Nat) (plain wrapped : Bool) (tb : Nat) (save : List Byte) (b : Bgt) : Bgt :=
  { b with
    locked := true, region := r, next := (r + 1) % testRegions, started := true, promoted := false, plain := plain,
    sweeps := b.sweeps + (wrapped || r + 1 == testRegions).toNat, lockTb := tb, save := save }

/-- The registers that show a region locked. -/
def Hw.showLocked (h : Hw) (c r : Nat) : Hw :=
  let k := (h.setFlag (Fd.CL_BGT_STATUS.ACTIVE c) true).setFld (Fd.CL_BGT_STATUS.REGION c) r
  (k.setFlag (Fd.CL_BGT_STATUS.PROMOTED c) false).setFld (Fd.CD_MEMTEST_STATUS.SWEEPS (c / 8)) (k.dieSweeps (c / 8))

theorem Hw.only_showLocked : h.Only [.regs] (h.showLocked c r) :=
  ((Hw.only_setFlag.trans Hw.only_setFld).trans Hw.only_setFlag).trans Hw.only_setFld

theorem Hw.shown_showLocked (low : r < 17472) : (h.showLocked c r).flag (Fd.CL_BGT_STATUS.ACTIVE c) = true ∧
    (h.showLocked c r).fld (Fd.CL_BGT_STATUS.REGION c) = r ∧ (h.showLocked c r).flag (Fd.CL_BGT_STATUS.PROMOTED c) = false := by
  have sweeps {k : Hw} {n : Nat} {g : Fld} (e : g.addr = Reg.CL_BGT_STATUS c) :
      (k.setFld (Fd.CD_MEMTEST_STATUS.SWEEPS (c / 8)) n).fld g = k.fld g :=
    Hw.fld_setFld_other _ _ _ _ (show 16 + 16 ≤ 32 by decide) (.inl (e ▸ bgtStatus_ne_memtest))
  unfold Hw.showLocked
  dsimp only
  refine ⟨?_, ?_, ?_⟩
  · rw [Hw.flag, sweeps rfl, ← Hw.flag, Hw.flag_setFlag_other _ _ _ _ (show 30 + 1 ≤ 32 by decide)
      (.inr (.inr (show 30 + 1 ≤ 31 by decide))), Hw.flag_setFld_other _ _ _ _ (show 0 + 15 ≤ 32 by decide)
      (.inr (.inr (show 0 + 15 ≤ 31 by decide))),
      Hw.flag_setFlag_same _ _ _ rfl (show 31 < 32 by decide)]
  · rw [sweeps rfl, Hw.fld_setFlag_other _ _ _ _ (show 30 + 1 ≤ 32 by decide) (.inr (.inl (show 0 + 15 ≤ 30 by decide))),
      Hw.fld_setFld_same _ _ _ (show 0 + 15 ≤ 32 by decide)]
    exact Nat.mod_eq_of_lt (low.trans (show 17472 < 2 ^ 15 by decide))
  · rw [Hw.flag, sweeps rfl, ← Hw.flag, Hw.flag_setFlag_same _ _ _ rfl (show 30 < 32 by decide)]

end

section
variable {c : Fin 64} {sn : Seen} {s : State} {m : Mem} {h : Hw}

theorem testDue_eq_false (idle : h.flag (Fd.CD_MEMTEST_CTRL.EN (c.val / 8)) = false ∨ c.val / 8 ∉ h.plu.diesUp ∨
    (h.clusOf c).bgt.locked = true ∨ ((h.clusOf c).bgt.started = true ∧ h.tb < (h.clusOf c).bgt.lockTb + h.testPeriod c)) :
    testDue c h = false := by
  unfold testDue
  obtain en | die | locked | ⟨started, early⟩ := idle
  · simp [en]
  · simp [die]
  · simp [locked]
  · simp [started, Nat.not_le.2 early]

theorem testDue_eq_true (en : h.flag (Fd.CD_MEMTEST_CTRL.EN (c.val / 8)) = true) (die : c.val / 8 ∈ h.plu.diesUp)
    (free : (h.clusOf c).bgt.locked = false)
    (due : (h.clusOf c).bgt.started = true → (h.clusOf c).bgt.lockTb + h.testPeriod c ≤ h.tb) : testDue c h = true := by
  unfold testDue
  cases st : (h.clusOf c).bgt.started with
  | false => simp [en, die, free, st]
  | true => simp [en, die, free, st, due st]

theorem testStartHw_idle (idle : testDue c h = false) : testStartHw c sn m h = h := by
  unfold testStartHw
  rw [idle]
  rfl

theorem testStartHw_none (none : h.nextRegion c.val (h.clusOf c.val).bgt.next = none) : testStartHw c sn m h = h := by
  unfold testStartHw
  dsimp only
  rw [none]
  exact ite_self _

theorem testStartHw_due {r : Nat} {plain wrapped : Bool} (due : testDue c h = true)
    (next : h.nextRegion c.val (h.clusOf c.val).bgt.next = some (r, plain, wrapped)) :
    testStartHw c sn m h = ((h.seen sn).modTest c.val (lockedTest r plain wrapped (h.seen sn).tb
      (if plain then [] else m.reads (regionAddr c.val r) 4096))).showLocked c.val r := by
  unfold testStartHw
  dsimp only
  rw [due, next]
  rfl

theorem only_testStartHw : h.Only [.regs, .clus, .hbm, .host, .logs, .hist, .out] (testStartHw c sn m h) := by
  cases due : testDue c h with
  | false => rw [testStartHw_idle due]; exact .refl _ _
  | true =>
    cases next : h.nextRegion c.val (h.clusOf c.val).bgt.next with
    | none => rw [testStartHw_none next]; exact .refl _ _
    | some q =>
      obtain ⟨r, plain, wrapped⟩ := q
      rw [testStartHw_due due next]
      exact ((Hw.noted_seen h sn).only.mono (by decide)).trans ((Hw.only_modTest.mono (by decide)).trans
        (Hw.only_showLocked.mono (by decide)))

theorem exec_regionTestStart {b : Bgt} (hb : b = (s.hw.clusOf c).bgt) :
    ∃ t, exec (.regionTestStart c sn) s = .next t ∧ t.pending = s.pending ∧ t.fuses = s.fuses ∧ Mem.But [] s.mem t.mem ∧
      s.hw.Only [.regs, .clus, .hbm, .host, .logs, .hist, .out] t.hw ∧
      (s.hw.flag (Fd.CD_MEMTEST_CTRL.EN (c / 8)) = false ∨ c.val / 8 ∉ s.hw.plu.diesUp ∨ b.locked = true ∨
        (b.started = true ∧ s.hw.tb < b.lockTb + s.hw.testPeriod c) → t = s) ∧
      ∀ r plain wrapped, s.hw.flag (Fd.CD_MEMTEST_CTRL.EN (c / 8)) = true → c.val / 8 ∈ s.hw.plu.diesUp → b.locked = false →
          (b.started = true → b.lockTb + s.hw.testPeriod c ≤ s.hw.tb) → s.hw.nextRegion c b.next = some (r, plain, wrapped) →
        r < 17472 ∧ (t.hw.clusOf c).bgt.locked = true ∧ (t.hw.clusOf c).bgt.region = r ∧ (t.hw.clusOf c).bgt.lockTb = s.hw.tb ∧
        (t.hw.clusOf c).bgt.next = (r + 1) % 17472 ∧
        (plain = false → (t.hw.clusOf c).bgt.save = s.mem.reads (regionAddr c r) 4096) ∧
        t.hw.flag (Fd.CL_BGT_STATUS.ACTIVE c) = true ∧ t.hw.fld (Fd.CL_BGT_STATUS.REGION c) = r ∧
        t.hw.flag (Fd.CL_BGT_STATUS.PROMOTED c) = false := by
  subst hb
  have hw : (s.commit (testStartEff c sn s)).hw = testStartHw c sn s.mem s.hw := rfl
  refine ⟨s.commit (testStartEff c sn s), rfl, rfl, rfl, ?_, hw ▸ only_testStartHw, fun idle => ?_,
    fun r plain wrapped en die free due next => ?_⟩
  · rw [State.commit_mem, testStartEff]
    dsimp only
    split
    · exact Mem.but_seenEdits _ _
    · exact fun _ _ => rfl
  · have idle := testDue_eq_false idle
    rw [testStartEff, testStartHw_idle idle, idle]
    rfl
  · have low := Hw.nextRegion_lt next
    have eq := testStartHw_due (sn := sn) (m := s.mem) (testDue_eq_true en die free due) next
    have test : ((testStartHw c sn s.mem s.hw).clusOf c).bgt = lockedTest r plain wrapped s.hw.tb
        (if plain then [] else s.mem.reads (regionAddr c.val r) 4096) ((s.hw.seen sn).clusOf c).bgt := by
      rw [eq, Hw.clusOf_of_clus (Hw.only_showLocked .clus (by decide)), Hw.test_modTest, (Hw.noted_seen s.hw sn).tb]
    have shown := Hw.shown_showLocked (h := (s.hw.seen sn).modTest c.val (lockedTest r plain wrapped (s.hw.seen sn).tb
      (if plain then [] else s.mem.reads (regionAddr c.val r) 4096))) (c := c.val) low
    rw [← eq] at shown
    rw [hw, test]
    refine ⟨low, rfl, rfl, rfl, rfl, fun kept => ?_, shown⟩
    show (if plain = true then [] else s.mem.reads (regionAddr c.val r) 4096) = _
    rw [kept, if_neg Bool.false_ne_true]

theorem exec_regionTestPromote {b : Bgt} (hb : b = (s.hw.clusOf c).bgt) :
    ∃ t, exec (.regionTestPromote c) s = .next t ∧ Frame [.regs, .clus] s t ∧
      (b.locked = false ∨ b.promoted = true ∨ s.hw.tb < b.lockTb + 10000 → t = s) ∧
      (b.locked = true → b.promoted = false → b.lockTb + 10000 ≤ s.hw.tb → t.hw.flag (Fd.CL_BGT_STATUS.PROMOTED c) = true ∧
        s.hw.RegsBut [Reg.CL_BGT_STATUS c] t.hw ∧ (t.hw.clusOf c).bgt = { b with promoted := true }) := by
  subst hb
  refine ⟨{ s with hw := testPromoteHw c s.hw }, rfl, ?_⟩
  by_cases due : (s.hw.clusOf c).bgt.locked = true ∧ (s.hw.clusOf c).bgt.promoted = false ∧
    (s.hw.clusOf c).bgt.lockTb + 10000 ≤ s.hw.tb
  · have eq : testPromoteHw c s.hw = (s.hw.modTest c.val (fun b => { b with promoted := true })).setFlag
        (Fd.CL_BGT_STATUS.PROMOTED c.val) true := by
      rw [testPromoteHw, if_pos due]
      rfl
    rw [eq]
    refine ⟨Frame.keep ((Hw.only_modTest.mono (by decide)).trans (Hw.only_setFlag.mono (by decide))), fun idle => ?_,
      fun _ _ _ => ⟨Hw.flag_setFlag_same _ _ _ rfl (show 30 < 32 by decide), ?_, ?_⟩⟩
    · obtain ⟨locked, fresh, late⟩ := due
      obtain free | done | early := idle
      · simp [locked] at free
      · simp [fresh] at done
      · omega
    · exact (Hw.RegsBut.of_regs rfl).trans (Hw.regsBut_setFlag (f := Fd.CL_BGT_STATUS.PROMOTED c.val))
    · rw [Hw.clusOf_of_clus (Hw.only_setFlag .clus (by decide)), Hw.test_modTest]
  · rw [testPromoteHw, if_neg due]
    exact ⟨Frame.keep (.refl _ _), fun _ => rfl, fun locked fresh late => absurd ⟨locked, fresh, late⟩ due⟩

end

end Sys2Proof.Machine
end

section
/-!
PROOFS. The unlock of a region under test (R108–R111): what counting, a march failure and the states of banks that waited leave alone.
-/
namespace Sys2Proof.Machine

/-! ## Counters -/

/-- The registers that hold the counts of a bank. -/
def ctrRegs (b size : Nat) : List Nat := (List.range (size + 1)).flatMap (fun n => [b + 0x10 * n + 4, b + 0x10 * n + 8])

theorem mem_ctrRegs {b size a : Nat} : a ∈ ctrRegs b size ↔ ∃ n ≤ size, a = b + 0x10 * n + 4 ∨ a = b + 0x10 * n + 8 := by
  simp [ctrRegs]

section
variable {h : Hw} {b size n v : Nat}

theorem Hw.regsBut_setCtr (le : n ≤ size) : h.RegsBut (ctrRegs b size) (h.setCtr b n v) :=
  ((Hw.regsBut_setFld (f := Fd.CTR_VAL_LO.VAL_LO b n)).mono fun _ m => mem_ctrRegs.2 ⟨n, le, .inl (List.mem_singleton.1 m)⟩).trans
    ((Hw.regsBut_setFld (f := Fd.CTR_VAL_HI.VAL_HI b n)).mono fun _ m => mem_ctrRegs.2 ⟨n, le, .inr (List.mem_singleton.1 m)⟩)

theorem Hw.regsBut_bump {k : Nat} (lt : n < size) : h.RegsBut (ctrRegs b size) (h.bump b n k) := by
  unfold Hw.bump
  dsimp only
  split
  · exact (Hw.regsBut_setCtr lt.le).trans (Hw.regsBut_setCtr lt)
  · exact Hw.regsBut_setCtr lt.le

/-- Events change nothing but the counts of their bank. -/
theorem Hw.regsBut_count {f : Bool} {e : Ev} {k : Nat} : h.RegsBut (ctrRegs b size) (h.count b size f e k) :=
  Hw.RegsBut.foldl _ _ _ fun k n m => by
    split
    · exact Hw.regsBut_bump (List.mem_range.1 m)
    · exact .refl _ _

end

/-- A register at an offset below 0x2000 in its 64 KiB holds no count of a cluster. -/
theorem not_mem_ctrRegs_clus {c a : Nat} (low : a % 0x10000 < 0x2000) : a ∉ ctrRegs (bankClus c) 32 := by
  intro m
  obtain ⟨n, le, e⟩ := mem_ctrRegs.1 m
  have := clusBase_mod c
  unfold bankClus at e
  omega

theorem bgtStatus_mod (c : Nat) : Reg.CL_BGT_STATUS c % 0x10000 = 0x110 := by
  have := clusBase_mod c
  unfold Reg.CL_BGT_STATUS
  omega

theorem memtestStatus_mod (d : Nat) : Reg.CD_MEMTEST_STATUS d % 0x10000 = 0x204 := by
  unfold Reg.CD_MEMTEST_STATUS dieBase
  omega

/-! ## The unlock -/

/-- The test of a cluster with its region unlocked. -/
def unlockedTest (b : Bgt) : Bgt := { b with locked := false, promoted := false, save := [], pend := [] }

/-- The machine with a region unlocked and counted. -/
def Hw.unlocked (h : Hw) (c : Nat) : Hw :=
  (((h.modTest c unlockedTest).setFlag (Fd.CL_BGT_STATUS.ACTIVE c) false).setFlag (Fd.CL_BGT_STATUS.PROMOTED c) false).countClus c
    { code := 0x28 } 1

section
variable {h : Hw} {c : Nat}

theorem Hw.only_unlocked : h.Only [.regs, .clus] (h.unlocked c) :=
  (Hw.only_modTest.mono (by decide)).trans (((Hw.only_setFlag.trans Hw.only_setFlag).trans Hw.only_count).mono (by decide))

theorem Hw.test_unlocked : ((h.unlocked c).clusOf c).bgt = unlockedTest (h.clusOf c).bgt := by
  have kept : (h.modTest c unlockedTest).Only [.regs] (h.unlocked c) := (Hw.only_setFlag.trans Hw.only_setFlag).trans Hw.only_count
  rw [Hw.clusOf_of_clus (kept .clus (by decide)), Hw.test_modTest]

theorem Hw.active_unlocked : (h.unlocked c).flag (Fd.CL_BGT_STATUS.ACTIVE c) = false := by
  have out : Reg.CL_BGT_STATUS c ∉ ctrRegs (bankClus c) 32 := not_mem_ctrRegs_clus (by rw [bgtStatus_mod]; decide)
  rw [Hw.unlocked, Hw.countClus, Hw.regsBut_count.flag (g := Fd.CL_BGT_STATUS.ACTIVE c) out,
    Hw.flag_setFlag_other _ _ _ _ (show 30 + 1 ≤ 32 by decide) (.inr (.inr (show 30 + 1 ≤ 31 by decide))),
    Hw.flag_setFlag_same _ _ _ rfl (show 31 < 32 by decide)]

theorem Hw.failures_unlocked {d : Nat} :
    (h.unlocked c).fld (Fd.CD_MEMTEST_STATUS.FAIL_CNT d) = h.fld (Fd.CD_MEMTEST_STATUS.FAIL_CNT d) := by
  have out : Reg.CD_MEMTEST_STATUS d ∉ ctrRegs (bankClus c) 32 := not_mem_ctrRegs_clus (by rw [memtestStatus_mod]; decide)
  rw [Hw.unlocked, Hw.countClus, Hw.regsBut_count.fld (g := Fd.CD_MEMTEST_STATUS.FAIL_CNT d) out,
    Hw.fld_setFlag_other _ _ _ _ (show 30 + 1 ≤ 32 by decide) (.inl bgtStatus_ne_memtest.symm),
    Hw.fld_setFlag_other _ _ _ _ (show 31 + 1 ≤ 32 by decide) (.inl bgtStatus_ne_memtest.symm), Hw.only_modTest.fld (by decide)]

/-! ## A march failure -/

theorem Hw.only_unitEvent {u e d j a : Nat} : h.Only [.regs, .host, .logs, .hist, .out] (h.unitEvent u e d j a) :=
  (Hw.only_history.mono (by decide)).trans ((Hw.only_histField.mono (by decide)).trans (Hw.only_resources.mono (by decide)))

theorem Hw.only_testFailed {r : Nat} : h.Only [.regs, .host, .logs, .hist, .out] (h.testFailed c r) :=
  Hw.only_unitEvent.trans ((Hw.only_satFld.mono (by decide)).trans (Hw.only_logNote.mono (by decide)))

theorem Hw.failures_testFailed {r : Nat} : (h.testFailed c r).fld (Fd.CD_MEMTEST_STATUS.FAIL_CNT (c / 8)) =
    min (h.fld (Fd.CD_MEMTEST_STATUS.FAIL_CNT (c / 8)) + 1) 0xFFFF := by
  have high : 0x10000000 ≤ (Fd.CD_MEMTEST_STATUS.FAIL_CNT (c / 8)).addr := (le_cdBase _).trans (Nat.le_add_right _ _)
  unfold Hw.testFailed
  dsimp only
  rw [Hw.unitsSame_logNote.fld high, Hw.fld_satFld_same _ _ _ (show 0 + 16 ≤ 32 by decide), Hw.unitsSame_unitEvent.fld high]
  rfl

theorem Hw.active_testFailed {r : Nat} :
    (h.testFailed c r).flag (Fd.CL_BGT_STATUS.ACTIVE c) = h.flag (Fd.CL_BGT_STATUS.ACTIVE c) := by
  have high : 0x10000000 ≤ (Fd.CL_BGT_STATUS.ACTIVE c).addr := (le_clusBase _).trans (Nat.le_add_right _ _)
  unfold Hw.testFailed Hw.flag
  dsimp only
  rw [Hw.unitsSame_logNote.fld high, Hw.satFld, Hw.fld_setFld_other _ _ _ _ (show 0 + 16 ≤ 32 by decide) (.inl bgtStatus_ne_memtest),
    Hw.unitsSame_unitEvent.fld high]

end

/-! ## The states of banks that waited -/

/-- A register that shows the states of banks. -/
def BankReg (a : Nat) : Prop := a % 0x10000 = 0x100 ∨ a % 0x10000 = 0x104

theorem bankReg_bankFld (a : Nat) : BankReg (bankFld a).addr := by
  have spad : a % 2 ^ 22 / 2 ^ 17 / 16 < 2 := by omega
  have cmem : a % 2 ^ 25 / 2 ^ 20 / 16 < 2 := by omega
  unfold bankFld
  split
  · have := coreBase_mod (a / 2 ^ 22)
    show (coreBase _ + 0x100 + 4 * _) % 0x10000 = 0x100 ∨ (coreBase _ + 0x100 + 4 * _) % 0x10000 = 0x104
    omega
  · have := clusBase_mod ((a - 2 ^ 32) / 2 ^ 25)
    show (clusBase _ + 0x100 + 4 * _) % 0x10000 = 0x100 ∨ (clusBase _ + 0x100 + 4 * _) % 0x10000 = 0x104
    omega

/-- `k` is `h` after states of banks: no other register has changed, and no region is locked or unlocked. -/
structure Hw.Banked (h k : Hw) : Prop where
  only : h.Only [.regs, .clus] k
  regs : ∀ a, ¬ BankReg a → k.reg a = h.reg a
  locks : ∀ c, (k.clusOf c).bgt.locked = (h.clusOf c).bgt.locked

section
variable {h k m : Hw} {a code : Nat}

theorem Hw.Banked.refl (h : Hw) : h.Banked h := ⟨.refl _ _, fun _ _ => rfl, fun _ => rfl⟩

theorem Hw.Banked.trans (x : h.Banked k) (y : k.Banked m) : h.Banked m :=
  ⟨x.only.trans y.only, fun a n => (y.regs a n).trans (x.regs a n), fun c => (y.locks c).trans (x.locks c)⟩

theorem Hw.Banked.fld (x : h.Banked k) {g : Fld} (e : ¬ BankReg g.addr) : k.fld g = h.fld g := Hw.fld_of_reg (x.regs _ e)

theorem Hw.banked_setBank : h.Banked (h.setBank a code) := by
  rw [Hw.setBank_eq]
  exact ⟨Hw.only_setFld.mono (by decide), fun q n => Hw.reg_setFld_other _ _ _ fun e => n (e ▸ bankReg_bankFld a), fun _ => rfl⟩

/-- A bank under test keeps its new state for the unlock. -/
theorem Hw.banked_pend {c : Nat} {f : Bgt → Tab Nat} : h.Banked (h.modTest c fun b => { b with pend := f b }) := by
  refine ⟨Hw.only_modTest.mono (by decide), fun _ _ => rfl, fun q => ?_⟩
  obtain rfl | ne := eq_or_ne q c
  · rw [Hw.test_modTest]
  · rw [show (h.modTest c fun b => { b with pend := f b }).clusOf q = h.clusOf q from Tab.getD_put_other _ _ _ ne]

theorem Hw.banked_bankTo : h.Banked (h.bankTo a code).1 := by
  unfold Hw.bankTo
  dsimp only
  split
  · exact Hw.banked_pend (f := fun b => b.pend.put a code)
  · split
    · exact Hw.banked_setBank
    · split
      · exact Hw.banked_setBank
      · split
        · exact .refl _
        · exact Hw.banked_setBank

theorem Hw.banked_applyPend {pend : Tab Nat} : h.Banked (h.applyPend pend).1 := by
  unfold Hw.applyPend
  induction pend using List.reverseRecOn with
  | nil => exact .refl _
  | append_singleton l q ih =>
    rw [List.foldl_append, List.foldl_cons, List.foldl_nil]
    refine ih.trans (Hw.banked_bankTo.trans (k := (Hw.bankTo _ q.1 q.2).1) ?_)
    dsimp only
    split
    · exact Hw.banked_setBank
    · exact .refl _

theorem Hw.only_domsAdvance : h.Only [.doms] h.domsAdvance := fun p hp => by
  cases p
  case doms => simp at hp
  all_goals rfl

end

theorem not_bankReg_bgtStatus (c : Nat) : ¬ BankReg (Reg.CL_BGT_STATUS c) := by
  rw [BankReg, bgtStatus_mod]
  decide

theorem not_bankReg_memtestStatus (d : Nat) : ¬ BankReg (Reg.CD_MEMTEST_STATUS d) := by
  rw [BankReg, memtestStatus_mod]
  decide

section
variable {c : Fin 64} {s : State} {fails : Bool}

theorem testUnlockEff_free (free : (s.hw.clusOf c).bgt.locked = false) : testUnlockEff c fails s = { hw := s.hw } := by
  unfold testUnlockEff
  dsimp only
  rw [free]
  rfl

/-- The machine with a region unlocked, and its failure recorded where the march found one. -/
def Hw.tested (h : Hw) (c : Nat) (fails : Bool) (r : Nat) : Hw := if fails then (h.unlocked c).testFailed c r else h.unlocked c

theorem testUnlockEff_locked (locked : (s.hw.clusOf c).bgt.locked = true) : testUnlockEff c fails s =
    { hw := ((s.hw.tested c fails (s.hw.clusOf c).bgt.region).applyPend (s.hw.clusOf c).bgt.pend).1.domsAdvance,
      edits := ((s.hw.tested c fails (s.hw.clusOf c).bgt.region).applyPend (s.hw.clusOf c).bgt.pend).2 } := by
  unfold testUnlockEff
  dsimp only
  rw [if_pos locked]
  rfl

theorem Hw.only_tested {h : Hw} {c r : Nat} : h.Only [.regs, .clus, .host, .logs, .hist, .out] (h.tested c fails r) := by
  have unlocked : h.Only [.regs, .clus, .host, .logs, .hist, .out] (h.unlocked c) := Hw.only_unlocked.mono (by decide)
  unfold Hw.tested
  exact .ite (unlocked.trans (Hw.only_testFailed.mono (by decide))) unlocked

theorem Hw.test_tested {h : Hw} {c r : Nat} : ((h.tested c fails r).clusOf c).bgt.locked = false := by
  have unlocked : ((h.unlocked c).clusOf c).bgt.locked = false := by rw [Hw.test_unlocked]; rfl
  unfold Hw.tested
  split
  · rw [Hw.clusOf_of_clus (Hw.only_testFailed .clus (by decide)), unlocked]
  · exact unlocked

theorem Hw.active_tested {h : Hw} {c r : Nat} : (h.tested c fails r).flag (Fd.CL_BGT_STATUS.ACTIVE c) = false := by
  unfold Hw.tested
  split
  · rw [Hw.active_testFailed, Hw.active_unlocked]
  · exact Hw.active_unlocked

theorem exec_regionTestUnlock {b : Bgt} (hb : b = (s.hw.clusOf c).bgt) :
    ∃ t, exec (.regionTestUnlock c fails) s = .next t ∧ t.pending = s.pending ∧ t.fuses = s.fuses ∧
      s.hw.Only [.regs, .clus, .doms, .host, .logs, .hist, .out] t.hw ∧
      (b.locked = false → t = s) ∧
      (b.locked = true → (t.hw.clusOf c).bgt.locked = false ∧ t.hw.flag (Fd.CL_BGT_STATUS.ACTIVE c) = false ∧
        (b.pend = [] → t.mem = s.mem) ∧
        (fails = true → t.hw.fld (Fd.CD_MEMTEST_STATUS.FAIL_CNT (c / 8)) =
          min (s.hw.fld (Fd.CD_MEMTEST_STATUS.FAIL_CNT (c / 8)) + 1) 0xFFFF) ∧
        (fails = false → t.hw.fld (Fd.CD_MEMTEST_STATUS.FAIL_CNT (c / 8)) = s.hw.fld (Fd.CD_MEMTEST_STATUS.FAIL_CNT (c / 8)) ∧
          t.hw.hist = s.hw.hist)) := by
  subst hb
  refine ⟨s.commit (testUnlockEff c fails s), rfl, rfl, ?_⟩
  cases lock : (s.hw.clusOf c).bgt.locked with
  | false =>
    rw [testUnlockEff_free lock]
    exact ⟨rfl, .refl _ _, fun _ => rfl, fun no => absurd no (by decide)⟩
  | true =>
    rw [testUnlockEff_locked lock]
    generalize (s.hw.clusOf c).bgt.region = r
    generalize (s.hw.clusOf c).bgt.pend = pend
    have tested := Hw.only_tested (h := s.hw) (c := c) (fails := fails) (r := r)
    have banked := Hw.banked_applyPend (h := s.hw.tested c fails r) (pend := pend)
    have only : s.hw.Only [.regs, .clus, .doms, .host, .logs, .hist, .out] ((s.hw.tested c fails r).applyPend pend).1.domsAdvance :=
      (tested.mono (by decide)).trans ((banked.only.mono (by decide)).trans (Hw.only_domsAdvance.mono (by decide)))
    have shown {g : Fld} (e : ¬ BankReg g.addr) :
        ((s.hw.tested c fails r).applyPend pend).1.domsAdvance.fld g = (s.hw.tested c fails r).fld g :=
      (Hw.only_domsAdvance.fld (by decide) g).trans (banked.fld e)
    refine ⟨rfl, only, fun no => absurd no (by decide), fun _ => ⟨?_, ?_, fun none => by subst none; rfl, fun fail => ?_,
      fun pass => ⟨?_, ?_⟩⟩⟩
    · rw [State.commit_hw, Hw.clusOf_of_clus (Hw.only_domsAdvance .clus (by decide)), banked.locks, Hw.test_tested]
    · rw [State.commit_hw, Hw.flag, shown (not_bankReg_bgtStatus c), ← Hw.flag, Hw.active_tested]
    · rw [State.commit_hw, shown (g := Fd.CD_MEMTEST_STATUS.FAIL_CNT (c / 8)) (not_bankReg_memtestStatus _), Hw.tested, if_pos fail,
        Hw.failures_testFailed, Hw.failures_unlocked]
    · rw [State.commit_hw, shown (g := Fd.CD_MEMTEST_STATUS.FAIL_CNT (c / 8)) (not_bankReg_memtestStatus _), Hw.tested,
        if_neg (by rw [pass]; decide), Hw.failures_unlocked]
    · rw [State.commit_hw, Hw.only_domsAdvance .hist (by decide), banked.only .hist (by decide), Hw.tested,
        if_neg (by rw [pass]; decide), Hw.only_unlocked .hist (by decide)]

end

end Sys2Proof.Machine
end

section
/-!
PROOFS. What the record of an error in a stack changes (R119, R121, R124): the stack's counts, its retired pages and the registers that
show them.
-/
namespace Sys2Proof.Machine

/-! ## Registers of a stack -/

/-- The registers that the record of an error in a stack can change. -/
def errorRegs (s : Nat) : List Nat :=
  [Reg.HBM_ECC s, Reg.HBM_UE_ADDR_LO s, Reg.HBM_UE_ADDR_HI s, Reg.HBM_STATUS s, Reg.PKG_FH_STATUS, Reg.CTR_LOG_STATUS]

/-- The control of the patrol scrub is none of them. -/
theorem scrubCtrl_not_mem (s : Nat) : Reg.HBM_SCRUB_CTRL s ∉ errorRegs s := by
  have := le_hbmBase s
  simp only [errorRegs, Reg.HBM_SCRUB_CTRL, Reg.HBM_ECC, Reg.HBM_UE_ADDR_LO, Reg.HBM_UE_ADDR_HI, Reg.HBM_STATUS, Reg.PKG_FH_STATUS,
    Reg.CTR_LOG_STATUS, List.mem_cons, List.not_mem_nil, or_false]
  omega

section
variable {h : Hw} {s pfn pma detail job : Nat}

theorem Hw.hbmOf_of_hbm {k : Hw} (e : k.hbm = h.hbm) : k.hbmOf s = h.hbmOf s := by rw [Hw.hbmOf, Hw.hbmOf, e]

theorem Hw.hbmOf_upd {f : HbmSt → HbmSt} : ({ h with hbm := h.hbm.upd s {} f } : Hw).hbmOf s = f (h.hbmOf s) :=
  Tab.getD_put_same _ _ _ _

/-- A history entry changes no register of a stack. -/
theorem Hw.fld_history_hbm {u e st d j a : Nat} {c m : Bool} {g : Fld} (high : 0x30000000 ≤ g.addr) :
    (h.history u e st d j a c m).fld g = h.fld g :=
  Hw.unitsSame_history.fld ((by decide : 0x10000000 ≤ 0x30000000).trans high)

/-! ## A page that is retired -/

theorem Hw.hbmOf_retirePage : (h.retirePage s pfn pma).hbmOf s =
    { h.hbmOf s with retired := insNat (h.hbmOf s).retired pfn } := by
  unfold Hw.retirePage
  dsimp only
  rw [Hw.hbmOf_of_hbm (Hw.only_history .hbm (by decide)), Hw.hbmOf_of_hbm (Hw.only_setFld .hbm (by decide)), Hw.hbmOf_upd]

theorem Hw.regsBut_retirePage : h.RegsBut (errorRegs s) (h.retirePage s pfn pma) := by
  have listed : h.RegsBut (errorRegs s) { h with hbm := h.hbm.upd s {} fun x => { x with retired := insNat x.retired pfn } } :=
    fun a _ => Hw.only_hbmField.reg (by decide) a
  unfold Hw.retirePage
  dsimp only
  exact (listed.trans ((Hw.regsBut_setFld (f := Fd.HBM_STATUS.PAGES_RETIRED s)).mono
    (by simp [errorRegs, Fd.HBM_STATUS.PAGES_RETIRED]))).trans (Hw.regsBut_history.mono (by simp [errorRegs]))

/-- The counts of errors are not in the register that shows the retired pages. -/
theorem Hw.fld_retirePage {g : Fld} (e : g.addr = Reg.HBM_ECC s) : (h.retirePage s pfn pma).fld g = h.fld g := by
  have high : 0x30000000 ≤ g.addr := by rw [e]; exact (le_hbmBase s).trans (Nat.le_add_right _ _)
  unfold Hw.retirePage
  dsimp only
  rw [Hw.fld_history_hbm high, Hw.fld_setFld_other _ _ _ _ (show 8 + 16 ≤ 32 by decide) (.inl ?_), Hw.only_hbmField.fld (by decide)]
  rw [e]
  show hbmBase s + 0x4 ≠ hbmBase s + 0x0
  omega

/-! ## An uncorrectable sector -/

/-- The address of the first uncorrectable sector is kept. -/
def Hw.keepUe (h : Hw) (s pma : Nat) : Hw :=
  if h.flag (Fd.HBM_UE_ADDR_HI.VALID s) then h
  else ((h.setFld (Fd.HBM_UE_ADDR_LO.PMA_LO s) (pma / 32)).setFld (Fd.HBM_UE_ADDR_HI.PMA_HI s) (pma / 2 ^ 32)).setFlag
    (Fd.HBM_UE_ADDR_HI.VALID s) true

theorem Hw.recordUe_eq : h.recordUe pma detail job = ((h.satFld (Fd.HBM_ECC.UE_CNT (bitsAt pma 37 4)) 1).keepUe (bitsAt pma 37 4)
    pma).history (punitHbm pma) 9 0 detail job pma true false := rfl

theorem Hw.only_keepUe : h.Only [.regs] (h.keepUe s pma) :=
  .ite (.refl _ _) ((Hw.only_setFld.trans Hw.only_setFld).trans Hw.only_setFlag)

theorem Hw.regsBut_keepUe : h.RegsBut [Reg.HBM_UE_ADDR_LO s, Reg.HBM_UE_ADDR_HI s] (h.keepUe s pma) := by
  unfold Hw.keepUe
  split
  · exact .refl _ _
  · exact ((Hw.regsBut_setFld (f := Fd.HBM_UE_ADDR_LO.PMA_LO s)).mono (by simp [Fd.HBM_UE_ADDR_LO.PMA_LO])).trans
      (((Hw.regsBut_setFld (f := Fd.HBM_UE_ADDR_HI.PMA_HI s)).mono (by simp [Fd.HBM_UE_ADDR_HI.PMA_HI])).trans
        ((Hw.regsBut_setFlag (f := Fd.HBM_UE_ADDR_HI.VALID s)).mono (by simp [Fd.HBM_UE_ADDR_HI.VALID])))

theorem Hw.regsBut_recordUe : h.RegsBut (errorRegs (bitsAt pma 37 4)) (h.recordUe pma detail job) := by
  rw [Hw.recordUe_eq]
  exact ((Hw.regsBut_satFld (f := Fd.HBM_ECC.UE_CNT _)).mono (by simp [errorRegs, Fd.HBM_ECC.UE_CNT])).trans
    ((Hw.regsBut_keepUe.mono (by simp [errorRegs])).trans (Hw.regsBut_history.mono (by simp [errorRegs])))

theorem Hw.count_recordUe : (h.recordUe pma detail job).fld (Fd.HBM_ECC.UE_CNT (bitsAt pma 37 4)) =
    min (h.fld (Fd.HBM_ECC.UE_CNT (bitsAt pma 37 4)) + 1) 0xFF := by
  have high : 0x30000000 ≤ (Fd.HBM_ECC.UE_CNT (bitsAt pma 37 4)).addr := (le_hbmBase _).trans (Nat.le_add_right _ _)
  have apart : (Fd.HBM_ECC.UE_CNT (bitsAt pma 37 4)).addr ∉
      [Reg.HBM_UE_ADDR_LO (bitsAt pma 37 4), Reg.HBM_UE_ADDR_HI (bitsAt pma 37 4)] := by
    simp [Fd.HBM_ECC.UE_CNT, Reg.HBM_ECC, Reg.HBM_UE_ADDR_LO, Reg.HBM_UE_ADDR_HI]
  rw [Hw.recordUe_eq, Hw.fld_history_hbm high, Hw.regsBut_keepUe.fld apart, Hw.fld_satFld_same _ _ _ (show 24 + 8 ≤ 32 by decide)]
  rfl

theorem Hw.count_hbmUe : (h.hbmUe pma detail job).fld (Fd.HBM_ECC.UE_CNT (bitsAt pma 37 4)) =
    min (h.fld (Fd.HBM_ECC.UE_CNT (bitsAt pma 37 4)) + 1) 0xFF := by
  rw [Hw.hbmUe_eq]
  split
  · exact Hw.count_recordUe
  · rw [Hw.fld_retirePage rfl, Hw.count_recordUe]

theorem Hw.regsBut_hbmUe : h.RegsBut (errorRegs (bitsAt pma 37 4)) (h.hbmUe pma detail job) := by
  rw [Hw.hbmUe_eq]
  split
  · exact Hw.regsBut_recordUe
  · exact Hw.regsBut_recordUe.trans Hw.regsBut_retirePage

theorem Hw.retired_hbmUe : pma / pageBytes ∈ ((h.hbmUe pma detail job).hbmOf (bitsAt pma 37 4)).retired := by
  rw [Hw.hbmUe_eq]
  split
  next listed => exact List.contains_iff_mem.1 listed
  · rw [Hw.hbmOf_retirePage]
    exact (mem_insNat _ _).2 (.inl rfl)

/-! ## A corrected sector -/

theorem Hw.count_recordCe : (h.recordCe pma).fld (Fd.HBM_ECC.CE_CNT (bitsAt pma 37 4)) =
    min (h.fld (Fd.HBM_ECC.CE_CNT (bitsAt pma 37 4)) + 1) 0xFFF := by
  unfold Hw.recordCe
  dsimp only
  rw [Hw.only_hbmField.fld (by decide), Hw.fld_satFld_same _ _ _ (show 0 + 12 ≤ 32 by decide)]
  rfl

theorem Hw.regsBut_recordCe : h.RegsBut (errorRegs (bitsAt pma 37 4)) (h.recordCe pma) :=
  ((Hw.regsBut_satFld (f := Fd.HBM_ECC.CE_CNT _)).mono (by simp [errorRegs, Fd.HBM_ECC.CE_CNT])).trans (.of_regs rfl)

theorem Hw.corrected_sector : ∃ c : Bool, h.corrected (hbmAddr pma) =
    if c then (h.recordCe pma).retirePage (bitsAt pma 37 4) (pma / pageBytes) pma else h.recordCe pma := by
  have pma_eq : pmaOf (hbmAddr pma) = pma := by unfold pmaOf hbmAddr; omega
  have := Hw.corrected_hbm (h := h) (a := hbmAddr pma) (by unfold hbmAddr; omega)
  rwa [pma_eq] at this

theorem Hw.count_corrected : (h.corrected (hbmAddr pma)).fld (Fd.HBM_ECC.CE_CNT (bitsAt pma 37 4)) =
    min (h.fld (Fd.HBM_ECC.CE_CNT (bitsAt pma 37 4)) + 1) 0xFFF := by
  obtain ⟨c, e⟩ := Hw.corrected_sector (h := h) (pma := pma)
  rw [e]
  split
  · rw [Hw.fld_retirePage rfl, Hw.count_recordCe]
  · exact Hw.count_recordCe

theorem Hw.regsBut_corrected : h.RegsBut (errorRegs (bitsAt pma 37 4)) (h.corrected (hbmAddr pma)) := by
  obtain ⟨c, e⟩ := Hw.corrected_sector (h := h) (pma := pma)
  rw [e]
  split
  · exact Hw.regsBut_recordCe.trans Hw.regsBut_retirePage
  · exact Hw.regsBut_recordCe

end

end Sys2Proof.Machine
end

section
/-!
PROOFS. The patrol scrub (R123) and the error check of a stack (R119), and O55.
-/
namespace Sys2Proof.Machine

/-! ## What the scrub finds -/

section
variable {h : Hw} {pma : Nat} {found : Option Bool}

theorem Hw.noted_scrubFinds : h.Noted (h.scrubFinds pma found) := by
  unfold Hw.scrubFinds
  split
  · exact .refl _
  · exact Hw.noted_corrected
  · exact Hw.noted_hbmUe

theorem Hw.regsBut_scrubFinds : h.RegsBut (errorRegs (bitsAt pma 37 4)) (h.scrubFinds pma found) := by
  unfold Hw.scrubFinds
  split
  · exact .refl _ _
  · exact Hw.regsBut_corrected
  · exact Hw.regsBut_hbmUe

end

/-! ## The walk -/

/-- The machine with the walk of a stack's scrub past a sector. -/
def Hw.walked (h : Hw) (n pos : Nat) : Hw :=
  { h with hbm := h.hbm.upd n {} (fun x => { x with scrubPos := (pos + 1) % stackSectors }) }

/-- And with a pass counted after the last sector. -/
def Hw.passed (h : Hw) (n pos : Nat) : Hw :=
  if pos + 1 = stackSectors then (h.walked n pos).satFld (Fd.HBM_SCRUB_CTRL.PASSES n) 1 else h.walked n pos

section
variable {h : Hw} {n pos : Nat}

theorem Hw.only_walked : h.Only [.hbm] (h.walked n pos) := Hw.only_hbmField

theorem Hw.only_passed : h.Only [.regs, .hbm] (h.passed n pos) :=
  .ite ((Hw.only_walked.mono (by decide)).trans (Hw.only_satFld.mono (by decide))) (Hw.only_walked.mono (by decide))

theorem Hw.regsBut_passed : h.RegsBut [Reg.HBM_SCRUB_CTRL n] (h.passed n pos) := by
  have walked : h.RegsBut [Reg.HBM_SCRUB_CTRL n] (h.walked n pos) := fun a _ => Hw.only_walked.reg (by decide) a
  unfold Hw.passed
  split
  · exact walked.trans (Hw.regsBut_satFld (f := Fd.HBM_SCRUB_CTRL.PASSES n))
  · exact walked

theorem Hw.hbmOf_passed : (h.passed n pos).hbmOf n = { h.hbmOf n with scrubPos := (pos + 1) % stackSectors } := by
  have walked : (h.walked n pos).hbmOf n = { h.hbmOf n with scrubPos := (pos + 1) % stackSectors } := Hw.hbmOf_upd
  unfold Hw.passed
  split
  · rw [Hw.hbmOf_of_hbm (Hw.only_satFld .hbm (by decide)), walked]
  · exact walked

theorem Hw.retired_passed : ((h.passed n pos).hbmOf n).retired = (h.hbmOf n).retired := by rw [Hw.hbmOf_passed]

theorem Hw.passes_passed (last : pos + 1 = stackSectors) : (h.passed n pos).fld (Fd.HBM_SCRUB_CTRL.PASSES n) =
    min (h.fld (Fd.HBM_SCRUB_CTRL.PASSES n) + 1) 0xFFFF := by
  rw [Hw.passed, if_pos last, Hw.fld_satFld_same _ _ _ (show 8 + 16 ≤ 32 by decide), Hw.only_walked.fld (by decide)]
  rfl

end

/-! ## The rows -/

section
variable {n : Fin 16} {found : Option Bool} {s : State}

/-- Whether the scrub reads a sector of a stack. -/
def Hw.scrubs (h : Hw) (n : Nat) : Prop :=
  h.flag (Fd.HBM_SCRUB_CTRL.EN n) = true ∧ h.flag (Fd.HBM_STATUS.IN_SERVICE n) = true ∧ h.flag (Fd.HBM_STATUS.HOLD n) = false

/-- The physical address of the next sector. -/
def Hw.scrubPma (h : Hw) (n : Nat) : Nat := n * 2 ^ 37 + 32 * (h.hbmOf n).scrubPos

/-- What the scrub does with the next sector: `bad` when it is uncorrectable. -/
def scrubRead (n : Nat) (found : Option Bool) (s : State) (bad : Bool) : Eff :=
  { hw := (s.hw.scrubFinds (s.hw.scrubPma n) (if bad then some false else found)).passed n (s.hw.hbmOf n).scrubPos,
    edits := if bad then [.poison (hbmAddr (s.hw.scrubPma n))] else [] }

theorem scrubRead_bad_hw : (scrubRead n found s true).hw =
    (s.hw.hbmUe (s.hw.scrubPma n) 0 0).passed n (s.hw.hbmOf n).scrubPos := rfl
theorem scrubRead_bad_edits : (scrubRead n found s true).edits = [.poison (hbmAddr (s.hw.scrubPma n))] := rfl
theorem scrubRead_corrected_hw : (scrubRead n (some true) s false).hw =
    (s.hw.corrected (hbmAddr (s.hw.scrubPma n))).passed n (s.hw.hbmOf n).scrubPos := rfl

theorem scrubEff_stopped (off : ¬ s.hw.scrubs n) : scrubEff n found s = { hw := s.hw } := if_neg off

theorem scrubEff_on (on : s.hw.scrubs n) : scrubEff n found s =
    scrubRead n found s (found == some false || (s.mem.ueIn (hbmAddr (s.hw.scrubPma n)) 32).isSome) := if_pos on

theorem scrubEff_bad (on : s.hw.scrubs n) (bad : found = some false ∨ s.mem.ueIn (hbmAddr (s.hw.scrubPma n)) 32 ≠ none) :
    scrubEff n found s = scrubRead n found s true := by
  rw [scrubEff_on on]
  congr 1
  rw [Bool.or_eq_true, beq_iff_eq, Option.isSome_iff_ne_none]
  exact bad

theorem scrubEff_good (on : s.hw.scrubs n) (found_ne : found ≠ some false) (good : s.mem.ueIn (hbmAddr (s.hw.scrubPma n)) 32 = none) :
    scrubEff n found s = scrubRead n found s false := by
  rw [scrubEff_on on, good]
  congr 1
  simpa using found_ne

/-- A step of the scrub reads the next sector or changes nothing. -/
theorem scrubEff_cases : scrubEff n found s = { hw := s.hw } ∨ ∃ bad, scrubEff n found s = scrubRead n found s bad := by
  by_cases on : s.hw.scrubs n
  · exact .inr ⟨_, scrubEff_on on⟩
  · exact .inl (scrubEff_stopped on)

/-- A sector of a stack lies in the stack's range. -/
theorem Hw.bitsAt_scrubPma (low : (s.hw.hbmOf n).scrubPos < 2684354560) : bitsAt (s.hw.scrubPma n) 37 4 = n := by
  have := n.isLt
  unfold Hw.scrubPma bitsAt
  rw [Nat.shiftRight_eq_div_pow]
  omega

theorem only_scrubEff : s.hw.Only [.regs, .hbm, .host, .logs, .hist, .out] (scrubEff n found s).hw := by
  obtain e | ⟨bad, e⟩ := scrubEff_cases (n := n) (found := found) (s := s)
  · rw [e]
    exact .refl _ _
  · rw [e]
    exact Hw.noted_scrubFinds.only.trans (Hw.only_passed.mono (by decide))

/-- The scrub marks a sector and writes none. -/
theorem but_scrubEff : Mem.But [] s.mem (s.mem.edit (scrubEff n found s).edits) := by
  have poison (a : Nat) : [Edit.poison a] = seenEdits { Seen.clean with ue := [a] } := rfl
  obtain e | ⟨bad, e⟩ := scrubEff_cases (n := n) (found := found) (s := s)
  · rw [e]
    exact fun _ _ => rfl
  · rw [e, scrubRead]
    split
    · rw [poison]
      exact Mem.but_seenEdits _ _
    · exact fun _ _ => rfl

theorem fuses_scrubEff : (s.commit (scrubEff n found s)).fuses = s.fuses := by
  rw [State.commit_fuses]
  obtain e | ⟨bad, e⟩ := scrubEff_cases (n := n) (found := found) (s := s) <;> rw [e] <;> rfl

theorem Hw.not_scrubs {h : Hw} {n : Nat} (off : h.flag (Fd.HBM_SCRUB_CTRL.EN n) = false ∨ h.flag (Fd.HBM_STATUS.IN_SERVICE n) = false ∨
    h.flag (Fd.HBM_STATUS.HOLD n) = true) : ¬ h.scrubs n := by
  rintro ⟨en, service, hold⟩
  obtain e | e | e := off
  · rw [en] at e; cases e
  · rw [service] at e; cases e
  · rw [hold] at e; cases e

theorem ecc_ne_scrubCtrl (n : Nat) : Reg.HBM_ECC n ∉ [Reg.HBM_SCRUB_CTRL n] := by
  simp [Reg.HBM_ECC, Reg.HBM_SCRUB_CTRL]

theorem scrubRead_walk (low : (s.hw.hbmOf n).scrubPos < 2684354560) (bad : Bool) :
    ((scrubRead n found s bad).hw.hbmOf n).scrubPos = ((s.hw.hbmOf n).scrubPos + 1) % 2684354560 ∧
    ((s.hw.hbmOf n).scrubPos = 2684354559 → (scrubRead n found s bad).hw.fld (Fd.HBM_SCRUB_CTRL.PASSES n) =
      min (s.hw.fld (Fd.HBM_SCRUB_CTRL.PASSES n) + 1) 0xFFFF) := by
  have kept := Hw.regsBut_scrubFinds (h := s.hw) (pma := s.hw.scrubPma n) (found := if bad then some false else found)
  rw [Hw.bitsAt_scrubPma low] at kept
  refine ⟨?_, fun last => ?_⟩
  · rw [scrubRead, Hw.hbmOf_passed]
    rfl
  · rw [scrubRead, Hw.passes_passed (by rw [last]; decide), kept.fld (scrubCtrl_not_mem n)]

theorem mem_ue_poison {m : Mem} {a : Nat} (piece : a = pieceOf a) : a ∈ (m.edit [.poison a]).ue :=
  (mem_insNat _ _).2 (.inl piece)

theorem scrubRead_bad_mem : hbmAddr (s.hw.scrubPma n) ∈ (s.mem.edit (scrubRead n found s true).edits).ue := by
  have piece : hbmAddr (s.hw.scrubPma n) = pieceOf (hbmAddr (s.hw.scrubPma n)) := by
    unfold pieceOf hbmAddr Hw.scrubPma
    omega
  rw [scrubRead_bad_edits]
  exact mem_ue_poison piece

theorem scrubRead_bad_count (low : (s.hw.hbmOf n).scrubPos < 2684354560) :
    (scrubRead n found s true).hw.fld (Fd.HBM_ECC.UE_CNT n) = min (s.hw.fld (Fd.HBM_ECC.UE_CNT n) + 1) 0xFF := by
  have count := Hw.count_hbmUe (h := s.hw) (pma := s.hw.scrubPma n) (detail := 0) (job := 0)
  rw [Hw.bitsAt_scrubPma low] at count
  rw [scrubRead_bad_hw, Hw.regsBut_passed.fld (ecc_ne_scrubCtrl n), count]

theorem scrubRead_bad_retired (low : (s.hw.hbmOf n).scrubPos < 2684354560) :
    (hbmAddr (s.hw.scrubPma n) - 2 ^ 44) / 2097152 ∈ ((scrubRead n found s true).hw.hbmOf n).retired := by
  have page := Hw.retired_hbmUe (h := s.hw) (pma := s.hw.scrubPma n) (detail := 0) (job := 0)
  have base : hbmAddr (s.hw.scrubPma n) - 2 ^ 44 = s.hw.scrubPma n := by unfold hbmAddr; omega
  have size : pageBytes = 2097152 := rfl
  rw [Hw.bitsAt_scrubPma low, size] at page
  rwa [scrubRead_bad_hw, Hw.retired_passed, base]

theorem scrubRead_corrected (low : (s.hw.hbmOf n).scrubPos < 2684354560) :
    (scrubRead n (some true) s false).hw.fld (Fd.HBM_ECC.CE_CNT n) = min (s.hw.fld (Fd.HBM_ECC.CE_CNT n) + 1) 0xFFF := by
  have count := Hw.count_corrected (h := s.hw) (pma := s.hw.scrubPma n)
  rw [Hw.bitsAt_scrubPma low] at count
  rw [scrubRead_corrected_hw, Hw.regsBut_passed.fld (ecc_ne_scrubCtrl n), count]

theorem exec_patrolScrub : ∃ t, exec (.patrolScrub n found) s = .next t ∧ t.pending = s.pending ∧ t.fuses = s.fuses ∧
    Mem.But [] s.mem t.mem ∧ s.hw.Only [.regs, .hbm, .host, .logs, .hist, .out] t.hw ∧
    (s.hw.flag (Fd.HBM_SCRUB_CTRL.EN n) = false ∨ s.hw.flag (Fd.HBM_STATUS.IN_SERVICE n) = false ∨
      s.hw.flag (Fd.HBM_STATUS.HOLD n) = true → t = s) ∧
    (s.hw.flag (Fd.HBM_SCRUB_CTRL.EN n) = true → s.hw.flag (Fd.HBM_STATUS.IN_SERVICE n) = true →
        s.hw.flag (Fd.HBM_STATUS.HOLD n) = false → ∀ a, a = 2 ^ 44 + n * 2 ^ 37 + 32 * (s.hw.hbmOf n).scrubPos →
        (s.hw.hbmOf n).scrubPos < 2684354560 →
      (t.hw.hbmOf n).scrubPos = ((s.hw.hbmOf n).scrubPos + 1) % 2684354560 ∧
      ((s.hw.hbmOf n).scrubPos = 2684354559 → t.hw.fld (Fd.HBM_SCRUB_CTRL.PASSES n) =
        min (s.hw.fld (Fd.HBM_SCRUB_CTRL.PASSES n) + 1) 0xFFFF) ∧
      (found = some false ∨ s.mem.ueIn a 32 ≠ none → a ∈ t.mem.ue ∧
        t.hw.fld (Fd.HBM_ECC.UE_CNT n) = min (s.hw.fld (Fd.HBM_ECC.UE_CNT n) + 1) 0xFF ∧
        (a - 2 ^ 44) / 2097152 ∈ (t.hw.hbmOf n).retired) ∧
      (found = some true → s.mem.ueIn a 32 = none → t.mem = s.mem ∧
        t.hw.fld (Fd.HBM_ECC.CE_CNT n) = min (s.hw.fld (Fd.HBM_ECC.CE_CNT n) + 1) 0xFFF) ∧
      (found = none → s.mem.ueIn a 32 = none → Frame [.regs, .hbm] s t ∧ s.hw.RegsBut [Reg.HBM_SCRUB_CTRL n] t.hw)) := by
  refine ⟨s.commit (scrubEff n found s), rfl, rfl, fuses_scrubEff, ?_, only_scrubEff, fun off => ?_, fun en service hold a ha low => ?_⟩
  · rw [State.commit_mem]
    exact but_scrubEff
  · rw [scrubEff_stopped (Hw.not_scrubs off)]
    rfl
  · have on : s.hw.scrubs n := ⟨en, service, hold⟩
    have addr : hbmAddr (s.hw.scrubPma n) = a := by
      rw [ha]
      exact (Nat.add_assoc _ _ _).symm
    have walk := scrubRead_walk (n := n) (found := found) low
    subst addr
    refine ⟨?_, ?_, fun bad => ?_, fun ce good => ?_, fun clean good => ?_⟩
    · rw [State.commit_hw, scrubEff_on on]
      exact (walk _).1
    · rw [State.commit_hw, scrubEff_on on]
      exact (walk _).2
    · rw [State.commit_hw, State.commit_mem, scrubEff_bad on bad]
      exact ⟨scrubRead_bad_mem, scrubRead_bad_count low, scrubRead_bad_retired low⟩
    · rw [State.commit_hw, State.commit_mem, scrubEff_good on (by rw [ce]; decide) good, ce]
      exact ⟨rfl, scrubRead_corrected low⟩
    · rw [scrubEff_good on (by rw [clean]; decide) good, clean]
      have hw : (s.commit (scrubRead n none s false)).hw = s.hw.passed n (s.hw.hbmOf n).scrubPos := rfl
      exact ⟨.keep Hw.only_passed, hw ▸ Hw.regsBut_passed⟩

end

/-! ## The error check -/

section
variable {n : Fin 16} {k : BitVec 32} {s : State}

theorem exec_ecsRead : ∃ t, exec (.ecsRead n k) s = .next t ∧ Frame [.regs, .hbm] s t ∧
    (s.hw.flag (Fd.HBM_STATUS.IN_SERVICE n) = false ∨ s.hw.tb < (s.hw.hbmOf n).ecsTb + 60000000000 → t = s) ∧
    (s.hw.flag (Fd.HBM_STATUS.IN_SERVICE n) = true → (s.hw.hbmOf n).ecsTb + 60000000000 ≤ s.hw.tb →
      s.hw.RegsBut [Reg.HBM_ECS n] t.hw ∧ (t.hw.hbmOf n).ecsTb = s.hw.tb ∧
      t.hw.fld (Fd.HBM_ECS.ECS_CNT n) = min (s.hw.fld (Fd.HBM_ECS.ECS_CNT n) + k.toNat) 0xFFFFFFFF) := by
  refine ⟨{ s with hw := ecsHw n k s.hw }, rfl, ?_⟩
  by_cases due : s.hw.flag (Fd.HBM_STATUS.IN_SERVICE n) = true ∧ (s.hw.hbmOf n).ecsTb + 60000000000 ≤ s.hw.tb
  · rw [ecsHw, if_pos due]
    have read : s.hw.Only [.hbm] { s.hw with hbm := s.hw.hbm.upd n {} fun x => { x with ecsTb := s.hw.tb } } := Hw.only_hbmField
    have stack : ({ s.hw with hbm := s.hw.hbm.upd n {} fun x => { x with ecsTb := s.hw.tb } } : Hw).hbmOf n =
        { s.hw.hbmOf n with ecsTb := s.hw.tb } := Hw.hbmOf_upd
    generalize ({ s.hw with hbm := s.hw.hbm.upd n {} fun x => { x with ecsTb := s.hw.tb } } : Hw) = h at read stack ⊢
    refine ⟨.keep ((read.mono (by decide)).trans (Hw.only_satFld.mono (by decide))), fun idle => ?_, fun _ _ => ⟨?_, ?_, ?_⟩⟩
    · obtain ⟨service, late⟩ := due
      obtain out | early := idle
      · rw [service] at out
        cases out
      · omega
    · have same : s.hw.RegsBut [Reg.HBM_ECS n] h := fun a _ => read.reg (by decide) a
      exact same.trans (Hw.regsBut_satFld (f := Fd.HBM_ECS.ECS_CNT n))
    · rw [Hw.hbmOf_of_hbm (Hw.only_satFld .hbm (by decide)), stack]
    · rw [Hw.fld_satFld_same _ _ _ (show 0 + 32 ≤ 32 by decide), read.fld (by decide)]
      rfl
  · rw [ecsHw, if_neg due]
    exact ⟨.keep (.refl _ _), fun _ => rfl, fun service late => absurd ⟨service, late⟩ due⟩

end

/-- Settles O55, row by row: a test's rows change the cluster's test and what shows it, the scrub and the error check a stack's. -/
theorem memoryTestsInService : Obligations.MemoryTestsInService := by
  unfold Obligations.MemoryTestsInService
  exact ⟨fun _ _ _ _ hb => ⟨exec_regionTestStart hb, exec_regionTestPromote hb, fun _ => exec_regionTestUnlock hb⟩,
    fun _ _ => ⟨fun _ => exec_patrolScrub, fun _ => exec_ecsRead⟩⟩

end Sys2Proof.Machine
end
